-- ==== Sys2Proof/Word.lean ====
section
/-! DEFINITION. The word types of the register and table space (R10: 32-bit registers) and of the job store. -/

namespace Sys2Proof

/-- A register or table word (R10, R521). -/
abbrev Word := BitVec 32

/-- A byte of the job store, of flash or of a wire message. -/
abbrev Byte := BitVec 8

end Sys2Proof
end

