-- ==== Sys2Proof/Machine/Bits.lean ====
section
/-! DEFINITION. Bit fields (R4), byte order (R5), fixed point (R7), comparison of truncated counters (R8), the
operators of the manual's pseudocode (R9), CRC-32C and HMAC-SHA-256. -/

namespace Sys2Proof.Machine

/-- Bits [hi:lo] of a number (R4). -/
def bits (v hi lo : Nat) : Nat := (v >>> lo) % 2 ^ (hi + 1 - lo)

/-- Bit `i` of a number (R4). -/
def bit (v i : Nat) : Bool := v.testBit i

/-- `v` with bits [hi:lo] replaced by the low bits of `x` (R4). -/
def setBits (v hi lo x : Nat) : Nat :=
  let w := 2 ^ (hi + 1 - lo)
  v - (bits v hi lo) * 2 ^ lo + (x % w) * 2 ^ lo

/-- `v` with bit `i` set to `b`. -/
def setBit (v i : Nat) (b : Bool) : Nat := setBits v i i (if b then 1 else 0)

/-- The number a Bool stands for in a one-bit field. -/
def b2n (b : Bool) : Nat := if b then 1 else 0

/-- An n-bit field read as two's complement (R7). -/
def sgn (n v : Nat) : Int :=
  let v := v % 2 ^ n
  if v < 2 ^ (n - 1) then (v : Int) else (v : Int) - (2 ^ n : Nat)

/-- A signed number as an n-bit two's-complement field (R7). -/
def unsgn (n : Nat) (v : Int) : Nat := (v % ((2 ^ n : Nat) : Int)).toNat

/-- The signed distance a − b of two n-bit counters (R8). -/
def cdiff (n a b : Nat) : Int := sgn n ((a % 2 ^ n + 2 ^ n - b % 2 ^ n) % 2 ^ n)

/-- Whether the n-bit counter `a` is later than `b` (R8). -/
def later (n a b : Nat) : Bool := decide (0 < cdiff n a b)

/-- R9's clamp. -/
def clamp (x lo hi : Int) : Int := if x < lo then lo else if x > hi then hi else x

/-- R9's `>>`: an arithmetic shift, rounding toward minus infinity. -/
def sar (x : Int) (k : Nat) : Int := x / ((2 ^ k : Nat) : Int)

/-- R9's `/`: division truncating toward zero (0 for a zero divisor, which no rule divides by). -/
def tdv (x y : Int) : Int := Int.tdiv x y

/-- Division rounded up. -/
def cdiv (a b : Nat) : Nat := if b = 0 then 0 else (a + b - 1) / b

/-- Floor of the square root, by Newton's steps bounded by `fuel`. -/
def isqrtGo (n : Nat) : Nat → Nat → Nat
  | 0, x => x
  | k + 1, x =>
    let y := (x + n / x) / 2
    if y < x then isqrtGo n k y else x

/-- Floor of the square root of a natural number. -/
def isqrt (n : Nat) : Nat :=
  if n = 0 then 0 else isqrtGo n (n.log2 + 8) (2 ^ (n.log2 / 2 + 1))

/-- The big-endian number of a byte list (R5: wires). -/
def beNat : List Byte → Nat := List.foldl (fun a b => a * 256 + b.toNat) 0

/-- The little-endian number of a byte list (R5: DRAM and flash structures). -/
def leNat : List Byte → Nat
  | [] => 0
  | b :: bs => b.toNat + 256 * leNat bs

/-- `n` little-endian bytes of a number (R5). -/
def leBytes : Nat → Nat → List Byte
  | 0, _ => []
  | n + 1, v => BitVec.ofNat 8 v :: leBytes n (v / 256)

/-- `n` big-endian bytes of a number (R5). -/
def beBytes (n v : Nat) : List Byte := (leBytes n v).reverse

/-- Bytes from `off`, `n` of them (fewer where the list ends). -/
def slice (bs : List Byte) (off n : Nat) : List Byte := (bs.drop off).take n

/-- The big-endian field of `n` bytes at `off`. -/
def beAt (bs : List Byte) (off n : Nat) : Nat := beNat (slice bs off n)

/-- The little-endian field of `n` bytes at `off`. -/
def leAt (bs : List Byte) (off n : Nat) : Nat := leNat (slice bs off n)

/-- One bit of the reflected CRC-32C register, polynomial 0x1EDC_6F41 reflected. -/
def crcBit (c : BitVec 32) : BitVec 32 :=
  if c.getLsbD 0 then (c >>> 1) ^^^ 0x82F63B78#32 else c >>> 1

/-- One byte into the reflected CRC-32C register. -/
def crcByte (c : BitVec 32) (b : Byte) : BitVec 32 :=
  let c := c ^^^ b.setWidth 32
  crcBit (crcBit (crcBit (crcBit (crcBit (crcBit (crcBit (crcBit c)))))))

/-- CRC-32C of a byte list: initial value and final XOR all ones, reflected. -/
def crc32c (bs : List Byte) : Nat := ((bs.foldl crcByte 0xFFFFFFFF#32) ^^^ 0xFFFFFFFF#32).toNat

/-- SHA-256's round constants, eight to a number, the first in its top bits. -/
def shaKeyRows : List Nat := [
  0x428a2f9871374491b5c0fbcfe9b5dba53956c25b59f111f1923f82a4ab1c5ed5,
  0xd807aa9812835b01243185be550c7dc372be5d7480deb1fe9bdc06a7c19bf174,
  0xe49b69c1efbe47860fc19dc6240ca1cc2de92c6f4a7484aa5cb0a9dc76f988da,
  0x983e5152a831c66db00327c8bf597fc7c6e00bf3d5a7914706ca635114292967,
  0x27b70a852e1b21384d2c6dfc53380d13650a7354766a0abb81c2c92e92722c85,
  0xa2bfe8a1a81a664bc24b8b70c76c51a3d192e819d6990624f40e3585106aa070,
  0x19a4c1161e376c082748774c34b0bcb5391c0cb34ed8aa4a5b9cca4f682e6ff3,
  0x748f82ee78a5636f84c878148cc7020890befffaa4506cebbef9a3f7c67178f2]

/-- The eight 32-bit words of a number, top word first. -/
def octet32 (n : Nat) : List (BitVec 32) := (List.range 8).map fun k => BitVec.ofNat 32 (n >>> (224 - 32 * k))

/-- SHA-256's round constants. -/
def shaK : List (BitVec 32) := shaKeyRows.flatMap octet32

/-- SHA-256's working variables a–h. -/
structure ShaVars where
  a : BitVec 32
  b : BitVec 32
  c : BitVec 32
  d : BitVec 32
  e : BitVec 32
  f : BitVec 32
  g : BitVec 32
  h : BitVec 32
  deriving DecidableEq, Repr

/-- SHA-256's initial hash value. -/
def shaInit : ShaVars := ⟨0x6a09e667, 0xbb67ae85, 0x3c6ef372, 0xa54ff53a, 0x510e527f, 0x9b05688c, 0x1f83d9ab, 0x5be0cd19⟩

/-- One round of SHA-256 with its key and schedule words. -/
def shaRound (v : ShaVars) (kw : BitVec 32 × BitVec 32) : ShaVars :=
  let s1 := v.e.rotateRight 6 ^^^ v.e.rotateRight 11 ^^^ v.e.rotateRight 25
  let ch := (v.e &&& v.f) ^^^ (~~~v.e &&& v.g)
  let t1 := v.h + s1 + ch + kw.1 + kw.2
  let s0 := v.a.rotateRight 2 ^^^ v.a.rotateRight 13 ^^^ v.a.rotateRight 22
  let mj := (v.a &&& v.b) ^^^ (v.a &&& v.c) ^^^ (v.b &&& v.c)
  ⟨t1 + s0 + mj, v.a, v.b, v.c, v.d + t1, v.e, v.f, v.g⟩

/-- The message schedule, newest word first: `k` more words from the sixteen or more there. -/
def shaSchedule : Nat → List (BitVec 32) → List (BitVec 32)
  | 0, w => w
  | k + 1, w =>
    let w15 := w.getD 14 0
    let w2 := w.getD 1 0
    let s0 := w15.rotateRight 7 ^^^ w15.rotateRight 18 ^^^ (w15 >>> 3)
    let s1 := w2.rotateRight 17 ^^^ w2.rotateRight 19 ^^^ (w2 >>> 10)
    shaSchedule k ((w.getD 15 0 + s0 + w.getD 6 0 + s1) :: w)

/-- The big-endian words of a block. -/
def shaWords : Nat → List Byte → List (BitVec 32)
  | 0, _ => []
  | k + 1, bs => BitVec.ofNat 32 (beNat (bs.take 4)) :: shaWords k (bs.drop 4)

/-- One 64-byte block into the hash value. -/
def shaBlock (v : ShaVars) (blk : List Byte) : ShaVars :=
  let w := (shaSchedule 48 (shaWords 16 blk).reverse).reverse
  let r := (shaK.zip w).foldl shaRound v
  ⟨v.a + r.a, v.b + r.b, v.c + r.c, v.d + r.d, v.e + r.e, v.f + r.f, v.g + r.g, v.h + r.h⟩

/-- `k` blocks of a padded message into the hash value. -/
def shaBlocks : Nat → List Byte → ShaVars → ShaVars
  | 0, _, v => v
  | k + 1, bs, v => shaBlocks k (bs.drop 64) (shaBlock v (bs.take 64))

/-- SHA-256 (FIPS 180-4; PRESUMED: the spec names the function only). -/
def sha256 (bs : List Byte) : List Byte :=
  let n := bs.length
  let pad := (119 - n % 64) % 64
  let m := bs ++ [0x80] ++ List.replicate pad 0 ++ beBytes 8 (8 * n)
  let v := shaBlocks (m.length / 64) m shaInit
  [v.a, v.b, v.c, v.d, v.e, v.f, v.g, v.h].flatMap fun x => beBytes 4 x.toNat

/-- HMAC-SHA-256 of a message under a 32-byte key (FIPS 198-1; PRESUMED: the spec names the function only). -/
def hmacSha256 (key msg : List Byte) : List Byte :=
  let k := key ++ List.replicate (64 - key.length) 0
  sha256 (k.map (· ^^^ 0x5C#8) ++ sha256 (k.map (· ^^^ 0x36#8) ++ msg))

end Sys2Proof.Machine
end

