-- ==== Sys2Proof/Machine/LaneParts.lean ====
section
/-! DEFINITION. The plain-data parts of the state that belong to the lanes, the Joend records and the firing safety
(spec/08, spec/09). -/

namespace Sys2Proof.Machine

/-- A SET or WAVE record sent and not yet acknowledged, or waiting to be sent (R278, R282). -/
structure Ctl where
  wave : Bool
  applySeq : Nat
  head : Nat
  band : Nat
  waveId : Nat
  /-- SET entries: KEY and VALUE. -/
  entries : List (Nat × Nat)
  recId : Nat
  sentAt : Nat
  copies : Nat
  deriving DecidableEq, Repr

/-- One lane's state beyond its registers (R237–R250, R267, R282, R291). Times are device time. -/
structure LaneSt where
  /-- Entry to the present training state. -/
  since : Nat
  /-- Four TS1 and four TS2 are held; TS2 sets sent; the far end's RATES and the preset it requests. -/
  ts1 : Bool
  ts2 : Bool
  ts2Sent : Nat
  farRates : Nat
  farPreset : Nat
  eqMine : Bool
  eqFar : Bool
  eyeOk : Bool
  identOk : Bool
  /-- The attempt has seen a signal. -/
  sawSignal : Bool
  /-- The receiver's CDR holds lock (R234). -/
  lock : Bool
  /-- Consecutive failed attempts, those that failed silently, and failures since the backoff sequence restarted. -/
  failRun : Nat
  silentRun : Nat
  backoff : Nat
  fromAbsent : Bool
  readyAt : Nat
  lastTx : Nat
  /-- The last LINE, RETIME, WAVE or SET record to send (R247). -/
  lastUse : Nat
  lowAt : Nat
  exitAt : Nat
  exitL2 : Bool
  eiSent : Option Nat
  /-- The identity being read: HEADS, DEPTH, and by head its SLOT_BASE and record (R286). -/
  heads : Nat
  depth : Nat
  idents : List (Nat × Nat × List Byte)
  /-- TSYNC records: the next TS_ID, those not answered (TS_ID, T1), and TIMELOCK's RTTs in 1/16 ns (R267). -/
  tsId : Nat
  tsOut : List (Nat × Nat)
  rtts : List Int
  tsyncAt : Nat
  terrRun : Nat
  /-- SET and WAVE records waiting or unacknowledged, oldest first (R282). -/
  ctl : List Ctl
  statAt : Nat
  /-- A STAT has come in this READY period. -/
  statGot : Bool
  /-- BUF_FILL of the last STAT (R386). -/
  bufFill : Nat
  /-- Heads whose WAVE has been sent in this READY period (R283). -/
  tempSeen : List Nat
  /-- The page at the reference bar when 0x420C was last raised (R285): the order of its job and its number, or none there. -/
  emptyPage : Option (Option (Nat × Nat))
  marginRaised : Bool
  /-- ELSYNC round trips in 1/16 ns and the lane's arrival skew (R380). -/
  els : List Int
  /-- Own ELSYNCs of the exchange sent so far. -/
  elsTx : Nat
  skew : Int
  /-- When the last retime cycle ran (R262). -/
  retimeAt : Nat
  deriving DecidableEq, Repr

/-- A LINE record of a channel, from the end of its composition to its fire time (R256–R262). -/
structure ChanLine where
  seq : Nat
  bar : Nat
  job : Nat
  ord : Nat
  line : Nat
  page : Nat
  /-- Fire position in pu and the prediction in ns (R196, R200). -/
  fp : Int
  pred : Nat
  /-- WP_PRED as in force for the line (R119). -/
  lead : Nat
  /-- The fire time stamped at departure; none while the record has not left (R261). -/
  stamp : Option Nat
  /-- When its composition started, and when its record was complete. -/
  startAt : Nat
  doneAt : Nat
  void : Bool
  /-- It is VOID on SAFE's account (R303–R305). -/
  safe : Bool
  bits3 : Bool
  gap : Bool
  test : Bool
  slots : Nat
  pchk : Nat
  payload : List Byte
  /-- Nothing is sent for it on this lane (R242, R244). -/
  unsent : Bool
  /-- A VOID has left for it. -/
  voided : Bool
  /-- Surface slots it depends on: surface id, generation, slot (R45). -/
  deps : List (Nat × Nat × Nat)
  deriving DecidableEq, Repr

/-- A waste range (R305, R306), in reference coordinates; whether its end is known and event 0x4201 has been raised. -/
structure WasteRange where
  causes : Nat
  lo : Int
  hi : Int
  told : Bool
  deriving DecidableEq, Repr

/-- A waste cause that lasts: its bit, the bars it stops and Q at its start (R305); and the range it is merged into where it came
as the 65th (R306). -/
structure OpenCause where
  bit : Nat
  bars : Nat
  q1 : Int
  into : Option WasteRange
  deriving DecidableEq, Repr

/-- Firing safety (R295–R307). -/
structure Fire where
  ranges : List WasteRange
  opens : List OpenCause
  waste0 : Bool
  waste1 : Bool
  /-- FIRE_INH_N as filtered; when it last rose. -/
  inhPin : Bool
  inhRose : Nat
  stbSense : Nat
  deriving DecidableEq, Repr

end Sys2Proof.Machine
end

