-- ==== Sys2Proof/Machine/StoreParts.lean ====
section
/-! DEFINITION. The plain-data parts of the state that belong to the job store, ingest, jobs and pages (spec/02,
spec/04): sessions, windows, transfers, the strip directory, surfaces, jobs, page entries and checked page runs. -/

namespace Sys2Proof.Machine

/-- An open DBT session (R54). -/
structure Session where
  id : Nat
  frag : Nat
  deriving DecidableEq, Repr

/-- The kind of a window (R55). -/
inductive WinKind where
  | stripWrite | tableWrite | readBack
  deriving DecidableEq, Repr

/-- An open window (R55). `target` is the READ_BACK target; `img` the table image slot. -/
structure Window where
  num : Nat
  session : Nat
  kind : WinKind
  target : Nat
  surf : Nat
  gen : Nat
  img : Nat
  readonly : Bool
  deriving DecidableEq, Repr

/-- A transfer in flight (R62). -/
structure Xfer where
  session : Nat
  window : Nat
  id : Nat
  obj : Nat
  fragCount : Nat
  len : Nat
  crc : Nat
  /-- Fragments received. -/
  got : List Nat
  /-- Store address of its first byte. -/
  addr : Nat
  /-- Device time of its last fragment; and the source and port of the fragment that completed it, or of its last one so
  far (R60). -/
  lastAt : Nat
  src : Nat
  port : Nat
  ports : List Nat
  deriving DecidableEq, Repr

/-- An ended transfer whose later fragments are dropped (R62). -/
structure EndedXfer where
  session : Nat
  window : Nat
  id : Nat
  lastAt : Nat
  deriving DecidableEq, Repr

/-- An ACK or NAK (R60), which may be delayed while C3 is shed: what it repeats of its transfer, and the ports of that. -/
structure DbtReply where
  session : Nat
  window : Nat
  id : Nat
  obj : Nat
  fragCount : Nat
  len : Nat
  crc : Nat
  reason : Nat
  dst : Nat
  port : Nat
  ports : List Nat
  deriving DecidableEq, Repr

/-- An RDREQ being answered (R64): where its RDDATA go, what they repeat, the fragment size, and the bytes of the object as
they were at its arrival. -/
structure ReadOut where
  session : Nat
  window : Nat
  id : Nat
  obj : Nat
  dst : Nat
  port : Nat
  frag : Nat
  bytes : List Byte
  deriving DecidableEq, Repr

/-- A strip directory entry (R52) with the partner's latest digest (R66) and whether an uncorrectable DRAM error made
it BAD (R45). STATE as R52 codes it. -/
structure Slot where
  addr : Nat
  len : Nat
  state : Nat
  mode : Nat
  digest : Nat
  rawLen : Nat
  partner : Option (Nat × Nat)
  ue : Bool
  deriving DecidableEq, Repr

/-- A surface generation held (R50): its entry, its definition's six body words, its slots that are not EMPTY without a
partner digest, whether an admitted page has referenced it (R134), and whether its release has been issued (R135). -/
structure Surface where
  entry : Nat
  id : Nat
  gen : Nat
  body : List Nat
  slots : List (Nat × Slot)
  inUse : Bool
  released : Bool
  /-- Checked pages (order of the job, page) that use it and whose comparison has still to be reported (R135). -/
  waits : List (Nat × Nat)
  deriving DecidableEq, Repr

/-- Where a page stands with admission (R69). -/
inductive Admission where
  | open | awaiting | admitted | refused
  deriving DecidableEq, Repr

/-- A page entry (R121, R528). -/
structure Page where
  num : Nat
  /-- The eight layer references: surface id in bits 31:16, generation in bits 15:0, 0xFFFF_FFFF for none. -/
  refs : List Nat
  adm : Admission
  /-- Closed by a PAGE_CLOSE (R528). -/
  closed : Bool
  checked : Bool
  done : Bool
  deriving DecidableEq, Repr

/-- A job queue entry (R48, R49): words 1–3 of its definition and its state bits (R526). -/
structure Job where
  slot : Nat
  id : Nat
  w1 : Nat
  w2 : Nat
  w3 : Nat
  started : Bool
  closed : Bool
  cancelled : Bool
  pages : List Page
  /-- Order of its JOB_START among started jobs. -/
  order : Nat
  deriving DecidableEq, Repr

/-- A committed GAP set: the values of every GAP-domain register (R115). -/
abbrev GapSet := List (Nat × Nat)

/-- A GAP set waiting for its apply-at page (R116): the job's slot, its id, and the page. -/
structure PendingGap where
  set : GapSet
  job : Nat
  id : Option Nat
  page : Nat
  deriving DecidableEq, Repr

/-- A test strip of a gap (R355, R381): its bar, FULL, overlap boundaries and, when not FULL, its 64-column blocks. -/
structure TestStrip where
  bar : Nat
  full : Bool
  overlaps : Nat
  blocks : List Nat
  deriving DecidableEq, Repr

/-- The test strips of one gap with the values in force at the check (R355, R381). -/
structure GapStrips where
  c4 : Nat
  colmode : Bool
  lines : Nat
  ofs : Nat
  space : Nat
  strips : List TestStrip
  deriving DecidableEq, Repr

/-- A page past its readiness check (R129): the settings it was fixed with, where it lies, what each layer does, and
what has happened to it since. It stays while its lines or those of its gap are still to be composed. -/
structure PageRun where
  /-- The job: its slot, its order among started jobs, its id and word 1 of its definition (R527). -/
  job : Nat
  ord : Nat
  jobId : Nat
  w1 : Nat
  page : Nat
  set : GapSet
  firstLine : Nat
  /-- Start position S of R196, in pu. -/
  start : Int
  lines : Nat
  /-- Number of the tick end of its check (R111). -/
  checkTick : Nat
  /-- The generation each layer uses: 0xFFFF_FFFF for none. -/
  uses : List Nat
  /-- LAST_ACTION of each layer (0 none, 1 HOLD, 2 BLANK, 3 REPEAT). -/
  actions : List Nat
  /-- The generation each layer used on the page before it: a REPEAT layer's stays live until this page has printed (R74). -/
  before : List Nat
  strips : Option GapStrips
  /-- Channels for which UNDERRUN has been raised (R113). -/
  underruns : List Nat
  /-- GAP_START, LINE_MATCH and PAGE_DONE have been signalled (R113). -/
  gapStarted : Bool
  matched : Bool
  done : Bool
  /-- First line after its gap: of the job's next page once that is checked, or the job's end. -/
  endLine : Option Nat
  /-- Fire position of its last line at the last bar (R108, R199). -/
  lastFp : Int
  /-- Freeze signatures under way: (layer, bar, CRC register over the rows so far, rows taken). -/
  sigs : List (Nat × Nat × Nat × Nat)
  /-- Proof: entry offset in the ring, and whether lines were lost. -/
  proofOff : Option Nat
  proofBad : Bool
  /-- Its comparison's result has been reported (R330). -/
  compared : Bool
  /-- The sensitivity generation in force on it (R333). -/
  sensGen : Nat
  deriving DecidableEq, Repr

/-- The next page to be checked and where it stands (R105–R108, R131–R133). Its possible places are lines of a grid: the
grid of the page before it, or its own for a job that starts after an empty queue. -/
structure NextPage where
  job : Nat
  ord : Nat
  page : Nat
  /-- A line of the grid and its position; the page's line in the grid. -/
  anchorLine : Nat
  anchorPos : Int
  gridLine : Nat
  pitchDiv : Nat
  /-- It starts by a mark of a probe, with an offset, at or after `earliest` (R106). -/
  mark : Bool
  probe : Nat
  ofs : Int
  earliest : Int
  /-- Its start as it stands; none while a MARK page waits for its mark. -/
  start : Option Int
  /-- A MARK page held at its check: marks latched meanwhile do not start it (R131). -/
  held : Bool
  /-- By how much each layer's hold has delayed it, in pu (R132); and, of a held MARK page, the least start at its last check. -/
  delays : List Int
  lookAt : Int
  /-- Layers whose hold has run out, reported once (R132). -/
  fallen : List Nat
  deriving DecidableEq, Repr

/-- Jobs and scan-out (spec/04). -/
structure Scan where
  jobs : List Job
  /-- Checked pages in order; the last one always stays. -/
  runs : List PageRun
  nextPage : Option NextPage
  pendingGap : Option PendingGap
  /-- The number of the tick end at which a GAP commit was last accepted (R523). -/
  gapTick : Option Nat
  /-- Jobs started so far. -/
  starts : Nat
  /-- The queue has stood empty since the last page was checked (R108). -/
  emptied : Bool
  /-- Marks latched and not yet judged: probe, position, device time (R106, R191). -/
  marks : List (Nat × Int × Nat)
  /-- The page at the reference bar, as PG_CUR_PAGE shows it: the order of its job and its number. -/
  cur : Option (Nat × Nat)
  /-- The generation each layer used on the last checked page (R130, R131). -/
  prevUses : List Nat
  /-- Channels whose latest line was complete with too little slack, and since when SPEED_REQ's release conditions
  hold together (R75, R76). -/
  slackLow : List Nat
  calm : Option Nat
  deriving DecidableEq, Repr

/-- A strip that failed, as it was delivered to one page (R95): surface id, generation, slot, the page (order of the
job, page number) and the samples. -/
structure Failed where
  id : Nat
  gen : Nat
  slot : Nat
  ord : Nat
  page : Nat
  samples : List Nat
  deriving DecidableEq, Repr

/-- Ingest, the strip directory and the decoders (spec/02, spec/03). -/
structure Ingest where
  sessions : List Session
  usedIds : List Nat
  windows : List Window
  xfers : List Xfer
  ended : List EndedXfer
  delayed : List DbtReply
  /-- RDREQs whose answers wait while C3 is shed: at most 16 (R64). -/
  reads : List ReadOut
  /-- Datagrams received with FLAGS.RETX; no register shows the count (R57). -/
  retx : Nat
  surfs : List Surface
  /-- Digests queued for the partner (R66): surface id, generation, slot, LEN, DIGEST. -/
  digests : List (Nat × Nat × Nat × Nat × Nat)
  /-- Strips fetched and checked since they were written: surface id, generation, slot (R93). -/
  fetched : List (Nat × Nat × Nat)
  failed : List Failed
  /-- Strips in a decoder: decoder, surface id, generation, slot. -/
  decoding : List (Nat × Nat × Nat × Nat)
  /-- Fetched PRED and RUN strips for which no decoder was free (R101): surface id, generation, slot. -/
  waiting : List (Nat × Nat × Nat)
  /-- Raw-form bytes delivered so far (CS_DEC_OUT). -/
  rawOut : Nat
  deriving DecidableEq, Repr

end Sys2Proof.Machine
end

