-- ==== Sys2Proof/Machine/WebParts.lean ====
section
/-! DEFINITION. The plain-data parts of the state that belong to web position and screening (spec/05, spec/06).
Positions are whole integers that never wrap; the registers show them modulo 2^48 (R174). -/

namespace Sys2Proof.Machine

/-- One web encoder (R172, R173, R177, R178, R184, R186). Times are device time. -/
structure Enc where
  a : Bool
  b : Bool
  z : Bool
  /-- Direction of the last count. -/
  fwd : Bool
  /-- Forward counts since the last Z edge met counting forward, once an interval has been started. -/
  sinceZ : Option Nat
  /-- Device times of the errors of the last window, newest first, and of the last error ever. -/
  errs : List Nat
  lastErr : Option Nat
  /-- Counts the other member has made in one direction since this one's last count (signed). -/
  others : Int
  /-- The last alignment found |D| within DIS_LIMIT, or there has been none since reset (R182). -/
  aligned : Bool
  /-- Speed state of R184 (0 STILL, 1 START, 2 MOVING), when MOVING was entered, counts since START was entered, and
  their time stamps, newest first. -/
  state : Nat
  movedAt : Nat
  since : Nat
  counts : List Nat
  deriving DecidableEq, Repr

/-- A probe FIFO entry (R189, R190). -/
structure ProbeEntry where
  time : Nat
  pos : Int
  rising : Bool
  back : Bool
  lost : Bool
  deriving DecidableEq, Repr

/-- One print-mark probe. -/
structure Probe where
  fifo : List ProbeEntry
  lastPos : Option Int
  lostRun : Bool
  deriving DecidableEq, Repr

/-- One emulated encoder output (R192–R194). -/
structure Enco where
  origin : Int
  /-- Edges issued since the origin. -/
  k : Nat
  /-- Quadrature phase of the pins, 0–3 along 00, 10, 11, 01. -/
  phase : Nat
  /-- The last edge is the first at or after a page's start plus ZOFS (ZMODE 2). -/
  z : Bool
  lastAt : Option Nat
  /-- The farthest page start that an edge has reached with ZOFS. -/
  zPage : Option Int
  /-- The page (by start, none for no page) in which 0x2108 was last raised. -/
  lagPage : Option (Option Int)
  deriving DecidableEq, Repr

/-- Web position and speed (spec/06). -/
structure Web where
  encs : List Enc
  /-- P, Ps and Q with 16 fraction bits (R174, R176, R184). -/
  p : Int
  ps : Int
  q : Int
  /-- Device time at which P had its value (R187), and the values before it, newest first: the device time of each, P, and the
  speed as it stood when the next came. -/
  pAt : Nat
  was : List (Nat × Int × Rat)
  /-- The selected member is the secondary. -/
  onSec : Bool
  /-- P at the last alignment (R177). -/
  alignAt : Int
  /-- Speed in pu/µs, acceleration in pu/µs per ms (R186, R188), and the speeds at the 10 µs updates, newest first. -/
  speed : Rat
  acc : Rat
  hist : List (Nat × Rat)
  /-- When the estimate was last updated, and P then, in pu (R186, R200). -/
  estAt : Nat
  estP : Rat
  probes : List Probe
  encos : List Enco
  /-- The levels last driven on A, B and Z of ENCO0 and ENCO1, which the bus keepers hold (R508). -/
  pins : List (Bool × Bool × Bool)
  deriving DecidableEq, Repr

/-- An old value of a register and where it stops holding (R119): at an apply-at line of a job (its order), or, for a
bar outside the running job, at a device time. -/
structure Timed where
  job : Nat
  line : Option Nat
  at_ : Nat
  old : Nat
  deriving DecidableEq, Repr

/-- A committed ARM waiting for its line (R161): the job's slot and, where the slot held one, its id. -/
structure Armed where
  job : Nat
  id : Option Nat
  line : Nat
  swap : Bool
  setTone : Bool
  toneSet : Bool
  beryl : Bool
  deriving DecidableEq, Repr

/-- A decided overspeed change waiting for its apply-at line of a job (its order) (R165). -/
structure OvsChange where
  state : Nat
  ord : Nat
  line : Nat
  deriving DecidableEq, Repr

/-- A group of output lines of a bar whose last line is composed (R488): its job's slot and order, first and last line, first SEQ,
DIG, the VOIDs sent so far, and when its last line's composition ended. -/
structure DigGroup where
  bar : Nat
  slot : Nat
  ord : Nat
  first : Nat
  last : Nat
  seq : Nat
  dig : Nat
  voids : Nat
  at_ : Nat
  deriving DecidableEq, Repr

/-- One bar's screening. -/
structure ScreenBar where
  armed : Option Armed
  /-- When the copy of R159 began. -/
  copyFrom : Option Nat
  /-- Overspeed changes decided and not yet reached, oldest first. -/
  ovs : List OvsChange
  /-- WP_PRED, REG_HOST and REG_AUTO as they stood before a change still to reach this bar (R119). -/
  pred : List Timed
  regHost : List Timed
  regAuto : List Timed
  /-- The last job line composed at the bar: (order of its job, line). -/
  lastLine : Option (Nat × Nat)
  /-- Lines composed whose fire positions Q has not reached (R199): order of the job, line, fire position. -/
  fps : List (Nat × Nat × Int)
  /-- Output digest under way (R488): first line, first SEQ, lines, CRC bytes in order, VOIDs. -/
  digFirst : Nat
  digSeq : Nat
  digLines : Nat
  digBytes : List Byte
  digVoids : Nat
  /-- The job slot of that group, and when its latest line's composition ended. -/
  digSlot : Nat
  digAt : Nat
  /-- Groups composed whose VOIDs are not final yet, oldest first (log 31). -/
  digWait : List DigGroup
  deriving DecidableEq, Repr

/-- A tap line under way (R166, R167): its lines' sums by bar and column. -/
structure TapLine where
  job : Nat
  ord : Nat
  jobId : Nat
  first : Nat
  depth : Nat
  bars : Nat
  gap : Bool
  ovs : Bool
  missing : Bool
  pos : Int
  page : Nat
  /-- By bar: lines screened so far, and Σ VOL and Σ c4 of every column. -/
  sums : List (Nat × List Nat × List Nat)
  deriving DecidableEq, Repr

/-- A proof stream of one page: a VARYING layer's rectangle (or, with layer 8, the whole page) at one bar (R139–R141):
its encoder, the rows of the strip under way, the strips released, and those in self-verify (geometry and samples). -/
structure ProofStream where
  enc : Nat
  ord : Nat
  page : Nat
  layer : Nat
  bar : Nat
  width : Nat
  bps : Nat
  rowsLeft : Nat
  rows : List (List Nat)
  strips : List (List Byte)
  verify : List (Bool × Nat × List Nat)
  failed : Bool
  /-- A flush of it waits for C3 (R29, R98). -/
  closing : Bool
  deriving DecidableEq, Repr

/-- Screening across bars. -/
structure Screen where
  bars : List ScreenBar
  taps : List TapLine
  tapAt : Option Nat
  /-- The page (order of its job, number) for which 0x3407 was last raised. -/
  tapDropPage : Option (Nat × Nat)
  streams : List ProofStream
  /-- Where the next proof entry goes in region 3. -/
  proofNext : Nat
  deriving DecidableEq, Repr

end Sys2Proof.Machine
end

