-- ==== Sys2Proof/Machine/PairParts.lean ====
section
/-! DEFINITION. The plain-data parts of the state that belong to the pair (spec/12): the Ecnal link, the tick state
copy, contest, switchover, joining and Garnet. -/

namespace Sys2Proof.Machine

/-- An item of an HB (R378): its four words. -/
structure HbItem where
  w0 : Nat
  w1 : Nat
  w2 : Nat
  w3 : Nat
  deriving DecidableEq, Repr

/-- An entry of a tick state copy (R381): KIND and its data words. -/
structure TsEntry where
  kind : Nat
  words : List Nat
  deriving DecidableEq, Repr

/-- A digest item (R376). -/
structure DigestItem where
  surf : Nat
  gen : Nat
  slot : Nat
  len : Nat
  digest : Nat
  deriving DecidableEq, Repr

/-- The motion object of a snapshot (R402). -/
structure Motion where
  edgeAt : Option Nat
  edgeP : Int
  q : Int
  ps : Int
  onSec : Bool
  priFailed : Bool
  secFailed : Bool
  lost : Bool
  speedState : Nat
  dirState : Nat
  encos : List Enco
  deriving DecidableEq, Repr

/-- An object of a snapshot (R401), which carries the state it names; its words stand in Objects. A RESYNC frame that is not the
last of its object's is a `part` of it. -/
inductive ResyncObj where
  | regs (live shadow : List (Nat × Nat))
  | queue (jobs : List Job) (surfs : List Surface) (runs : List PageRun) (next : Option NextPage)
      (pending : Option PendingGap) (wins : List (Nat × Nat))
  | banks (bar : Nat) (vals : List (Nat × Nat))
  | tables (bar : Nat) (vals : List (Nat × Nat))
  | berylSlots (bar : Nat) (vals : List (Nat × Nat))
  | bar (bar ovs : Nat) (changes : List OvsChange) (regEff : Nat) (last : Option (Nat × Nat)) (sigs : List Nat)
  | channel (ch job line seq bands : Nat)
  | motion (m : Motion)
  | waste (ranges : List WasteRange) (counters : List Nat)
  | last (frames : Nat)
  | part (code : Nat)
  deriving DecidableEq, Repr, Inhabited

/-- A frame of the reliable sequence (R376). -/
inductive RelBody where
  | ts (tick part parts : Nat) (entries : List TsEntry)
  | digest (items : List DigestItem)
  | resync (tick code index offset : Nat) (words : List Nat)
  deriving DecidableEq, Repr

/-- Whether a frame is a snapshot's END (R401). -/
def RelBody.isEnd : RelBody → Bool
  | .resync _ code _ _ _ => code == 0xFF
  | _ => false

/-- Whether a frame belongs to a snapshot (R401). -/
def RelBody.isResync : RelBody → Bool
  | .resync .. => true
  | _ => false

/-- A reliable frame numbered, sent and not yet acknowledged. -/
structure RelFrame where
  fseq : Nat
  body : RelBody
  deriving DecidableEq, Repr

/-- A copy held by a standby or joining unit: tick, parts, and the frames received by part. -/
structure CopyIn where
  tick : Nat
  parts : Nat
  got : List (Nat × List TsEntry)
  deriving DecidableEq, Repr

/-- A focused channel of Garnet (R394): lines of the bar still to check, and whether an HDM mismatch began it (R396). -/
structure Focus where
  ch : Nat
  left : Nat
  fromMm : Bool
  deriving DecidableEq, Repr

/-- The pair logic (spec/12). -/
structure Pair where
  epoch : Nat
  rank : Nat
  /-- The running set of EL lanes, ascending (R245, R374). -/
  linkSet : List Nat
  /-- The unit holds sequence numbers (R373). -/
  holdsSeq : Bool
  hbSeq : Nat
  hbAt : Nat
  rxSeq : Nat
  rxAt : Nat
  lastHb : Nat
  /-- Multiples of 10 µs without a valid HB already counted (R379). -/
  missed : Nat
  partnerEpoch : Nat
  partnerFlags : Nat
  /-- The partner: present, STALE, DEMOTED, joining, declared lost. -/
  partnerUp : Bool
  partnerLost : Bool
  partnerStale : Bool
  partnerDemoted : Bool
  partnerJoining : Bool
  staleYou : Bool
  /-- Own HBs sent, newest first: HB_SEQ and transmit stamp in 1/16 ns; receive stamp of the partner's latest (R224). -/
  hbTx : List (Nat × Nat)
  fseqTx : Nat
  fseqRx : Nat
  unacked : List RelFrame
  /-- Frames that wait for room among the unacknowledged, each with its place in R377's order, which they stand in. -/
  waiting : List (Nat × RelBody)
  ackAdvAt : Nat
  copies : List CopyIn
  /-- The copy of the tick under way: entries gathered since the last tick end, oldest first. -/
  entries : List TsEntry
  /-- While a copy is applied: its TICK_APPLY words (R119), empty where it has none. -/
  tickLines : List Nat
  /-- A tick end's changes, or a copy's, are being made: their SET and WAVE records leave once all of them are known (R255). -/
  batch : Bool
  appliedTick : Nat
  /-- The last copy sent: tick, its tick end's device time, acknowledged. -/
  sentTick : Nat
  sentAt : Nat
  acked : Bool
  helloRx : Nat
  /-- HELLOs received since PAIRING was entered (R386). -/
  helloMet : Nat
  helloAt : Nat
  helloOn : Bool
  pairAt : Nat
  /-- Contest: lanes whose STAT has shown the claim since the raise (R390). -/
  won : List Nat
  contestAt : Nat
  yieldCause : Nat
  /-- ROLE that a yielding unit's HBs carry: the role it yields. -/
  yieldRole : Nat
  yieldUntil : Option Nat
  /-- A higher claim has been seen since the last tick end (R391). -/
  higher : Bool
  items : List HbItem
  /-- Planned switchover: the committing tick end's device time; abandoned or not. -/
  switchAt : Option Nat
  /-- From when a new active drives ENCO0–ENCO1 and WASTE_MARK (R399). -/
  driveAt : Nat
  /-- Joining (R400): T0 of the snapshot, objects received, END received; as active: T0 sent. -/
  t0 : Option Nat
  objs : List ResyncObj
  framesRx : Nat
  ended : Bool
  endFrames : Nat
  digestsSent : Bool
  anchored : Bool
  partnerLocked : Bool
  focus : List Focus
  focusWait : List (Nat × Bool)
  /-- Unattributed mismatches: channel and device time (R396). -/
  mms : List (Nat × Nat)
  accMax : Nat
  /-- Unsent lines: own (channel, seq, order of the job, line) and the partner's (channel, seq). -/
  unsentOwn : List (Nat × Nat × Nat × Nat)
  unsentPartner : List (Nat × Nat)
  leftAt : Option Nat
  /-- The partner holds the same UNIT_ID (R22). -/
  clash : Bool
  deriving DecidableEq, Repr

end Sys2Proof.Machine
end

