-- ==== Sys2Proof/Payload.lean ====
section
/-! DEFINITION. What the commands of the table carry: DCP headers and WRITE items (R413, R427), DBT headers (R57),
Joend upstream records (R266, R281, R284, R286), ordered sets (R235), Ecnal frames (R375–R385), and the results that
only the board, the silicon or a connected part can give. -/

namespace Sys2Proof

/-- The header of a DCP request (R413): its first word; the reserved bits of the second; words 5 to 7 (RESPONSE-only
and reserved) as one number; BODY_LEN; the named fields, the sixteen MAC bytes as a big-endian number, the
sender's MAC address, IP address and UDP port as one number, to which the answer goes (R411), whether the datagram came over IPv6
(R410) and the UDP port it came to (R412). -/
structure DcpHdr where
  word0 : Nat
  resv1 : Nat
  resv5 : Nat
  bodyLen : Nat
  master : Nat
  counter : Nat
  tag : Nat
  mac : Nat
  src : Nat
  v6 : Bool
  dport : Nat
  deriving DecidableEq, Repr

/-- One item of a WRITE body (R423). -/
structure WriteItem where
  addr : Nat
  mask : Nat
  value : Nat
  deriving DecidableEq, Repr

/-- What a trimmed value belongs to, by the way R458 moves it: a lane's termination or a sampler offset; another SerDes
value of a lane; the starting value of its CTLE, and of DFE tap k + 1 (R456); a delay of the DDR5 PHY; the diode and the core delay monitors. -/
inductive TrimPart where
  | offset (lane : Nat)
  | serdes (lane : Nat)
  | ctle (lane : Nat)
  | tap (lane k : Nat)
  | ddr
  | core
  deriving DecidableEq, Repr

/-- One trim set (R444): the value it belongs to, by its part and its number there, and its factory values at −10, 45 and 95 °C, in
1/256 of a code. -/
structure TrimSet where
  item : Nat
  part : TrimPart
  fCold : Int
  fMid : Int
  fHot : Int
  deriving DecidableEq, Repr

/-- One value that trim measures (R457), in 1/256 of a code. -/
structure TrimMeasure where
  item : Nat
  part : TrimPart
  measured : Int
  deriving DecidableEq, Repr

/-- What the board and the silicon give a start between the release of RESET_N and CONFIGURED (R442, R447, R456): key
slots whose OTP read failed, whether the flash describes itself, the results of trim, the SD_CAL balls with no resistor (R514), and
what DDR5 training found. -/
structure BootInputs where
  keyFaults : List Nat
  flashOk : Bool
  diodeOk : Bool
  /-- The diode's reading in 0.1 °C. -/
  diode : Int
  delayOk : Bool
  laneFails : List Nat
  calMissing : List Nat
  values : List TrimMeasure
  ddrOk : Bool
  /-- How long ago trim completed, in ns of device time. -/
  trimAgo : Nat
  deriving DecidableEq, Repr

/-- A regulator's answer over PMBus (R469): VOUT_MODE, READ_VOUT and READ_IOUT as read. -/
structure PmbAnswer where
  mode : Nat
  vout : Nat
  iout : Nat
  deriving DecidableEq, Repr

/-- The MAC address, IP address and port a DBT datagram came from, as one number, the UDP port it came to (R56), and whether it came
over IPv6 (R410). -/
structure DbtFrom where
  src : Nat
  dport : Nat
  v6 : Bool
  deriving DecidableEq, Repr

/-- A training stage that has lasted its 10 ms (R237): the lane, and whether a signal was seen in it (R239). -/
structure StageEnd where
  lane : Nat
  saw : Bool
  deriving DecidableEq, Repr

/-- The header of a CSI-2 short packet (R311): its virtual channel, and what ECC made of it: 0 good, 1 a single-bit error
corrected, 2 not to be corrected. -/
structure CsiHead where
  vc : Nat
  ecc : Nat
  deriving DecidableEq, Repr

/-- The header of a DBT datagram (R57) as received. -/
structure DbtHdr where
  magic : Nat
  ver : Nat
  kind : Nat
  flags : Nat
  session : Nat
  window : Nat
  frag : Nat
  fragCount : Nat
  reason : Nat
  xferId : Nat
  objIndex : Nat
  payloadLen : Nat
  resv : Nat
  xferLen : Nat
  xferCrc : Nat
  deriving DecidableEq, Repr

/-- An ordered set received (R235); `resv` is 0 when every reserved bit is 0. -/
structure OrdSet where
  kind : Nat
  rates : Nat
  src : Bool
  unit : Nat
  lane : Nat
  ffeValid : Bool
  ffeReq : Nat
  eqDone : Bool
  fast : Bool
  resv : Nat
  deriving DecidableEq, Repr

/-- A STAT record (R284). -/
structure StatRec where
  urgent : Bool
  accClaim : Nat
  lastSeq : Nat
  stbLong : Bool
  stbNow : Bool
  barEnLow : Bool
  timeValid : Bool
  bufFill : Nat
  mismatch : Nat
  fallback : Nat
  lastMm : Nat
  empty : Nat
  late : Nat
  temp0 : Nat
  temp1 : Nat
  temp2 : Nat
  temp3 : Nat
  suppressed : Nat
  err : Nat
  stbMax : Nat
  deriving DecidableEq, Repr

/-- An upstream TSYNC (R266). -/
structure TsyncReply where
  timeValid : Bool
  tsId : Nat
  turn : Nat
  th3 : Nat
  deriving DecidableEq, Repr

/-- An IDRS record (R286); `ident` is the 64-byte identity record (R287). -/
structure IdrsRec where
  nohead : Bool
  heads : Nat
  head : Nat
  depth : Nat
  hdmRev : Nat
  slotBase : Nat
  ident : List Byte
  deriving DecidableEq, Repr

/-- An ACK record from an HDM (R281). -/
structure AckRec where
  late : Bool
  refused : Bool
  ackType : Nat
  recId : Nat
  appliedSeq : Nat
  deriving DecidableEq, Repr

/-- An Ecnal HB (R378): CLAIM, the words of its layout and its items. -/
structure HbFrame where
  claim : Nat
  hbSeq : Nat
  tTx : Nat
  rxSeq : Nat
  tRx : Nat
  flags : Nat
  tick : Nat
  items : List Machine.HbItem
  deriving DecidableEq, Repr

/-- A HELLO (R385). -/
structure HelloFrame where
  claim : Nat
  unit : Nat
  role : Nat
  stale : Bool
  demoted : Bool
  epoch : Nat
  deriving DecidableEq, Repr

/-- An Ecnal ACK (R376). -/
structure AckFrame where
  claim : Nat
  nextFseq : Nat
  appliedTick : Nat
  ready0 : Nat
  ready1 : Nat
  ready2 : Nat
  deriving DecidableEq, Repr

/-- How a reliable frame arrived: whole and correct, with a failed CRC or a LEN that breaks its layout (R376), or cut
by a change of link width (R377). -/
inductive Arrival where
  | good | bad | cut
  deriving DecidableEq, Repr

/-- What every reliable frame carries (R375): how it arrived, CLAIM and FSEQ. -/
structure RelHdr where
  arrival : Arrival
  claim : Nat
  fseq : Nat
  deriving DecidableEq, Repr

/-- The unit of work a pipeline event concerns (R320): context, frame, line. -/
structure CamPoint where
  ctx : Nat
  frame : Nat
  line : Nat
  deriving DecidableEq, Repr

/-- The outcome of a key operation's OTP read-back, of a flash write, or of an encoder's comparison. -/
inductive WriteOutcome where
  | ok | encodeFailed | flashError | readBackFailed
  deriving DecidableEq, Repr

/-- What an encoder's self-verify found (R99, R100). -/
inductive VerifyOutcome where
  | equal | rawEqual | rawDiffers
  deriving DecidableEq, Repr

/-- The shape of a network frame that matters to the rules of R411 and R24. -/
inductive MpDrop where
  | tagged | fragment | other | oversize | malformed
  deriving DecidableEq, Repr

/-- Where a bridged frame is addressed (R217): the unit, a group, a reserved or MAC control address, elsewhere. -/
inductive BridgeDst where
  | own | group | reserved | other
  deriving DecidableEq, Repr

/-- A PTP message in a bridged frame (R218–R220): transport 0 UDP/IPv4, 1 UDP/IPv6, 2 IEEE 802.3; `event` when it
came to UDP port 319 or with EtherType 0x88F7; `toPtp` when it is addressed to the unit or a PTP group of R220; the frame's bytes
before the message, which over UDP end with the UDP checksum, the message, and the bytes after it up to the FCS. -/
structure PtpMsg where
  ver : Nat
  mtype : Nat
  domain : Nat
  transport : Nat
  event : Bool
  toPtp : Bool
  tags : Nat
  head : List Byte
  bytes : List Byte
  tail : List Byte
  deriving DecidableEq, Repr

/-- A frame received on DP0 or DP1 (R217): a number that stands for its content, its size, whether it is one of the
services of R411, whether its egress link is down, and the time from its arrival at one PCS to its departure at the other in
2^-16 ns, which the order of egress decides. -/
structure BridgeFrame where
  id : Nat
  dst : BridgeDst
  len : Nat
  service : Bool
  linkDown : Bool
  residence : Nat
  ptp : Option PtpMsg
  deriving DecidableEq, Repr

/-- The instructions of the TAP (R512). SAMPLE/PRELOAD and EXTEST carry what their scan shifts into the boundary register. -/
inductive TapInstr where
  | bypass
  | sample (cells : List Bool)
  | extest (cells : List Bool)
  | idcode | highz | clamp
  deriving DecidableEq, Repr

/-- Why a READY lane is lost (R241). -/
inductive LossCause where
  | cdr | signal | violations | noComma
  deriving DecidableEq, Repr

end Sys2Proof
end

