-- ==== Sys2Proof/Syntax.lean ====
section
/-! DEFINITION. The commands: one constructor per row of spec/opcode_table.json. The first operand of each is the
instant at which it happens, in ticks of the model's 1 GHz clock (log 1); `h` and `body` are a DCP request's header and
body words, `pre` and `post` the items of a WRITE body before and after the row's own. -/

namespace Sys2Proof

inductive Instr where
  /-- RESET_RELEASE (R439): The core leaves reset 1 ms after RESET_N and PWR_GOOD are both high; the unit samples its straps, draws BOOT_NONCE and enters BOOT. -/
  | resetRelease (t : Nat) (pairEn unitId mode : Bool) (nonce : Nat)
  /-- CONFIGURED_ENTRY (R443): Boot completes; the unit enters CONFIGURED and moves on to PAIRING or SINGLE unless it made a service boot or DDR training failed. -/
  | configuredEntry (t : Nat) (b : BootInputs)
  /-- VAO_APPLY (R461): VAO is first applied and the always-on domain raises PWR_EN 1 ms later for a cold start. -/
  | vaoApply (t : Nat)
  /-- WAKE (R461): WAKE_N held low for 50 µs while VDD_CORE is absent makes the always-on domain raise PWR_EN. -/
  | wake (t : Nat)
  /-- PWR_GOOD_FALL (R517): PWR_GOOD falling while the core runs resets the core at once. -/
  | pwrGoodFall (t : Nat)
  /-- TEST_EN_HIGH (R511): TEST_EN high holds the core in reset regardless of RESET_N and PWR_GOOD. -/
  | testEnHigh (t : Nat)
  /-- SLEEP (R460): A write of 1 to BT_PWR_CTRL.SLEEP drives BAR_EN low, disables every lane and starts entry to DEEP_SLEEP. -/
  | sleep (t : Nat) (h : DcpHdr) (pre post : List WriteItem)
  /-- SLEEP_PWR_EN_FALL (R460): 1 ms after SLEEP executes, PWR_EN falls and the core stops answering on every port. -/
  | sleepPwrEnFall (t : Nat)
  /-- DCP_ON_DP (R24): A DCP message arriving on DP0 or DP1 is dropped without response and raises event 0x7103. -/
  | dcpOnDp (t port : Nat)
  /-- IDENTIFY (R424): The unauthenticated IDENTIFY command returns the device id, role, key states, BOOT_NONCE, master table and floors. -/
  | identify (t : Nat) (h : DcpHdr) (body : List Nat)
  /-- READ (R429): A READ command samples up to 256 words at one instant between tick-end commits. -/
  | read (t : Nat) (h : DcpHdr) (body : List Nat)
  /-- WRITE (R428): A WRITE command to registers without a row of their own is classified, checked all or nothing and applied in body order. -/
  | write (t : Nat) (h : DcpHdr) (body : List Nat)
  /-- EVENT_READ (R434): EVENT_READ returns NEXT_SEQ and event records from FROM_SEQ onward. -/
  | eventRead (t : Nat) (h : DcpHdr) (body : List Nat)
  /-- SESSION_OPEN (R54): SESSION_OPEN opens a DBT session with its fragment size and returns a non-zero session id. -/
  | sessionOpen (t : Nat) (h : DcpHdr) (body : List Nat)
  /-- SESSION_CLOSE (R55): SESSION_CLOSE closes the session and its windows and discards their transfers in flight. -/
  | sessionClose (t : Nat) (h : DcpHdr) (body : List Nat)
  /-- WINDOW_OPEN (R55): WINDOW_OPEN opens a STRIP_WRITE, TABLE_WRITE or READ_BACK window within a session. -/
  | windowOpen (t : Nat) (h : DcpHdr) (body : List Nat)
  /-- WINDOW_CLOSE (R55): WINDOW_CLOSE closes a window and discards its transfers in flight, returning unstored slots to EMPTY. -/
  | windowClose (t : Nat) (h : DcpHdr) (body : List Nat)
  /-- SURFACE_DEFINE (R50): SURFACE_DEFINE commits a new surface generation, or answers a re-issue of a live one. -/
  | surfaceDefine (t : Nat) (h : DcpHdr) (body : List Nat)
  /-- SURFACE_RELEASE (R135): SURFACE_RELEASE marks a generation released and closes its STRIP_WRITE windows. -/
  | surfaceRelease (t : Nat) (h : DcpHdr) (body : List Nat)
  /-- PAGE_DEFINE (R528): PAGE_DEFINE defines or replaces a page entry naming each layer's surface generation. -/
  | pageDefine (t : Nat) (h : DcpHdr) (body : List Nat)
  /-- PAGE_CLOSE (R528): PAGE_CLOSE closes a page, after which admission follows. -/
  | pageClose (t : Nat) (h : DcpHdr) (body : List Nat)
  /-- JOB_DEFINE (R49): JOB_DEFINE queues a job with its geometry and limits. -/
  | jobDefine (t : Nat) (h : DcpHdr) (body : List Nat)
  /-- JOB_START (R108): JOB_START starts a queued job back to back, after a drain, or at the first line far enough ahead. -/
  | jobStart (t : Nat) (h : DcpHdr) (body : List Nat)
  /-- JOB_DRAIN_DONE (R108): A job with a different pitch or grid starts once the previous job's last line has fired at the last bar plus GAP_LINES. -/
  | jobDrainDone (t : Nat)
  /-- JOB_CLOSE (R423): JOB_CLOSE ends an open-ended job after its last defined page. -/
  | jobClose (t : Nat) (h : DcpHdr) (body : List Nat)
  /-- JOB_CANCEL (R110): JOB_CANCEL takes effect at the job's first page not yet past its readiness check. -/
  | jobCancel (t : Nat) (h : DcpHdr) (body : List Nat)
  /-- TABLE_LOAD (R423): TABLE_LOAD copies a table image from the job store into a correction, tone, tile, ramp or camera table. -/
  | tableLoad (t : Nat) (h : DcpHdr) (body : List Nat)
  /-- IMAGE_WRITE (R455): IMAGE_WRITE starts programming or erasing a flash image slot. -/
  | imageWrite (t : Nat) (h : DcpHdr) (body : List Nat)
  /-- IMAGE_WRITE_DONE (R455): An image write or erase ends with its result and raises event 0x1809. -/
  | imageWriteDone (t : Nat) (r : WriteOutcome)
  /-- KEY_PROGRAM (R421): KEY_PROGRAM writes a BLANK OTP key slot and verifies it. -/
  | keyProgram (t : Nat) (h : DcpHdr) (body : List Nat)
  /-- KEY_REVOKE (R421): KEY_REVOKE makes a key slot REVOKED and disables its masters. -/
  | keyRevoke (t : Nat) (h : DcpHdr) (body : List Nat)
  /-- KEY_OP_DONE (R421): A key command completes its OTP operation and responds. -/
  | keyOpDone (t : Nat) (ok : Bool)
  /-- MASTER_SET (R421): MASTER_SET changes a master's enable, key slot and authority. -/
  | masterSet (t : Nat) (h : DcpHdr) (body : List Nat)
  /-- ARP_REQUEST (R411): An ARP request to the unit's address is answered. -/
  | arpRequest (t port src target : Nat)
  /-- NEIGHBOR_SOLICITATION (R411): An IPv6 Neighbor Solicitation to the unit's address is answered. -/
  | neighborSolicitation (t port src target : Nat)
  /-- ECHO_REQUEST (R411): An ICMP or ICMPv6 echo request to the unit is answered. -/
  | echoRequest (t port src target : Nat) (v6 : Bool)
  /-- MP_LINK_DOWN (R437): Loss of MP's link discards uncommitted commands and raises event 0x7108. -/
  | mpLinkDown (t : Nat)
  /-- MP_LINK_UP (R437): MP's link returns and the unit may send on MP again. -/
  | mpLinkUp (t : Nat)
  /-- EVENT_PUSH (R435): An EVENT message leaves to a master once 48 records are gathered or 1 ms after its first record. -/
  | eventPush (t master : Nat)
  /-- GAP_COMMIT (R115): GL_CMT_CTRL.GAP_COMMIT commits the GAP domain at a tick end, applying from the apply-at page. -/
  | gapCommit (t : Nat) (h : DcpHdr) (pre post : List WriteItem)
  /-- TICK_COMMIT (R118): GL_CMT_CTRL.TICK_COMMIT commits the TICK domain from the next tick start. -/
  | tickCommit (t : Nat) (h : DcpHdr) (pre post : List WriteItem)
  /-- ARM (R161): SC_BARn_APPLY_CTRL.ARM commits a bank swap or tone set change to apply from a named line. -/
  | arm (t : Nat) (h : DcpHdr) (pre post : List WriteItem) (b mask value : Nat)
  /-- SWAP (R182): WP_SRC_CTRL.SWAP exchanges the selected and tracked encoders. -/
  | swap (t : Nat) (h : DcpHdr) (pre post : List WriteItem)
  /-- RESTORE (R182): WP_SRC_CTRL.RESTORE returns a qualifying FAILED encoder to service. -/
  | restore (t : Nat) (h : DcpHdr) (pre post : List WriteItem)
  /-- ENC_CFG_WRITE (R530): A write to WP_ENC_CFG that changes PRIMARY or SECONDARY re-forms the encoder pair without a position step. -/
  | encCfgWrite (t : Nat) (h : DcpHdr) (pre post : List WriteItem) (mask value : Nat)
  /-- TB_INCR_WRITE (R206): A TB_INCR write commits a new rate with a re-anchor so device time takes no step. -/
  | tbIncrWrite (t : Nat) (h : DcpHdr) (pre post : List WriteItem) (incr : Nat)
  /-- TB_OFS_ADJ (R207): A TB_OFS_ADJ write steps device time when idle or adds to the slew remainder while a job runs. -/
  | tbOfsAdj (t : Nat) (h : DcpHdr) (pre post : List WriteItem) (adj : Int)
  /-- OFS_SLEW_END (R208): The offset slew remainder reaches 0 and device time is re-anchored at the normal rate. -/
  | ofsSlewEnd (t : Nat)
  /-- LANE_CFG_WRITE (R237): A LANE_CFG write enables training at DETECT or sends the lane to DISABLED. -/
  | laneCfgWrite (t : Nat) (h : DcpHdr) (pre post : List WriteItem) (l mask value : Nat)
  /-- STROBE_WRITE (R294): A write to FS_BARn_STB commits a new strobe width and limit and sends SET records to the bar's lanes. -/
  | strobeWrite (t : Nat) (h : DcpHdr) (pre post : List WriteItem) (b mask value : Nat)
  /-- FS_WD_CLR (R300): FS_WD_CLR clears the watchdog trips of the named bars. -/
  | fsWdClr (t : Nat) (h : DcpHdr) (pre post : List WriteItem) (bars : Nat)
  /-- SAFE_INHIBIT (R302): FS_SAFE_CTRL.INHIBIT set to 1 sets SAFE with cause INH_CMD. -/
  | safeInhibit (t : Nat) (h : DcpHdr) (pre post : List WriteItem)
  /-- SAFE_CLEAR (R304): FS_SAFE_CTRL.CLEAR clears SAFE when no unliftable cause remains. -/
  | safeClear (t : Nat) (h : DcpHdr) (pre post : List WriteItem) (mask value : Nat)
  /-- BAR_GATE (R465): A write to PW_GATE gates or ungates bars. -/
  | barGate (t : Nat) (h : DcpHdr) (pre post : List WriteItem) (mask value : Nat)
  /-- SWITCH (R398): PR_CTRL.SWITCH commits a planned switchover for the next tick. -/
  | switch (t : Nat) (h : DcpHdr) (pre post : List WriteItem)
  /-- SWITCH_HANDOVER (R399): At T + 460 µs the old active lowers its claim and the standby raises its own and becomes ACTIVE, or the switchover is abandoned. -/
  | switchHandover (t : Nat)
  /-- LEAVE (R406): PR_CTRL.LEAVE makes a non-authoritative unit yield with cause 4 and enter CONFIGURED with lanes DISABLED. -/
  | leave (t : Nat) (h : DcpHdr) (pre post : List WriteItem)
  /-- CLR_DEMOTE (R397): PR_CTRL.CLR_DEMOTE clears DEMOTED and the GARNET cause of SAFE. -/
  | clrDemote (t : Nat) (h : DcpHdr) (pre post : List WriteItem)
  /-- REVIVE (R353): BY_BARn_CTRL.REVIVE makes every Beryl-marked MISSING slot WEAK at the bar's next apply cycle. -/
  | revive (t : Nat) (h : DcpHdr) (pre post : List WriteItem) (b : Nat)
  /-- RESET_EST (R353): BY_BARn_CTRL.RESET_EST applies the head-change reset of estimates to every channel of the bar. -/
  | resetEst (t : Nat) (h : DcpHdr) (pre post : List WriteItem) (b : Nat)
  /-- REG_CLR (R361): BY_CTRL.REG_CLR sets every REG_AUTO to 0. -/
  | regClr (t : Nat) (h : DcpHdr) (pre post : List WriteItem)
  /-- STRIP_FORCE (R354): BY_STRIP_CTRL.FORCE puts a bar in deficit across its width until a strip prints for it. -/
  | stripForce (t : Nat) (h : DcpHdr) (pre post : List WriteItem) (bars : Nat)
  /-- FLUSH (R98): CS_ENCn_CTRL.FLUSH closes the encoder's current strip early at the next line boundary. -/
  | flush (t : Nat) (h : DcpHdr) (pre post : List WriteItem) (n : Nat)
  /-- LANE_SCAN_MAP (R250): LANE_SCAN_CTRL.MAP starts a full 64 × 128 eye map of the lane. -/
  | laneScanMap (t : Nat) (h : DcpHdr) (pre post : List WriteItem) (l : Nat)
  /-- EYE_MAP_DONE (R250): A full eye map completes and background measurement resumes. -/
  | eyeMapDone (t l : Nat) (points : List Nat)
  /-- PROBE_POP (R190): WP_PRBn_CTRL.POP removes the oldest probe FIFO entry. -/
  | probePop (t : Nat) (h : DcpHdr) (pre post : List WriteItem) (n : Nat)
  /-- PTP_RXQ_POP (R221): HP_PTP_RXQ_CTRL.POP removes the oldest PTP receive queue entry. -/
  | ptpRxqPop (t : Nat) (h : DcpHdr) (pre post : List WriteItem)
  /-- PTP_SEND (R222): HP_PTP_TX_CTRL.SEND frames and sends the PTP message in the transmit buffer. -/
  | ptpSend (t : Nat) (h : DcpHdr) (pre post : List WriteItem) (mask value : Nat)
  /-- PTP_TX_DONE (R222): A sent PTP event message has left; its egress stamp is stored and DONE set. -/
  | ptpTxDone (t : Nat)
  /-- REC_ARM (R492): AG_CTRL.ARM empties the ring and puts the recorder in RECORDING. -/
  | recArm (t : Nat) (h : DcpHdr) (pre post : List WriteItem)
  /-- REC_TRIGGER (R493): A recorder trigger writes a TRIGGER entry and moves RECORDING to POST. -/
  | recTrigger (t : Nat) (h : DcpHdr) (pre post : List WriteItem)
  /-- REC_FREEZE (R492): AG_CTRL.FREEZE freezes the recorder ring. -/
  | recFreeze (t : Nat) (h : DcpHdr) (pre post : List WriteItem)
  /-- REC_POST_DONE (R492): POST_PCT of the ring has been written after the trigger and the recorder enters FROZEN. -/
  | recPostDone (t : Nat)
  /-- SNAPSHOT (R494): Every SNAP_S seconds the recorder writes a snapshot of every RESYNC object and the strip digests. -/
  | snapshot (t : Nat)
  /-- REPLAY_ENTER (R495): AG_RP_CTRL.ENTER puts the bench unit in replay mode until the next reset. -/
  | replayEnter (t : Nat) (h : DcpHdr) (pre post : List WriteItem)
  /-- REPLAY_RUN (R496): AG_RP_CTRL.RUN applies the recorded snapshot and runs the replay on virtual time. -/
  | replayRun (t : Nat) (h : DcpHdr) (pre post : List WriteItem) (mask value : Nat)
  /-- TICK_END (R370): Device time passes a multiple of 250 µs and the unit does its back-off, commits, readiness checks, decisions and tick state copy. -/
  | tickEnd (t : Nat)
  /-- GENERATION_FREED (R135): A released surface generation is freed and its strip pool space reclaimed once no page still needs it. -/
  | generationFreed (t id gen : Nat)
  /-- LINE_COMPOSE_START (R111): Composition, screening and packing of a line at a bar begins at its predicted fire time minus lead plus 250 µs. -/
  | lineComposeStart (t b : Nat)
  /-- BANK_COPY_DONE (R159): The copy of the new live bank into the shadow bank completes and COPY_BUSY clears. -/
  | bankCopyDone (t b : Nat)
  /-- LINE_SEND (R261): A LINE record leaves on its lane with its fire time stamped. -/
  | lineSend (t ch : Nat)
  /-- LINE_DEADLINE (R32): A LINE record not left by fire time minus 200 µs is replaced by a VOID. -/
  | lineDeadline (t ch : Nat)
  /-- RETIME_CYCLE (R262): Each retime cycle sends RETIME records for outstanding lines whose prediction moved beyond THR_NS. -/
  | retimeCycle (t ch : Nat)
  /-- GAP_START (R113): The fire time of the first gap line after a page passes at the reference bar. -/
  | gapStart (t slot page : Nat)
  /-- LINE_MATCH (R113): The fire time of page line MATCH_LINE passes at the reference bar. -/
  | lineMatch (t slot page : Nat)
  /-- PAGE_DONE (R113): The fire time of a page's last line passes at the last bar. -/
  | pageDone (t slot page : Nat)
  /-- HDM_HB_SEND (R277): An HB record is sent on a READY lane in L0 idle for 100 µs. -/
  | hdmHbSend (t l : Nat)
  /-- TSYNC_SEND (R230): A TSYNC record is sent on each READY lane every TSYNC_US. -/
  | tsyncSend (t l : Nat)
  /-- CONTROL_RESEND (R282): An unacknowledged SET or WAVE is resent after 100 µs, and after the third copy the lane is lost. -/
  | controlResend (t l : Nat)
  /-- ENC_EDGE (R172): An accepted encoder level change counts forward, backward or as illegal. -/
  | encEdge (t n : Nat) (a b z : Bool) (ago : Nat)
  /-- PROBE_EDGE (R189): An accepted probe edge latches time and position into the FIFO. -/
  | probeEdge (t n : Nat) (rising : Bool) (ago : Nat)
  /-- STANDSTILL (R184): No count for STILL_MS puts the speed state in STILL. -/
  | standstill (t n : Nat)
  /-- ESTIMATE_UPDATE (R186): The speed and acceleration estimates update at a count or every 10 µs. -/
  | estimateUpdate (t : Nat)
  /-- SPEED_REQ_RELEASE (R76): SPEED_REQ releases after its release conditions have held for 10 ms. -/
  | speedReqRelease (t : Nat)
  /-- ENCO_EDGE (R192): An emulated encoder output steps A and B as Q passes edge position E_k. -/
  | encoEdge (t n : Nat)
  /-- REF_INPUT_BAD (R210): A reference input shows no edge for 25 ns or a wrong frequency and becomes BAD. -/
  | refInputBad (t input : Nat)
  /-- REF_INPUT_GOOD (R210): An input free of faults for 100 ms returns to GOOD. -/
  | refInputGood (t input : Nat)
  /-- REF_DIFF_WINDOW (R213): Each 100 ms window measures TB_REF_DIFF and may raise event 0x2205. -/
  | refDiffWindow (t : Nat) (diff : Int)
  /-- BRIDGE_FRAME (R217): A frame received on DP0 or DP1 is delivered, forwarded or dropped by the bridge. -/
  | bridgeFrame (t port : Nat) (f : BridgeFrame)
  /-- ORDERED_SET (R236): Four identical training or power ordered sets received advance the lane state. -/
  | orderedSet (t l : Nat) (o : OrdSet)
  /-- SIGNAL_DETECT (R237): Signal present and CDR locked for 100 µs moves a lane on from DETECT or ABSENT. -/
  | signalDetect (t l : Nat)
  /-- TRAIN_TIMEOUT (R237): A training stage exceeds 10 ms and the lane fails to BACKOFF or ABSENT. -/
  | trainTimeout (t : Nat) (e : StageEnd)
  /-- BACKOFF_EXPIRY (R239): The backoff time elapses and the lane returns to DETECT. -/
  | backoffExpiry (t l : Nat)
  /-- ABSENT_TIMEOUT (R239): After 1 s in ABSENT the lane makes one DETECT attempt. -/
  | absentTimeout (t l : Nat)
  /-- LANE_LOST (R241): A READY lane loses lock, signal or symbols and goes straight to DETECT with FAST. -/
  | laneLost (t l : Nat) (cause : LossCause) (cv disp : Nat)
  /-- L1_ENTRY (R247): A head lane idle for L1_IDLE_US enters L1. -/
  | l1Entry (t l : Nat)
  /-- L2_ENTRY (R247): A head lane in L1 for L2_IDLE_MS enters L2. -/
  | l2Entry (t l : Nat)
  /-- HDM_IDLE_EXIT (R248): An HDM leaves electrical idle to send STAT and the DT968 exits that lane. -/
  | hdmIdleExit (t l : Nat)
  /-- PWR_EXIT_TIMEOUT (R248): A lane exit that misses its time counts as a loss. -/
  | pwrExitTimeout (t l : Nat)
  /-- EYE_SCAN (R249): Every PERIOD_MS each READY lane measures its eye width and height. -/
  | eyeScan (t l w h : Nat)
  /-- STAT_RECEIVED (R285): A STAT record from an HDM is copied into the lane registers and its counters acted on. -/
  | statReceived (t l : Nat) (r : StatRec)
  /-- STAT_LOST (R285): No STAT for 4 × STAT_US sets STAT_LOST. -/
  | statLost (t l : Nat)
  /-- TSYNC_REPLY (R269): An upstream TSYNC reply gives a round trip or the HDM's time error. -/
  | tsyncReply (t l : Nat) (r : TsyncReply)
  /-- IDRS_RECEIVED (R288): An IDRS record is checked and the head identity accepted or refused. -/
  | idrsReceived (t l : Nat) (r : IdrsRec)
  /-- ACK_RECEIVED (R282): An HDM ACK for a SET or WAVE is taken, with LATE or REFUSED. -/
  | ackReceived (t l : Nat) (a : AckRec)
  /-- RECORD_DISCARD (R254): A faulty upstream record is discarded and counted in RXERR. -/
  | recordDiscard (t l : Nat)
  /-- WATCHDOG_TRIP (R298): STB_SENSE high beyond LIMIT, or a STAT with STB_LONG, trips the bar's watchdog and drops BAR_EN. -/
  | watchdogTrip (t bar high : Nat)
  /-- FIRE_INHIBIT (R301): FIRE_INH_N low for FILT_N samples drives every BAR_EN low and sets SAFE. -/
  | fireInhibit (t : Nat)
  /-- INHIBIT_RELEASE (R301): With AUTO 1, FIRE_INH_N high for REL_MS clears the INH_PIN cause. -/
  | inhibitRelease (t high : Nat)
  /-- CSI_FRAME_START (R317): A Frame Start is stamped and the context adopts newly committed values. -/
  | csiFrameStart (t port : Nat) (hdr : CsiHead) (ago : Nat)
  /-- CSI_LINE (R312): A long packet carrying one camera line is received and buffered. -/
  | csiLine (t port vc hdr dtype words : Nat) (crcOk : Bool) (raw : List Byte)
  /-- CSI_FRAME_END (R319): A Frame End closes the frame, short or long. -/
  | csiFrameEnd (t port : Nat) (hdr : CsiHead)
  /-- PIPE_SWITCH (R320): The pipeline engine ends a unit of work and switches context. -/
  | pipeSwitch (t : Nat)
  /-- LINE_PROCESSED (R323): The pipeline corrects, converts and maps a camera line. -/
  | lineProcessed (t : Nat)
  /-- CAM_SILENT (R322): An enabled context receives no Frame Start over its ENCO edge count and RECEIVING falls. -/
  | camSilent (t n : Nat)
  /-- PROOF_RESULT (R330): A page's proof result falls due and is PASS, FAIL or UNOBSERVED. -/
  | proofResult (t slot page : Nat)
  /-- OBS_MATCH (R336): Beryl matches an observed line with its tap line and accumulates it. -/
  | obsMatch (t : Nat)
  /-- ACC_WINDOW_TIMEOUT (R340): An accumulation window closes early when no matched tap line arrives within 20 ms. -/
  | accWindowTimeout (t : Nat)
  /-- COLUMN_SOLVE (R343): A queued column is solved for bar efficiencies and its entry cleared or halved. -/
  | columnSolve (t : Nat)
  /-- APPLY_CYCLE (R358): Every APPLY_MS Beryl writes changed gains and states to the shadow bank and arms a swap. -/
  | applyCycle (t b : Nat)
  /-- CONF_DECAY (R345): Every 10 s the CONF of each slot with no accepted solve falls by 1. -/
  | confDecay (t : Nat)
  /-- WHITE_STALE (R335): A column's unprinted-web value not updated for MAX_S leaves accumulation. -/
  | whiteStale (t x : Nat)
  /-- HELLO (R385): A HELLO from the partner is answered and the pairing table decides roles. -/
  | hello (t : Nat) (a : Arrival) (h : HelloFrame)
  /-- HELLO_SEND (R385): A HELLO is sent every 100 µs while pairing is unconfirmed. -/
  | helloSend (t : Nat)
  /-- ECNAL_HB (R378): A partner HB is received, giving servo stamps, flags and items. -/
  | ecnalHb (t ago : Nat) (a : Arrival) (h : HbFrame)
  /-- ECNAL_HB_SEND (R378): An Ecnal HB is sent at every 10 µs multiple of device time. -/
  | ecnalHbSend (t : Nat)
  /-- TS_FRAME (R383): A TS frame is received, and a complete copy is applied and acknowledged. -/
  | tsFrame (t : Nat) (h : RelHdr) (tick part parts : Nat) (entries : List Machine.TsEntry)
  /-- DIGEST_FRAME (R66): Partner strip digests are kept and compared with local slots. -/
  | digestFrame (t : Nat) (h : RelHdr) (items : List Machine.DigestItem)
  /-- RESYNC_FRAME (R401): A RESYNC frame carries a snapshot object to a joining unit. -/
  | resyncFrame (t : Nat) (h : RelHdr) (tick : Nat) (obj : Machine.ResyncObj)
  /-- ECNAL_ACK (R376): An Ecnal ACK advances the reliable sequence and reports the partner's READY bitmaps. -/
  | ecnalAck (t : Nat) (a : Arrival) (k : AckFrame)
  /-- ECNAL_RESEND (R376): 20 µs without an advancing ACK resends every unacknowledged reliable frame. -/
  | ecnalResend (t : Nat)
  /-- ELSYNC (R380): ELSYNC frames are exchanged in TIMELOCK to deskew an EL lane. -/
  | elsync (t el : Nat) (rtt skew : Int)
  /-- PARTNER_LOST (R379): 30 µs with no valid HB declares the partner lost. -/
  | partnerLost (t : Nat)
  /-- COPY_DEADLINE (R383): A copy not applied or acknowledged by its tick end plus 200 µs makes the standby STALE. -/
  | copyDeadline (t : Nat)
  /-- PAIR_TIMEOUT (R386): PAIR_TMO_MS in PAIRING without two HELLOs makes the unit SINGLE. -/
  | pairTimeout (t : Nat)
  /-- CONTEST_TIMEOUT (R390): With no job running and no READY head lane, 1 ms wins the contest. -/
  | contestTimeout (t : Nat)
  /-- GARNET_CHECK (R393): Garnet recomputes a channel's payload and compares its PCHK with the main path. -/
  | garnetCheck (t ch seq pchk : Nat)
  /-- GARNET_FOCUS_END (R394): A focused channel with no second miscompare over 16 lines leaves focus. -/
  | garnetFocusEnd (t ch : Nat)
  /-- TEMP_SAMPLE (R466): Every 1 ms the diode is sampled and the model, band and trim recompute updated. -/
  | tempSample (t : Nat) (diode : Int) (vdd : Nat)
  /-- SHUTDOWN_PWR_EN_FALL (R476): 1 ms after shutdown begins PWR_EN falls. -/
  | shutdownPwrEnFall (t : Nat)
  /-- THROTTLE_EVAL (R473): At STEP_MS or RELAX_MS the throttle step rises, falls or holds. -/
  | throttleEval (t : Nat)
  /-- PMBUS_POLL (R469): Every 1 ms each enabled rail's voltage and current are read over PMBus. -/
  | pmbusPoll (t : Nat) (answers : List (Option PmbAnswer))
  /-- PMB_ALERT (R506): PMB_ALERT_N low makes the unit read every enabled rail at once. -/
  | pmbAlert (t : Nat) (answers : List (Option PmbAnswer))
  /-- SUPPLY_DIP (R482): VDD_CORE below the warning threshold asserts SUPPLY_WARN_N and sheds C2 and C3. -/
  | supplyDip (t mv : Nat)
  /-- SUPPLY_RECOVERED (R482): VDD_CORE above warning plus 10 mV for 100 µs releases SUPPLY_WARN_N. -/
  | supplyRecovered (t mv : Nat)
  /-- SUPPLY_RESET (R483): VDD_CORE below the reset threshold resets the core and appends SUPPLY_RESET. -/
  | supplyReset (t mv : Nat)
  /-- FATAL (R478): An uncorrectable SRAM error in critical state appends FATAL and enters SHUTDOWN. -/
  | fatal (t : Nat)
  /-- STORE_UE (R45): An uncorrectable DRAM error on a C0 strip read marks the strip BAD and voids dependent lines. -/
  | storeUe (t block : Nat) (c0 : Bool)
  /-- STORE_CE (R44): A corrected DRAM error is counted and repaired by a write-back. -/
  | storeCe (t : Nat)
  /-- PATROL_SCRUB (R44): A patrol scrub reads the whole store every 24 h. -/
  | patrolScrub (t corrected : Nat)
  /-- DBT_FRAGMENT (R58): A DBT DATA fragment is checked and placed in its transfer, or dropped. -/
  | dbtFragment (t port : Nat) (from_ : DbtFrom) (h : DbtHdr) (payload : List Byte)
  /-- DBT_VERIFY_DONE (R59): A complete transfer is read back and checked, then the slot becomes STORED with an ACK, or a NAK is sent. -/
  | dbtVerifyDone (t session window xferId : Nat)
  /-- DBT_TIMEOUT (R60): Fragments missing 10 ms after the last one received end the transfer with NAK TIMEOUT. -/
  | dbtTimeout (t session window xferId : Nat)
  /-- RDREQ (R64): An RDREQ on a READ_BACK window is answered with RDDATA fragments. -/
  | rdreq (t port : Nat) (from_ : DbtFrom) (h : DbtHdr)
  /-- DP_LINK_LOSS (R63): Loss of a DP port's link discards the transfers that used it. -/
  | dpLinkLoss (t port : Nat)
  /-- STRIP_FETCH (R93): The fetch unit reads a strip, checks its header and passes it to a decoder or composition. -/
  | stripFetch (t id gen k : Nat)
  /-- STRIP_DECODE_END (R92): A decoder finishes a strip and checks its padding, length and CRC. -/
  | stripDecodeEnd (t n : Nat)
  /-- ENCODER_VERIFY (R99): An encoder verifies a written strip and releases it, rewrites it as RAW or fails the stream. -/
  | encoderVerify (t n : Nat) (o : VerifyOutcome)
  /-- RESET_N_LOW (R439): RESET_N driven low while the core runs puts the core into reset and discards unacknowledged work. -/
  | resetNLow (t : Nat)
  /-- VAO_REMOVE (R480): Removing VAO powers down the always-on domain and clears LATCHED, BT_TRIM_CNT and BT_AO_STAT. -/
  | vaoRemove (t : Nat)
  /-- TAP_INSTRUCTION (R512): An IEEE 1149.1 instruction shifted into the TAP samples the boundary cells, or takes over the pins in a service-booted CONFIGURED unit. -/
  | tapInstruction (t : Nat) (ti : TapInstr)
  /-- MP_FRAME_DROPPED (R411): A frame on MP that the unit does not answer is dropped and counted: a tagged frame, an IP fragment, an other frame, an oversize DCP datagram, a malformed DCP message, or any frame in BOOT or TRIM. -/
  | mpFrameDropped (t : Nat) (k : MpDrop)
  /-- UNKNOWN_OPCODE (R417): An authenticated DCP request with an opcode not in the command table consumes its counter and completes with RANGE, DETAIL OPCODE. -/
  | unknownOpcode (t op : Nat) (h : DcpHdr) (body : List Nat)
  /-- EI_ANSWER_TIMEOUT (R247): An HDM that does not answer EI1 or EI2 sets within 10 µs has its lane taken as lost with cause 8. -/
  | eiAnswerTimeout (t l : Nat)
  /-- EQUALISATION_DONE (R240): The DT968's receiver finishes its preset and CTLE search in ESTABLISH and sets EQ_DONE, which can move the lane to TIMELOCK. -/
  | equalisationDone (t l : Nat) (trials : List (Nat × Nat × Nat)) (w h : Nat) (ctle : List (Nat × Nat × Nat)) (dfe : Nat)
  /-- TS2_SENT (R237): The sixteenth TS2 sent in ALIGN, with four TS2 already received, moves the lane to ESTABLISH. -/
  | ts2Sent (t l : Nat)
  /-- EXIT_TO_L0_DONE (R248): A lane leaving L1 or L2 regains symbol traffic and reaches L0, so records may flow again. -/
  | exitToL0Done (t l : Nat)
  /-- DRAM_MR4_POLL (R470): Every 16 ms the controller reads the DRAMs' MR4 temperature and sets the refresh rate to the higher of that and the band's rate. -/
  | dramMr4Poll (t rate : Nat)
  deriving DecidableEq, Repr

end Sys2Proof
end

