-- ==== Sys2Proof/Decode.lean ====
section
/-! DEFINITION. The command a word spells by the opcode table's bits. spec/opcode_table.json gives no row any bits: a
command reaches the unit as a message, a frame, a pin or an instant, not as a word (log 2). -/

namespace Sys2Proof

/-- The command that a word of `nbits` bits spells: none, since no row has bits. -/
def decodeTableWord (_nbits _w : Nat) : Option Instr := none

end Sys2Proof
end

