-- ==== Sys2Proof/Config.lean ====
section
/-! DEFINITION. What the spec leaves open: free values. Each is an opaque constant applied to the state's counter of
free values, so that no proof can know it. -/

namespace Sys2Proof.Config

/-- A session id as drawn (R54); the unit draws again while it is 0 or was used since reset, so only its freshness is
known. -/
opaque sessionDraw : Nat → BitVec 32

/-- The speed, in units of 2^-16 pu/µs, that R186's fractions give where their interval holds no time (a count window of
one count): the spec states none. -/
opaque speedOfNothing : Nat → BitVec 32

/-- What R343's solve gives where its matrix has no inverse, which RIDGE 0 allows: an efficiency in 2^-14 units, and an
excitation. -/
opaque singularEff : Nat → BitVec 32
opaque singularExc : Nat → BitVec 64

/-- R349's target gain where the reference and the efficiency are both 0. -/
opaque gainOfNothing : Nat → BitVec 12

/-- R362's residual of a bar whose last second holds no solve, at an instant. -/
opaque residOfNothing : Nat → BitVec 16

/-- R357's deviation of a strip whose mean density is 0. -/
opaque devOfNothing : Nat → BitVec 16

/-- The DRAMs' refresh interval in ns at a refresh multiplier (R458, R470): the manual names JESD79-5's and gives none. -/
opaque refreshInterval : Nat → Nat

/-- The trim sets built into the device (R446): the manual gives no values. -/
opaque genericTrims : List TrimSet

/-- VDD_CORE in mV in a 10 µs of the model's clock (R482). -/
opaque vddNow : Nat → BitVec 10

/-- Whether a flash write whose strips are all programmed has come to its read-back at an instant, and how many 64 KiB units of its erase
or read-back are done (R455). -/
opaque readsBack : Nat → Bool
opaque flashDone : Nat → BitVec 16

/-- Whether a tap line's part of one bar is lost while C2 has only a share of its tokens (R472). -/
opaque tapLost : Nat → Bool

/-- The five DFE taps as they have adapted on a READY lane at a time (R240): the manual gives no values. -/
opaque dfeNow : Nat → Nat → BitVec 25

end Sys2Proof.Config
end

