-- ==== Sys2Proof/Machine/CamParts.lean ====
section
/-! DEFINITION. The plain-data parts of the state that belong to the cameras (spec/10) and to Beryl (spec/11). Tap
lines, observed lines and column accumulators lie as bytes in regions 4 and 5 of the store; what is here says where. -/

namespace Sys2Proof.Machine

/-- An edge of an emulated encoder output (R316): its number, position and device time. -/
structure EncoEdge where
  k : Nat
  pos : Int
  time : Nat
  deriving DecidableEq, Repr

/-- A received camera line in its port's buffer (R318): `raw` holds the samples pixel by pixel; `edge` is its frame's
trigger edge a (R317), `cfg` the register values of its frame (R321). -/
structure CamLine where
  ctx : Nat
  frame : Nat
  idx : Nat
  bytes : Nat
  arrived : Nat
  edge : EncoEdge
  cfg : List Nat
  raw : List Nat
  deriving DecidableEq, Repr

/-- A frame being received (R317–R319): its number, its stamp, its trigger edge a, its register values, the lines
received, whether it was truncated (its later lines are discarded) or LONG, and whether event 0x5103 has been raised for it. -/
structure CamFrame where
  no : Nat
  stamp : Nat
  edge : Option EncoEdge
  cfg : List Nat
  lines : Nat
  tooLong : Bool
  long : Bool
  flagged : Bool
  deriving DecidableEq, Repr

/-- A processed line: its position r, its mapped columns from the first one on, none where no value falls (R324). -/
structure Processed where
  r : Int
  first : Nat
  cols : List (Option (Nat × Nat × Nat × Nat))
  nir : Bool
  frame : Nat
  idx : Nat
  deriving DecidableEq, Repr

/-- One camera context. `adopted` holds the register values in use since its last Frame Start (R321). -/
structure CamCtx where
  adopted : List Nat
  frame : Option CamFrame
  /-- Frames closed since reset. -/
  count : Nat
  /-- ENCO edges since the last Frame Start (R322). -/
  edges : Nat
  prev : Option Processed
  /-- Tap lines this context has dealt with: (order of the job, FIRST_LINE), newest first. -/
  taps : List (Nat × Nat)
  /-- Event 0x5109 has been raised since frames last arrived (R322). -/
  silent : Bool
  /-- Event 0x5101 has been raised since the last Frame Start (R311). -/
  errSeen : Bool
  deriving DecidableEq, Repr

/-- A mark window under search (R327): page (order of the job, number), bar, the lines seen in order of r with their
means, and whether a line in it was discarded. -/
structure MarkWin where
  ord : Nat
  page : Nat
  bar : Nat
  lines : List (Int × Rat)
  bad : Bool
  deriving DecidableEq, Repr

/-- A page's tiles in one VARYING rectangle (R329): rectangle, and per tile (column, row) the count and the four sums. -/
structure ProofRect where
  ord : Nat
  page : Nat
  layer : Nat
  x : Nat
  w : Nat
  y : Nat
  h : Nat
  tiles : List ((Nat × Nat) × (Nat × List Nat))
  deriving DecidableEq, Repr

/-- An observed line Beryl has not read yet (R326): where its bytes lie in region 5, and what its header names. -/
structure ObsLine where
  off : Nat
  len : Nat
  jobId : Nat
  first : Nat
  deriving DecidableEq, Repr

/-- The cameras and the pipeline (spec/10). -/
structure Cam where
  ctxs : List CamCtx
  /-- Buffered lines of all ports in arrival order. -/
  queue : List CamLine
  /-- The unit of work under way: lines done, and the frame it serves. -/
  unitLines : Nat
  unitFrame : Option Nat
  /-- The last 4,096 edges of each output, newest first. -/
  edges : List (List EncoEdge)
  marks : List MarkWin
  /-- By bar, the last page whose mark has been judged (order of the job, number). -/
  markDone : List (Option (Nat × Nat))
  /-- Results of the tick: (order of the job, page, bar, E_b). -/
  markRes : List (Nat × Nat × Nat × Int)
  missedPage : Option (Nat × Nat)
  rects : List ProofRect
  /-- The last compared page of each layer. -/
  lastRects : List ProofRect
  /-- Observed lines not yet read, oldest first; and where the next goes. -/
  obs : List ObsLine
  obsNext : Nat
  deriving DecidableEq, Repr

/-- A tap line in the ring (R167, R337): its slot in the ring, what its header says, its job's order and PITCH_DIV, and
whether Beryl has matched an observed line with it. -/
structure TapEntry where
  slot : Nat
  ord : Nat
  jobId : Nat
  first : Nat
  depth : Nat
  pitchDiv : Nat
  pos : Int
  page : Nat
  bars : Nat
  gap : Bool
  unfit : Bool
  /-- Beryl has matched an observed line with it (R336, R340). -/
  matched : Bool
  deriving DecidableEq, Repr

/-- Unprinted-web values of a column (R334), by channel, in 2^-16 density units; whether the next observation sets them directly. -/
structure WhiteCol where
  col : Nat
  e : List Int
  at_ : Nat
  stale : Bool
  anew : Bool
  deriving DecidableEq, Repr

/-- An overlap accumulator (R347). -/
structure OvlAcc where
  bar : Nat
  boundary : Nat
  pos : Nat
  n00 : Int
  n01 : Int
  n11 : Int
  r0 : Int
  r1 : Int
  rows : Nat
  scale : Nat
  gen : Nat
  deriving DecidableEq, Repr

/-- The exact sums of one column in the window under way (R340). -/
structure WinSum where
  col : Nat
  n : List Int
  r : List Int
  yy : Int
  rows : Nat
  deriving DecidableEq, Repr

/-- A strip's observations (R357): page it follows, its index in the gap, its bar, and per column the sum of y of the
chosen channel in 2^-16 units and the count. -/
structure StripFig where
  ord : Nat
  page : Nat
  strip : Nat
  bar : Nat
  cols : List (Nat × Int × Nat)
  deriving DecidableEq, Repr

/-- Beryl's state for one bar. Slots are numbered 8,192 × segment + slot. -/
structure BerylBar where
  cycleAt : Nat
  /-- The open cycle waits for its ARM; it has been refused once. -/
  armWait : Bool
  retried : Bool
  /-- Slots whose record or overlap column has had an accepted solve since the previous cycle (R349). -/
  touched : List Nat
  /-- Overlap columns with an accepted solve, and the latest efficiency (R346). -/
  colEff : List (Nat × Rat)
  revive : Bool
  /-- Segments whose head-change reset has still to reach their entries (R353). -/
  resetSegs : List Nat
  lastStrip : Option Nat
  waited : Nat
  forced : Bool
  /-- Device time of the last accepted solve by 64-column block, and by overlap boundary. -/
  blockAt : List (Nat × Nat)
  ovlAt : List (Nat × Nat)
  /-- Sum of squares and rows of the last second's solves: (time, Σ, rows). -/
  resid : List (Nat × Rat × Nat)
  deriving DecidableEq, Repr

/-- Beryl (spec/11). -/
structure Beryl where
  bars : List BerylBar
  /-- Sensitivity generation (R333). -/
  gen : Nat
  /-- The window under way (R340): its sums, its job, generation and bars, the tap lines in it, and when the last was
  matched. -/
  win : List WinSum
  winOrd : Nat
  winGen : Nat
  winBars : Nat
  winTaps : Nat
  winAt : Nat
  /-- Queued solves (R342, R347): a column with its window's bars, or 2^20 + an overlap's number. -/
  queue : List (Nat × Nat)
  whites : List WhiteCol
  ovls : List OvlAcc
  figs : List StripFig
  /-- Slots with an accepted solve since the last decay: (bar, slot); and when that was (R345). -/
  solved : List (Nat × Nat)
  decayAt : Nat
  taps : List TapEntry
  tapNext : Nat
  /-- Shadow entries and records still to be copied to the standby (R365): address, value and bar; address. -/
  deltas : List (Nat × Nat × Nat)
  recDeltas : List Nat
  deriving DecidableEq, Repr

end Sys2Proof.Machine
end

