-- ==== Sys2Proof/Machine/RegMap.lean ====
section
/-! DEFINITION. The register map of spec/18_register_map.md and of the register tables of every chapter: each
register's byte address and each field's place, by the names the spec gives them, and the table of what each
register's bits allow (R11) and read at reset (R14). A name's index arguments are the instance numbers of R520;
`l` numbers a lane, 0–95 for JL0–JL95 and 96–99 for EL0–EL3 (R251). -/

namespace Sys2Proof.Machine

/-- A field of a register: the register's address and the field's bits [hi:lo] (R4). -/
structure Fld where
  addr : Nat
  hi : Nat
  lo : Nat
  deriving DecidableEq, Repr

/-- The commit domain of a register's RWS fields (R11, R115, R118). -/
inductive Dom where
  | none | gap | tick
  deriving DecidableEq, Repr

/-- One row of the register map: `count1` instances `stride1` apart, each `count2` times `stride2` apart, with
the bits of each access code of R11 (a bit in no mask is reserved) and the value at reset (R14). -/
structure RegSpec where
  base : Nat
  count1 : Nat
  stride1 : Nat
  count2 : Nat
  stride2 : Nat
  dom : Dom
  rw : Nat
  rws : Nat
  w1c : Nat
  wo : Nat
  rwl : Nat
  ro : Nat
  reset : Nat
  deriving DecidableEq, Repr

/-- The base of a lane's register block (08_head_lanes.md, Registers): head lanes 0–95, Ecnal lanes 96–99. -/
def laneBase (l : Nat) : Nat := if l < 96 then 0x0C0000 + 0x100 * l else 0x0D0800 + 0x100 * (l - 96)

-- 02_job_store_and_ingest.md: **MC_CFG** (0x0F_0000)
def MC_CFG : Nat := 0x0F0000
-- 02_job_store_and_ingest.md: **MC_STAT** (0x0F_0004)
def MC_STAT : Nat := 0x0F0004
-- 02_job_store_and_ingest.md: **MC_ECC_CE** (0x0F_0010), **MC_ECC_UE** (0x0F_0014)
def MC_ECC_CE : Nat := 0x0F0010
def MC_ECC_UE : Nat := 0x0F0014
-- 02_job_store_and_ingest.md: **MC_ECC_UE_ADDR** (0x0F_0018)
def MC_ECC_UE_ADDR : Nat := 0x0F0018
-- 02_job_store_and_ingest.md: **MC_RGN_BASEn** (0x0F_0100 + 8 × n, n = 0–7)
def MC_RGN_BASE (n : Nat) : Nat := 0x0F0100 + 0x8 * n
-- 02_job_store_and_ingest.md: **MC_RGN_SIZEn** (0x0F_0104 + 8 × n, n = 0–6)
def MC_RGN_SIZE (n : Nat) : Nat := 0x0F0104 + 0x8 * n
-- 02_job_store_and_ingest.md: **PG_ADM_LIMIT** (0x05_0400)
def PG_ADM_LIMIT : Nat := 0x050400
-- 02_job_store_and_ingest.md: **PG_ADM_PEAK** (0x05_0404)
def PG_ADM_PEAK : Nat := 0x050404
-- 02_job_store_and_ingest.md: **PG_ADM_LAST** (0x05_0408)
def PG_ADM_LAST : Nat := 0x050408
-- 02_job_store_and_ingest.md: **PG_ADM_CNT** (0x05_040C)
def PG_ADM_CNT : Nat := 0x05040C
-- 02_job_store_and_ingest.md: **PG_SPDREQ_CTRL** (0x05_0410)
def PG_SPDREQ_CTRL : Nat := 0x050410
-- 02_job_store_and_ingest.md: **PG_SPDREQ_STAT** (0x05_0414)
def PG_SPDREQ_STAT : Nat := 0x050414
-- 02_job_store_and_ingest.md: **PG_PAIR_HOLD** (0x05_0420)
def PG_PAIR_HOLD : Nat := 0x050420
-- 02_job_store_and_ingest.md: **HP_DBT_PORT** (0x0E_0810)
def HP_DBT_PORT : Nat := 0x0E0810
-- 02_job_store_and_ingest.md: **HP_DBT_ACKS** (0x0E_0800), **HP_DBT_NAKS** (0x0E_0804), **HP_DBT_DROP** (0x0E_0808)
def HP_DBT_ACKS : Nat := 0x0E0800
def HP_DBT_NAKS : Nat := 0x0E0804
def HP_DBT_DROP : Nat := 0x0E0808
-- 02_job_store_and_ingest.md: **HP_DBT_INFLIGHT** (0x0E_080C)
def HP_DBT_INFLIGHT : Nat := 0x0E080C
-- 03_casser_format.md: **CS_DEC_STAT** (0x07_0000)
def CS_DEC_STAT : Nat := 0x070000
-- 03_casser_format.md: **CS_DEC_ERR** (0x07_0004)
def CS_DEC_ERR : Nat := 0x070004
-- 03_casser_format.md: **CS_DEC_LAST** (0x07_0008)
def CS_DEC_LAST : Nat := 0x070008
-- 03_casser_format.md: **CS_DEC_LAST_SLOT** (0x07_000C)
def CS_DEC_LAST_SLOT : Nat := 0x07000C
-- 03_casser_format.md: **CS_DEC_OUT** (0x07_0010)
def CS_DEC_OUT : Nat := 0x070010
-- 03_casser_format.md: **CS_ENC_GLOBAL** (0x07_0080)
def CS_ENC_GLOBAL : Nat := 0x070080
-- 03_casser_format.md: **CS_ENCn_CFG** (0x07_0100 + 0x20 × n, n = 0–3)
def CS_ENC_CFG (n : Nat) : Nat := 0x070100 + 0x20 * n
-- 03_casser_format.md: **CS_ENCn_CTRL** (0x07_0104 + 0x20 × n)
def CS_ENC_CTRL (n : Nat) : Nat := 0x070104 + 0x20 * n
-- 03_casser_format.md: **CS_ENCn_STAT** (0x07_0108 + 0x20 × n)
def CS_ENC_STAT (n : Nat) : Nat := 0x070108 + 0x20 * n
-- 03_casser_format.md: **CS_ENCn_VFAIL** (0x07_010C + 0x20 × n)
def CS_ENC_VFAIL (n : Nat) : Nat := 0x07010C + 0x20 * n
-- 04_page_composition_and_scanout.md: **PG_PAGE_LINES** (0x05_0000), GAP domain
def PG_PAGE_LINES : Nat := 0x050000
-- 04_page_composition_and_scanout.md: **PG_GAP** (0x05_0004), GAP domain
def PG_GAP : Nat := 0x050004
-- 04_page_composition_and_scanout.md: **PG_MARK_OFS** (0x05_0008), GAP domain
def PG_MARK_OFS : Nat := 0x050008
-- 04_page_composition_and_scanout.md: **PG_MARK_STAT** (0x05_000C)
def PG_MARK_STAT : Nat := 0x05000C
-- 04_page_composition_and_scanout.md: **PG_EVT_CFG** (0x05_0010), TICK domain
def PG_EVT_CFG : Nat := 0x050010
-- 04_page_composition_and_scanout.md: **PG_EVT_STAT** (0x05_0014)
def PG_EVT_STAT : Nat := 0x050014
-- 04_page_composition_and_scanout.md: **PG_UNDERRUNn** (0x05_0018 + 4 × n, n = 0–2)
def PG_UNDERRUN (n : Nat) : Nat := 0x050018 + 0x4 * n
-- 04_page_composition_and_scanout.md: **PG_CUR_PAGE** (0x05_0030)
def PG_CUR_PAGE : Nat := 0x050030
-- 04_page_composition_and_scanout.md: **PG_CUR_LINE** (0x05_0034)
def PG_CUR_LINE : Nat := 0x050034
-- 04_page_composition_and_scanout.md: **PG_CMT_TARGET** (0x05_0040)
def PG_CMT_TARGET : Nat := 0x050040
-- 04_page_composition_and_scanout.md: **PG_CMT_STAT** (0x05_0044)
def PG_CMT_STAT : Nat := 0x050044
-- 04_page_composition_and_scanout.md: **PG_CMT_APPLY** (0x05_0048)
def PG_CMT_APPLY : Nat := 0x050048
-- 04_page_composition_and_scanout.md: **PG_JOB_STAT** (0x05_0050)
def PG_JOB_STAT : Nat := 0x050050
-- 04_page_composition_and_scanout.md: **PG_PROOF** (0x05_0060), GAP domain
def PG_PROOF : Nat := 0x050060
-- 04_page_composition_and_scanout.md: **PG_PROOF_STAT** (0x05_0064)
def PG_PROOF_STAT : Nat := 0x050064
-- 04_page_composition_and_scanout.md: **LY_CTRLn** (0x06_0000 + 0x400 × n, n = 0–7), GAP domain
def LY_CTRL (n : Nat) : Nat := 0x060000 + 0x400 * n
-- 04_page_composition_and_scanout.md: **LY_Xn** (+0x004), **LY_Wn** (+0x008), GAP domain
def LY_X (n : Nat) : Nat := 0x060004 + 0x400 * n
def LY_W (n : Nat) : Nat := 0x060008 + 0x400 * n
-- 04_page_composition_and_scanout.md: **LY_Yn** (+0x00C), **LY_Hn** (+0x010), GAP domain
def LY_Y (n : Nat) : Nat := 0x06000C + 0x400 * n
def LY_H (n : Nat) : Nat := 0x060010 + 0x400 * n
-- 04_page_composition_and_scanout.md: **LY_COLOUR_LOn** (+0x014), **LY_COLOUR_HIn** (+0x018), GAP domain
def LY_COLOUR_LO (n : Nat) : Nat := 0x060014 + 0x400 * n
def LY_COLOUR_HI (n : Nat) : Nat := 0x060018 + 0x400 * n
-- 04_page_composition_and_scanout.md: **LY_HOLDn** (+0x01C), GAP domain
def LY_HOLD (n : Nat) : Nat := 0x06001C + 0x400 * n
-- 04_page_composition_and_scanout.md: **LY_STATn** (+0x020)
def LY_STAT (n : Nat) : Nat := 0x060020 + 0x400 * n
-- 04_page_composition_and_scanout.md: **LY_CNTn** (+0x024)
def LY_CNT (n : Nat) : Nat := 0x060024 + 0x400 * n
-- 04_page_composition_and_scanout.md: **LY_SIGn** (+0x028)
def LY_SIG (n : Nat) : Nat := 0x060028 + 0x400 * n
-- 04_page_composition_and_scanout.md: **LY_SRCn** (+0x030)
def LY_SRC (n : Nat) : Nat := 0x060030 + 0x400 * n
-- 05_screening_and_nozzle_correction.md: **SC_BARn_CFG** (+0x000)
def SC_BAR_CFG (n : Nat) : Nat := 0x080000 + 0x800 * n
-- 05_screening_and_nozzle_correction.md: **SC_BARn_MAXRATE** (+0x004)
def SC_BAR_MAXRATE (n : Nat) : Nat := 0x080004 + 0x800 * n
-- 05_screening_and_nozzle_correction.md: **SC_BARn_OVS** (+0x008)
def SC_BAR_OVS (n : Nat) : Nat := 0x080008 + 0x800 * n
-- 05_screening_and_nozzle_correction.md: **SC_BARn_EFFMAX** (+0x00C)
def SC_BAR_EFFMAX (n : Nat) : Nat := 0x08000C + 0x800 * n
-- 05_screening_and_nozzle_correction.md: **SC_BARn_APPLY_LINE** (+0x010)
def SC_BAR_APPLY_LINE (n : Nat) : Nat := 0x080010 + 0x800 * n
-- 05_screening_and_nozzle_correction.md: **SC_BARn_APPLY_CTRL** (+0x014)
def SC_BAR_APPLY_CTRL (n : Nat) : Nat := 0x080014 + 0x800 * n
-- 05_screening_and_nozzle_correction.md: **SC_BARn_MISSING** (+0x018), **SC_BARn_WEAK** (+0x01C)
def SC_BAR_MISSING (n : Nat) : Nat := 0x080018 + 0x800 * n
def SC_BAR_WEAK (n : Nat) : Nat := 0x08001C + 0x800 * n
-- 05_screening_and_nozzle_correction.md: **SC_BARn_GEOM** (+0x020)
def SC_BAR_GEOM (n : Nat) : Nat := 0x080020 + 0x800 * n
-- 05_screening_and_nozzle_correction.md: **SC_BARn_DECIM** (+0x024)
def SC_BAR_DECIM (n : Nat) : Nat := 0x080024 + 0x800 * n
-- 05_screening_and_nozzle_correction.md: **SC_BARn_VOL_LO** (+0x028), **SC_BARn_VOL_HI** (+0x02C)
def SC_BAR_VOL_LO (n : Nat) : Nat := 0x080028 + 0x800 * n
def SC_BAR_VOL_HI (n : Nat) : Nat := 0x08002C + 0x800 * n
-- 05_screening_and_nozzle_correction.md: **SC_BARn_APPLY_CNT** (+0x030)
def SC_BAR_APPLY_CNT (n : Nat) : Nat := 0x080030 + 0x800 * n
-- 05_screening_and_nozzle_correction.md: **SC_BARn_OVS_LATE** (+0x034)
def SC_BAR_OVS_LATE (n : Nat) : Nat := 0x080034 + 0x800 * n
-- 05_screening_and_nozzle_correction.md: **SC_BARn_SEGm_COL** (+0x100 + 8 × m, m = 0–11)
def SC_BAR_SEG_COL (n : Nat) (m : Nat) : Nat := 0x080100 + 0x800 * n + 0x8 * m
-- 05_screening_and_nozzle_correction.md: **SC_BARn_SEGm_SLOTS** (+0x104 + 8 × m)
def SC_BAR_SEG_SLOTS (n : Nat) (m : Nat) : Nat := 0x080104 + 0x800 * n + 0x8 * m
-- 05_screening_and_nozzle_correction.md: **SC_BARn_OVLm** (+0x180 + 4 × m, m = 0–10)
def SC_BAR_OVL (n : Nat) (m : Nat) : Nat := 0x080180 + 0x800 * n + 0x4 * m
-- 05_screening_and_nozzle_correction.md: **SC_TAP_CTRL** (0x08_4000), TICK domain
def SC_TAP_CTRL : Nat := 0x084000
-- 05_screening_and_nozzle_correction.md: **SC_TAP_STAT** (0x08_4004)
def SC_TAP_STAT : Nat := 0x084004
-- 05_screening_and_nozzle_correction.md: **SC_TAP_MISS** (0x08_4008)
def SC_TAP_MISS : Nat := 0x084008
-- 06_web_position.md: **WP_ENC_CFG** (0x04_0000)
def WP_ENC_CFG : Nat := 0x040000
-- 06_web_position.md: **WP_ENCn_SCALE** (0x04_0010 + 0x10 × n, n = 0–3)
def WP_ENC_SCALE (n : Nat) : Nat := 0x040010 + 0x10 * n
-- 06_web_position.md: **WP_ENCn_COUNT** (+0x4)
def WP_ENC_COUNT (n : Nat) : Nat := 0x040014 + 0x10 * n
-- 06_web_position.md: **WP_ENCn_ERR** (+0x8)
def WP_ENC_ERR (n : Nat) : Nat := 0x040018 + 0x10 * n
-- 06_web_position.md: **WP_ENCn_ZCNT** (+0xC)
def WP_ENC_ZCNT (n : Nat) : Nat := 0x04001C + 0x10 * n
-- 06_web_position.md: **WP_FAIL_CFG** (0x04_0050)
def WP_FAIL_CFG : Nat := 0x040050
-- 06_web_position.md: **WP_TRACK** (0x04_0054)
def WP_TRACK : Nat := 0x040054
-- 06_web_position.md: **WP_SRC_STAT** (0x04_0058)
def WP_SRC_STAT : Nat := 0x040058
-- 06_web_position.md: **WP_SRC_CTRL** (0x04_005C)
def WP_SRC_CTRL : Nat := 0x04005C
-- 06_web_position.md: **WP_POS_LO** (0x04_0060), **WP_POS_HI** (0x04_0064), **WP_RAW_LO** (0x04_0068), **WP_RAW_HI** (0x04_006C)
def WP_POS_LO : Nat := 0x040060
def WP_POS_HI : Nat := 0x040064
def WP_RAW_LO : Nat := 0x040068
def WP_RAW_HI : Nat := 0x04006C
-- 06_web_position.md: **WP_SPEED** (0x04_0070), **WP_ACC** (0x04_0074)
def WP_SPEED : Nat := 0x040070
def WP_ACC : Nat := 0x040074
-- 06_web_position.md: **WP_MOTION** (0x04_0078)
def WP_MOTION : Nat := 0x040078
-- 06_web_position.md: **WP_SPD_CFG** (0x04_007C)
def WP_SPD_CFG : Nat := 0x04007C
-- 06_web_position.md: **WP_REV_CFG** (0x04_0080)
def WP_REV_CFG : Nat := 0x040080
-- 06_web_position.md: **WP_PRED** (0x04_0090), TICK domain, applied to lines under R119
def WP_PRED : Nat := 0x040090
-- 06_web_position.md: **WP_REG_SLEW** (0x04_0094)
def WP_REG_SLEW : Nat := 0x040094
-- 06_web_position.md: **WP_BARn_OFS** (0x04_0100 + 0x10 × n, n = 0–7)
def WP_BAR_OFS (n : Nat) : Nat := 0x040100 + 0x10 * n
-- 06_web_position.md: **WP_BARn_REG_HOST** (+0x4), TICK domain, applied to lines under R119; **WP_BARn_REG_AUTO** (+0x8); **WP_BARn_REG_EFF** (+0xC)
def WP_BAR_REG_HOST (n : Nat) : Nat := 0x040104 + 0x10 * n
def WP_BAR_REG_AUTO (n : Nat) : Nat := 0x040108 + 0x10 * n
def WP_BAR_REG_EFF (n : Nat) : Nat := 0x04010C + 0x10 * n
-- 06_web_position.md: **WP_PRBn_CFG** (0x04_0200 + 0x20 × n, n = 0–3)
def WP_PRB_CFG (n : Nat) : Nat := 0x040200 + 0x20 * n
-- 06_web_position.md: **WP_PRBn_STAT** (+0x4)
def WP_PRB_STAT (n : Nat) : Nat := 0x040204 + 0x20 * n
-- 06_web_position.md: **WP_PRBn_TIME_LO** (+0x8), **WP_PRBn_TIME_HI** (+0xC), **WP_PRBn_POS_LO** (+0x10)
def WP_PRB_TIME_LO (n : Nat) : Nat := 0x040208 + 0x20 * n
def WP_PRB_TIME_HI (n : Nat) : Nat := 0x04020C + 0x20 * n
def WP_PRB_POS_LO (n : Nat) : Nat := 0x040210 + 0x20 * n
-- 06_web_position.md: **WP_PRBn_POS_HI** (+0x14)
def WP_PRB_POS_HI (n : Nat) : Nat := 0x040214 + 0x20 * n
-- 06_web_position.md: **WP_PRBn_CTRL** (+0x18)
def WP_PRB_CTRL (n : Nat) : Nat := 0x040218 + 0x20 * n
-- 06_web_position.md: **WP_ENCOn_CFG** (0x04_0300 + 0x20 × n, n = 0–1), TICK domain
def WP_ENCO_CFG (n : Nat) : Nat := 0x040300 + 0x20 * n
-- 06_web_position.md: **WP_ENCOn_CPM** (+0x4), TICK domain
def WP_ENCO_CPM (n : Nat) : Nat := 0x040304 + 0x20 * n
-- 06_web_position.md: **WP_ENCOn_ZCNT** (+0x8), TICK domain
def WP_ENCO_ZCNT (n : Nat) : Nat := 0x040308 + 0x20 * n
-- 06_web_position.md: **WP_ENCOn_ZOFS** (+0xC), TICK domain
def WP_ENCO_ZOFS (n : Nat) : Nat := 0x04030C + 0x20 * n
-- 06_web_position.md: **WP_ENCOn_STAT** (+0x10)
def WP_ENCO_STAT (n : Nat) : Nat := 0x040310 + 0x20 * n
-- 07_time_base.md: **TB_FRC_LO** (0x03_0000), **TB_FRC_HI** (0x03_0004)
def TB_FRC_LO : Nat := 0x030000
def TB_FRC_HI : Nat := 0x030004
-- 07_time_base.md: **TB_TIME_LO** (0x03_0008), **TB_TIME_HI** (0x03_000C), **TB_TIME_FRAC** (0x03_0010)
def TB_TIME_LO : Nat := 0x030008
def TB_TIME_HI : Nat := 0x03000C
def TB_TIME_FRAC : Nat := 0x030010
-- 07_time_base.md: **TB_INCR_LO** (0x03_0020), **TB_INCR_HI** (0x03_0024)
def TB_INCR_LO : Nat := 0x030020
def TB_INCR_HI : Nat := 0x030024
-- 07_time_base.md: **TB_OFS_ADJ_LO** (0x03_0028), **TB_OFS_ADJ_HI** (0x03_002C)
def TB_OFS_ADJ_LO : Nat := 0x030028
def TB_OFS_ADJ_HI : Nat := 0x03002C
-- 07_time_base.md: **TB_OFS_CFG** (0x03_0030)
def TB_OFS_CFG : Nat := 0x030030
-- 07_time_base.md: **TB_OFS_REMAIN** (0x03_0034)
def TB_OFS_REMAIN : Nat := 0x030034
-- 07_time_base.md: **TB_REF_CFG** (0x03_0040)
def TB_REF_CFG : Nat := 0x030040
-- 07_time_base.md: **TB_REF_STAT** (0x03_0044)
def TB_REF_STAT : Nat := 0x030044
-- 07_time_base.md: **TB_REF_DIFF** (0x03_0048)
def TB_REF_DIFF : Nat := 0x030048
-- 07_time_base.md: **TB_PAIR_CFG** (0x03_0060)
def TB_PAIR_CFG : Nat := 0x030060
-- 07_time_base.md: **TB_PAIR_LIM** (0x03_0064)
def TB_PAIR_LIM : Nat := 0x030064
-- 07_time_base.md: **TB_PAIR_ASYM** (0x03_0068)
def TB_PAIR_ASYM : Nat := 0x030068
-- 07_time_base.md: **TB_PAIR_OFS** (0x03_006C), **TB_PAIR_RATE** (0x03_0070)
def TB_PAIR_OFS : Nat := 0x03006C
def TB_PAIR_RATE : Nat := 0x030070
-- 07_time_base.md: **TB_PAIR_STAT** (0x03_0074)
def TB_PAIR_STAT : Nat := 0x030074
-- 07_time_base.md: **TB_HDM_CFG** (0x03_0080)
def TB_HDM_CFG : Nat := 0x030080
-- 07_time_base.md: **HP_PTP_CFG** (0x0E_0A00)
def HP_PTP_CFG : Nat := 0x0E0A00
-- 07_time_base.md: **HP_PTP_LAT0** (0x0E_0A04), **HP_PTP_LAT1** (0x0E_0A08)
def HP_PTP_LAT0 : Nat := 0x0E0A04
def HP_PTP_LAT1 : Nat := 0x0E0A08
-- 07_time_base.md: **HP_PTP_RXQ_STAT** (0x0E_0A10)
def HP_PTP_RXQ_STAT : Nat := 0x0E0A10
-- 07_time_base.md: **HP_PTP_RXQ_CTRL** (0x0E_0A14)
def HP_PTP_RXQ_CTRL : Nat := 0x0E0A14
-- 07_time_base.md: **HP_PTP_TX_CTRL** (0x0E_0A18)
def HP_PTP_TX_CTRL : Nat := 0x0E0A18
-- 07_time_base.md: **HP_PTP_TX_STAMP_LO** (0x0E_0A1C), **HP_PTP_TX_STAMP_HI** (0x0E_0A20)
def HP_PTP_TX_STAMP_LO : Nat := 0x0E0A1C
def HP_PTP_TX_STAMP_HI : Nat := 0x0E0A20
-- 07_time_base.md: **HP_PTP_TX_STAT** (0x0E_0A24)
def HP_PTP_TX_STAT : Nat := 0x0E0A24
-- 07_time_base.md: **HP_PTP_TC_CNT** (0x0E_0A30)
def HP_PTP_TC_CNT : Nat := 0x0E0A30
-- 07_time_base.md: **HP_FWD_DROP** (0x0E_0A34)
def HP_FWD_DROP : Nat := 0x0E0A34
-- 08_head_lanes.md: **LANE_CFG** (+0x00). Writes are critical. A write that clears EN, or that changes RATE_EN or LPBK, while the lane's bar is not idle in the sense of R160, completes with BUSY.
def LANE_CFG (l : Nat) : Nat := laneBase l + 0x00
-- 08_head_lanes.md: **LANE_STAT** (+0x04)
def LANE_STAT (l : Nat) : Nat := laneBase l + 0x04
-- 08_head_lanes.md: **LANE_EYE** (+0x08)
def LANE_EYE (l : Nat) : Nat := laneBase l + 0x08
-- 08_head_lanes.md: **LANE_ERR** (+0x0C)
def LANE_ERR (l : Nat) : Nat := laneBase l + 0x0C
-- 08_head_lanes.md: **LANE_CNT** (+0x10)
def LANE_CNT (l : Nat) : Nat := laneBase l + 0x10
-- 08_head_lanes.md: **LANE_FAILS** (+0x14)
def LANE_FAILS (l : Nat) : Nat := laneBase l + 0x14
-- 08_head_lanes.md: **LANE_RXEQ** (+0x18)
def LANE_RXEQ (l : Nat) : Nat := laneBase l + 0x18
-- 08_head_lanes.md: **LANE_TXEQ** (+0x1C)
def LANE_TXEQ (l : Nat) : Nat := laneBase l + 0x1C
-- 08_head_lanes.md: **LANE_PWR_STAT** (+0x20)
def LANE_PWR_STAT (l : Nat) : Nat := laneBase l + 0x20
-- 08_head_lanes.md: **LANE_SCAN_CTRL** (+0x24)
def LANE_SCAN_CTRL (l : Nat) : Nat := laneBase l + 0x24
-- 08_head_lanes.md: **LANE_UNSENT** (+0x28)
def LANE_UNSENT (l : Nat) : Nat := laneBase l + 0x28
-- 08_head_lanes.md: **JL_TRAIN_CFG** (0x0C_8000)
def JL_TRAIN_CFG : Nat := 0x0C8000
-- 08_head_lanes.md: **JL_PWR_CFG** (0x0C_8004)
def JL_PWR_CFG : Nat := 0x0C8004
-- 08_head_lanes.md: **JL_SCAN_CFG** (0x0C_8008)
def JL_SCAN_CFG : Nat := 0x0C8008
-- 08_head_lanes.md: **JL_READYn** (0x0C_8010 + 4 × n, n = 0–2)
def JL_READY (n : Nat) : Nat := 0x0C8010 + 0x4 * n
-- 08_head_lanes.md: **JL_LOSTn** (0x0C_8020 + 4 × n, n = 0–2)
def JL_LOST (n : Nat) : Nat := 0x0C8020 + 0x4 * n
-- 09_joend_records_and_firing.md: **JL_STAT** (+0x40)
def JL_STAT (l : Nat) : Nat := laneBase l + 0x40
-- 09_joend_records_and_firing.md: **JL_SEQ** (+0x44)
def JL_SEQ (l : Nat) : Nat := laneBase l + 0x44
-- 09_joend_records_and_firing.md: **JL_OUT** (+0x48)
def JL_OUT (l : Nat) : Nat := laneBase l + 0x48
-- 09_joend_records_and_firing.md: **JL_LAT** (+0x4C)
def JL_LAT (l : Nat) : Nat := laneBase l + 0x4C
-- 09_joend_records_and_firing.md: **JL_TERR** (+0x50)
def JL_TERR (l : Nat) : Nat := laneBase l + 0x50
-- 09_joend_records_and_firing.md: **JL_HDM** (+0x54)
def JL_HDM (l : Nat) : Nat := laneBase l + 0x54
-- 09_joend_records_and_firing.md: **JL_TEMP01** (+0x58), **JL_TEMP23** (+0x5C)
def JL_TEMP01 (l : Nat) : Nat := laneBase l + 0x58
def JL_TEMP23 (l : Nat) : Nat := laneBase l + 0x5C
-- 09_joend_records_and_firing.md: **JL_BAND** (+0x60)
def JL_BAND (l : Nat) : Nat := laneBase l + 0x60
-- 09_joend_records_and_firing.md: **JL_HDM_CNT0** (+0x64), **JL_HDM_CNT1** (+0x68), **JL_HDM_CNT2** (+0x6C)
def JL_HDM_CNT0 (l : Nat) : Nat := laneBase l + 0x64
def JL_HDM_CNT1 (l : Nat) : Nat := laneBase l + 0x68
def JL_HDM_CNT2 (l : Nat) : Nat := laneBase l + 0x6C
-- 09_joend_records_and_firing.md: **JL_ACC_CLAIM** (+0x70)
def JL_ACC_CLAIM (l : Nat) : Nat := laneBase l + 0x70
-- 09_joend_records_and_firing.md: **JL_HDM_FLAGS** (+0x74)
def JL_HDM_FLAGS (l : Nat) : Nat := laneBase l + 0x74
-- 09_joend_records_and_firing.md: **JL_RT_CNT** (+0x78)
def JL_RT_CNT (l : Nat) : Nat := laneBase l + 0x78
-- 09_joend_records_and_firing.md: **JL_CTL_STAT** (+0x7C)
def JL_CTL_STAT (l : Nat) : Nat := laneBase l + 0x7C
-- 09_joend_records_and_firing.md: **JL_RT_CFG** (0x0C_8030), TICK domain
def JL_RT_CFG : Nat := 0x0C8030
-- 09_joend_records_and_firing.md: **JL_STAT_CFG** (0x0C_8034)
def JL_STAT_CFG : Nat := 0x0C8034
-- 09_joend_records_and_firing.md: **JL_LAT_ASYM** (0x0C_8038)
def JL_LAT_ASYM : Nat := 0x0C8038
-- 09_joend_records_and_firing.md: **JL_MMn** (0x0C_8040 + 4 × n, n = 0–2)
def JL_MM (n : Nat) : Nat := 0x0C8040 + 0x4 * n
-- 09_joend_records_and_firing.md: **JL_HCn_ID** (0x0C_9000 + 0x40 × n, n = 0–7)
def JL_HC_ID (n : Nat) : Nat := 0x0C9000 + 0x40 * n
-- 09_joend_records_and_firing.md: **JL_HCn_BANDk** (+0x04 + 4 × k, k = 0–7)
def JL_HC_BAND (n : Nat) (k : Nat) : Nat := 0x0C9004 + 0x40 * n + 0x4 * k
-- 09_joend_records_and_firing.md: **FS_BAR_EN** (0x0B_0000)
def FS_BAR_EN : Nat := 0x0B0000
-- 09_joend_records_and_firing.md: **FS_SAFE_STAT** (0x0B_0004)
def FS_SAFE_STAT : Nat := 0x0B0004
-- 09_joend_records_and_firing.md: **FS_SAFE_CTRL** (0x0B_0008)
def FS_SAFE_CTRL : Nat := 0x0B0008
-- 09_joend_records_and_firing.md: **FS_INH_CFG** (0x0B_000C)
def FS_INH_CFG : Nat := 0x0B000C
-- 09_joend_records_and_firing.md: **FS_WD_CLR** (0x0B_0010)
def FS_WD_CLR : Nat := 0x0B0010
-- 09_joend_records_and_firing.md: **FS_PIN_STAT** (0x0B_0014)
def FS_PIN_STAT : Nat := 0x0B0014
-- 09_joend_records_and_firing.md: **FS_WM_STAT** (0x0B_0020)
def FS_WM_STAT : Nat := 0x0B0020
-- 09_joend_records_and_firing.md: **FS_BARn_STB** (0x0B_0100 + 0x10 × n, n = 0–7)
def FS_BAR_STB (n : Nat) : Nat := 0x0B0100 + 0x10 * n
-- 09_joend_records_and_firing.md: **FS_BARn_WD** (+0x4)
def FS_BAR_WD (n : Nat) : Nat := 0x0B0104 + 0x10 * n
-- 09_joend_records_and_firing.md: **FS_BARn_WD_TIME** (+0x8)
def FS_BAR_WD_TIME (n : Nat) : Nat := 0x0B0108 + 0x10 * n
-- 09_joend_records_and_firing.md: **FS_WMn_CFG** (0x0B_0200 + 0x10 × n, n = 0–1)
def FS_WM_CFG (n : Nat) : Nat := 0x0B0200 + 0x10 * n
-- 09_joend_records_and_firing.md: **FS_WMn_OFS** (+0x4)
def FS_WM_OFS (n : Nat) : Nat := 0x0B0204 + 0x10 * n
-- 10_camera_pipeline.md: **CM_CTXn_CFG** (+0x00)
def CM_CTX_CFG (n : Nat) : Nat := 0x0A0000 + 0x200 * n
-- 10_camera_pipeline.md: **CM_CTXn_GEOM** (+0x04)
def CM_CTX_GEOM (n : Nat) : Nat := 0x0A0004 + 0x200 * n
-- 10_camera_pipeline.md: **CM_CTXn_RATE** (+0x08)
def CM_CTX_RATE (n : Nat) : Nat := 0x0A0008 + 0x200 * n
-- 10_camera_pipeline.md: **CM_CTXn_LAT** (+0x0C), **CM_CTXn_OFS** (+0x10)
def CM_CTX_LAT (n : Nat) : Nat := 0x0A000C + 0x200 * n
def CM_CTX_OFS (n : Nat) : Nat := 0x0A0010 + 0x200 * n
-- 10_camera_pipeline.md: **CM_CTXn_BLACK01** (+0x14), **CM_CTXn_BLACK23** (+0x18)
def CM_CTX_BLACK01 (n : Nat) : Nat := 0x0A0014 + 0x200 * n
def CM_CTX_BLACK23 (n : Nat) : Nat := 0x0A0018 + 0x200 * n
-- 10_camera_pipeline.md: **CM_CTXn_Mk** (+0x20 + 4 × k, k = 0–5)
def CM_CTX_M (n : Nat) (k : Nat) : Nat := 0x0A0020 + 0x200 * n + 0x4 * k
-- 10_camera_pipeline.md: **CM_CTXn_MAP_X** (+0x40)
def CM_CTX_MAP_X (n : Nat) : Nat := 0x0A0040 + 0x200 * n
-- 10_camera_pipeline.md: **CM_CTXn_MAP_P0** (+0x44), **CM_CTXn_MAP_PX** (+0x48), **CM_CTXn_MAP_P2** (+0x4C)
def CM_CTX_MAP_P0 (n : Nat) : Nat := 0x0A0044 + 0x200 * n
def CM_CTX_MAP_PX (n : Nat) : Nat := 0x0A0048 + 0x200 * n
def CM_CTX_MAP_P2 (n : Nat) : Nat := 0x0A004C + 0x200 * n
-- 10_camera_pipeline.md: **CM_CTXn_STAT** (+0x60)
def CM_CTX_STAT (n : Nat) : Nat := 0x0A0060 + 0x200 * n
-- 10_camera_pipeline.md: **CM_CTXn_DROP1** (+0x64), **CM_CTXn_DROP2** (+0x68), **CM_CTXn_DROP3** (+0x6C)
def CM_CTX_DROP1 (n : Nat) : Nat := 0x0A0064 + 0x200 * n
def CM_CTX_DROP2 (n : Nat) : Nat := 0x0A0068 + 0x200 * n
def CM_CTX_DROP3 (n : Nat) : Nat := 0x0A006C + 0x200 * n
-- 10_camera_pipeline.md: **CM_PORTn_CFG** (+0x00), TICK domain
def CM_PORT_CFG (n : Nat) : Nat := 0x0A2000 + 0x20 * n
-- 10_camera_pipeline.md: **CM_PORTn_ERR** (+0x04), **CM_PORTn_ERR2** (+0x08)
def CM_PORT_ERR (n : Nat) : Nat := 0x0A2004 + 0x20 * n
def CM_PORT_ERR2 (n : Nat) : Nat := 0x0A2008 + 0x20 * n
-- 10_camera_pipeline.md: **CM_CFG_STAT** (0x0A_2080)
def CM_CFG_STAT : Nat := 0x0A2080
-- 10_camera_pipeline.md: **CM_PIPE_STAT** (0x0A_2084)
def CM_PIPE_STAT : Nat := 0x0A2084
-- 10_camera_pipeline.md: **CM_MARK_CFG** (0x0A_2100), TICK domain
def CM_MARK_CFG : Nat := 0x0A2100
-- 10_camera_pipeline.md: **CM_MARK_WIN** (0x0A_2104), **CM_MARK_SEARCH** (0x0A_2108), TICK domain
def CM_MARK_WIN : Nat := 0x0A2104
def CM_MARK_SEARCH : Nat := 0x0A2108
-- 10_camera_pipeline.md: **CM_MARK_STAT** (0x0A_210C)
def CM_MARK_STAT : Nat := 0x0A210C
-- 10_camera_pipeline.md: **CM_MARK_POSb** (0x0A_2120 + 4 × b), TICK domain; **CM_MARK_ERRb** (0x0A_2140 + 4 × b)
def CM_MARK_POS (b : Nat) : Nat := 0x0A2120 + 0x4 * b
def CM_MARK_ERR (b : Nat) : Nat := 0x0A2140 + 0x4 * b
-- 10_camera_pipeline.md: **CM_PROOF_CFG** (0x0A_2180), TICK domain
def CM_PROOF_CFG : Nat := 0x0A2180
-- 10_camera_pipeline.md: **CM_PROOF_DUE** (0x0A_2184), TICK domain
def CM_PROOF_DUE : Nat := 0x0A2184
-- 10_camera_pipeline.md: **CM_PROOF_STAT** (0x0A_2188), **CM_PROOF_STAT2** (0x0A_218C)
def CM_PROOF_STAT : Nat := 0x0A2188
def CM_PROOF_STAT2 : Nat := 0x0A218C
-- 11_beryl_density_loop.md: **BY_CTRL** (0x09_0000)
def BY_CTRL : Nat := 0x090000
-- 11_beryl_density_loop.md: **BY_STAT** (0x09_0004)
def BY_STAT : Nat := 0x090004
-- 11_beryl_density_loop.md: **BY_SOLVE_CFG** (0x09_0008)
def BY_SOLVE_CFG : Nat := 0x090008
-- 11_beryl_density_loop.md: **BY_EXC_MIN** (0x09_000C)
def BY_EXC_MIN : Nat := 0x09000C
-- 11_beryl_density_loop.md: **BY_GAIN_CFG** (0x09_0010)
def BY_GAIN_CFG : Nat := 0x090010
-- 11_beryl_density_loop.md: **BY_NOZ_CFG** (0x09_0014)
def BY_NOZ_CFG : Nat := 0x090014
-- 11_beryl_density_loop.md: **BY_WHITE_CFG** (0x09_0018)
def BY_WHITE_CFG : Nat := 0x090018
-- 11_beryl_density_loop.md: **BY_APPLY_CFG** (0x09_001C)
def BY_APPLY_CFG : Nat := 0x09001C
-- 11_beryl_density_loop.md: **BY_REG_CFG** (0x09_0020)
def BY_REG_CFG : Nat := 0x090020
-- 11_beryl_density_loop.md: **BY_DEV_CFG** (0x09_0024)
def BY_DEV_CFG : Nat := 0x090024
-- 11_beryl_density_loop.md: **BY_STRIP_CFG** (0x09_0030), TICK domain
def BY_STRIP_CFG : Nat := 0x090030
-- 11_beryl_density_loop.md: **BY_STRIP_CFG2** (0x09_0034), TICK domain
def BY_STRIP_CFG2 : Nat := 0x090034
-- 11_beryl_density_loop.md: **BY_STRIP_CTRL** (0x09_0038)
def BY_STRIP_CTRL : Nat := 0x090038
-- 11_beryl_density_loop.md: **BY_STRIP_STAT** (0x09_003C)
def BY_STRIP_STAT : Nat := 0x09003C
-- 11_beryl_density_loop.md: **BY_OBS_STAT** (0x09_0040)
def BY_OBS_STAT : Nat := 0x090040
-- 11_beryl_density_loop.md: **BY_OBS_STAT2** (0x09_0044)
def BY_OBS_STAT2 : Nat := 0x090044
-- 11_beryl_density_loop.md: **BY_SOLVE_STAT** (0x09_0048)
def BY_SOLVE_STAT : Nat := 0x090048
-- 11_beryl_density_loop.md: **BY_SENSk_m** (0x09_0100 + 0x10 × k + 4 × m, k = 0–3, m = 0–3), GAP domain
def BY_SENS (k : Nat) (m : Nat) : Nat := 0x090100 + 0x10 * k + 0x4 * m
-- 11_beryl_density_loop.md: **BY_BARn_CFG** (+0x00)
def BY_BAR_CFG (n : Nat) : Nat := 0x091000 + 0x100 * n
-- 11_beryl_density_loop.md: **BY_BARn_REF** (+0x04)
def BY_BAR_REF (n : Nat) : Nat := 0x091004 + 0x100 * n
-- 11_beryl_density_loop.md: **BY_BARn_RESID** (+0x08)
def BY_BAR_RESID (n : Nat) : Nat := 0x091008 + 0x100 * n
-- 11_beryl_density_loop.md: **BY_BARn_SOLVES** (+0x0C)
def BY_BAR_SOLVES (n : Nat) : Nat := 0x09100C + 0x100 * n
-- 11_beryl_density_loop.md: **BY_BARn_LAST_LO** (+0x10), **BY_BARn_LAST_HI** (+0x14)
def BY_BAR_LAST_LO (n : Nat) : Nat := 0x091010 + 0x100 * n
def BY_BAR_LAST_HI (n : Nat) : Nat := 0x091014 + 0x100 * n
-- 11_beryl_density_loop.md: **BY_BARn_DEV** (+0x18)
def BY_BAR_DEV (n : Nat) : Nat := 0x091018 + 0x100 * n
-- 11_beryl_density_loop.md: **BY_BARn_NOZ** (+0x1C)
def BY_BAR_NOZ (n : Nat) : Nat := 0x09101C + 0x100 * n
-- 11_beryl_density_loop.md: **BY_BARn_CTRL** (+0x20)
def BY_BAR_CTRL (n : Nat) : Nat := 0x091020 + 0x100 * n
-- 11_beryl_density_loop.md: **BY_BARn_APPLY** (+0x24)
def BY_BAR_APPLY (n : Nat) : Nat := 0x091024 + 0x100 * n
-- 12_pair_redundancy.md: **PR_CFG** (0x0D_0000)
def PR_CFG : Nat := 0x0D0000
-- 12_pair_redundancy.md: **PR_STAT** (0x0D_0004)
def PR_STAT : Nat := 0x0D0004
-- 12_pair_redundancy.md: **PR_CLAIM** (0x0D_0008), **PR_PARTNER_CLAIM** (0x0D_000C), **PR_ACC_CLAIM** (0x0D_0010)
def PR_CLAIM : Nat := 0x0D0008
def PR_PARTNER_CLAIM : Nat := 0x0D000C
def PR_ACC_CLAIM : Nat := 0x0D0010
-- 12_pair_redundancy.md: **PR_CTRL** (0x0D_0014)
def PR_CTRL : Nat := 0x0D0014
-- 12_pair_redundancy.md: **PR_HB_CNT** (0x0D_0020)
def PR_HB_CNT : Nat := 0x0D0020
-- 12_pair_redundancy.md: **PR_LINK_CNT** (0x0D_0024), **PR_LINK_ERR** (0x0D_0028)
def PR_LINK_CNT : Nat := 0x0D0024
def PR_LINK_ERR : Nat := 0x0D0028
-- 12_pair_redundancy.md: **PR_TS_STAT** (0x0D_0030)
def PR_TS_STAT : Nat := 0x0D0030
-- 12_pair_redundancy.md: **PR_TAKEOVER** (0x0D_0034)
def PR_TAKEOVER : Nat := 0x0D0034
-- 12_pair_redundancy.md: **PR_TAKEOVER_T_LO** (0x0D_0038), **PR_TAKEOVER_T_HI** (0x0D_003C)
def PR_TAKEOVER_T_LO : Nat := 0x0D0038
def PR_TAKEOVER_T_HI : Nat := 0x0D003C
-- 12_pair_redundancy.md: **PR_GARNET_STAT** (0x0D_0040)
def PR_GARNET_STAT : Nat := 0x0D0040
-- 12_pair_redundancy.md: **PR_GARNET_LAST** (0x0D_0044)
def PR_GARNET_LAST : Nat := 0x0D0044
-- 12_pair_redundancy.md: **PR_GARNET_CHECKS** (0x0D_0048)
def PR_GARNET_CHECKS : Nat := 0x0D0048
-- 12_pair_redundancy.md: **PR_MM_STAT** (0x0D_004C)
def PR_MM_STAT : Nat := 0x0D004C
-- 12_pair_redundancy.md: **PR_PARTNER_READYn** (0x0D_0050 + 4 × n, n = 0–2)
def PR_PARTNER_READY (n : Nat) : Nat := 0x0D0050 + 0x4 * n
-- 13_host_control_and_security.md: **HP_DCP_CFG** (0x0E_0000)
def HP_DCP_CFG : Nat := 0x0E0000
-- 13_host_control_and_security.md: **HP_DCP_STAT** (0x0E_0004)
def HP_DCP_STAT : Nat := 0x0E0004
-- 13_host_control_and_security.md: **HP_DCP_ERR** (0x0E_0008)
def HP_DCP_ERR : Nat := 0x0E0008
-- 13_host_control_and_security.md: **HP_DCP_CONFLICT** (0x0E_000C)
def HP_DCP_CONFLICT : Nat := 0x0E000C
-- 13_host_control_and_security.md: **HP_RX_DROP** (0x0E_0010)
def HP_RX_DROP : Nat := 0x0E0010
-- 13_host_control_and_security.md: **HP_MP_STAT** (0x0E_0014)
def HP_MP_STAT : Nat := 0x0E0014
-- 13_host_control_and_security.md: **HP_BOOT_NONCE_LO** (0x0E_0018), **HP_BOOT_NONCE_HI** (0x0E_001C)
def HP_BOOT_NONCE_LO : Nat := 0x0E0018
def HP_BOOT_NONCE_HI : Nat := 0x0E001C
-- 13_host_control_and_security.md: **HP_MP_MAC_LO** (0x0E_0020), **HP_MP_MAC_HI** (0x0E_0024), **HP_DP_MAC_LO** (0x0E_0028), **HP_DP_MAC_HI** (0x0E_002C)
def HP_MP_MAC_LO : Nat := 0x0E0020
def HP_MP_MAC_HI : Nat := 0x0E0024
def HP_DP_MAC_LO : Nat := 0x0E0028
def HP_DP_MAC_HI : Nat := 0x0E002C
-- 13_host_control_and_security.md: **HP_MP_IP4** (0x0E_0030), **HP_DP_IP4** (0x0E_0034)
def HP_MP_IP4 : Nat := 0x0E0030
def HP_DP_IP4 : Nat := 0x0E0034
-- 13_host_control_and_security.md: **HP_MP_IP6_k** (0x0E_0040 + 4 × k), **HP_DP_IP6_k** (0x0E_0050 + 4 × k), k = 0–3
def HP_MP_IP6 (k : Nat) : Nat := 0x0E0040 + 0x4 * k
def HP_DP_IP6 (k : Nat) : Nat := 0x0E0050 + 0x4 * k
-- 13_host_control_and_security.md: **HP_MSTn_CFG** (0x0E_0100 + 0x10 × n, n = 0–3)
def HP_MST_CFG (n : Nat) : Nat := 0x0E0100 + 0x10 * n
-- 13_host_control_and_security.md: **HP_MSTn_CTR_LO** (+0x4), **HP_MSTn_CTR_HI** (+0x8)
def HP_MST_CTR_LO (n : Nat) : Nat := 0x0E0104 + 0x10 * n
def HP_MST_CTR_HI (n : Nat) : Nat := 0x0E0108 + 0x10 * n
-- 13_host_control_and_security.md: **HP_KEY_STAT** (0x0E_0180)
def HP_KEY_STAT : Nat := 0x0E0180
-- 13_host_control_and_security.md: **EV_NEXT_SEQ** (0x11_0000), **EV_OLDEST_SEQ** (0x11_0004)
def EV_NEXT_SEQ : Nat := 0x110000
def EV_OLDEST_SEQ : Nat := 0x110004
-- 13_host_control_and_security.md: **EV_IRQ_MASK** (0x11_0008)
def EV_IRQ_MASK : Nat := 0x110008
-- 13_host_control_and_security.md: **EV_IRQ_STAT** (0x11_000C)
def EV_IRQ_STAT : Nat := 0x11000C
-- 13_host_control_and_security.md: **EV_MSTn_CFG** (0x11_0010 + 4 × n, n = 0–3)
def EV_MST_CFG (n : Nat) : Nat := 0x110010 + 0x4 * n
-- 13_host_control_and_security.md: **EV_PUSH_STAT** (0x11_0020)
def EV_PUSH_STAT : Nat := 0x110020
-- 14_startup_configuration_and_trim.md: **BT_BOOT_STAT** (0x01_0000)
def BT_BOOT_STAT : Nat := 0x010000
-- 14_startup_configuration_and_trim.md: **BT_IMG_SEQ** (0x01_0004), **BT_IMG_BUILD** (0x01_0008)
def BT_IMG_SEQ : Nat := 0x010004
def BT_IMG_BUILD : Nat := 0x010008
-- 14_startup_configuration_and_trim.md: **BT_IMG_REFUSED** (0x01_000C)
def BT_IMG_REFUSED : Nat := 0x01000C
-- 14_startup_configuration_and_trim.md: **BT_IMG_WR_STAT** (0x01_0010)
def BT_IMG_WR_STAT : Nat := 0x010010
-- 14_startup_configuration_and_trim.md: **BT_TRIM_STAT** (0x01_0020)
def BT_TRIM_STAT : Nat := 0x010020
-- 14_startup_configuration_and_trim.md: **BT_TRIM_CNT** (0x01_0024)
def BT_TRIM_CNT : Nat := 0x010024
-- 14_startup_configuration_and_trim.md: **BT_TRIM_LAST_LO** (0x01_0028), **BT_TRIM_LAST_HI** (0x01_002C)
def BT_TRIM_LAST_LO : Nat := 0x010028
def BT_TRIM_LAST_HI : Nat := 0x01002C
-- 14_startup_configuration_and_trim.md: **BT_TRIM_TEMP** (0x01_0030)
def BT_TRIM_TEMP : Nat := 0x010030
-- 14_startup_configuration_and_trim.md: **BT_TRIM_FAILn** (0x01_0040 + 4 × n, n = 0–3)
def BT_TRIM_FAIL (n : Nat) : Nat := 0x010040 + 0x4 * n
-- 14_startup_configuration_and_trim.md: **BT_PWR_CTRL** (0x01_0060)
def BT_PWR_CTRL : Nat := 0x010060
-- 14_startup_configuration_and_trim.md: **BT_AO_STAT** (0x01_0064)
def BT_AO_STAT : Nat := 0x010064
-- 14_startup_configuration_and_trim.md: **BT_OTP_SERIAL_LO** (0x01_0070), **BT_OTP_SERIAL_HI** (0x01_0074)
def BT_OTP_SERIAL_LO : Nat := 0x010070
def BT_OTP_SERIAL_HI : Nat := 0x010074
-- 15_power_thermal_supply.md: **PW_TEMP** (0x02_0000)
def PW_TEMP : Nat := 0x020000
-- 15_power_thermal_supply.md: **PW_SENSE** (0x02_0004)
def PW_SENSE : Nat := 0x020004
-- 15_power_thermal_supply.md: **PW_MODEL_CFG** (0x02_0008)
def PW_MODEL_CFG : Nat := 0x020008
-- 15_power_thermal_supply.md: **PW_THR_CFG** (0x02_000C)
def PW_THR_CFG : Nat := 0x02000C
-- 15_power_thermal_supply.md: **PW_TRIP_CFG** (0x02_0010)
def PW_TRIP_CFG : Nat := 0x020010
-- 15_power_thermal_supply.md: **PW_STEP_STAT** (0x02_0014)
def PW_STEP_STAT : Nat := 0x020014
-- 15_power_thermal_supply.md: **PW_SUP_CFG** (0x02_0018)
def PW_SUP_CFG : Nat := 0x020018
-- 15_power_thermal_supply.md: **PW_SUP_STAT** (0x02_001C)
def PW_SUP_STAT : Nat := 0x02001C
-- 15_power_thermal_supply.md: **PW_GATE** (0x02_0020)
def PW_GATE : Nat := 0x020020
-- 15_power_thermal_supply.md: **PW_SHUT_STAT** (0x02_0024)
def PW_SHUT_STAT : Nat := 0x020024
-- 15_power_thermal_supply.md: **PW_RAILn** (0x02_0040 + 4 × n, n = 0–7: VDD_CORE, VDD_SD, VDDA_SD, VDDQ_DDR, VPP_DDR, VDD_DPHY, VDD_IO18, VDD_IO33)
def PW_RAIL (n : Nat) : Nat := 0x020040 + 0x4 * n
-- 15_power_thermal_supply.md: **PW_PMBn_CFG** (0x02_0060 + 4 × n, n = 0–7)
def PW_PMB_CFG (n : Nat) : Nat := 0x020060 + 0x4 * n
-- 16_agate_recorder_and_replay.md: **AG_CFG** (0x10_0000)
def AG_CFG : Nat := 0x100000
-- 16_agate_recorder_and_replay.md: **AG_TRIG_CFG** (0x10_0004)
def AG_TRIG_CFG : Nat := 0x100004
-- 16_agate_recorder_and_replay.md: **AG_TRIG_CODEn** (0x10_0010 + 4 × n, n = 0–3)
def AG_TRIG_CODE (n : Nat) : Nat := 0x100010 + 0x4 * n
-- 16_agate_recorder_and_replay.md: **AG_CTRL** (0x10_0020)
def AG_CTRL : Nat := 0x100020
-- 16_agate_recorder_and_replay.md: **AG_STAT** (0x10_0024)
def AG_STAT : Nat := 0x100024
-- 16_agate_recorder_and_replay.md: **AG_RP_CTRL** (0x10_0040)
def AG_RP_CTRL : Nat := 0x100040
-- 16_agate_recorder_and_replay.md: **AG_RP_START** (0x10_0044), **AG_RP_END** (0x10_0048)
def AG_RP_START : Nat := 0x100044
def AG_RP_END : Nat := 0x100048
-- 16_agate_recorder_and_replay.md: **AG_RP_STAT** (0x10_004C)
def AG_RP_STAT : Nat := 0x10004C
-- 16_agate_recorder_and_replay.md: **AG_RP_MM** (0x10_0050)
def AG_RP_MM : Nat := 0x100050
-- 18_register_map.md: **GL_DEV_ID** (0x00_0000)
def GL_DEV_ID : Nat := 0x000000
-- 18_register_map.md: **GL_ROLE_STAT** (0x00_0004)
def GL_ROLE_STAT : Nat := 0x000004
-- 18_register_map.md: **GL_CMT_CTRL** (0x00_0008)
def GL_CMT_CTRL : Nat := 0x000008
-- 18_register_map.md: **GL_CMT_STAT** (0x00_000C)
def GL_CMT_STAT : Nat := 0x00000C
-- 18_register_map.md: **GL_TICK** (0x00_0010)
def GL_TICK : Nat := 0x000010
-- 18_register_map.md: **GL_DEGRADED** (0x00_0014)
def GL_DEGRADED : Nat := 0x000014
-- 18_register_map.md: **EV_DIAG_VIEW** (0x11_0030)
def EV_DIAG_VIEW : Nat := 0x110030
-- 07_time_base.md: receive entry (R221) and transmit buffer (R222)
def HP_PTP_RXE (k : Nat) : Nat := 0x0E0B00 + 4 * k
def HP_PTP_TXBUF (k : Nat) : Nat := 0x0E0B80 + 4 * k
-- 02_job_store_and_ingest.md: MC_RGN_SIZE7, the strip pool size

-- The fields.
-- MC_CFG (0x0F_0000)
abbrev MC_CFG_RATE : Fld := ⟨MC_CFG, 1, 0⟩
abbrev MC_CFG_DEV_X16 : Fld := ⟨MC_CFG, 2, 2⟩
abbrev MC_CFG_DENSITY : Fld := ⟨MC_CFG, 5, 4⟩
-- MC_STAT (0x0F_0004)
abbrev MC_STAT_CAP_GIB : Fld := ⟨MC_STAT, 7, 0⟩
abbrev MC_STAT_TRAINED : Fld := ⟨MC_STAT, 8, 8⟩
abbrev MC_STAT_PRINT_RATE : Fld := ⟨MC_STAT, 9, 9⟩
-- MC_ECC_CE (0x0F_0010), MC_ECC_UE (0x0F_0014)
abbrev MC_ECC_CE_COUNT : Fld := ⟨MC_ECC_CE, 31, 0⟩
abbrev MC_ECC_UE_COUNT : Fld := ⟨MC_ECC_UE, 31, 0⟩
-- MC_ECC_UE_ADDR (0x0F_0018)
abbrev MC_ECC_UE_ADDR_BLOCK : Fld := ⟨MC_ECC_UE_ADDR, 29, 0⟩
abbrev MC_ECC_UE_ADDR_SUBCH : Fld := ⟨MC_ECC_UE_ADDR, 31, 30⟩
-- MC_RGN_BASEn (0x0F_0100 + 8 × n, n = 0–7)
abbrev MC_RGN_BASE_BASE_MIB (n : Nat) : Fld := ⟨MC_RGN_BASE n, 15, 0⟩
-- MC_RGN_SIZEn (0x0F_0104 + 8 × n, n = 0–6)
abbrev MC_RGN_SIZE_SIZE_MIB (n : Nat) : Fld := ⟨MC_RGN_SIZE n, 15, 0⟩
-- PG_ADM_LIMIT (0x05_0400)
abbrev PG_ADM_LIMIT_DRAM_LIMIT : Fld := ⟨PG_ADM_LIMIT, 15, 0⟩
abbrev PG_ADM_LIMIT_DEC_LIMIT : Fld := ⟨PG_ADM_LIMIT, 31, 16⟩
-- PG_ADM_PEAK (0x05_0404)
abbrev PG_ADM_PEAK_DRAM_PEAK : Fld := ⟨PG_ADM_PEAK, 15, 0⟩
abbrev PG_ADM_PEAK_DEC_PEAK : Fld := ⟨PG_ADM_PEAK, 31, 16⟩
-- PG_ADM_LAST (0x05_0408)
abbrev PG_ADM_LAST_JOB_SLOT : Fld := ⟨PG_ADM_LAST, 5, 0⟩
abbrev PG_ADM_LAST_REASON : Fld := ⟨PG_ADM_LAST, 7, 6⟩
abbrev PG_ADM_LAST_PAGE : Fld := ⟨PG_ADM_LAST, 31, 8⟩
-- PG_ADM_CNT (0x05_040C)
abbrev PG_ADM_CNT_ADMITTED : Fld := ⟨PG_ADM_CNT, 15, 0⟩
abbrev PG_ADM_CNT_REFUSED : Fld := ⟨PG_ADM_CNT, 31, 16⟩
-- PG_SPDREQ_CTRL (0x05_0410)
abbrev PG_SPDREQ_CTRL_MARGIN_PM : Fld := ⟨PG_SPDREQ_CTRL, 7, 0⟩
abbrev PG_SPDREQ_CTRL_HYST_PM : Fld := ⟨PG_SPDREQ_CTRL, 15, 8⟩
abbrev PG_SPDREQ_CTRL_SLACK_10US : Fld := ⟨PG_SPDREQ_CTRL, 23, 16⟩
abbrev PG_SPDREQ_CTRL_FORCE : Fld := ⟨PG_SPDREQ_CTRL, 24, 24⟩
-- PG_SPDREQ_STAT (0x05_0414)
abbrev PG_SPDREQ_STAT_PIN : Fld := ⟨PG_SPDREQ_STAT, 0, 0⟩
abbrev PG_SPDREQ_STAT_OVER_DECL : Fld := ⟨PG_SPDREQ_STAT, 1, 1⟩
abbrev PG_SPDREQ_STAT_SLACK : Fld := ⟨PG_SPDREQ_STAT, 2, 2⟩
abbrev PG_SPDREQ_STAT_THERMAL : Fld := ⟨PG_SPDREQ_STAT, 3, 3⟩
abbrev PG_SPDREQ_STAT_FORCED : Fld := ⟨PG_SPDREQ_STAT, 4, 4⟩
abbrev PG_SPDREQ_STAT_ASSERT_CNT : Fld := ⟨PG_SPDREQ_STAT, 31, 16⟩
-- PG_PAIR_HOLD (0x05_0420)
abbrev PG_PAIR_HOLD_MISMATCH : Fld := ⟨PG_PAIR_HOLD, 15, 0⟩
abbrev PG_PAIR_HOLD_PENDING : Fld := ⟨PG_PAIR_HOLD, 31, 16⟩
-- HP_DBT_PORT (0x0E_0810)
abbrev HP_DBT_PORT_PORT : Fld := ⟨HP_DBT_PORT, 15, 0⟩
-- HP_DBT_ACKS (0x0E_0800), HP_DBT_NAKS (0x0E_0804), HP_DBT_DROP (0x0E_0808)
abbrev HP_DBT_ACKS_COUNT : Fld := ⟨HP_DBT_ACKS, 31, 0⟩
abbrev HP_DBT_NAKS_COUNT : Fld := ⟨HP_DBT_NAKS, 31, 0⟩
abbrev HP_DBT_DROP_COUNT : Fld := ⟨HP_DBT_DROP, 31, 0⟩
-- HP_DBT_INFLIGHT (0x0E_080C)
abbrev HP_DBT_INFLIGHT_XFERS : Fld := ⟨HP_DBT_INFLIGHT, 10, 0⟩
-- CS_DEC_STAT (0x07_0000)
abbrev CS_DEC_STAT_BUSY : Fld := ⟨CS_DEC_STAT, 15, 0⟩
-- CS_DEC_ERR (0x07_0004)
abbrev CS_DEC_ERR_COUNT : Fld := ⟨CS_DEC_ERR, 31, 0⟩
-- CS_DEC_LAST (0x07_0008)
abbrev CS_DEC_LAST_SURF : Fld := ⟨CS_DEC_LAST, 15, 0⟩
abbrev CS_DEC_LAST_GEN : Fld := ⟨CS_DEC_LAST, 31, 16⟩
-- CS_DEC_LAST_SLOT (0x07_000C)
abbrev CS_DEC_LAST_SLOT_SLOT : Fld := ⟨CS_DEC_LAST_SLOT, 23, 0⟩
abbrev CS_DEC_LAST_SLOT_REASON : Fld := ⟨CS_DEC_LAST_SLOT, 26, 24⟩
-- CS_DEC_OUT (0x07_0010)
abbrev CS_DEC_OUT_UNITS_64K : Fld := ⟨CS_DEC_OUT, 31, 0⟩
-- CS_ENC_GLOBAL (0x07_0080)
abbrev CS_ENC_GLOBAL_VERIFY_ALL : Fld := ⟨CS_ENC_GLOBAL, 0, 0⟩
-- CS_ENCn_CFG (0x07_0100 + 0x20 × n, n = 0–3)
abbrev CS_ENC_CFG_WIDTH_M1 (n : Nat) : Fld := ⟨CS_ENC_CFG n, 11, 0⟩
abbrev CS_ENC_CFG_BPS (n : Nat) : Fld := ⟨CS_ENC_CFG n, 13, 12⟩
abbrev CS_ENC_CFG_LINES_M1 (n : Nat) : Fld := ⟨CS_ENC_CFG n, 18, 14⟩
abbrev CS_ENC_CFG_MODE_EN (n : Nat) : Fld := ⟨CS_ENC_CFG n, 21, 19⟩
abbrev CS_ENC_CFG_VERIFY (n : Nat) : Fld := ⟨CS_ENC_CFG n, 22, 22⟩
abbrev CS_ENC_CFG_DEST (n : Nat) : Fld := ⟨CS_ENC_CFG n, 24, 23⟩
-- CS_ENCn_CTRL (0x07_0104 + 0x20 × n)
abbrev CS_ENC_CTRL_FLUSH (n : Nat) : Fld := ⟨CS_ENC_CTRL n, 0, 0⟩
-- CS_ENCn_STAT (0x07_0108 + 0x20 × n)
abbrev CS_ENC_STAT_STRIPS (n : Nat) : Fld := ⟨CS_ENC_STAT n, 15, 0⟩
abbrev CS_ENC_STAT_LINES_PENDING (n : Nat) : Fld := ⟨CS_ENC_STAT n, 21, 16⟩
abbrev CS_ENC_STAT_BUSY (n : Nat) : Fld := ⟨CS_ENC_STAT n, 22, 22⟩
abbrev CS_ENC_STAT_FAILED (n : Nat) : Fld := ⟨CS_ENC_STAT n, 23, 23⟩
-- CS_ENCn_VFAIL (0x07_010C + 0x20 × n)
abbrev CS_ENC_VFAIL_VERIFY_FAIL (n : Nat) : Fld := ⟨CS_ENC_VFAIL n, 15, 0⟩
abbrev CS_ENC_VFAIL_ENCODE_FAIL (n : Nat) : Fld := ⟨CS_ENC_VFAIL n, 31, 16⟩
-- PG_PAGE_LINES (0x05_0000), GAP domain
abbrev PG_PAGE_LINES_PAGE_LINES : Fld := ⟨PG_PAGE_LINES, 23, 0⟩
-- PG_GAP (0x05_0004), GAP domain
abbrev PG_GAP_GAP_LINES : Fld := ⟨PG_GAP, 15, 0⟩
abbrev PG_GAP_START_MODE : Fld := ⟨PG_GAP, 16, 16⟩
abbrev PG_GAP_MARK_PRB : Fld := ⟨PG_GAP, 18, 17⟩
-- PG_MARK_OFS (0x05_0008), GAP domain
abbrev PG_MARK_OFS_OFS : Fld := ⟨PG_MARK_OFS, 31, 0⟩
-- PG_MARK_STAT (0x05_000C)
abbrev PG_MARK_STAT_EARLY : Fld := ⟨PG_MARK_STAT, 15, 0⟩
abbrev PG_MARK_STAT_LATE : Fld := ⟨PG_MARK_STAT, 31, 16⟩
-- PG_EVT_CFG (0x05_0010), TICK domain
abbrev PG_EVT_CFG_REF_BAR : Fld := ⟨PG_EVT_CFG, 2, 0⟩
abbrev PG_EVT_CFG_GAP_START_EN : Fld := ⟨PG_EVT_CFG, 3, 3⟩
abbrev PG_EVT_CFG_LINE_MATCH_EN : Fld := ⟨PG_EVT_CFG, 4, 4⟩
abbrev PG_EVT_CFG_PAGE_DONE_EN : Fld := ⟨PG_EVT_CFG, 5, 5⟩
abbrev PG_EVT_CFG_UNDERRUN_EN : Fld := ⟨PG_EVT_CFG, 6, 6⟩
abbrev PG_EVT_CFG_MATCH_LINE : Fld := ⟨PG_EVT_CFG, 31, 8⟩
-- PG_EVT_STAT (0x05_0014)
abbrev PG_EVT_STAT_GAP_START : Fld := ⟨PG_EVT_STAT, 0, 0⟩
abbrev PG_EVT_STAT_LINE_MATCH : Fld := ⟨PG_EVT_STAT, 1, 1⟩
abbrev PG_EVT_STAT_PAGE_DONE : Fld := ⟨PG_EVT_STAT, 2, 2⟩
abbrev PG_EVT_STAT_UNDERRUN : Fld := ⟨PG_EVT_STAT, 3, 3⟩
abbrev PG_EVT_STAT_NOT_READY : Fld := ⟨PG_EVT_STAT, 4, 4⟩
abbrev PG_EVT_STAT_FREEZE : Fld := ⟨PG_EVT_STAT, 5, 5⟩
abbrev PG_EVT_STAT_COMMIT_REJ : Fld := ⟨PG_EVT_STAT, 6, 6⟩
abbrev PG_EVT_STAT_MARK_LATE : Fld := ⟨PG_EVT_STAT, 7, 7⟩
abbrev PG_EVT_STAT_REF_SUBST : Fld := ⟨PG_EVT_STAT, 8, 8⟩
-- PG_UNDERRUNn (0x05_0018 + 4 × n, n = 0–2)
abbrev PG_UNDERRUN_CH (n : Nat) : Fld := ⟨PG_UNDERRUN n, 31, 0⟩
-- PG_CUR_PAGE (0x05_0030)
abbrev PG_CUR_PAGE_JOB_SLOT : Fld := ⟨PG_CUR_PAGE, 5, 0⟩
abbrev PG_CUR_PAGE_PAGE : Fld := ⟨PG_CUR_PAGE, 29, 6⟩
abbrev PG_CUR_PAGE_IN_GAP : Fld := ⟨PG_CUR_PAGE, 30, 30⟩
-- PG_CUR_LINE (0x05_0034)
abbrev PG_CUR_LINE_LINE : Fld := ⟨PG_CUR_LINE, 31, 0⟩
-- PG_CMT_TARGET (0x05_0040)
abbrev PG_CMT_TARGET_EN : Fld := ⟨PG_CMT_TARGET, 0, 0⟩
abbrev PG_CMT_TARGET_JOB_SLOT : Fld := ⟨PG_CMT_TARGET, 6, 1⟩
abbrev PG_CMT_TARGET_PAGE : Fld := ⟨PG_CMT_TARGET, 30, 7⟩
-- PG_CMT_STAT (0x05_0044)
abbrev PG_CMT_STAT_GAP_PENDING : Fld := ⟨PG_CMT_STAT, 0, 0⟩
abbrev PG_CMT_STAT_REJ_CAUSE : Fld := ⟨PG_CMT_STAT, 7, 4⟩
abbrev PG_CMT_STAT_REJ_LAYER : Fld := ⟨PG_CMT_STAT, 10, 8⟩
-- PG_CMT_APPLY (0x05_0048)
abbrev PG_CMT_APPLY_JOB_SLOT : Fld := ⟨PG_CMT_APPLY, 5, 0⟩
abbrev PG_CMT_APPLY_PAGE : Fld := ⟨PG_CMT_APPLY, 29, 6⟩
abbrev PG_CMT_APPLY_IMMEDIATE : Fld := ⟨PG_CMT_APPLY, 30, 30⟩
-- PG_JOB_STAT (0x05_0050)
abbrev PG_JOB_STAT_PITCH_DIV : Fld := ⟨PG_JOB_STAT, 1, 0⟩
abbrev PG_JOB_STAT_GRID_X : Fld := ⟨PG_JOB_STAT, 2, 2⟩
abbrev PG_JOB_STAT_GRID_Y : Fld := ⟨PG_JOB_STAT, 3, 3⟩
abbrev PG_JOB_STAT_UPSAMPLE : Fld := ⟨PG_JOB_STAT, 4, 4⟩
abbrev PG_JOB_STAT_RUNNING : Fld := ⟨PG_JOB_STAT, 5, 5⟩
abbrev PG_JOB_STAT_DRAINING : Fld := ⟨PG_JOB_STAT, 6, 6⟩
abbrev PG_JOB_STAT_SUSPENDED : Fld := ⟨PG_JOB_STAT, 7, 7⟩
abbrev PG_JOB_STAT_JOB_SLOT : Fld := ⟨PG_JOB_STAT, 13, 8⟩
-- PG_PROOF (0x05_0060), GAP domain
abbrev PG_PROOF_MODE : Fld := ⟨PG_PROOF, 1, 0⟩
abbrev PG_PROOF_SCOPE : Fld := ⟨PG_PROOF, 2, 2⟩
-- PG_PROOF_STAT (0x05_0064)
abbrev PG_PROOF_STAT_WRITTEN : Fld := ⟨PG_PROOF_STAT, 15, 0⟩
abbrev PG_PROOF_STAT_INCOMPLETE : Fld := ⟨PG_PROOF_STAT, 31, 16⟩
-- LY_CTRLn (0x06_0000 + 0x400 × n, n = 0–7), GAP domain
abbrev LY_CTRL_ENABLE (n : Nat) : Fld := ⟨LY_CTRL n, 0, 0⟩
abbrev LY_CTRL_FORMAT (n : Nat) : Fld := ⟨LY_CTRL n, 2, 1⟩
abbrev LY_CTRL_BLEND (n : Nat) : Fld := ⟨LY_CTRL n, 4, 3⟩
abbrev LY_CTRL_VARYING (n : Nat) : Fld := ⟨LY_CTRL n, 5, 5⟩
abbrev LY_CTRL_POLICY (n : Nat) : Fld := ⟨LY_CTRL n, 7, 6⟩
abbrev LY_CTRL_FREEZE_EN (n : Nat) : Fld := ⟨LY_CTRL n, 8, 8⟩
abbrev LY_CTRL_SCALE_X (n : Nat) : Fld := ⟨LY_CTRL n, 10, 9⟩
abbrev LY_CTRL_SCALE_Y (n : Nat) : Fld := ⟨LY_CTRL n, 12, 11⟩
abbrev LY_CTRL_INTERP (n : Nat) : Fld := ⟨LY_CTRL n, 13, 13⟩
abbrev LY_CTRL_PLANES (n : Nat) : Fld := ⟨LY_CTRL n, 23, 16⟩
-- LY_Xn (+0x004), LY_Wn (+0x008), GAP domain
abbrev LY_X_VALUE (n : Nat) : Fld := ⟨LY_X n, 16, 0⟩
abbrev LY_W_VALUE (n : Nat) : Fld := ⟨LY_W n, 16, 0⟩
-- LY_Yn (+0x00C), LY_Hn (+0x010), GAP domain
abbrev LY_Y_VALUE (n : Nat) : Fld := ⟨LY_Y n, 23, 0⟩
abbrev LY_H_VALUE (n : Nat) : Fld := ⟨LY_H n, 23, 0⟩
-- LY_COLOUR_LOn (+0x014), LY_COLOUR_HIn (+0x018), GAP domain
abbrev LY_COLOUR_LO_VALUES (n : Nat) : Fld := ⟨LY_COLOUR_LO n, 31, 0⟩
abbrev LY_COLOUR_HI_VALUES (n : Nat) : Fld := ⟨LY_COLOUR_HI n, 31, 0⟩
-- LY_HOLDn (+0x01C), GAP domain
abbrev LY_HOLD_HOLD_MAX (n : Nat) : Fld := ⟨LY_HOLD n, 23, 0⟩
-- LY_STATn (+0x020)
abbrev LY_STAT_READY (n : Nat) : Fld := ⟨LY_STAT n, 0, 0⟩
abbrev LY_STAT_LAST_ACTION (n : Nat) : Fld := ⟨LY_STAT n, 2, 1⟩
abbrev LY_STAT_FROZEN (n : Nat) : Fld := ⟨LY_STAT n, 3, 3⟩
-- LY_CNTn (+0x024)
abbrev LY_CNT_NOT_READY (n : Nat) : Fld := ⟨LY_CNT n, 15, 0⟩
abbrev LY_CNT_FREEZE (n : Nat) : Fld := ⟨LY_CNT n, 31, 16⟩
-- LY_SIGn (+0x028)
abbrev LY_SIG_SIG (n : Nat) : Fld := ⟨LY_SIG n, 31, 0⟩
-- LY_SRCn (+0x030)
abbrev LY_SRC_SURF (n : Nat) : Fld := ⟨LY_SRC n, 15, 0⟩
abbrev LY_SRC_GEN (n : Nat) : Fld := ⟨LY_SRC n, 31, 16⟩
-- SC_BARn_CFG (+0x000)
abbrev SC_BAR_CFG_DROP_BITS (n : Nat) : Fld := ⟨SC_BAR_CFG n, 0, 0⟩
abbrev SC_BAR_CFG_OVS_EN (n : Nat) : Fld := ⟨SC_BAR_CFG n, 1, 1⟩
abbrev SC_BAR_CFG_RAMP_USER (n : Nat) : Fld := ⟨SC_BAR_CFG n, 2, 2⟩
abbrev SC_BAR_CFG_PHASE (n : Nat) : Fld := ⟨SC_BAR_CFG n, 15, 8⟩
abbrev SC_BAR_CFG_SEL_PHASE (n : Nat) : Fld := ⟨SC_BAR_CFG n, 21, 16⟩
-- SC_BARn_MAXRATE (+0x004)
abbrev SC_BAR_MAXRATE_MAXRATE (n : Nat) : Fld := ⟨SC_BAR_MAXRATE n, 17, 0⟩
-- SC_BARn_OVS (+0x008)
abbrev SC_BAR_OVS_HYST_PM (n : Nat) : Fld := ⟨SC_BAR_OVS n, 7, 0⟩
abbrev SC_BAR_OVS_STATE (n : Nat) : Fld := ⟨SC_BAR_OVS n, 9, 8⟩
-- SC_BARn_EFFMAX (+0x00C)
abbrev SC_BAR_EFFMAX_EFF_MAX (n : Nat) : Fld := ⟨SC_BAR_EFFMAX n, 17, 0⟩
-- SC_BARn_APPLY_LINE (+0x010)
abbrev SC_BAR_APPLY_LINE_LINE (n : Nat) : Fld := ⟨SC_BAR_APPLY_LINE n, 31, 0⟩
-- SC_BARn_APPLY_CTRL (+0x014)
abbrev SC_BAR_APPLY_CTRL_SWAP (n : Nat) : Fld := ⟨SC_BAR_APPLY_CTRL n, 0, 0⟩
abbrev SC_BAR_APPLY_CTRL_SET_TONE (n : Nat) : Fld := ⟨SC_BAR_APPLY_CTRL n, 1, 1⟩
abbrev SC_BAR_APPLY_CTRL_TONE_SET (n : Nat) : Fld := ⟨SC_BAR_APPLY_CTRL n, 2, 2⟩
abbrev SC_BAR_APPLY_CTRL_JOB_SLOT (n : Nat) : Fld := ⟨SC_BAR_APPLY_CTRL n, 8, 3⟩
abbrev SC_BAR_APPLY_CTRL_ARM (n : Nat) : Fld := ⟨SC_BAR_APPLY_CTRL n, 9, 9⟩
abbrev SC_BAR_APPLY_CTRL_PENDING (n : Nat) : Fld := ⟨SC_BAR_APPLY_CTRL n, 10, 10⟩
abbrev SC_BAR_APPLY_CTRL_COPY_BUSY (n : Nat) : Fld := ⟨SC_BAR_APPLY_CTRL n, 11, 11⟩
abbrev SC_BAR_APPLY_CTRL_LIVE_SET (n : Nat) : Fld := ⟨SC_BAR_APPLY_CTRL n, 12, 12⟩
-- SC_BARn_MISSING (+0x018), SC_BARn_WEAK (+0x01C)
abbrev SC_BAR_MISSING_COUNT (n : Nat) : Fld := ⟨SC_BAR_MISSING n, 16, 0⟩
abbrev SC_BAR_WEAK_COUNT (n : Nat) : Fld := ⟨SC_BAR_WEAK n, 16, 0⟩
-- SC_BARn_GEOM (+0x020)
abbrev SC_BAR_GEOM_UNCOVERED (n : Nat) : Fld := ⟨SC_BAR_GEOM n, 16, 0⟩
abbrev SC_BAR_GEOM_CAUSE (n : Nat) : Fld := ⟨SC_BAR_GEOM n, 18, 17⟩
abbrev SC_BAR_GEOM_SEG (n : Nat) : Fld := ⟨SC_BAR_GEOM n, 22, 19⟩
-- SC_BARn_DECIM (+0x024)
abbrev SC_BAR_DECIM_DROPPED (n : Nat) : Fld := ⟨SC_BAR_DECIM n, 15, 0⟩
abbrev SC_BAR_DECIM_STOPPED (n : Nat) : Fld := ⟨SC_BAR_DECIM n, 31, 16⟩
-- SC_BARn_VOL_LO (+0x028), SC_BARn_VOL_HI (+0x02C)
abbrev SC_BAR_VOL_LO_VOL (n : Nat) : Fld := ⟨SC_BAR_VOL_LO n, 31, 0⟩
abbrev SC_BAR_VOL_HI_VOL (n : Nat) : Fld := ⟨SC_BAR_VOL_HI n, 31, 0⟩
-- SC_BARn_APPLY_CNT (+0x030)
abbrev SC_BAR_APPLY_CNT_APPLIED (n : Nat) : Fld := ⟨SC_BAR_APPLY_CNT n, 15, 0⟩
abbrev SC_BAR_APPLY_CNT_REFUSED (n : Nat) : Fld := ⟨SC_BAR_APPLY_CNT n, 31, 16⟩
-- SC_BARn_OVS_LATE (+0x034)
abbrev SC_BAR_OVS_LATE_LATE (n : Nat) : Fld := ⟨SC_BAR_OVS_LATE n, 15, 0⟩
abbrev SC_BAR_OVS_LATE_CHANGES (n : Nat) : Fld := ⟨SC_BAR_OVS_LATE n, 31, 16⟩
-- SC_BARn_SEGm_COL (+0x100 + 8 × m, m = 0–11)
abbrev SC_BAR_SEG_COL_SEG_COL0 (n : Nat) (m : Nat) : Fld := ⟨SC_BAR_SEG_COL n m, 16, 0⟩
abbrev SC_BAR_SEG_COL_REVERSE (n : Nat) (m : Nat) : Fld := ⟨SC_BAR_SEG_COL n m, 17, 17⟩
-- SC_BARn_SEGm_SLOTS (+0x104 + 8 × m)
abbrev SC_BAR_SEG_SLOTS_SLOTS (n : Nat) (m : Nat) : Fld := ⟨SC_BAR_SEG_SLOTS n m, 13, 0⟩
-- SC_BARn_OVLm (+0x180 + 4 × m, m = 0–10)
abbrev SC_BAR_OVL_WIDTH (n : Nat) (m : Nat) : Fld := ⟨SC_BAR_OVL n m, 8, 0⟩
abbrev SC_BAR_OVL_FIRST (n : Nat) (m : Nat) : Fld := ⟨SC_BAR_OVL n m, 25, 9⟩
-- SC_TAP_CTRL (0x08_4000), TICK domain
abbrev SC_TAP_CTRL_PITCH : Fld := ⟨SC_TAP_CTRL, 15, 0⟩
abbrev SC_TAP_CTRL_DEPTH : Fld := ⟨SC_TAP_CTRL, 20, 16⟩
-- SC_TAP_STAT (0x08_4004)
abbrev SC_TAP_STAT_WRITTEN : Fld := ⟨SC_TAP_STAT, 15, 0⟩
abbrev SC_TAP_STAT_DROPPED : Fld := ⟨SC_TAP_STAT, 31, 16⟩
-- SC_TAP_MISS (0x08_4008)
abbrev SC_TAP_MISS_MISSING : Fld := ⟨SC_TAP_MISS, 15, 0⟩
-- WP_ENC_CFG (0x04_0000)
abbrev WP_ENC_CFG_PRIMARY : Fld := ⟨WP_ENC_CFG, 1, 0⟩
abbrev WP_ENC_CFG_SECONDARY : Fld := ⟨WP_ENC_CFG, 3, 2⟩
abbrev WP_ENC_CFG_DIR_INV : Fld := ⟨WP_ENC_CFG, 7, 4⟩
abbrev WP_ENC_CFG_FILT_N : Fld := ⟨WP_ENC_CFG, 15, 8⟩
-- WP_ENCn_SCALE (0x04_0010 + 0x10 × n, n = 0–3)
abbrev WP_ENC_SCALE_SCALE (n : Nat) : Fld := ⟨WP_ENC_SCALE n, 31, 0⟩
-- WP_ENCn_COUNT (+0x4)
abbrev WP_ENC_COUNT_COUNT (n : Nat) : Fld := ⟨WP_ENC_COUNT n, 31, 0⟩
-- WP_ENCn_ERR (+0x8)
abbrev WP_ENC_ERR_ILLEGAL (n : Nat) : Fld := ⟨WP_ENC_ERR n, 15, 0⟩
abbrev WP_ENC_ERR_ZERR (n : Nat) : Fld := ⟨WP_ENC_ERR n, 31, 16⟩
-- WP_ENCn_ZCNT (+0xC)
abbrev WP_ENC_ZCNT_ZCNT (n : Nat) : Fld := ⟨WP_ENC_ZCNT n, 23, 0⟩
-- WP_FAIL_CFG (0x04_0050)
abbrev WP_FAIL_CFG_ILL_LIMIT : Fld := ⟨WP_FAIL_CFG, 7, 0⟩
abbrev WP_FAIL_CFG_ILL_WIN_MS : Fld := ⟨WP_FAIL_CFG, 15, 8⟩
abbrev WP_FAIL_CFG_STALL_CNT : Fld := ⟨WP_FAIL_CFG, 23, 16⟩
-- WP_TRACK (0x04_0054)
abbrev WP_TRACK_ALIGN_MM : Fld := ⟨WP_TRACK, 15, 0⟩
abbrev WP_TRACK_DIS_LIMIT : Fld := ⟨WP_TRACK, 31, 16⟩
-- WP_SRC_STAT (0x04_0058)
abbrev WP_SRC_STAT_SELECTED : Fld := ⟨WP_SRC_STAT, 1, 0⟩
abbrev WP_SRC_STAT_PRI_FAILED : Fld := ⟨WP_SRC_STAT, 2, 2⟩
abbrev WP_SRC_STAT_SEC_FAILED : Fld := ⟨WP_SRC_STAT, 3, 3⟩
abbrev WP_SRC_STAT_LOST : Fld := ⟨WP_SRC_STAT, 4, 4⟩
abbrev WP_SRC_STAT_DISAGREE : Fld := ⟨WP_SRC_STAT, 15, 8⟩
abbrev WP_SRC_STAT_FAILOVERS : Fld := ⟨WP_SRC_STAT, 31, 16⟩
-- WP_SRC_CTRL (0x04_005C)
abbrev WP_SRC_CTRL_SWAP : Fld := ⟨WP_SRC_CTRL, 0, 0⟩
abbrev WP_SRC_CTRL_RESTORE : Fld := ⟨WP_SRC_CTRL, 1, 1⟩
-- WP_POS_LO (0x04_0060), WP_POS_HI (0x04_0064), WP_RAW_LO (0x04_0068), WP_RAW_HI (0x04_006C)
abbrev WP_POS_LO_POS : Fld := ⟨WP_POS_LO, 31, 0⟩
abbrev WP_POS_HI_POS : Fld := ⟨WP_POS_HI, 31, 0⟩
abbrev WP_RAW_LO_POS : Fld := ⟨WP_RAW_LO, 31, 0⟩
abbrev WP_RAW_HI_POS : Fld := ⟨WP_RAW_HI, 31, 0⟩
-- WP_SPEED (0x04_0070), WP_ACC (0x04_0074)
abbrev WP_SPEED_VALUE : Fld := ⟨WP_SPEED, 31, 0⟩
abbrev WP_ACC_VALUE : Fld := ⟨WP_ACC, 31, 0⟩
-- WP_MOTION (0x04_0078)
abbrev WP_MOTION_SPEED_STATE : Fld := ⟨WP_MOTION, 1, 0⟩
abbrev WP_MOTION_DIR_STATE : Fld := ⟨WP_MOTION, 3, 2⟩
abbrev WP_MOTION_METHOD : Fld := ⟨WP_MOTION, 4, 4⟩
abbrev WP_MOTION_REVERSALS : Fld := ⟨WP_MOTION, 31, 16⟩
-- WP_SPD_CFG (0x04_007C)
abbrev WP_SPD_CFG_WIN_US : Fld := ⟨WP_SPD_CFG, 7, 0⟩
abbrev WP_SPD_CFG_SW_UP : Fld := ⟨WP_SPD_CFG, 15, 8⟩
abbrev WP_SPD_CFG_SW_DN : Fld := ⟨WP_SPD_CFG, 23, 16⟩
abbrev WP_SPD_CFG_STILL_MS : Fld := ⟨WP_SPD_CFG, 31, 24⟩
-- WP_REV_CFG (0x04_0080)
abbrev WP_REV_CFG_WIN_CNT : Fld := ⟨WP_REV_CFG, 7, 0⟩
-- WP_PRED (0x04_0090), TICK domain, applied to lines under R119
abbrev WP_PRED_LEAD_US : Fld := ⟨WP_PRED, 12, 0⟩
abbrev WP_PRED_ACC_EN : Fld := ⟨WP_PRED, 16, 16⟩
abbrev WP_PRED_ACC_WIN : Fld := ⟨WP_PRED, 31, 24⟩
-- WP_REG_SLEW (0x04_0094)
abbrev WP_REG_SLEW_SLEW : Fld := ⟨WP_REG_SLEW, 15, 0⟩
-- WP_BARn_OFS (0x04_0100 + 0x10 × n, n = 0–7)
abbrev WP_BAR_OFS_OFS (n : Nat) : Fld := ⟨WP_BAR_OFS n, 31, 0⟩
-- WP_BARn_REG_HOST (+0x4), TICK domain, applied to lines under R119; WP_BARn_REG_AUTO (+0x8); WP_BARn_REG_EFF (+0xC)
abbrev WP_BAR_REG_HOST_REG (n : Nat) : Fld := ⟨WP_BAR_REG_HOST n, 31, 0⟩
abbrev WP_BAR_REG_AUTO_REG (n : Nat) : Fld := ⟨WP_BAR_REG_AUTO n, 31, 0⟩
abbrev WP_BAR_REG_EFF_REG (n : Nat) : Fld := ⟨WP_BAR_REG_EFF n, 31, 0⟩
-- WP_PRBn_CFG (0x04_0200 + 0x20 × n, n = 0–3)
abbrev WP_PRB_CFG_EDGE (n : Nat) : Fld := ⟨WP_PRB_CFG n, 1, 0⟩
abbrev WP_PRB_CFG_FILT_N (n : Nat) : Fld := ⟨WP_PRB_CFG n, 15, 8⟩
abbrev WP_PRB_CFG_BLANK (n : Nat) : Fld := ⟨WP_PRB_CFG n, 31, 16⟩
-- WP_PRBn_STAT (+0x4)
abbrev WP_PRB_STAT_LEVEL (n : Nat) : Fld := ⟨WP_PRB_STAT n, 0, 0⟩
abbrev WP_PRB_STAT_ENTRIES (n : Nat) : Fld := ⟨WP_PRB_STAT n, 8, 4⟩
abbrev WP_PRB_STAT_IGNORED (n : Nat) : Fld := ⟨WP_PRB_STAT n, 23, 16⟩
abbrev WP_PRB_STAT_OVF (n : Nat) : Fld := ⟨WP_PRB_STAT n, 31, 24⟩
-- WP_PRBn_TIME_LO (+0x8), WP_PRBn_TIME_HI (+0xC), WP_PRBn_POS_LO (+0x10)
abbrev WP_PRB_TIME_LO_VALUE (n : Nat) : Fld := ⟨WP_PRB_TIME_LO n, 31, 0⟩
abbrev WP_PRB_TIME_HI_VALUE (n : Nat) : Fld := ⟨WP_PRB_TIME_HI n, 31, 0⟩
abbrev WP_PRB_POS_LO_VALUE (n : Nat) : Fld := ⟨WP_PRB_POS_LO n, 31, 0⟩
-- WP_PRBn_POS_HI (+0x14)
abbrev WP_PRB_POS_HI_POS (n : Nat) : Fld := ⟨WP_PRB_POS_HI n, 15, 0⟩
abbrev WP_PRB_POS_HI_RISING (n : Nat) : Fld := ⟨WP_PRB_POS_HI n, 16, 16⟩
abbrev WP_PRB_POS_HI_BACK (n : Nat) : Fld := ⟨WP_PRB_POS_HI n, 17, 17⟩
abbrev WP_PRB_POS_HI_LOST (n : Nat) : Fld := ⟨WP_PRB_POS_HI n, 18, 18⟩
abbrev WP_PRB_POS_HI_VALID (n : Nat) : Fld := ⟨WP_PRB_POS_HI n, 19, 19⟩
-- WP_PRBn_CTRL (+0x18)
abbrev WP_PRB_CTRL_POP (n : Nat) : Fld := ⟨WP_PRB_CTRL n, 0, 0⟩
-- WP_ENCOn_CFG (0x04_0300 + 0x20 × n, n = 0–1), TICK domain
abbrev WP_ENCO_CFG_EN (n : Nat) : Fld := ⟨WP_ENCO_CFG n, 0, 0⟩
abbrev WP_ENCO_CFG_ZMODE (n : Nat) : Fld := ⟨WP_ENCO_CFG n, 2, 1⟩
-- WP_ENCOn_CPM (+0x4), TICK domain
abbrev WP_ENCO_CPM_CPM (n : Nat) : Fld := ⟨WP_ENCO_CPM n, 21, 0⟩
-- WP_ENCOn_ZCNT (+0x8), TICK domain
abbrev WP_ENCO_ZCNT_ZCNT (n : Nat) : Fld := ⟨WP_ENCO_ZCNT n, 23, 0⟩
-- WP_ENCOn_ZOFS (+0xC), TICK domain
abbrev WP_ENCO_ZOFS_ZOFS (n : Nat) : Fld := ⟨WP_ENCO_ZOFS n, 31, 0⟩
-- WP_ENCOn_STAT (+0x10)
abbrev WP_ENCO_STAT_LAG (n : Nat) : Fld := ⟨WP_ENCO_STAT n, 15, 0⟩
abbrev WP_ENCO_STAT_LAG_EVENTS (n : Nat) : Fld := ⟨WP_ENCO_STAT n, 31, 16⟩
-- TB_FRC_LO (0x03_0000), TB_FRC_HI (0x03_0004)
abbrev TB_FRC_LO_FRC : Fld := ⟨TB_FRC_LO, 31, 0⟩
abbrev TB_FRC_HI_FRC : Fld := ⟨TB_FRC_HI, 31, 0⟩
-- TB_TIME_LO (0x03_0008), TB_TIME_HI (0x03_000C), TB_TIME_FRAC (0x03_0010)
abbrev TB_TIME_LO_TIME : Fld := ⟨TB_TIME_LO, 31, 0⟩
abbrev TB_TIME_HI_TIME : Fld := ⟨TB_TIME_HI, 31, 0⟩
abbrev TB_TIME_FRAC_TIME : Fld := ⟨TB_TIME_FRAC, 31, 0⟩
-- TB_INCR_LO (0x03_0020), TB_INCR_HI (0x03_0024)
abbrev TB_INCR_LO_INCR : Fld := ⟨TB_INCR_LO, 31, 0⟩
abbrev TB_INCR_HI_INCR : Fld := ⟨TB_INCR_HI, 31, 0⟩
-- TB_OFS_ADJ_LO (0x03_0028), TB_OFS_ADJ_HI (0x03_002C)
abbrev TB_OFS_ADJ_LO_ADJ : Fld := ⟨TB_OFS_ADJ_LO, 31, 0⟩
abbrev TB_OFS_ADJ_HI_ADJ : Fld := ⟨TB_OFS_ADJ_HI, 31, 0⟩
-- TB_OFS_CFG (0x03_0030)
abbrev TB_OFS_CFG_SLEW_PPM : Fld := ⟨TB_OFS_CFG, 9, 0⟩
-- TB_OFS_REMAIN (0x03_0034)
abbrev TB_OFS_REMAIN_REMAIN : Fld := ⟨TB_OFS_REMAIN, 31, 0⟩
-- TB_REF_CFG (0x03_0040)
abbrev TB_REF_CFG_PREF : Fld := ⟨TB_REF_CFG, 0, 0⟩
abbrev TB_REF_CFG_REVERT : Fld := ⟨TB_REF_CFG, 1, 1⟩
abbrev TB_REF_CFG_DIFF_LIM : Fld := ⟨TB_REF_CFG, 31, 16⟩
-- TB_REF_STAT (0x03_0044)
abbrev TB_REF_STAT_SEL : Fld := ⟨TB_REF_STAT, 0, 0⟩
abbrev TB_REF_STAT_IN0_GOOD : Fld := ⟨TB_REF_STAT, 1, 1⟩
abbrev TB_REF_STAT_IN1_GOOD : Fld := ⟨TB_REF_STAT, 2, 2⟩
abbrev TB_REF_STAT_HOLDOVER : Fld := ⟨TB_REF_STAT, 3, 3⟩
abbrev TB_REF_STAT_LOST : Fld := ⟨TB_REF_STAT, 4, 4⟩
abbrev TB_REF_STAT_SWITCHES : Fld := ⟨TB_REF_STAT, 31, 16⟩
-- TB_REF_DIFF (0x03_0048)
abbrev TB_REF_DIFF_DIFF : Fld := ⟨TB_REF_DIFF, 31, 0⟩
-- TB_PAIR_CFG (0x03_0060)
abbrev TB_PAIR_CFG_KP : Fld := ⟨TB_PAIR_CFG, 15, 0⟩
abbrev TB_PAIR_CFG_KI : Fld := ⟨TB_PAIR_CFG, 31, 16⟩
-- TB_PAIR_LIM (0x03_0064)
abbrev TB_PAIR_LIM_LIMIT_NS : Fld := ⟨TB_PAIR_LIM, 7, 0⟩
-- TB_PAIR_ASYM (0x03_0068)
abbrev TB_PAIR_ASYM_ASYM : Fld := ⟨TB_PAIR_ASYM, 15, 0⟩
-- TB_PAIR_OFS (0x03_006C), TB_PAIR_RATE (0x03_0070)
abbrev TB_PAIR_OFS_VALUE : Fld := ⟨TB_PAIR_OFS, 31, 0⟩
abbrev TB_PAIR_RATE_VALUE : Fld := ⟨TB_PAIR_RATE, 31, 0⟩
-- TB_PAIR_STAT (0x03_0074)
abbrev TB_PAIR_STAT_STATE : Fld := ⟨TB_PAIR_STAT, 2, 0⟩
abbrev TB_PAIR_STAT_UNLOCKS : Fld := ⟨TB_PAIR_STAT, 31, 16⟩
-- TB_HDM_CFG (0x03_0080)
abbrev TB_HDM_CFG_TSYNC_US : Fld := ⟨TB_HDM_CFG, 9, 0⟩
-- HP_PTP_CFG (0x0E_0A00)
abbrev HP_PTP_CFG_TC_EN : Fld := ⟨HP_PTP_CFG, 0, 0⟩
abbrev HP_PTP_CFG_OC_EN : Fld := ⟨HP_PTP_CFG, 1, 1⟩
abbrev HP_PTP_CFG_TRANSPORT : Fld := ⟨HP_PTP_CFG, 4, 2⟩
abbrev HP_PTP_CFG_DOMAIN : Fld := ⟨HP_PTP_CFG, 15, 8⟩
-- HP_PTP_LAT0 (0x0E_0A04), HP_PTP_LAT1 (0x0E_0A08)
abbrev HP_PTP_LAT0_RX : Fld := ⟨HP_PTP_LAT0, 15, 0⟩
abbrev HP_PTP_LAT0_TX : Fld := ⟨HP_PTP_LAT0, 31, 16⟩
abbrev HP_PTP_LAT1_RX : Fld := ⟨HP_PTP_LAT1, 15, 0⟩
abbrev HP_PTP_LAT1_TX : Fld := ⟨HP_PTP_LAT1, 31, 16⟩
-- HP_PTP_RXQ_STAT (0x0E_0A10)
abbrev HP_PTP_RXQ_STAT_ENTRIES : Fld := ⟨HP_PTP_RXQ_STAT, 5, 0⟩
abbrev HP_PTP_RXQ_STAT_OVF : Fld := ⟨HP_PTP_RXQ_STAT, 31, 16⟩
-- HP_PTP_RXQ_CTRL (0x0E_0A14)
abbrev HP_PTP_RXQ_CTRL_POP : Fld := ⟨HP_PTP_RXQ_CTRL, 0, 0⟩
-- HP_PTP_TX_CTRL (0x0E_0A18)
abbrev HP_PTP_TX_CTRL_SEND : Fld := ⟨HP_PTP_TX_CTRL, 0, 0⟩
abbrev HP_PTP_TX_CTRL_PORT : Fld := ⟨HP_PTP_TX_CTRL, 1, 1⟩
abbrev HP_PTP_TX_CTRL_TRANSPORT : Fld := ⟨HP_PTP_TX_CTRL, 3, 2⟩
abbrev HP_PTP_TX_CTRL_LEN : Fld := ⟨HP_PTP_TX_CTRL, 10, 4⟩
abbrev HP_PTP_TX_CTRL_BUSY : Fld := ⟨HP_PTP_TX_CTRL, 11, 11⟩
-- HP_PTP_TX_STAMP_LO (0x0E_0A1C), HP_PTP_TX_STAMP_HI (0x0E_0A20)
abbrev HP_PTP_TX_STAMP_LO_T : Fld := ⟨HP_PTP_TX_STAMP_LO, 31, 0⟩
abbrev HP_PTP_TX_STAMP_HI_T : Fld := ⟨HP_PTP_TX_STAMP_HI, 31, 0⟩
-- HP_PTP_TX_STAT (0x0E_0A24)
abbrev HP_PTP_TX_STAT_T_FRAC : Fld := ⟨HP_PTP_TX_STAT, 15, 0⟩
abbrev HP_PTP_TX_STAT_SEQ : Fld := ⟨HP_PTP_TX_STAT, 30, 16⟩
abbrev HP_PTP_TX_STAT_DONE : Fld := ⟨HP_PTP_TX_STAT, 31, 31⟩
-- HP_PTP_TC_CNT (0x0E_0A30)
abbrev HP_PTP_TC_CNT_COUNT : Fld := ⟨HP_PTP_TC_CNT, 31, 0⟩
-- HP_FWD_DROP (0x0E_0A34)
abbrev HP_FWD_DROP_TO_DP1 : Fld := ⟨HP_FWD_DROP, 15, 0⟩
abbrev HP_FWD_DROP_TO_DP0 : Fld := ⟨HP_FWD_DROP, 31, 16⟩
-- LANE_CFG (+0x00). Writes are critical. A write that clears EN, or that changes RATE_EN or LPBK, while the lane's bar is not idle in the sense of R160, completes with BUSY.
abbrev LANE_CFG_EN (l : Nat) : Fld := ⟨LANE_CFG l, 0, 0⟩
abbrev LANE_CFG_RATE_EN (l : Nat) : Fld := ⟨LANE_CFG l, 3, 1⟩
abbrev LANE_CFG_TX_OVR (l : Nat) : Fld := ⟨LANE_CFG l, 4, 4⟩
abbrev LANE_CFG_PWR_ALLOW (l : Nat) : Fld := ⟨LANE_CFG l, 5, 5⟩
abbrev LANE_CFG_LPBK (l : Nat) : Fld := ⟨LANE_CFG l, 7, 6⟩
abbrev LANE_CFG_PRESET_MASK (l : Nat) : Fld := ⟨LANE_CFG l, 15, 8⟩
-- LANE_STAT (+0x04)
abbrev LANE_STAT_TSTATE (l : Nat) : Fld := ⟨LANE_STAT l, 3, 0⟩
abbrev LANE_STAT_PSTATE (l : Nat) : Fld := ⟨LANE_STAT l, 6, 4⟩
abbrev LANE_STAT_RATE (l : Nat) : Fld := ⟨LANE_STAT l, 8, 7⟩
abbrev LANE_STAT_PRESET (l : Nat) : Fld := ⟨LANE_STAT l, 11, 9⟩
abbrev LANE_STAT_FAIL_STAGE (l : Nat) : Fld := ⟨LANE_STAT l, 14, 12⟩
abbrev LANE_STAT_FAIL_CAUSE (l : Nat) : Fld := ⟨LANE_STAT l, 18, 15⟩
abbrev LANE_STAT_FAST (l : Nat) : Fld := ⟨LANE_STAT l, 19, 19⟩
abbrev LANE_STAT_RATE_LOW (l : Nat) : Fld := ⟨LANE_STAT l, 20, 20⟩
abbrev LANE_STAT_BACKOFF_MS (l : Nat) : Fld := ⟨LANE_STAT l, 31, 21⟩
-- LANE_EYE (+0x08)
abbrev LANE_EYE_EYE_W (l : Nat) : Fld := ⟨LANE_EYE l, 7, 0⟩
abbrev LANE_EYE_EYE_H (l : Nat) : Fld := ⟨LANE_EYE l, 17, 8⟩
abbrev LANE_EYE_VALID (l : Nat) : Fld := ⟨LANE_EYE l, 31, 31⟩
-- LANE_ERR (+0x0C)
abbrev LANE_ERR_CV (l : Nat) : Fld := ⟨LANE_ERR l, 15, 0⟩
abbrev LANE_ERR_DISP (l : Nat) : Fld := ⟨LANE_ERR l, 31, 16⟩
-- LANE_CNT (+0x10)
abbrev LANE_CNT_TRAINS (l : Nat) : Fld := ⟨LANE_CNT l, 15, 0⟩
abbrev LANE_CNT_LOSSES (l : Nat) : Fld := ⟨LANE_CNT l, 31, 16⟩
-- LANE_FAILS (+0x14)
abbrev LANE_FAILS_FAILS (l : Nat) : Fld := ⟨LANE_FAILS l, 15, 0⟩
abbrev LANE_FAILS_ABSENTS (l : Nat) : Fld := ⟨LANE_FAILS l, 31, 16⟩
-- LANE_RXEQ (+0x18)
abbrev LANE_RXEQ_CTLE (l : Nat) : Fld := ⟨LANE_RXEQ l, 3, 0⟩
abbrev LANE_RXEQ_DFE (l : Nat) : Fld := ⟨LANE_RXEQ l, 28, 4⟩
-- LANE_TXEQ (+0x1C)
abbrev LANE_TXEQ_PRE (l : Nat) : Fld := ⟨LANE_TXEQ l, 4, 0⟩
abbrev LANE_TXEQ_MAIN (l : Nat) : Fld := ⟨LANE_TXEQ l, 13, 8⟩
abbrev LANE_TXEQ_POST (l : Nat) : Fld := ⟨LANE_TXEQ l, 20, 16⟩
-- LANE_PWR_STAT (+0x20)
abbrev LANE_PWR_STAT_L1_ENTRIES (l : Nat) : Fld := ⟨LANE_PWR_STAT l, 15, 0⟩
abbrev LANE_PWR_STAT_L2_ENTRIES (l : Nat) : Fld := ⟨LANE_PWR_STAT l, 31, 16⟩
-- LANE_SCAN_CTRL (+0x24)
abbrev LANE_SCAN_CTRL_MAP (l : Nat) : Fld := ⟨LANE_SCAN_CTRL l, 0, 0⟩
abbrev LANE_SCAN_CTRL_MAP_BUSY (l : Nat) : Fld := ⟨LANE_SCAN_CTRL l, 1, 1⟩
-- LANE_UNSENT (+0x28)
abbrev LANE_UNSENT_COUNT (l : Nat) : Fld := ⟨LANE_UNSENT l, 31, 0⟩
-- JL_TRAIN_CFG (0x0C_8000)
abbrev JL_TRAIN_CFG_ABSENT_N : Fld := ⟨JL_TRAIN_CFG, 7, 0⟩
abbrev JL_TRAIN_CFG_MIN_W : Fld := ⟨JL_TRAIN_CFG, 15, 8⟩
abbrev JL_TRAIN_CFG_MIN_H : Fld := ⟨JL_TRAIN_CFG, 25, 16⟩
-- JL_PWR_CFG (0x0C_8004)
abbrev JL_PWR_CFG_L1_IDLE_US : Fld := ⟨JL_PWR_CFG, 15, 0⟩
abbrev JL_PWR_CFG_L2_IDLE_MS : Fld := ⟨JL_PWR_CFG, 31, 16⟩
-- JL_SCAN_CFG (0x0C_8008)
abbrev JL_SCAN_CFG_PERIOD_MS : Fld := ⟨JL_SCAN_CFG, 15, 0⟩
-- JL_READYn (0x0C_8010 + 4 × n, n = 0–2)
abbrev JL_READY_CH (n : Nat) : Fld := ⟨JL_READY n, 31, 0⟩
-- JL_LOSTn (0x0C_8020 + 4 × n, n = 0–2)
abbrev JL_LOST_CH (n : Nat) : Fld := ⟨JL_LOST n, 31, 0⟩
-- JL_STAT (+0x40)
abbrev JL_STAT_VOIDCNT (l : Nat) : Fld := ⟨JL_STAT l, 15, 0⟩
abbrev JL_STAT_RXERR (l : Nat) : Fld := ⟨JL_STAT l, 31, 16⟩
-- JL_SEQ (+0x44)
abbrev JL_SEQ_NEXT_SEQ (l : Nat) : Fld := ⟨JL_SEQ l, 23, 0⟩
-- JL_OUT (+0x48)
abbrev JL_OUT_OUTSTANDING (l : Nat) : Fld := ⟨JL_OUT l, 15, 0⟩
abbrev JL_OUT_WINDOW (l : Nat) : Fld := ⟨JL_OUT l, 31, 16⟩
-- JL_LAT (+0x4C)
abbrev JL_LAT_LAT (l : Nat) : Fld := ⟨JL_LAT l, 23, 0⟩
abbrev JL_LAT_VALID (l : Nat) : Fld := ⟨JL_LAT l, 31, 31⟩
-- JL_TERR (+0x50)
abbrev JL_TERR_ERR (l : Nat) : Fld := ⟨JL_TERR l, 15, 0⟩
abbrev JL_TERR_BAD (l : Nat) : Fld := ⟨JL_TERR l, 31, 16⟩
-- JL_HDM (+0x54)
abbrev JL_HDM_DEPTH (l : Nat) : Fld := ⟨JL_HDM l, 15, 0⟩
abbrev JL_HDM_HDM_REV (l : Nat) : Fld := ⟨JL_HDM l, 31, 16⟩
-- JL_TEMP01 (+0x58), JL_TEMP23 (+0x5C)
abbrev JL_TEMP01_TEMP (l : Nat) : Fld := ⟨JL_TEMP01 l, 31, 0⟩
abbrev JL_TEMP23_TEMP (l : Nat) : Fld := ⟨JL_TEMP23 l, 31, 0⟩
-- JL_BAND (+0x60)
abbrev JL_BAND_BAND (l : Nat) : Fld := ⟨JL_BAND l, 11, 0⟩
abbrev JL_BAND_HEADS (l : Nat) : Fld := ⟨JL_BAND l, 14, 12⟩
abbrev JL_BAND_CHANGES (l : Nat) : Fld := ⟨JL_BAND l, 31, 16⟩
-- JL_HDM_CNT0 (+0x64), JL_HDM_CNT1 (+0x68), JL_HDM_CNT2 (+0x6C)
abbrev JL_HDM_CNT0_LOW (l : Nat) : Fld := ⟨JL_HDM_CNT0 l, 15, 0⟩
abbrev JL_HDM_CNT0_HIGH (l : Nat) : Fld := ⟨JL_HDM_CNT0 l, 31, 16⟩
abbrev JL_HDM_CNT1_LOW (l : Nat) : Fld := ⟨JL_HDM_CNT1 l, 15, 0⟩
abbrev JL_HDM_CNT1_HIGH (l : Nat) : Fld := ⟨JL_HDM_CNT1 l, 31, 16⟩
abbrev JL_HDM_CNT2_LOW (l : Nat) : Fld := ⟨JL_HDM_CNT2 l, 15, 0⟩
abbrev JL_HDM_CNT2_HIGH (l : Nat) : Fld := ⟨JL_HDM_CNT2 l, 31, 16⟩
-- JL_ACC_CLAIM (+0x70)
abbrev JL_ACC_CLAIM_CLAIM (l : Nat) : Fld := ⟨JL_ACC_CLAIM l, 31, 0⟩
-- JL_HDM_FLAGS (+0x74)
abbrev JL_HDM_FLAGS_LAST_MM_SEQ (l : Nat) : Fld := ⟨JL_HDM_FLAGS l, 23, 0⟩
abbrev JL_HDM_FLAGS_STB_NOW (l : Nat) : Fld := ⟨JL_HDM_FLAGS l, 24, 24⟩
abbrev JL_HDM_FLAGS_STB_LONG (l : Nat) : Fld := ⟨JL_HDM_FLAGS l, 25, 25⟩
abbrev JL_HDM_FLAGS_STAT_LOST (l : Nat) : Fld := ⟨JL_HDM_FLAGS l, 26, 26⟩
-- JL_RT_CNT (+0x78)
abbrev JL_RT_CNT_RETIMES (l : Nat) : Fld := ⟨JL_RT_CNT l, 15, 0⟩
abbrev JL_RT_CNT_FULL (l : Nat) : Fld := ⟨JL_RT_CNT l, 31, 16⟩
-- JL_CTL_STAT (+0x7C)
abbrev JL_CTL_STAT_REC_ID (l : Nat) : Fld := ⟨JL_CTL_STAT l, 15, 0⟩
abbrev JL_CTL_STAT_ACK_PENDING (l : Nat) : Fld := ⟨JL_CTL_STAT l, 16, 16⟩
abbrev JL_CTL_STAT_LATE (l : Nat) : Fld := ⟨JL_CTL_STAT l, 17, 17⟩
abbrev JL_CTL_STAT_REFUSED (l : Nat) : Fld := ⟨JL_CTL_STAT l, 18, 18⟩
abbrev JL_CTL_STAT_RESENDS (l : Nat) : Fld := ⟨JL_CTL_STAT l, 20, 19⟩
-- JL_RT_CFG (0x0C_8030), TICK domain
abbrev JL_RT_CFG_THR_NS : Fld := ⟨JL_RT_CFG, 7, 0⟩
abbrev JL_RT_CFG_CYCLE_US : Fld := ⟨JL_RT_CFG, 12, 8⟩
-- JL_STAT_CFG (0x0C_8034)
abbrev JL_STAT_CFG_STAT_US : Fld := ⟨JL_STAT_CFG, 13, 0⟩
-- JL_LAT_ASYM (0x0C_8038)
abbrev JL_LAT_ASYM_ASYM : Fld := ⟨JL_LAT_ASYM, 15, 0⟩
-- JL_MMn (0x0C_8040 + 4 × n, n = 0–2)
abbrev JL_MM_CH (n : Nat) : Fld := ⟨JL_MM n, 31, 0⟩
-- JL_HCn_ID (0x0C_9000 + 0x40 × n, n = 0–7)
abbrev JL_HC_ID_CLASS (n : Nat) : Fld := ⟨JL_HC_ID n, 15, 0⟩
abbrev JL_HC_ID_VALID (n : Nat) : Fld := ⟨JL_HC_ID n, 16, 16⟩
-- JL_HCn_BANDk (+0x04 + 4 × k, k = 0–7)
abbrev JL_HC_BAND_T_UP (n : Nat) (k : Nat) : Fld := ⟨JL_HC_BAND n k, 15, 0⟩
abbrev JL_HC_BAND_WAVE_ID (n : Nat) (k : Nat) : Fld := ⟨JL_HC_BAND n k, 23, 16⟩
abbrev JL_HC_BAND_VALID (n : Nat) (k : Nat) : Fld := ⟨JL_HC_BAND n k, 24, 24⟩
-- FS_BAR_EN (0x0B_0000)
abbrev FS_BAR_EN_EN : Fld := ⟨FS_BAR_EN, 7, 0⟩
-- FS_SAFE_STAT (0x0B_0004)
abbrev FS_SAFE_STAT_INH_PIN : Fld := ⟨FS_SAFE_STAT, 0, 0⟩
abbrev FS_SAFE_STAT_INH_CMD : Fld := ⟨FS_SAFE_STAT, 1, 1⟩
abbrev FS_SAFE_STAT_POS_LOST : Fld := ⟨FS_SAFE_STAT, 2, 2⟩
abbrev FS_SAFE_STAT_REF_LOST : Fld := ⟨FS_SAFE_STAT, 3, 3⟩
abbrev FS_SAFE_STAT_GARNET : Fld := ⟨FS_SAFE_STAT, 4, 4⟩
abbrev FS_SAFE_STAT_SAFE : Fld := ⟨FS_SAFE_STAT, 8, 8⟩
-- FS_SAFE_CTRL (0x0B_0008)
abbrev FS_SAFE_CTRL_INHIBIT : Fld := ⟨FS_SAFE_CTRL, 0, 0⟩
abbrev FS_SAFE_CTRL_CLEAR : Fld := ⟨FS_SAFE_CTRL, 1, 1⟩
-- FS_INH_CFG (0x0B_000C)
abbrev FS_INH_CFG_AUTO : Fld := ⟨FS_INH_CFG, 0, 0⟩
abbrev FS_INH_CFG_FILT_N : Fld := ⟨FS_INH_CFG, 15, 8⟩
abbrev FS_INH_CFG_REL_MS : Fld := ⟨FS_INH_CFG, 31, 16⟩
-- FS_WD_CLR (0x0B_0010)
abbrev FS_WD_CLR_BARS : Fld := ⟨FS_WD_CLR, 7, 0⟩
-- FS_PIN_STAT (0x0B_0014)
abbrev FS_PIN_STAT_BAR_EN : Fld := ⟨FS_PIN_STAT, 7, 0⟩
abbrev FS_PIN_STAT_STB_SENSE : Fld := ⟨FS_PIN_STAT, 15, 8⟩
abbrev FS_PIN_STAT_FIRE_INH_N : Fld := ⟨FS_PIN_STAT, 16, 16⟩
abbrev FS_PIN_STAT_SPEED_REQ : Fld := ⟨FS_PIN_STAT, 17, 17⟩
abbrev FS_PIN_STAT_WASTE_MARK : Fld := ⟨FS_PIN_STAT, 19, 18⟩
-- FS_WM_STAT (0x0B_0020)
abbrev FS_WM_STAT_PENDING : Fld := ⟨FS_WM_STAT, 6, 0⟩
abbrev FS_WM_STAT_RANGES : Fld := ⟨FS_WM_STAT, 31, 16⟩
-- FS_BARn_STB (0x0B_0100 + 0x10 × n, n = 0–7)
abbrev FS_BAR_STB_WIDTH (n : Nat) : Fld := ⟨FS_BAR_STB n, 10, 0⟩
abbrev FS_BAR_STB_LIMIT (n : Nat) : Fld := ⟨FS_BAR_STB n, 26, 16⟩
-- FS_BARn_WD (+0x4)
abbrev FS_BAR_WD_TRIPPED (n : Nat) : Fld := ⟨FS_BAR_WD n, 0, 0⟩
abbrev FS_BAR_WD_SRC_PIN (n : Nat) : Fld := ⟨FS_BAR_WD n, 1, 1⟩
abbrev FS_BAR_WD_SRC_LANE (n : Nat) : Fld := ⟨FS_BAR_WD n, 2, 2⟩
abbrev FS_BAR_WD_TRIPS (n : Nat) : Fld := ⟨FS_BAR_WD n, 31, 16⟩
-- FS_BARn_WD_TIME (+0x8)
abbrev FS_BAR_WD_TIME_TIME (n : Nat) : Fld := ⟨FS_BAR_WD_TIME n, 31, 0⟩
-- FS_WMn_CFG (0x0B_0200 + 0x10 × n, n = 0–1)
abbrev FS_WM_CFG_CAUSE (n : Nat) : Fld := ⟨FS_WM_CFG n, 7, 0⟩
abbrev FS_WM_CFG_EXT (n : Nat) : Fld := ⟨FS_WM_CFG n, 31, 16⟩
-- FS_WMn_OFS (+0x4)
abbrev FS_WM_OFS_OFS (n : Nat) : Fld := ⟨FS_WM_OFS n, 31, 0⟩
-- CM_CTXn_CFG (+0x00)
abbrev CM_CTX_CFG_EN (n : Nat) : Fld := ⟨CM_CTX_CFG n, 0, 0⟩
abbrev CM_CTX_CFG_FMT (n : Nat) : Fld := ⟨CM_CTX_CFG n, 1, 1⟩
abbrev CM_CTX_CFG_MODE (n : Nat) : Fld := ⟨CM_CTX_CFG n, 2, 2⟩
abbrev CM_CTX_CFG_ENCO (n : Nat) : Fld := ⟨CM_CTX_CFG n, 3, 3⟩
abbrev CM_CTX_CFG_TRIG_DIV (n : Nat) : Fld := ⟨CM_CTX_CFG n, 5, 4⟩
abbrev CM_CTX_CFG_STRIPE (n : Nat) : Fld := ⟨CM_CTX_CFG n, 11, 6⟩
-- CM_CTXn_GEOM (+0x04)
abbrev CM_CTX_GEOM_PIXELS (n : Nat) : Fld := ⟨CM_CTX_GEOM n, 13, 0⟩
abbrev CM_CTX_GEOM_LINES_M1 (n : Nat) : Fld := ⟨CM_CTX_GEOM n, 23, 14⟩
-- CM_CTXn_RATE (+0x08)
abbrev CM_CTX_RATE_RATE (n : Nat) : Fld := ⟨CM_CTX_RATE n, 13, 0⟩
-- CM_CTXn_LAT (+0x0C), CM_CTXn_OFS (+0x10)
abbrev CM_CTX_LAT_VALUE (n : Nat) : Fld := ⟨CM_CTX_LAT n, 31, 0⟩
abbrev CM_CTX_OFS_VALUE (n : Nat) : Fld := ⟨CM_CTX_OFS n, 31, 0⟩
-- CM_CTXn_BLACK01 (+0x14), CM_CTXn_BLACK23 (+0x18)
abbrev CM_CTX_BLACK01_BLACK_LO (n : Nat) : Fld := ⟨CM_CTX_BLACK01 n, 11, 0⟩
abbrev CM_CTX_BLACK01_BLACK_HI (n : Nat) : Fld := ⟨CM_CTX_BLACK01 n, 27, 16⟩
abbrev CM_CTX_BLACK23_BLACK_LO (n : Nat) : Fld := ⟨CM_CTX_BLACK23 n, 11, 0⟩
abbrev CM_CTX_BLACK23_BLACK_HI (n : Nat) : Fld := ⟨CM_CTX_BLACK23 n, 27, 16⟩
-- CM_CTXn_Mk (+0x20 + 4 × k, k = 0–5)
abbrev CM_CTX_M_M_LO (n : Nat) (k : Nat) : Fld := ⟨CM_CTX_M n k, 15, 0⟩
abbrev CM_CTX_M_M_HI (n : Nat) (k : Nat) : Fld := ⟨CM_CTX_M n k, 31, 16⟩
-- CM_CTXn_MAP_X (+0x40)
abbrev CM_CTX_MAP_X_X0 (n : Nat) : Fld := ⟨CM_CTX_MAP_X n, 16, 0⟩
abbrev CM_CTX_MAP_X_XN (n : Nat) : Fld := ⟨CM_CTX_MAP_X n, 30, 17⟩
-- CM_CTXn_MAP_P0 (+0x44), CM_CTXn_MAP_PX (+0x48), CM_CTXn_MAP_P2 (+0x4C)
abbrev CM_CTX_MAP_P0_VALUE (n : Nat) : Fld := ⟨CM_CTX_MAP_P0 n, 31, 0⟩
abbrev CM_CTX_MAP_PX_VALUE (n : Nat) : Fld := ⟨CM_CTX_MAP_PX n, 31, 0⟩
abbrev CM_CTX_MAP_P2_VALUE (n : Nat) : Fld := ⟨CM_CTX_MAP_P2 n, 31, 0⟩
-- CM_CTXn_STAT (+0x60)
abbrev CM_CTX_STAT_FRAMES (n : Nat) : Fld := ⟨CM_CTX_STAT n, 15, 0⟩
abbrev CM_CTX_STAT_RECEIVING (n : Nat) : Fld := ⟨CM_CTX_STAT n, 16, 16⟩
-- CM_CTXn_DROP1 (+0x64), CM_CTXn_DROP2 (+0x68), CM_CTXn_DROP3 (+0x6C)
abbrev CM_CTX_DROP1_LOW (n : Nat) : Fld := ⟨CM_CTX_DROP1 n, 15, 0⟩
abbrev CM_CTX_DROP1_HIGH (n : Nat) : Fld := ⟨CM_CTX_DROP1 n, 31, 16⟩
abbrev CM_CTX_DROP2_LOW (n : Nat) : Fld := ⟨CM_CTX_DROP2 n, 15, 0⟩
abbrev CM_CTX_DROP2_HIGH (n : Nat) : Fld := ⟨CM_CTX_DROP2 n, 31, 16⟩
abbrev CM_CTX_DROP3_LOW (n : Nat) : Fld := ⟨CM_CTX_DROP3 n, 15, 0⟩
abbrev CM_CTX_DROP3_HIGH (n : Nat) : Fld := ⟨CM_CTX_DROP3 n, 31, 16⟩
-- CM_PORTn_CFG (+0x00), TICK domain
abbrev CM_PORT_CFG_EN (n : Nat) : Fld := ⟨CM_PORT_CFG n, 0, 0⟩
abbrev CM_PORT_CFG_LANES (n : Nat) : Fld := ⟨CM_PORT_CFG n, 2, 1⟩
abbrev CM_PORT_CFG_RATE_MBPS (n : Nat) : Fld := ⟨CM_PORT_CFG n, 28, 16⟩
-- CM_PORTn_ERR (+0x04), CM_PORTn_ERR2 (+0x08)
abbrev CM_PORT_ERR_LOW (n : Nat) : Fld := ⟨CM_PORT_ERR n, 15, 0⟩
abbrev CM_PORT_ERR_HIGH (n : Nat) : Fld := ⟨CM_PORT_ERR n, 31, 16⟩
abbrev CM_PORT_ERR2_LOW (n : Nat) : Fld := ⟨CM_PORT_ERR2 n, 15, 0⟩
abbrev CM_PORT_ERR2_HIGH (n : Nat) : Fld := ⟨CM_PORT_ERR2 n, 31, 16⟩
-- CM_CFG_STAT (0x0A_2080)
abbrev CM_CFG_STAT_PORT : Fld := ⟨CM_CFG_STAT, 1, 0⟩
abbrev CM_CFG_STAT_CAUSE : Fld := ⟨CM_CFG_STAT, 3, 2⟩
-- CM_PIPE_STAT (0x0A_2084)
abbrev CM_PIPE_STAT_CTX : Fld := ⟨CM_PIPE_STAT, 3, 0⟩
abbrev CM_PIPE_STAT_BUSY : Fld := ⟨CM_PIPE_STAT, 4, 4⟩
abbrev CM_PIPE_STAT_SWITCHES : Fld := ⟨CM_PIPE_STAT, 31, 16⟩
-- CM_MARK_CFG (0x0A_2100), TICK domain
abbrev CM_MARK_CFG_EN : Fld := ⟨CM_MARK_CFG, 0, 0⟩
abbrev CM_MARK_CFG_CTX : Fld := ⟨CM_MARK_CFG, 4, 1⟩
abbrev CM_MARK_CFG_CH : Fld := ⟨CM_MARK_CFG, 6, 5⟩
abbrev CM_MARK_CFG_POL : Fld := ⟨CM_MARK_CFG, 7, 7⟩
abbrev CM_MARK_CFG_THR : Fld := ⟨CM_MARK_CFG, 31, 16⟩
-- CM_MARK_WIN (0x0A_2104), CM_MARK_SEARCH (0x0A_2108), TICK domain
abbrev CM_MARK_WIN_VALUE : Fld := ⟨CM_MARK_WIN, 31, 0⟩
abbrev CM_MARK_SEARCH_VALUE : Fld := ⟨CM_MARK_SEARCH, 31, 0⟩
-- CM_MARK_STAT (0x0A_210C)
abbrev CM_MARK_STAT_FOUND : Fld := ⟨CM_MARK_STAT, 7, 0⟩
abbrev CM_MARK_STAT_MISSED : Fld := ⟨CM_MARK_STAT, 31, 16⟩
-- CM_MARK_POSb (0x0A_2120 + 4 × b), TICK domain; CM_MARK_ERRb (0x0A_2140 + 4 × b)
abbrev CM_MARK_POS_VALUE (b : Nat) : Fld := ⟨CM_MARK_POS b, 31, 0⟩
abbrev CM_MARK_ERR_VALUE (b : Nat) : Fld := ⟨CM_MARK_ERR b, 31, 0⟩
-- CM_PROOF_CFG (0x0A_2180), TICK domain
abbrev CM_PROOF_CFG_TILE_LINES : Fld := ⟨CM_PROOF_CFG, 7, 0⟩
abbrev CM_PROOF_CFG_MIN_TILES : Fld := ⟨CM_PROOF_CFG, 15, 8⟩
abbrev CM_PROOF_CFG_DELTA : Fld := ⟨CM_PROOF_CFG, 27, 16⟩
abbrev CM_PROOF_CFG_FAIL_WASTE : Fld := ⟨CM_PROOF_CFG, 28, 28⟩
-- CM_PROOF_DUE (0x0A_2184), TICK domain
abbrev CM_PROOF_DUE_DUE_MM : Fld := ⟨CM_PROOF_DUE, 15, 0⟩
-- CM_PROOF_STAT (0x0A_2188), CM_PROOF_STAT2 (0x0A_218C)
abbrev CM_PROOF_STAT_LOW : Fld := ⟨CM_PROOF_STAT, 15, 0⟩
abbrev CM_PROOF_STAT_HIGH : Fld := ⟨CM_PROOF_STAT, 31, 16⟩
abbrev CM_PROOF_STAT2_LOW : Fld := ⟨CM_PROOF_STAT2, 15, 0⟩
abbrev CM_PROOF_STAT2_HIGH : Fld := ⟨CM_PROOF_STAT2, 31, 16⟩
-- BY_CTRL (0x09_0000)
abbrev BY_CTRL_APPLY_EN : Fld := ⟨BY_CTRL, 7, 0⟩
abbrev BY_CTRL_ACC_EN : Fld := ⟨BY_CTRL, 8, 8⟩
abbrev BY_CTRL_REG_EN : Fld := ⟨BY_CTRL, 9, 9⟩
abbrev BY_CTRL_REG_CLR : Fld := ⟨BY_CTRL, 10, 10⟩
-- BY_STAT (0x09_0004)
abbrev BY_STAT_NOCAM : Fld := ⟨BY_STAT, 0, 0⟩
abbrev BY_STAT_ACCUMULATING : Fld := ⟨BY_STAT, 1, 1⟩
abbrev BY_STAT_CYCLE : Fld := ⟨BY_STAT, 15, 8⟩
-- BY_SOLVE_CFG (0x09_0008)
abbrev BY_SOLVE_CFG_RIDGE : Fld := ⟨BY_SOLVE_CFG, 15, 0⟩
-- BY_EXC_MIN (0x09_000C)
abbrev BY_EXC_MIN_EXC_MIN : Fld := ⟨BY_EXC_MIN, 31, 0⟩
-- BY_GAIN_CFG (0x09_0010)
abbrev BY_GAIN_CFG_DEADBAND : Fld := ⟨BY_GAIN_CFG, 7, 0⟩
abbrev BY_GAIN_CFG_STEP : Fld := ⟨BY_GAIN_CFG, 15, 8⟩
abbrev BY_GAIN_CFG_GMIN : Fld := ⟨BY_GAIN_CFG, 27, 16⟩
-- BY_NOZ_CFG (0x09_0014)
abbrev BY_NOZ_CFG_MISS_THR : Fld := ⟨BY_NOZ_CFG, 9, 0⟩
abbrev BY_NOZ_CFG_WEAK_THR : Fld := ⟨BY_NOZ_CFG, 19, 10⟩
abbrev BY_NOZ_CFG_M : Fld := ⟨BY_NOZ_CFG, 23, 20⟩
abbrev BY_NOZ_CFG_SHARE : Fld := ⟨BY_NOZ_CFG, 31, 24⟩
-- BY_WHITE_CFG (0x09_0018)
abbrev BY_WHITE_CFG_WSHIFT : Fld := ⟨BY_WHITE_CFG, 3, 0⟩
abbrev BY_WHITE_CFG_GUARD : Fld := ⟨BY_WHITE_CFG, 7, 4⟩
abbrev BY_WHITE_CFG_MAX_S : Fld := ⟨BY_WHITE_CFG, 23, 8⟩
-- BY_APPLY_CFG (0x09_001C)
abbrev BY_APPLY_CFG_APPLY_MS : Fld := ⟨BY_APPLY_CFG, 15, 0⟩
abbrev BY_APPLY_CFG_MISS_LIMIT : Fld := ⟨BY_APPLY_CFG, 23, 16⟩
-- BY_REG_CFG (0x09_0020)
abbrev BY_REG_CFG_KREG : Fld := ⟨BY_REG_CFG, 7, 0⟩
abbrev BY_REG_CFG_DB : Fld := ⟨BY_REG_CFG, 23, 8⟩
-- BY_DEV_CFG (0x09_0024)
abbrev BY_DEV_CFG_DEV_LIM : Fld := ⟨BY_DEV_CFG, 15, 0⟩
-- BY_STRIP_CFG (0x09_0030), TICK domain
abbrev BY_STRIP_CFG_EN : Fld := ⟨BY_STRIP_CFG, 0, 0⟩
abbrev BY_STRIP_CFG_COLMODE : Fld := ⟨BY_STRIP_CFG, 1, 1⟩
abbrev BY_STRIP_CFG_LINES : Fld := ⟨BY_STRIP_CFG, 9, 2⟩
abbrev BY_STRIP_CFG_OFS : Fld := ⟨BY_STRIP_CFG, 17, 10⟩
abbrev BY_STRIP_CFG_SPACE : Fld := ⟨BY_STRIP_CFG, 25, 18⟩
-- BY_STRIP_CFG2 (0x09_0034), TICK domain
abbrev BY_STRIP_CFG2_C4 : Fld := ⟨BY_STRIP_CFG2, 9, 0⟩
abbrev BY_STRIP_CFG2_PERIOD_S : Fld := ⟨BY_STRIP_CFG2, 19, 10⟩
abbrev BY_STRIP_CFG2_DEFICIT_S : Fld := ⟨BY_STRIP_CFG2, 31, 20⟩
-- BY_STRIP_CTRL (0x09_0038)
abbrev BY_STRIP_CTRL_FORCE : Fld := ⟨BY_STRIP_CTRL, 7, 0⟩
-- BY_STRIP_STAT (0x09_003C)
abbrev BY_STRIP_STAT_STRIPS : Fld := ⟨BY_STRIP_STAT, 15, 0⟩
abbrev BY_STRIP_STAT_SKIPPED : Fld := ⟨BY_STRIP_STAT, 31, 16⟩
-- BY_OBS_STAT (0x09_0040)
abbrev BY_OBS_STAT_TAPLINES : Fld := ⟨BY_OBS_STAT, 15, 0⟩
abbrev BY_OBS_STAT_UNMATCHED : Fld := ⟨BY_OBS_STAT, 31, 16⟩
-- BY_OBS_STAT2 (0x09_0044)
abbrev BY_OBS_STAT2_STALE_COLS : Fld := ⟨BY_OBS_STAT2, 16, 0⟩
-- BY_SOLVE_STAT (0x09_0048)
abbrev BY_SOLVE_STAT_SOLVES : Fld := ⟨BY_SOLVE_STAT, 15, 0⟩
abbrev BY_SOLVE_STAT_NONE_ACCEPTED : Fld := ⟨BY_SOLVE_STAT, 31, 16⟩
-- BY_SENSk_m (0x09_0100 + 0x10 × k + 4 × m, k = 0–3, m = 0–3), GAP domain
abbrev BY_SENS_S_LO (k : Nat) (m : Nat) : Fld := ⟨BY_SENS k m, 15, 0⟩
abbrev BY_SENS_S_HI (k : Nat) (m : Nat) : Fld := ⟨BY_SENS k m, 31, 16⟩
-- BY_BARn_CFG (+0x00)
abbrev BY_BAR_CFG_REF_MODE (n : Nat) : Fld := ⟨BY_BAR_CFG n, 0, 0⟩
abbrev BY_BAR_CFG_GBASE (n : Nat) : Fld := ⟨BY_BAR_CFG n, 15, 4⟩
abbrev BY_BAR_CFG_TARGET (n : Nat) : Fld := ⟨BY_BAR_CFG n, 31, 16⟩
-- BY_BARn_REF (+0x04)
abbrev BY_BAR_REF_REF (n : Nat) : Fld := ⟨BY_BAR_REF n, 15, 0⟩
abbrev BY_BAR_REF_SLOTS_USED (n : Nat) : Fld := ⟨BY_BAR_REF n, 31, 16⟩
-- BY_BARn_RESID (+0x08)
abbrev BY_BAR_RESID_RESID (n : Nat) : Fld := ⟨BY_BAR_RESID n, 15, 0⟩
-- BY_BARn_SOLVES (+0x0C)
abbrev BY_BAR_SOLVES_COUNT (n : Nat) : Fld := ⟨BY_BAR_SOLVES n, 31, 0⟩
-- BY_BARn_LAST_LO (+0x10), BY_BARn_LAST_HI (+0x14)
abbrev BY_BAR_LAST_LO_TIME (n : Nat) : Fld := ⟨BY_BAR_LAST_LO n, 31, 0⟩
abbrev BY_BAR_LAST_HI_TIME (n : Nat) : Fld := ⟨BY_BAR_LAST_HI n, 31, 0⟩
-- BY_BARn_DEV (+0x18)
abbrev BY_BAR_DEV_DEV (n : Nat) : Fld := ⟨BY_BAR_DEV n, 15, 0⟩
abbrev BY_BAR_DEV_VALID (n : Nat) : Fld := ⟨BY_BAR_DEV n, 16, 16⟩
-- BY_BARn_NOZ (+0x1C)
abbrev BY_BAR_NOZ_MARKED (n : Nat) : Fld := ⟨BY_BAR_NOZ n, 15, 0⟩
abbrev BY_BAR_NOZ_LIMITED (n : Nat) : Fld := ⟨BY_BAR_NOZ n, 27, 16⟩
-- BY_BARn_CTRL (+0x20)
abbrev BY_BAR_CTRL_REVIVE (n : Nat) : Fld := ⟨BY_BAR_CTRL n, 0, 0⟩
abbrev BY_BAR_CTRL_RESET_EST (n : Nat) : Fld := ⟨BY_BAR_CTRL n, 1, 1⟩
abbrev BY_BAR_CTRL_HOLD (n : Nat) : Fld := ⟨BY_BAR_CTRL n, 2, 2⟩
-- BY_BARn_APPLY (+0x24)
abbrev BY_BAR_APPLY_CYCLES (n : Nat) : Fld := ⟨BY_BAR_APPLY n, 15, 0⟩
abbrev BY_BAR_APPLY_RETRIES (n : Nat) : Fld := ⟨BY_BAR_APPLY n, 31, 16⟩
-- PR_CFG (0x0D_0000)
abbrev PR_CFG_PAIR_TMO_MS : Fld := ⟨PR_CFG, 15, 0⟩
abbrev PR_CFG_MM_LIMIT : Fld := ⟨PR_CFG, 23, 16⟩
-- PR_STAT (0x0D_0004)
abbrev PR_STAT_ROLE : Fld := ⟨PR_STAT, 3, 0⟩
abbrev PR_STAT_STALE : Fld := ⟨PR_STAT, 4, 4⟩
abbrev PR_STAT_DEMOTED : Fld := ⟨PR_STAT, 5, 5⟩
abbrev PR_STAT_CONTEST : Fld := ⟨PR_STAT, 6, 6⟩
abbrev PR_STAT_PARTNER_UP : Fld := ⟨PR_STAT, 7, 7⟩
abbrev PR_STAT_PARTNER_ROLE : Fld := ⟨PR_STAT, 11, 8⟩
abbrev PR_STAT_WIDTH : Fld := ⟨PR_STAT, 14, 12⟩
abbrev PR_STAT_PARTNER_STALE : Fld := ⟨PR_STAT, 15, 15⟩
abbrev PR_STAT_RESYNC_PHASE : Fld := ⟨PR_STAT, 18, 16⟩
abbrev PR_STAT_SWITCH_PENDING : Fld := ⟨PR_STAT, 19, 19⟩
abbrev PR_STAT_TIMING_LANE : Fld := ⟨PR_STAT, 21, 20⟩
-- PR_CLAIM (0x0D_0008), PR_PARTNER_CLAIM (0x0D_000C), PR_ACC_CLAIM (0x0D_0010)
abbrev PR_CLAIM_CLAIM : Fld := ⟨PR_CLAIM, 31, 0⟩
abbrev PR_PARTNER_CLAIM_CLAIM : Fld := ⟨PR_PARTNER_CLAIM, 31, 0⟩
abbrev PR_ACC_CLAIM_CLAIM : Fld := ⟨PR_ACC_CLAIM, 31, 0⟩
-- PR_CTRL (0x0D_0014)
abbrev PR_CTRL_SWITCH : Fld := ⟨PR_CTRL, 0, 0⟩
abbrev PR_CTRL_LEAVE : Fld := ⟨PR_CTRL, 1, 1⟩
abbrev PR_CTRL_CLR_DEMOTE : Fld := ⟨PR_CTRL, 2, 2⟩
-- PR_HB_CNT (0x0D_0020)
abbrev PR_HB_CNT_RECEIVED : Fld := ⟨PR_HB_CNT, 15, 0⟩
abbrev PR_HB_CNT_MISSED : Fld := ⟨PR_HB_CNT, 31, 16⟩
-- PR_LINK_CNT (0x0D_0024), PR_LINK_ERR (0x0D_0028)
abbrev PR_LINK_CNT_LOW : Fld := ⟨PR_LINK_CNT, 15, 0⟩
abbrev PR_LINK_CNT_HIGH : Fld := ⟨PR_LINK_CNT, 31, 16⟩
abbrev PR_LINK_ERR_LOW : Fld := ⟨PR_LINK_ERR, 15, 0⟩
abbrev PR_LINK_ERR_HIGH : Fld := ⟨PR_LINK_ERR, 31, 16⟩
-- PR_TS_STAT (0x0D_0030)
abbrev PR_TS_STAT_CONFIRM_US : Fld := ⟨PR_TS_STAT, 7, 0⟩
abbrev PR_TS_STAT_COPIES : Fld := ⟨PR_TS_STAT, 31, 16⟩
-- PR_TAKEOVER (0x0D_0034)
abbrev PR_TAKEOVER_COUNT : Fld := ⟨PR_TAKEOVER, 15, 0⟩
abbrev PR_TAKEOVER_CAUSE : Fld := ⟨PR_TAKEOVER, 19, 16⟩
-- PR_TAKEOVER_T_LO (0x0D_0038), PR_TAKEOVER_T_HI (0x0D_003C)
abbrev PR_TAKEOVER_T_LO_TIME : Fld := ⟨PR_TAKEOVER_T_LO, 31, 0⟩
abbrev PR_TAKEOVER_T_HI_TIME : Fld := ⟨PR_TAKEOVER_T_HI, 31, 0⟩
-- PR_GARNET_STAT (0x0D_0040)
abbrev PR_GARNET_STAT_MISCOMPARES : Fld := ⟨PR_GARNET_STAT, 15, 0⟩
abbrev PR_GARNET_STAT_FAILS : Fld := ⟨PR_GARNET_STAT, 31, 16⟩
-- PR_GARNET_LAST (0x0D_0044)
abbrev PR_GARNET_LAST_SEQ : Fld := ⟨PR_GARNET_LAST, 23, 0⟩
abbrev PR_GARNET_LAST_CH : Fld := ⟨PR_GARNET_LAST, 30, 24⟩
abbrev PR_GARNET_LAST_FAILED : Fld := ⟨PR_GARNET_LAST, 31, 31⟩
-- PR_GARNET_CHECKS (0x0D_0048)
abbrev PR_GARNET_CHECKS_COUNT : Fld := ⟨PR_GARNET_CHECKS, 31, 0⟩
-- PR_MM_STAT (0x0D_004C)
abbrev PR_MM_STAT_ATTRIBUTED : Fld := ⟨PR_MM_STAT, 15, 0⟩
abbrev PR_MM_STAT_UNATTRIBUTED : Fld := ⟨PR_MM_STAT, 31, 16⟩
-- PR_PARTNER_READYn (0x0D_0050 + 4 × n, n = 0–2)
abbrev PR_PARTNER_READY_CH (n : Nat) : Fld := ⟨PR_PARTNER_READY n, 31, 0⟩
-- HP_DCP_CFG (0x0E_0000)
abbrev HP_DCP_CFG_PORT : Fld := ⟨HP_DCP_CFG, 15, 0⟩
abbrev HP_DCP_CFG_JUMBO : Fld := ⟨HP_DCP_CFG, 16, 16⟩
-- HP_DCP_STAT (0x0E_0004)
abbrev HP_DCP_STAT_ACCEPTED : Fld := ⟨HP_DCP_STAT, 15, 0⟩
abbrev HP_DCP_STAT_DROPPED : Fld := ⟨HP_DCP_STAT, 31, 16⟩
-- HP_DCP_ERR (0x0E_0008)
abbrev HP_DCP_ERR_AUTH_FAIL : Fld := ⟨HP_DCP_ERR, 15, 0⟩
abbrev HP_DCP_ERR_STALE : Fld := ⟨HP_DCP_ERR, 31, 16⟩
-- HP_DCP_CONFLICT (0x0E_000C)
abbrev HP_DCP_CONFLICT_CONFLICTS : Fld := ⟨HP_DCP_CONFLICT, 15, 0⟩
abbrev HP_DCP_CONFLICT_TICK_FULL : Fld := ⟨HP_DCP_CONFLICT, 31, 16⟩
-- HP_RX_DROP (0x0E_0010)
abbrev HP_RX_DROP_MP : Fld := ⟨HP_RX_DROP, 15, 0⟩
abbrev HP_RX_DROP_DP : Fld := ⟨HP_RX_DROP, 31, 16⟩
-- HP_MP_STAT (0x0E_0014)
abbrev HP_MP_STAT_LINK : Fld := ⟨HP_MP_STAT, 0, 0⟩
abbrev HP_MP_STAT_LOSSES : Fld := ⟨HP_MP_STAT, 31, 16⟩
-- HP_BOOT_NONCE_LO (0x0E_0018), HP_BOOT_NONCE_HI (0x0E_001C)
abbrev HP_BOOT_NONCE_LO_NONCE : Fld := ⟨HP_BOOT_NONCE_LO, 31, 0⟩
abbrev HP_BOOT_NONCE_HI_NONCE : Fld := ⟨HP_BOOT_NONCE_HI, 31, 0⟩
-- HP_MP_MAC_LO (0x0E_0020), HP_MP_MAC_HI (0x0E_0024), HP_DP_MAC_LO (0x0E_0028), HP_DP_MAC_HI (0x0E_002C)
abbrev HP_MP_MAC_LO_MAC : Fld := ⟨HP_MP_MAC_LO, 31, 0⟩
abbrev HP_MP_MAC_HI_MAC : Fld := ⟨HP_MP_MAC_HI, 31, 0⟩
abbrev HP_DP_MAC_LO_MAC : Fld := ⟨HP_DP_MAC_LO, 31, 0⟩
abbrev HP_DP_MAC_HI_MAC : Fld := ⟨HP_DP_MAC_HI, 31, 0⟩
-- HP_MP_IP4 (0x0E_0030), HP_DP_IP4 (0x0E_0034)
abbrev HP_MP_IP4_ADDR : Fld := ⟨HP_MP_IP4, 31, 0⟩
abbrev HP_DP_IP4_ADDR : Fld := ⟨HP_DP_IP4, 31, 0⟩
-- HP_MP_IP6_k (0x0E_0040 + 4 × k), HP_DP_IP6_k (0x0E_0050 + 4 × k), k = 0–3
abbrev HP_MP_IP6_ADDR (k : Nat) : Fld := ⟨HP_MP_IP6 k, 31, 0⟩
abbrev HP_DP_IP6_ADDR (k : Nat) : Fld := ⟨HP_DP_IP6 k, 31, 0⟩
-- HP_MSTn_CFG (0x0E_0100 + 0x10 × n, n = 0–3)
abbrev HP_MST_CFG_EN (n : Nat) : Fld := ⟨HP_MST_CFG n, 0, 0⟩
abbrev HP_MST_CFG_KEY_SLOT (n : Nat) : Fld := ⟨HP_MST_CFG n, 6, 4⟩
abbrev HP_MST_CFG_AUTHORITY (n : Nat) : Fld := ⟨HP_MST_CFG n, 9, 8⟩
-- HP_MSTn_CTR_LO (+0x4), HP_MSTn_CTR_HI (+0x8)
abbrev HP_MST_CTR_LO_FLOOR (n : Nat) : Fld := ⟨HP_MST_CTR_LO n, 31, 0⟩
abbrev HP_MST_CTR_HI_FLOOR (n : Nat) : Fld := ⟨HP_MST_CTR_HI n, 31, 0⟩
-- HP_KEY_STAT (0x0E_0180)
abbrev HP_KEY_STAT_STATE : Fld := ⟨HP_KEY_STAT, 15, 0⟩
-- EV_NEXT_SEQ (0x11_0000), EV_OLDEST_SEQ (0x11_0004)
abbrev EV_NEXT_SEQ_SEQ : Fld := ⟨EV_NEXT_SEQ, 31, 0⟩
abbrev EV_OLDEST_SEQ_SEQ : Fld := ⟨EV_OLDEST_SEQ, 31, 0⟩
-- EV_IRQ_MASK (0x11_0008)
abbrev EV_IRQ_MASK_SUBJECTS : Fld := ⟨EV_IRQ_MASK, 8, 1⟩
-- EV_IRQ_STAT (0x11_000C)
abbrev EV_IRQ_STAT_SUBJECTS : Fld := ⟨EV_IRQ_STAT, 8, 1⟩
-- EV_MSTn_CFG (0x11_0010 + 4 × n, n = 0–3)
abbrev EV_MST_CFG_EN (n : Nat) : Fld := ⟨EV_MST_CFG n, 0, 0⟩
abbrev EV_MST_CFG_SUBJECTS (n : Nat) : Fld := ⟨EV_MST_CFG n, 8, 1⟩
-- EV_PUSH_STAT (0x11_0020)
abbrev EV_PUSH_STAT_MESSAGES : Fld := ⟨EV_PUSH_STAT, 15, 0⟩
abbrev EV_PUSH_STAT_OVERWRITTEN : Fld := ⟨EV_PUSH_STAT, 31, 16⟩
-- BT_BOOT_STAT (0x01_0000)
abbrev BT_BOOT_STAT_SLOT : Fld := ⟨BT_BOOT_STAT, 1, 0⟩
abbrev BT_BOOT_STAT_SERVICE : Fld := ⟨BT_BOOT_STAT, 2, 2⟩
abbrev BT_BOOT_STAT_FALLBACK : Fld := ⟨BT_BOOT_STAT, 3, 3⟩
abbrev BT_BOOT_STAT_A_REASON : Fld := ⟨BT_BOOT_STAT, 7, 4⟩
abbrev BT_BOOT_STAT_B_REASON : Fld := ⟨BT_BOOT_STAT, 11, 8⟩
abbrev BT_BOOT_STAT_PAIR_EN : Fld := ⟨BT_BOOT_STAT, 12, 12⟩
abbrev BT_BOOT_STAT_UNIT_ID : Fld := ⟨BT_BOOT_STAT, 13, 13⟩
abbrev BT_BOOT_STAT_MODE : Fld := ⟨BT_BOOT_STAT, 14, 14⟩
-- BT_IMG_SEQ (0x01_0004), BT_IMG_BUILD (0x01_0008)
abbrev BT_IMG_SEQ_VALUE : Fld := ⟨BT_IMG_SEQ, 31, 0⟩
abbrev BT_IMG_BUILD_VALUE : Fld := ⟨BT_IMG_BUILD, 31, 0⟩
-- BT_IMG_REFUSED (0x01_000C)
abbrev BT_IMG_REFUSED_COUNT : Fld := ⟨BT_IMG_REFUSED, 15, 0⟩
-- BT_IMG_WR_STAT (0x01_0010)
abbrev BT_IMG_WR_STAT_BUSY : Fld := ⟨BT_IMG_WR_STAT, 0, 0⟩
abbrev BT_IMG_WR_STAT_SLOT : Fld := ⟨BT_IMG_WR_STAT, 1, 1⟩
abbrev BT_IMG_WR_STAT_PHASE : Fld := ⟨BT_IMG_WR_STAT, 4, 2⟩
abbrev BT_IMG_WR_STAT_RESULT : Fld := ⟨BT_IMG_WR_STAT, 11, 8⟩
abbrev BT_IMG_WR_STAT_PROGRESS : Fld := ⟨BT_IMG_WR_STAT, 31, 16⟩
-- BT_TRIM_STAT (0x01_0020)
abbrev BT_TRIM_STAT_DONE : Fld := ⟨BT_TRIM_STAT, 0, 0⟩
abbrev BT_TRIM_STAT_OTP_FALLBACK : Fld := ⟨BT_TRIM_STAT, 1, 1⟩
abbrev BT_TRIM_STAT_DIODE_FAIL : Fld := ⟨BT_TRIM_STAT, 2, 2⟩
abbrev BT_TRIM_STAT_DELAY_FAIL : Fld := ⟨BT_TRIM_STAT, 3, 3⟩
abbrev BT_TRIM_STAT_DDR_FAIL : Fld := ⟨BT_TRIM_STAT, 4, 4⟩
abbrev BT_TRIM_STAT_FAILED_LANES : Fld := ⟨BT_TRIM_STAT, 14, 8⟩
-- BT_TRIM_CNT (0x01_0024)
abbrev BT_TRIM_CNT_COUNT : Fld := ⟨BT_TRIM_CNT, 31, 0⟩
-- BT_TRIM_LAST_LO (0x01_0028), BT_TRIM_LAST_HI (0x01_002C)
abbrev BT_TRIM_LAST_LO_TIME : Fld := ⟨BT_TRIM_LAST_LO, 31, 0⟩
abbrev BT_TRIM_LAST_HI_TIME : Fld := ⟨BT_TRIM_LAST_HI, 31, 0⟩
-- BT_TRIM_TEMP (0x01_0030)
abbrev BT_TRIM_TEMP_T0 : Fld := ⟨BT_TRIM_TEMP, 15, 0⟩
abbrev BT_TRIM_TEMP_T_APPLIED : Fld := ⟨BT_TRIM_TEMP, 31, 16⟩
-- BT_TRIM_FAILn (0x01_0040 + 4 × n, n = 0–3)
abbrev BT_TRIM_FAIL_LANE (n : Nat) : Fld := ⟨BT_TRIM_FAIL n, 31, 0⟩
-- BT_PWR_CTRL (0x01_0060)
abbrev BT_PWR_CTRL_SLEEP : Fld := ⟨BT_PWR_CTRL, 0, 0⟩
-- BT_AO_STAT (0x01_0064)
abbrev BT_AO_STAT_WAKE_CAUSE : Fld := ⟨BT_AO_STAT, 2, 0⟩
abbrev BT_AO_STAT_SLEEPS : Fld := ⟨BT_AO_STAT, 31, 16⟩
-- BT_OTP_SERIAL_LO (0x01_0070), BT_OTP_SERIAL_HI (0x01_0074)
abbrev BT_OTP_SERIAL_LO_SERIAL : Fld := ⟨BT_OTP_SERIAL_LO, 31, 0⟩
abbrev BT_OTP_SERIAL_HI_SERIAL : Fld := ⟨BT_OTP_SERIAL_HI, 31, 0⟩
-- PW_TEMP (0x02_0000)
abbrev PW_TEMP_T : Fld := ⟨PW_TEMP, 15, 0⟩
abbrev PW_TEMP_SOURCE : Fld := ⟨PW_TEMP, 16, 16⟩
abbrev PW_TEMP_DIODE_FAIL : Fld := ⟨PW_TEMP, 17, 17⟩
abbrev PW_TEMP_BAND : Fld := ⟨PW_TEMP, 20, 18⟩
abbrev PW_TEMP_STEP : Fld := ⟨PW_TEMP, 23, 21⟩
abbrev PW_TEMP_SUPPLY_WARN : Fld := ⟨PW_TEMP, 24, 24⟩
-- PW_SENSE (0x02_0004)
abbrev PW_SENSE_DIODE : Fld := ⟨PW_SENSE, 15, 0⟩
abbrev PW_SENSE_MODEL : Fld := ⟨PW_SENSE, 31, 16⟩
-- PW_MODEL_CFG (0x02_0008)
abbrev PW_MODEL_CFG_THETA : Fld := ⟨PW_MODEL_CFG, 11, 0⟩
abbrev PW_MODEL_CFG_TAU_S : Fld := ⟨PW_MODEL_CFG, 19, 12⟩
abbrev PW_MODEL_CFG_AMB_INIT : Fld := ⟨PW_MODEL_CFG, 27, 20⟩
-- PW_THR_CFG (0x02_000C)
abbrev PW_THR_CFG_T_THR : Fld := ⟨PW_THR_CFG, 7, 0⟩
abbrev PW_THR_CFG_STEP_MS : Fld := ⟨PW_THR_CFG, 15, 8⟩
abbrev PW_THR_CFG_RELAX_MS : Fld := ⟨PW_THR_CFG, 31, 16⟩
-- PW_TRIP_CFG (0x02_0010)
abbrev PW_TRIP_CFG_TRIP : Fld := ⟨PW_TRIP_CFG, 7, 0⟩
abbrev PW_TRIP_CFG_REARM : Fld := ⟨PW_TRIP_CFG, 15, 8⟩
-- PW_STEP_STAT (0x02_0014)
abbrev PW_STEP_STAT_MAX_STEP : Fld := ⟨PW_STEP_STAT, 2, 0⟩
abbrev PW_STEP_STAT_THERMAL_REQ : Fld := ⟨PW_STEP_STAT, 3, 3⟩
abbrev PW_STEP_STAT_CHANGES : Fld := ⟨PW_STEP_STAT, 31, 16⟩
-- PW_SUP_CFG (0x02_0018)
abbrev PW_SUP_CFG_WARN_MV : Fld := ⟨PW_SUP_CFG, 9, 0⟩
abbrev PW_SUP_CFG_RESET_MV : Fld := ⟨PW_SUP_CFG, 19, 10⟩
-- PW_SUP_STAT (0x02_001C)
abbrev PW_SUP_STAT_VDD_MV : Fld := ⟨PW_SUP_STAT, 9, 0⟩
abbrev PW_SUP_STAT_DIPS : Fld := ⟨PW_SUP_STAT, 31, 16⟩
-- PW_GATE (0x02_0020)
abbrev PW_GATE_BARS : Fld := ⟨PW_GATE, 7, 0⟩
-- PW_SHUT_STAT (0x02_0024)
abbrev PW_SHUT_STAT_LATCHED : Fld := ⟨PW_SHUT_STAT, 0, 0⟩
abbrev PW_SHUT_STAT_NV_FULL : Fld := ⟨PW_SHUT_STAT, 1, 1⟩
abbrev PW_SHUT_STAT_NV_COUNT : Fld := ⟨PW_SHUT_STAT, 12, 2⟩
abbrev PW_SHUT_STAT_REARM_REFUSED : Fld := ⟨PW_SHUT_STAT, 31, 16⟩
-- PW_RAILn (0x02_0040 + 4 × n, n = 0–7: VDD_CORE, VDD_SD, VDDA_SD, VDDQ_DDR, VPP_DDR, VDD_DPHY, VDD_IO18, VDD_IO33)
abbrev PW_RAIL_POWER (n : Nat) : Fld := ⟨PW_RAIL n, 15, 0⟩
abbrev PW_RAIL_STALE (n : Nat) : Fld := ⟨PW_RAIL n, 16, 16⟩
-- PW_PMBn_CFG (0x02_0060 + 4 × n, n = 0–7)
abbrev PW_PMB_CFG_ADDR (n : Nat) : Fld := ⟨PW_PMB_CFG n, 6, 0⟩
abbrev PW_PMB_CFG_PAGE (n : Nat) : Fld := ⟨PW_PMB_CFG n, 15, 8⟩
abbrev PW_PMB_CFG_EN (n : Nat) : Fld := ⟨PW_PMB_CFG n, 16, 16⟩
-- AG_CFG (0x10_0000)
abbrev AG_CFG_AUTO_ARM : Fld := ⟨AG_CFG, 0, 0⟩
abbrev AG_CFG_DIG_LINES_M1 : Fld := ⟨AG_CFG, 6, 1⟩
abbrev AG_CFG_TEMP_MS : Fld := ⟨AG_CFG, 15, 7⟩
abbrev AG_CFG_EVT_SUBJ : Fld := ⟨AG_CFG, 23, 16⟩
abbrev AG_CFG_SNAP_S : Fld := ⟨AG_CFG, 31, 24⟩
-- AG_TRIG_CFG (0x10_0004)
abbrev AG_TRIG_CFG_POST_PCT : Fld := ⟨AG_TRIG_CFG, 6, 0⟩
abbrev AG_TRIG_CFG_TAKEOVER : Fld := ⟨AG_TRIG_CFG, 7, 7⟩
abbrev AG_TRIG_CFG_SAFE : Fld := ⟨AG_TRIG_CFG, 8, 8⟩
-- AG_TRIG_CODEn (0x10_0010 + 4 × n, n = 0–3)
abbrev AG_TRIG_CODE_CODE (n : Nat) : Fld := ⟨AG_TRIG_CODE n, 15, 0⟩
abbrev AG_TRIG_CODE_MASK (n : Nat) : Fld := ⟨AG_TRIG_CODE n, 30, 16⟩
abbrev AG_TRIG_CODE_EN (n : Nat) : Fld := ⟨AG_TRIG_CODE n, 31, 31⟩
-- AG_CTRL (0x10_0020)
abbrev AG_CTRL_ARM : Fld := ⟨AG_CTRL, 0, 0⟩
abbrev AG_CTRL_TRIGGER : Fld := ⟨AG_CTRL, 1, 1⟩
abbrev AG_CTRL_FREEZE : Fld := ⟨AG_CTRL, 2, 2⟩
-- AG_STAT (0x10_0024)
abbrev AG_STAT_STATE : Fld := ⟨AG_STAT, 1, 0⟩
abbrev AG_STAT_TRIGGERS : Fld := ⟨AG_STAT, 15, 2⟩
abbrev AG_STAT_LOST : Fld := ⟨AG_STAT, 31, 16⟩
-- AG_RP_CTRL (0x10_0040)
abbrev AG_RP_CTRL_ENTER : Fld := ⟨AG_RP_CTRL, 0, 0⟩
abbrev AG_RP_CTRL_RUN : Fld := ⟨AG_RP_CTRL, 1, 1⟩
abbrev AG_RP_CTRL_STOP_MM : Fld := ⟨AG_RP_CTRL, 2, 2⟩
-- AG_RP_START (0x10_0044), AG_RP_END (0x10_0048)
abbrev AG_RP_START_SEQ : Fld := ⟨AG_RP_START, 31, 0⟩
abbrev AG_RP_END_SEQ : Fld := ⟨AG_RP_END, 31, 0⟩
-- AG_RP_STAT (0x10_004C)
abbrev AG_RP_STAT_MODE : Fld := ⟨AG_RP_STAT, 1, 0⟩
abbrev AG_RP_STAT_SKIPPED : Fld := ⟨AG_RP_STAT, 15, 2⟩
abbrev AG_RP_STAT_MISMATCHES : Fld := ⟨AG_RP_STAT, 31, 16⟩
-- AG_RP_MM (0x10_0050)
abbrev AG_RP_MM_SEQ : Fld := ⟨AG_RP_MM, 31, 0⟩
-- GL_DEV_ID (0x00_0000)
abbrev GL_DEV_ID_ONE : Fld := ⟨GL_DEV_ID, 0, 0⟩
abbrev GL_DEV_ID_MFR : Fld := ⟨GL_DEV_ID, 11, 1⟩
abbrev GL_DEV_ID_PART : Fld := ⟨GL_DEV_ID, 27, 12⟩
abbrev GL_DEV_ID_VERSION : Fld := ⟨GL_DEV_ID, 31, 28⟩
-- GL_ROLE_STAT (0x00_0004)
abbrev GL_ROLE_STAT_STATE : Fld := ⟨GL_ROLE_STAT, 3, 0⟩
abbrev GL_ROLE_STAT_DEGRADED : Fld := ⟨GL_ROLE_STAT, 4, 4⟩
abbrev GL_ROLE_STAT_SAFE : Fld := ⟨GL_ROLE_STAT, 5, 5⟩
abbrev GL_ROLE_STAT_STALE : Fld := ⟨GL_ROLE_STAT, 7, 7⟩
abbrev GL_ROLE_STAT_DEMOTED : Fld := ⟨GL_ROLE_STAT, 8, 8⟩
abbrev GL_ROLE_STAT_CONTEST : Fld := ⟨GL_ROLE_STAT, 9, 9⟩
abbrev GL_ROLE_STAT_JOINING : Fld := ⟨GL_ROLE_STAT, 10, 10⟩
abbrev GL_ROLE_STAT_REPLAY : Fld := ⟨GL_ROLE_STAT, 11, 11⟩
abbrev GL_ROLE_STAT_SERVICE : Fld := ⟨GL_ROLE_STAT, 12, 12⟩
abbrev GL_ROLE_STAT_UNIT_ID : Fld := ⟨GL_ROLE_STAT, 13, 13⟩
abbrev GL_ROLE_STAT_PAIR_EN : Fld := ⟨GL_ROLE_STAT, 14, 14⟩
abbrev GL_ROLE_STAT_CHANGES : Fld := ⟨GL_ROLE_STAT, 31, 16⟩
-- GL_CMT_CTRL (0x00_0008)
abbrev GL_CMT_CTRL_GAP_COMMIT : Fld := ⟨GL_CMT_CTRL, 0, 0⟩
abbrev GL_CMT_CTRL_TICK_COMMIT : Fld := ⟨GL_CMT_CTRL, 1, 1⟩
-- GL_CMT_STAT (0x00_000C)
abbrev GL_CMT_STAT_GAP_LAST : Fld := ⟨GL_CMT_STAT, 7, 0⟩
abbrev GL_CMT_STAT_TICK_LAST : Fld := ⟨GL_CMT_STAT, 15, 8⟩
abbrev GL_CMT_STAT_GAP_PENDING : Fld := ⟨GL_CMT_STAT, 16, 16⟩
-- GL_TICK (0x00_0010)
abbrev GL_TICK_TICK : Fld := ⟨GL_TICK, 31, 0⟩
-- GL_DEGRADED (0x00_0014)
abbrev GL_DEGRADED_LANE : Fld := ⟨GL_DEGRADED, 0, 0⟩
abbrev GL_DEGRADED_ENCODER : Fld := ⟨GL_DEGRADED, 1, 1⟩
abbrev GL_DEGRADED_REF_INPUT : Fld := ⟨GL_DEGRADED, 2, 2⟩
abbrev GL_DEGRADED_DIODE : Fld := ⟨GL_DEGRADED, 3, 3⟩
abbrev GL_DEGRADED_PARTNER : Fld := ⟨GL_DEGRADED, 4, 4⟩
abbrev GL_DEGRADED_PAIR_TIME : Fld := ⟨GL_DEGRADED, 5, 5⟩
abbrev GL_DEGRADED_TRIM : Fld := ⟨GL_DEGRADED, 6, 6⟩
-- EV_DIAG_VIEW (0x11_0030)
abbrev EV_DIAG_VIEW_EYE : Fld := ⟨EV_DIAG_VIEW, 0, 0⟩

/-- The registers of block 0x00 (R520). -/
def regSpecs00 : List RegSpec := [
  ⟨0x000000, 1, 0x0, 1, 0x0, .none, 0x0, 0x0, 0x0, 0x0, 0x0, 0xFFFFFFFF, 0x10968B47⟩, -- GL_DEV_ID
  ⟨0x000004, 1, 0x0, 1, 0x0, .none, 0x0, 0x0, 0x0, 0x0, 0x0, 0xFFFF7FBF, 0x0⟩, -- GL_ROLE_STAT
  ⟨0x000008, 1, 0x0, 1, 0x0, .none, 0x0, 0x0, 0x0, 0x3, 0x0, 0x0, 0x0⟩, -- GL_CMT_CTRL
  ⟨0x00000C, 1, 0x0, 1, 0x0, .none, 0x0, 0x0, 0x0, 0x0, 0x0, 0x1FFFF, 0x0⟩, -- GL_CMT_STAT
  ⟨0x000010, 1, 0x0, 1, 0x0, .none, 0x0, 0x0, 0x0, 0x0, 0x0, 0xFFFFFFFF, 0x0⟩, -- GL_TICK
  ⟨0x000014, 1, 0x0, 1, 0x0, .none, 0x0, 0x0, 0x0, 0x0, 0x0, 0x7F, 0x0⟩ -- GL_DEGRADED
]

/-- The registers of block 0x01 (R520). -/
def regSpecs01 : List RegSpec := [
  ⟨0x010000, 1, 0x0, 1, 0x0, .none, 0x0, 0x0, 0x0, 0x0, 0x0, 0x7FFF, 0x3⟩, -- BT_BOOT_STAT
  ⟨0x010004, 1, 0x0, 1, 0x0, .none, 0x0, 0x0, 0x0, 0x0, 0x0, 0xFFFFFFFF, 0x0⟩, -- BT_IMG_SEQ
  ⟨0x010008, 1, 0x0, 1, 0x0, .none, 0x0, 0x0, 0x0, 0x0, 0x0, 0xFFFFFFFF, 0x0⟩, -- BT_IMG_BUILD
  ⟨0x01000C, 1, 0x0, 1, 0x0, .none, 0x0, 0x0, 0x0, 0x0, 0x0, 0xFFFF, 0x0⟩, -- BT_IMG_REFUSED
  ⟨0x010010, 1, 0x0, 1, 0x0, .none, 0x0, 0x0, 0x0, 0x0, 0x0, 0xFFFF0F1F, 0x0⟩, -- BT_IMG_WR_STAT
  ⟨0x010020, 1, 0x0, 1, 0x0, .none, 0x0, 0x0, 0x0, 0x0, 0x0, 0x7F1F, 0x0⟩, -- BT_TRIM_STAT
  ⟨0x010024, 1, 0x0, 1, 0x0, .none, 0x0, 0x0, 0x0, 0x0, 0x0, 0xFFFFFFFF, 0x0⟩, -- BT_TRIM_CNT
  ⟨0x010028, 1, 0x0, 1, 0x0, .none, 0x0, 0x0, 0x0, 0x0, 0x0, 0xFFFFFFFF, 0x0⟩, -- BT_TRIM_LAST_LO
  ⟨0x01002C, 1, 0x0, 1, 0x0, .none, 0x0, 0x0, 0x0, 0x0, 0x0, 0xFFFFFFFF, 0x0⟩, -- BT_TRIM_LAST_HI
  ⟨0x010030, 1, 0x0, 1, 0x0, .none, 0x0, 0x0, 0x0, 0x0, 0x0, 0xFFFFFFFF, 0x0⟩, -- BT_TRIM_TEMP
  ⟨0x010040, 4, 0x4, 1, 0x0, .none, 0x0, 0x0, 0x0, 0x0, 0x0, 0xFFFFFFFF, 0x0⟩, -- BT_TRIM_FAIL
  ⟨0x010060, 1, 0x0, 1, 0x0, .none, 0x0, 0x0, 0x0, 0x1, 0x0, 0x0, 0x0⟩, -- BT_PWR_CTRL
  ⟨0x010064, 1, 0x0, 1, 0x0, .none, 0x0, 0x0, 0x0, 0x0, 0x0, 0xFFFF0007, 0x0⟩, -- BT_AO_STAT
  ⟨0x010070, 1, 0x0, 1, 0x0, .none, 0x0, 0x0, 0x0, 0x0, 0x0, 0xFFFFFFFF, 0x0⟩, -- BT_OTP_SERIAL_LO
  ⟨0x010074, 1, 0x0, 1, 0x0, .none, 0x0, 0x0, 0x0, 0x0, 0x0, 0xFFFFFFFF, 0x0⟩ -- BT_OTP_SERIAL_HI
]

/-- The registers of block 0x02 (R520). -/
def regSpecs02 : List RegSpec := [
  ⟨0x020000, 1, 0x0, 1, 0x0, .none, 0x0, 0x0, 0x0, 0x0, 0x0, 0x1FFFFFF, 0x40000⟩, -- PW_TEMP
  ⟨0x020004, 1, 0x0, 1, 0x0, .none, 0x0, 0x0, 0x0, 0x0, 0x0, 0xFFFFFFFF, 0x0⟩, -- PW_SENSE
  ⟨0x020008, 1, 0x0, 1, 0x0, .none, 0xFFFFFFF, 0x0, 0x0, 0x0, 0x0, 0x0, 0x3C1403C⟩, -- PW_MODEL_CFG
  ⟨0x02000C, 1, 0x0, 1, 0x0, .none, 0xFFFFFFFF, 0x0, 0x0, 0x0, 0x0, 0x0, 0xC81469⟩, -- PW_THR_CFG
  ⟨0x020010, 1, 0x0, 1, 0x0, .none, 0xFF00, 0x0, 0x0, 0x0, 0x0, 0xFF, 0x5F76⟩, -- PW_TRIP_CFG
  ⟨0x020014, 1, 0x0, 1, 0x0, .none, 0x0, 0x0, 0x0, 0x0, 0x0, 0xFFFF000F, 0x0⟩, -- PW_STEP_STAT
  ⟨0x020018, 1, 0x0, 1, 0x0, .none, 0xFFFFF, 0x0, 0x0, 0x0, 0x0, 0x0, 0x9DAB2⟩, -- PW_SUP_CFG
  ⟨0x02001C, 1, 0x0, 1, 0x0, .none, 0x0, 0x0, 0x0, 0x0, 0x0, 0xFFFF03FF, 0x0⟩, -- PW_SUP_STAT
  ⟨0x020020, 1, 0x0, 1, 0x0, .none, 0xFF, 0x0, 0x0, 0x0, 0x0, 0x0, 0x0⟩, -- PW_GATE
  ⟨0x020024, 1, 0x0, 1, 0x0, .none, 0x0, 0x0, 0x0, 0x0, 0x0, 0xFFFF1FFF, 0x0⟩, -- PW_SHUT_STAT
  ⟨0x020040, 8, 0x4, 1, 0x0, .none, 0x0, 0x0, 0x0, 0x0, 0x0, 0x1FFFF, 0x0⟩, -- PW_RAIL
  ⟨0x020060, 8, 0x4, 1, 0x0, .none, 0x1FF7F, 0x0, 0x0, 0x0, 0x0, 0x0, 0x0⟩ -- PW_PMB_CFG
]

/-- The registers of block 0x03 (R520). -/
def regSpecs03 : List RegSpec := [
  ⟨0x030000, 1, 0x0, 1, 0x0, .none, 0x0, 0x0, 0x0, 0x0, 0x0, 0xFFFFFFFF, 0x0⟩, -- TB_FRC_LO
  ⟨0x030004, 1, 0x0, 1, 0x0, .none, 0x0, 0x0, 0x0, 0x0, 0x0, 0xFFFFFFFF, 0x0⟩, -- TB_FRC_HI
  ⟨0x030008, 1, 0x0, 1, 0x0, .none, 0x0, 0x0, 0x0, 0x0, 0x0, 0xFFFFFFFF, 0x0⟩, -- TB_TIME_LO
  ⟨0x03000C, 1, 0x0, 1, 0x0, .none, 0x0, 0x0, 0x0, 0x0, 0x0, 0xFFFFFFFF, 0x0⟩, -- TB_TIME_HI
  ⟨0x030010, 1, 0x0, 1, 0x0, .none, 0x0, 0x0, 0x0, 0x0, 0x0, 0xFFFFFFFF, 0x0⟩, -- TB_TIME_FRAC
  ⟨0x030020, 1, 0x0, 1, 0x0, .none, 0xFFFFFFFF, 0x0, 0x0, 0x0, 0x0, 0x0, 0x0⟩, -- TB_INCR_LO
  ⟨0x030024, 1, 0x0, 1, 0x0, .none, 0xFFFF, 0x0, 0x0, 0x0, 0x0, 0x0, 0x100⟩, -- TB_INCR_HI
  ⟨0x030028, 1, 0x0, 1, 0x0, .none, 0x0, 0x0, 0x0, 0xFFFFFFFF, 0x0, 0x0, 0x0⟩, -- TB_OFS_ADJ_LO
  ⟨0x03002C, 1, 0x0, 1, 0x0, .none, 0x0, 0x0, 0x0, 0xFFFFFFFF, 0x0, 0x0, 0x0⟩, -- TB_OFS_ADJ_HI
  ⟨0x030030, 1, 0x0, 1, 0x0, .none, 0x3FF, 0x0, 0x0, 0x0, 0x0, 0x0, 0x64⟩, -- TB_OFS_CFG
  ⟨0x030034, 1, 0x0, 1, 0x0, .none, 0x0, 0x0, 0x0, 0x0, 0x0, 0xFFFFFFFF, 0x0⟩, -- TB_OFS_REMAIN
  ⟨0x030040, 1, 0x0, 1, 0x0, .none, 0xFFFF0003, 0x0, 0x0, 0x0, 0x0, 0x0, 0x13880000⟩, -- TB_REF_CFG
  ⟨0x030044, 1, 0x0, 1, 0x0, .none, 0x0, 0x0, 0x0, 0x0, 0x0, 0xFFFF001F, 0x0⟩, -- TB_REF_STAT
  ⟨0x030048, 1, 0x0, 1, 0x0, .none, 0x0, 0x0, 0x0, 0x0, 0x0, 0xFFFFFFFF, 0x0⟩, -- TB_REF_DIFF
  ⟨0x030060, 1, 0x0, 1, 0x0, .none, 0xFFFFFFFF, 0x0, 0x0, 0x0, 0x0, 0x0, 0xA001F40⟩, -- TB_PAIR_CFG
  ⟨0x030064, 1, 0x0, 1, 0x0, .none, 0xFF, 0x0, 0x0, 0x0, 0x0, 0x0, 0x14⟩, -- TB_PAIR_LIM
  ⟨0x030068, 1, 0x0, 1, 0x0, .none, 0xFFFF, 0x0, 0x0, 0x0, 0x0, 0x0, 0x0⟩, -- TB_PAIR_ASYM
  ⟨0x03006C, 1, 0x0, 1, 0x0, .none, 0x0, 0x0, 0x0, 0x0, 0x0, 0xFFFFFFFF, 0x0⟩, -- TB_PAIR_OFS
  ⟨0x030070, 1, 0x0, 1, 0x0, .none, 0x0, 0x0, 0x0, 0x0, 0x0, 0xFFFFFFFF, 0x0⟩, -- TB_PAIR_RATE
  ⟨0x030074, 1, 0x0, 1, 0x0, .none, 0x0, 0x0, 0x0, 0x0, 0x0, 0xFFFF0007, 0x0⟩, -- TB_PAIR_STAT
  ⟨0x030080, 1, 0x0, 1, 0x0, .none, 0x3FF, 0x0, 0x0, 0x0, 0x0, 0x0, 0x64⟩ -- TB_HDM_CFG
]

/-- The registers of block 0x04 (R520). -/
def regSpecs04 : List RegSpec := [
  ⟨0x040000, 1, 0x0, 1, 0x0, .none, 0xFFFF, 0x0, 0x0, 0x0, 0x0, 0x0, 0x404⟩, -- WP_ENC_CFG
  ⟨0x040010, 4, 0x10, 1, 0x0, .none, 0xFFFFFFFF, 0x0, 0x0, 0x0, 0x0, 0x0, 0x10000⟩, -- WP_ENC_SCALE
  ⟨0x040014, 4, 0x10, 1, 0x0, .none, 0x0, 0x0, 0x0, 0x0, 0x0, 0xFFFFFFFF, 0x0⟩, -- WP_ENC_COUNT
  ⟨0x040018, 4, 0x10, 1, 0x0, .none, 0x0, 0x0, 0x0, 0x0, 0x0, 0xFFFFFFFF, 0x0⟩, -- WP_ENC_ERR
  ⟨0x04001C, 4, 0x10, 1, 0x0, .none, 0xFFFFFF, 0x0, 0x0, 0x0, 0x0, 0x0, 0x0⟩, -- WP_ENC_ZCNT
  ⟨0x040050, 1, 0x0, 1, 0x0, .none, 0xFFFFFF, 0x0, 0x0, 0x0, 0x0, 0x0, 0x100A04⟩, -- WP_FAIL_CFG
  ⟨0x040054, 1, 0x0, 1, 0x0, .none, 0xFFFFFFFF, 0x0, 0x0, 0x0, 0x0, 0x0, 0x640064⟩, -- WP_TRACK
  ⟨0x040058, 1, 0x0, 1, 0x0, .none, 0x0, 0x0, 0x0, 0x0, 0x0, 0xFFFFFF1F, 0x0⟩, -- WP_SRC_STAT
  ⟨0x04005C, 1, 0x0, 1, 0x0, .none, 0x0, 0x0, 0x0, 0x3, 0x0, 0x0, 0x0⟩, -- WP_SRC_CTRL
  ⟨0x040060, 1, 0x0, 1, 0x0, .none, 0x0, 0x0, 0x0, 0x0, 0x0, 0xFFFFFFFF, 0x0⟩, -- WP_POS_LO
  ⟨0x040064, 1, 0x0, 1, 0x0, .none, 0x0, 0x0, 0x0, 0x0, 0x0, 0xFFFF, 0x0⟩, -- WP_POS_HI
  ⟨0x040068, 1, 0x0, 1, 0x0, .none, 0x0, 0x0, 0x0, 0x0, 0x0, 0xFFFFFFFF, 0x0⟩, -- WP_RAW_LO
  ⟨0x04006C, 1, 0x0, 1, 0x0, .none, 0x0, 0x0, 0x0, 0x0, 0x0, 0xFFFF, 0x0⟩, -- WP_RAW_HI
  ⟨0x040070, 1, 0x0, 1, 0x0, .none, 0x0, 0x0, 0x0, 0x0, 0x0, 0xFFFFFFFF, 0x0⟩, -- WP_SPEED
  ⟨0x040074, 1, 0x0, 1, 0x0, .none, 0x0, 0x0, 0x0, 0x0, 0x0, 0xFFFFFFFF, 0x0⟩, -- WP_ACC
  ⟨0x040078, 1, 0x0, 1, 0x0, .none, 0x0, 0x0, 0x0, 0x0, 0x0, 0xFFFF001F, 0x0⟩, -- WP_MOTION
  ⟨0x04007C, 1, 0x0, 1, 0x0, .none, 0xFFFFFFFF, 0x0, 0x0, 0x0, 0x0, 0x0, 0x64060832⟩, -- WP_SPD_CFG
  ⟨0x040080, 1, 0x0, 1, 0x0, .none, 0xFF, 0x0, 0x0, 0x0, 0x0, 0x0, 0x2⟩, -- WP_REV_CFG
  ⟨0x040090, 1, 0x0, 1, 0x0, .tick, 0x0, 0xFF011FFF, 0x0, 0x0, 0x0, 0x0, 0xA0103E8⟩, -- WP_PRED
  ⟨0x040094, 1, 0x0, 1, 0x0, .none, 0xFFFF, 0x0, 0x0, 0x0, 0x0, 0x0, 0x40⟩, -- WP_REG_SLEW
  ⟨0x040100, 8, 0x10, 1, 0x0, .none, 0xFFFFFFFF, 0x0, 0x0, 0x0, 0x0, 0x0, 0x0⟩, -- WP_BAR_OFS
  ⟨0x040104, 8, 0x10, 1, 0x0, .tick, 0x0, 0xFFFFFFFF, 0x0, 0x0, 0x0, 0x0, 0x0⟩, -- WP_BAR_REG_HOST
  ⟨0x040108, 8, 0x10, 1, 0x0, .none, 0x0, 0x0, 0x0, 0x0, 0x0, 0xFFFFFFFF, 0x0⟩, -- WP_BAR_REG_AUTO
  ⟨0x04010C, 8, 0x10, 1, 0x0, .none, 0x0, 0x0, 0x0, 0x0, 0x0, 0xFFFFFFFF, 0x0⟩, -- WP_BAR_REG_EFF
  ⟨0x040200, 4, 0x20, 1, 0x0, .none, 0xFFFFFF03, 0x0, 0x0, 0x0, 0x0, 0x0, 0x401⟩, -- WP_PRB_CFG
  ⟨0x040204, 4, 0x20, 1, 0x0, .none, 0x0, 0x0, 0x0, 0x0, 0x0, 0xFFFF01F1, 0x0⟩, -- WP_PRB_STAT
  ⟨0x040208, 4, 0x20, 1, 0x0, .none, 0x0, 0x0, 0x0, 0x0, 0x0, 0xFFFFFFFF, 0x0⟩, -- WP_PRB_TIME_LO
  ⟨0x04020C, 4, 0x20, 1, 0x0, .none, 0x0, 0x0, 0x0, 0x0, 0x0, 0xFFFFFFFF, 0x0⟩, -- WP_PRB_TIME_HI
  ⟨0x040210, 4, 0x20, 1, 0x0, .none, 0x0, 0x0, 0x0, 0x0, 0x0, 0xFFFFFFFF, 0x0⟩, -- WP_PRB_POS_LO
  ⟨0x040214, 4, 0x20, 1, 0x0, .none, 0x0, 0x0, 0x0, 0x0, 0x0, 0xFFFFF, 0x0⟩, -- WP_PRB_POS_HI
  ⟨0x040218, 4, 0x20, 1, 0x0, .none, 0x0, 0x0, 0x0, 0x1, 0x0, 0x0, 0x0⟩, -- WP_PRB_CTRL
  ⟨0x040300, 2, 0x20, 1, 0x0, .tick, 0x0, 0x7, 0x0, 0x0, 0x0, 0x0, 0x0⟩, -- WP_ENCO_CFG
  ⟨0x040304, 2, 0x20, 1, 0x0, .tick, 0x0, 0x3FFFFF, 0x0, 0x0, 0x0, 0x0, 0x7A120⟩, -- WP_ENCO_CPM
  ⟨0x040308, 2, 0x20, 1, 0x0, .tick, 0x0, 0xFFFFFF, 0x0, 0x0, 0x0, 0x0, 0x0⟩, -- WP_ENCO_ZCNT
  ⟨0x04030C, 2, 0x20, 1, 0x0, .tick, 0x0, 0xFFFFFFFF, 0x0, 0x0, 0x0, 0x0, 0x0⟩, -- WP_ENCO_ZOFS
  ⟨0x040310, 2, 0x20, 1, 0x0, .none, 0x0, 0x0, 0x0, 0x0, 0x0, 0xFFFFFFFF, 0x0⟩ -- WP_ENCO_STAT
]

/-- The registers of block 0x05 (R520). -/
def regSpecs05 : List RegSpec := [
  ⟨0x050400, 1, 0x0, 1, 0x0, .none, 0xFFFFFFFF, 0x0, 0x0, 0x0, 0x0, 0x0, 0xB401200⟩, -- PG_ADM_LIMIT
  ⟨0x050404, 1, 0x0, 1, 0x0, .none, 0x0, 0x0, 0x0, 0x0, 0x0, 0xFFFFFFFF, 0x0⟩, -- PG_ADM_PEAK
  ⟨0x050408, 1, 0x0, 1, 0x0, .none, 0x0, 0x0, 0x0, 0x0, 0x0, 0xFFFFFFFF, 0x0⟩, -- PG_ADM_LAST
  ⟨0x05040C, 1, 0x0, 1, 0x0, .none, 0x0, 0x0, 0x0, 0x0, 0x0, 0xFFFFFFFF, 0x0⟩, -- PG_ADM_CNT
  ⟨0x050410, 1, 0x0, 1, 0x0, .none, 0x1FFFFFF, 0x0, 0x0, 0x0, 0x0, 0x0, 0x280A00⟩, -- PG_SPDREQ_CTRL
  ⟨0x050414, 1, 0x0, 1, 0x0, .none, 0x0, 0x0, 0x0, 0x0, 0x0, 0xFFFF001F, 0x0⟩, -- PG_SPDREQ_STAT
  ⟨0x050420, 1, 0x0, 1, 0x0, .none, 0x0, 0x0, 0x0, 0x0, 0x0, 0xFFFFFFFF, 0x0⟩, -- PG_PAIR_HOLD
  ⟨0x050000, 1, 0x0, 1, 0x0, .gap, 0x0, 0xFFFFFF, 0x0, 0x0, 0x0, 0x0, 0x0⟩, -- PG_PAGE_LINES
  ⟨0x050004, 1, 0x0, 1, 0x0, .gap, 0x0, 0x7FFFF, 0x0, 0x0, 0x0, 0x0, 0xEC⟩, -- PG_GAP
  ⟨0x050008, 1, 0x0, 1, 0x0, .gap, 0x0, 0xFFFFFFFF, 0x0, 0x0, 0x0, 0x0, 0x0⟩, -- PG_MARK_OFS
  ⟨0x05000C, 1, 0x0, 1, 0x0, .none, 0x0, 0x0, 0x0, 0x0, 0x0, 0xFFFFFFFF, 0x0⟩, -- PG_MARK_STAT
  ⟨0x050010, 1, 0x0, 1, 0x0, .tick, 0x0, 0xFFFFFF7F, 0x0, 0x0, 0x0, 0x0, 0x60⟩, -- PG_EVT_CFG
  ⟨0x050014, 1, 0x0, 1, 0x0, .none, 0x0, 0x0, 0xFF, 0x0, 0x0, 0x100, 0x0⟩, -- PG_EVT_STAT
  ⟨0x050018, 3, 0x4, 1, 0x0, .none, 0x0, 0x0, 0xFFFFFFFF, 0x0, 0x0, 0x0, 0x0⟩, -- PG_UNDERRUN
  ⟨0x050030, 1, 0x0, 1, 0x0, .none, 0x0, 0x0, 0x0, 0x0, 0x0, 0x7FFFFFFF, 0x0⟩, -- PG_CUR_PAGE
  ⟨0x050034, 1, 0x0, 1, 0x0, .none, 0x0, 0x0, 0x0, 0x0, 0x0, 0xFFFFFFFF, 0x0⟩, -- PG_CUR_LINE
  ⟨0x050040, 1, 0x0, 1, 0x0, .none, 0x7FFFFFFF, 0x0, 0x0, 0x0, 0x0, 0x0, 0x0⟩, -- PG_CMT_TARGET
  ⟨0x050044, 1, 0x0, 1, 0x0, .none, 0x0, 0x0, 0x0, 0x0, 0x0, 0x7F1, 0x0⟩, -- PG_CMT_STAT
  ⟨0x050048, 1, 0x0, 1, 0x0, .none, 0x0, 0x0, 0x0, 0x0, 0x0, 0x7FFFFFFF, 0x0⟩, -- PG_CMT_APPLY
  ⟨0x050050, 1, 0x0, 1, 0x0, .none, 0x0, 0x0, 0x0, 0x0, 0x0, 0x3FFF, 0x0⟩, -- PG_JOB_STAT
  ⟨0x050060, 1, 0x0, 1, 0x0, .gap, 0x0, 0x7, 0x0, 0x0, 0x0, 0x0, 0x0⟩, -- PG_PROOF
  ⟨0x050064, 1, 0x0, 1, 0x0, .none, 0x0, 0x0, 0x0, 0x0, 0x0, 0xFFFFFFFF, 0x0⟩ -- PG_PROOF_STAT
]

/-- The registers of block 0x06 (R520). -/
def regSpecs06 : List RegSpec := [
  ⟨0x060000, 8, 0x400, 1, 0x0, .gap, 0x0, 0xFF3FFF, 0x0, 0x0, 0x0, 0x0, 0x140⟩, -- LY_CTRL
  ⟨0x060004, 8, 0x400, 1, 0x0, .gap, 0x0, 0x1FFFF, 0x0, 0x0, 0x0, 0x0, 0x0⟩, -- LY_X
  ⟨0x060008, 8, 0x400, 1, 0x0, .gap, 0x0, 0x1FFFF, 0x0, 0x0, 0x0, 0x0, 0x0⟩, -- LY_W
  ⟨0x06000C, 8, 0x400, 1, 0x0, .gap, 0x0, 0xFFFFFF, 0x0, 0x0, 0x0, 0x0, 0x0⟩, -- LY_Y
  ⟨0x060010, 8, 0x400, 1, 0x0, .gap, 0x0, 0xFFFFFF, 0x0, 0x0, 0x0, 0x0, 0x0⟩, -- LY_H
  ⟨0x060014, 8, 0x400, 1, 0x0, .gap, 0x0, 0xFFFFFFFF, 0x0, 0x0, 0x0, 0x0, 0x0⟩, -- LY_COLOUR_LO
  ⟨0x060018, 8, 0x400, 1, 0x0, .gap, 0x0, 0xFFFFFFFF, 0x0, 0x0, 0x0, 0x0, 0x0⟩, -- LY_COLOUR_HI
  ⟨0x06001C, 8, 0x400, 1, 0x0, .gap, 0x0, 0xFFFFFF, 0x0, 0x0, 0x0, 0x0, 0x0⟩, -- LY_HOLD
  ⟨0x060020, 8, 0x400, 1, 0x0, .none, 0x0, 0x0, 0x8, 0x0, 0x0, 0x7, 0x0⟩, -- LY_STAT
  ⟨0x060024, 8, 0x400, 1, 0x0, .none, 0x0, 0x0, 0x0, 0x0, 0x0, 0xFFFFFFFF, 0x0⟩, -- LY_CNT
  ⟨0x060028, 8, 0x400, 1, 0x0, .none, 0x0, 0x0, 0x0, 0x0, 0x0, 0xFFFFFFFF, 0x0⟩, -- LY_SIG
  ⟨0x060030, 8, 0x400, 1, 0x0, .none, 0x0, 0x0, 0x0, 0x0, 0x0, 0xFFFFFFFF, 0x0⟩ -- LY_SRC
]

/-- The registers of block 0x07 (R520). -/
def regSpecs07 : List RegSpec := [
  ⟨0x070000, 1, 0x0, 1, 0x0, .none, 0x0, 0x0, 0x0, 0x0, 0x0, 0xFFFF, 0x0⟩, -- CS_DEC_STAT
  ⟨0x070004, 1, 0x0, 1, 0x0, .none, 0x0, 0x0, 0x0, 0x0, 0x0, 0xFFFFFFFF, 0x0⟩, -- CS_DEC_ERR
  ⟨0x070008, 1, 0x0, 1, 0x0, .none, 0x0, 0x0, 0x0, 0x0, 0x0, 0xFFFFFFFF, 0x0⟩, -- CS_DEC_LAST
  ⟨0x07000C, 1, 0x0, 1, 0x0, .none, 0x0, 0x0, 0x0, 0x0, 0x0, 0x7FFFFFF, 0x0⟩, -- CS_DEC_LAST_SLOT
  ⟨0x070010, 1, 0x0, 1, 0x0, .none, 0x0, 0x0, 0x0, 0x0, 0x0, 0xFFFFFFFF, 0x0⟩, -- CS_DEC_OUT
  ⟨0x070080, 1, 0x0, 1, 0x0, .none, 0x1, 0x0, 0x0, 0x0, 0x0, 0x0, 0x0⟩, -- CS_ENC_GLOBAL
  ⟨0x070100, 4, 0x20, 1, 0x0, .none, 0x380000, 0x0, 0x0, 0x0, 0x0, 0x1C7FFFF, 0x3FF000⟩, -- CS_ENC_CFG
  ⟨0x070104, 4, 0x20, 1, 0x0, .none, 0x0, 0x0, 0x0, 0x1, 0x0, 0x0, 0x0⟩, -- CS_ENC_CTRL
  ⟨0x070108, 4, 0x20, 1, 0x0, .none, 0x0, 0x0, 0x0, 0x0, 0x0, 0xFFFFFF, 0x0⟩, -- CS_ENC_STAT
  ⟨0x07010C, 4, 0x20, 1, 0x0, .none, 0x0, 0x0, 0x0, 0x0, 0x0, 0xFFFFFFFF, 0x0⟩ -- CS_ENC_VFAIL
]

/-- The registers of block 0x08 (R520). -/
def regSpecs08 : List RegSpec := [
  ⟨0x080000, 8, 0x800, 1, 0x0, .none, 0x3FFF07, 0x0, 0x0, 0x0, 0x0, 0x0, 0x3⟩, -- SC_BAR_CFG
  ⟨0x080004, 8, 0x800, 1, 0x0, .none, 0x3FFFF, 0x0, 0x0, 0x0, 0x0, 0x0, 0x27100⟩, -- SC_BAR_MAXRATE
  ⟨0x080008, 8, 0x800, 1, 0x0, .none, 0xFF, 0x0, 0x0, 0x0, 0x0, 0x300, 0x14⟩, -- SC_BAR_OVS
  ⟨0x08000C, 8, 0x800, 1, 0x0, .none, 0x0, 0x0, 0x0, 0x0, 0x0, 0x3FFFF, 0x27100⟩, -- SC_BAR_EFFMAX
  ⟨0x080010, 8, 0x800, 1, 0x0, .none, 0xFFFFFFFF, 0x0, 0x0, 0x0, 0x0, 0x0, 0x0⟩, -- SC_BAR_APPLY_LINE
  ⟨0x080014, 8, 0x800, 1, 0x0, .none, 0x1FF, 0x0, 0x0, 0x200, 0x0, 0x1C00, 0x0⟩, -- SC_BAR_APPLY_CTRL
  ⟨0x080018, 8, 0x800, 1, 0x0, .none, 0x0, 0x0, 0x0, 0x0, 0x0, 0x1FFFF, 0x0⟩, -- SC_BAR_MISSING
  ⟨0x08001C, 8, 0x800, 1, 0x0, .none, 0x0, 0x0, 0x0, 0x0, 0x0, 0x1FFFF, 0x0⟩, -- SC_BAR_WEAK
  ⟨0x080020, 8, 0x800, 1, 0x0, .none, 0x0, 0x0, 0x0, 0x0, 0x0, 0x7FFFFF, 0x0⟩, -- SC_BAR_GEOM
  ⟨0x080024, 8, 0x800, 1, 0x0, .none, 0x0, 0x0, 0x0, 0x0, 0x0, 0xFFFFFFFF, 0x0⟩, -- SC_BAR_DECIM
  ⟨0x080028, 8, 0x800, 1, 0x0, .none, 0xFFFFFFFF, 0x0, 0x0, 0x0, 0x0, 0x0, 0x6D492400⟩, -- SC_BAR_VOL_LO
  ⟨0x08002C, 8, 0x800, 1, 0x0, .none, 0xFFFFFFFF, 0x0, 0x0, 0x0, 0x0, 0x0, 0xFFDBB692⟩, -- SC_BAR_VOL_HI
  ⟨0x080030, 8, 0x800, 1, 0x0, .none, 0x0, 0x0, 0x0, 0x0, 0x0, 0xFFFFFFFF, 0x0⟩, -- SC_BAR_APPLY_CNT
  ⟨0x080034, 8, 0x800, 1, 0x0, .none, 0x0, 0x0, 0x0, 0x0, 0x0, 0xFFFFFFFF, 0x0⟩, -- SC_BAR_OVS_LATE
  ⟨0x080100, 8, 0x800, 12, 0x8, .none, 0x3FFFF, 0x0, 0x0, 0x0, 0x0, 0x0, 0x0⟩, -- SC_BAR_SEG_COL
  ⟨0x080104, 8, 0x800, 12, 0x8, .none, 0x3FFF, 0x0, 0x0, 0x0, 0x0, 0x0, 0x0⟩, -- SC_BAR_SEG_SLOTS
  ⟨0x080180, 8, 0x800, 11, 0x4, .none, 0x0, 0x0, 0x0, 0x0, 0x0, 0x3FFFFFF, 0x0⟩, -- SC_BAR_OVL
  ⟨0x084000, 1, 0x0, 1, 0x0, .tick, 0x0, 0x1FFFFF, 0x0, 0x0, 0x0, 0x0, 0x10000⟩, -- SC_TAP_CTRL
  ⟨0x084004, 1, 0x0, 1, 0x0, .none, 0x0, 0x0, 0x0, 0x0, 0x0, 0xFFFFFFFF, 0x0⟩, -- SC_TAP_STAT
  ⟨0x084008, 1, 0x0, 1, 0x0, .none, 0x0, 0x0, 0x0, 0x0, 0x0, 0xFFFF, 0x0⟩ -- SC_TAP_MISS
]

/-- The registers of block 0x09 (R520). -/
def regSpecs09 : List RegSpec := [
  ⟨0x090000, 1, 0x0, 1, 0x0, .none, 0x3FF, 0x0, 0x0, 0x400, 0x0, 0x0, 0x100⟩, -- BY_CTRL
  ⟨0x090004, 1, 0x0, 1, 0x0, .none, 0x0, 0x0, 0x0, 0x0, 0x0, 0xFF03, 0x0⟩, -- BY_STAT
  ⟨0x090008, 1, 0x0, 1, 0x0, .none, 0xFFFF, 0x0, 0x0, 0x0, 0x0, 0x0, 0x28F⟩, -- BY_SOLVE_CFG
  ⟨0x09000C, 1, 0x0, 1, 0x0, .none, 0xFFFFFFFF, 0x0, 0x0, 0x0, 0x0, 0x0, 0x7A120⟩, -- BY_EXC_MIN
  ⟨0x090010, 1, 0x0, 1, 0x0, .none, 0xFFFFFFF, 0x0, 0x0, 0x0, 0x0, 0x0, 0x4001005⟩, -- BY_GAIN_CFG
  ⟨0x090014, 1, 0x0, 1, 0x0, .none, 0xFFFFFFFF, 0x0, 0x0, 0x0, 0x0, 0x0, 0x403B3533⟩, -- BY_NOZ_CFG
  ⟨0x090018, 1, 0x0, 1, 0x0, .none, 0xFFFFFF, 0x0, 0x0, 0x0, 0x0, 0x0, 0x3C46⟩, -- BY_WHITE_CFG
  ⟨0x09001C, 1, 0x0, 1, 0x0, .none, 0xFFFFFF, 0x0, 0x0, 0x0, 0x0, 0x0, 0x4003E8⟩, -- BY_APPLY_CFG
  ⟨0x090020, 1, 0x0, 1, 0x0, .none, 0xFFFFFF, 0x0, 0x0, 0x0, 0x0, 0x0, 0x4080⟩, -- BY_REG_CFG
  ⟨0x090024, 1, 0x0, 1, 0x0, .none, 0xFFFF, 0x0, 0x0, 0x0, 0x0, 0x0, 0x96⟩, -- BY_DEV_CFG
  ⟨0x090030, 1, 0x0, 1, 0x0, .tick, 0x0, 0x3FFFFFF, 0x0, 0x0, 0x0, 0x0, 0x404081⟩, -- BY_STRIP_CFG
  ⟨0x090034, 1, 0x0, 1, 0x0, .tick, 0x0, 0xFFFFFFFF, 0x0, 0x0, 0x0, 0x0, 0x1E02A00⟩, -- BY_STRIP_CFG2
  ⟨0x090038, 1, 0x0, 1, 0x0, .none, 0x0, 0x0, 0x0, 0xFF, 0x0, 0x0, 0x0⟩, -- BY_STRIP_CTRL
  ⟨0x09003C, 1, 0x0, 1, 0x0, .none, 0x0, 0x0, 0x0, 0x0, 0x0, 0xFFFFFFFF, 0x0⟩, -- BY_STRIP_STAT
  ⟨0x090040, 1, 0x0, 1, 0x0, .none, 0x0, 0x0, 0x0, 0x0, 0x0, 0xFFFFFFFF, 0x0⟩, -- BY_OBS_STAT
  ⟨0x090044, 1, 0x0, 1, 0x0, .none, 0x0, 0x0, 0x0, 0x0, 0x0, 0x1FFFF, 0x0⟩, -- BY_OBS_STAT2
  ⟨0x090048, 1, 0x0, 1, 0x0, .none, 0x0, 0x0, 0x0, 0x0, 0x0, 0xFFFFFFFF, 0x0⟩, -- BY_SOLVE_STAT
  ⟨0x090100, 4, 0x10, 4, 0x4, .gap, 0x0, 0xFFFFFFFF, 0x0, 0x0, 0x0, 0x0, 0x0⟩, -- BY_SENS
  ⟨0x091000, 8, 0x100, 1, 0x0, .none, 0xFFFFFFF1, 0x0, 0x0, 0x0, 0x0, 0x0, 0x80008001⟩, -- BY_BAR_CFG
  ⟨0x091004, 8, 0x100, 1, 0x0, .none, 0x0, 0x0, 0x0, 0x0, 0x0, 0xFFFFFFFF, 0x8000⟩, -- BY_BAR_REF
  ⟨0x091008, 8, 0x100, 1, 0x0, .none, 0x0, 0x0, 0x0, 0x0, 0x0, 0xFFFF, 0x0⟩, -- BY_BAR_RESID
  ⟨0x09100C, 8, 0x100, 1, 0x0, .none, 0x0, 0x0, 0x0, 0x0, 0x0, 0xFFFFFFFF, 0x0⟩, -- BY_BAR_SOLVES
  ⟨0x091010, 8, 0x100, 1, 0x0, .none, 0x0, 0x0, 0x0, 0x0, 0x0, 0xFFFFFFFF, 0x0⟩, -- BY_BAR_LAST_LO
  ⟨0x091014, 8, 0x100, 1, 0x0, .none, 0x0, 0x0, 0x0, 0x0, 0x0, 0xFFFFFFFF, 0x0⟩, -- BY_BAR_LAST_HI
  ⟨0x091018, 8, 0x100, 1, 0x0, .none, 0x0, 0x0, 0x0, 0x0, 0x0, 0x1FFFF, 0x0⟩, -- BY_BAR_DEV
  ⟨0x09101C, 8, 0x100, 1, 0x0, .none, 0x0, 0x0, 0x0, 0x0, 0x0, 0xFFFFFFF, 0x0⟩, -- BY_BAR_NOZ
  ⟨0x091020, 8, 0x100, 1, 0x0, .none, 0x4, 0x0, 0x0, 0x3, 0x0, 0x0, 0x0⟩, -- BY_BAR_CTRL
  ⟨0x091024, 8, 0x100, 1, 0x0, .none, 0x0, 0x0, 0x0, 0x0, 0x0, 0xFFFFFFFF, 0x0⟩ -- BY_BAR_APPLY
]

/-- The registers of block 0x0A (R520). -/
def regSpecs0A : List RegSpec := [
  ⟨0x0A0000, 16, 0x200, 1, 0x0, .tick, 0x0, 0xFFF, 0x0, 0x0, 0x0, 0x0, 0x424⟩, -- CM_CTX_CFG
  ⟨0x0A0004, 16, 0x200, 1, 0x0, .tick, 0x0, 0xFFFFFF, 0x0, 0x0, 0x0, 0x0, 0xFE000⟩, -- CM_CTX_GEOM
  ⟨0x0A0008, 16, 0x200, 1, 0x0, .tick, 0x0, 0x3FFF, 0x0, 0x0, 0x0, 0x0, 0x2EE0⟩, -- CM_CTX_RATE
  ⟨0x0A000C, 16, 0x200, 1, 0x0, .tick, 0x0, 0xFFFFFFFF, 0x0, 0x0, 0x0, 0x0, 0x0⟩, -- CM_CTX_LAT
  ⟨0x0A0010, 16, 0x200, 1, 0x0, .tick, 0x0, 0xFFFFFFFF, 0x0, 0x0, 0x0, 0x0, 0x0⟩, -- CM_CTX_OFS
  ⟨0x0A0014, 16, 0x200, 1, 0x0, .tick, 0x0, 0xFFF0FFF, 0x0, 0x0, 0x0, 0x0, 0x0⟩, -- CM_CTX_BLACK01
  ⟨0x0A0018, 16, 0x200, 1, 0x0, .tick, 0x0, 0xFFF0FFF, 0x0, 0x0, 0x0, 0x0, 0x0⟩, -- CM_CTX_BLACK23
  ⟨0x0A0020, 16, 0x200, 6, 0x4, .tick, 0x0, 0xFFFFFFFF, 0x0, 0x0, 0x0, 0x0, 0x0⟩, -- CM_CTX_M
  ⟨0x0A0040, 16, 0x200, 1, 0x0, .tick, 0x0, 0x7FFFFFFF, 0x0, 0x0, 0x0, 0x0, 0x40000000⟩, -- CM_CTX_MAP_X
  ⟨0x0A0044, 16, 0x200, 1, 0x0, .tick, 0x0, 0xFFFFFFFF, 0x0, 0x0, 0x0, 0x0, 0x0⟩, -- CM_CTX_MAP_P0
  ⟨0x0A0048, 16, 0x200, 1, 0x0, .tick, 0x0, 0xFFFFFF, 0x0, 0x0, 0x0, 0x0, 0x400000⟩, -- CM_CTX_MAP_PX
  ⟨0x0A004C, 16, 0x200, 1, 0x0, .tick, 0x0, 0xFFFFFFFF, 0x0, 0x0, 0x0, 0x0, 0x0⟩, -- CM_CTX_MAP_P2
  ⟨0x0A0060, 16, 0x200, 1, 0x0, .none, 0x0, 0x0, 0x0, 0x0, 0x0, 0x1FFFF, 0x0⟩, -- CM_CTX_STAT
  ⟨0x0A0064, 16, 0x200, 1, 0x0, .none, 0x0, 0x0, 0x0, 0x0, 0x0, 0xFFFFFFFF, 0x0⟩, -- CM_CTX_DROP1
  ⟨0x0A0068, 16, 0x200, 1, 0x0, .none, 0x0, 0x0, 0x0, 0x0, 0x0, 0xFFFFFFFF, 0x0⟩, -- CM_CTX_DROP2
  ⟨0x0A006C, 16, 0x200, 1, 0x0, .none, 0x0, 0x0, 0x0, 0x0, 0x0, 0xFFFFFFFF, 0x0⟩, -- CM_CTX_DROP3
  ⟨0x0A2000, 4, 0x20, 1, 0x0, .tick, 0x0, 0x1FFF0007, 0x0, 0x0, 0x0, 0x0, 0x11940004⟩, -- CM_PORT_CFG
  ⟨0x0A2004, 4, 0x20, 1, 0x0, .none, 0x0, 0x0, 0x0, 0x0, 0x0, 0xFFFFFFFF, 0x0⟩, -- CM_PORT_ERR
  ⟨0x0A2008, 4, 0x20, 1, 0x0, .none, 0x0, 0x0, 0x0, 0x0, 0x0, 0xFFFFFFFF, 0x0⟩, -- CM_PORT_ERR2
  ⟨0x0A2080, 1, 0x0, 1, 0x0, .none, 0x0, 0x0, 0x0, 0x0, 0x0, 0xF, 0x0⟩, -- CM_CFG_STAT
  ⟨0x0A2084, 1, 0x0, 1, 0x0, .none, 0x0, 0x0, 0x0, 0x0, 0x0, 0xFFFF001F, 0x0⟩, -- CM_PIPE_STAT
  ⟨0x0A2100, 1, 0x0, 1, 0x0, .tick, 0x0, 0xFFFF00FF, 0x0, 0x0, 0x0, 0x0, 0x80000000⟩, -- CM_MARK_CFG
  ⟨0x0A2104, 1, 0x0, 1, 0x0, .tick, 0x0, 0x7FFFFFF, 0x0, 0x0, 0x0, 0x0, 0x0⟩, -- CM_MARK_WIN
  ⟨0x0A2108, 1, 0x0, 1, 0x0, .tick, 0x0, 0xFFFFFF, 0x0, 0x0, 0x0, 0x0, 0x0⟩, -- CM_MARK_SEARCH
  ⟨0x0A210C, 1, 0x0, 1, 0x0, .none, 0x0, 0x0, 0x0, 0x0, 0x0, 0xFFFF00FF, 0x0⟩, -- CM_MARK_STAT
  ⟨0x0A2120, 8, 0x4, 1, 0x0, .tick, 0x0, 0xFFFFFFFF, 0x0, 0x0, 0x0, 0x0, 0x0⟩, -- CM_MARK_POS
  ⟨0x0A2140, 8, 0x4, 1, 0x0, .none, 0x0, 0x0, 0x0, 0x0, 0x0, 0xFFFFFFFF, 0x0⟩, -- CM_MARK_ERR
  ⟨0x0A2180, 1, 0x0, 1, 0x0, .tick, 0x0, 0x1FFFFFFF, 0x0, 0x0, 0x0, 0x0, 0x10280140⟩, -- CM_PROOF_CFG
  ⟨0x0A2184, 1, 0x0, 1, 0x0, .tick, 0x0, 0xFFFF, 0x0, 0x0, 0x0, 0x0, 0x64⟩, -- CM_PROOF_DUE
  ⟨0x0A2188, 1, 0x0, 1, 0x0, .none, 0x0, 0x0, 0x0, 0x0, 0x0, 0xFFFFFFFF, 0x0⟩, -- CM_PROOF_STAT
  ⟨0x0A218C, 1, 0x0, 1, 0x0, .none, 0x0, 0x0, 0x0, 0x0, 0x0, 0xFFFFFFFF, 0x0⟩ -- CM_PROOF_STAT2
]

/-- The registers of block 0x0B (R520). -/
def regSpecs0B : List RegSpec := [
  ⟨0x0B0000, 1, 0x0, 1, 0x0, .none, 0xFF, 0x0, 0x0, 0x0, 0x0, 0x0, 0x0⟩, -- FS_BAR_EN
  ⟨0x0B0004, 1, 0x0, 1, 0x0, .none, 0x0, 0x0, 0x0, 0x0, 0x0, 0x11F, 0x0⟩, -- FS_SAFE_STAT
  ⟨0x0B0008, 1, 0x0, 1, 0x0, .none, 0x1, 0x0, 0x0, 0x2, 0x0, 0x0, 0x0⟩, -- FS_SAFE_CTRL
  ⟨0x0B000C, 1, 0x0, 1, 0x0, .none, 0xFFFFFF01, 0x0, 0x0, 0x0, 0x0, 0x0, 0x640A00⟩, -- FS_INH_CFG
  ⟨0x0B0010, 1, 0x0, 1, 0x0, .none, 0x0, 0x0, 0x0, 0xFF, 0x0, 0x0, 0x0⟩, -- FS_WD_CLR
  ⟨0x0B0014, 1, 0x0, 1, 0x0, .none, 0x0, 0x0, 0x0, 0x0, 0x0, 0xFFFFF, 0x0⟩, -- FS_PIN_STAT
  ⟨0x0B0020, 1, 0x0, 1, 0x0, .none, 0x0, 0x0, 0x0, 0x0, 0x0, 0xFFFF007F, 0x0⟩, -- FS_WM_STAT
  ⟨0x0B0100, 8, 0x10, 1, 0x0, .none, 0x7FF07FF, 0x0, 0x0, 0x0, 0x0, 0x0, 0x1F4012C⟩, -- FS_BAR_STB
  ⟨0x0B0104, 8, 0x10, 1, 0x0, .none, 0x0, 0x0, 0x0, 0x0, 0x0, 0xFFFF0007, 0x0⟩, -- FS_BAR_WD
  ⟨0x0B0108, 8, 0x10, 1, 0x0, .none, 0x0, 0x0, 0x0, 0x0, 0x0, 0xFFFFFFFF, 0x0⟩, -- FS_BAR_WD_TIME
  ⟨0x0B0200, 2, 0x10, 1, 0x0, .none, 0xFFFF00FF, 0x0, 0x0, 0x0, 0x0, 0x0, 0xFF⟩, -- FS_WM_CFG
  ⟨0x0B0204, 2, 0x10, 1, 0x0, .none, 0xFFFFFFFF, 0x0, 0x0, 0x0, 0x0, 0x0, 0x0⟩ -- FS_WM_OFS
]

/-- The registers of block 0x0C (R520). -/
def regSpecs0C : List RegSpec := [
  ⟨0x0C0000, 96, 0x100, 1, 0x0, .none, 0xFFFF, 0x0, 0x0, 0x0, 0x0, 0x0, 0xFF2E⟩, -- LANE_CFG
  ⟨0x0C0004, 96, 0x100, 1, 0x0, .none, 0x0, 0x0, 0x0, 0x0, 0x0, 0xFFFFFFFF, 0x30⟩, -- LANE_STAT
  ⟨0x0C0008, 96, 0x100, 1, 0x0, .none, 0x0, 0x0, 0x0, 0x0, 0x0, 0x8003FFFF, 0x0⟩, -- LANE_EYE
  ⟨0x0C000C, 96, 0x100, 1, 0x0, .none, 0x0, 0x0, 0x0, 0x0, 0x0, 0xFFFFFFFF, 0x0⟩, -- LANE_ERR
  ⟨0x0C0010, 96, 0x100, 1, 0x0, .none, 0x0, 0x0, 0x0, 0x0, 0x0, 0xFFFFFFFF, 0x0⟩, -- LANE_CNT
  ⟨0x0C0014, 96, 0x100, 1, 0x0, .none, 0x0, 0x0, 0x0, 0x0, 0x0, 0xFFFFFFFF, 0x0⟩, -- LANE_FAILS
  ⟨0x0C0018, 96, 0x100, 1, 0x0, .none, 0x0, 0x0, 0x0, 0x0, 0x0, 0x1FFFFFFF, 0x0⟩, -- LANE_RXEQ
  ⟨0x0C001C, 96, 0x100, 1, 0x0, .none, 0x1F3F1F, 0x0, 0x0, 0x0, 0x0, 0x0, 0x2000⟩, -- LANE_TXEQ
  ⟨0x0C0020, 96, 0x100, 1, 0x0, .none, 0x0, 0x0, 0x0, 0x0, 0x0, 0xFFFFFFFF, 0x0⟩, -- LANE_PWR_STAT
  ⟨0x0C0024, 96, 0x100, 1, 0x0, .none, 0x0, 0x0, 0x0, 0x1, 0x0, 0x2, 0x0⟩, -- LANE_SCAN_CTRL
  ⟨0x0C0028, 96, 0x100, 1, 0x0, .none, 0x0, 0x0, 0x0, 0x0, 0x0, 0xFFFFFFFF, 0x0⟩, -- LANE_UNSENT
  ⟨0x0C8000, 1, 0x0, 1, 0x0, .none, 0x3FFFFFF, 0x0, 0x0, 0x0, 0x0, 0x0, 0x281608⟩, -- JL_TRAIN_CFG
  ⟨0x0C8004, 1, 0x0, 1, 0x0, .none, 0xFFFFFFFF, 0x0, 0x0, 0x0, 0x0, 0x0, 0x3E803E8⟩, -- JL_PWR_CFG
  ⟨0x0C8008, 1, 0x0, 1, 0x0, .none, 0xFFFF, 0x0, 0x0, 0x0, 0x0, 0x0, 0x3E8⟩, -- JL_SCAN_CFG
  ⟨0x0C8010, 3, 0x4, 1, 0x0, .none, 0x0, 0x0, 0x0, 0x0, 0x0, 0xFFFFFFFF, 0x0⟩, -- JL_READY
  ⟨0x0C8020, 3, 0x4, 1, 0x0, .none, 0x0, 0x0, 0xFFFFFFFF, 0x0, 0x0, 0x0, 0x0⟩, -- JL_LOST
  ⟨0x0C0040, 96, 0x100, 1, 0x0, .none, 0x0, 0x0, 0x0, 0x0, 0x0, 0xFFFFFFFF, 0x0⟩, -- JL_STAT
  ⟨0x0C0044, 96, 0x100, 1, 0x0, .none, 0x0, 0x0, 0x0, 0x0, 0x0, 0xFFFFFF, 0x0⟩, -- JL_SEQ
  ⟨0x0C0048, 96, 0x100, 1, 0x0, .none, 0x0, 0x0, 0x0, 0x0, 0x0, 0xFFFFFFFF, 0x0⟩, -- JL_OUT
  ⟨0x0C004C, 96, 0x100, 1, 0x0, .none, 0x0, 0x0, 0x0, 0x0, 0x0, 0x80FFFFFF, 0x0⟩, -- JL_LAT
  ⟨0x0C0050, 96, 0x100, 1, 0x0, .none, 0x0, 0x0, 0x0, 0x0, 0x0, 0xFFFFFFFF, 0x0⟩, -- JL_TERR
  ⟨0x0C0054, 96, 0x100, 1, 0x0, .none, 0x0, 0x0, 0x0, 0x0, 0x0, 0xFFFFFFFF, 0x0⟩, -- JL_HDM
  ⟨0x0C0058, 96, 0x100, 1, 0x0, .none, 0x0, 0x0, 0x0, 0x0, 0x0, 0xFFFFFFFF, 0x80008000⟩, -- JL_TEMP01
  ⟨0x0C005C, 96, 0x100, 1, 0x0, .none, 0x0, 0x0, 0x0, 0x0, 0x0, 0xFFFFFFFF, 0x80008000⟩, -- JL_TEMP23
  ⟨0x0C0060, 96, 0x100, 1, 0x0, .none, 0x0, 0x0, 0x0, 0x0, 0x0, 0xFFFF7FFF, 0x0⟩, -- JL_BAND
  ⟨0x0C0064, 96, 0x100, 1, 0x0, .none, 0x0, 0x0, 0x0, 0x0, 0x0, 0xFFFFFFFF, 0x0⟩, -- JL_HDM_CNT0
  ⟨0x0C0068, 96, 0x100, 1, 0x0, .none, 0x0, 0x0, 0x0, 0x0, 0x0, 0xFFFFFFFF, 0x0⟩, -- JL_HDM_CNT1
  ⟨0x0C006C, 96, 0x100, 1, 0x0, .none, 0x0, 0x0, 0x0, 0x0, 0x0, 0xFFFFFFFF, 0x0⟩, -- JL_HDM_CNT2
  ⟨0x0C0070, 96, 0x100, 1, 0x0, .none, 0x0, 0x0, 0x0, 0x0, 0x0, 0xFFFFFFFF, 0x0⟩, -- JL_ACC_CLAIM
  ⟨0x0C0074, 96, 0x100, 1, 0x0, .none, 0x0, 0x0, 0x0, 0x0, 0x0, 0x7FFFFFF, 0x0⟩, -- JL_HDM_FLAGS
  ⟨0x0C0078, 96, 0x100, 1, 0x0, .none, 0x0, 0x0, 0x0, 0x0, 0x0, 0xFFFFFFFF, 0x0⟩, -- JL_RT_CNT
  ⟨0x0C007C, 96, 0x100, 1, 0x0, .none, 0x0, 0x0, 0x0, 0x0, 0x0, 0x1FFFFF, 0x0⟩, -- JL_CTL_STAT
  ⟨0x0C8030, 1, 0x0, 1, 0x0, .tick, 0x0, 0x1FFF, 0x0, 0x0, 0x0, 0x0, 0xA0A⟩, -- JL_RT_CFG
  ⟨0x0C8034, 1, 0x0, 1, 0x0, .none, 0x3FFF, 0x0, 0x0, 0x0, 0x0, 0x0, 0xC8⟩, -- JL_STAT_CFG
  ⟨0x0C8038, 1, 0x0, 1, 0x0, .none, 0xFFFF, 0x0, 0x0, 0x0, 0x0, 0x0, 0x0⟩, -- JL_LAT_ASYM
  ⟨0x0C8040, 3, 0x4, 1, 0x0, .none, 0x0, 0x0, 0xFFFFFFFF, 0x0, 0x0, 0x0, 0x0⟩, -- JL_MM
  ⟨0x0C9000, 8, 0x40, 1, 0x0, .none, 0x1FFFF, 0x0, 0x0, 0x0, 0x0, 0x0, 0x0⟩, -- JL_HC_ID
  ⟨0x0C9004, 8, 0x40, 8, 0x4, .none, 0x1FFFFFF, 0x0, 0x0, 0x0, 0x0, 0x0, 0x0⟩ -- JL_HC_BAND
]

/-- The registers of block 0x0D (R520). -/
def regSpecs0D : List RegSpec := [
  ⟨0x0D0800, 4, 0x100, 1, 0x0, .none, 0xFFFF, 0x0, 0x0, 0x0, 0x0, 0x0, 0xFF2E⟩, -- LANE_CFG
  ⟨0x0D0804, 4, 0x100, 1, 0x0, .none, 0x0, 0x0, 0x0, 0x0, 0x0, 0xFFFFFFFF, 0x30⟩, -- LANE_STAT
  ⟨0x0D0808, 4, 0x100, 1, 0x0, .none, 0x0, 0x0, 0x0, 0x0, 0x0, 0x8003FFFF, 0x0⟩, -- LANE_EYE
  ⟨0x0D080C, 4, 0x100, 1, 0x0, .none, 0x0, 0x0, 0x0, 0x0, 0x0, 0xFFFFFFFF, 0x0⟩, -- LANE_ERR
  ⟨0x0D0810, 4, 0x100, 1, 0x0, .none, 0x0, 0x0, 0x0, 0x0, 0x0, 0xFFFFFFFF, 0x0⟩, -- LANE_CNT
  ⟨0x0D0814, 4, 0x100, 1, 0x0, .none, 0x0, 0x0, 0x0, 0x0, 0x0, 0xFFFFFFFF, 0x0⟩, -- LANE_FAILS
  ⟨0x0D0818, 4, 0x100, 1, 0x0, .none, 0x0, 0x0, 0x0, 0x0, 0x0, 0x1FFFFFFF, 0x0⟩, -- LANE_RXEQ
  ⟨0x0D081C, 4, 0x100, 1, 0x0, .none, 0x1F3F1F, 0x0, 0x0, 0x0, 0x0, 0x0, 0x2000⟩, -- LANE_TXEQ
  ⟨0x0D0820, 4, 0x100, 1, 0x0, .none, 0x0, 0x0, 0x0, 0x0, 0x0, 0xFFFFFFFF, 0x0⟩, -- LANE_PWR_STAT
  ⟨0x0D0824, 4, 0x100, 1, 0x0, .none, 0x0, 0x0, 0x0, 0x1, 0x0, 0x2, 0x0⟩, -- LANE_SCAN_CTRL
  ⟨0x0D0828, 4, 0x100, 1, 0x0, .none, 0x0, 0x0, 0x0, 0x0, 0x0, 0xFFFFFFFF, 0x0⟩, -- LANE_UNSENT
  ⟨0x0D0000, 1, 0x0, 1, 0x0, .none, 0xFFFFFF, 0x0, 0x0, 0x0, 0x0, 0x0, 0x401F4⟩, -- PR_CFG
  ⟨0x0D0004, 1, 0x0, 1, 0x0, .none, 0x0, 0x0, 0x0, 0x0, 0x0, 0x3FFFFF, 0xF⟩, -- PR_STAT
  ⟨0x0D0008, 1, 0x0, 1, 0x0, .none, 0x0, 0x0, 0x0, 0x0, 0x0, 0xFFFFFFFF, 0x0⟩, -- PR_CLAIM
  ⟨0x0D000C, 1, 0x0, 1, 0x0, .none, 0x0, 0x0, 0x0, 0x0, 0x0, 0xFFFFFFFF, 0x0⟩, -- PR_PARTNER_CLAIM
  ⟨0x0D0010, 1, 0x0, 1, 0x0, .none, 0x0, 0x0, 0x0, 0x0, 0x0, 0xFFFFFFFF, 0x0⟩, -- PR_ACC_CLAIM
  ⟨0x0D0014, 1, 0x0, 1, 0x0, .none, 0x0, 0x0, 0x0, 0x7, 0x0, 0x0, 0x0⟩, -- PR_CTRL
  ⟨0x0D0020, 1, 0x0, 1, 0x0, .none, 0x0, 0x0, 0x0, 0x0, 0x0, 0xFFFFFFFF, 0x0⟩, -- PR_HB_CNT
  ⟨0x0D0024, 1, 0x0, 1, 0x0, .none, 0x0, 0x0, 0x0, 0x0, 0x0, 0xFFFFFFFF, 0x0⟩, -- PR_LINK_CNT
  ⟨0x0D0028, 1, 0x0, 1, 0x0, .none, 0x0, 0x0, 0x0, 0x0, 0x0, 0xFFFFFFFF, 0x0⟩, -- PR_LINK_ERR
  ⟨0x0D0030, 1, 0x0, 1, 0x0, .none, 0x0, 0x0, 0x0, 0x0, 0x0, 0xFFFF00FF, 0x0⟩, -- PR_TS_STAT
  ⟨0x0D0034, 1, 0x0, 1, 0x0, .none, 0x0, 0x0, 0x0, 0x0, 0x0, 0xFFFFF, 0x0⟩, -- PR_TAKEOVER
  ⟨0x0D0038, 1, 0x0, 1, 0x0, .none, 0x0, 0x0, 0x0, 0x0, 0x0, 0xFFFFFFFF, 0x0⟩, -- PR_TAKEOVER_T_LO
  ⟨0x0D003C, 1, 0x0, 1, 0x0, .none, 0x0, 0x0, 0x0, 0x0, 0x0, 0xFFFFFFFF, 0x0⟩, -- PR_TAKEOVER_T_HI
  ⟨0x0D0040, 1, 0x0, 1, 0x0, .none, 0x0, 0x0, 0x0, 0x0, 0x0, 0xFFFFFFFF, 0x0⟩, -- PR_GARNET_STAT
  ⟨0x0D0044, 1, 0x0, 1, 0x0, .none, 0x0, 0x0, 0x0, 0x0, 0x0, 0xFFFFFFFF, 0x0⟩, -- PR_GARNET_LAST
  ⟨0x0D0048, 1, 0x0, 1, 0x0, .none, 0x0, 0x0, 0x0, 0x0, 0x0, 0xFFFFFFFF, 0x0⟩, -- PR_GARNET_CHECKS
  ⟨0x0D004C, 1, 0x0, 1, 0x0, .none, 0x0, 0x0, 0x0, 0x0, 0x0, 0xFFFFFFFF, 0x0⟩, -- PR_MM_STAT
  ⟨0x0D0050, 3, 0x4, 1, 0x0, .none, 0x0, 0x0, 0x0, 0x0, 0x0, 0xFFFFFFFF, 0x0⟩ -- PR_PARTNER_READY
]

/-- The registers of block 0x0E (R520). -/
def regSpecs0E : List RegSpec := [
  ⟨0x0E0810, 1, 0x0, 1, 0x0, .none, 0xFFFF, 0x0, 0x0, 0x0, 0x0, 0x0, 0xCDE6⟩, -- HP_DBT_PORT
  ⟨0x0E0800, 1, 0x0, 1, 0x0, .none, 0x0, 0x0, 0x0, 0x0, 0x0, 0xFFFFFFFF, 0x0⟩, -- HP_DBT_ACKS
  ⟨0x0E0804, 1, 0x0, 1, 0x0, .none, 0x0, 0x0, 0x0, 0x0, 0x0, 0xFFFFFFFF, 0x0⟩, -- HP_DBT_NAKS
  ⟨0x0E0808, 1, 0x0, 1, 0x0, .none, 0x0, 0x0, 0x0, 0x0, 0x0, 0xFFFFFFFF, 0x0⟩, -- HP_DBT_DROP
  ⟨0x0E080C, 1, 0x0, 1, 0x0, .none, 0x0, 0x0, 0x0, 0x0, 0x0, 0x7FF, 0x0⟩, -- HP_DBT_INFLIGHT
  ⟨0x0E0A00, 1, 0x0, 1, 0x0, .none, 0xFF1F, 0x0, 0x0, 0x0, 0x0, 0x0, 0x1D⟩, -- HP_PTP_CFG
  ⟨0x0E0A04, 1, 0x0, 1, 0x0, .none, 0xFFFFFFFF, 0x0, 0x0, 0x0, 0x0, 0x0, 0x0⟩, -- HP_PTP_LAT0
  ⟨0x0E0A08, 1, 0x0, 1, 0x0, .none, 0xFFFFFFFF, 0x0, 0x0, 0x0, 0x0, 0x0, 0x0⟩, -- HP_PTP_LAT1
  ⟨0x0E0A10, 1, 0x0, 1, 0x0, .none, 0x0, 0x0, 0x0, 0x0, 0x0, 0xFFFF003F, 0x0⟩, -- HP_PTP_RXQ_STAT
  ⟨0x0E0A14, 1, 0x0, 1, 0x0, .none, 0x0, 0x0, 0x0, 0x1, 0x0, 0x0, 0x0⟩, -- HP_PTP_RXQ_CTRL
  ⟨0x0E0A18, 1, 0x0, 1, 0x0, .none, 0x7FE, 0x0, 0x0, 0x1, 0x0, 0x800, 0x2C0⟩, -- HP_PTP_TX_CTRL
  ⟨0x0E0A1C, 1, 0x0, 1, 0x0, .none, 0x0, 0x0, 0x0, 0x0, 0x0, 0xFFFFFFFF, 0x0⟩, -- HP_PTP_TX_STAMP_LO
  ⟨0x0E0A20, 1, 0x0, 1, 0x0, .none, 0x0, 0x0, 0x0, 0x0, 0x0, 0xFFFFFFFF, 0x0⟩, -- HP_PTP_TX_STAMP_HI
  ⟨0x0E0A24, 1, 0x0, 1, 0x0, .none, 0x0, 0x0, 0x80000000, 0x0, 0x0, 0x7FFFFFFF, 0x0⟩, -- HP_PTP_TX_STAT
  ⟨0x0E0A30, 1, 0x0, 1, 0x0, .none, 0x0, 0x0, 0x0, 0x0, 0x0, 0xFFFFFFFF, 0x0⟩, -- HP_PTP_TC_CNT
  ⟨0x0E0A34, 1, 0x0, 1, 0x0, .none, 0x0, 0x0, 0x0, 0x0, 0x0, 0xFFFFFFFF, 0x0⟩, -- HP_FWD_DROP
  ⟨0x0E0000, 1, 0x0, 1, 0x0, .none, 0x1FFFF, 0x0, 0x0, 0x0, 0x0, 0x0, 0xCDDC⟩, -- HP_DCP_CFG
  ⟨0x0E0004, 1, 0x0, 1, 0x0, .none, 0x0, 0x0, 0x0, 0x0, 0x0, 0xFFFFFFFF, 0x0⟩, -- HP_DCP_STAT
  ⟨0x0E0008, 1, 0x0, 1, 0x0, .none, 0x0, 0x0, 0x0, 0x0, 0x0, 0xFFFFFFFF, 0x0⟩, -- HP_DCP_ERR
  ⟨0x0E000C, 1, 0x0, 1, 0x0, .none, 0x0, 0x0, 0x0, 0x0, 0x0, 0xFFFFFFFF, 0x0⟩, -- HP_DCP_CONFLICT
  ⟨0x0E0010, 1, 0x0, 1, 0x0, .none, 0x0, 0x0, 0x0, 0x0, 0x0, 0xFFFFFFFF, 0x0⟩, -- HP_RX_DROP
  ⟨0x0E0014, 1, 0x0, 1, 0x0, .none, 0x0, 0x0, 0x0, 0x0, 0x0, 0xFFFF0001, 0x0⟩, -- HP_MP_STAT
  ⟨0x0E0018, 1, 0x0, 1, 0x0, .none, 0x0, 0x0, 0x0, 0x0, 0x0, 0xFFFFFFFF, 0x0⟩, -- HP_BOOT_NONCE_LO
  ⟨0x0E001C, 1, 0x0, 1, 0x0, .none, 0x0, 0x0, 0x0, 0x0, 0x0, 0xFFFFFFFF, 0x0⟩, -- HP_BOOT_NONCE_HI
  ⟨0x0E0020, 1, 0x0, 1, 0x0, .none, 0x0, 0x0, 0x0, 0x0, 0xFFFFFFFF, 0x0, 0x0⟩, -- HP_MP_MAC_LO
  ⟨0x0E0024, 1, 0x0, 1, 0x0, .none, 0x0, 0x0, 0x0, 0x0, 0xFFFF, 0x0, 0x0⟩, -- HP_MP_MAC_HI
  ⟨0x0E0028, 1, 0x0, 1, 0x0, .none, 0x0, 0x0, 0x0, 0x0, 0xFFFFFFFF, 0x0, 0x0⟩, -- HP_DP_MAC_LO
  ⟨0x0E002C, 1, 0x0, 1, 0x0, .none, 0x0, 0x0, 0x0, 0x0, 0xFFFF, 0x0, 0x0⟩, -- HP_DP_MAC_HI
  ⟨0x0E0030, 1, 0x0, 1, 0x0, .none, 0x0, 0x0, 0x0, 0x0, 0xFFFFFFFF, 0x0, 0x0⟩, -- HP_MP_IP4
  ⟨0x0E0034, 1, 0x0, 1, 0x0, .none, 0x0, 0x0, 0x0, 0x0, 0xFFFFFFFF, 0x0, 0x0⟩, -- HP_DP_IP4
  ⟨0x0E0040, 4, 0x4, 1, 0x0, .none, 0x0, 0x0, 0x0, 0x0, 0xFFFFFFFF, 0x0, 0x0⟩, -- HP_MP_IP6
  ⟨0x0E0050, 4, 0x4, 1, 0x0, .none, 0x0, 0x0, 0x0, 0x0, 0xFFFFFFFF, 0x0, 0x0⟩, -- HP_DP_IP6
  ⟨0x0E0100, 4, 0x10, 1, 0x0, .none, 0x0, 0x0, 0x0, 0x0, 0x0, 0x371, 0x0⟩, -- HP_MST_CFG
  ⟨0x0E0104, 4, 0x10, 1, 0x0, .none, 0x0, 0x0, 0x0, 0x0, 0x0, 0xFFFFFFFF, 0x0⟩, -- HP_MST_CTR_LO
  ⟨0x0E0108, 4, 0x10, 1, 0x0, .none, 0x0, 0x0, 0x0, 0x0, 0x0, 0xFFFFFFFF, 0x0⟩, -- HP_MST_CTR_HI
  ⟨0x0E0180, 1, 0x0, 1, 0x0, .none, 0x0, 0x0, 0x0, 0x0, 0x0, 0xFFFF, 0x0⟩, -- HP_KEY_STAT
  ⟨0x0E0B00, 20, 0x4, 1, 0x0, .none, 0x0, 0x0, 0x0, 0x0, 0x0, 0xFFFFFFFF, 0x0⟩, -- HP_PTP_RXE
  ⟨0x0E0B80, 16, 0x4, 1, 0x0, .none, 0xFFFFFFFF, 0x0, 0x0, 0x0, 0x0, 0x0, 0x0⟩ -- HP_PTP_TXBUF
]

/-- The registers of block 0x0F (R520). -/
def regSpecs0F : List RegSpec := [
  ⟨0x0F0000, 1, 0x0, 1, 0x0, .none, 0x0, 0x0, 0x0, 0x0, 0x37, 0x0, 0x0⟩, -- MC_CFG
  ⟨0x0F0004, 1, 0x0, 1, 0x0, .none, 0x0, 0x0, 0x0, 0x0, 0x0, 0x3FF, 0x0⟩, -- MC_STAT
  ⟨0x0F0010, 1, 0x0, 1, 0x0, .none, 0x0, 0x0, 0x0, 0x0, 0x0, 0xFFFFFFFF, 0x0⟩, -- MC_ECC_CE
  ⟨0x0F0014, 1, 0x0, 1, 0x0, .none, 0x0, 0x0, 0x0, 0x0, 0x0, 0xFFFFFFFF, 0x0⟩, -- MC_ECC_UE
  ⟨0x0F0018, 1, 0x0, 1, 0x0, .none, 0x0, 0x0, 0x0, 0x0, 0x0, 0xFFFFFFFF, 0x0⟩, -- MC_ECC_UE_ADDR
  ⟨0x0F0100, 8, 0x8, 1, 0x0, .none, 0x0, 0x0, 0x0, 0x0, 0x0, 0xFFFF, 0x0⟩, -- MC_RGN_BASE
  ⟨0x0F0104, 7, 0x8, 1, 0x0, .none, 0x0, 0x0, 0x0, 0x0, 0xFFFF, 0x0, 0x0⟩, -- MC_RGN_SIZE
  ⟨0x0F013C, 1, 0x0, 1, 0x0, .none, 0x0, 0x0, 0x0, 0x0, 0x0, 0xFFFF, 0x0⟩ -- MC_RGN_SIZE7
]

/-- The registers of block 0x10 (R520). -/
def regSpecs10 : List RegSpec := [
  ⟨0x100000, 1, 0x0, 1, 0x0, .none, 0xFFFFFFFF, 0x0, 0x0, 0x0, 0x0, 0x0, 0x3C28321F⟩, -- AG_CFG
  ⟨0x100004, 1, 0x0, 1, 0x0, .none, 0x1FF, 0x0, 0x0, 0x0, 0x0, 0x0, 0x1B2⟩, -- AG_TRIG_CFG
  ⟨0x100010, 4, 0x4, 1, 0x0, .none, 0xFFFFFFFF, 0x0, 0x0, 0x0, 0x0, 0x0, 0x7FFF0000⟩, -- AG_TRIG_CODE
  ⟨0x100020, 1, 0x0, 1, 0x0, .none, 0x0, 0x0, 0x0, 0x7, 0x0, 0x0, 0x0⟩, -- AG_CTRL
  ⟨0x100024, 1, 0x0, 1, 0x0, .none, 0x0, 0x0, 0x0, 0x0, 0x0, 0xFFFFFFFF, 0x0⟩, -- AG_STAT
  ⟨0x100040, 1, 0x0, 1, 0x0, .none, 0x4, 0x0, 0x0, 0x3, 0x0, 0x0, 0x4⟩, -- AG_RP_CTRL
  ⟨0x100044, 1, 0x0, 1, 0x0, .none, 0xFFFFFFFF, 0x0, 0x0, 0x0, 0x0, 0x0, 0x0⟩, -- AG_RP_START
  ⟨0x100048, 1, 0x0, 1, 0x0, .none, 0xFFFFFFFF, 0x0, 0x0, 0x0, 0x0, 0x0, 0x0⟩, -- AG_RP_END
  ⟨0x10004C, 1, 0x0, 1, 0x0, .none, 0x0, 0x0, 0x0, 0x0, 0x0, 0xFFFFFFFF, 0x0⟩, -- AG_RP_STAT
  ⟨0x100050, 1, 0x0, 1, 0x0, .none, 0x0, 0x0, 0x0, 0x0, 0x0, 0xFFFFFFFF, 0x0⟩ -- AG_RP_MM
]

/-- The registers of block 0x11 (R520). -/
def regSpecs11 : List RegSpec := [
  ⟨0x110000, 1, 0x0, 1, 0x0, .none, 0x0, 0x0, 0x0, 0x0, 0x0, 0xFFFFFFFF, 0x0⟩, -- EV_NEXT_SEQ
  ⟨0x110004, 1, 0x0, 1, 0x0, .none, 0x0, 0x0, 0x0, 0x0, 0x0, 0xFFFFFFFF, 0x0⟩, -- EV_OLDEST_SEQ
  ⟨0x110008, 1, 0x0, 1, 0x0, .none, 0x1FE, 0x0, 0x0, 0x0, 0x0, 0x0, 0x0⟩, -- EV_IRQ_MASK
  ⟨0x11000C, 1, 0x0, 1, 0x0, .none, 0x0, 0x0, 0x1FE, 0x0, 0x0, 0x0, 0x0⟩, -- EV_IRQ_STAT
  ⟨0x110010, 4, 0x4, 1, 0x0, .none, 0x1FF, 0x0, 0x0, 0x0, 0x0, 0x0, 0x0⟩, -- EV_MST_CFG
  ⟨0x110020, 1, 0x0, 1, 0x0, .none, 0x0, 0x0, 0x0, 0x0, 0x0, 0xFFFFFFFF, 0x0⟩, -- EV_PUSH_STAT
  ⟨0x110030, 1, 0x0, 1, 0x0, .none, 0x1, 0x0, 0x0, 0x0, 0x0, 0x0, 0x0⟩ -- EV_DIAG_VIEW
]

/-- The register map by block number, the address bits 31:16 (R520). -/
def regSpecsOf (blk : Nat) : List RegSpec :=
  match blk with
  | 0x0 => regSpecs00
  | 0x1 => regSpecs01
  | 0x2 => regSpecs02
  | 0x3 => regSpecs03
  | 0x4 => regSpecs04
  | 0x5 => regSpecs05
  | 0x6 => regSpecs06
  | 0x7 => regSpecs07
  | 0x8 => regSpecs08
  | 0x9 => regSpecs09
  | 0xA => regSpecs0A
  | 0xB => regSpecs0B
  | 0xC => regSpecs0C
  | 0xD => regSpecs0D
  | 0xE => regSpecs0E
  | 0xF => regSpecs0F
  | 0x10 => regSpecs10
  | 0x11 => regSpecs11
  | _ => []

/-- Whether an address is one of a row's instances. -/
def RegSpec.holds (r : RegSpec) (a : Nat) : Bool :=
  if a < r.base then false
  else
    let d := a - r.base
    if r.count1 ≤ 1 && r.count2 ≤ 1 then d == 0
    else if r.count2 ≤ 1 then d % r.stride1 == 0 && decide (d / r.stride1 < r.count1)
    else
      let e := d % r.stride1
      decide (d / r.stride1 < r.count1) && e % r.stride2 == 0 && decide (e / r.stride2 < r.count2)

/-- The register that occupies an address, if one does (R13, R520). -/
def regSpecAt (a : Nat) : Option RegSpec := (regSpecsOf (a / 0x10000)).find? (·.holds a)

end Sys2Proof.Machine
end

