-- ==== Sys2Proof/Machine/HostParts.lean ====
section
/-! DEFINITION. The plain-data parts of the state that belong to the host door, the event ring, the recorder, the time
base, the always-on domain and power (spec/07, 13, 14, 15, 16). What a register shows is not repeated here. -/

namespace Sys2Proof.Machine

/-- The base states of R36. SHUTDOWN, SAFE and DEGRADED are overlays. -/
inductive Base where
  | off | deepSleep | boot | trim | configured | pairing | active | standby | single
  deriving DecidableEq, Repr

/-- Whether the core runs: no supply, held in reset (R439), or running. -/
inductive CoreRun where
  | unpowered | held | running
  deriving DecidableEq, Repr

/-- An event record of R433. -/
structure EventRec where
  code : Nat
  arg0 : Nat
  seq : Nat
  time : Nat
  arg1 : Nat
  arg2 : Nat
  deriving DecidableEq, Repr

/-- The OTP fields of R444; beside TRIM_F's sets stands the verdict of its CRC (R446). -/
structure Otp where
  serial : Nat
  mac : Nat
  svcIp4 : Nat
  trimFOk : Bool
  trimF : List TrimSet
  /-- The eight HMAC keys, each 256 bits; a BLANK slot's entry is 0. -/
  keys : List Nat
  /-- The eight KEY_STATEs: 0 BLANK, 1 VALID, 2 REVOKED (R444). -/
  keyState : List Nat
  deriving DecidableEq, Repr

/-- The always-on domain and the supply pins (R439, R461, R476, R511). Times are ticks of the model's clock. -/
structure AlwaysOn where
  /-- VAO is applied. -/
  vao : Bool
  pwrEn : Bool
  /-- When PWR_EN last fell (R461's 10 ms). -/
  pwrEnFell : Nat
  /-- The earliest tick at which PWR_EN has risen. -/
  riseAt : Nat
  rstN : Bool
  pwrGood : Bool
  testEn : Bool
  /-- When RESET_N or PWR_GOOD last went low (R439). -/
  lowAt : Nat
  /-- When PWR_EN falls in the SHUTDOWN under way (R476, R477). -/
  fallAt : Option Nat
  /-- WAKE_CAUSE of the start that is under way (BT_AO_STAT). -/
  cause : Nat
  /-- PWR_EN rose and the start it leads to has not run yet (event 0x180A). -/
  rose : Bool
  /-- THERM_TRIP_N is driven low (R476). -/
  thermTrip : Bool
  /-- VDD_CORE is below the reset threshold (R483). -/
  lowVdd : Bool
  /-- Event store entries appended since the previous start (R479): index of the first not yet reported. -/
  nvReported : Nat
  deriving DecidableEq, Repr

/-- Device time: T(F) = BASE_T + (F − BASE_F) × INCR (R204), in units of 2^-40 × 10^-6 ns so that a slew (R208) stays
exact; and the pair servo (R223–R226). -/
structure TimeBase where
  baseT : Nat
  baseF : Nat
  /-- The rate in force, Q8.40: TB_INCR, or the pair servo's INCR_eff (R225). -/
  rate : Nat
  /-- The offset still to slew at BASE_F, in the same units (R208). -/
  remain : Int
  /-- The words of TB_OFS_ADJ written in the present tick, as one adjustment (R207). -/
  adj : Option Int
  /-- A TB_INCR write committed in the present tick (R206). -/
  newIncr : Option Nat
  /-- Every θ measured in the tick, in 1/32 ns (R224). -/
  thetas : List Int
  /-- The servo's integral term in ppb (R225). -/
  integral : Int
  /-- Whether the servo's last |e| exceeded 1,000 ns (R227). -/
  wide : Bool
  /-- Consecutive ticks within, and beyond, the lock limit (R226). -/
  inTicks : Nat
  outTicks : Nat
  /-- Number of the last tick end that has passed. -/
  seen : Nat
  /-- The reference inputs' difference has exceeded DIFF_LIM and not fallen back below it (R213). -/
  diffOver : Bool
  deriving DecidableEq, Repr

/-- A reference input's judgement (R210): when its faults last ended. -/
structure RefInput where
  clearSince : Option Nat
  deriving DecidableEq, Repr

/-- A critical command that passed R417 and waits for its tick end (R426). -/
structure Held where
  opcode : Nat
  master : Nat
  authority : Nat
  counter : Nat
  tag : Nat
  src : Nat
  body : List Nat
  /-- Device time at which it passed the checks (R205). -/
  passedAt : Nat
  deriving DecidableEq, Repr

/-- A DCP response's content (R413). -/
structure Resp where
  opcode : Nat
  master : Nat
  counter : Nat
  tag : Nat
  src : Nat
  status : Nat
  detail : Nat
  index : Nat
  tick : Nat
  body : List Nat
  deriving DecidableEq, Repr

/-- A key command under way (R421). -/
structure KeyOp where
  program : Bool
  slot : Nat
  key : Nat
  resp : Resp
  deriving DecidableEq, Repr

/-- A flash write or erase under way (R455). -/
structure ImgOp where
  erase : Bool
  slot : Nat
  first : Nat
  rawLen : Nat
  seq : Nat
  keySlot : Nat
  unkeyed : Bool
  build : Nat
  check : List Byte
  /-- Strips programmed so far, the bytes they take from offset 128 on, and whether the encoder's stream has failed (R100). -/
  next : Nat
  len : Nat
  failed : Bool
  deriving DecidableEq, Repr

/-- The push of events to one master (R435): where its last accepted command came from, the records gathered, when the
first of them was raised, and the count of EVENT messages sent. -/
structure Push where
  dst : Option Nat
  recs : List EventRec
  since : Nat
  count : Nat
  deriving DecidableEq, Repr

/-- The host door (spec/13). -/
structure Dcp where
  held : List Held
  /-- While a tick end commits: its commands' words to TB_OFS_ADJ form one adjustment that may not stand (R207). -/
  adjBusy : Bool
  /-- Responses decided at tick ends that await R38's confirmation. -/
  await : List Resp
  keyOp : Option KeyOp
  imgOp : Option ImgOp
  /-- When the last AUTH_FAIL response left, and when the last event 0x7101 was raised (R417). -/
  authRespAt : Option Nat
  authEvtAt : Option Nat
  push : List Push
  /-- EVENT_SEQ up to which an EVENT_READ has reached (EV_PUSH_STAT.OVERWRITTEN). -/
  readUpTo : Nat
  /-- MP has been lost since reset (R438). -/
  mpLost : Bool
  deriving DecidableEq, Repr

/-- A message in the PTP receive queue (R220, R221). -/
structure PtpEntry where
  stamp : Nat
  frac : Nat
  port : Nat
  transport : Nat
  event : Bool
  len : Nat
  bytes : List Byte
  deriving DecidableEq, Repr

/-- The PTP queue and transmitter (R220–R222). -/
structure Ptp where
  rxq : List PtpEntry
  ovfRun : Bool
  /-- The message being sent: port, and whether it is an event message, and its sequenceId. -/
  tx : Option (Nat × Bool × Nat)
  /-- Frames queued to be forwarded (R217): port, size, and the instant each leaves. -/
  fwd : List (Nat × Nat × Nat)
  deriving DecidableEq, Repr

/-- A whole entry of the recorder ring: its byte offset, length and SEQ (R486, R489). -/
structure RingEntry where
  off : Nat
  len : Nat
  seq : Nat
  deriving DecidableEq, Repr

/-- One recorded entry parsed for replay (R496). -/
structure ReplayEntry where
  kind : Nat
  seq : Nat
  time : Nat
  payload : List Byte
  deriving DecidableEq, Repr

/-- The recorder (spec/16); its ring's bytes lie in region 6 of the store. -/
structure Recorder where
  /-- Byte offset at which the next entry will be written, and its SEQ. -/
  next : Nat
  nextSeq : Nat
  whole : List RingEntry
  /-- SEQ of the first TRIGGER entry since ARM. -/
  trigSeq : Option Nat
  /-- Bytes written since the TRIGGER entry that opened POST. -/
  postBytes : Nat
  /-- The loss under way: entries lost and when the first was (R491). -/
  lostRun : Nat
  lostSince : Nat
  /-- When the next snapshot and TEMP entry fall due. -/
  snapDue : Option Nat
  tempDue : Nat
  /-- The EDGE_BIN under way: its end, and its words oldest first (R487). -/
  binEnd : Nat
  binWords : List Nat
  /-- The TICK_COPY entries of the tick under way, oldest first (kind, data words). -/
  copy : List (Nat × List Nat)
  /-- Replay: the recorded entries still ahead, groups compared, the unit's own groups still to be met, and the losses that GAP
  entries tell of (first and end). -/
  script : List ReplayEntry
  compared : Nat
  own : List DigGroup
  gaps : List (Nat × Nat)
  deriving DecidableEq, Repr

/-- A trimmed value (R457), in 1/256 of a code: factory values at −10, 45 and 95 °C and d; the code computed; the code in
use and when it last moved towards that one or stood at it (R458). -/
structure TrimItem where
  item : Nat
  part : TrimPart
  fCold : Int
  fMid : Int
  fHot : Int
  d : Int
  code : Int
  used : Int
  movedAt : Nat
  deriving DecidableEq, Repr

/-- The thermal model and the governor (spec/15). -/
structure Power where
  /-- tm and tamb in °C (R467). -/
  tm : Rat
  tamb : Rat
  /-- Consecutive diode readings outside the range (R466). -/
  badRun : Nat
  /-- Since when the readings differ from the model by more than 20 °C; since when they are good again. -/
  farSince : Option Nat
  goodSince : Option Nat
  /-- Readings of the last 2 s with the model beside them, newest first: time, diode, tm in 0.1 °C. -/
  track : List (Nat × Int × Int)
  bandAt : Option Nat
  /-- The last sample was at or above T_THR; since when samples lie at or below T_THR − 3 °C (R473). -/
  hot : Bool
  lowSince : Option Nat
  stepAt : Nat
  /-- t at the previous STEP_MS evaluation, in 0.1 °C (R474). -/
  lastEval : Option Int
  /-- Since when tm lies at or below T_THR − 8 °C (R475). -/
  coolSince : Option Nat
  /-- When the rails last answered, by rail (R469). -/
  railAt : List Nat
  /-- When VDD_MV was last measured, on the model's clock (R482). -/
  vddAt : Nat
  dip : Bool
  /-- SHUTDOWN: when it was entered, and the event store entry still to be appended (R476). -/
  shutAt : Option Nat
  shutEntry : Option (List Nat)
  /-- When SLEEP executed (R460). -/
  sleepAt : Option Nat
  trims : List TrimItem
  /-- DRAM refresh: the rate MR4 calls for, and the rate in force (R470). -/
  mr4 : Nat
  refresh : Nat
  deriving DecidableEq, Repr

end Sys2Proof.Machine
end

