-- ==== Sys2Proof/Machine/Sent.lean ====
section
/-! DEFINITION. What the unit sends: DCP responses and EVENT messages, network answers, DBT answers, Joend records and
ordered sets, Ecnal frames and bridged frames. State.out keeps them in the order they leave. -/

namespace Sys2Proof.Machine

/-- A downstream Joend record (R252): `claim` is the word every record of R371 carries. -/
inductive JRec where
  | line (claim seq stamp line : Nat) (void bits3 gap test : Bool) (slots pchk : Nat) (payload : List Byte)
  | retime (claim seqFirst : Nat) (delta : Bool) (entries : List Int)
  | tsync (claim tsId t1 : Nat) (lat : Option Nat) (rate : Int)
  | hb (claim nextSeq : Nat) (safe : Bool)
  | set (claim applySeq recId : Nat) (entries : List (Nat × Nat))
  | wave (claim applySeq recId head band waveId : Nat)
  | idrq (claim head : Nat)
  deriving DecidableEq, Repr

/-- An ordered set or the end of traffic on a lane (R235). -/
inductive LaneSig where
  | ts1 | ts2 | ei1 | ei2 | idle
  deriving DecidableEq, Repr

/-- An Ecnal frame (R375–R385). -/
inductive EFrame where
  | hb (h : HbFrame)
  | ts (claim fseq tick part parts : Nat) (entries : List TsEntry)
  | digest (claim fseq : Nat) (items : List DigestItem)
  | resync (claim fseq tick code index offset : Nat) (words : List Nat)
  | ack (a : AckFrame)
  | hello (h : HelloFrame)
  | elsync (lane claim t : Nat)
  deriving DecidableEq, Repr

/-- What leaves the unit. A bridged frame leaves as it came, but for one whose PTP message the transparent clock has corrected,
which leaves with the bytes named (R218). Where a reply goes is the MAC address, IP address and port its request came from, as one number
(R411). A PMBus read is PAGE, then VOUT_MODE, READ_VOUT and READ_IOUT, at a regulator's address (R469); a scan shifts the sampled
levels of `pinsOf` out, none for a pin at high impedance or not driven (R512). -/
inductive Sent where
  | dcp (r : Resp) (mac : Nat)
  | event (master dst count : Nat) (recs : List EventRec) (mac : Nat)
  | arp (port dst : Nat)
  | neighbor (port dst : Nat)
  | echo (port dst : Nat)
  | dbt (r : DbtReply)
  | rddata (port dst session window xferId obj frag fragCount len crc : Nat) (bytes : List Byte)
  | ptp (port transport udp : Nat) (bytes : List Byte)
  | bridged (toPort : Nat) (frame : Nat) (corrected : Option (List Byte))
  | joend (lane : Nat) (r : JRec)
  | lane (lane : Nat) (g : LaneSig) (fast : Bool) (ffe : Option Nat)
  | ecnal (f : EFrame)
  | tapId (id : Nat)
  | tapScan (levels : List (Option Bool))
  | pmbRead (rail addr page : Nat)
  deriving DecidableEq, Repr

end Sys2Proof.Machine
end

