-- ==== Sys2Proof/Machine/Sparse.lean ====
section
/-! DEFINITION. Sparse memories: a list of (address, value) pairs with addresses strictly rising and no pair equal to
what an unlisted address reads as, so that equal memories are equal lists. -/

namespace Sys2Proof.Machine

variable {β : Type} [DecidableEq β]

/-- The value at an address; an unlisted address reads as `d` says. -/
def sget (d : Nat → β) : List (Nat × β) → Nat → β
  | [], a => d a
  | (b, v) :: m, a => if a = b then v else sget d m a

/-- Every pair at one address dropped. -/
def sdrop (a : Nat) : List (Nat × β) → List (Nat × β)
  | [] => []
  | (b, v) :: m => if b = a then sdrop a m else (b, v) :: sdrop a m

/-- A pair put before the first pair of a higher address. -/
def sins (a : Nat) (v : β) : List (Nat × β) → List (Nat × β)
  | [] => [(a, v)]
  | (b, w) :: m => if a < b then (a, v) :: (b, w) :: m else (b, w) :: sins a v m

/-- A value written at an address; writing what an unlisted address reads as removes the pair. -/
def sput (d : Nat → β) (m : List (Nat × β)) (a : Nat) (v : β) : List (Nat × β) :=
  if v = d a then sdrop a m else sins a v (sdrop a m)

/-- Every pair whose address `keep` refuses is dropped. -/
def skeep (keep : Nat → Bool) (m : List (Nat × β)) : List (Nat × β) := m.filter fun p => keep p.1

/-- The pairs of values at consecutive addresses, those an unlisted address reads left out. -/
def srun (d : Nat → β) : Nat → List β → List (Nat × β)
  | _, [] => []
  | a, v :: vs => if v = d a then srun d (a + 1) vs else (a, v) :: srun d (a + 1) vs

/-- Values written at consecutive addresses. -/
def sputs (d : Nat → β) (m : List (Nat × β)) (a : Nat) (vs : List β) : List (Nat × β) :=
  skeep (fun b => decide (b < a)) m ++ srun d a vs ++ skeep (fun b => decide (a + vs.length ≤ b)) m

/-- The values at `n` addresses from `a`, of pairs at rising addresses from `a` on. -/
def sread (d : Nat → β) : List (Nat × β) → Nat → Nat → List β
  | _, _, 0 => []
  | [], a, n + 1 => d a :: sread d [] (a + 1) n
  | (b, v) :: m, a, n + 1 => if b = a then v :: sread d m (a + 1) n else d a :: sread d ((b, v) :: m) (a + 1) n

/-- The values at `n` consecutive addresses of a memory in its canonical form. -/
def sgets (d : Nat → β) (m : List (Nat × β)) (a n : Nat) : List β := sread d (skeep (fun b => decide (a ≤ b)) m) a n

/-- The canonical form from an address on: addresses at least `lo`, strictly rising, no pair that an unlisted address
would read. -/
def swfFrom (d : Nat → β) : Nat → List (Nat × β) → Bool
  | _, [] => true
  | lo, (a, v) :: m => decide (lo ≤ a) && !decide (v = d a) && swfFrom d (a + 1) m

/-- The canonical form of a sparse memory. -/
def swf (d : Nat → β) (m : List (Nat × β)) : Bool := swfFrom d 0 m

end Sys2Proof.Machine
end

