-- ==== Sys2Proof/Machine/State.lean ====
section
/-! DEFINITION. The machine's state: every register and table word, the stores, and what the spec gives the unit
beyond its registers; and the state right after reset. -/

namespace Sys2Proof.Machine

/-- No command of this model faults: every failure the spec describes is an effect on state (a status, an event, a
counter, an overlay). The constructor is the interface's and nothing raises it (safe). -/
inductive Fault where
  /-- Raised by nothing. -/
  | none
  deriving DecidableEq, Repr

/-- Refusals. -/
inductive Refusal where
  /-- A command without a meaning, named by its mnemonic (safe). -/
  | notModelled (mnemonic : String)
  deriving DecidableEq, Repr

/-- A sparse file of 32-bit words by byte address. -/
abbrev Words := List (Nat × Word)

/-- The state of one DT968. -/
structure State where
  /-- The commands that wait, first in, first out. -/
  pending : List Instr
  /-- The model's clock in ticks of 1 GHz, and its value at the last release of RESET_N (R203). -/
  clk : Nat
  frc0 : Nat
  /-- The model's own counter of free values used so far. -/
  free : Nat
  /-- Everything sent, oldest first (the model's own record). -/
  out : List Sent
  core : CoreRun
  base : Base
  pairEn : Bool
  unitId : Bool
  modeStrap : Bool
  /-- SHUTDOWN is held (R36). -/
  shutdown : Bool
  /-- Every register and table word, by address (R520, R524); and the shadows of RWS fields (R11). -/
  words : Words
  shadow : Words
  /-- RWL registers written since reset (R11). -/
  rwlDone : List Nat
  /-- The job store and the configuration flash, by byte address. -/
  mem : List Host.Cell
  flash : List Host.Cell
  otp : Otp
  ao : AlwaysOn
  /-- The instruction in force in the TAP (R512). -/
  tap : TapInstr
  /-- The boundary register: the value of each pin's cell, in the order of `pinsOf` (R512); a cell it does not list holds 0. -/
  cells : List Bool
  tb : TimeBase
  refs : List RefInput
  /-- The event ring, oldest first (R433). -/
  events : List EventRec
  dcp : Dcp
  ptp : Ptp
  agate : Recorder
  pwr : Power
  ingest : Ingest
  scan : Scan
  web : Web
  screen : Screen
  lanes : List LaneSt
  /-- Lines of each channel not yet fired, oldest first. -/
  lines : List (List ChanLine)
  fire : Fire
  cam : Cam
  beryl : Beryl
  pair : Pair
  deriving DecidableEq, Repr

/-- Region bases and sizes in MiB at reset (R46). -/
def regionDefault : List (Nat × Nat) :=
  [(0, 256), (256, 512), (768, 1), (769, 1024), (1793, 1024), (2817, 512), (3329, 1024), (4353, 0)]

/-- What a register or table word reads before anything has written it: R14's reset value, with the values the tables
give by instance; 0 in a table window (log 3), EFF 1.0 in a Beryl record (log 3). -/
def wordReset (a : Nat) : Word :=
  if a < 0x120000 then
    match regSpecAt a with
    | none => 0
    | some r =>
      if a = HP_MST_CFG 0 then 0x301
      else if r.base = MC_RGN_BASE 0 then
        let i := (a - MC_RGN_BASE 0) / 8
        BitVec.ofNat 32 ((regionDefault.getD i (0, 0)).1)
      else if r.base = MC_RGN_SIZE 0 then
        let i := (a - MC_RGN_SIZE 0) / 8
        BitVec.ofNat 32 ((regionDefault.getD i (0, 0)).2)
      else if a = CM_CTX_M ((a - CM_CTX_M 0 0) / 0x200) 0 ∨ a = CM_CTX_M ((a - CM_CTX_M 0 0) / 0x200) 5 then
        (if r.base = CM_CTX_M 0 0 then 0x1000 else BitVec.ofNat 32 r.reset)
      else if a = CM_CTX_M ((a - CM_CTX_M 0 0) / 0x200) 2 then
        (if r.base = CM_CTX_M 0 0 then 0x10000000 else BitVec.ofNat 32 r.reset)
      else BitVec.ofNat 32 r.reset
  else if 0x1800000 ≤ a ∧ a < 0x1B00000 then 0x4000
  else 0

/-- What a byte of the job store reads before anything has written it: the start clears it (R442). -/
def memReset (_ : Nat) : Byte := 0

/-- What a byte of the configuration flash reads when erased (log 4). -/
def flashReset (_ : Nat) : Byte := 0xFF

def Otp.blank : Otp := ⟨0, 0, 0xA9FE0944, true, [], List.replicate 8 0, List.replicate 8 0⟩
def AlwaysOn.reset : AlwaysOn := ⟨true, true, 0, 0, true, true, false, 0, none, 0, false, false, false, 0⟩
def TimeBase.reset : TimeBase := ⟨0, 0, 0x10000000000, 0, none, none, [], 0, false, 0, 0, 0, false⟩
def Push.reset : Push := ⟨none, [], 0, 0⟩
def Dcp.reset : Dcp := ⟨[], false, [], none, none, none, none, List.replicate 4 Push.reset, 0, false⟩
def Ptp.reset : Ptp := ⟨[], false, none, []⟩
def Recorder.reset : Recorder := ⟨64, 0, [], none, 0, 0, 0, none, 0, 0, [], [], [], 0, [], []⟩
def Power.reset : Power :=
  { tm := 25, tamb := 25, badRun := 0, farSince := none, goodSince := none, track := [], bandAt := none, hot := false,
    lowSince := none, stepAt := 0, lastEval := none, coolSince := none, railAt := List.replicate 8 0, vddAt := 0, dip := false,
    shutAt := none, shutEntry := none, sleepAt := none, trims := [], mr4 := 1, refresh := 1 }
def Scan.reset : Scan := ⟨[], [], none, none, none, 0, true, [], none, List.replicate 8 0xFFFFFFFF, [], none⟩
def Ingest.reset : Ingest := ⟨[], [], [], [], [], [], [], 0, [], [], [], [], [], [], 0⟩
def Enc.reset : Enc := ⟨false, false, false, false, none, [], none, 0, true, 0, 0, 0, []⟩
def Probe.reset : Probe := ⟨[], none, false⟩
def Enco.reset : Enco := ⟨0, 0, 0, false, none, none, none⟩
def Web.reset : Web :=
  { encs := List.replicate 4 Enc.reset, p := 0, ps := 0, q := 0, pAt := 0, was := [], onSec := false, alignAt := 0, speed := 0,
    acc := 0, hist := [], estAt := 0, estP := 0, probes := List.replicate 4 Probe.reset, encos := List.replicate 2 Enco.reset
    pins := List.replicate 2 (false, false, false) }
def ScreenBar.reset : ScreenBar := ⟨none, none, [], [], [], [], none, [], 0, 0, 0, [], 0, 0, 0, []⟩
def Screen.reset : Screen := ⟨List.replicate 8 ScreenBar.reset, [], none, none, [], 0⟩
def LaneSt.reset : LaneSt :=
  { since := 0, ts1 := false, ts2 := false, ts2Sent := 0, farRates := 0, farPreset := 0, eqMine := false,
    eqFar := false, eyeOk := false, identOk := false, sawSignal := false, lock := false, failRun := 0, silentRun := 0, backoff := 0,
    fromAbsent := false, readyAt := 0, lastTx := 0, lastUse := 0, lowAt := 0, exitAt := 0, exitL2 := false,
    eiSent := none, heads := 0, depth := 0, idents := [], tsId := 0, tsOut := [], rtts := [], tsyncAt := 0,
    terrRun := 0, ctl := [], statAt := 0, statGot := false, bufFill := 0, tempSeen := [], emptyPage := none, marginRaised := false, els := [], elsTx := 0
    skew := 0, retimeAt := 0 }
def Fire.reset : Fire := ⟨[], [], false, false, true, 0, 0⟩
def CamCtx.reset : CamCtx := ⟨List.replicate 17 0, none, 0, 0, none, [], false, false⟩
def Cam.reset : Cam :=
  ⟨List.replicate 16 CamCtx.reset, [], 0, none, [[], []], [], List.replicate 8 none, [], none, [], [], [], 0⟩
def BerylBar.reset : BerylBar := ⟨0, false, false, [], [], false, [], none, 0, false, [], [], []⟩
def Beryl.reset : Beryl :=
  { bars := List.replicate 8 BerylBar.reset, gen := 0, win := [], winOrd := 0, winGen := 0, winBars := 0, winTaps := 0
    winAt := 0, queue := [], whites := [], ovls := [], figs := [], solved := [], decayAt := 0, taps := [], tapNext := 0
    deltas := [], recDeltas := [] }
def Pair.reset : Pair :=
  { epoch := 0, rank := 0, linkSet := [], holdsSeq := false, hbSeq := 0, hbAt := 0, rxSeq := 0, rxAt := 0, lastHb := 0, missed := 0,
    partnerEpoch := 0, partnerFlags := 0, partnerUp := false, partnerLost := false, partnerStale := false,
    partnerDemoted := false, partnerJoining := false, staleYou := false, hbTx := [], fseqTx := 0, fseqRx := 0,
    unacked := [], waiting := [], ackAdvAt := 0, copies := [], entries := [], tickLines := [], batch := false, appliedTick := 0, sentTick := 0,
    sentAt := 0, acked := false, helloRx := 0, helloMet := 0, helloAt := 0, helloOn := false, pairAt := 0, won := [], contestAt := 0,
    yieldCause := 0, yieldRole := 0, yieldUntil := none, higher := false, items := [], switchAt := none, driveAt := 0, t0 := none, objs := [],
    framesRx := 0, ended := false, endFrames := 0, digestsSent := false, anchored := false,
    partnerLocked := false, focus := [], focusWait := [], mms := [], accMax := 0,
    unsentOwn := [], unsentPartner := [], leftAt := none, clash := false }

/-- The machine right after reset: the supplies are up and the core is held in reset, awaiting its release (R439);
every register at the value of R14. -/
def State.reset : State :=
  { pending := [], clk := 0, frc0 := 0, free := 0, out := [], core := .held, base := .boot, pairEn := false,
    unitId := false, modeStrap := false, shutdown := false, words := [], shadow := [], rwlDone := [], mem := [],
    flash := [], otp := Otp.blank, ao := AlwaysOn.reset, tap := .idcode, cells := [], tb := TimeBase.reset,
    refs := List.replicate 2 ⟨none⟩, events := [], dcp := Dcp.reset, ptp := Ptp.reset, agate := Recorder.reset,
    pwr := Power.reset, ingest := Ingest.reset, scan := Scan.reset, web := Web.reset, screen := Screen.reset,
    lanes := List.replicate 100 LaneSt.reset, lines := List.replicate 96 [], fire := Fire.reset, cam := Cam.reset,
    beryl := Beryl.reset, pair := Pair.reset }

end Sys2Proof.Machine
end

