-- ==== Sys2Proof/Machine/Ops.lean ====
section
/-! DEFINITION. The named operations over the state: registers and their fields, the stores, time, what is sent,
events (R433–R436), the recorder's ring (R485–R493), and the shape every command's meaning has. -/

namespace Sys2Proof.Machine

/-! Registers -/

/-- The word at an address. -/
def State.rd (s : State) (a : Nat) : Nat := (sget wordReset s.words a).toNat

/-- A word written at an address; nothing else changes. -/
def State.wr (s : State) (a v : Nat) : State := { s with words := sput wordReset s.words a (BitVec.ofNat 32 v) }

/-- A field's value. -/
def State.get (s : State) (f : Fld) : Nat := bits (s.rd f.addr) f.hi f.lo

/-- A field set; the other bits of its register stay. -/
def State.put (s : State) (f : Fld) (v : Nat) : State := s.wr f.addr (setBits (s.rd f.addr) f.hi f.lo v)

/-- Whether a field is not 0. -/
def State.is (s : State) (f : Fld) : Bool := s.get f != 0

/-- A one-bit field set from a Bool. -/
def State.flag (s : State) (f : Fld) (b : Bool) : State := s.put f (b2n b)

/-- A counter field that wraps, raised by `n`. -/
def State.add (s : State) (f : Fld) (n : Nat) : State := s.put f (s.get f + n)

/-- A counter field that wraps, raised by 1. -/
def State.inc (s : State) (f : Fld) : State := s.add f 1

/-- A counter field that saturates, raised by `n`. -/
def State.addSat (s : State) (f : Fld) (n : Nat) : State :=
  s.put f (min (s.get f + n) (2 ^ (f.hi + 1 - f.lo) - 1))

/-- A bit of a field set. -/
def State.setBitOf (s : State) (f : Fld) (i : Nat) (b : Bool) : State := s.put f (setBit (s.get f) i b)

/-- A bit of a field. -/
def State.bitOf (s : State) (f : Fld) (i : Nat) : Bool := bit (s.get f) i

/-- A field read as two's complement. -/
def State.sget (s : State) (f : Fld) : Int := sgn (f.hi + 1 - f.lo) (s.get f)

/-- A field written as two's complement. -/
def State.sput (s : State) (f : Fld) (v : Int) : State := s.put f (unsgn (f.hi + 1 - f.lo) v)

/-- The shadow of a word (R11). -/
def State.rdSh (s : State) (a : Nat) : Nat := (Sys2Proof.Machine.sget wordReset s.shadow a).toNat

/-- A shadow written. -/
def State.wrSh (s : State) (a v : Nat) : State :=
  { s with shadow := Sys2Proof.Machine.sput wordReset s.shadow a (BitVec.ofNat 32 v) }

/-- A field of the shadow. -/
def State.getSh (s : State) (f : Fld) : Nat := bits (s.rdSh f.addr) f.hi f.lo

/-! Lists -/

/-- The entry of a list at an index, changed by `f`. -/
def modAt {α : Type} (l : List α) (i : Nat) (f : α → α) : List α := l.modify i f

/-- The numbers below `n` for which `p` holds. -/
def idxs (n : Nat) (p : Nat → Bool) : List Nat := (List.range n).filter p

/-- A state passed through `f` for each number of a list, in order. -/
def State.each {α : Type} (s : State) (l : List α) (f : State → α → State) : State := l.foldl f s

/-! The stores -/

/-- Byte address of a region's start (R46). -/
def State.rgnBase (s : State) (i : Nat) : Nat := s.get (MC_RGN_BASE_BASE_MIB i) * 0x100000

/-- Bytes in a region; region 7 takes the rest of the store (R46). -/
def State.rgnSize (s : State) (i : Nat) : Nat := bits (s.rd (MC_RGN_BASE i + 4)) 31 0 * 0x100000

/-- `n` bytes of the store. -/
def State.rdMem (s : State) (a n : Nat) : List Byte := sgets memReset s.mem a n

/-- Bytes written into the store. -/
def State.wrMem (s : State) (a : Nat) (bs : List Byte) : State := { s with mem := sputs memReset s.mem a bs }

/-- `n` bytes of the store from `a` made 0. -/
def State.clrMem (s : State) (a n : Nat) : State :=
  { s with mem := skeep (fun b => b < a || decide (a + n ≤ b)) s.mem }

/-! Time -/

/-- The FRC (R203). -/
def State.frc (s : State) : Nat := s.clk - s.frc0

/-- Parts of a nanosecond in which device time is kept: 2^-40 × 10^-6 ns. -/
def nsU : Nat := 2 ^ 40 * 1000000

/-- A rational rounded to the nearest integer, halves up (log 9). -/
def roundR (x : Rat) : Int := (x + 1 / 2).floor

/-- What the slew has gained or lost since BASE_F (R208). -/
def State.slewGain (s : State) : Nat :=
  min s.tb.remain.natAbs ((s.frc - s.tb.baseF) * s.tb.rate * s.get TB_OFS_CFG_SLEW_PPM)

/-- Device time in parts (R204, R208). -/
def State.devU (s : State) : Nat :=
  let whole := s.tb.baseT + (s.frc - s.tb.baseF) * s.tb.rate * 1000000
  if 0 ≤ s.tb.remain then whole + s.slewGain else whole - s.slewGain

/-- The offset still to slew, in parts (R208). -/
def State.remNow (s : State) : Int :=
  if 0 ≤ s.tb.remain then s.tb.remain - s.slewGain else s.tb.remain + s.slewGain

/-- Device time in ns, 64 bits (R204). -/
def State.now (s : State) : Nat := s.devU / nsU % 2 ^ 64

/-- The 16-bit fraction of device time (R204). -/
def State.nowFrac (s : State) : Nat := s.devU % nsU * 65536 / nsU

/-- Device time re-anchored at the present FRC value (R206, R208): BASE_T holds 40 fraction bits (R204), finer ones of a slew are
cut off (log 9). -/
def State.reanchor (s : State) : State :=
  { s with tb := { s.tb with baseT := s.devU / 1000000 * 1000000, baseF := s.frc, remain := s.remNow } }

/-- The number of the last tick end (GL_TICK). -/
def State.tick (s : State) : Nat := s.now / 250000

/-- The clock moved to the instant of a command; it never goes back. -/
def State.advance (t : Nat) (s : State) : State := { s with clk := max s.clk t }

/-- Whether `d` ns of device time have passed since `a`. -/
def State.past (s : State) (a d : Nat) : Bool := decide (a + d ≤ s.now)

/-! What is sent -/

def State.emit (s : State) (o : Sent) : State := { s with out := s.out ++ [o] }

/-! Power shares (R472, R482): in percent, by throttle step; a supply dip applies those of S7. -/

def State.step (s : State) : Nat := if s.pwr.dip then 7 else s.get PW_TEMP_STEP
def State.coreLimit (s : State) : Nat := [100, 96, 93, 90, 86, 83, 80, 77].getD s.step 77
def State.c3Tokens (s : State) : Nat := [100, 50, 25].getD s.step 0
def State.c2Tokens (s : State) : Nat := [100, 100, 100, 100, 50, 25, 10].getD s.step 0

/-- C3, and C2, has no tokens at all. -/
def State.c3Shed (s : State) : Bool := s.c3Tokens == 0
def State.c2Shed (s : State) : Bool := s.c2Tokens == 0

/-! Events (R433–R436) -/

/-- Whether the unit takes authoritative decisions: ACTIVE or SINGLE (R370), with no replay running (R497). -/
def State.authoritative (s : State) : Bool :=
  (s.base == .active || s.base == .single) && s.get AG_RP_STAT_MODE != 2

/-- Whether the unit takes decisions from copies and items: a standby, or a unit in a running replay (R497). -/
def State.follows (s : State) : Bool := s.base == .standby || s.get AG_RP_STAT_MODE == 2

/-- Whether the unit holds a role. -/
def State.inRole (s : State) : Bool := s.base == .active || s.base == .standby || s.base == .single

/-- An event gathered for a master's push (R435). -/
def pushEvent (s : State) (e : EventRec) (n : Nat) (p : Push) : Push :=
  if s.is (EV_MST_CFG_EN n) && s.bitOf ⟨EV_MST_CFG n, 8, 0⟩ (e.code / 0x1000) && p.dst.isSome then
    { p with recs := p.recs ++ [e], since := if p.recs.isEmpty then s.now else p.since }
  else p

/-- An event put in the ring of 4,096; a full ring gives up its oldest (R433). -/
def ringPush (l : List EventRec) (e : EventRec) : List EventRec := if l.length ≥ 4096 then l.drop 1 ++ [e] else l ++ [e]

/-- An event numbered, kept in the ring of 4,096, shown on EV_IRQ_STAT and gathered for pushes. -/
def State.raiseBase (s : State) (code a0 a1 a2 : Nat) : State :=
  let seq := s.get EV_NEXT_SEQ_SEQ
  let e : EventRec := ⟨code % 0x10000, a0 % 0x10000, seq, s.now, a1 % 2 ^ 32, a2 % 2 ^ 32⟩
  let full := s.events.length ≥ 4096
  let old := (s.events.headD e).seq
  let ring := ringPush s.events e
  let s := if full && !later 32 s.dcp.readUpTo old then s.inc EV_PUSH_STAT_OVERWRITTEN else s
  let s := { s with
    events := ring,
    dcp := { s.dcp with push := (List.range 4).zipWith (pushEvent s e) s.dcp.push } }
  let s := s.put EV_NEXT_SEQ_SEQ (seq + 1)
  let s := s.put EV_OLDEST_SEQ_SEQ ((ring.headD e).seq)
  s.setBitOf ⟨EV_IRQ_STAT, 8, 0⟩ (code / 0x1000) true

/-! Addresses (R410) -/

/-- A port's IPv4 address, and its IPv6 address; 0 where off. Port 0 is MP, 1 and 2 are DP0 and DP1. -/
def State.ip4 (s : State) (port : Nat) : Nat := s.rd (if port = 0 then HP_MP_IP4 else HP_DP_IP4)
def State.ip6 (s : State) (port : Nat) : Nat :=
  ((List.range 4).map fun k => s.rd (if port = 0 then HP_MP_IP6 k else HP_DP_IP6 k) * 2 ^ (96 - 32 * k)).sum

/-- Whether an IP version is on at a port (R410). -/
def State.ipOn (s : State) (port : Nat) (v6 : Bool) : Bool := if v6 then s.ip6 port != 0 else s.ip4 port != 0

/-! The recorder's ring (R486–R491) -/

/-- The ring header of R489. -/
def ringHeader (s : State) : List Byte :=
  let o := s.agate.whole.headD ⟨s.agate.next, 0, s.agate.nextSeq⟩
  leBytes 4 0xA6A70001 ++ leBytes 4 s.agate.next ++ leBytes 4 o.off ++ leBytes 4 o.seq ++ leBytes 4 s.agate.nextSeq ++
  leBytes 4 (s.get AG_STAT_STATE) ++ leBytes 4 (s.agate.trigSeq.getD 0) ++
  leBytes 4 (s.get BT_IMG_SEQ_VALUE * 2 + b2n s.unitId) ++
  leBytes 8 (s.get HP_BOOT_NONCE_HI_NONCE * 2 ^ 32 + s.get HP_BOOT_NONCE_LO_NONCE) ++ List.replicate 24 0

/-- The ring header written, where the recorder has a region. -/
def State.ringSync (s : State) : State := if s.rgnSize 6 == 0 then s else s.wrMem (s.rgnBase 6) (ringHeader s)

/-- An entry's bytes (R486). -/
def ringBytes (type : Nat) (cont : Bool) (seq time : Nat) (payload : List Byte) : List Byte :=
  let len := 16 + (payload.length + 7) / 8 * 8
  leBytes 4 (type + b2n cont * 256 + len * 65536) ++ leBytes 4 seq ++ leBytes 8 time ++ payload ++
    List.replicate (len - 16 - payload.length) 0

/-- Where the entry after an offset goes: past the region's end, where not even a PAD entry fits before it, at 64 (R489). -/
def ringNext (size o : Nat) : Nat := if size < o + 16 then 64 else o

/-- One entry placed at the writer's position, over what stood there. -/
def State.ringPlace (s : State) (type : Nat) (cont : Bool) (time : Nat) (payload : List Byte) : State :=
  let bs := ringBytes type cont s.agate.nextSeq time payload
  let off := s.agate.next
  let s := s.wrMem (s.rgnBase 6 + off) bs
  { s with agate := { s.agate with
      next := ringNext (s.rgnSize 6) (off + bs.length), nextSeq := (s.agate.nextSeq + 1) % 2 ^ 32,
      whole := s.agate.whole.filter (fun e => decide (off + bs.length ≤ e.off) || decide (e.off + e.len ≤ off)) ++
        [⟨off, bs.length, s.agate.nextSeq⟩],
      postBytes := s.agate.postBytes + bs.length } }

/-- What is left before an offset filled with a PAD entry, where one fits. -/
def State.ringFill (s : State) (to_ : Nat) : State :=
  let left := (to_ - s.agate.next) / 8 * 8
  if 16 ≤ left then s.ringPlace 0 false s.now (List.replicate (left - 16) 0) else s

/-- The writer goes on at an offset; entries from another one up to it are no longer among those a reader follows (R490). -/
def State.ringGo (s : State) (from_ on : Nat) : State :=
  { s with agate := { s.agate with
      next := ringNext (s.rgnSize 6) on
      whole := s.agate.whole.filter fun e => decide (e.off < from_) || decide (on ≤ e.off) } }

/-- What is left before an offset takes a PAD entry, and the writer goes on at another one. -/
def State.ringPad (s : State) (to_ on : Nat) : State := (s.ringFill to_).ringGo (max s.agate.next to_) on

/-- The 64 KiB blocks of the ring whose read-back is in progress (R64, R490). -/
def State.ringReads (s : State) : List Nat :=
  (s.ingest.reads.filter fun r => s.ingest.windows.any fun w =>
    w.session == r.session && w.num == r.window && w.kind == .readBack && w.target == 3).map (·.obj)

/-- The writer brought to where an entry of a length fits: not across the ring's end (R489), nor into a block that is being read
back (R490); with every block being read back it goes on at 64 (log 59). -/
def State.ringSeek : Nat → State → Nat → State
  | 0, s, _ => { s with agate := { s.agate with next := 64 } }
  | k + 1, s, len =>
    let size := s.rgnSize 6
    if size < s.agate.next + len then State.ringSeek k (s.ringPad size 64) len
    else
      match s.ringReads.find? fun b => s.agate.next < (b + 1) * 0x10000 && b * 0x10000 < s.agate.next + len with
      | some b => State.ringSeek k (s.ringPad (b * 0x10000) ((b + 1) * 0x10000)) len
      | none => s

/-- One entry of at most 4,096 bytes written. -/
def State.ringOne (s : State) (type : Nat) (cont : Bool) (time : Nat) (payload : List Byte) : State :=
  ((State.ringSeek 20 s (16 + (payload.length + 7) / 8 * 8)).ringPlace type cont time payload).ringSync

/-- A payload written as consecutive entries of at most 4,080 payload bytes, all but the first with CONT. -/
def State.ringMany : Nat → State → Nat → Bool → Nat → List Byte → State
  | 0, s, _, _, _, _ => s
  | k + 1, s, type, cont, time, payload =>
    let s := s.ringOne type cont time (payload.take 4080)
    if payload.length ≤ 4080 then s else State.ringMany k s type true time (payload.drop 4080)

/-- Whether the recorder takes entries (R485). -/
def State.recording (s : State) : Bool := s.get AG_STAT_STATE == 1 || s.get AG_STAT_STATE == 2

/-- Whether an event code matches AG_TRIG_CODE n (R493); bit 15 is always compared. -/
def State.trigMatch (s : State) (code n : Nat) : Bool :=
  s.is (AG_TRIG_CODE_EN n) &&
    ((code ^^^ s.get (AG_TRIG_CODE_CODE n)) &&& (0x8000 ||| s.get (AG_TRIG_CODE_MASK n))) == 0

/-- Whether an event code is a trigger (R493). -/
def State.triggers (s : State) (code : Nat) : Bool := (List.range 4).any (s.trigMatch code)

/-- RECORDING moves to POST with a trigger (R492). -/
def State.postBegin (s : State) : State :=
  if s.get AG_STAT_STATE == 1 then ({ s with agate := { s.agate with postBytes := 0 } }).put AG_STAT_STATE 2 else s

/-- Entries that could not be written counted (R491). -/
def State.lose (s : State) (n : Nat) : State :=
  ({ s with agate := { s.agate with
    lostRun := s.agate.lostRun + n, lostSince := if s.agate.lostRun == 0 then s.now else s.agate.lostSince } }).addSat
    AG_STAT_LOST n

/-- An event of the recorder raised while nothing can be written: its own entry is lost too where AG_CFG selects its subject. -/
def State.raiseLost (s : State) (code a1 : Nat) : State :=
  (s.raiseBase code 0 a1 0).lose (b2n (bit (s.get AG_CFG_EVT_SUBJ) 7))

/-- `n` entries lost to shedding (R491): the first loss of a run raises 0x8103, which may be a trigger, its TRIGGER entry lost as
well (R493). -/
def State.recLose (s : State) (n : Nat) : State :=
  let first := s.agate.lostRun == 0
  let s := s.lose n
  if !first then s
  else
    let s := s.raiseLost 0x8103 0
    if s.triggers 0x8103 then (((s.inc AG_STAT_TRIGGERS).lose 1).postBegin.ringSync).raiseLost 0x8101 1 else s

/-- The GAP entry of a loss that has ended (R485, R491). -/
def State.gapRecord (s : State) : State :=
  if s.agate.lostRun == 0 || !s.recording || s.rgnSize 6 == 0 || s.c3Shed then s
  else
    let s := s.ringOne 0x0B false s.now (leBytes 4 s.agate.lostRun ++ leBytes 8 s.agate.lostSince)
    { s with agate := { s.agate with lostRun := 0 } }

/-- Entries a payload takes (R486). -/
def ringPieces (n : Nat) : Nat := max 1 ((n + 4079) / 4080)

/-- An entry recorded, with a GAP entry before it when entries were lost (R491). -/
def State.record (s : State) (type time : Nat) (payload : List Byte) : State :=
  if !s.recording || s.rgnSize 6 == 0 then s
  else if s.c3Shed then s.recLose (ringPieces payload.length)
  else s.gapRecord.ringMany (ringPieces payload.length) type false time payload

/-- The recorder enters RECORDING with an empty ring (R492); a snapshot falls due at the next tick end (R494). -/
def State.recStart (s : State) : State :=
  let a : Recorder := { s.agate with
    next := 64, whole := [], trigSeq := none, postBytes := 0, lostRun := 0, snapDue := some s.now,
    tempDue := s.now + s.get AG_CFG_TEMP_MS * 1000000, binWords := [], copy := [] }
  (({ s with agate := a }).put AG_STAT_STATE 1).ringSync

/-- CONFIGURED entered with the recorder OFF and AUTO_ARM set (R492). -/
def State.autoArm (s : State) : State :=
  if s.is AG_CFG_AUTO_ARM && s.rgnSize 6 != 0 && !s.is AG_STAT_STATE && !s.is AG_RP_STAT_MODE then s.recStart else s

/-- The EVENT entry of an event whose subject AG_CFG selects (R485). -/
def State.recEvent (s : State) (code : Nat) : State :=
  match s.events.getLast? with
  | none => s
  | some e =>
    if 1 ≤ code / 0x1000 && bit (s.get AG_CFG_EVT_SUBJ) (code / 0x1000 - 1) then
      s.record 0x09 e.time (leBytes 4 (e.code * 65536 + e.arg0) ++ leBytes 4 e.seq ++ leBytes 4 (e.time / 2 ^ 32) ++
        leBytes 4 e.time ++ leBytes 4 e.arg1 ++ leBytes 4 e.arg2)
    else s

/-- The SEQ of a trigger's entry, just recorded; none where it was not written. -/
def State.trigEntry (s : State) : Option Nat :=
  if s.recording && s.rgnSize 6 != 0 && !s.c3Shed then some ((s.agate.nextSeq + (2 ^ 32 - 1)) % 2 ^ 32) else none

/-- A trigger taken while the recorder takes entries: the first TRIGGER entry is kept, and RECORDING moves to POST (R489, R492). -/
def State.trigMark (s : State) : State :=
  if s.recording then
    ({ s with agate := { s.agate with trigSeq := s.agate.trigSeq.orElse fun _ => s.trigEntry } }).postBegin.ringSync
  else s

/-- A counted trigger taken: outside FROZEN it is recorded and raises 0x8101, whose SEQ is 0 where no entry was written (R492,
R493, R499; DEDUCED, log 31). -/
def State.trigTake (s : State) (source code : Nat) : State :=
  if s.get AG_STAT_STATE == 3 then s
  else
    let r := s.record 0x0C s.now (leBytes 4 (source + code * 65536))
    ((r.trigMark).raiseBase 0x8101 0 source (r.trigEntry.getD 0)).recEvent 0x8101

/-- A trigger (R493): counted and taken. -/
def State.trigger (s : State) (source code : Nat) : State := (s.inc AG_STAT_TRIGGERS).trigTake source code

/-- An event raised: kept, recorded, and a trigger where its code matches (R433, R485, R493). Its code is one of R16's
subjects, from the event table of the chapter whose rule raises it. -/
def State.raise (s : State) (code a0 a1 a2 : Nat) : State :=
  let s := (s.raiseBase code a0 a1 a2).recEvent code
  if s.triggers code then s.trigger 1 code else s

/-- A page packed into an argument (R433). -/
def packPage (slot page : Nat) : Nat := slot * 2 ^ 24 + page

/-- A surface generation packed into an argument (R433). -/
def packGen (id gen : Nat) : Nat := id * 65536 + gen

end Sys2Proof.Machine
end

