-- ==== Sys2Proof/Machine/Reg.lean ====
section
/-! DEFINITION. What a register access answers, and how families judge and act on a write (R11, R428): `limit` hooks
give the status that refuses a new value, `act` hooks run what a write sets off. -/

namespace Sys2Proof.Machine

/-- A command's answer: status of R17, DETAIL of R417, INDEX and response body (R413). -/
structure Ans where
  status : Nat
  detail : Nat
  index : Nat
  body : List Nat
  deriving DecidableEq, Repr

def stOk : Nat := 0
def stAuthFail : Nat := 1
def stStale : Nat := 2
def stConflict : Nat := 3
def stBadState : Nat := 4
def stRange : Nat := 5
def stBusy : Nat := 6
def stDiscarded : Nat := 7
def stBandwidth : Nat := 8
def stRejected : Nat := 9

def dtAddress : Nat := 1
def dtValue : Nat := 2
def dtAuthority : Nat := 3
def dtMixed : Nat := 4
def dtLength : Nat := 5
def dtOpcode : Nat := 6
def dtEventsLost : Nat := 7
def dtTickFull : Nat := 8

/-- OK with a response body. -/
def Ans.okBody (b : List Nat) : Ans := ⟨stOk, 0, 0, b⟩
def Ans.ok : Ans := ⟨stOk, 0, 0, []⟩
def Ans.of (status detail : Nat) : Ans := ⟨status, detail, 0, []⟩

/-- A body value out of range at an item. -/
def Ans.value (index : Nat) : Ans := ⟨stRange, dtValue, index, []⟩

/-- The instance number of an address in a family of registers `stride` apart. -/
def instOf (base stride count a : Nat) : Option Nat :=
  if base ≤ a ∧ (a - base) % stride = 0 ∧ (a - base) / stride < count then some ((a - base) / stride) else none

/-- Whether a field of a new word lies in a range. -/
def fieldIn (new hi lo min max : Nat) : Bool := decide (min ≤ bits new hi lo) && decide (bits new hi lo ≤ max)

/-- A limit hook's verdict: the status that refuses, none when the value stands. -/
abbrev Verdict := Option (Nat × Nat)

/-- RANGE with DETAIL VALUE unless a condition holds. -/
def rangeUnless (c : Bool) : Verdict := if c then none else some (stRange, dtValue)

/-- BUSY when a condition holds. -/
def busyWhen (c : Bool) : Verdict := if c then some (stBusy, 0) else none

/-- The first verdict that refuses. -/
def Verdict.orElse' (a b : Verdict) : Verdict := match a with
  | some v => some v
  | none => b

/-- The shape of a command's meaning while the core runs: the clock moves to the command's instant; a core that does
not run changes nothing else (R409, R439). -/
def State.whenRunning (s : State) (f : State → State) : State := if s.core == .running then f s else s

/-- Whether the host ports answer: from CONFIGURED onward, and not in SHUTDOWN (R409). -/
def State.hostUp (s : State) : Bool :=
  s.core == .running && s.base != .boot && s.base != .trim && !s.shutdown

end Sys2Proof.Machine
end

