-- ==== Sys2Proof/Machine/Base.lean ====
section
/-! DEFINITION. What several chapters share: base states and roles (R36), the running job, positions of lines (R196),
copy entries (R381), SAFE (R302), waste ranges (R305–R307), bar enables (R296) and the derived words that agree at
every instant (R522). -/

namespace Sys2Proof.Machine

/-! Roles -/

/-- GL_ROLE_STAT.STATE of a base state. -/
def Base.code : Base → Nat
  | .off | .deepSleep | .boot => 0
  | .trim => 1
  | .configured => 2
  | .pairing => 3
  | .active => 4
  | .standby => 5
  | .single => 6

/-- PR_STAT.ROLE of a base state (R368's PR_STAT). -/
def Base.role : Base → Nat
  | .pairing => 0
  | .active => 1
  | .standby => 2
  | .single => 3
  | _ => 15

/-- The base state entered: GL_ROLE_STAT.STATE and PR_STAT.ROLE follow, and CHANGES counts the change (R522). -/
def State.setBase (s : State) (b : Base) : State :=
  let s := if Base.code b != s.get GL_ROLE_STAT_STATE then s.inc GL_ROLE_STAT_CHANGES else s
  (({ s with base := b }).put GL_ROLE_STAT_STATE b.code).put PR_STAT_ROLE b.role

/-! The running job -/

/-- The job in a queue slot. -/
def State.jobAt (s : State) (slot : Nat) : Option Job := s.scan.jobs.find? (·.slot == slot)

/-- The job of an identity. -/
def State.jobOf (s : State) (id : Nat) : Option Job := s.scan.jobs.find? (·.id == id)

/-- The running job, if one runs. -/
def State.running (s : State) : Option Job :=
  if s.is PG_JOB_STAT_RUNNING then s.jobAt (s.get PG_JOB_STAT_JOB_SLOT) else none

def Job.pitchDiv (j : Job) : Nat := bits j.w1 1 0
def Job.bars (j : Job) : Nat := bits j.w1 15 8
def Job.gapVar (j : Job) : Bool := bit j.w1 16
def Job.gridX (j : Job) : Nat := bits j.w1 17 17
def Job.gridY (j : Job) : Nat := bits j.w1 18 18
def Job.upsample (j : Job) : Bool := bit j.w1 19
def Job.vmax (j : Job) : Nat := j.w2
def Job.pageCount (j : Job) : Nat := j.w3

/-- The bars of a mask, ascending. -/
def barsOf (mask : Nat) : List Nat := idxs 8 (bit mask)

/-- The running job's BARS; none when no job runs. -/
def State.runBars (s : State) : List Nat := (s.running.map fun j => barsOf j.bars).getD []

/-- A job replaced in the queue. -/
def State.setJob (s : State) (j : Job) : State :=
  { s with scan := { s.scan with jobs := s.scan.jobs.map fun k => if k.slot == j.slot then j else k } }

/-! Positions (R196) -/

/-- off(m) for a pitch divider, in pu, rounded to nearest (R196). -/
def offPu (pitchDiv : Nat) (m : Int) : Int :=
  if m < 0 then -(tdv (-m * 4064 * (pitchDiv + 1) + 1) 3) else tdv (m * 4064 * (pitchDiv + 1) + 1) 3

/-- Q in whole pu, rounded down (R184). -/
def State.qPu (s : State) : Int := sar s.web.q 16

/-- P in whole pu, rounded down. -/
def State.pPu (s : State) : Int := sar s.web.p 16

/-- WP_BARn_OFS as a signed distance. -/
def State.barOfs (s : State) (b : Nat) : Int := s.sget (WP_BAR_OFS_OFS b)

/-- The bar of a list with the largest OFS, and with the smallest; ties to the lower number. -/
def State.farBar (s : State) (l : List Nat) : Option Nat :=
  l.foldl (fun r b => match r with
    | none => some b
    | some c => if s.barOfs c < s.barOfs b then some b else some c) none

def State.nearBar (s : State) (l : List Nat) : Option Nat :=
  l.foldl (fun r b => match r with
    | none => some b
    | some c => if s.barOfs b < s.barOfs c then some b else some c) none

/-! Copy entries (R381) -/

/-- An entry of the copy of the tick under way, gathered by a unit that decides. -/
def State.copy (s : State) (kind : Nat) (words : List Nat) : State :=
  if s.authoritative then
    { s with pair := { s.pair with entries := s.pair.entries ++ [⟨kind, words.map (· % 2 ^ 32)⟩] } }
  else s

/-- A register written by the unit's own authoritative logic, with its WRITE entry. -/
def State.wrCopy (s : State) (a v : Nat) : State := (s.wr a v).copy 1 [a, v]

/-- The two words of a 48-bit position (R381). -/
def posWords (p : Int) : List Nat := let v := unsgn 48 p; [v / 2 ^ 32, v % 2 ^ 32]

/-- The 48 bits of a position that two words carry. -/
def posOfWords (hi lo : Nat) : Int := sgn 48 (hi % 65536 * 2 ^ 32 + lo)

/-- A position from its 48 bits, the one nearest to the unit's own P, in whole pu (R174). -/
def State.posNear (s : State) (p48 : Int) : Int := s.pPu + sgn 48 (unsgn 48 (p48 - s.pPu))

/-- The position that two words of a copy entry or an item carry. -/
def State.posTaken (s : State) (hi lo : Nat) : Int := s.posNear (posOfWords hi lo)

/-! Waste ranges (R305, R306) -/

/-- Whether two ranges overlap or touch. -/
def WasteRange.meets (a b : WasteRange) : Bool := decide (a.lo ≤ b.hi) && decide (b.lo ≤ a.hi)

/-- Two ranges merged. -/
def WasteRange.join (a b : WasteRange) : WasteRange :=
  ⟨a.causes ||| b.causes, min a.lo b.lo, max a.hi b.hi, a.told && b.told⟩

/-- A range put among ranges sorted by start, merged with every range it meets. -/
def mergeRange (r : WasteRange) : List WasteRange → List WasteRange
  | [] => [r]
  | q :: l =>
    if q.meets r then mergeRange (q.join r) l
    else if r.lo < q.lo then r :: q :: l
    else q :: mergeRange r l

/-- Whether an open cause is the one of a bit; the WATCHDOG cause is one of its own for each bar (R299). -/
def OpenCause.isOf (o : OpenCause) (bit_ bars : Nat) : Bool := o.bit == bit_ && (bit_ != 6 || o.bars == bars)

/-- The range a lasting cause covers so far (R305). -/
def State.openRange (s : State) (o : OpenCause) : WasteRange :=
  let l := barsOf o.bars
  let far := ((s.farBar l).map s.barOfs).getD 0
  let near := ((s.nearBar l).map s.barOfs).getD 0
  let r : WasteRange := ⟨2 ^ o.bit, o.q1 - far, s.qPu - near, false⟩
  match o.into with
  | none => r
  | some z => z.join r

/-- The ranges held, those of lasting causes among them, which reach a position at least (R305, R306). -/
def State.marksTo (s : State) (hi : Int) : List WasteRange :=
  s.fire.opens.foldl (fun l o =>
    let r := s.openRange o
    mergeRange { r with hi := max r.hi hi } l) s.fire.ranges

/-- The ranges held as they stand. -/
def State.marks (s : State) : List WasteRange :=
  s.fire.opens.foldl (fun l o => mergeRange (s.openRange o) l) s.fire.ranges

/-- Whether a range may stand among those held as it is: fewer than 64 are held, or it meets one of them (R306). -/
def State.rangeRoom (s : State) (r : WasteRange) : Bool := decide (s.marks.length < 64) || s.marks.any (·.meets r)

/-- A range waste-marked (R305, R306): a 65th merges into the last. -/
def State.waste (s : State) (causes : Nat) (lo hi : Int) : State :=
  let r : WasteRange := ⟨causes, lo, hi, false⟩
  let l := match s.rangeRoom r, s.fire.ranges.getLast? with
    | false, some z => mergeRange (z.join r) s.fire.ranges.dropLast
    | _, _ => mergeRange r s.fire.ranges
  let s := { s with fire := { s.fire with ranges := l } }
  s.put FS_WM_STAT_PENDING (min 64 s.marks.length)

/-- A range waste-marked by a decision the tick state copy carries (R307, KIND WASTE). -/
def State.wasteCopy (s : State) (causes : Nat) (lo hi : Int) : State :=
  (s.waste causes lo hi).copy 7 ([causes] ++ posWords lo ++ posWords hi)

/-- The web length of line n of a page run (R305). -/
def lineSpan (pitchDiv : Nat) (start : Int) (first n : Nat) : Int × Int :=
  (start + offPu pitchDiv ((n : Int) - first), start + offPu pitchDiv ((n : Int) + 1 - first))

/-- A lasting waste cause opened for bars, at the present Q (R305); as the 65th range it merges into the last (R306). -/
def State.wasteOpen (s : State) (bit_ bars : Nat) : State :=
  let more (o : OpenCause) : OpenCause := if o.isOf bit_ bars then { o with bars := o.bars ||| bars } else o
  if s.fire.opens.any (·.isOf bit_ bars) then
    { s with fire := { s.fire with opens := s.fire.opens.map more } }
  else
    let o : OpenCause := ⟨bit_, bars, s.qPu, none⟩
    match s.rangeRoom (s.openRange o), s.fire.ranges.getLast? with
    | false, some z =>
      { s with fire := { s.fire with ranges := s.fire.ranges.dropLast, opens := s.fire.opens ++ [{ o with into := some z }] } }
    | _, _ => { s with fire := { s.fire with opens := s.fire.opens ++ [o] } }

/-- A lasting waste cause ended: its range is marked, and copied where this unit decides (R307). -/
def State.wasteClose (s : State) (bit_ bars : Nat) : State :=
  match s.fire.opens.find? (·.isOf bit_ bars) with
  | none => s
  | some o =>
    let r := s.openRange o
    let s := { s with fire := { s.fire with opens := s.fire.opens.filter (!·.isOf bit_ bars) } }
    s.wasteCopy r.causes r.lo r.hi

/-- Whether marker k stands in a range (R306). -/
def State.markerIn (s : State) (k : Nat) (r : WasteRange) : Bool :=
  let x := s.qPu - s.sget (FS_WM_OFS_OFS k)
  let ext : Int := (s.get (FS_WM_CFG_EXT k) * 64 : Nat)
  (r.causes &&& s.get (FS_WM_CFG_CAUSE k)) != 0 && decide (r.lo - ext ≤ x) && decide (x ≤ r.hi + ext)

/-- Whether SAFE has a cause for which WASTE_MARK is asserted at once and until SAFE is cleared: position lost, and reference
lost in SINGLE (R181, R212). -/
def State.safeHard (s : State) : Bool :=
  s.is FS_SAFE_STAT_SAFE && (s.is FS_SAFE_STAT_POS_LOST || (s.is FS_SAFE_STAT_REF_LOST && s.base == .single))

/-- WASTE_MARK[k] before the role is considered: a lasting cause holds it from its start on, and SAFE's marks meet its CAUSE
under bit 5 (log 54). -/
def State.markerLevel (s : State) (k : Nat) : Bool :=
  (s.safeHard && bit (s.get (FS_WM_CFG_CAUSE k)) 5) || (s.marksTo (s.qPu - s.sget (FS_WM_OFS_OFS k))).any (s.markerIn k)

/-- Whether both markers have passed a range's end. -/
def State.rangePassed (s : State) (r : WasteRange) : Bool :=
  (List.range 2).all fun k =>
    decide (r.hi + (s.get (FS_WM_CFG_EXT k) * 64 : Nat) < s.qPu - s.sget (FS_WM_OFS_OFS k))

/-- Whether a range is merged with one whose lasting cause is still under way: it is one of that range, whose end no one knows
yet (R305, R306). -/
def State.rangeTied (s : State) (r : WasteRange) : Bool :=
  s.marks.any fun m => m.meets r && s.fire.opens.any fun o => m.meets (s.openRange o)

/-- Whether the end of a range that no lasting cause holds is known (R306): it has passed the last bar, so that no later line can
move it (log 54). -/
def State.rangeKnown (s : State) (r : WasteRange) : Bool :=
  decide (r.hi < s.qPu - ((s.farBar (List.range 8)).map s.barOfs).getD 0)

/-- Whether the unit drives ENCO0–ENCO1 and WASTE_MARK: one that decides, and a new active from T + 470 µs on (R195, R307, R399,
R495). -/
def State.drives (s : State) : Bool := s.authoritative && !s.is GL_ROLE_STAT_REPLAY && decide (s.pair.driveAt ≤ s.now)

/-- WASTE_MARK driven, ranges whose end has become known reported with event 0x4201, and those that both markers have passed
let go (R306, R307). -/
def State.wasteSettle (s : State) : State :=
  let gone (r : WasteRange) : Bool := s.rangePassed r && !s.rangeTied r
  let tell (r : WasteRange) : Bool := !r.told && !s.rangeTied r && (s.rangeKnown r || s.rangePassed r)
  let news := s.fire.ranges.filter tell
  let kept := (s.fire.ranges.filter fun r => !gone r).map fun r => { r with told := r.told || tell r }
  let s := { s with fire := { s.fire with
    ranges := kept
    waste0 := s.drives && s.markerLevel 0
    waste1 := s.drives && s.markerLevel 1 } }
  s.each news (fun s r => (s.inc FS_WM_STAT_RANGES).raise 0x4201 r.causes (unsgn 32 r.lo) (unsgn 32 r.hi))
    |>.put FS_WM_STAT_PENDING (min 64 s.marks.length)

/-! Channels -/

/-- A channel's bar and segment (R18). -/
def chanBar (ch : Nat) : Nat := ch / 12
def chanSeg (ch : Nat) : Nat := ch % 12

/-- Whether a channel is used: its segment has slots. -/
def State.chanUsed (s : State) (ch : Nat) : Bool := s.is (SC_BAR_SEG_SLOTS_SLOTS (chanBar ch) (chanSeg ch))

/-- The channels of a bar (R18). -/
def barLanes (b : Nat) : List Nat := (List.range 12).map (12 * b + ·)

/-- The used channels of a bar. -/
def State.barChans (s : State) (b : Nat) : List Nat := (barLanes b).filter s.chanUsed

/-- LANE_STAT.TSTATE READY. -/
def tsReady : Nat := 5

/-- Whether a lane is READY. -/
def State.ready (s : State) (l : Nat) : Bool := s.get (LANE_STAT_TSTATE l) == tsReady

/-! Emulated outputs (R192–R195) -/

def State.enco (s : State) (n : Nat) : Enco := s.web.encos.getD n Enco.reset
def State.modEnco (s : State) (n : Nat) (f : Enco → Enco) : State :=
  { s with web := { s.web with encos := modAt s.web.encos n f } }

/-- Z of an output after its last edge, by ZMODE (R194). -/
def State.encoZLevel (s : State) (n : Nat) : Bool :=
  let e := s.enco n
  let zc := s.get (WP_ENCO_ZCNT_ZCNT n)
  match s.get (WP_ENCO_CFG_ZMODE n) with
  | 1 => zc != 0 && e.k != 0 && e.k % zc == 0
  | 2 => e.z
  | _ => false

/-- The levels that a unit drives on an output's A, B and Z lines; none at high impedance (R192, R195, R399, R441, R495). -/
def State.encoLines (s : State) (n : Nat) : Option (Bool × Bool × Bool) :=
  let e := s.enco n
  if s.drives then some (e.phase == 1 || e.phase == 2, e.phase == 2 || e.phase == 3, s.encoZLevel n) else none

/-- The levels on an output's lines: those driven, or at high impedance those last driven, which the bus keepers hold (R508). -/
def State.encoPins (s : State) (n : Nat) : Bool × Bool × Bool :=
  (s.encoLines n).getD (s.web.pins.getD n (false, false, false))

/-- The levels driven on both outputs kept for the bus keepers. -/
def State.encoSettle (s : State) : State := { s with web := { s.web with pins := (List.range 2).map s.encoPins } }

/-! Heartbeat items -/

/-- A heartbeat item (R378): recorded (R485) unless it is an UNSENT item, and queued for the partner in a pair. -/
def State.hbItem (s : State) (w0 w1 w2 w3 : Nat) : State :=
  let ws := [w0, w1, w2, w3].map (· % 2 ^ 32)
  let s := if bits w0 31 24 == 4 then s else s.record 0x04 s.now (ws.flatMap (leBytes 4))
  if s.base == .active || s.base == .standby then
    { s with pair := { s.pair with items := s.pair.items ++ [⟨ws.getD 0 0, ws.getD 1 0, ws.getD 2 0, ws.getD 3 0⟩] } }
  else s

end Sys2Proof.Machine
end

