-- ==== Sys2Proof/Machine/Sends.lean ====
section
/-! DEFINITION. Records that leave on a head lane (spec/09): the lines that wait, HB, TSYNC, SET and WAVE, RETIME, and the order in
which those ready together leave (R255). -/

namespace Sys2Proof.Machine

/-! Lanes -/

def State.laneSt (s : State) (l : Nat) : LaneSt := s.lanes.getD l LaneSt.reset
def State.modLane (s : State) (l : Nat) (f : LaneSt → LaneSt) : State := { s with lanes := modAt s.lanes l f }
def State.pstate (s : State) (l : Nat) : Nat := s.get (LANE_STAT_PSTATE l)

/-- Whether a lane is READY in L0. -/
def State.inL0 (s : State) (l : Nat) : Bool := s.ready l && s.pstate l == 0

/-- Whether records may leave on a lane: READY in L0, and no head lane in SHUTDOWN (R476). -/
def State.flowing (s : State) (l : Nat) : Bool := s.inL0 l && !(s.shutdown && decide (l < 96))

/-- The claim every record and frame of the unit carries (R371). -/
def State.claim (s : State) : Nat := s.get PR_CLAIM_CLAIM

/-- Whether the unit sends LINE and RETIME records: it holds sequence numbers and is not joining (R373, R400, R403). -/
def State.sendsLines (s : State) : Bool := s.pair.holdsSeq && !s.is PR_STAT_RESYNC_PHASE

/-! Records sent -/

/-- A record started on a lane. -/
def State.sendRec (s : State) (l : Nat) (r : JRec) : State :=
  (s.modLane l fun x => { x with lastTx := s.now }).emit (.joend l r)

/-- A record that keeps the lane from L1 (R247). -/
def State.sendUse (s : State) (l : Nat) (r : JRec) : State :=
  (s.modLane l fun x => { x with lastUse := s.now }).sendRec l r

/-! Lines that wait -/

def State.chanLines (s : State) (ch : Nat) : List ChanLine := s.lines.getD ch []
def State.modLines (s : State) (ch : Nat) (f : List ChanLine → List ChanLine) : State :=
  { s with lines := modAt s.lines ch f }
def State.modLine (s : State) (ch seq : Nat) (f : ChanLine → ChanLine) : State :=
  s.modLines ch fun l => l.map fun x => if x.seq == seq then f x else x

/-- The first line of a channel whose record is complete and has not left. -/
def State.lineDue (s : State) (ch : Nat) : Option ChanLine :=
  (s.chanLines ch).find? fun x => x.stamp.isNone && !x.unsent && !x.voided

/-- The number the next LINE record of a channel will carry (R277): that of the first line waiting, else the next line's. -/
def State.nextSeq (s : State) (ch : Nat) : Nat := ((s.lineDue ch).map (·.seq)).getD (s.get (JL_SEQ_NEXT_SEQ ch))

/-- An HB (R277). -/
def State.sendHb (s : State) (l : Nat) : State := s.sendRec l (.hb s.claim (s.nextSeq l) (s.is FS_SAFE_STAT_SAFE))

/-- The effective INCR with the slew under way, less 1, in units of 2^-40 (R265). -/
def State.tsyncRate (s : State) : Int :=
  let slew : Int := (s.tb.rate * s.get TB_OFS_CFG_SLEW_PPM : Nat)
  let eff : Rat := ((s.tb.rate : Int) : Rat) +
    (if s.remNow = 0 then 0 else if 0 < s.remNow then (slew : Rat) / 1000000 else -((slew : Rat) / 1000000))
  roundR eff - 2 ^ 40

/-- A TSYNC (R265): numbered, stamped, and remembered until it is answered. -/
def State.sendTsync (s : State) (l : Nat) : State :=
  let id := (s.laneSt l).tsId
  let lat := if s.is (JL_LAT_VALID l) then some (s.get (JL_LAT_LAT l)) else none
  let s := s.modLane l fun x => { x with
    tsId := (id + 1) % 65536, tsOut := (x.tsOut ++ [(id, s.now)]).drop (x.tsOut.length - 31), tsyncAt := s.now }
  s.sendRec l (.tsync s.claim id s.now lat s.tsyncRate)

/-! SET and WAVE (R278–R283) -/

/-- A SET or WAVE record as it is sent. -/
def Ctl.record (claim : Nat) (c : Ctl) : JRec :=
  if c.wave then .wave claim c.applySeq c.recId c.head c.band c.waveId else .set claim c.applySeq c.recId c.entries

/-- The waiting SET and WAVE records of a lane sent, WAVE before SET (R255), each with its REC_ID (R278). -/
def State.ctlFlush (s : State) (l : Nat) : State :=
  let waits (wave : Bool) : List Nat := idxs (s.laneSt l).ctl.length fun i =>
    ((s.laneSt l).ctl[i]?).any fun c => c.copies == 0 && c.wave == wave
  s.each (waits true ++ waits false) fun s i =>
    let id := (s.get (JL_CTL_STAT_REC_ID l) + 1) % 65536
    let s := s.modLane l fun x => { x with
      ctl := modAt x.ctl i fun c => { c with recId := id, copies := 1, sentAt := s.now } }
    let s := ((s.put (JL_CTL_STAT_REC_ID l) id).flag (JL_CTL_STAT_ACK_PENDING l) true).put (JL_CTL_STAT_RESENDS l) 0
    match (s.laneSt l).ctl[i]? with
    | some c => s.sendUse l (c.record s.claim)
    | none => s

/-! RETIME (R262, R263) -/

/-- A line that needs nothing more: fired as stamped, or never to be sent and its time gone. -/
def ChanLine.past (x : ChanLine) (now : Nat) : Bool :=
  match x.stamp with
  | some f => decide (f ≤ now)
  | none => (x.unsent || x.voided) && decide (x.pred ≤ now)

/-- Lines past their fire time let go. -/
def State.linesPrune (s : State) (ch : Nat) : State := s.modLines ch fun l => l.filter fun x => !x.past s.now

/-- Whether a line's stamped time must move: outstanding, not frozen, beyond THR_NS (R201, R262). -/
def State.moves (s : State) (x : ChanLine) : Bool :=
  match x.stamp with
  | some f => decide (s.now + 50000 ≤ f) && decide (s.get JL_RT_CFG_THR_NS < ((x.pred : Int) - f).natAbs)
  | none => false

/-- Lines split into runs of consecutive sequence numbers, each of at most 255. -/
def seqRuns : List ChanLine → List (List ChanLine)
  | [] => []
  | x :: l =>
    match seqRuns l with
    | (y :: r) :: rs => if y.seq == (x.seq + 1) % 2 ^ 24 && decide (r.length < 254) then (x :: y :: r) :: rs
        else [x] :: (y :: r) :: rs
    | rs => [x] :: rs

/-- One RETIME record for a run of lines (R263). -/
def State.sendRetime (s : State) (ch : Nat) (run : List ChanLine) : State :=
  let new (x : ChanLine) : Nat := max x.pred (s.now + 50000)
  let deltas : List Int := run.map fun x => (new x : Int) - (x.stamp.getD 0 : Nat)
  let small := deltas.all fun d => decide (d.natAbs ≤ 32767)
  let entries : List Int := if small then deltas else run.map fun x => ((new x % 2 ^ 32 : Nat) : Int)
  let s := s.sendUse ch (.retime s.claim ((run.map (·.seq)).headD 0) small entries)
  let s := s.each run fun s x => s.modLine ch x.seq fun y => { y with stamp := some (new x) }
  let s := s.inc (JL_RT_CNT_RETIMES ch)
  if small then s else s.inc (JL_RT_CNT_FULL ch)

/-- The RETIME records of a channel at one instant; on a lane that is not READY they are discarded (R242, R262), and a unit that
holds no sequence numbers or joins has none (R373). -/
def State.retime (s : State) (ch : Nat) : State :=
  let runs := seqRuns ((s.chanLines ch).filter s.moves)
  if !s.sendsLines then s
  else if s.flowing ch then s.each runs fun s r => s.sendRetime ch r
  else if s.ready ch then s
  else s.add (LANE_UNSENT_COUNT ch) runs.length

/-- A retime cycle of a channel (R262). -/
def State.retimeCycle (s : State) (ch : Nat) : State :=
  if s.past (s.laneSt ch).retimeAt (s.get JL_RT_CFG_CYCLE_US * 1000) then
    ((s.modLane ch fun x => { x with retimeAt := s.now }).retime ch).linesPrune ch
  else s

/-! The order of R255 -/

/-- A TSYNC that is due on a READY lane in L0 (R230). -/
def State.tsyncGo (s : State) (l : Nat) : State :=
  if s.flowing l && s.past (s.laneSt l).tsyncAt (s.get TB_HDM_CFG_TSYNC_US * 1000) then s.sendTsync l else s

/-- What leaves on a lane before a LINE record or an HB that is ready with it (R255): a TSYNC that is due, the RETIMEs of a cycle
that is due, the WAVEs and SETs that wait. -/
def State.recordsFirst (s : State) (l : Nat) : State :=
  if s.flowing l then
    let s := (s.tsyncGo l).retimeCycle l
    if s.pair.batch then s else s.ctlFlush l
  else s

end Sys2Proof.Machine
end

