-- ==== Sys2Proof/Machine/InFlight.lean ====
section
/-! DEFINITION. Lines in flight and the VOIDs that withdraw them (spec/09, R45, R201, R259, R307), SAFE (R302–R304), bar enables
(R296), the derived words that agree at every instant (R522), and the shape of every command's meaning. -/

namespace Sys2Proof.Machine

/-! Lines in flight (R256–R262) -/

def State.screenBar (s : State) (b : Nat) : ScreenBar := s.screen.bars.getD b ScreenBar.reset
def State.modBar (s : State) (b : Nat) (f : ScreenBar → ScreenBar) : State :=
  { s with screen := { s.screen with bars := modAt s.screen.bars b f } }

def PageRun.pitchDiv (r : PageRun) : Nat := bits r.w1 1 0

/-- The page whose lines or gap hold a job line (R196). -/
def State.runAt (s : State) (ord line : Nat) : Option PageRun :=
  s.scan.runs.foldl (fun r x => if x.ord == ord && decide (x.firstLine ≤ line) then some x else r) none

/-- The web length of a line of a page run (R305). -/
def PageRun.lineSpan (r : PageRun) (line : Nat) : Int × Int := Sys2Proof.Machine.lineSpan r.pitchDiv r.start r.firstLine line

/-- A line's web length waste-marked (R305). -/
def State.wasteOfLine (s : State) (cause : Nat) (r : PageRun) (line : Nat) : State :=
  s.waste (2 ^ cause) (r.lineSpan line).1 (r.lineSpan line).2

/-- A line that neither unit of a pair sent marked as PAIR, which the copy carries to the standby (R305, R307). -/
def State.wastePair (s : State) (ord line : Nat) : State :=
  match s.runAt ord line with
  | some r => s.wasteCopy 128 (r.lineSpan line).1 (r.lineSpan line).2
  | none => s

/-- Whether the unit's own state makes every LINE record that leaves VOID (R227, R303). -/
def State.voidAll (s : State) : Bool :=
  s.is FS_SAFE_STAT_SAFE || (s.base == .standby && (s.get TB_PAIR_STAT_STATE == 1 || s.tb.wide))

/-- A line this unit did not send whole (R307): an unpaired unit waste-marks it under a cause; a standby reports
it; an active marks it as PAIR once the partner reports it too, or at once when no partner sends lines. -/
def State.unsentLine (s : State) (ch : Nat) (x : ChanLine) (cause kind : Nat) : State :=
  match s.base with
  | .single => match s.runAt x.ord x.line with
    | some r => s.wasteOfLine cause r x.line
    | none => s
  | .active =>
    if s.pair.unsentPartner.contains (ch, x.seq) || s.pair.partnerJoining || !s.pair.partnerUp then
      s.wastePair x.ord x.line
    else { s with pair := { s.pair with unsentOwn := s.pair.unsentOwn ++ [(ch, x.seq, x.ord, x.line)] } }
  | .standby => s.hbItem (4 * 2 ^ 24 + ch + kind * 256) x.seq 1 0
  | _ => s

/-- A LINE record of a line, VOID or with its payload. -/
def ChanLine.record (x : ChanLine) (claim stamp : Nat) (void : Bool) : JRec :=
  if void then .line claim x.seq (stamp % 2 ^ 32) x.line true x.bits3 x.gap x.test 0 0 []
  else .line claim x.seq (stamp % 2 ^ 32) x.line false x.bits3 x.gap x.test x.slots x.pchk x.payload

/-- Whether a line is of a group. -/
def DigGroup.has (g : DigGroup) (x : ChanLine) : Bool :=
  x.bar == g.bar && x.ord == g.ord && decide (g.first ≤ x.line) && decide (x.line ≤ g.last)

/-- A VOID sent for a line counted in its output digest, under way or composed (R488). -/
def State.voidSeen (s : State) (x : ChanLine) : State :=
  s.modBar x.bar fun b => if b.digLines != 0 && b.lastLine.map (·.1) == some x.ord && decide (b.digFirst ≤ x.line) then
      { b with digVoids := b.digVoids + 1 }
    else { b with digWait := b.digWait.map fun g => if g.has x then { g with voids := g.voids + 1 } else g }

/-- The waste cause of a line sent VOID (R305). -/
def State.voidCause (s : State) (x : ChanLine) : Nat := if x.safe || s.is FS_SAFE_STAT_SAFE then 5 else 0

/-- A record withdrawn by a VOID after it has left, or voided before it leaves (R45, R259). The VOID is a LINE record stamped
under R201: none is sent where less than 50 µs remain, and none by a unit that sends no lines (R373). -/
def State.lineVoid (s : State) (ch : Nat) (x : ChanLine) : State :=
  if x.voided || x.unsent then s
  else
    match x.stamp with
    | none => s.modLine ch x.seq fun y => { y with void := true, safe := y.safe || s.is FS_SAFE_STAT_SAFE }
    | some f =>
      if s.sendsLines && s.flowing ch && decide (s.now + 50000 ≤ f) then
        let s := s.recordsFirst ch
        let g := max x.pred (s.now + 50000)
        let s := s.sendUse ch (x.record s.claim g true)
        let s := s.modLine ch x.seq fun y => { y with stamp := some g, voided := true }
        ((s.inc (JL_STAT_VOIDCNT ch)).voidSeen x).unsentLine ch x (s.voidCause x) 0
      else s

/-- Every line whose record has left withdrawn (R259). -/
def State.withdrawAll (s : State) : State :=
  s.each (List.range 96) fun s ch => s.each ((s.chanLines ch).filter (·.stamp.isSome)) fun s x => s.lineVoid ch x

/-! Bar enables and SAFE -/

/-- BAR_EN[b] (R296, R495): driven only in a role, with no SAFE or SHUTDOWN, no trip and no gate. -/
def State.barEn (s : State) (b : Nat) : Bool :=
  s.core == .running && s.bitOf FS_BAR_EN_EN b && s.inRole && !s.is FS_SAFE_STAT_SAFE && !s.shutdown &&
    !s.is (FS_BAR_WD_TRIPPED b) && !s.bitOf PW_GATE_BARS b && !s.is GL_ROLE_STAT_REPLAY && s.pwr.sleepAt.isNone

/-- A SAFE cause's bit in FS_SAFE_STAT. -/
def safeField : Nat → Fld
  | 0 => FS_SAFE_STAT_INH_PIN
  | 1 => FS_SAFE_STAT_INH_CMD
  | 2 => FS_SAFE_STAT_POS_LOST
  | 3 => FS_SAFE_STAT_REF_LOST
  | _ => FS_SAFE_STAT_GARNET

/-- The bars whose web the SAFE period marks on a unit that decides: those of the running job (R303); all of them, while no
job runs, where WASTE_MARK is asserted whatever runs (R181, R212). -/
def State.safeBars (s : State) : Nat :=
  if !s.is FS_SAFE_STAT_SAFE || !s.authoritative then 0
  else if s.is PG_JOB_STAT_RUNNING then (s.running.map Job.bars).getD 0
  else if s.safeHard then 255 else 0

/-- The SAFE waste cause as it stands: it ends, and begins anew, where the bars it marks change. -/
def State.safeWaste (s : State) : State :=
  let bars := s.safeBars
  if ((s.fire.opens.find? (·.bit == 5)).map (·.bars)).getD 0 = bars then s
  else
    let s := s.wasteClose 5 0
    if bars = 0 then s else s.wasteOpen 5 bars

/-- SAFE entered with no cause bit (R22) or on a cause's account: the first entry raises 0x4203, triggers the recorder,
withdraws the lines whose records have left and, on a unit that decides, opens the SAFE waste cause (R259, R302, R303, R493). -/
def State.safeEnter (s : State) : State :=
  if s.is FS_SAFE_STAT_SAFE then s
  else
    let s := s.flag FS_SAFE_STAT_SAFE true
    let s := s.raise 0x4203 0 (s.get ⟨FS_SAFE_STAT, 4, 0⟩) 0
    let s := if s.is AG_TRIG_CFG_SAFE then s.trigger 4 0x4203 else s
    s.withdrawAll.safeWaste

/-- SAFE set with a cause (R302). -/
def State.safeSet (s : State) (cause : Nat) : State := (s.flag (safeField cause) true).safeEnter

/-- SAFE released: causes cleared, the SAFE waste cause ends, 0x4204; lines whose composition began before are sent VOID still
(R304). -/
def State.safeRelease (s : State) : State :=
  if s.is FS_SAFE_STAT_SAFE then
    let hold (x : ChanLine) : ChanLine := if x.stamp.isNone then { x with void := true, safe := true } else x
    let s := { s with lines := s.lines.map fun (l : List ChanLine) => l.map hold }
    ((((s.put ⟨FS_SAFE_STAT, 4, 0⟩ 0).flag FS_SAFE_STAT_SAFE false).wasteClose 5 0).raise 0x4204 0 0 0)
  else s

/-! Derived words (R522) -/

/-- GL_DEGRADED's conditions, all but TRIM (R522's register). -/
def State.degraded (s : State) : Nat :=
  let lane := s.runBars.any fun b => (barLanes b).any fun ch => !s.ready ch
  let enc := s.is WP_SRC_STAT_PRI_FAILED || s.is WP_SRC_STAT_SEC_FAILED
  let ref := !(s.is TB_REF_STAT_IN0_GOOD && s.is TB_REF_STAT_IN1_GOOD) ||
    s.get TB_REF_STAT_SEL != s.get TB_REF_CFG_PREF
  let partner := s.pairEn && (s.is PR_STAT_STALE ||
    ((s.base == .active || s.base == .standby) &&
      (s.pair.partnerStale || s.pair.partnerLost || s.pair.partnerDemoted || !s.pair.partnerUp)) ||
    s.base == .single)
  b2n lane + 2 * b2n enc + 4 * b2n ref + 8 * b2n (s.is PW_TEMP_SOURCE) + 16 * b2n partner +
    32 * b2n (s.get TB_PAIR_STAT_STATE == 2)

/-- Bits 4 to 10 of GL_ROLE_STAT as the other registers stand (R522). -/
def State.overlays (s : State) : Nat :=
  b2n (s.is ⟨GL_DEGRADED, 6, 0⟩) + 2 * b2n (s.is FS_SAFE_STAT_SAFE) + 8 * b2n (s.is PR_STAT_STALE) +
    16 * b2n (s.is PR_STAT_DEMOTED) + 32 * b2n (s.is PR_STAT_CONTEST) + 64 * b2n (s.is PR_STAT_RESYNC_PHASE)

/-- GL_DEGRADED's conditions brought up to date. -/
def State.degSettle (s : State) : State := s.put ⟨GL_DEGRADED, 5, 0⟩ s.degraded

/-- GL_ROLE_STAT brought into agreement with PR_STAT, FS_SAFE_STAT and GL_DEGRADED; CHANGES counts a difference. -/
def State.roleSettle (s : State) : State :=
  if s.get ⟨GL_ROLE_STAT, 10, 4⟩ == s.overlays then s
  else (s.inc GL_ROLE_STAT_CHANGES).put ⟨GL_ROLE_STAT, 10, 4⟩ s.overlays

/-- A bar whose BAR_EN is high again ends its WATCHDOG cause (R299). -/
def State.watchdogSettle (s : State) : State :=
  s.each (s.fire.opens.filter fun o => o.bit == 6 && (barsOf o.bars).all s.barEn) fun s o => s.wasteClose 6 o.bars

/-- What follows every command while the core runs: pins, waste ranges and the derived words agree with the state. -/
def settle (s : State) : State := s.safeWaste.watchdogSettle.wasteSettle.encoSettle.degSettle.roleSettle

/-- The meaning of a command that only a running core can obey: the clock moves to its instant; the effect, then the
derived words; a core that does not run keeps everything but the clock. -/
def run (t : Nat) (f : State → State) (s : State) : Host.Outcome State Fault Refusal :=
  .next ((s.advance t).whenRunning fun s => (f s).whenRunning settle)

end Sys2Proof.Machine
end

