-- ==== Sys2Proof/Machine/Time.lean ====
section
/-! DEFINITION. Time base and network time (spec/07): rate and offset, reference inputs, the PTP bridge and queue, and
the pair servo. -/

namespace Sys2Proof.Machine

/-! Rate and offset (R206–R208) -/

/-- TB_INCR as Q8.40. -/
def State.tbIncr (s : State) : Nat := s.get ⟨TB_INCR_HI, 15, 0⟩ * 2 ^ 32 + s.get TB_INCR_LO_INCR

/-- Whether a rate is one TB_INCR accepts (R206). -/
def incrOk (v : Nat) : Bool := decide (2 ^ 40 - 2 ^ 30 ≤ v) && decide (v ≤ 2 ^ 40 + 2 ^ 30)

/-- The rate in force set at the present instant, with no step of device time (R206). -/
def State.setRate (s : State) (rate : Nat) : State :=
  let s := s.reanchor
  { s with tb := { s.tb with rate := rate } }

/-- Device time stepped by a signed number of parts, to the 40 fraction bits of BASE_T (R204, log 9); any slew remainder is left as
given. -/
def State.stepTime (s : State) (d remain : Int) : State :=
  let s := s.reanchor
  { s with tb := { s.tb with
    baseT := (((s.tb.baseT : Int) + d) % ((2 ^ 64 * nsU : Nat) : Int)).toNat / 1000000 * 1000000
    remain := remain } }

/-- The present adjustment of the tick as a signed number of ns (R207). -/
def State.adjNs (s : State) : Int := sgn 64 ((s.tb.adj.getD 0).toNat)

/-- Whether an adjustment may stand (R207): while a job runs, it and the remainder stay within 1 ms. -/
def State.adjFits (s : State) (ns : Int) : Bool :=
  !s.is PG_JOB_STAT_RUNNING || decide (((ns * nsU + s.remNow).natAbs) ≤ 1000000 * nsU)

/-- Whether the one adjustment of the words committed in the tick may stand (R207). -/
def State.adjOk (s : State) : Bool := s.tb.adj.isNone || s.adjFits s.adjNs

/-- What a tick end does with the rate and adjustment committed in it: INCR re-anchored first, then the adjustment
stepped or slewed (R206, R207). -/
def State.timeCommit (s : State) : State :=
  let s := match s.tb.newIncr with
    | none => s
    | some v => { s.setRate v with tb := { (s.setRate v).tb with newIncr := none } }
  match s.tb.adj with
  | none => s
  | some _ =>
    let d := s.adjNs * nsU
    let s' := if !s.adjOk then s
      else if s.is PG_JOB_STAT_RUNNING then
        let r := s.reanchor
        { r with tb := { r.tb with remain := r.tb.remain + d } }
      else (s.stepTime (d + s.remNow) 0).raise 0x2206 0 0 0
    { s' with tb := { s'.tb with adj := none } }

/-- Limits of the TB_ registers on one word (R206's pair of words is judged when the command's items have applied). -/
def limitTb (_ : State) (a new _ : Nat) : Verdict :=
  if a = TB_OFS_CFG then rangeUnless (fieldIn new 9 0 1 500)
  else if a = TB_PAIR_LIM then rangeUnless (fieldIn new 7 0 5 200)
  else if a = TB_HDM_CFG then rangeUnless (fieldIn new 9 0 10 1000)
  else none

/-- What a write to a TB_ register sets off: the rate and the adjustment wait for the tick's end (R206, R207), and are
judged when the command's items have applied; a new slew rate re-anchors a slew under way. -/
def actTb (a mask val : Nat) (before s : State) : Nat × State :=
  if a = TB_INCR_LO ∨ a = TB_INCR_HI then
    (stOk, { s with tb := { s.tb with newIncr := some s.tbIncr } })
  else if a = TB_OFS_ADJ_LO ∨ a = TB_OFS_ADJ_HI then
    let old := (s.tb.adj.getD 0).toNat
    let w := val &&& mask
    let new := if a = TB_OFS_ADJ_LO then setBits old 31 0 w else setBits old 63 32 w
    (stOk, { s with tb := { s.tb with adj := some (new : Nat) } })
  else if a = TB_OFS_CFG then
    (stOk, { s with tb := before.reanchor.tb })
  else (stOk, s)

/-- The slew remainder has been worked off: device time is re-anchored at the normal rate (R208). -/
def execOfsSlewEnd (t : Nat) (s : State) : Host.Outcome State Fault Refusal :=
  run t (fun s => if s.tb.remain != 0 && s.remNow == 0 then s.reanchor else s) s

/-! Reference inputs (R210–R213) -/

def refGood (i : Nat) : Fld := if i = 0 then TB_REF_STAT_IN0_GOOD else TB_REF_STAT_IN1_GOOD

/-- The PLL switched to an input, hitlessly (R211). -/
def State.refSwitch (s : State) (i : Nat) : State :=
  ((s.put TB_REF_STAT_SEL i).inc TB_REF_STAT_SWITCHES).raise 0x2201 i 0 0

/-- Both inputs BAD: holdover, LOST, SAFE (R212). The takeover of an ACTIVE unit is the pair logic's. -/
def State.refLost (s : State) : State :=
  (((s.flag TB_REF_STAT_HOLDOVER true).flag TB_REF_STAT_LOST true).raise 0x2203 0 0 0).safeSet 3

/-- An input becomes BAD (R210): counted as an event; the PLL switches or goes into holdover (R211, R212). -/
def State.refBad (s : State) (i : Nat) : State :=
  if i < 2 ∧ s.is (refGood i) then
    let s := (s.flag (refGood i) false).raise 0x2202 i 0 0
    let s := { s with refs := modAt s.refs i fun _ => ⟨none⟩ }
    if !s.is (refGood (1 - i)) then s.refLost
    else if s.get TB_REF_STAT_SEL == i then s.refSwitch (1 - i) else s
  else s

/-- An input returns to GOOD (R210): after a loss the PLL relocks to it (R212). -/
def State.refBack (s : State) (i : Nat) : State :=
  if i < 2 ∧ !s.is (refGood i) then
    let s := (s.flag (refGood i) true).raise 0x2204 i 0 0
    let s := { s with refs := modAt s.refs i fun _ => ⟨some s.now⟩ }
    if s.is TB_REF_STAT_LOST then
      ((s.put TB_REF_STAT_SEL i).flag TB_REF_STAT_HOLDOVER false).flag TB_REF_STAT_LOST false
    else s
  else s

/-- With REVERT 1 the PLL returns to PREF once that input has been GOOD for 100 ms (R211); an input with no fault since reset has. -/
def State.refRevert (s : State) : State :=
  let p := s.get TB_REF_CFG_PREF
  let long := match (s.refs.getD p ⟨none⟩).clearSince with
    | none => true
    | some a => s.past a 100000000
  if s.is TB_REF_CFG_REVERT && s.get TB_REF_STAT_SEL != p && s.is (refGood p) && long then s.refSwitch p else s

def execRefInputGood (t input : Nat) (s : State) : Host.Outcome State Fault Refusal :=
  run t (·.refBack input) s

/-- A 100 ms window measured (R213): 0x2205 once until the difference falls back below the limit. -/
def execRefDiffWindow (t : Nat) (diff : Int) (s : State) : Host.Outcome State Fault Refusal :=
  run t (fun s =>
    if s.is TB_REF_STAT_IN0_GOOD && s.is TB_REF_STAT_IN1_GOOD then
      let lim := s.get TB_REF_CFG_DIFF_LIM
      let was := s.tb.diffOver
      let s := s.sput TB_REF_DIFF_DIFF diff
      let s := { s with tb := { s.tb with diffOver := decide (lim < diff.natAbs) || (was && diff.natAbs == lim) } }
      if lim < diff.natAbs ∧ !was then s.raise 0x2205 0 (unsgn 32 diff) 0 else s
    else s) s

/-! The bridge and PTP (R217–R222) -/

/-- Whether the transparent clock corrects a forwarded message (R218, R219). -/
def tcCorrects (m : PtpMsg) : Bool :=
  m.ver == 2 && (m.mtype == 0 || m.mtype == 1) && m.event && decide (m.tags ≤ 1)

def ptpLatRx (port : Nat) : Fld := if port = 0 then HP_PTP_LAT0_RX else HP_PTP_LAT1_RX
def ptpLatTx (port : Nat) : Fld := if port = 0 then HP_PTP_LAT0_TX else HP_PTP_LAT1_TX

/-- Device time moved by a signed number of ns, 64 bits. -/
def stampBy (now : Nat) (d : Int) : Nat := unsgn 64 ((now : Int) + d)

/-- A PTP message copied into the receive queue (R220). -/
def State.ptpQueue (s : State) (port : Nat) (m : PtpMsg) : State :=
  if s.is HP_PTP_CFG_OC_EN && m.ver == 2 && m.domain == s.get HP_PTP_CFG_DOMAIN &&
      s.bitOf HP_PTP_CFG_TRANSPORT m.transport && m.toPtp then
    if s.ptp.rxq.length < 32 then
      let e : PtpEntry := ⟨stampBy s.now (-s.sget (ptpLatRx port)), s.nowFrac, port, m.transport, decide (m.mtype < 4),
        min 64 m.bytes.length, m.bytes.take 64⟩
      ({ s with ptp := { s.ptp with rxq := s.ptp.rxq ++ [e], ovfRun := false } }).put HP_PTP_RXQ_STAT_ENTRIES
        (s.ptp.rxq.length + 1)
    else
      let s := s.inc HP_PTP_RXQ_STAT_OVF
      if s.ptp.ovfRun then s
      else ({ s with ptp := { s.ptp with ovfRun := true } }).raise 0x220A 0 0 0
  else s

/-- A UDP checksum updated for words that change (R218): a zero IPv4 one stays. -/
def udpUpdate (transport sum : Nat) (old new : List Byte) : Nat :=
  if transport = 0 ∧ sum = 0 then sum
  else
    let words (l : List Byte) : List Nat := (List.range (l.length / 2)).map fun i => beAt l (2 * i) 2
    let n := (0xFFFF - sum % 65536) + ((words old).map (0xFFFF - ·)).sum + (words new).sum
    let c := 0xFFFF - (if n = 0 then 0 else (n - 1) % 0xFFFF + 1)
    if c = 0 then 0xFFFF else c

/-- One byte into the CRC of a frame check sequence, reflected 0x04C1_1DB7 (IEEE 802.3, log 49). -/
def fcsByte (c : BitVec 32) (b : Byte) : BitVec 32 :=
  (List.range 8).foldl (fun c _ => if c.getLsbD 0 then (c >>> 1) ^^^ 0xEDB88320#32 else c >>> 1) (c ^^^ b.setWidth 32)

/-- A frame with its frame check sequence. -/
def withFcs (bs : List Byte) : List Byte := bs ++ leBytes 4 ((bs.foldl fcsByte 0xFFFFFFFF#32) ^^^ 0xFFFFFFFF#32).toNat

/-- The message a transparent clock passes on: the residence time added to its correctionField, at offset 8 (R218). -/
def ptpCorrected (m : PtpMsg) (residence : Int) : List Byte :=
  m.bytes.take 8 ++ beBytes 8 (unsgn 64 ((beAt m.bytes 8 8 : Int) + residence)) ++ m.bytes.drop 16

/-- The bytes before the message, with the UDP checksum that ends them (IEEE 802.3 has none) updated for the change (R218). -/
def ptpHead (m : PtpMsg) (residence : Int) : List Byte :=
  if m.transport = 2 then m.head
  else
    let n := m.head.length - 2
    m.head.take n ++ beBytes 2 (udpUpdate m.transport (beAt m.head n 2) (slice m.bytes 8 8) (slice (ptpCorrected m residence) 8 8))

/-- The frame a transparent clock passes on, with its FCS recomputed (R218). -/
def ptpFrame (m : PtpMsg) (residence : Int) : List Byte :=
  withFcs (ptpHead m residence ++ ptpCorrected m residence ++ m.tail)

/-- The residence time of a frame in 2^-16 ns, egress stamp minus ingress stamp, each corrected by HP_PTP_LATn (R214, R218). -/
def State.residence (s : State) (port : Nat) (f : BridgeFrame) : Int :=
  (f.residence : Int) + (s.sget (ptpLatRx port) + s.sget (ptpLatTx (1 - port))) * 65536

/-- Whether the queue of a direction, 256 KiB, has room for a frame beside those that have still to leave (R217). -/
def State.bridgeRoom (s : State) (toPort len : Nat) : Bool :=
  let waits := s.ptp.fwd.filter fun f => f.1 == toPort && decide (s.clk < f.2.2)
  decide ((waits.map (·.2.1)).sum + len ≤ 0x40000)

/-- A frame put in the queue of a direction until its egress. -/
def State.bridgePut (s : State) (toPort len until_ : Nat) : State :=
  { s with ptp := { s.ptp with fwd := s.ptp.fwd.filter (fun f => decide (s.clk < f.2.2)) ++ [(toPort, len, until_)] } }

/-- A frame forwarded to the other port, or dropped and counted there (R217, R218). -/
def State.forward (s : State) (port : Nat) (f : BridgeFrame) : State :=
  let drop := if port = 0 then HP_FWD_DROP_TO_DP1 else HP_FWD_DROP_TO_DP0
  if f.len > 9216 then s
  else if f.linkDown || !s.bridgeRoom (1 - port) f.len then s.inc drop
  else
    let s := s.bridgePut (1 - port) f.len (s.clk + f.residence / 65536)
    match f.ptp.filter fun m => s.is HP_PTP_CFG_TC_EN && tcCorrects m with
    | some m => (s.inc HP_PTP_TC_CNT_COUNT).emit (.bridged (1 - port) f.id (some (ptpFrame m (s.residence port f))))
    | none => s.emit (.bridged (1 - port) f.id none)

/-- What the unit does with a frame delivered to it: PTP goes to the queue, a frame that is none of R411's services, and
one over an IP version that is off (R410), is dropped and counted. -/
def State.deliver (s : State) (port : Nat) (f : BridgeFrame) : State :=
  match f.ptp with
  | some m =>
    if m.transport < 2 && !s.ipOn 1 (m.transport == 1) then (if f.dst == .group then s else s.inc HP_RX_DROP_DP)
    else s.ptpQueue port m
  | none => if f.service || f.dst == .group then s else s.inc HP_RX_DROP_DP

/-- A frame received on DP0 or DP1 (R217). -/
def execBridgeFrame (t port : Nat) (f : BridgeFrame) (s : State) : Host.Outcome State Fault Refusal :=
  run t (fun s =>
    if s.hostUp && decide (port < 2) then
      match f.dst with
      | .own => s.deliver port f
      | .group => (s.forward port f).deliver port f
      | .reserved => s
      | .other => s.forward port f
    else s) s

/-- The oldest entry of the receive queue as the words of R221. -/
def State.rxEntryWord (s : State) (k : Nat) : Nat :=
  match s.ptp.rxq with
  | [] => 0
  | e :: _ =>
    match k with
    | 0 => e.stamp % 2 ^ 32
    | 1 => e.stamp / 2 ^ 32
    | 2 => e.frac + e.port * 2 ^ 16 + e.transport * 2 ^ 17 + b2n e.event * 2 ^ 19 + e.len * 2 ^ 20 + 2 ^ 31
    | 3 => 0
    | k => leAt e.bytes (4 * (k - 4)) 4

/-- The oldest entry of the receive queue removed (R221). -/
def State.rxPop (s : State) : State :=
  let q := s.ptp.rxq.drop 1
  ({ s with ptp := { s.ptp with rxq := q, ovfRun := false } }).put HP_PTP_RXQ_STAT_ENTRIES q.length

/-- SEND (R222): the buffer's message framed and sent on the chosen port; refused by its limits or while BUSY. -/
def State.ptpSend (s : State) : Nat × State :=
  let len := s.get HP_PTP_TX_CTRL_LEN
  let tr := s.get HP_PTP_TX_CTRL_TRANSPORT
  if s.is HP_PTP_TX_CTRL_BUSY then (stBusy, s)
  else if tr = 3 ∨ !s.bitOf HP_PTP_CFG_TRANSPORT tr ∨ len < 34 ∨ 64 < len then (stRange, s)
  else
    let bytes := ((List.range 16).flatMap fun k => leBytes 4 (s.rd (HP_PTP_TXBUF k))).take len
    let mtype := beAt bytes 0 1 % 16
    let port := s.get HP_PTP_TX_CTRL_PORT
    let s := s.emit (.ptp port tr (if mtype < 4 then 319 else 320) bytes)
    let s := { s with ptp := { s.ptp with tx := some (port, decide (mtype < 4), beAt bytes 30 2) } }
    (stOk, s.flag HP_PTP_TX_CTRL_BUSY true)

/-- The message has left (R222): an event message's egress stamp and sequenceId are stored and DONE set. -/
def execPtpTxDone (t : Nat) (s : State) : Host.Outcome State Fault Refusal :=
  run t (fun s =>
    match s.ptp.tx with
    | none => s
    | some (port, event, seq) =>
      let s := ({ s with ptp := { s.ptp with tx := none } }).flag HP_PTP_TX_CTRL_BUSY false
      if event then
        let st := stampBy s.now (s.sget (ptpLatTx port))
        let s := (s.put HP_PTP_TX_STAMP_LO_T st).put HP_PTP_TX_STAMP_HI_T (st / 2 ^ 32)
        let s := (s.put HP_PTP_TX_STAT_T_FRAC s.nowFrac).put HP_PTP_TX_STAT_SEQ seq
        s.flag HP_PTP_TX_STAT_DONE true
      else s) s

/-! The pair servo (R223–R229) -/

/-- The mean of the tick's θ in 1/16 ns, rounded to nearest (R225, log 9). -/
def State.servoE (s : State) : Option Int :=
  if s.tb.thetas.isEmpty then none
  else
    let sum := s.tb.thetas.foldl (· + ·) 0
    let n : Int := 2 * s.tb.thetas.length
    some ((2 * sum + n) / (2 * n))

/-- The servo's device-time step: −e, with the integral term set to 0 and event 0x2209 (R226). -/
def State.servoStep (s : State) (e : Int) : State :=
  let s := s.stepTime (-(e * (nsU / 16 : Nat))) s.remNow
  let s := { s with tb := { s.tb with integral := 0, inTicks := 0, outTicks := 0 } }
  (s.put TB_PAIR_STAT_STATE 1).raise 0x2209 0 0 0

/-- The law of R225 applied for an offset e in 1/16 ns, in whole ppb as R9 divides. -/
def State.servoLaw (s : State) (e16 : Int) : State :=
  let i := clamp (s.tb.integral + tdv (e16 * s.get TB_PAIR_CFG_KI) 4096) (-200000) 200000
  let r := clamp (-(tdv (e16 * s.get TB_PAIR_CFG_KP) 256 + i)) (-200000) 200000
  let eff := roundR ((s.tbIncr : Rat) * (1 + (r : Rat) / 1000000000))
  let s := s.setRate eff.toNat
  ({ s with tb := { s.tb with integral := i } }).sput TB_PAIR_RATE_VALUE r

/-- The servo states TRACK and LOCKED after the law (R226). -/
def State.servoCount (s : State) (e16 : Int) : State :=
  let inside := decide (e16.natAbs ≤ 16 * s.get TB_PAIR_LIM_LIMIT_NS)
  let s := { s with tb := { s.tb with
    inTicks := if inside then s.tb.inTicks + 1 else 0, outTicks := if inside then 0 else s.tb.outTicks + 1 } }
  if s.get TB_PAIR_STAT_STATE == 2 && decide (4 ≤ s.tb.inTicks) then
    (s.put TB_PAIR_STAT_STATE 3).raise 0x2207 0 0 0
  else if s.get TB_PAIR_STAT_STATE == 3 && decide (4 ≤ s.tb.outTicks) then
    (((s.put TB_PAIR_STAT_STATE 2).inc TB_PAIR_STAT_UNLOCKS).raise 0x2208 0 0 0)
  else s

/-- The servo's states at a tick end, on a standby or a joining unit (R225, R226). In ACQUIRE, `inTicks` 1 says the step has
been made, so the state moves to TRACK. -/
def State.servoMove (s : State) : State :=
  let st := s.get TB_PAIR_STAT_STATE
  let s' := match s.servoE with
    | none => if st == 1 && s.tb.inTicks == 1 then
        { s.put TB_PAIR_STAT_STATE 2 with tb := { s.tb with inTicks := 0, outTicks := 0 } } else s
    | some e =>
      let s := (s.sput TB_PAIR_OFS_VALUE e)
      let wide := decide (16000 < e.natAbs)
      let s := { s with tb := { s.tb with wide := wide } }
      let mark (s : State) : State := { s with tb := { s.tb with inTicks := 1 } }
      match st with
      | 1 =>
        if s.tb.inTicks == 1 then
          let s := { s.put TB_PAIR_STAT_STATE 2 with tb := { s.tb with inTicks := 0, outTicks := 0 } }
          if wide then mark (s.servoStep e) else (s.servoLaw e).servoCount e
        else mark (s.servoStep e)
      | 4 =>
        if s.is PR_STAT_STALE || !s.pair.partnerUp then s
        else if wide then mark (s.servoStep e)
        else ({ s.put TB_PAIR_STAT_STATE 2 with tb := { s.tb with inTicks := 0, outTicks := 0 } }).servoLaw e
      | 0 => s
      | _ => if wide then mark (s.servoStep e) else (s.servoLaw e).servoCount e
  { s' with tb := { s'.tb with thetas := [] } }

/-- The servo at a tick end: a standby that enters ACQUIRE, or whose offset exceeds 1,000 ns, withdraws what it has sent
(R227, R259). -/
def State.servoTick (s : State) : State :=
  let void := s.voidAll
  let s := s.servoMove
  if s.voidAll && !void then s.withdrawAll else s

/-- The servo started in ACQUIRE (R226, R229). -/
def State.servoStart (s : State) : State :=
  ({ s with tb := { s.tb with integral := 0, inTicks := 0, outTicks := 0, thetas := [] } }).put TB_PAIR_STAT_STATE 1

/-- The servo held: its rate stays as it is (R226). -/
def State.servoHold (s : State) : State :=
  if s.is TB_PAIR_STAT_STATE then s.put TB_PAIR_STAT_STATE 4 else s

/-- At takeover INCR_eff becomes TB_INCR by a re-anchor and the servo stops (R229). -/
def State.servoAdopt (s : State) : State :=
  let eff := s.tb.rate
  let s := s.setRate eff
  ((s.put TB_INCR_LO_INCR eff).put ⟨TB_INCR_HI, 15, 0⟩ (eff / 2 ^ 32)).put TB_PAIR_STAT_STATE 0

/-- A unit that ceases to be a standby without an active before it stands alone: its servo stops, its rate stays
(R223, R229, log 58). -/
def State.servoStop (s : State) : State := if s.is TB_PAIR_STAT_STATE then s.servoAdopt else s

end Sys2Proof.Machine
end

