-- ==== Sys2Proof/Machine/Lanes.lean ====
section
/-! DEFINITION. The lanes themselves (spec/08): training, equalisation, loss, backoff, Ecnal width, power states and
eye measurements. Lane l is JLl for 0–95 and EL(l − 96) for 96–99 (R251). -/

namespace Sys2Proof.Machine

def tsDisabled : Nat := 0
def tsDetect : Nat := 1
def tsAlign : Nat := 2
def tsEstablish : Nat := 3
def tsTimelock : Nat := 4
def tsBackoff : Nat := 6
def tsAbsent : Nat := 7

def State.tstate (s : State) (l : Nat) : Nat := s.get (LANE_STAT_TSTATE l)
/-- Whether a lane is an Ecnal lane. -/
def isEl (l : Nat) : Bool := decide (96 ≤ l)

/-- A bar is idle while no job runs or the running job does not use it (R160). -/
def State.barIdle (s : State) (b : Nat) : Bool := !s.runBars.contains b

/-- A bit of a three-word channel map. -/
def State.chanBit (s : State) (f : Nat → Fld) (ch : Nat) (v : Bool) : State := s.setBitOf (f (ch / 32)) (ch % 32) v

/-! Ecnal width and timing (R234, R245) -/

/-- The EL lanes the READY ones allow the link to run on (R245). -/
def State.linkAllowed (s : State) : List Nat :=
  let r := fun i => s.ready (96 + i)
  if r 0 && r 1 && r 2 && r 3 then [0, 1, 2, 3]
  else if r 0 && r 1 then [0, 1]
  else if r 2 && r 3 then [2, 3]
  else ((List.range 4).filter r).take 1

/-- How many they are: 0, 1, 2 or 4. -/
def State.linkLanes (s : State) : Nat := s.linkAllowed.length

/-- Whether the Ecnal link is up. -/
def State.linkUp (s : State) : Bool := s.is PR_STAT_WIDTH

/-- A loss narrows the link at once (R245); a running set that has lost no lane goes on. -/
def State.linkNarrow (s : State) : State :=
  let w := min (s.get PR_STAT_WIDTH) s.linkLanes
  let whole := s.pair.linkSet.length == w && s.pair.linkSet.all fun i => s.ready (96 + i)
  { s.put PR_STAT_WIDTH w with pair := { s.pair with linkSet := if whole then s.pair.linkSet else s.linkAllowed.take w } }

/-- Unit 1's timing lane: EL0 while its receiver holds lock, else the lowest-numbered EL lane whose receiver does (R234). -/
def State.timingLane (s : State) : State :=
  if s.unitId then
    match (List.range 4).find? fun i => (s.laneSt (96 + i)).lock with
    | some i => s.put PR_STAT_TIMING_LANE i
    | none => s
  else s

/-! State changes -/

/-- What leaving READY takes with it: READY bits, latency validity, window, eye validity and a map under way. -/
def State.leaveReady (s : State) (l : Nat) : State :=
  if s.ready l then
    let held := s.past (s.laneSt l).readyAt 1000000000
    let s := s.modLane l fun x => { x with
      backoff := if held then 0 else x.backoff, eiSent := none, tempSeen := [], ctl := [], tsOut := [] }
    let s := (s.flag (LANE_EYE_VALID l) false).flag (LANE_SCAN_CTRL_MAP_BUSY l) false
    if isEl l then s
    else
      let s := (s.chanBit JL_READY_CH l false).flag (JL_LAT_VALID l) false
      ((s.put (JL_OUT_WINDOW l) 0).flag (LANE_STAT_RATE_LOW l) false).flag (JL_CTL_STAT_ACK_PENDING l) false
  else s

/-- A training state entered. -/
def State.laneTo (s : State) (l st : Nat) : State :=
  let s := s.leaveReady l
  let s := (s.put (LANE_STAT_TSTATE l) st).put (LANE_STAT_PSTATE l) (if st = tsDisabled then 3 else 0)
  s.modLane l fun x => { x with since := s.now }

/-- DISABLED (R237). -/
def State.laneDisable (s : State) (l : Nat) : State :=
  let s := (s.laneTo l tsDisabled).put (LANE_STAT_RATE l) 0
  let s := (s.flag (LANE_STAT_FAST l) false).put (LANE_STAT_BACKOFF_MS l) 0
  let s := s.modLane l fun x => { LaneSt.reset with since := x.since, farPreset := x.farPreset, tsId := x.tsId }
  if isEl l then s.linkNarrow.timingLane else s

/-- Whether a value takes effect at a lane's next training: every SerDes value but termination and sampler offsets (R458). -/
def trainsWith (l : Nat) : TrimPart → Bool
  | .serdes k | .ctle k | .tap k _ => k == l
  | .offset _ | .ddr | .core => false

/-- The trimmed values that wait for a lane's training take effect (R458). -/
def State.trimsTrain (s : State) (l : Nat) : State :=
  { s with pwr := { s.pwr with trims := s.pwr.trims.map fun x => if trainsWith l x.part then { x with used := x.code } else x } }

/-- An attempt begun in DETECT (R237): TS1 is sent at 3.125 GBd, or at the last agreed rate when FAST. -/
def State.laneDetect (s : State) (l : Nat) (fast : Bool) : State :=
  let s := ((s.laneTo l tsDetect).flag (LANE_STAT_FAST l) fast).trimsTrain l
  let s := s.modLane l fun x => { x with
    ts1 := false, ts2 := false, ts2Sent := 0, eqMine := false, eqFar := false, eyeOk := false, identOk := false,
    sawSignal := false, heads := 0, idents := [], tsOut := [], rtts := [], els := [] }
  s.emit (.lane l .ts1 fast none)

/-- Whether a lane may train: Ecnal lanes only in a paired unit (R21), no head lane in replay (R495), and none in a unit
that has left its pair (R406). -/
def State.mayTrain (s : State) (l : Nat) : Bool :=
  if s.pair.leftAt.isSome then false
  else if isEl l then s.pairEn else !s.is GL_ROLE_STAT_REPLAY

/-- The backoff time after a number of failures, in ms (R239). -/
def backoffMs (n : Nat) : Nat := if n < 7 then 10 * 2 ^ n else 1000

/-- An attempt failed with a cause (R238, R239): its receiver gives up its lock (log 57). -/
def State.laneFail (s : State) (l cause : Nat) : State :=
  let stage := s.tstate l
  let x := s.laneSt l
  let silent := stage == tsDetect && !x.sawSignal
  let s := s.modLane l fun x => { x with lock := false }
  let s := (s.put (LANE_STAT_FAIL_STAGE l) stage).put (LANE_STAT_FAIL_CAUSE l) cause
  let s := (s.inc (LANE_FAILS_FAILS l)).flag (LANE_STAT_FAST l) false
  let quiet := x.fromAbsent && silent
  let s := if x.failRun == 0 && !quiet then s.raise 0x4103 l cause 0 else s
  let s := s.modLane l fun x => { x with
    failRun := x.failRun + 1, silentRun := if silent then x.silentRun + 1 else 0, fromAbsent := false,
    sawSignal := false }
  let s := if quiet then (s.laneTo l tsAbsent).inc (LANE_FAILS_ABSENTS l)
    else if silent && decide (s.get JL_TRAIN_CFG_ABSENT_N ≤ (s.laneSt l).silentRun) then
      (((s.laneTo l tsAbsent).inc (LANE_FAILS_ABSENTS l)).raise 0x4104 l 0 0)
    else
      let s := (s.laneTo l tsBackoff).put (LANE_STAT_BACKOFF_MS l) (backoffMs (s.laneSt l).backoff)
      s.modLane l fun x => { x with backoff := x.backoff + 1 }
  if isEl l then s.timingLane else s

/-- A receiver's lock gained or lost, and unit 1's timing lane with it (R234). -/
def State.lockSet (s : State) (l : Nat) (v : Bool) : State :=
  let s := s.modLane l fun x => { x with lock := v }
  if isEl l then s.timingLane else s

/-- A READY lane lost (R241): straight to DETECT with FAST; an EL lane narrows the link (R245). -/
def State.laneLost (s : State) (l cause : Nat) : State :=
  if s.ready l then
    let s := (s.put (LANE_STAT_FAIL_STAGE l) tsReady).put (LANE_STAT_FAIL_CAUSE l) cause
    let s := s.inc (LANE_CNT_LOSSES l)
    let s := if isEl l then s else s.chanBit JL_LOST_CH l true
    let s := (s.raise 0x4102 l cause 0).laneDetect l true
    if isEl l then s.linkNarrow.timingLane else s
  else s

/-- The agreed rate of two RATES masks: 0 none, else the highest common bit plus 1 (R238). -/
def agreedRate (own far : Nat) : Nat :=
  let c := own &&& far
  if bit c 2 then 3 else if bit c 1 then 2 else if bit c 0 then 1 else 0

/-- The code in use of a trimmed value, 0 for one the trim sets do not hold. -/
def State.trimCode (s : State) (p : TrimPart) : Int := ((s.pwr.trims.find? fun x => x.part = p).map (·.used)).getD 0

/-- The search in ESTABLISH begun (R240): CTLE and the five DFE taps start from the lane's trimmed values (R456, R457), each allowed
preset is requested of the far end in ascending order. A FAST retrain keeps the stored results. -/
def State.searchBegin (s : State) (l : Nat) : State :=
  if s.is (LANE_STAT_FAST l) then s
  else
    let s := s.sput (LANE_RXEQ_CTLE l) (s.trimCode (.ctle l))
    let s := s.each (List.range 5) fun s k => s.sput ⟨LANE_RXEQ l, 8 + 5 * k, 4 + 5 * k⟩ (s.trimCode (.tap l k))
    s.each (idxs 8 (bit (s.get (LANE_CFG_PRESET_MASK l)))) fun s p => s.emit (.lane l .ts2 false (some p))

/-- ESTABLISH entered at the agreed rate; a head lane asks for head 0's identity (R237, R286). -/
def State.laneEstablish (s : State) (l : Nat) : State :=
  let x := s.laneSt l
  let s := ((s.laneTo l tsEstablish).put (LANE_STAT_RATE l) (agreedRate (s.get (LANE_CFG_RATE_EN l)) x.farRates)).searchBegin l
  if isEl l then s else s.emit (.joend l (.idrq s.claim 0))

/-- ALIGN's exit: four TS2 received and at least 16 TS2 sent (R237). -/
def State.tryEstablish (s : State) (l : Nat) : State :=
  let x := s.laneSt l
  if s.tstate l == tsAlign && x.ts2 && decide (16 ≤ x.ts2Sent) then s.laneEstablish l else s

/-- ESTABLISH's exit (R237). -/
def State.tryTimelock (s : State) (l : Nat) : State :=
  let x := s.laneSt l
  if s.tstate l == tsEstablish && x.eqMine && x.eqFar && x.eyeOk && (isEl l || x.identOk) then
    let s := s.laneTo l tsTimelock
    s.modLane l fun x => { x with tsOut := [], rtts := [], els := [], elsTx := 0, tsyncAt := 0 }
  else s

/-- READY entered, whatever the chapter of records adds: counted, shown, 0x4101 (R237, R239). -/
def State.laneReadyBase (s : State) (l : Nat) : State :=
  let s := (s.laneTo l tsReady).inc (LANE_CNT_TRAINS l)
  let s := s.modLane l fun x => { x with
    readyAt := s.now, lastTx := s.now, lastUse := s.now, failRun := 0, silentRun := 0, statAt := s.now,
    statGot := false, tempSeen := [], marginRaised := false }
  let s := s.flag (LANE_STAT_FAST l) false
  let s := if isEl l then s else s.chanBit JL_READY_CH l true
  s.raise 0x4101 l 0 0

/-! Commands -/

/-- The LANE field a receiver of lane l expects (R235): an HDM returns the channel; the partner sends 0x80 + n. -/
def laneField (l : Nat) : Nat := if l < 96 then l else 0x80 + (l - 96)

/-- Whether a lane runs ALIGN in its exit from L2 (R248). -/
def State.realigns (s : State) (l : Nat) : Bool := s.ready l && s.pstate l == 4 && (s.laneSt l).exitL2

/-- Whether the exit of a lane may reach L0: one from L2 with four TS2 received and sixteen sent, as ALIGN's end (R237, R248). -/
def State.exitAligned (s : State) (l : Nat) : Bool :=
  !(s.laneSt l).exitL2 || ((s.laneSt l).ts2 && decide (16 ≤ (s.laneSt l).ts2Sent))

/-- Four identical ordered sets received (R236): a faulty set is dropped and counted; a wrong LANE fails training. -/
def State.orderedSet (s : State) (l : Nat) (o : OrdSet) : State :=
  let st := s.tstate l
  let training := decide (tsAlign ≤ st) && decide (st ≤ tsTimelock)
  if o.resv != 0 then s.inc (LANE_ERR_CV l)
  else if o.lane != laneField l then
    let s := s.inc (LANE_ERR_CV l)
    if training then s.laneFail l 6 else s
  else
    match o.kind with
    | 0x4A =>
      if st == tsAlign then
        if agreedRate (s.get (LANE_CFG_RATE_EN l)) o.rates == 0 then s.laneFail l 2
        else
          let first := !(s.laneSt l).ts1
          let s := s.modLane l fun x => { x with ts1 := true, farRates := o.rates }
          if first then s.emit (.lane l .ts2 (s.is (LANE_STAT_FAST l)) none) else s
      else if s.realigns l then
        let first := !(s.laneSt l).ts1
        let s := s.modLane l fun x => { x with ts1 := true }
        if first then s.emit (.lane l .ts2 true none) else s
      else s
    | 0x45 =>
      if st == tsAlign then
        if (s.laneSt l).ts1 then (s.modLane l fun x => { x with ts2 := true }).tryEstablish l else s
      else if st == tsEstablish then
        let s := s.modLane l fun x => { x with
          eqFar := x.eqFar || o.eqDone,
          farPreset := if o.ffeValid && !s.is (LANE_CFG_TX_OVR l) then o.ffeReq else x.farPreset }
        s.tryTimelock l
      else if s.realigns l && (s.laneSt l).ts1 then s.modLane l fun x => { x with ts2 := true }
      else s
    | 0x7C => s.modLane l fun x => { x with eiSent := if s.pstate l == 1 then none else x.eiSent }
    | 0x7D => s.modLane l fun x => { x with eiSent := if s.pstate l == 2 then none else x.eiSent }
    | _ => s

def execOrderedSet (t l : Nat) (o : OrdSet) (s : State) : Host.Outcome State Fault Refusal :=
  run t (fun s => if l < 100 then s.orderedSet l o else s) s

/-- The sixteenth TS2 has been sent in ALIGN, also in that of an exit from L2 (R237, R248). -/
def execTs2Sent (t l : Nat) (s : State) : Host.Outcome State Fault Refusal :=
  run t (fun s =>
    if l < 100 ∧ s.tstate l = tsAlign ∧ (s.laneSt l).ts1 then
      (s.modLane l fun x => { x with ts2Sent := 16 }).tryEstablish l
    else if l < 100 ∧ s.realigns l ∧ (s.laneSt l).ts1 then s.modLane l fun x => { x with ts2Sent := 16 }
    else s) s

/-- Signal present and CDR locked for 100 µs (R237, R239): DETECT moves on; ABSENT starts afresh. -/
def execSignalDetect (t l : Nat) (s : State) : Host.Outcome State Fault Refusal :=
  run t (fun s =>
    if l < 100 ∧ s.tstate l = tsDetect then
      ((s.modLane l fun x => { x with sawSignal := true, fromAbsent := false, silentRun := 0 }).laneTo l tsAlign).lockSet l true
    else if l < 100 ∧ s.tstate l = tsAbsent then
      (s.modLane l fun x => { x with backoff := 0, fromAbsent := false }).laneDetect l false
    else s) s

/-- A stage has lasted 10 ms (R237, R238), with or without a signal seen in it (R239), as the command says (log 57); a
calibration that did not pass fails with cause 5 (R267, R380). -/
def execTrainTimeout (t : Nat) (e : StageEnd) (s : State) : Host.Outcome State Fault Refusal :=
  run t (fun s =>
    let st := s.tstate e.lane
    if e.lane < 100 ∧ tsDetect ≤ st ∧ st ≤ tsTimelock ∧ s.past (s.laneSt e.lane).since 10000000 then
      (s.modLane e.lane fun x => { x with sawSignal := x.sawSignal || e.saw }).laneFail e.lane (if st = tsTimelock then 5 else 1)
    else s) s

/-- The backoff time has elapsed (R237). -/
def execBackoffExpiry (t l : Nat) (s : State) : Host.Outcome State Fault Refusal :=
  run t (fun s =>
    if l < 100 ∧ s.tstate l = tsBackoff ∧ s.past (s.laneSt l).since (s.get (LANE_STAT_BACKOFF_MS l) * 1000000) then
      s.laneDetect l false
    else s) s

/-- 1 s in ABSENT: one DETECT attempt (R239). -/
def execAbsentTimeout (t l : Nat) (s : State) : Host.Outcome State Fault Refusal :=
  run t (fun s =>
    if l < 100 ∧ s.tstate l = tsAbsent ∧ s.past (s.laneSt l).since 1000000000 then
      (s.modLane l fun x => { x with fromAbsent := true }).laneDetect l false
    else s) s

/-- A READY lane in L0 loses lock, signal or symbols (R241); the violations counted with it go to LANE_ERR. -/
def State.lossCause (s : State) (l cv disp : Nat) : State :=
  ((s.add (LANE_ERR_CV l) cv).add (LANE_ERR_DISP l) disp).laneLost l 7

/-- The setting kept: the largest product of eye width and height among the allowed ones, the lower on a tie (R240). -/
def bestTrial (mask : Nat) (trials : List (Nat × Nat × Nat)) : Option Nat :=
  (trials.foldl (fun (r : Option (Nat × Nat)) x =>
    if bit mask x.1 then
      match r with
      | none => some (x.1, x.2.1 * x.2.2)
      | some (p, a) => if a < x.2.1 * x.2.2 ∨ (a = x.2.1 * x.2.2 ∧ x.1 < p) then some (x.1, x.2.1 * x.2.2) else r
    else r) none).map (·.1)

/-- The receiver has finished its search in ESTABLISH (R240): the preset and the CTLE setting that gave the best eye of those tried
(stored ones when FAST), the DFE, the eye, and EQ_DONE. -/
def execEqualisationDone (t l : Nat) (trials : List (Nat × Nat × Nat)) (w h : Nat) (ctle : List (Nat × Nat × Nat)) (dfe : Nat)
    (s : State) :
    Host.Outcome State Fault Refusal :=
  run t (fun s =>
    if l < 100 ∧ s.tstate l = tsEstablish ∧ !(s.laneSt l).eqMine then
      let s := if s.is (LANE_STAT_FAST l) then s
        else
          let s := match bestTrial 0xFFFF ctle with
            | some c => s.put (LANE_RXEQ_CTLE l) c
            | none => s
          match bestTrial (s.get (LANE_CFG_PRESET_MASK l)) trials with
          | some p => s.put (LANE_STAT_PRESET l) p
          | none => s
      let s := s.put (LANE_RXEQ_DFE l) dfe
      if s.get JL_TRAIN_CFG_MIN_W ≤ w ∧ s.get JL_TRAIN_CFG_MIN_H ≤ h then
        let s := s.modLane l fun x => { x with eqMine := true, eyeOk := true }
        let fast := s.is (LANE_STAT_FAST l)
        (s.emit (.lane l .ts2 fast (if fast then none else some (s.get (LANE_STAT_PRESET l))))).tryTimelock l
      else s.laneFail l 3
    else s) s

/-! Power states (R246–R248) -/

/-- Whether a job with a page past its readiness check uses a bar (R247). -/
def State.barAwaited (s : State) (b : Nat) : Bool :=
  s.scan.runs.any fun r => match s.jobAt r.job with
    | some j => bit j.bars b
    | none => false

/-- L1 entered: four EI1 sets, then electrical idle (R247). -/
def execL1Entry (t l : Nat) (s : State) : Host.Outcome State Fault Refusal :=
  run t (fun s =>
    if l < 96 ∧ s.inL0 l ∧ s.is (LANE_CFG_PWR_ALLOW l) ∧ s.is JL_PWR_CFG_L1_IDLE_US ∧
        s.past (s.laneSt l).lastUse (s.get JL_PWR_CFG_L1_IDLE_US * 1000) ∧ (s.laneSt l).ctl = [] ∧
        !s.barAwaited (chanBar l) then
      let s := (s.put (LANE_STAT_PSTATE l) 1).inc (LANE_PWR_STAT_L1_ENTRIES l)
      (s.modLane l fun x => { x with lowAt := s.now, eiSent := some s.now }).emit (.lane l .ei1 false none)
    else s) s

/-- L2 entered after L2_IDLE_MS in L1 (R247). -/
def execL2Entry (t l : Nat) (s : State) : Host.Outcome State Fault Refusal :=
  run t (fun s =>
    if l < 96 ∧ s.ready l ∧ s.pstate l = 1 ∧ s.is (LANE_CFG_PWR_ALLOW l) ∧ s.is JL_PWR_CFG_L1_IDLE_US ∧ s.is JL_PWR_CFG_L2_IDLE_MS ∧
        s.past (s.laneSt l).lowAt (s.get JL_PWR_CFG_L2_IDLE_MS * 1000000) then
      let s := (s.put (LANE_STAT_PSTATE l) 2).inc (LANE_PWR_STAT_L2_ENTRIES l)
      (s.modLane l fun x => { x with eiSent := some s.now }).emit (.lane l .ei2 false none)
    else s) s

/-- The HDM has not answered EI sets within 10 µs: lost with cause 8 (R247). -/
def execEiAnswerTimeout (t l : Nat) (s : State) : Host.Outcome State Fault Refusal :=
  run t (fun s =>
    match (s.laneSt l).eiSent with
    | some a => if l < 96 ∧ s.past a 10000 then s.laneLost l 8 else s
    | none => s) s

/-- The exit to L0 begun on a lane in L1 or L2 (R248): from L2 it runs ALIGN at the agreed rate, so TS1 is sent and none is held. -/
def State.laneExit (s : State) (l : Nat) : State :=
  if s.ready l ∧ (s.pstate l = 1 ∨ s.pstate l = 2) then
    let two := s.pstate l == 2
    let s := (s.put (LANE_STAT_PSTATE l) 4).modLane l fun x => { x with
      exitAt := s.now, exitL2 := two, eiSent := none, ts1 := false, ts2 := false, ts2Sent := 0 }
    if two then s.emit (.lane l .ts1 true none) else s
  else s

/-- The exits begun at the tick end of a readiness check: every lane of the job's bars (R248). -/
def State.lanesExit (s : State) (bars : List Nat) : State :=
  s.each bars fun s b => s.each (List.range 12) fun s m => s.laneExit (12 * b + m)

/-- An HDM leaves electrical idle to send STAT (R248). -/
def execHdmIdleExit (t l : Nat) (s : State) : Host.Outcome State Fault Refusal :=
  run t (fun s => if l < 96 then s.laneExit l else s) s

/-- An exit that has not reached L0 in time is a loss with 0x4106 (R248). -/
def execPwrExitTimeout (t l : Nat) (s : State) : Host.Outcome State Fault Refusal :=
  run t (fun s =>
    if l < 96 ∧ s.ready l ∧ s.pstate l = 4 ∧
        s.past (s.laneSt l).exitAt (if (s.laneSt l).exitL2 then 200000 else 1000) then
      (s.raise 0x4106 l 8 0).laneLost l 8
    else s) s

/-! Eye (R249, R250) -/

/-- A background measurement (R249). -/
def execEyeScan (t l w h : Nat) (s : State) : Host.Outcome State Fault Refusal :=
  run t (fun s =>
    if l < 100 ∧ s.inL0 l ∧ s.is JL_SCAN_CFG_PERIOD_MS ∧ !s.is (LANE_SCAN_CTRL_MAP_BUSY l) then
      let s := ((s.put (LANE_EYE_EYE_W l) w).put (LANE_EYE_EYE_H l) h).flag (LANE_EYE_VALID l) true
      if s.get JL_TRAIN_CFG_MIN_W ≤ w ∧ s.get JL_TRAIN_CFG_MIN_H ≤ h then
        s.modLane l fun x => { x with marginRaised := false }
      else if (s.laneSt l).marginRaised then s
      else (s.modLane l fun x => { x with marginRaised := true }).raise 0x4105 l 0 0
    else s) s

/-- Where a lane's eye map lies among the words: apart from bar 3's tile, with which it shares its addresses (R525). -/
def eyeBase (l : Nat) : Nat := 0x40000000 + 0x2000 * l

/-- A full map completes (R250): its bytes, point (p, k) at 64 k + p. -/
def execEyeMapDone (t l : Nat) (points : List Nat) (s : State) : Host.Outcome State Fault Refusal :=
  run t (fun s =>
    if l < 100 ∧ s.is (LANE_SCAN_CTRL_MAP_BUSY l) then
      let bs := points.map fun v => BitVec.ofNat 8 (min v 255)
      let s := s.each (List.range 2048) fun s k => s.wr (eyeBase l + 4 * k) (leAt bs (4 * k) 4)
      s.flag (LANE_SCAN_CTRL_MAP_BUSY l) false
    else s) s

/-- MAP (R250): BAD_STATE unless the lane is READY in L0. -/
def State.laneMap (s : State) (l : Nat) : Nat × State :=
  if s.inL0 l then (stOk, s.flag (LANE_SCAN_CTRL_MAP_BUSY l) true) else (stBadState, s)

/-! Register writes -/

/-- The lane of a lane register's address, if it is one. -/
def laneOf (off a : Nat) : Option Nat :=
  match instOf (0x0C0000 + off) 0x100 96 a with
  | some n => some n
  | none => (instOf (0x0D0800 + off) 0x100 4 a).map (96 + ·)

/-- The transmit coefficients of a preset (R240): |C−1|, C0, |C+1|. -/
def presetCoef (p : Nat) : Nat × Nat × Nat :=
  [(0, 32, 0), (0, 28, 4), (0, 25, 7), (0, 22, 10), (2, 26, 4), (2, 23, 7), (3, 21, 8), (4, 24, 4)].getD p (0, 32, 0)

/-- LANE_TXEQ as read: the coefficients in use (R240). -/
def State.txeqView (s : State) (l : Nat) : Nat :=
  if s.is (LANE_CFG_TX_OVR l) then s.rd (LANE_TXEQ l)
  else
    let c := presetCoef (s.laneSt l).farPreset
    c.1 + c.2.1 * 256 + c.2.2 * 65536

/-- Limits of the lane registers of spec/08. -/
def limitLane (s : State) (a new mask : Nat) : Verdict :=
  match laneOf 0 a with
  | some l =>
    let old := s.rd a
    let el := isEl l
    (rangeUnless (bits new 3 1 != 0 && (!el || mask &&& 0xE == 0 || bits new 3 1 == 4) && decide (bits new 7 6 < 2) && bits new 15 8 != 0)).orElse'
      (busyWhen (!el && !s.barIdle (chanBar l) &&
        ((bit old 0 && !bit new 0) || bits old 3 1 != bits new 3 1 || bits old 7 6 != bits new 7 6)))
  | none =>
    match laneOf 0x1C a with
    | some _ =>
      rangeUnless (bits new 4 0 + bits new 13 8 + bits new 20 16 == 32 && fieldIn new 4 0 0 10 && fieldIn new 13 8 16 32 &&
        fieldIn new 20 16 0 15)
    | none =>
      if a = JL_TRAIN_CFG then rangeUnless (bits new 7 0 != 0)
      else
        match laneOf 0x24 a with
        | some l => if bit mask 0 && bit new 0 && !s.inL0 l then some (stBadState, 0) else none
        | none => none

/-- What a write to a lane register of spec/08 sets off. -/
def actLane (a mask val : Nat) (before s : State) : Nat × State :=
  match laneOf 0 a with
  | some l =>
    let s := if isEl l then s.flag (LANE_CFG_PWR_ALLOW l) false else s
    let was := before.is (LANE_CFG_EN l)
    let now := s.is (LANE_CFG_EN l)
    if !was && now then (stOk, if s.mayTrain l then s.laneDetect l false else s)
    else if was && !now then (stOk, s.laneDisable l)
    else (stOk, s)
  | none =>
    match laneOf 0x24 a with
    | some l => if bit mask 0 && bit val 0 then s.laneMap l else (stOk, s)
    | none => (stOk, s)

end Sys2Proof.Machine
end

