-- ==== Sys2Proof/Machine/Web.lean ====
section
/-! DEFINITION. Web position and speed (spec/06): counting, the encoder pair, motion states, speed and acceleration,
probes, emulated outputs, fire positions and predictions. -/

namespace Sys2Proof.Machine

/-! The pair of encoders (R176) -/

def State.enc (s : State) (n : Nat) : Enc := s.web.encs.getD n Enc.reset
def State.modEnc (s : State) (n : Nat) (f : Enc → Enc) : State :=
  { s with web := { s.web with encs := modAt s.web.encs n f } }

/-- The selected encoder, and the tracked one. -/
def State.selEnc (s : State) : Nat := if s.web.onSec then s.get WP_ENC_CFG_SECONDARY else s.get WP_ENC_CFG_PRIMARY
def State.trkEnc (s : State) : Nat := if s.web.onSec then s.get WP_ENC_CFG_PRIMARY else s.get WP_ENC_CFG_SECONDARY

/-- SCALE of an encoder, in 2^-16 pu per count. -/
def State.scaleOf (s : State) (n : Nat) : Nat := s.get (WP_ENC_SCALE_SCALE n)

/-- The FAILED bit of the selected member (`false` for the tracked one). -/
def failedFld (onSec : Bool) : Fld := if onSec then WP_SRC_STAT_SEC_FAILED else WP_SRC_STAT_PRI_FAILED
def State.selFailed (s : State) : Bool := s.is (failedFld s.web.onSec)
def State.trkFailed (s : State) : Bool := s.is (failedFld (!s.web.onSec))

/-! Position (R174, R187) -/

/-- A position carried on at a speed for some ns, by no more than a count (R187). -/
def interp (base scale speed : Rat) (ns : Nat) : Rat :=
  let move := speed * (ns : Rat) / 1000
  if speed < 0 then base + (if move < -scale then -scale else move) else base + (if scale < move then scale else move)

/-- P at a device time, in pu (R187): from the count before it, where a later one has been taken since. -/
def State.posAt (s : State) (at_ : Nat) : Rat :=
  let scale : Rat := (s.scaleOf s.selEnc : Rat) / 65536
  let speed : Rat := if (s.enc s.selEnc).state == 2 then s.web.speed else 0
  if s.web.pAt ≤ at_ then interp ((s.web.p : Rat) / 65536) scale speed (at_ - s.web.pAt)
  else
    match s.web.was.find? fun w => decide (w.1 ≤ at_) with
    | some w => interp ((w.2.1 : Rat) / 65536) scale w.2.2 (at_ - w.1)
    | none => (s.web.p : Rat) / 65536

/-- P set at a device time; the values it had are kept while a stamp may still lie before, back to the one in force 10 µs ago
(R171, R189). -/
def State.pSet (s : State) (p : Int) (at_ : Nat) : State :=
  let w := s.web
  let l := (w.pAt, w.p, w.speed) :: w.was
  let young (x : Nat × Int × Rat) : Bool := decide (s.now ≤ x.1 + 10000)
  let kept := l.takeWhile young ++ (l.dropWhile young).take 1
  { s with web := { w with was := kept, p := p, pAt := at_ } }

/-- The interpolated P in whole pu, rounded down. -/
def State.posNow (s : State) : Int := (s.posAt s.now).floor

/-- Q with interpolation (R192). -/
def State.qInterp (s : State) : Rat :=
  let p := s.posAt s.now
  let q : Rat := (s.web.q : Rat) / 65536
  if q < p then p else q

/-- The registers that show position, speed and motion brought up to date. -/
def State.webShow (s : State) : State :=
  let q := unsgn 48 s.qPu
  let p := unsgn 48 s.pPu
  let s := ((s.wr WP_POS_LO (q % 2 ^ 32)).wr WP_POS_HI (q / 2 ^ 32)).wr WP_RAW_LO (p % 2 ^ 32)
  let s := s.wr WP_RAW_HI (p / 2 ^ 32)
  let s := s.sput WP_SPEED_VALUE (clamp (roundR (s.web.speed * 65536)) (-2147483648) 2147483647)
  let s := s.sput WP_ACC_VALUE (clamp (roundR (s.web.acc * 65536)) (-2147483648) 2147483647)
  (s.put WP_MOTION_SPEED_STATE (s.enc s.selEnc).state).put WP_SRC_STAT_SELECTED s.selEnc

/-- Q and the direction state after a change of P (R184): REVERSED lasts until P reaches Q again. -/
def State.dirUpdate (s : State) : State :=
  let s := { s with web := { s.web with q := max s.web.q s.web.p } }
  let w : Int := (s.get WP_REV_CFG_WIN_CNT * s.scaleOf s.selEnc : Nat)
  let was := s.get WP_MOTION_DIR_STATE
  if s.web.p = s.web.q then
    let s := s.put WP_MOTION_DIR_STATE 0
    if was == 2 then s.raise 0x2105 0 0 0 else s
  else if was == 2 then s
  else if s.web.p < s.web.q - w then
    ((s.put WP_MOTION_DIR_STATE 2).inc WP_MOTION_REVERSALS).raise 0x2104 0 0 0
  else s.put WP_MOTION_DIR_STATE 1

/-- Whether lines may start (R185): MOVING and AHEAD. -/
def State.webGoes (s : State) : Bool := s.get WP_MOTION_SPEED_STATE == 2 && !s.is WP_MOTION_DIR_STATE

/-! Selection, failover and loss (R178–R183) -/

/-- An ENCSRC item (R183, R378) of a unit that decides. -/
def State.encItem (s : State) (kind : Nat) : State :=
  if s.authoritative then
    let p := unsgn 48 s.pPu
    s.hbItem (3 * 2 ^ 24 + kind * 2 ^ 22 + s.selEnc * 2 ^ 20 + b2n (s.is WP_SRC_STAT_PRI_FAILED) * 2 ^ 19 +
      b2n (s.is WP_SRC_STAT_SEC_FAILED) * 2 ^ 18 + b2n (s.is WP_SRC_STAT_LOST) * 2 ^ 17) (p / 2 ^ 32) p s.now
  else s

/-- The members exchanged: the newly selected encoder's position becomes the estimate, so it takes no step (R179); the travel to the
next alignment starts anew (log 60, DESIGN CHOICE). -/
def State.selSwap (s : State) : State :=
  let est := (s.posAt s.now * 65536).floor
  let s := { s with web := { s.web with onSec := !s.web.onSec, ps := s.web.p, alignAt := est } }
  (s.pSet est s.now).dirUpdate.webShow

/-- Both members FAILED (R181). -/
def State.posLost (s : State) : State :=
  if s.is WP_SRC_STAT_LOST then s
  else ((s.flag WP_SRC_STAT_LOST true).raise 0x210A 0 0 0).safeSet 2

/-- What follows when a member has just become FAILED: failover, report or loss (R179–R181, R183). -/
def State.failedAct (s : State) (onSec : Bool) : State :=
  let e := if onSec then s.get WP_ENC_CFG_SECONDARY else s.get WP_ENC_CFG_PRIMARY
  if s.follows then
    let s := s.raise 0x2102 e 0 0
    if s.selFailed && s.trkFailed then s.posLost else s
  else if s.selFailed && s.trkFailed then s.posLost.encItem 3
  else if onSec == s.web.onSec then
    ((s.selSwap.inc WP_SRC_STAT_FAILOVERS).raise 0x2101 e 0 0).encItem 0
  else (s.raise 0x2102 e 0 0).encItem 3

/-- A member of the pair becomes FAILED. -/
def State.encFail (s : State) (onSec : Bool) : State :=
  if s.is (failedFld onSec) then s else (s.flag (failedFld onSec) true).failedAct onSec

/-- A member's own failure tests (R178): too many errors in the window that ends with its latest, or a stall. -/
def State.failTest (s : State) (onSec : Bool) : State :=
  let n := if onSec then s.get WP_ENC_CFG_SECONDARY else s.get WP_ENC_CFG_PRIMARY
  let e := s.enc n
  let errs := e.errs.filter fun a => decide (e.errs.headD 0 ≤ a + s.get WP_FAIL_CFG_ILL_WIN_MS * 1000000)
  let s := s.modEnc n fun e => { e with errs := errs }
  if decide (s.get WP_FAIL_CFG_ILL_LIMIT < errs.length) || decide (s.get WP_FAIL_CFG_STALL_CNT ≤ e.others.natAbs) then
    s.encFail onSec
  else s

/-- An error of an encoder (R172, R173). -/
def State.encError (s : State) (n at_ : Nat) : State :=
  s.modEnc n fun e => { e with errs := at_ :: e.errs, lastErr := some at_ }

/-- An alignment (R177). -/
def State.align (s : State) : State :=
  let far : Int := (s.get WP_TRACK_ALIGN_MM * 64000 * 65536 : Nat)
  if s.web.alignAt + far ≤ s.web.p then
    let d := s.web.p - s.web.ps
    let ok := decide (d.natAbs ≤ s.get WP_TRACK_DIS_LIMIT * 64 * 65536)
    let s := if ok then s else (s.inc WP_SRC_STAT_DISAGREE).raise 0x2103 0 0 0
    let s := s.modEnc s.trkEnc fun e => { e with aligned := ok }
    { s with web := { s.web with ps := s.web.p, alignAt := s.web.p } }
  else s

/-- SWAP (R182). -/
def State.srcSwap (s : State) : Nat × State :=
  if s.selFailed || s.trkFailed then (stBadState, s) else (stOk, s.selSwap.encItem 1)

/-- Whether a FAILED encoder qualifies for RESTORE (R182). -/
def State.restorable (s : State) (onSec : Bool) : Bool :=
  let e := s.enc (if onSec then s.get WP_ENC_CFG_SECONDARY else s.get WP_ENC_CFG_PRIMARY)
  s.is (failedFld onSec) && e.aligned &&
    (match e.lastErr with
     | none => true
     | some a => s.past a 1000000000)

/-- A member returned to service (R182): after LOST it is selected, else it is the tracked one. -/
def State.restoreOne (s : State) (onSec : Bool) : State :=
  let lost := s.is WP_SRC_STAT_LOST
  let n := if onSec then s.get WP_ENC_CFG_SECONDARY else s.get WP_ENC_CFG_PRIMARY
  let s := (s.flag (failedFld onSec) false).flag WP_SRC_STAT_LOST false
  let s := s.modEnc n fun e => { e with errs := [], others := 0 }
  let s := if (lost && s.web.onSec != onSec) || (!lost && s.web.onSec == onSec) then s.selSwap else s
  (s.raise 0x2109 n 0 0).encItem 2

/-- RESTORE (R182). -/
def State.srcRestore (s : State) : Nat × State :=
  if s.restorable s.web.onSec then (stOk, s.restoreOne s.web.onSec)
  else if s.restorable (!s.web.onSec) then (stOk, s.restoreOne (!s.web.onSec))
  else (stBadState, s)

/-- The pair re-formed by a write that changes PRIMARY or SECONDARY (R530): a change of the FAILED and LOST states goes to the
standby (R183), and the travel to the next alignment starts anew (log 60, DESIGN CHOICE). -/
def State.reform (s : State) : State :=
  let est := s.web.p
  let changed := s.selFailed || s.trkFailed || s.is WP_SRC_STAT_LOST
  let s := { s with web := { s.web with onSec := false, ps := est, alignAt := est } }
  let s := ((s.flag WP_SRC_STAT_PRI_FAILED false).flag WP_SRC_STAT_SEC_FAILED false).flag WP_SRC_STAT_LOST false
  let clean (e : Enc) : Enc := { e with errs := [], others := 0 }
  let s := ((s.modEnc (s.get WP_ENC_CFG_PRIMARY) clean).modEnc (s.get WP_ENC_CFG_SECONDARY) clean).webShow
  if changed then s.encItem 3 else s

/-! Counting (R172–R174) -/

/-- Position along 00, 10, 11, 01 of a pair of levels (A, B). -/
def quadOf (a b : Bool) : Nat := if a then (if b then 2 else 1) else (if b then 3 else 0)

/-- A count in an encoder's own motion state (R184). -/
def Enc.count (e : Enc) (fwd : Bool) (at_ : Nat) : Enc :=
  let e := if fwd then { e with sinceZ := e.sinceZ.map (· + 1) } else { e with sinceZ := none }
  if e.state == 0 || e.fwd != fwd then { e with fwd := fwd, state := 1, since := 1, counts := [at_] }
  else
    let near := e.counts.filter fun a => decide (at_ ≤ a + 255000)
    { e with
      state := 2, movedAt := if e.state == 2 then e.movedAt else at_, since := e.since + 1,
      counts := at_ :: (if near.length < 8 then e.counts.take 8 else near) }

/-- What the other member's stall test sees of a count (R178). -/
def stallStep (others : Int) (fwd : Bool) : Int :=
  if fwd then (if others < 0 then 1 else others + 1) else (if 0 < others then -1 else others - 1)

/-- A count taken into the pair's positions. -/
def State.pairCount (s : State) (n : Nat) (fwd : Bool) (at_ : Nat) : State :=
  let d : Int := if fwd then (s.scaleOf n : Nat) else -((s.scaleOf n : Nat) : Int)
  if n = s.selEnc then
    let s := s.pSet (s.web.p + d) at_
    let s := s.modEnc n fun e => { e with others := 0 }
    let s := s.modEnc s.trkEnc fun e => { e with others := stallStep e.others fwd }
    (s.dirUpdate.align).failTest (!s.web.onSec)
  else if n = s.trkEnc then
    let s := { s with web := { s.web with ps := s.web.ps + d } }
    let s := s.modEnc n fun e => { e with others := 0 }
    let s := s.modEnc s.selEnc fun e => { e with others := stallStep e.others fwd }
    s.failTest s.web.onSec
  else s

/-- A rising Z edge met while counting forward (R173). -/
def State.zEdge (s : State) (n at_ : Nat) : State :=
  let e := s.enc n
  if e.fwd && e.state != 0 then
    let zc := s.get (WP_ENC_ZCNT_ZCNT n)
    let bad := match e.sinceZ with
      | none => false
      | some c => zc != 0 && decide (1 < ((c : Int) - zc).natAbs)
    let s := if bad then (s.inc (WP_ENC_ERR_ZERR n)).encError n at_ else s
    s.modEnc n fun e => { e with sinceZ := some 0 }
  else s

/-- Whether an encoder is one of the pair, and which member. -/
def State.memberOf (s : State) (n : Nat) : Option Bool :=
  if n = s.get WP_ENC_CFG_PRIMARY then some false
  else if n = s.get WP_ENC_CFG_SECONDARY then some true else none

/-- An accepted change of an encoder's filtered levels, stamped at `at_` (R171–R181). -/
def State.encEdge (s : State) (n : Nat) (a b z : Bool) (at_ : Nat) : State :=
  let e := s.enc n
  let step := (quadOf a b + 4 - quadOf e.a e.b) % 4
  let inv := s.bitOf WP_ENC_CFG_DIR_INV n
  let rise := z && !e.z
  let s := s.modEnc n fun e => { e with a := a, b := b, z := z }
  let s := if step == 2 then (s.inc (WP_ENC_ERR_ILLEGAL n)).encError n at_
    else if step == 0 then s
    else
      let fwd := (step == 1) != inv
      let s := s.put (WP_ENC_COUNT_COUNT n) (s.get (WP_ENC_COUNT_COUNT n) + (if fwd then 1 else 2 ^ 32 - 1))
      let s := s.modEnc n fun e => e.count fwd at_
      s.pairCount n fwd at_
  let s := if rise then s.zEdge n at_ else s
  match s.memberOf n with
  | some m => s.failTest m
  | none => s

/-! Speed and acceleration (R186, R188) -/

/-- Time in µs between two stamps. -/
def usBetween (a b : Nat) : Rat := ((a - b : Nat) : Rat) / 1000

/-- Distance of some counts in pu over an interval, as pu/µs; none when the interval holds no time. -/
def speedOver (counts scale later_ earlier : Nat) : Option Rat :=
  if earlier < later_ then some ((counts * scale : Nat) / 65536 / usBetween later_ earlier) else none

/-- The estimate of R186 in MOVING with its method (true: count), before the limit. -/
def State.speedRaw (s : State) (e : Enc) (scale : Nat) : Bool × Option Rat :=
  let last := e.counts.headD 0
  let inWin := e.counts.filter fun a => decide (last ≤ a + s.get WP_SPD_CFG_WIN_US * 1000)
  let c := inWin.length
  let byCount := if s.is WP_MOTION_METHOD then decide (s.get WP_SPD_CFG_SW_DN ≤ c) else decide (s.get WP_SPD_CFG_SW_UP ≤ c)
  if byCount then (true, speedOver (c - 1) scale last (inWin.getLast?.getD last))
  else
    let k := min 4 (e.since - 1)
    (false, speedOver k scale last (e.counts.getD k last))

/-- A free value drawn. -/
def State.draw (s : State) : Nat × State := (s.free, { s with free := s.free + 1 })

/-- The speed estimate brought up to date (R186): 0 outside MOVING; a fraction over no time is a free value. -/
def State.speedUpdate (s : State) : State :=
  let e := s.enc s.selEnc
  if e.state != 2 then { s with web := { s.web with speed := 0 } }
  else
    let scale := s.scaleOf s.selEnc
    let r := s.speedRaw e scale
    let d := s.draw
    let (mag, s) : Rat × State := match r.2 with
      | some v => (v, s)
      | none => (((Config.speedOfNothing d.1).toNat : Rat) / 65536, d.2)
    let last := e.counts.headD 0
    let lim : Option Rat := if last < s.now then some ((scale : Rat) / 65536 / usBetween s.now last) else none
    let mag := match lim with
      | some l => if l < mag then l else mag
      | none => mag
    let s := s.flag WP_MOTION_METHOD r.1
    { s with web := { s.web with speed := if e.fwd then mag else -mag } }

/-- ACC_WIN of R188, in ns. -/
def State.accWin (s : State) : Nat := s.get WP_PRED_ACC_WIN * 100000

/-- Whether the selected encoder has been MOVING for ACC_WIN, without which the acceleration reads 0 (R188). -/
def State.accRuns (s : State) : Bool :=
  let e := s.enc s.selEnc
  e.state == 2 && s.accWin != 0 && s.past e.movedAt s.accWin

/-- The acceleration at a 10 µs update (R188). -/
def State.accUpdate (s : State) : State :=
  let past := (s.web.hist.find? fun h => decide (h.1 + s.accWin ≤ s.now)).map (·.2)
  let acc : Rat := match past with
    | some v => if s.accRuns then (s.web.speed - v) / ((s.accWin : Rat) / 1000000) else 0
    | none => 0
  { s with web := { s.web with acc := acc } }

/-- The acceleration between the 10 µs updates: kept, or 0 (R188). -/
def State.accKeep (s : State) : State := if s.accRuns then s else { s with web := { s.web with acc := 0 } }

/-- The speed kept for the acceleration window at a 10 µs update. -/
def State.histPush (s : State) : State :=
  { s with web := { s.web with
    hist := (s.now, s.web.speed) :: s.web.hist.filter fun h => decide (s.now ≤ h.1 + 26000000) } }

/-- No count for STILL_MS on an encoder (R184): STILL; the next Z edge only starts an interval. -/
def State.stillOne (s : State) (n : Nat) : State :=
  let e := s.enc n
  if e.state != 0 && s.past (e.counts.headD 0) (s.get WP_SPD_CFG_STILL_MS * 1000000) then
    s.modEnc n fun e => { e with state := 0, counts := [], since := 0, sinceZ := none }
  else s

/-! Predictions (R196–R201) -/

/-- The value of a register in force for a line of a job slot at a bar, or outside the running job (R119). -/
def timedFor (now : Nat) (l : List Timed) (job : Nat) (line : Nat) (live : Nat) : Nat :=
  match l.find? fun e => match e.line with
      | some n => e.job == job && decide (line < n)
      | none => decide (now < e.at_) with
  | some e => e.old
  | none => live

/-- WP_PRED in force for a line at a bar (R119). -/
def State.predFor (s : State) (b job line : Nat) : Nat := timedFor s.now (s.screenBar b).pred job line (s.rd WP_PRED)

/-- LEAD_US of a WP_PRED word, in ns. -/
def leadNs (w : Nat) : Nat := bits w 12 0 * 1000

/-- A square root with at least 48 mantissa bits (R200, log 9): as many more fraction bits as the number is small. -/
def sqrtR (x : Rat) : Rat :=
  let k := 49 + (x.den.log2 - x.num.toNat.log2)
  ((isqrt ((x * (2 : Rat) ^ (2 * k)).floor.toNat) : Nat) : Rat) / 2 ^ k

/-- The instant and position of an estimate update, from which predictions reckon until the next (R200). -/
def State.estTake (s : State) : State := { s with web := { s.web with estAt := s.now, estP := s.posAt s.now } }

/-- The predicted fire time, in device ns, of a fire position under a WP_PRED word, reckoned from the last estimate update
(R200). -/
def State.predict (s : State) (fp : Int) (pred : Nat) : Nat :=
  let cap : Rat := ((leadNs pred + 1000000 : Nat) : Rat) / 1000
  let v := s.web.speed
  let d : Rat := (fp : Rat) - s.web.estP
  let aa : Rat := if bit pred 16 then s.web.acc / 1000 else 0
  let q := v * v + 2 * aa * d
  let dt : Option Rat :=
    if !s.webGoes || v ≤ 0 then none
    else if d ≤ 0 then some 0
    else if q ≤ 0 then none
    else some (2 * d / (v + sqrtR q))
  let dt := match dt with
    | none => cap
    | some x => if cap < x then cap else x
  s.web.estAt + (roundR (dt * 1000)).toNat

/-- Whether the prediction of a fire position is held (R200): a held line does not start. -/
def State.predHeld (s : State) (fp : Int) (pred : Nat) : Bool :=
  decide (s.web.estAt + leadNs pred + 1000000 ≤ s.predict fp pred)

/-- Every line not yet fired predicted anew (R200). -/
def State.predictAll (s : State) : State :=
  { s with lines := s.lines.map fun l => l.map fun x => { x with pred := s.predict x.fp x.lead } }

/-- The registration target of a bar from its two terms (R198). -/
def regTarget (host auto : Int) : Int := clamp (host + auto) (-640000) 640000

/-- The registration target in force for a line (R119, R198). -/
def State.regFor (s : State) (b job line : Nat) : Int :=
  let sb := s.screenBar b
  regTarget (sgn 32 (timedFor s.now sb.regHost job line (s.get (WP_BAR_REG_HOST_REG b))))
    (sgn 32 (timedFor s.now sb.regAuto job line (s.get (WP_BAR_REG_AUTO_REG b))))

/-- REG_EFF moved toward a target by at most SLEW (R199). -/
def State.regStep (s : State) (b : Nat) (target : Int) : State :=
  let cur := s.sget (WP_BAR_REG_EFF_REG b)
  let slew : Int := (s.get WP_REG_SLEW_SLEW : Nat)
  s.sput (WP_BAR_REG_EFF_REG b) (cur + clamp (target - cur) (-slew) slew)

/-- The fire position of line n of a page run at a bar, with a registration correction (R196). -/
def State.firePos (s : State) (pitchDiv : Nat) (start : Int) (first n b : Nat) (reg : Int) : Int :=
  start + offPu pitchDiv ((n : Int) - first) + s.barOfs b + reg

/-! Probes (R189–R191) -/

def State.probe (s : State) (n : Nat) : Probe := s.web.probes.getD n Probe.reset
def State.modProbe (s : State) (n : Nat) (f : Probe → Probe) : State :=
  { s with web := { s.web with probes := modAt s.web.probes n f } }

/-- The flags of a latch as WP_PRBn_POS_HI bits 19:16 show them. -/
def probeFlags (rising back lost : Bool) : Nat := b2n rising + 2 * b2n back + 4 * b2n lost + 8

/-- Whether an edge is of the chosen polarity (R189). -/
def edgeChosen (cfg : Nat) (rising : Bool) : Bool := cfg == 3 || (cfg == 1 && rising) || (cfg == 2 && !rising)

/-- An accepted probe edge: what it latches, if it does, and the state after it (R189, R190). Travel past the previous latch is
signed: an edge behind it, after the web has moved back, is blanked even with BLANK 0 (log 60, DESIGN CHOICE). -/
def State.probeEdge (s : State) (n : Nat) (rising : Bool) (at_ : Nat) : Option Int × State :=
  let s := s.flag (WP_PRB_STAT_LEVEL n) rising
  if !edgeChosen (s.get (WP_PRB_CFG_EDGE n)) rising then (none, s)
  else
    let pos := (s.posAt at_).floor
    let blanked := match (s.probe n).lastPos with
      | none => false
      | some p => decide (pos - p < (s.get (WP_PRB_CFG_BLANK n) * 64 : Nat))
    if blanked then (none, s.inc (WP_PRB_STAT_IGNORED n))
    else
      let back := s.is WP_MOTION_DIR_STATE
      let full := decide (16 ≤ (s.probe n).fifo.length)
      let lost := (s.probe n).lostRun && !full
      let p48 := unsgn 48 pos
      let s := s.modProbe n fun p => { p with lastPos := some pos }
      let s := s.record 0x02 at_ (leBytes 4 (n + probeFlags rising back lost * 2 ^ 16 + b2n (!full) * 2 ^ 20) ++
        leBytes 4 p48 ++ leBytes 4 (p48 / 2 ^ 32))
      let s := if full then
          let first := !(s.probe n).lostRun
          let s := (s.modProbe n fun p => { p with lostRun := true }).inc (WP_PRB_STAT_OVF n)
          if first then s.raise 0x2107 n 0 0 else s
        else
          let s := s.modProbe n fun p => { p with fifo := p.fifo ++ [⟨at_, pos, rising, back, lost⟩], lostRun := false }
          s.inc (WP_PRB_STAT_ENTRIES n)
      (if back then none else some pos, s)

/-- POP (R190): the oldest entry removed. -/
def State.probePop (s : State) (n : Nat) : State :=
  if (s.probe n).fifo.isEmpty then s
  else
    let s := s.modProbe n fun p => { p with fifo := p.fifo.drop 1 }
    s.put (WP_PRB_STAT_ENTRIES n) (s.probe n).fifo.length

/-- The oldest entry as the registers +0x08 to +0x14 show it. -/
def State.probeWord (s : State) (n k : Nat) : Nat :=
  match (s.probe n).fifo with
  | [] => 0
  | e :: _ =>
    let p := unsgn 48 e.pos
    match k with
    | 0 => e.time % 2 ^ 32
    | 1 => e.time / 2 ^ 32
    | 2 => p % 2 ^ 32
    | _ => p / 2 ^ 32 + probeFlags e.rising e.back e.lost * 2 ^ 16

/-! Emulated outputs (R192–R194) -/

/-- Edge position e_k (R192). -/
def encoPos (origin : Int) (k cpm : Nat) : Int := origin + ((k * 64000000 + cpm - 1) / cpm : Nat)

/-- The page at the reference point: the started one with the farthest start not beyond Q. -/
def State.pageAt (s : State) (q : Int) : Option PageRun :=
  s.scan.runs.foldl (fun r x =>
    if x.start ≤ q then
      match r with
      | none => some x
      | some y => if y.start < x.start then some x else r
    else r) none

/-- Edges of an output due and not yet issued (R193). -/
def State.encoLag (s : State) (n : Nat) : Nat :=
  let e := s.enco n
  let d := s.qInterp.floor - e.origin
  if d < 0 || !s.is (WP_ENCO_CFG_EN n) then 0 else (d.toNat * s.get (WP_ENCO_CPM_CPM n) / 64000000) - e.k

/-- LAG shown; above 16 it raises 0x2108 once per page (R193). -/
def State.encoShow (s : State) (n : Nat) : State :=
  let lag := s.encoLag n
  let s := s.put (WP_ENCO_STAT_LAG n) (min lag 65535)
  let page := (s.pageAt s.qPu).map (·.start)
  if 16 < lag && (s.enco n).lagPage != some page then
    ((s.modEnco n fun e => { e with lagPage := some page }).inc (WP_ENCO_STAT_LAG_EVENTS n)).raise 0x2108 n 0 0
  else s

/-- The LAG of both outputs brought up to date. -/
def State.encosShow (s : State) : State := s.each (List.range 2) State.encoShow

/-- Whether an edge at a position is the first at or after a page's start plus ZOFS (R194), and the farthest start reached. -/
def State.encoZ (s : State) (n : Nat) (pos : Int) : Bool × Option Int :=
  let e := s.enco n
  match s.pageAt (pos - s.sget (WP_ENCO_ZOFS_ZOFS n)) with
  | some r => (match e.zPage with
    | some x => if x < r.start then (true, some r.start) else (false, e.zPage)
    | none => (true, some r.start))
  | none => (false, e.zPage)

/-- The states in which the outputs stand: STILL, BACKLASH and REVERSED (R192). -/
def State.encosStand (s : State) : Bool := s.get WP_MOTION_SPEED_STATE == 0 || s.get WP_MOTION_DIR_STATE != 0

/-- The next edge of an output issued, if it is due and 100 ns have passed since the last (R192, R193). -/
def State.encoEdge (s : State) (n : Nat) : State :=
  let e := s.enco n
  let soon := match e.lastAt with
    | none => false
    | some a => !s.past a 100
  if n < 2 ∧ s.is (WP_ENCO_CFG_EN n) ∧ !s.encosStand ∧ 0 < s.encoLag n ∧ !soon then
    let k := e.k + 1
    let z := s.encoZ n (encoPos e.origin k (s.get (WP_ENCO_CPM_CPM n)))
    let s := s.encoShow n
    let s := s.modEnco n fun e => { e with
      k := k, phase := (e.phase + 1) % 4, z := z.1, zPage := z.2, lastAt := some s.now }
    s.put (WP_ENCO_STAT_LAG n) (min (s.encoLag n) 65535)
  else s

/-- An output started afresh at an origin with the levels of a phase (R192, R195). -/
def State.encoStart (s : State) (n : Nat) (origin : Int) (phase : Nat) : State :=
  (s.modEnco n fun e => { e with origin := origin, k := 0, phase := phase }).encoShow n

/-- The outputs whose EN has just been set or whose CPM has changed start afresh at Q (R192); the copy carries the origin and the
phase of the lines (R195), as an entry of the model's own (log 55). -/
def State.encoOrigin (s before : State) : State :=
  s.each (List.range 2) fun s n =>
    if s.is (WP_ENCO_CFG_EN n) &&
        (!before.is (WP_ENCO_CFG_EN n) || before.get (WP_ENCO_CPM_CPM n) != s.get (WP_ENCO_CPM_CPM n)) then
      (s.encoStart n s.qPu (s.enco n).phase).copy 12 (n :: posWords s.qPu ++ [(s.enco n).phase])
    else s.encoShow n

/-! Register writes -/

/-- Limits of the WP_ registers. -/
def limitWp (s : State) (a new _mask : Nat) : Verdict :=
  let running := s.is PG_JOB_STAT_RUNNING
  if a = WP_ENC_CFG then
    (rangeUnless (bits new 1 0 != bits new 3 2 && bits new 15 8 != 0)).orElse' (busyWhen running)
  else if (instOf (WP_ENC_SCALE 0) 0x10 4 a).isSome then (rangeUnless (new != 0)).orElse' (busyWhen running)
  else if a = WP_FAIL_CFG then rangeUnless (bits new 15 8 != 0 && bits new 23 16 != 0)
  else if a = WP_TRACK then rangeUnless (bits new 15 0 != 0)
  else if a = WP_SPD_CFG then
    rangeUnless (bits new 7 0 != 0 && decide (bits new 23 16 ≤ bits new 15 8) && bits new 31 24 != 0)
  else if a = WP_PRED then rangeUnless (fieldIn new 12 0 250 4000 && bits new 31 24 != 0)
  else if a = WP_REG_SLEW then rangeUnless (bits new 15 0 != 0)
  else
    match instOf (WP_BAR_OFS 0) 0x10 8 a with
    | some b => busyWhen (!s.barIdle b)
    | none =>
      if (instOf (WP_PRB_CFG 0) 0x20 4 a).isSome then rangeUnless (bits new 15 8 != 0)
      else if (instOf (WP_ENCO_CFG 0) 0x20 2 a).isSome then rangeUnless (bits new 2 1 != 3)
      else if (instOf (WP_ENCO_CPM 0) 0x20 2 a).isSome then rangeUnless (fieldIn new 21 0 1 4000000)
      else none

/-- What a write to a WP_ register sets off; SWAP and RESTORE act where the command commits. -/
def actWp (a mask val : Nat) (before s : State) : Nat × State :=
  if a = WP_ENC_CFG then
    (stOk, if bits (before.rd WP_ENC_CFG) 3 0 != bits (s.rd WP_ENC_CFG) 3 0 then s.reform else s)
  else if a = WP_SRC_CTRL then
    let r := if bit (mask &&& val) 0 then s.srcSwap else (stOk, s)
    if r.1 != stOk then r
    else if bit (mask &&& val) 1 then r.2.srcRestore else r
  else
    match instOf (WP_PRB_CTRL 0) 0x20 4 a with
    | some n => (stOk, if bit (mask &&& val) 0 then s.probePop n else s)
    | none => (stOk, s)

end Sys2Proof.Machine
end

