-- ==== Sys2Proof/Machine/Lines.lean ====
section
/-! DEFINITION. The timeline of lines at each bar (spec/04, R105–R111; R119): checked pages, the next line to compose,
where and when a line fires, and apply-at lines. -/

namespace Sys2Proof.Machine

/-! Settings of a page -/

/-- A register's value in a GAP set; 0 where the set does not name it. -/
def gapWord (g : GapSet) (a : Nat) : Nat := ((g.find? (·.1 == a)).map (·.2)).getD 0

/-- A field's value in a GAP set. -/
def gapGet (g : GapSet) (f : Fld) : Nat := bits (gapWord g f.addr) f.hi f.lo

def PageRun.barMask (r : PageRun) : Nat := bits r.w1 15 8
def PageRun.bars (r : PageRun) : List Nat := barsOf r.barMask
def PageRun.gapVar (r : PageRun) : Bool := bit r.w1 16
def PageRun.gridX (r : PageRun) : Nat := bits r.w1 17 17
def PageRun.gridY (r : PageRun) : Nat := bits r.w1 18 18
def PageRun.upsample (r : PageRun) : Bool := bit r.w1 19
def PageRun.gapLines (r : PageRun) : Nat := gapGet r.set PG_GAP_GAP_LINES
def PageRun.mark (r : PageRun) : Bool := gapGet r.set PG_GAP_START_MODE == 1

/-- First line after the page's minimum gap (R106). -/
def PageRun.minEnd (r : PageRun) : Nat := r.firstLine + r.lines + r.gapLines

/-- Whether a job line lies in the page itself and not in the gap after it. -/
def PageRun.inPage (r : PageRun) (line : Nat) : Bool := decide (r.firstLine ≤ line) && decide (line < r.firstLine + r.lines)

/-- A checked page by its job's order and number. -/
def State.runOf (s : State) (ord page : Nat) : Option PageRun := s.scan.runs.find? fun r => r.ord == ord && r.page == page

def State.modRun (s : State) (ord page : Nat) (f : PageRun → PageRun) : State :=
  { s with scan := { s.scan with runs := s.scan.runs.map fun r => if r.ord == ord && r.page == page then f r else r } }

/-- First line that does not exist yet after a page: its gap runs to the next page where that is known, to its
minimum end in CONT, and on without a limit in MARK (R105, R106). -/
def State.lineLimit (s : State) (r : PageRun) : Option Nat :=
  match r.endLine with
  | some e => some e
  | none =>
    match s.scan.nextPage with
    | some n =>
      if n.ord == r.ord then
        match n.start with
        | some _ => some n.gridLine
        | none => if r.mark then none else some r.minEnd
      else some r.minEnd
    | none => some r.minEnd

/-- The first checked page of the first job after `ord` (or of the first job at all) that uses a bar. -/
def State.firstRun (s : State) (b : Nat) (ord : Option Nat) : Option PageRun :=
  s.scan.runs.find? fun r => bit r.barMask b && r.page == 0 &&
    (match ord with
     | some o => decide (o < r.ord)
     | none => true)

/-- The line a bar composes after one (or first of all), with its page; none while it must wait for a page to be checked. -/
def State.lineAfter (s : State) (b : Nat) (last : Option (Nat × Nat)) : Option (PageRun × Nat) :=
  match last with
  | none => (s.firstRun b none).map fun r => (r, r.firstLine)
  | some (ord, l) =>
    match s.runAt ord (l + 1) with
    | none => (s.firstRun b (some ord)).map fun r => (r, r.firstLine)
    | some r =>
      let more := match s.lineLimit r with
        | some e => decide (l + 1 < e)
        | none => true
      if more then some (r, l + 1)
      else if r.endLine.isSome then (s.firstRun b (some ord)).map fun r => (r, r.firstLine)
      else none

/-- The next line a bar composes, with its page. -/
def State.nextLine (s : State) (b : Nat) : Option (PageRun × Nat) := s.lineAfter b (s.screenBar b).lastLine

/-- Fire position of a line at a bar with the registration now in force there (R196). -/
def State.lineFp (s : State) (r : PageRun) (line b : Nat) : Int :=
  s.firePos r.pitchDiv r.start r.firstLine line b (s.sget (WP_BAR_REG_EFF_REG b))

/-- Predicted fire time of a line at a bar (R200). -/
def State.lineTime (s : State) (r : PageRun) (line b : Nat) : Nat :=
  s.predict (s.lineFp r line b) (s.predFor b r.ord line)

/-- When composition of a line may begin: its predicted fire time less (lead + 250 µs) (R111). -/
def State.composeAt (s : State) (r : PageRun) (line b : Nat) : Nat :=
  s.lineTime r line b - (leadNs (s.predFor b r.ord line) + 250000)

/-- The lines of a bar from one on, across pages and jobs, that begin composition before a device time: the order of the job
of each. -/
def State.comingFrom (s : State) (b at_ : Nat) : Nat → Option (PageRun × Nat) → List Nat
  | k + 1, some (r, line) =>
    if at_ ≤ s.composeAt r line b then [] else r.ord :: s.comingFrom b at_ k (s.lineAfter b (some (r.ord, line)))
  | _, _ => []

/-- The lines of a bar that begin composition before a device time and have not begun yet, by the order of their job. -/
def State.coming (s : State) (b at_ : Nat) : List Nat := s.comingFrom b at_ 4096 (s.nextLine b)

/-- The number the next line of a bar has in a job (R105). -/
def State.nextNum (s : State) (b ord : Nat) : Nat :=
  match (s.screenBar b).lastLine with
  | some (o, l) => if o == ord then l + 1 else 0
  | none => 0

/-- The first job line at a bar whose composition begins no earlier than a device time (R119). -/
def State.applyLine (s : State) (b ord at_ : Nat) : Nat := s.nextNum b ord + (s.coming b at_).count ord

/-- The first sequence number of a channel whose line begins composition after a device time (R292). -/
def State.applySeq (s : State) (ch at_ : Nat) : Nat :=
  (s.get (JL_SEQ_NEXT_SEQ ch) + (s.coming (chanBar ch) at_).length) % 2 ^ 24

/-- The end of the next tick, as R292 and R119 use it at a tick end. -/
def State.nextTickEnd (s : State) : Nat := (s.tick + 1) * 250000

/-- The order of the running job among started jobs. -/
def State.runOrd (s : State) : Option Nat := s.running.map (·.order)

/-- The words of a TICK_APPLY entry (R119, R381): the running job's slot, and the apply-at line of each of its bars for a
change made at this tick end. -/
def State.tickApply (s : State) : List Nat :=
  match s.running with
  | some j => j.slot :: (List.range 8).map fun b =>
      if bit j.bars b then s.applyLine b j.order (s.tick * 250000 + 250000) % 2 ^ 32 else 0xFFFFFFFF
  | none => 63 :: List.replicate 8 0xFFFFFFFF

/-- The apply-at lines already fixed for this tick end: those the copy under way carries, or those of a change made before at
the same tick end. -/
def State.fixedLines (s : State) : Option (List Nat) :=
  if s.pair.tickLines.isEmpty then (s.pair.entries.find? (·.kind == 9)).map (·.words) else some s.pair.tickLines

/-- The apply-at lines of a change made now (R119). -/
def State.applyLines (s : State) : List Nat := s.fixedLines.getD s.tickApply

/-- The tick's TICK_APPLY entry, once for all its changes. -/
def State.copyLines (s : State) (lines : List Nat) : State := if s.fixedLines.isSome then s else s.copy 9 lines

/-- The apply-at line of a bar among a tick's, with the order of its job; none for a bar outside the running job (R119). -/
def State.applyAtLine (s : State) (lines : List Nat) (b : Nat) : Option (Nat × Nat) :=
  let n := lines.getD (b + 1) 0xFFFFFFFF
  if n = 0xFFFFFFFF then none else (s.jobAt (lines.headD 63)).map fun j => (j.order, n)

/-- An old value kept for the lines before an apply-at line at each bar of the running job, and for 250 µs at the
others (R119). -/
def State.holdOld (s : State) (lines : List Nat) (sel : ScreenBar → List Timed) (upd : ScreenBar → List Timed → ScreenBar)
    (old : Nat → Nat) : State :=
  s.each (List.range 8) fun s b =>
    let at_ := s.tick * 250000 + 250000
    let e : Timed := match s.applyAtLine lines b with
      | some (o, n) => ⟨o, some n, at_, old b⟩
      | none => ⟨0, none, at_, old b⟩
    s.modBar b fun x => upd x (sel x ++ [e])

/-- Old values no line will need any more are let go. -/
def State.timedPrune (s : State) : State :=
  let live (x : ScreenBar) (e : Timed) : Bool := match e.line with
    | some n => (match x.lastLine with
      | some (o, l) => decide (o < e.job) || (o == e.job && decide (l + 1 < n))
      | none => true)
    | none => decide (s.now < e.at_)
  { s with screen := { s.screen with bars := s.screen.bars.map fun x => { x with
      pred := x.pred.filter (live x), regHost := x.regHost.filter (live x), regAuto := x.regAuto.filter (live x) } } }

/-- A page's whole length as a range (R305). -/
def PageRun.span (r : PageRun) : Int × Int := (r.start, r.start + offPu r.pitchDiv r.lines)

end Sys2Proof.Machine
end

