-- ==== Sys2Proof/Machine/CamCfg.lean ====
section
/-! DEFINITION. The checks a TICK commit makes on a committed camera set (spec/10, R313) and on the whole set. -/

namespace Sys2Proof.Machine

/-- Bytes of a line of a context: its long packet's word count (R312). -/
def camWords (fmt pixels : Nat) : Nat := if fmt = 1 then pixels * 48 / 8 else pixels * 30 / 8

/-- Lanes a LANES code selects. -/
def camLanes (code : Nat) : Nat := 2 ^ code

/-- Whether the committed fields of a context keep every limit of its table (R313). -/
def State.camCtxOk (s : State) (n : Nat) : Bool :=
  let px := s.getSh (CM_CTX_GEOM_PIXELS n)
  let xn := s.getSh (CM_CTX_MAP_X_XN n)
  s.getSh (CM_CTX_CFG_TRIG_DIV n) != 3 && decide (4 ≤ s.getSh (CM_CTX_CFG_STRIPE n)) &&
    px % 16 == 0 && decide (16 ≤ px) && decide (px ≤ 8192) &&
    decide (15 ≤ s.getSh (CM_CTX_GEOM_LINES_M1 n)) &&
    decide (1 ≤ s.getSh (CM_CTX_RATE_RATE n)) && decide (s.getSh (CM_CTX_RATE_RATE n) ≤ 12000) &&
    decide (s.getSh (CM_CTX_LAT_VALUE n) ≤ 1000000) &&
    decide (1 ≤ xn) && decide (xn ≤ 12288) && decide (s.getSh (CM_CTX_MAP_X_X0 n) + xn ≤ 94488)

/-- Whether a port's own fields and its contexts' keep their limits. -/
def State.camPortOk (s : State) (p : Nat) : Bool :=
  s.getSh (CM_PORT_CFG_LANES p) != 3 && decide (160 ≤ s.getSh (CM_PORT_CFG_RATE_MBPS p)) &&
    decide (s.getSh (CM_PORT_CFG_RATE_MBPS p) ≤ 4500) && (List.range 4).all fun k => s.camCtxOk (4 * p + k)

/-- Whether a port's enabled contexts fit its budget (R313). -/
def State.camBudgetOk (s : State) (p : Nat) : Bool :=
  let load := ((List.range 4).map fun k =>
    let n := 4 * p + k
    if s.getSh (CM_CTX_CFG_EN n) = 0 then 0
    else (camWords (s.getSh (CM_CTX_CFG_FMT n)) (s.getSh (CM_CTX_GEOM_PIXELS n)) + 12) * 8 * s.getSh (CM_CTX_RATE_RATE n)).sum
  decide (load * 10 ≤ 9 * camLanes (s.getSh (CM_PORT_CFG_LANES p)) * (s.getSh (CM_PORT_CFG_RATE_MBPS p) * 1000000))

/-- Whether the settings no port owns keep their limits. -/
def State.camOtherOk (s : State) : Bool :=
  decide (8 ≤ s.getSh CM_PROOF_CFG_TILE_LINES) && decide (1 ≤ s.getSh CM_PROOF_CFG_MIN_TILES)

/-- The port and cause of a refused camera set (R313): 1 budget, 2 field limit; the lowest port first (log 28). -/
def State.camReject (s : State) : Option (Nat × Nat) :=
  match (List.range 4).find? fun p => !s.camPortOk p || !s.camBudgetOk p with
  | some p => some (p, if s.camPortOk p then 1 else 2)
  | none => if s.camOtherOk then none else some (0, 2)

/-- What a refused camera set leaves behind (R313): the latched port and cause, and event 0x5105 with the port. -/
def State.camRefused (s : State) (r : Nat × Nat) : State :=
  ((s.put CM_CFG_STAT_PORT r.1).put CM_CFG_STAT_CAUSE r.2).raise 0x5105 r.1 0 0

end Sys2Proof.Machine
end

