-- ==== Sys2Proof/Machine/Casser.lean ====
section
/-! DEFINITION. The Casser strip of spec/03_casser_format.md, bit for bit: header (R81–R83), raw form (R82), the three
coded modes decoded (R84–R92) and encoded (R96, R97). Samples are numbers in raster order; bits are Bools, most
significant first (R80). -/

namespace Sys2Proof.Machine

/-- The fields of a strip header (R81). -/
structure StripHdr where
  magic : Nat
  ver : Nat
  mode : Nat
  bps : Nat
  linesM1 : Nat
  last : Bool
  flushed : Bool
  widthM1 : Nat
  payloadLen : Nat
  crc : Nat
  fill : Nat
  /-- Every reserved bit of the header, as one number: 0 when all are 0. -/
  resv : Nat
  deriving DecidableEq, Repr

/-- The shape a strip must have at its place (R91). -/
structure StripGeom where
  bps : Nat
  widthM1 : Nat
  linesM1 : Nat
  last : Bool
  flushed : Bool
  deriving DecidableEq, Repr

/-- Bits per sample of a BPS code (R81). -/
def bpsBits (bps : Nat) : Nat := if bps = 0 then 1 else if bps = 1 then 2 else if bps = 2 then 3 else 8

/-- Bytes of one line of the raw form (R82). -/
def rawLineBytes (bps widthM1 : Nat) : Nat := cdiv ((widthM1 + 1) * bpsBits bps) 8

/-- RAWLEN (R82). -/
def rawLenOf (bps widthM1 linesM1 : Nat) : Nat := (linesM1 + 1) * rawLineBytes bps widthM1

/-- RAWLEN of a header's own fields (R82). -/
def StripHdr.rawLen (h : StripHdr) : Nat := rawLenOf h.bps h.widthM1 h.linesM1

/-- RAWLEN of a geometry (R82). -/
def StripGeom.rawLen (g : StripGeom) : Nat := rawLenOf g.bps g.widthM1 g.linesM1

/-- Samples of a geometry (R92). -/
def StripGeom.count (g : StripGeom) : Nat := (g.linesM1 + 1) * (g.widthM1 + 1)

/-- The header read from a strip's first 16 bytes (R81). -/
def StripHdr.parse (bs : List Byte) : StripHdr :=
  let w0 := beAt bs 0 4
  let w1 := beAt bs 4 4
  let w3 := beAt bs 12 4
  { magic := bits w0 31 16, ver := bits w0 15 12, mode := bits w0 11 10, bps := bits w0 9 8
    linesM1 := bits w0 7 3, last := bit w0 2, flushed := bit w0 1
    widthM1 := bits w1 31 20, payloadLen := bits w1 17 0, crc := beAt bs 8 4
    fill := bits w3 31 24, resv := bits w0 0 0 + bits w1 19 18 + bits w3 23 0 }

/-- The 16 bytes of a header (R81). -/
def StripHdr.bytes (h : StripHdr) : List Byte :=
  beBytes 4 (h.magic * 2 ^ 16 + h.ver * 2 ^ 12 + h.mode * 2 ^ 10 + h.bps * 2 ^ 8 + h.linesM1 * 8
    + b2n h.last * 4 + b2n h.flushed * 2)
  ++ beBytes 4 (h.widthM1 * 2 ^ 20 + h.payloadLen) ++ beBytes 4 h.crc ++ beBytes 4 (h.fill * 2 ^ 24)

/-- R83: whether a header's fields are valid. -/
def StripHdr.valid (h : StripHdr) : Bool :=
  let len := h.payloadLen
  h.magic == 0xCA55 && h.ver == 1 && h.resv == 0 && (!h.flushed || h.last) &&
  (match h.mode with
   | 0 => len == h.rawLen && h.fill == 0
   | 1 => h.bps == 3 && decide (1 ≤ len) && decide (len ≤ h.rawLen) && h.fill == 0
   | 2 => decide (1 ≤ len) && decide (len ≤ h.rawLen) && h.fill == 0
   | _ => len == 0 && decide (h.fill < 2 ^ bpsBits h.bps))

/-- R91, R94: whether a header has the geometry expected at its place. -/
def StripHdr.fits (h : StripHdr) (g : StripGeom) : Bool :=
  h.bps == g.bps && h.widthM1 == g.widthM1 && h.linesM1 == g.linesM1 && h.last == g.last && h.flushed == g.flushed

/-- A byte's bits, most significant first (R80). -/
def byteBits (b : Byte) : List Bool :=
  [b.getLsbD 7, b.getLsbD 6, b.getLsbD 5, b.getLsbD 4, b.getLsbD 3, b.getLsbD 2, b.getLsbD 1, b.getLsbD 0]

/-- A byte string's bits (R80). -/
def bytesBits (bs : List Byte) : List Bool := bs.flatMap byteBits

/-- `n` bits of a number, most significant first (R80). -/
def natBits : Nat → Nat → List Bool
  | 0, _ => []
  | n + 1, v => v.testBit n :: natBits n v

/-- The number bits spell, most significant first. -/
def bitsNat : List Bool → Nat := List.foldl (fun a b => 2 * a + b2n b) 0

/-- Bits packed into bytes, the last one padded with zero bits. -/
def packBits : Nat → List Bool → List Byte
  | 0, _ => []
  | _, [] => []
  | k + 1, bs => BitVec.ofNat 8 (bitsNat ((bs.take 8 ++ List.replicate 8 false).take 8)) :: packBits k (bs.drop 8)

/-- Bits as bytes, padded with zero bits to a byte boundary. -/
def bitsBytes (bs : List Bool) : List Byte := packBits (bs.length / 8 + 1) bs

/-- Samples split into lines of `w`. -/
def linesOf (w : Nat) : Nat → List Nat → List (List Nat)
  | 0, _ => []
  | n + 1, ss => ss.take w :: linesOf w n (ss.drop w)

/-- The raw form of samples in raster order (R82). -/
def rawForm (bps widthM1 linesM1 : Nat) (ss : List Nat) : List Byte :=
  (linesOf (widthM1 + 1) (linesM1 + 1) ss).flatMap fun l => bitsBytes (l.flatMap (natBits (bpsBits bps)))

/-- `n` samples of `k` bits each. -/
def unpackSamples (k : Nat) : Nat → List Bool → List Nat
  | 0, _ => []
  | n + 1, bs => bitsNat (bs.take k) :: unpackSamples k n (bs.drop k)

/-- The samples of a raw form, and whether every line's padding is zero (R82, R92). -/
def unpackRaw (bps widthM1 : Nat) : Nat → List Byte → List Nat × Bool
  | 0, _ => ([], true)
  | n + 1, bs =>
    let lb := rawLineBytes bps widthM1
    let bits := bytesBits (bs.take lb)
    let w := widthM1 + 1
    let r := unpackRaw bps widthM1 n (bs.drop lb)
    (unpackSamples (bpsBits bps) w bits ++ r.1, (bits.drop (w * bpsBits bps)).all (!·) && r.2)

/-- What went wrong inside a payload: the reason code of CS_DEC_LAST_SLOT (R92). -/
abbrev StripReason := Nat

/-- Counts the zero bits before the first one bit, at most `fuel` of them. -/
def leadingZeros : Nat → List Bool → Option (Nat × List Bool)
  | 0, _ => none
  | _, [] => none
  | k + 1, b :: bs => if b then some (0, b :: bs) else (leadingZeros k bs).map fun r => (r.1 + 1, r.2)

/-- R85: one count from the bits, or the reason it cannot be read (3 code error, 5 bits exhausted). -/
def readCount (bs : List Bool) : Except StripReason (Nat × List Bool) :=
  match leadingZeros 18 bs with
  | some (z, rest) =>
    if z > 17 then .error 3
    else if rest.length < z + 1 then .error 5
    else .ok (bitsNat (rest.take (z + 1)), rest.drop (z + 1))
  | none => if (bs.take 18).length = 18 && (bs.take 18).all (!·) then .error 3 else .error 5

/-- R85: the bits of a count. -/
def countBits (n : Nat) : List Bool := List.replicate n.log2 false ++ natBits (n.log2 + 1) n

/-- What a coded payload gives: the samples or residuals decoded before the first that cannot be, the lowest reason
found, and the bits left. -/
structure CodedRead where
  vals : List Nat
  reason : StripReason
  rest : List Bool
  deriving DecidableEq, Repr

/-- R86: runs until `n` samples are covered. -/
def readRuns (k : Nat) : Nat → Nat → List Bool → CodedRead
  | 0, _, bs => ⟨[], 0, bs⟩
  | _, 0, bs => ⟨[], 0, bs⟩
  | fuel + 1, n, bs =>
    if bs.length < k then ⟨[], 5, bs⟩
    else
      let v := bitsNat (bs.take k)
      match readCount (bs.drop k) with
      | .error r => ⟨[], r, []⟩
      | .ok (len, rest) =>
        if len > n then ⟨List.replicate n v, 4, rest⟩
        else
          let r := readRuns k fuel (n - len) rest
          ⟨List.replicate len v ++ r.vals, r.reason, r.rest⟩

/-- R89: the one bits that open a residual, at most fifteen. -/
def readOnes : Nat → List Bool → Option (Nat × List Bool)
  | 0, bs => some (0, bs)
  | _, [] => none
  | k + 1, b :: bs => if b then (readOnes k bs).map fun r => (r.1 + 1, r.2) else some (0, bs)

/-- R89: one residual of Rice parameter `k`. -/
def readResidual (k : Nat) (bs : List Bool) : Option (Nat × List Bool) :=
  match readOnes 15 bs with
  | none => none
  | some (q, rest) =>
    let w := if q = 15 then 8 else k
    if rest.length < w then none
    else
      let low := bitsNat (rest.take w)
      some (if q = 15 then low else q * 2 ^ k + low, rest.drop w)

/-- `n` residuals of Rice parameter `k`. -/
def readGroup (k : Nat) : Nat → List Bool → CodedRead
  | 0, bs => ⟨[], 0, bs⟩
  | n + 1, bs =>
    match readResidual k bs with
    | none => ⟨[], 5, []⟩
    | some (m, rest) =>
      let r := readGroup k n rest
      ⟨m :: r.vals, r.reason, r.rest⟩

/-- R88, R89: the residuals of `n` samples, group by group. -/
def readGroups : Nat → Nat → List Bool → CodedRead
  | 0, _, bs => ⟨[], 0, bs⟩
  | _, 0, bs => ⟨[], 0, bs⟩
  | fuel + 1, n, bs =>
    if bs.length < 3 then ⟨[], 5, bs⟩
    else
      let gc := bitsNat (bs.take 3)
      if gc = 7 then
        match readCount (bs.drop 3) with
        | .error r => ⟨[], r, []⟩
        | .ok (c, rest) =>
          if c > cdiv n 16 then ⟨List.replicate n 0, 4, rest⟩
          else
            let r := readGroups fuel (n - min n (16 * c)) rest
            ⟨List.replicate (min n (16 * c)) 0 ++ r.vals, r.reason, r.rest⟩
      else
        let g := readGroup gc (min n 16) (bs.drop 3)
        if g.reason ≠ 0 then g
        else
          let r := readGroups fuel (n - min n 16) g.rest
          ⟨g.vals ++ r.vals, r.reason, r.rest⟩

/-- R87: the prediction from the left, upper and upper-left samples. -/
def predictOf (a b c : Nat) : Nat :=
  if c ≥ max a b then min a b else if c ≤ min a b then max a b else a + b - c

/-- R87: a folded residual rebuilt onto its prediction. -/
def rebuild (p m : Nat) : Nat :=
  let d : Int := if m % 2 = 0 then (m / 2 : Nat) else -(((m + 1) / 2 : Nat) : Int)
  (((p : Int) + d) % 256).toNat

/-- R87: the folded residual of a sample from its prediction. -/
def foldResidual (s p : Nat) : Nat :=
  let d : Int := ((s : Int) - p + 128) % 256 - 128
  if d ≥ 0 then (2 * d).toNat else (-2 * d - 1).toNat

/-- R87: one line rebuilt; `a` is the left sample (none at x = 0), `up` the line above from x on (none at y = 0),
`c` the sample above the left one. -/
def predLine (a : Option Nat) (c : Nat) : Option (List Nat) → List Nat → List Nat
  | _, [] => []
  | none, m :: ms =>
    let s := rebuild (a.getD 128) m
    s :: predLine (some s) 0 none ms
  | some up, m :: ms =>
    let b := up.headD 0
    let p := match a with | none => b | some l => predictOf l b c
    let s := rebuild p m
    s :: predLine (some s) b (some up.tail) ms

/-- R87: lines rebuilt from their residuals, the line above given. -/
def predLines : Option (List Nat) → List (List Nat) → List Nat
  | _, [] => []
  | up, l :: ls =>
    let row := predLine none 0 up l
    row ++ predLines (some row) ls

/-- R87: the folded residuals of one line. -/
def residLine (a : Option Nat) (c : Nat) : Option (List Nat) → List Nat → List Nat
  | _, [] => []
  | none, s :: ss => foldResidual s (a.getD 128) :: residLine (some s) 0 none ss
  | some up, s :: ss =>
    let b := up.headD 0
    let p := match a with | none => b | some l => predictOf l b c
    foldResidual s p :: residLine (some s) b (some up.tail) ss

/-- R87: the folded residuals of lines, the line above given. -/
def residLines : Option (List Nat) → List (List Nat) → List Nat
  | _, [] => []
  | up, l :: ls => residLine none 0 up l ++ residLines (some l) ls

/-- A decoded strip: exactly its samples (R92, zeros where none could be decoded, R95 step 1) and the lowest reason
found, 0 for none. -/
structure StripRead where
  samples : List Nat
  reason : StripReason
  deriving DecidableEq, Repr

/-- R92: the samples a payload gives, with the lowest reason among 3, 4 and 5. -/
def readPayload (g : StripGeom) (mode fill : Nat) (pl : List Byte) : StripRead :=
  let n := g.count
  let padTo := fun (l : List Nat) => l ++ List.replicate (n - l.length) 0
  let tail := fun (r : StripReason) (rest : List Bool) =>
    if r ≠ 0 then r else if rest.length ≥ 8 || rest.any id then 5 else 0
  match mode with
  | 0 =>
    let r := unpackRaw g.bps g.widthM1 (g.linesM1 + 1) pl
    ⟨r.1, if r.2 then 0 else 5⟩
  | 1 =>
    let r := readGroups (n + 1) n (bytesBits pl)
    let w := g.widthM1 + 1
    ⟨padTo (predLines none ((linesOf w (g.linesM1 + 1) r.vals).filter (!·.isEmpty))), tail r.reason r.rest⟩
  | 2 =>
    let r := readRuns (bpsBits g.bps) (n + 1) n (bytesBits pl)
    ⟨padTo r.vals, tail r.reason r.rest⟩
  | _ => ⟨List.replicate n fill, 0⟩

/-- R92, R93, R95: a whole strip decoded at a place of geometry `g`: header, geometry, payload and CRC, the lowest
reason latched; a strip whose header or geometry fails delivers zeros. -/
def decodeStrip (g : StripGeom) (bs : List Byte) : StripRead :=
  let h := StripHdr.parse bs
  let zeros := List.replicate g.count 0
  if bs.length < 16 || !h.valid then ⟨zeros, 1⟩
  else if !h.fits g then ⟨zeros, 2⟩
  else
    let r := readPayload g h.mode h.fill (slice bs 16 h.payloadLen)
    if r.reason ≠ 0 then r
    else if crc32c (rawForm g.bps g.widthM1 g.linesM1 r.samples) = h.crc then r
    else ⟨r.samples, 6⟩

/-- Maximal runs of equal samples (R97). -/
def runsOf : List Nat → List (Nat × Nat)
  | [] => []
  | s :: ss =>
    match runsOf ss with
    | (v, n) :: rs => if v = s then (v, n + 1) :: rs else (s, 1) :: (v, n) :: rs
    | [] => [(s, 1)]

/-- R97: the bits of a RUN payload. -/
def runBits (k : Nat) (ss : List Nat) : List Bool := (runsOf ss).flatMap fun r => natBits k r.1 ++ countBits r.2

/-- R89: the bits of one residual at Rice parameter `k`. -/
def residualBits (k m : Nat) : List Bool :=
  let q := m / 2 ^ k
  if q < 15 then List.replicate q true ++ [false] ++ natBits k m else List.replicate 15 true ++ natBits 8 m

/-- R97: the best Rice parameter of a group and its bits, the smallest k on a tie. -/
def bestGroup (g : List Nat) : List Bool :=
  let cand := fun k => natBits 3 k ++ g.flatMap (residualBits k)
  [1, 2, 3, 4, 5, 6].foldl (fun best k => if (cand k).length < best.length then cand k else best) (cand 0)

/-- Residuals split into groups of 16 (R88). -/
def groupsOf : Nat → List Nat → List (List Nat)
  | 0, _ => []
  | _, [] => []
  | k + 1, ms => ms.take 16 :: groupsOf k (ms.drop 16)

/-- R97: groups coded, `z` all-zero groups pending. -/
def groupBits : Nat → List (List Nat) → List Bool
  | z, [] => if z = 0 then [] else natBits 3 7 ++ countBits z
  | z, g :: gs =>
    if g.all (· == 0) then groupBits (z + 1) gs
    else (if z = 0 then [] else natBits 3 7 ++ countBits z) ++ bestGroup g ++ groupBits 0 gs

/-- R96, R97: the strip an encoder writes for samples in raster order; `modeEn` is CS_ENCn_CFG.MODE_EN (bit 0 PRED,
bit 1 RUN, bit 2 SOLID). -/
def encodeStrip (g : StripGeom) (modeEn : Nat) (ss : List Nat) : List Byte :=
  let raw := rawForm g.bps g.widthM1 g.linesM1 ss
  let h : StripHdr := { magic := 0xCA55, ver := 1, mode := 0, bps := g.bps, linesM1 := g.linesM1, last := g.last
                        flushed := g.flushed, widthM1 := g.widthM1, payloadLen := raw.length, crc := crc32c raw
                        fill := 0, resv := 0 }
  if bit modeEn 2 && ss.all (· == ss.headD 0) then { h with mode := 3, payloadLen := 0, fill := ss.headD 0 }.bytes
  else
    let best := (0, raw)
    let run := bitsBytes (runBits (bpsBits g.bps) ss)
    let best := if bit modeEn 1 && run.length < best.2.length then (2, run) else best
    let w := g.widthM1 + 1
    let pred := bitsBytes (groupBits 0 (groupsOf (ss.length + 1) (residLines none (linesOf w (g.linesM1 + 1) ss))))
    let best := if bit modeEn 0 && g.bps == 3 && pred.length < best.2.length then (1, pred) else best
    { h with mode := best.1, payloadLen := best.2.length }.bytes ++ best.2

end Sys2Proof.Machine
end

