-- ==== Sys2Proof/Machine/Records.lean ====
section
/-! DEFINITION. Joend records (spec/09): the lines of a channel from composition to firing, LINE, RETIME, HB, TSYNC, SET
and WAVE records, and what the HDMs answer. -/

namespace Sys2Proof.Machine

/-! SET and WAVE (R278–R283) -/

/-- A SET or WAVE put to a READY lane: sent at once in L0, else once the exit to L0 it begins has ended (R248); of the changes of
one tick end, once all of them are known (R255). -/
def State.ctlPut (s : State) (l : Nat) (c : Ctl) : State :=
  if s.ready l then
    let s := s.modLane l fun x => { x with ctl := x.ctl ++ [c], lastUse := s.now }
    if s.flowing l then s.recordsFirst l else s.laneExit l
  else s

/-- The changes of a tick end or of a copy begin. -/
def State.batchBegin (s : State) : State := { s with pair := { s.pair with batch := true } }

/-- The changes of a tick end or of a copy are made: their WAVEs and SETs leave (R255). -/
def State.batchEnd (s : State) : State :=
  let s := { s with pair := { s.pair with batch := false } }
  s.each ((List.range 96).filter fun l => (s.laneSt l).ctl.any (·.copies == 0)) State.recordsFirst

/-- A SET of some entries (KEY and VALUE of R278). -/
def State.sendSet (s : State) (l applySeq : Nat) (entries : List (Nat × Nat)) : State :=
  s.ctlPut l ⟨false, applySeq, 0, 0, 0, entries, 0, 0, 0⟩

/-- The five keys of a lane's SET (R278). -/
def State.setKeys (s : State) (l : Nat) : List (Nat × Nat) :=
  let b := chanBar l
  [(1, s.get (FS_BAR_STB_WIDTH b)), (2, s.get (SC_BAR_CFG_DROP_BITS b) + 2),
    (3, s.get (SC_BAR_SEG_SLOTS_SLOTS b (chanSeg l))), (4, s.get (FS_BAR_STB_LIMIT b)), (5, s.get JL_STAT_CFG_STAT_US)]

/-! Identity (R286–R289) -/

/-- Address of a head's record in the identity window (R289). -/
def identAddr (ch h : Nat) : Nat := 0x1200000 + 0x100 * ch + 0x40 * h

/-- A head's identity record as the window holds it (R289). -/
def State.ident (s : State) (ch h : Nat) : List Byte :=
  (List.range 16).flatMap fun k => leBytes 4 (s.rd (identAddr ch h + 4 * k))

def identClass (r : List Byte) : Nat := beAt r 4 2
def identSerial (r : List Byte) : List Byte := slice r 8 16
def identNozzles (r : List Byte) : Nat := beAt r 26 2
def identMaxRate (r : List Byte) : Nat := beAt r 28 4
def identWaveCount (r : List Byte) : Nat := beAt r 34 1

/-- The valid JL_HCn_ID that holds a class (R288). -/
def State.classOf (s : State) (c : Nat) : Option Nat :=
  (List.range 8).find? fun n => s.is (JL_HC_ID_VALID n) && s.get (JL_HC_ID_CLASS n) == c

/-- The valid bands of a class, ascending (R290). -/
def State.bandsOf (s : State) (n : Nat) : List Nat := idxs 8 fun k => s.is (JL_HC_BAND_VALID n k)

/-- The check of R288 that one head's record fails: 1 its record, 2 NOZZLES, MAX_RATE or NATIVE_DPI, 3 its slots, 4 a
WAVE_ID; 0 none. -/
def State.identCheck (s : State) (slotBase : Nat) (r : List Byte) : Nat :=
  if beAt r 0 2 != 0x1D5E || beAt r 2 1 != 1 || beAt r 60 4 != crc32c (r.take 60) then 1
  else
    match s.classOf (identClass r) with
    | none => 1
    | some n =>
      if identNozzles r == 0 || identMaxRate r == 0 || beAt r 24 2 == 0 then 2
      else if 8192 < slotBase + identNozzles r then 3
      else if (s.bandsOf n).any fun k => decide (identWaveCount r ≤ s.get (JL_HC_BAND_WAVE_ID n k)) then 4
      else 0

/-- An identity refused: ESTABLISH fails with cause 4 (R288). -/
def State.identRefuse (s : State) (l head check : Nat) : State := (s.raise 0x4209 l head check).laneFail l 4

/-- A channel's identity accepted: window, HDM registers; heads whose serial number changed are reported (R288, R289). -/
def State.identAccept (s : State) (l heads depth rev : Nat) : State × List Nat :=
  let got := (s.laneSt l).idents
  let changed := (List.range heads).filter fun h =>
    match got.find? (·.1 == h) with
    | some (_, _, r) => beAt (s.ident l h) 0 2 == 0x1D5E && identSerial (s.ident l h) != identSerial r
    | none => false
  let s := s.each got fun s g => s.each (List.range 16) fun s k => s.wr (identAddr l g.1 + 4 * k) (leAt g.2.2 (4 * k) 4)
  let s := s.each (idxs 4 fun h => decide (heads ≤ h)) fun s h =>
    s.each (List.range 16) fun s k => s.wr (identAddr l h + 4 * k) 0
  let s := ((s.put (JL_HDM_DEPTH l) depth).put (JL_HDM_HDM_REV l) rev).put (JL_BAND_HEADS l) heads
  let s := s.modLane l fun x => { x with identOk := true, heads := heads, depth := depth }
  (s.each changed fun s h => s.raise 0x420D l h 0, changed)

/-- An IDRS taken in ESTABLISH: the further heads are asked for, and the whole identity is judged (R286, R288). The
heads whose serial number changed are answered. -/
def State.idrsTake (s : State) (l : Nat) (r : IdrsRec) : State × List Nat :=
  if s.tstate l != tsEstablish || (s.laneSt l).identOk then (s, [])
  else if r.heads == 0 || 4 < r.heads || r.depth < 256 then (s.identRefuse l r.head 5, [])
  else if r.nohead then (s.identRefuse l r.head 1, [])
  else
    let bad := s.identCheck r.slotBase r.ident
    if bad != 0 then (s.identRefuse l r.head bad, [])
    else
      let s := s.modLane l fun x => { x with
        heads := r.heads
        idents := x.idents.filter (·.1 != r.head) ++ [(r.head, r.slotBase, r.ident)] }
      let got := (s.laneSt l).idents
      match (List.range r.heads).find? fun h => !got.any (·.1 == h) with
      | some h => (s.sendRec l (.idrq s.claim h), [])
      | none =>
        let sum := got.foldl (fun a g => a + identNozzles g.2.2) 0
        if 8192 < sum then (s.identRefuse l r.head 2, [])
        else
          let a := s.identAccept l r.heads r.depth r.hdmRev
          (a.1.tryTimelock l, a.2)

/-! READY (R244, R260, R283) -/

/-- LINE record bytes of a channel (R256, R258). -/
def State.lineLen (s : State) (ch : Nat) : Nat :=
  let slots := s.get (SC_BAR_SEG_SLOTS_SLOTS (chanBar ch) (chanSeg ch))
  let bytes := cdiv (slots * (s.get (SC_BAR_CFG_DROP_BITS (chanBar ch)) + 2)) 8
  32 + cdiv bytes 4 * 4

/-- Whether a lane carries a channel's LINE records at a speed (R244): bit rate within 95 % of its payload. VMAX is in
mm/s, 64,000 pu each; a line pitch is 4,064 × (PITCH_DIV + 1) ÷ 3 pu. -/
def State.rateFits (s : State) (l vmax pitchDiv : Nat) : Bool :=
  let pay := [0, 2500000000, 4000000000, 5000000000].getD (s.get (LANE_STAT_RATE l)) 0
  decide (s.lineLen l * 8 * (vmax * 64000 * 3) * 100 ≤ pay * 95 * (4064 * (pitchDiv + 1)))

/-- Whether a READY lane cannot carry its channel's lines of a job (R244). -/
def State.rateFails (s : State) (l : Nat) (j : Job) : Bool :=
  bit j.bars (chanBar l) && s.ready l && !s.rateFits l j.vmax j.pitchDiv

/-- The started jobs that use a bar. -/
def State.barJobs (s : State) (b : Nat) : List Job := s.scan.jobs.filter fun j => j.started && bit j.bars b

/-- The job whose lines a bar composes: that of its last line while it goes on, else the first started one. -/
def State.barJob (s : State) (b : Nat) : Option Job :=
  let l := s.barJobs b
  let own := (s.screenBar b).lastLine.bind fun x => l.find? (·.order == x.1)
  own <|> l.foldl (fun r j => match r with
    | none => some j
    | some k => if j.order < k.order then some j else some k) none

/-- Whether a bar has still to compose gap lines of a job that has left the queue. -/
def State.barTail (s : State) (b : Nat) : Bool :=
  match (s.screenBar b).lastLine with
  | some (o, _) => (s.barJobs b).all (·.order != o) && (s.nextLine b).any (·.1.ord == o)
  | none => false

/-- RATE_LOW of a bar's lanes, 1 while R244 withholds their LINE records: those of the last gap of a job that has ended too. -/
def State.rateShow (s : State) (b : Nat) : State :=
  if s.barTail b then s
  else s.each (barLanes b) fun s l => s.flag (LANE_STAT_RATE_LOW l) ((s.barJob b).any (s.rateFails l))

/-- The rate check of every READY lane of a job that starts (R244). -/
def State.rateStart (s : State) (j : Job) : State :=
  s.each (barsOf j.bars) fun s b =>
    let s := s.each ((barLanes b).filter fun l => s.rateFails l j) fun s l => s.raise 0x4107 l 0 0
    s.rateShow b

/-- The rate check of a lane that reaches READY, for the jobs under way (R244). -/
def State.rateCheck (s : State) (l : Nat) : State :=
  let low := (s.barJobs (chanBar l)).any (s.rateFails l)
  let s := if low then s.raise 0x4107 l 0 0 else s
  s.flag (LANE_STAT_RATE_LOW l) ((s.barJob (chanBar l)).any (s.rateFails l))

/-! Lines in flight (R256–R262) -/

/-- Outstanding LINE records of a lane (R260). -/
def State.outstanding (s : State) (l : Nat) : Nat :=
  ((s.chanLines l).filter fun x => match x.stamp with
    | some f => decide (s.now < f)
    | none => false).length

/-- JL_OUT as read (R260). -/
def State.jlOutView (s : State) (l : Nat) : Nat := s.outstanding l + s.get (JL_OUT_WINDOW l) * 65536

/-- A line's record leaves with its stamp (R201, R261). -/
def State.lineLeaves (s : State) (ch : Nat) (x : ChanLine) (void : Bool) : State :=
  let stamp := max x.pred (s.now + 50000)
  let s := s.sendUse ch (x.record s.claim stamp void)
  let s := s.modLine ch x.seq fun y => { y with stamp := some stamp, voided := y.voided || void }
  if void then (s.inc (JL_STAT_VOIDCNT ch)).voidSeen x else s

/-- A line's record discarded because its lane is not READY or too slow for the job (R242, R244). -/
def State.lineDiscard (s : State) (ch : Nat) (x : ChanLine) : State :=
  let s := (s.modLine ch x.seq fun y => { y with unsent := true }).inc (LANE_UNSENT_COUNT ch)
  s.unsentLine ch x 1 1

/-- READY entered: W, the five-key SET and the rate check (R260, R283, R244); lines composed before it are never sent
on the lane (R242). -/
def State.laneReady (s : State) (l : Nat) : State :=
  let s := s.laneReadyBase l
  if isEl l then s
  else
    let s := s.put (JL_OUT_WINDOW l) (min (s.get (JL_HDM_DEPTH l)) 1024 - 16)
    let s := s.each ((s.chanLines l).filter fun x => x.stamp.isNone && !x.unsent && !x.voided) fun s x => s.lineDiscard l x
    (s.sendSet l (s.get (JL_SEQ_NEXT_SEQ l)) (s.setKeys l)).rateCheck l

/-- The UNDERRUN of a VOID sent under R32 (R113): at most one event per channel per page. -/
def State.underrun (s : State) (ch : Nat) (x : ChanLine) : State :=
  let s := (s.flag PG_EVT_STAT_UNDERRUN true).chanBit PG_UNDERRUN_CH ch true
  match s.runAt x.ord x.line with
  | none => s
  | some r =>
    if r.underruns.contains ch then s
    else
      let s := s.modRun r.ord r.page fun r => { r with underruns := ch :: r.underruns }
      if s.is PG_EVT_CFG_UNDERRUN_EN then s.raise 0x3304 ch (packPage r.job r.page) x.seq else s

/-- A line that has not left by its fire time less 200 µs goes out VOID (R32). -/
def State.lineLate (s : State) (ch : Nat) (x : ChanLine) : State :=
  ((s.lineLeaves ch x true).unsentLine ch x (s.voidCause x) 0).underrun ch x

/-- A line's record leaves (R259–R261), after what R255 puts before it: on a lane in L0 with room in its window; past its deadline
it goes out VOID (R32). A unit that holds no sequence numbers or joins sends none (R373). -/
def State.lineSend (s : State) (ch : Nat) : State :=
  let s := (s.recordsFirst ch).linesPrune ch
  match if s.sendsLines then s.lineDue ch else none with
  | none => s
  | some x =>
    if !s.ready ch then (if x.doneAt ≤ s.now then s.lineDiscard ch x else s)
    else if !s.flowing ch then s
    else if x.pred < s.now + 200000 then s.lineLate ch x
    else if decide (x.doneAt ≤ s.now) && decide (s.outstanding ch < s.get (JL_OUT_WINDOW ch)) then
      let void := x.void || s.voidAll
      let s := s.lineLeaves ch x void
      if void then s.unsentLine ch x (s.voidCause x) 0 else s
    else s

/-- A line that has not left by its fire time less 200 µs (R32). -/
def State.lineDeadline (s : State) (ch : Nat) : State :=
  match if s.sendsLines then s.lineDue ch else none with
  | none => s
  | some x =>
    if s.flowing ch && decide (x.pred ≤ s.now + 200000) then (s.recordsFirst ch).lineLate ch x else s

/-! RETIME (R262, R263) -/

/-- A raised claim sent on every READY lane in L0, ahead of any other record, with a RETIME after it (R276). -/
def State.claimHbs (s : State) : State :=
  s.each (idxs 96 s.flowing) fun s l => (s.sendHb l).retime l

/-! TSYNC replies (R267, R269) -/

/-- Device time in 1/16 ns. -/
def State.now16 (s : State) : Nat := s.devU * 16 / nsU

/-- TIMELOCK's sixteen round trips judged (R267). -/
def State.timelockEnd (s : State) (l : Nat) : State :=
  let r := (s.laneSt l).rtts
  let lo := r.foldl min (r.headD 0)
  let hi := r.foldl max (r.headD 0)
  let sum := r.foldl (· + ·) 0
  if hi - lo ≤ 128 ∧ sum < 16 * 50000 * 16 then
    let lat := tdv (sum + 16 * s.sget JL_LAT_ASYM_ASYM) 32
    let s := (s.put (JL_LAT_LAT l) (unsgn 24 lat)).flag (JL_LAT_VALID l) true
    s.laneReady l
  else s.laneFail l 5

/-- A reply in TIMELOCK, sent at `t1` (R267). -/
def State.timelockReply (s : State) (l t1 : Nat) (r : TsyncReply) : State :=
  if t1 + 20000 < s.now then s.laneFail l 5
  else
    let rtt : Int := (s.now16 : Int) - 16 * t1 - r.turn
    let s := s.modLane l fun x => { x with rtts := x.rtts ++ [rtt] }
    if (s.laneSt l).rtts.length = 16 then s.timelockEnd l else s

/-- The HDM's time error from a reply on a READY lane (R269). -/
def State.timeError (s : State) (l : Nat) (r : TsyncReply) : State :=
  let t4 := (s.now16 - s.get (JL_LAT_LAT l)) / 16
  let err := cdiff 32 r.th3 t4
  let s := s.sput (JL_TERR_ERR l) (clamp err (-32768) 32767)
  if 250 < err.natAbs then
    let s := s.inc (JL_TERR_BAD l)
    let n := (s.laneSt l).terrRun + 1
    let s := s.modLane l fun x => { x with terrRun := n }
    if n = 4 then s.raise 0x4208 l 0 0 else s
  else s.modLane l fun x => { x with terrRun := 0 }

/-- An upstream TSYNC (R267, R269). -/
def State.tsyncReply (s : State) (l : Nat) (r : TsyncReply) : State :=
  match (s.laneSt l).tsOut.find? (·.1 == r.tsId) with
  | none => if s.ready l && r.timeValid then s.timeError l r else s
  | some (_, t1) =>
    let s := s.modLane l fun x => { x with tsOut := x.tsOut.filter (·.1 != r.tsId) }
    if s.tstate l == tsTimelock then s.timelockReply l t1 r
    else if s.ready l && r.timeValid then s.timeError l r else s

/-! ACK (R281, R282) -/

/-- An ACK for a SET or WAVE (R282). -/
def State.ackTake (s : State) (l : Nat) (a : AckRec) : State :=
  let mine (c : Ctl) : Bool := c.copies != 0 && c.recId == a.recId && a.ackType == (if c.wave then 4 else 5)
  if (s.laneSt l).ctl.any mine then
    let s := s.modLane l fun x => { x with ctl := x.ctl.filter fun c => !mine c }
    let s := (s.flag (JL_CTL_STAT_LATE l) a.late).flag (JL_CTL_STAT_REFUSED l) a.refused
    let s := if s.get (JL_CTL_STAT_REC_ID l) == a.recId then s.flag (JL_CTL_STAT_ACK_PENDING l) false else s
    if a.refused then s.raise 0x420B l 0 0 else s
  else s

/-- The oldest SET or WAVE without an ACK for 100 µs sent again; the third copy unanswered loses the lane (R282). -/
def State.ctlResend (s : State) (l : Nat) : State :=
  match (s.laneSt l).ctl.find? fun c => c.copies != 0 && s.past c.sentAt 100000 with
  | none => s
  | some c =>
    if !s.flowing l then s
    else if 3 ≤ c.copies then (s.laneLost l 8).raise 0x420B l 0 0
    else
      let s := s.modLane l fun x => { x with
        ctl := x.ctl.map fun d => if d.recId == c.recId && d.copies != 0 then { d with copies := d.copies + 1, sentAt := s.now } else d }
      let s := if s.get (JL_CTL_STAT_REC_ID l) == c.recId then s.put (JL_CTL_STAT_RESENDS l) c.copies else s
      ((s.tsyncGo l).retimeCycle l).sendUse l (c.record s.claim)

/-! Bands (R290–R292) -/

/-- The temperature last reported for a head, none when absent. -/
def State.tempOf (s : State) (l h : Nat) : Option Int :=
  let w := if h < 2 then s.rd (JL_TEMP01 l) else s.rd (JL_TEMP23 l)
  let v := bits w (16 * (h % 2) + 15) (16 * (h % 2))
  if v = 0x8000 then none else some (sgn 16 v)

/-- A head's band. -/
def State.bandOf (s : State) (l h : Nat) : Nat := bits (s.get (JL_BAND_BAND l)) (3 * h + 2) (3 * h)

/-- The band a temperature selects among a class's valid bands with no hysteresis (R290). -/
def State.bandFor (s : State) (n : Nat) (t : Int) : Nat :=
  let l := s.bandsOf n
  (l.find? fun k => decide (t ≤ s.sget (JL_HC_BAND_T_UP n k))).getD (l.getLast?.getD 0)

/-- The band moved up from the present one while the temperature exceeds its bound (R291). -/
def State.bandUp (s : State) (n : Nat) (t : Int) : Nat → Nat → Nat
  | 0, k => k
  | f + 1, k =>
    if s.sget (JL_HC_BAND_T_UP n k) < t ∧ s.is (JL_HC_BAND_VALID n (k + 1)) ∧ k < 7 then s.bandUp n t f (k + 1) else k

/-- The band moved down while the temperature lies below the bound beneath less 1.0 °C (R291). -/
def State.bandDown (s : State) (n : Nat) (t : Int) : Nat → Nat → Nat
  | 0, k => k
  | f + 1, k => if 0 < k ∧ t < s.sget (JL_HC_BAND_T_UP n (k - 1)) - 10 then s.bandDown n t f (k - 1) else k

/-- A WAVE for a head's band (R278, R283). -/
def State.sendWave (s : State) (l h applySeq : Nat) : State :=
  match s.classOf (identClass (s.ident l h)) with
  | none => s
  | some n =>
    let k := s.bandOf l h
    s.ctlPut l ⟨true, applySeq, h, k, s.get (JL_HC_BAND_WAVE_ID n k), [], 0, 0, 0⟩

/-- A head's band set (R292). -/
def State.bandPut (s : State) (l h k : Nat) : State :=
  s.put (JL_BAND_BAND l) (setBits (s.get (JL_BAND_BAND l)) (3 * h + 2) (3 * h) k)

/-- A change of band applied: counted, reported, its WAVE sent (R292). -/
def State.bandChange (s : State) (l h k applySeq : Nat) : State :=
  (((s.bandPut l h k).inc (JL_BAND_CHANGES l)).raise 0x4207 l h k).sendWave l h applySeq

/-- The bands of one lane at a tick end (R283, R291, R292). -/
def State.bandsTick (s : State) (l : Nat) : State :=
  if !(s.flowing l && (s.laneSt l).statGot) || s.is (JL_HDM_FLAGS_STAT_LOST l) then s
  else
    s.each (List.range (s.get (JL_BAND_HEADS l))) fun s h =>
      match s.tempOf l h, s.classOf (identClass (s.ident l h)) with
      | some t, some n =>
        let first := !(s.laneSt l).tempSeen.contains h
        let cur := s.bandOf l h
        let new := if !s.authoritative then cur
          else if first then s.bandFor n t
          else
            let up := s.bandUp n t 8 cur
            if up != cur then up else s.bandDown n t 8 cur
        let s := if first then s.modLane l fun x => { x with tempSeen := x.tempSeen ++ [h] } else s
        if new != cur then
          let seq := s.applySeq l (s.tick * 250000 + 250000)
          (s.copy 6 [l + h * 256 + new * 4096, seq]).bandChange l h new (if first then s.get (JL_SEQ_NEXT_SEQ l) else seq)
        else if first then s.sendWave l h (s.get (JL_SEQ_NEXT_SEQ l)) else s
      | _, _ => s

/-! STAT (R284, R285) -/

/-- A STAT copied into the lane's registers; a rise in MISMATCH and in EMPTY reported (R285). -/
def State.statCopy (s : State) (l : Nat) (r : StatRec) : State :=
  let mm := later 16 r.mismatch (s.get (JL_HDM_CNT0_LOW l))
  let em := later 16 r.empty (s.get (JL_HDM_CNT1_LOW l))
  let s := (s.wr (JL_TEMP01 l) (r.temp0 + r.temp1 * 65536)).wr (JL_TEMP23 l) (r.temp2 + r.temp3 * 65536)
  let s := (s.wr (JL_HDM_CNT0 l) (r.mismatch + r.fallback * 65536)).wr (JL_HDM_CNT1 l) (r.empty + r.late * 65536)
  let s := (s.wr (JL_HDM_CNT2 l) (r.suppressed + r.err * 65536)).wr (JL_ACC_CLAIM l) r.accClaim
  let s := s.wr (JL_HDM_FLAGS l) (r.lastMm + b2n r.stbNow * 2 ^ 24 + b2n r.stbLong * 2 ^ 25)
  let s := s.modLane l fun x => { x with statAt := s.now, statGot := true, bufFill := r.bufFill }
  let s := if mm then (s.chanBit JL_MM_CH l true).raise 0x4206 l r.lastMm 0 else s
  if em && (s.laneSt l).emptyPage != some s.scan.cur then
    (s.modLane l fun x => { x with emptyPage := some s.scan.cur }).raise 0x420C l 0 0
  else s

/-- No STAT for 4 × STAT_US on a READY lane in L0 (R285). -/
def State.statLost (s : State) (l : Nat) : State :=
  if s.flowing l && s.past (s.laneSt l).statAt (4 * s.get JL_STAT_CFG_STAT_US * 1000) &&
      !s.is (JL_HDM_FLAGS_STAT_LOST l) then
    (s.flag (JL_HDM_FLAGS_STAT_LOST l) true).raise 0x420A l 0 0
  else s

/-! Commands that concern records alone -/

def execLineSend (t ch : Nat) (s : State) : Host.Outcome State Fault Refusal :=
  run t (fun s => if ch < 96 then s.lineSend ch else s) s

def execLineDeadline (t ch : Nat) (s : State) : Host.Outcome State Fault Refusal :=
  run t (fun s => if ch < 96 then s.lineDeadline ch else s) s

def execRetimeCycle (t ch : Nat) (s : State) : Host.Outcome State Fault Refusal :=
  run t (fun s => if ch < 96 then (s.tsyncGo ch).retimeCycle ch else s) s

/-- An HB on a READY lane in L0 idle for 100 µs (R277), where no record is ready that goes before it (R255). -/
def State.hbIdle (s : State) (l : Nat) : State :=
  let idle (s : State) : Bool := s.pair.holdsSeq && s.flowing l && s.past (s.laneSt l).lastTx 100000
  if idle s then
    let s := s.lineSend l
    if idle s then s.sendHb l else s
  else s

def execHdmHbSend (t l : Nat) (s : State) : Host.Outcome State Fault Refusal :=
  run t (fun s => if l < 96 then s.hbIdle l else s) s

/-- A TSYNC falls due on a lane (R230, R267). -/
def execTsyncSend (t l : Nat) (s : State) : Host.Outcome State Fault Refusal :=
  run t (fun s =>
    let x := s.laneSt l
    if l < 96 ∧ s.flowing l then s.tsyncGo l
    else if l < 96 ∧ s.tstate l = tsTimelock ∧ x.tsOut.length + x.rtts.length < 16 ∧
        (s.past x.tsyncAt 10000 ∨ x.tsyncAt = 0) then s.sendTsync l
    else s) s

def execControlResend (t l : Nat) (s : State) : Host.Outcome State Fault Refusal :=
  run t (fun s => if l < 96 then s.ctlResend l else s) s

def execTsyncReply (t l : Nat) (r : TsyncReply) (s : State) : Host.Outcome State Fault Refusal :=
  run t (fun s => if l < 96 then s.tsyncReply l r else s) s

def execAckReceived (t l : Nat) (a : AckRec) (s : State) : Host.Outcome State Fault Refusal :=
  run t (fun s => if l < 96 ∧ s.flowing l then s.ackTake l a else s) s

def execStatLost (t l : Nat) (s : State) : Host.Outcome State Fault Refusal :=
  run t (fun s => if l < 96 then s.statLost l else s) s

/-- A faulty upstream record discarded (R254). -/
def execRecordDiscard (t l : Nat) (s : State) : Host.Outcome State Fault Refusal :=
  run t (fun s => if l < 96 then s.inc (JL_STAT_RXERR l) else s) s

/-- A READY lane in L0 loses lock, signal or symbols (R241); the violations seen with it are counted. -/
def execLaneLost (t l : Nat) (cause : LossCause) (cv disp : Nat) (s : State) : Host.Outcome State Fault Refusal :=
  run t (fun s =>
    if l < 100 ∧ s.inL0 l then
      (if cause = .cdr ∨ cause = .signal then s.lockSet l false else s).lossCause l cv disp
    else s) s

/-- An exit from L1 or L2 reaches L0 (R248), from L2 once ALIGN is through: there the DFE has adapted anew and one TSYNC exchange
follows; waiting records leave. -/
def execExitToL0Done (t l : Nat) (s : State) : Host.Outcome State Fault Refusal :=
  run t (fun s =>
    if l < 96 ∧ s.ready l ∧ s.pstate l = 4 ∧ s.exitAligned l then
      let two := (s.laneSt l).exitL2
      let s := (s.put (LANE_STAT_PSTATE l) 0).modLane l fun x => { x with lastUse := s.now, statAt := s.now }
      let s := if two then s.sendTsync l else s
      s.recordsFirst l
    else s) s

/-! Register writes -/

/-- A class whose valid bands are in order, with no valid band above an invalid one (R290). -/
def bandsOk (words : List Nat) : Bool :=
  (List.range 7).all fun k =>
    let a := words.getD k 0
    let b := words.getD (k + 1) 0
    !bit b 24 || (bit a 24 && decide (sgn 16 a < sgn 16 b))

/-- Whether a READY lane uses a class (JL_HCn_ID.VALID). -/
def State.classUsed (s : State) (n : Nat) : Bool :=
  (idxs 96 s.ready).any fun l => (List.range (s.get (JL_BAND_HEADS l))).any fun h =>
    identClass (s.ident l h) == s.get (JL_HC_ID_CLASS n)

/-- Limits of the record registers (spec/09); the order of a class's bands is judged when a command's items stand. -/
def limitJl (s : State) (a new _mask : Nat) : Verdict :=
  if a = JL_RT_CFG then rangeUnless (bits new 7 0 != 0 && fieldIn new 12 8 5 20)
  else if a = JL_STAT_CFG then rangeUnless (fieldIn new 13 0 50 10000)
  else
    match instOf (JL_HC_ID 0) 0x40 8 a with
    | some n => busyWhen (s.is (JL_HC_ID_VALID n) && s.classUsed n)
    | none => none

/-- A change of STAT_US is sent to every READY lane. -/
def actJl (a _mask _val : Nat) (before s : State) : Nat × State :=
  if a = JL_STAT_CFG ∧ before.rd a ≠ s.rd a then
    (stOk, s.each (idxs 96 s.ready) fun s l =>
      s.sendSet l (s.get (JL_SEQ_NEXT_SEQ l)) [(5, s.get JL_STAT_CFG_STAT_US)])
  else (stOk, s)

end Sys2Proof.Machine
end

