-- ==== Sys2Proof/Machine/Fire.lean ====
section
/-! DEFINITION. Firing safety (spec/09, R293–R307): strobe registers, the watchdog, the inhibit pin and SAFE, and
SPEED_REQ's pin among the levels FS_PIN_STAT shows. -/

namespace Sys2Proof.Machine

/-- A bar's watchdog trips (R298, R299): latched with its source and time, reported, passed to the partner. -/
def State.wdTrip (s : State) (b : Nat) (pin tell : Bool) : State :=
  if s.is (FS_BAR_WD_TRIPPED b) then s
  else
    let s := (s.flag (FS_BAR_WD_TRIPPED b) true).inc (FS_BAR_WD_TRIPS b)
    let s := s.flag (if pin then FS_BAR_WD_SRC_PIN b else FS_BAR_WD_SRC_LANE b) true
    let s := (s.wr (FS_BAR_WD_TIME b) (s.now % 2 ^ 32)).raise 0x4202 b 0 0
    let s := if tell then s.hbItem (2 ^ 24 + 2 ^ b) s.now 0 0 else s
    s.wasteOpen 6 (2 ^ b)

/-- STB_SENSE of a bar has been high for longer than LIMIT, in units of 10 ns (R298). -/
def execWatchdogTrip (t bar high : Nat) (s : State) : Host.Outcome State Fault Refusal :=
  run t (fun s =>
    if bar < 8 then
      let s := { s with fire := { s.fire with stbSense := setBit s.fire.stbSense bar true } }
      if s.get (FS_BAR_STB_LIMIT bar) < high then s.wdTrip bar true true
      else { s with fire := { s.fire with stbSense := setBit s.fire.stbSense bar false } }
    else s) s

/-- The trips of the named bars cleared (R300): BAD_STATE while one of them still has a strobe active. -/
def State.wdClear (s : State) (mask : Nat) : Nat × State :=
  let busy := (barsOf mask).any fun b => bit s.fire.stbSense b ||
    (barLanes b).any fun ch => s.is (JL_HDM_FLAGS_STB_NOW ch)
  if busy then (stBadState, s)
  else
    (stOk, s.each (barsOf mask) fun s b =>
      ((s.flag (FS_BAR_WD_TRIPPED b) false).flag (FS_BAR_WD_SRC_PIN b) false).flag (FS_BAR_WD_SRC_LANE b) false)

/-- FIRE_INH_N low for FILT_N samples (R301). -/
def execFireInhibit (t : Nat) (s : State) : Host.Outcome State Fault Refusal :=
  run t (fun s =>
    if s.fire.inhPin then
      (({ s with fire := { s.fire with inhPin := false } }).raise 0x4205 0 0 0).safeSet 0
    else s) s

/-- FIRE_INH_N has been high for some time, in ns (R301): with AUTO 1 its cause clears after REL_MS, and SAFE with it
when no other cause remains. -/
def execInhibitRelease (t high : Nat) (s : State) : Host.Outcome State Fault Refusal :=
  run t (fun s =>
    let s := { s with fire := { s.fire with inhPin := true } }
    if s.is FS_INH_CFG_AUTO ∧ s.get FS_INH_CFG_REL_MS * 1000000 ≤ high ∧ s.is FS_SAFE_STAT_INH_PIN then
      let s := s.flag FS_SAFE_STAT_INH_PIN false
      if s.is ⟨FS_SAFE_STAT, 4, 0⟩ ∨ s.pair.clash then s else s.safeRelease
    else s) s

/-- CLEAR (R304): BAD_STATE while a cause it cannot lift remains; the first after a latched start clears LATCHED
(R481). -/
def State.safeClear (s : State) : Nat × State :=
  if !s.fire.inhPin || s.is FS_SAFE_CTRL_INHIBIT || s.is WP_SRC_STAT_LOST || s.is TB_REF_STAT_LOST ||
      s.is FS_SAFE_STAT_GARNET || s.pair.clash then (stBadState, s)
  else (stOk, s.safeRelease.flag PW_SHUT_STAT_LATCHED false)

/-- FS_PIN_STAT as read. FIRE_INH_N shows its reset value through BOOT, and the filtered level from then on (R14, log 60). -/
def State.pinView (s : State) : Nat :=
  ((List.range 8).foldl (fun a b => a + b2n (s.barEn b) * 2 ^ b) 0) + s.fire.stbSense * 256 +
    b2n (s.fire.inhPin && s.base != .boot) * 2 ^ 16 + b2n (s.is PG_SPDREQ_STAT_PIN) * 2 ^ 17 + b2n s.fire.waste0 * 2 ^ 18 +
    b2n s.fire.waste1 * 2 ^ 19

/-- Limits of the FS_ registers. -/
def limitFs (_ : State) (a new _mask : Nat) : Verdict :=
  if a = FS_INH_CFG then rangeUnless (bits new 15 8 != 0)
  else
    match instOf (FS_BAR_STB 0) 0x10 8 a with
    | some _ => rangeUnless (fieldIn new 10 0 50 1500 && fieldIn new 26 16 100 2000 &&
        decide (bits new 10 0 + 100 ≤ bits new 26 16))
    | none => none

/-- What a write to an FS_ register sets off (R294, R300, R302, R304). -/
def actFs (a mask val : Nat) (_before s : State) : Nat × State :=
  let w := mask &&& val
  if a = FS_SAFE_CTRL then
    let s := if bit mask 0 then
        (if s.is FS_SAFE_CTRL_INHIBIT then s.safeSet 1 else s.flag FS_SAFE_STAT_INH_CMD false)
      else s
    if bit w 1 then s.safeClear else (stOk, s)
  else if a = FS_WD_CLR then s.wdClear (bits w 7 0)
  else
    match instOf (FS_BAR_STB 0) 0x10 8 a with
    | some b =>
      (stOk, s.each ((barLanes b).filter s.ready) fun s l =>
        s.sendSet l (s.applySeq l s.nextTickEnd) [(1, s.get (FS_BAR_STB_WIDTH b)), (4, s.get (FS_BAR_STB_LIMIT b))])
    | none => (stOk, s)

end Sys2Proof.Machine
end

