-- ==== Sys2Proof/Machine/Store.lean ====
section
/-! DEFINITION. Surfaces and strip slots (spec/02, R50–R52, R66–R68, R134–R136), strips fetched and decoded (spec/03,
R91–R95), and DRAM errors (R44, R45). -/

namespace Sys2Proof.Machine

/-! A surface's shape (R50, R91, R423) -/

/-- FORMAT: 0 CT, 1 HT, 2 MK. -/
def bodyFormat (b : List Nat) : Nat := bits (b.getD 1 0) 1 0
def bodyVarying (b : List Nat) : Bool := bit (b.getD 1 0) 2
def bodyPlanes (b : List Nat) : Nat := bits (b.getD 1 0) 6 3
def bodyHtBits (b : List Nat) : Nat := bits (b.getD 1 0) 9 8
def bodyWidth (b : List Nat) : Nat := b.getD 2 0
def bodyLines (b : List Nat) : Nat := b.getD 3 0
def bodyRowH (b : List Nat) : Nat := b.getD 4 0
def bodyCeiling (b : List Nat) : Nat := b.getD 5 0
def bodyCols (b : List Nat) : Nat := cdiv (bodyWidth b) 4096
def bodyRows (b : List Nat) : Nat := cdiv (bodyLines b) (bodyRowH b)

/-- Strip slots of a generation (R55). -/
def bodySlots (b : List Nat) : Nat := bodyPlanes b * (bodyRows b * bodyCols b)

/-- BPS code of a surface's strips (R81, R91). -/
def bodyBps (b : List Nat) : Nat :=
  if bodyFormat b = 0 then 3 else if bodyFormat b = 1 then bodyHtBits b - 1 else 0

/-- The geometry a strip slot expects (R91). -/
def slotGeom (b : List Nat) (k : Nat) : StripGeom :=
  let cols := bodyCols b
  let row := k / cols % bodyRows b
  let col := k % cols
  let lastRow := row + 1 == bodyRows b
  let lines := if lastRow then bodyLines b - bodyRowH b * row else bodyRowH b
  { bps := bodyBps b
    widthM1 := if col + 1 == cols then bodyWidth b - 4096 * col - 1 else 4095
    linesM1 := lines - 1, last := lastRow, flushed := lastRow && decide (lines < bodyRowH b) }

/-- RAWLEN of a slot. -/
def slotRaw (b : List Nat) (k : Nat) : Nat := (slotGeom b k).rawLen

/-- A slot's ceiling (R73). -/
def slotCeiling (b : List Nat) (k : Nat) : Nat :=
  if bodyCeiling b = 0 then slotRaw b k + 16 else min (bodyCeiling b) (slotRaw b k + 16)

/-! Slots -/

def Slot.empty : Slot := ⟨0, 0, 0, 0, 0, 0, none, false⟩
def stEmpty : Nat := 0
def stLoading : Nat := 1
def stStored : Nat := 2
def stHeld : Nat := 3
def stMismatch : Nat := 4
def stBad : Nat := 5

def Surface.slot (f : Surface) (k : Nat) : Slot := ((f.slots.find? (·.1 == k)).map (·.2)).getD Slot.empty

def Surface.setSlot (f : Surface) (k : Nat) (x : Slot) : Surface :=
  { f with slots := if f.slots.any (·.1 == k) then f.slots.map fun p => if p.1 == k then (k, x) else p
      else f.slots ++ [(k, x)] }

/-- A surface generation the unit holds. -/
def State.surf (s : State) (id gen : Nat) : Option Surface := s.ingest.surfs.find? fun f => f.id == id && f.gen == gen

def State.modSurf (s : State) (id gen : Nat) (g : Surface → Surface) : State :=
  { s with ingest := { s.ingest with
      surfs := s.ingest.surfs.map fun f => if f.id == id && f.gen == gen then g f else f } }

def State.slotOf (s : State) (id gen k : Nat) : Slot := ((s.surf id gen).map (·.slot k)).getD Slot.empty

def State.modSlot (s : State) (id gen k : Nat) (g : Slot → Slot) : State :=
  s.modSurf id gen fun f => f.setSlot k (g (f.slot k))

/-- A slot returned to EMPTY; the partner's digest stays (R66), and so does an uncorrectable error's mark until the slot is
STORED again (R45). -/
def Slot.clear (x : Slot) : Slot := { Slot.empty with partner := x.partner, ue := x.ue }

/-- Whether a STORED slot is HELD with no partner's word (R51, R68). -/
def State.heldAlone (s : State) : Bool :=
  s.base == .single || (s.base == .active && (s.pair.partnerStale || s.pair.partnerLost))

/-- A slot's digest compared with the partner's (R66). -/
def State.compareSlot (s : State) (id gen k : Nat) : State :=
  let x := s.slotOf id gen k
  if x.state == stStored || x.state == stMismatch then
    match x.partner with
    | some (l, d) =>
      if l == x.len && d == x.digest then s.modSlot id gen k fun x => { x with state := stHeld }
      else (s.modSlot id gen k fun x => { x with state := stMismatch }).raise 0x3102 0 (packGen id gen) k
    | none => if s.heldAlone && x.state == stStored then s.modSlot id gen k fun x => { x with state := stHeld } else s
  else s

/-- A slot becomes STORED (R59, R66): recorded, its digest queued for the partner, compared or HELD alone. -/
def State.slotStored (s : State) (id gen k addr len digest : Nat) : State :=
  let h := StripHdr.parse (s.rdMem addr 16)
  let raw := (s.surf id gen).map fun f => slotRaw f.body k
  let s := s.modSlot id gen k fun x =>
    { x with addr := addr, len := len, state := stStored, mode := h.mode, digest := digest, rawLen := raw.getD 0,
             ue := false }
  let s := { s with ingest := { s.ingest with
    fetched := s.ingest.fetched.filter (· != (id, gen, k))
    waiting := s.ingest.waiting.filter (· != (id, gen, k))
    failed := s.ingest.failed.filter fun x => !(x.id == id && x.gen == gen && x.slot == k)
    digests := if s.pairEn then s.ingest.digests ++ [(id, gen, k, len, digest)] else s.ingest.digests } }
  let s := s.record 0x06 s.now (leBytes 4 (packGen id gen) ++ leBytes 4 k ++ leBytes 4 len ++ leBytes 4 digest)
  if s.heldAlone then s.modSlot id gen k fun x => { x with state := stHeld } else s.compareSlot id gen k

/-- Every STORED slot becomes HELD, on entering SINGLE or once the partner is STALE or lost (R51, R68). -/
def State.holdAll (s : State) : State :=
  let hold (p : Nat × Slot) : Nat × Slot := if p.2.state == stStored then (p.1, { p.2 with state := stHeld }) else p
  { s with ingest := { s.ingest with surfs := s.ingest.surfs.map fun f => { f with slots := f.slots.map hold } } }

/-- Every slot HELD with no partner's word is STORED again, to be compared with the active's digests, as a unit begins to join
(R68); one HELD because the partner's latest digest matches it stays HELD, and every kept digest stays (R66). -/
def State.heldBack (s : State) : State :=
  let back (p : Nat × Slot) : Nat × Slot :=
    if p.2.state == stHeld && p.2.partner != some (p.2.len, p.2.digest) then (p.1, { p.2 with state := stStored }) else p
  { s with ingest := { s.ingest with surfs := s.ingest.surfs.map fun f => { f with slots := f.slots.map back } } }

/-- A partner's digest kept and compared (R66, R67). -/
def State.digestIn (s : State) (id gen k len digest : Nat) : State :=
  match s.surf id gen with
  | none => s
  | some _ => (s.modSlot id gen k fun x => { x with partner := some (len, digest) }).compareSlot id gen k

/-- PG_PAIR_HOLD as read: slots in MISMATCH, and STORED slots awaiting a digest. -/
def State.pairHoldView (s : State) : Nat :=
  let count (st : Nat) : Nat := s.ingest.surfs.foldl (fun n f => n + (f.slots.filter (·.2.state == st)).length) 0
  min (count stMismatch) 65535 + min (count stStored) 65535 * 65536

/-! The strip pool (R46, log 7) -/

/-- The bytes of the pool in use: address and length of every slot that holds or gathers data. -/
def State.poolUsed (s : State) : List (Nat × Nat) :=
  s.ingest.surfs.flatMap (fun f => (f.slots.filter (·.2.len != 0)).map fun p => (p.2.addr, p.2.len)) ++
    s.ingest.xfers.map fun x => (x.addr, x.len)

/-- The lowest free place of `len` bytes on a 64-byte boundary of the strip pool. -/
def State.poolAlloc (s : State) (len : Nat) : Option Nat :=
  let base := s.rgnBase 7
  let top := base + s.rgnSize 7
  let used := s.poolUsed
  let free (a : Nat) : Bool := decide (base ≤ a) && decide (a + len ≤ top) &&
    used.all fun u => decide (u.1 + u.2 ≤ a) || decide (a + len ≤ u.1)
  ((base :: used.map fun u => cdiv (u.1 + u.2) 64 * 64).filter free).foldl (fun r a => match r with
    | none => some a
    | some b => some (min a b)) none

/-! Windows on a generation -/

/-- The windows a release closes (R136). -/
def State.surfWindows (s : State) (id gen : Nat) : List Window :=
  s.ingest.windows.filter fun w => w.kind == .stripWrite && w.surf == id && w.gen == gen

/-! Strips fetched, decoded and failed (R91–R95) -/

/-- The stored bytes of a slot. -/
def State.stripBytes (s : State) (x : Slot) : List Byte := s.rdMem x.addr x.len

/-- What a slot's strip decodes to (R92, R93). -/
def State.stripRead (s : State) (id gen k : Nat) : StripRead :=
  match s.surf id gen with
  | none => ⟨[], 0⟩
  | some f => decodeStrip (slotGeom f.body k) (s.stripBytes (f.slot k))

/-! A layer's settings on a page (spec/04) -/

/-- The fields of a layer's registers in a GAP set. -/
structure Layer where
  n : Nat
  enable : Bool
  format : Nat
  blend : Nat
  varying : Bool
  policy : Nat
  freezeEn : Bool
  /-- SCALE_X and SCALE_Y as factors; 0 for the reserved code. -/
  sx : Nat
  sy : Nat
  linear : Bool
  planes : Nat
  x : Nat
  w : Nat
  y : Nat
  h : Nat
  colour : Nat
  holdMax : Nat
  deriving DecidableEq, Repr

/-- A scale code's factor. -/
def scaleOf (code : Nat) : Nat := [1, 2, 4, 0].getD code 0

/-- Layer n in a GAP set. -/
def layerOf (g : GapSet) (n : Nat) : Layer :=
  { n := n, enable := gapGet g (LY_CTRL_ENABLE n) == 1, format := gapGet g (LY_CTRL_FORMAT n)
    blend := gapGet g (LY_CTRL_BLEND n), varying := gapGet g (LY_CTRL_VARYING n) == 1
    policy := gapGet g (LY_CTRL_POLICY n), freezeEn := gapGet g (LY_CTRL_FREEZE_EN n) == 1
    sx := scaleOf (gapGet g (LY_CTRL_SCALE_X n)), sy := scaleOf (gapGet g (LY_CTRL_SCALE_Y n))
    linear := gapGet g (LY_CTRL_INTERP n) == 1, planes := gapGet g (LY_CTRL_PLANES n)
    x := gapGet g (LY_X_VALUE n), w := gapGet g (LY_W_VALUE n), y := gapGet g (LY_Y_VALUE n)
    h := gapGet g (LY_H_VALUE n)
    colour := gapGet g (LY_COLOUR_LO_VALUES n) + gapGet g (LY_COLOUR_HI_VALUES n) * 2 ^ 32
    holdMax := gapGet g (LY_HOLD_HOLD_MAX n) }

/-- The bars a layer carries, ascending: plane i feeds the i-th (R123). -/
def Layer.bars (l : Layer) : List Nat := barsOf l.planes

/-- Lines per grid row and columns per grid sample of a layer's own grid (R122). -/
def Layer.gy (l : Layer) (gridY : Nat) : Nat := if l.format == 1 then 1 else 1 + gridY
def Layer.gx (l : Layer) (gridX : Nat) : Nat := if l.format == 1 then 1 else 1 + gridX

/-- A layer's rectangle in its grid, and its source size per plane (R126). -/
def Layer.wg (l : Layer) (gridX : Nat) : Nat := cdiv l.w (l.gx gridX)
def Layer.hg (l : Layer) (gridY : Nat) : Nat := cdiv l.h (l.gy gridY)
def Layer.srcW (l : Layer) (gridX : Nat) : Nat := cdiv (l.wg gridX) l.sx
def Layer.srcH (l : Layer) (gridY : Nat) : Nat := cdiv (l.hg gridY) l.sy

/-- Page-relative lines [lo, hi) that a strip row of a layer covers after its scaler (R70, R95). -/
def Layer.rowLines (l : Layer) (gridY : Nat) (b : List Nat) (row : Nat) : Nat × Nat :=
  let per := l.sy * l.gy gridY
  let lo := row * bodyRowH b * per
  let hi := min (min ((row + 1) * bodyRowH b) (bodyLines b) * per) l.h
  (l.y + lo, l.y + hi)

/-- The generation a layer uses on a checked page, if any (R129). -/
def PageRun.useOf (r : PageRun) (n : Nat) : Option (Nat × Nat) :=
  let u := r.uses.getD n 0xFFFFFFFF
  if u = 0xFFFFFFFF then none else some (u / 65536, u % 65536)

/-- Lines above a strip row's own that it feeds as well: through a linear scaler those between its first row and the row
before, and through UPSAMPLE the odd line just above (R95, R127, R148). -/
def Layer.linesAbove (l : Layer) (gridY : Nat) (upsample : Bool) (row : Nat) : Nat :=
  (if l.linear && row != 0 then (l.sy - 1) * l.gy gridY else 0) + b2n (upsample && l.gy gridY == 2)

/-- Every line a failed strip feeds in a page waste-marked (R95). -/
def State.wasteStrip (s : State) (r : PageRun) (id gen k : Nat) : State :=
  match s.surf id gen with
  | none => s
  | some f =>
    let row := k / bodyCols f.body % bodyRows f.body
    s.each (List.range 8) fun s n =>
      if r.useOf n == some (id, gen) then
        let l := layerOf r.set n
        let q := l.rowLines r.gridY f.body row
        let lo := q.1 - l.linesAbove r.gridY r.upsample row
        s.wasteCopy 8 (r.start + offPu r.pitchDiv lo) (r.start + offPu r.pitchDiv q.2)
      else s

/-- A strip error in a page (R95): waste on a unit that decides, the slot BAD, counted, latched and reported; the
samples as delivered stay with the page. -/
def State.stripError (s : State) (r : PageRun) (id gen k : Nat) (d : StripRead) : State :=
  let s := if s.authoritative then s.wasteStrip r id gen k else s
  let s := s.modSlot id gen k fun x => { x with state := stBad, ue := false }
  let s := (s.addSat CS_DEC_ERR_COUNT 1).wr CS_DEC_LAST (id + gen * 65536)
  let s := (s.wr CS_DEC_LAST_SLOT (k % 2 ^ 24 + d.reason * 2 ^ 24)).raise 0x3201 d.reason (packGen id gen) k
  { s with ingest := { s.ingest with failed := s.ingest.failed ++ [⟨id, gen, k, r.ord, r.page, d.samples⟩] } }

/-- Raw-form bytes that left the fetch unit or a decoder. -/
def State.rawOut (s : State) (n : Nat) : State :=
  let s := { s with ingest := { s.ingest with rawOut := s.ingest.rawOut + n } }
  s.put CS_DEC_OUT_UNITS_64K (s.ingest.rawOut / 65536)

/-- A strip delivered whole to a page: checked, and an error acted on (R93, R95). -/
def State.stripDeliver (s : State) (r : PageRun) (id gen k : Nat) : State :=
  let d := s.stripRead id gen k
  let s := s.rawOut (s.slotOf id gen k).rawLen
  let s := { s with ingest := { s.ingest with waiting := s.ingest.waiting.filter (· != (id, gen, k)) } }
  if d.reason == 0 then { s with ingest := { s.ingest with fetched := s.ingest.fetched ++ [(id, gen, k)] } }
  else s.stripError r id gen k d

/-- Whether a slot's data may be read. -/
def Slot.readable (x : Slot) : Bool := x.state == stStored || x.state == stHeld || x.state == stMismatch

/-- What a strip failed with in a page (R95). -/
def State.failedIn (s : State) (r : PageRun) (id gen k : Nat) : Option Failed :=
  s.ingest.failed.find? fun f => f.id == id && f.gen == gen && f.slot == k && f.ord == r.ord && f.page == r.page

/-- A page past its check that fetches a slot without data, as one another page's strip error has made BAD: zeros, and the
lines it feeds waste-marked on a unit that decides (R95). -/
def State.stripZeros (s : State) (r : PageRun) (id gen k : Nat) : State :=
  let s := if s.authoritative then s.wasteStrip r id gen k else s
  { s with ingest := { s.ingest with failed := s.ingest.failed ++ [⟨id, gen, k, r.ord, r.page, []⟩] } }

/-- A strip a line is about to use, fetched and checked if it has not been (R93, R95); the lines of one an uncorrectable DRAM
error has made BAD are VOID instead (R45). -/
def State.stripNeed (s : State) (r : PageRun) (id gen k : Nat) : State :=
  let x := s.slotOf id gen k
  if x.readable then (if s.ingest.fetched.contains (id, gen, k) then s else s.stripDeliver r id gen k)
  else if x.ue || (s.failedIn r id gen k).isSome then s
  else s.stripZeros r id gen k

/-- The samples a page receives from a slot (R95): decoded; as delivered when the strip failed in this page; zeros
otherwise. -/
def State.stripSamples (s : State) (r : PageRun) (id gen k : Nat) : List Nat :=
  let x := s.slotOf id gen k
  if x.readable then (s.stripRead id gen k).samples else ((s.failedIn r id gen k).map (·.samples)).getD []

/-- The earliest checked page not yet at PAGE_DONE that uses a generation. -/
def State.userOf (s : State) (id gen : Nat) : Option PageRun :=
  s.scan.runs.find? fun r => !r.done && (List.range 8).any fun n => r.useOf n == some (id, gen)

/-- Whether a strip is still to be fetched and checked. -/
def State.stripDue (s : State) (id gen k : Nat) : Bool :=
  (s.slotOf id gen k).readable && !s.ingest.fetched.contains (id, gen, k)

/-- The fire time of the first line a strip feeds in the earliest checked page that uses it (R101). -/
def State.stripFire (s : State) (r : PageRun) (id gen k : Nat) : Nat :=
  match s.surf id gen with
  | none => 0
  | some f =>
    let row := k / bodyCols f.body % bodyRows f.body
    let plane := k / (bodyCols f.body * bodyRows f.body)
    let times := (List.range 8).flatMap fun n =>
      let l := layerOf r.set n
      if r.useOf n == some (id, gen) then
        let line := r.firstLine + ((l.rowLines r.gridY f.body row).1 - l.linesAbove r.gridY r.upsample row)
        (if l.format = 2 then r.bars else (l.bars[plane]?).toList).map (s.lineTime r line)
      else []
    (times.min?).getD 0

/-- A decoder given to a strip (R101). -/
def State.decodeBegin (s : State) (n : Nat) (key : Nat × Nat × Nat) : State :=
  { s.setBitOf CS_DEC_STAT_BUSY n true with ingest := { s.ingest with
      decoding := s.ingest.decoding ++ [(n, key)], waiting := s.ingest.waiting.filter (· != key) } }

/-- The pending strip whose first line has the earliest fire time (R101); ties go to the one fetched first. -/
def State.decodeNext (s : State) : Option (Nat × Nat × Nat) :=
  let due := s.ingest.waiting.filterMap fun k =>
    if s.stripDue k.1 k.2.1 k.2.2 then (s.userOf k.1 k.2.1).map fun r => (s.stripFire r k.1 k.2.1 k.2.2, k) else none
  (due.foldl (fun (r : Option (Nat × Nat × Nat × Nat)) x => match r with
    | none => some x
    | some y => if x.1 < y.1 then some x else some y) none).map (·.2)

/-- The fetch unit reads a strip (R93): a faulty header or a RAW or SOLID strip ends here; a PRED or RUN strip goes to
a free decoder, and waits where there is none (R101). -/
def execStripFetch (t id gen k : Nat) (s : State) : Host.Outcome State Fault Refusal :=
  run t (fun s =>
    let x := s.slotOf id gen k
    match s.userOf id gen with
    | none => s
    | some r =>
      if !s.stripDue id gen k || s.ingest.decoding.any (·.2 == (id, gen, k)) || s.ingest.waiting.contains (id, gen, k) then s
      else
        let d := s.stripRead id gen k
        if d.reason == 1 || d.reason == 2 || x.mode == 0 || x.mode == 3 then s.stripDeliver r id gen k
        else
          match (List.range 16).find? fun n => !s.bitOf CS_DEC_STAT_BUSY n with
          | none => { s with ingest := { s.ingest with waiting := s.ingest.waiting ++ [(id, gen, k)] } }
          | some n => s.decodeBegin n (id, gen, k)) s

/-- A decoder finishes its strip (R92, R93), and takes the next one that waits (R101). -/
def execStripDecodeEnd (t n : Nat) (s : State) : Host.Outcome State Fault Refusal :=
  run t (fun s =>
    match s.ingest.decoding.find? (·.1 == n) with
    | none => s
    | some (_, id, gen, k) =>
      let s := { s.setBitOf CS_DEC_STAT_BUSY n false with ingest := { s.ingest with
        decoding := s.ingest.decoding.filter (·.1 != n) } }
      let s := match s.userOf id gen with
        | some r => if s.stripDue id gen k then s.stripDeliver r id gen k else s
        | none => s
      match s.decodeNext with
      | some key => s.decodeBegin n key
      | none => s) s

/-! DRAM errors (R44, R45) -/

/-- The slot whose bytes hold a store address. -/
def State.slotAt (s : State) (a : Nat) : Option (Nat × Nat × Nat) :=
  (s.ingest.surfs.flatMap fun f => (f.slots.filter fun p => p.2.readable && decide (p.2.addr ≤ a) &&
    decide (a < p.2.addr + p.2.len)).map fun p => (f.id, f.gen, p.1)).head?

/-- An uncorrectable error in a 64-byte block, on a C0 strip read or not: counted, latched, reported; a strip C0 reads
becomes BAD and every line that depends on it is VOID (R44, R45). -/
def execStoreUe (t block : Nat) (c0 : Bool) (s : State) : Host.Outcome State Fault Refusal :=
  run t (fun s =>
    let sub := block % 4
    let s := s.addSat MC_ECC_UE_COUNT 1
    let s := (s.put MC_ECC_UE_ADDR_BLOCK block).put MC_ECC_UE_ADDR_SUBCH sub
    let s := s.raise 0x3103 sub (block % 2 ^ 30) 0
    if c0 then
      match s.slotAt (block * 64) with
      | none => s
      | some key =>
        let s := s.modSlot key.1 key.2.1 key.2.2 fun x => { x with state := stBad, ue := true }
        s.each (List.range 96) fun s ch =>
          s.each ((s.chanLines ch).filter fun x => x.deps.contains key) fun s x => s.lineVoid ch x
    else s) s

/-- A corrected error: counted, and repaired by a write-back (R44). -/
def execStoreCe (t : Nat) (s : State) : Host.Outcome State Fault Refusal :=
  run t (fun s => s.addSat MC_ECC_CE_COUNT 1) s

/-- A patrol scrub of the whole store that corrected some errors (R44). -/
def execPatrolScrub (t corrected : Nat) (s : State) : Host.Outcome State Fault Refusal :=
  run t (fun s => s.addSat MC_ECC_CE_COUNT corrected) s

end Sys2Proof.Machine
end

