-- ==== Sys2Proof/Machine/Ingest.lean ====
section
/-! DEFINITION. Sessions, windows and DBT transfers (spec/02, R53–R64, R529, R531). -/

namespace Sys2Proof.Machine

/-! Sessions and windows (R54, R55) -/

/-- The first of `v`, `v + 1`, … modulo 2^32 that is not 0 and not in a list. -/
def freshFrom (used : List Nat) : Nat → Nat → Nat
  | 0, v => v
  | k + 1, v => if v % 2 ^ 32 = 0 ∨ used.contains (v % 2 ^ 32) then freshFrom used k (v + 1) else v % 2 ^ 32

/-- SESSION_OPEN (R54): an id never 0 and not used before since reset, else free. The 17th session is refused with BUSY
(log 51). -/
def State.sessionOpen (body : List Nat) (s : State) : Ans × State :=
  if 16 ≤ s.ingest.sessions.length then (.of stBusy 0, s)
  else
    let d := s.draw
    let id := freshFrom s.ingest.usedIds (s.ingest.usedIds.length + 2) (Config.sessionDraw d.1).toNat
    let frag := if bit (body.getD 0 0) 0 then 8192 else 1408
    let s := d.2
    (.okBody [id], { s with ingest := { s.ingest with
      sessions := s.ingest.sessions ++ [⟨id, frag⟩], usedIds := id :: s.ingest.usedIds } })

/-- HP_DBT_INFLIGHT brought up to date. -/
def State.xfersShow (s : State) : State := s.put HP_DBT_INFLIGHT_XFERS s.ingest.xfers.length

/-- The window of a number within a session. -/
def State.window (s : State) (session num : Nat) : Option Window :=
  s.ingest.windows.find? fun w => w.session == session && w.num == num

/-- A transfer's slot returned to EMPTY when it has not reached STORED (R531). -/
def State.xferSlotBack (s : State) (x : Xfer) : State :=
  match s.window x.session x.window with
  | some w =>
    if w.kind == .stripWrite && (s.slotOf w.surf w.gen x.obj).state == stLoading then
      s.modSlot w.surf w.gen x.obj Slot.clear else s
  | none => s

/-- A transfer ended: the fragments that follow its last one within 10 ms are dropped (R62). -/
def State.xferEnd (s : State) (x : Xfer) : State :=
  let same (y : Xfer) : Bool := y.session == x.session && y.window == x.window && y.id == x.id
  ({ s with ingest := { s.ingest with
      xfers := s.ingest.xfers.filter fun y => !same y
      ended := ⟨x.session, x.window, x.id, x.lastAt⟩ :: s.ingest.ended } }).xfersShow

/-- Transfers discarded with no response (R39, R55, R63, R531). -/
def State.xfersDrop (s : State) (p : Xfer → Bool) : State :=
  s.each (s.ingest.xfers.filter p) fun s x => (s.xferSlotBack x).xferEnd x

/-- Windows closed, and their transfers discarded. -/
def State.windowsClose (s : State) (p : Window → Bool) : State :=
  let gone := s.ingest.windows.filter p
  let s := s.xfersDrop fun x => gone.any fun w => w.session == x.session && w.num == x.window
  { s with ingest := { s.ingest with windows := s.ingest.windows.filter fun w => !p w } }

/-- SESSION_CLOSE (R55); a session that is not open answers RANGE (log 51). -/
def State.sessionClose (body : List Nat) (s : State) : Ans × State :=
  let id := body.getD 0 0
  if s.ingest.sessions.any (·.id == id) then
    let s := s.windowsClose (·.session == id)
    (.ok, { s with ingest := { s.ingest with sessions := s.ingest.sessions.filter (·.id != id) } })
  else (.value 0, s)

/-- WINDOW_OPEN's body as a window (R423). -/
def windowOf (body : List Nat) : Window :=
  let w1 := body.getD 1 0
  let w2 := body.getD 2 0
  { num := bits w1 31 24, session := body.getD 0 0
    kind := if bits w1 1 0 = 0 then .stripWrite else if bits w1 1 0 = 1 then .tableWrite else .readBack
    target := bits w1 6 4, surf := w2 / 65536, gen := w2 % 65536, img := w2, readonly := false }

/-- Whether a window works on a surface generation, and whether on a table image. -/
def Window.onSurf (w : Window) : Bool := w.kind == .stripWrite || (w.kind == .readBack && w.target == 0)
def Window.onImg (w : Window) : Bool := w.kind == .tableWrite || (w.kind == .readBack && w.target == 4)

/-- Table image slots in region 0 (R423). -/
def State.imgSlots (s : State) : Nat := s.rgnSize 0 / 0x100000

/-- Where a table image slot lies in the store; in replay a slot 0x8000 + k to be written is MiB k of region 6 (R495). -/
def State.imgBase (s : State) (w : Window) : Option Nat :=
  if s.is GL_ROLE_STAT_REPLAY && w.kind == .tableWrite && decide (0x8000 ≤ w.img) then
    (if (w.img - 0x8000) * 0x100000 < s.rgnSize 6 then some (s.rgnBase 6 + (w.img - 0x8000) * 0x100000) else none)
  else if w.img < s.imgSlots then some (s.rgnBase 0 + w.img * 0x100000)
  else none

/-- WINDOW_OPEN (R55). -/
def State.windowOpen (body : List Nat) (s : State) : Ans × State :=
  let w := windowOf body
  let f := s.surf w.surf w.gen
  if !s.ingest.sessions.any (·.id == w.session) then (.value 0, s)
  else if 63 < w.num || bits (body.getD 1 0) 1 0 == 3 || (w.kind == .readBack && 4 < w.target) then (.value 1, s)
  else if (w.onSurf && f.isNone) || (w.onImg && (s.imgBase w).isNone) then (.value 2, s)
  else if s.ingest.windows.any (·.num == w.num) || (w.onSurf && ((f.map (·.released)).getD false)) then (.of stBadState 0, s)
  else
    let ro := w.kind == .stripWrite && ((f.map (·.inUse)).getD false)
    (.okBody [b2n ro], { s with ingest := { s.ingest with windows := s.ingest.windows ++ [{ w with readonly := ro }] } })

/-- WINDOW_CLOSE (R55); a window that is not open answers RANGE (log 51). -/
def State.windowClose (body : List Nat) (s : State) : Ans × State :=
  let n := bits (body.getD 0 0) 31 24
  if s.ingest.windows.any (·.num == n) then (.ok, s.windowsClose (·.num == n)) else (.value 0, s)

/-! Answers (R60) -/

/-- An ACK (reason 0) or NAK sent and counted. -/
def State.dbtSend (s : State) (r : DbtReply) : State :=
  (s.emit (.dbt r)).inc (if r.reason = 0 then HP_DBT_ACKS_COUNT else HP_DBT_NAKS_COUNT)

/-- An ACK or NAK decided: delayed while C3 is shed (R60). -/
def State.dbtReply (s : State) (r : DbtReply) : State :=
  if s.c3Shed then { s with ingest := { s.ingest with delayed := s.ingest.delayed ++ [r] } } else s.dbtSend r

/-- RDDATA fragments of an object (R64). -/
def State.sendObj (s : State) (r : ReadOut) : State :=
  let n := cdiv r.bytes.length r.frag
  let crc := crc32c r.bytes
  s.each (List.range n) fun s i =>
    s.emit (.rddata r.port r.dst r.session r.window r.id r.obj i n r.bytes.length crc (slice r.bytes (i * r.frag) r.frag))

/-- Delayed answers and read-backs sent once C3 has its tokens back. -/
def State.dbtFlush (s : State) : State :=
  if s.c3Shed then s
  else
    let s' : State := { s with ingest := { s.ingest with delayed := [], reads := [] } }
    (s'.each s.ingest.delayed fun s r => s.dbtSend r).each s.ingest.reads State.sendObj

/-- A transfer ended with an answer to the source of the fragment that completed it; to that of its last fragment where
none did (log 51). -/
def State.xferAnswer (s : State) (x : Xfer) (reason : Nat) : State :=
  (s.xferEnd x).dbtReply ⟨x.session, x.window, x.id, x.obj, x.fragCount, x.len, x.crc, reason, x.src, x.port, x.ports⟩

/-- A fragment, or another datagram, dropped and counted, with no answer (R25, R58, R63). -/
def State.dbtDrop (s : State) : State := s.inc HP_DBT_DROP_COUNT

/-! Fragments (R58–R62, R529) -/

/-- Whether a fragment's lengths keep R57 and R58 for a fragment size. -/
def fragOk (h : DbtHdr) (f : Nat) (n : Nat) : Bool :=
  h.magic == 0xDB70 && h.ver == 1 && h.payloadLen == n && h.fragCount != 0 && decide (h.frag < h.fragCount) &&
    h.xferLen != 0 && decide (h.xferLen ≤ h.fragCount * f) && decide ((h.fragCount - 1) * f < h.xferLen) &&
    h.payloadLen == (if h.frag + 1 = h.fragCount then h.xferLen - (h.fragCount - 1) * f else f)

/-- Whether a fragment belongs to a transfer in flight. -/
def Xfer.isOf (x : Xfer) (h : DbtHdr) : Bool := x.session == h.session && x.window == h.window && x.id == h.xferId

/-- Whether a fragment belongs to a transfer that ended less than 10 ms before its last fragment (R62). -/
def State.isEnded (s : State) (h : DbtHdr) : Bool := s.ingest.ended.any fun e =>
  e.session == h.session && e.window == h.window && e.id == h.xferId && !s.past e.lastAt 10000000

/-- Ended transfers of which nothing has come for 10 ms let go; a fragment of one renews it. -/
def State.endedTouch (s : State) (h : DbtHdr) : State :=
  { s with ingest := { s.ingest with
      ended := (s.ingest.ended.filter fun e => !s.past e.lastAt 10000000).map fun e =>
        if e.session == h.session && e.window == h.window && e.id == h.xferId then { e with lastAt := s.now } else e } }

/-- A fragment's transfer as it begins. -/
def xferOf (h : DbtHdr) (addr now src port : Nat) : Xfer :=
  ⟨h.session, h.window, h.xferId, h.objIndex, h.fragCount, h.xferLen, h.xferCrc, [], addr, now, src, port, [port]⟩

/-- The reason that refuses a transfer's first fragment outright (R529, R61, R73); 0 none, 0xFF an ACK again. -/
def State.firstReason (s : State) (w : Window) (h : DbtHdr) : Nat :=
  if w.kind == .tableWrite then
    if h.objIndex < 16 ∧ h.xferLen ≤ 0x100000 - h.objIndex * 0x10000 then 0 else 3
  else
    match s.surf w.surf w.gen with
    | none => 3
    | some f =>
      let x := f.slot h.objIndex
      if bodySlots f.body ≤ h.objIndex ∨ h.xferLen < 16 ∨ slotRaw f.body h.objIndex + 16 < h.xferLen then 3
      else if bodyVarying f.body ∧ slotCeiling f.body h.objIndex < h.xferLen then 8
      else if (x.state == stStored || x.state == stHeld) && x.digest == h.xferCrc then 0xFF
      else if (x.state == stStored || x.state == stHeld) && f.inUse then 6
      else 0

/-- Whether a transfer writes an object of a window: the same slot of the same generation, or the same block of the same
table image, whatever window it came through (R62). -/
def State.writesSame (s : State) (w : Window) (obj : Nat) (y : Xfer) : Bool :=
  y.obj == obj && (match s.window y.session y.window with
    | some v => v.kind == w.kind && (if w.kind == .tableWrite then v.img == w.img else v.surf == w.surf && v.gen == w.gen)
    | none => false)

/-- A transfer's first fragment (R61, R62, R529): refused, acknowledged again, or begun. One for which the strip pool has no room
draws BUSY, as one beyond R62's limits does: R62 names no such case (log 7, DESIGN CHOICE). -/
def State.xferBegin (s : State) (w : Window) (h : DbtHdr) (src port : Nat) : State :=
  let x := xferOf h 0 s.now src port
  let r := s.firstReason w h
  if r = 0xFF then s.xferAnswer x 0
  else if r != 0 then s.xferAnswer x r
  else
    let s := s.each (s.ingest.xfers.filter (s.writesSame w h.objIndex)) fun s y => (s.xferSlotBack y).xferAnswer y 7
    let mine := (s.ingest.xfers.filter fun y => y.session == h.session && y.window == h.window).length
    let addr := if w.kind == .tableWrite then (s.imgBase w).map (· + h.objIndex * 0x10000)
      else s.poolAlloc h.xferLen
    if 64 ≤ mine ∨ 1024 ≤ s.ingest.xfers.length then s.xferAnswer x 4
    else
      match addr with
      | none => s.xferAnswer x 4
      | some a =>
        let s := if w.kind == .stripWrite then
            s.modSlot w.surf w.gen h.objIndex fun z => { z.clear with state := stLoading } else s
        ({ s with ingest := { s.ingest with xfers := s.ingest.xfers ++ [{ x with addr := a }] } }).xfersShow

/-- A fragment's payload placed (R58); a fragment of a complete transfer no longer moves where its answer goes (R60). -/
def State.fragPlace (s : State) (x : Xfer) (h : DbtHdr) (f src port : Nat) (payload : List Byte) : State :=
  let s := s.wrMem (x.addr + h.frag * f) payload
  let y := { x with
    got := if x.got.contains h.frag then x.got else h.frag :: x.got
    lastAt := s.now
    src := if x.got.length = x.fragCount then x.src else src
    port := if x.got.length = x.fragCount then x.port else port
    ports := if x.ports.contains port then x.ports else port :: x.ports }
  { s with ingest := { s.ingest with
      xfers := s.ingest.xfers.map fun z => if z.session == x.session && z.window == x.window && z.id == x.id then y else z } }

/-- A DATA fragment to an open STRIP_WRITE or TABLE_WRITE window. -/
def State.fragTake (s : State) (w : Window) (f : Nat) (h : DbtHdr) (src port : Nat) (payload : List Byte) : State :=
  if s.isEnded h then (s.endedTouch h).dbtDrop
  else
    let s := s.endedTouch h
    match s.ingest.xfers.find? (·.isOf h) with
    | some x =>
      if x.obj == h.objIndex && x.fragCount == h.fragCount && x.len == h.xferLen && x.crc == h.xferCrc then
        s.fragPlace x h f src port payload
      else s.dbtDrop
    | none =>
      let s := s.xferBegin w h src port
      match s.ingest.xfers.find? (·.isOf h) with
      | some x => s.fragPlace x h f src port payload
      | none => s

/-- A datagram marked as a retransmission counted (R57). -/
def State.retxSeen (s : State) (h : DbtHdr) : State :=
  if bit h.flags 0 then { s with ingest := { s.ingest with retx := s.ingest.retx + 1 } } else s

/-- A datagram of DBT's port on DP0 or DP1, whose RETX mark is counted (R56, R57); one to another port, or over an IP version that is
off, is a frame the unit does not answer (R410, R411). -/
def State.dbtArrives (s : State) (from_ : DbtFrom) (h : DbtHdr) (f : State → State) : State :=
  if !s.ipOn 1 from_.v6 || from_.dport != s.get HP_DBT_PORT_PORT then s.inc HP_RX_DROP_DP else f (s.retxSeen h)

/-- A DBT datagram on DP0 or DP1 (R57, R58, R63). Ingest stops while C3 is shed (R29, R472): a fragment that comes then is
lost (log 12). -/
def State.dbtFragment (s : State) (port src : Nat) (h : DbtHdr) (payload : List Byte) : State :=
  match s.ingest.sessions.find? (·.id == h.session), s.window h.session h.window with
  | some e, some w =>
    if h.kind == 0 && w.kind != .readBack && fragOk h e.frag payload.length then
      (if s.c3Shed then s else s.fragTake w e.frag h src port payload)
    else s.dbtDrop
  | _, _ => s.dbtDrop

def execDbtFragment (t port : Nat) (from_ : DbtFrom) (h : DbtHdr) (payload : List Byte) (s : State) :
    Host.Outcome State Fault Refusal :=
  run t (fun s =>
    if s.hostUp && decide (port < 2) then s.dbtArrives from_ h fun s => s.dbtFragment port from_.src h payload else s) s

/-- What a whole transfer's read-back finds (R59): 0 all checks pass, else the NAK's reason. -/
def State.verifyReason (s : State) (w : Window) (x : Xfer) : Nat :=
  let bs := s.rdMem x.addr x.len
  if crc32c bs != x.crc then 1
  else if w.kind == .stripWrite then
    match s.surf w.surf w.gen with
    | none => 2
    | some f =>
      let h := StripHdr.parse bs
      if h.valid && h.fits (slotGeom f.body x.obj) && h.payloadLen + 16 == x.len then 0 else 2
  else 0

/-- A complete transfer read back and checked (R59), in C3: not while that is shed (R29). -/
def execDbtVerifyDone (t session window xferId : Nat) (s : State) : Host.Outcome State Fault Refusal :=
  run t (fun s =>
    match s.window session window, s.ingest.xfers.find? fun x => x.session == session && x.window == window && x.id == xferId with
    | some w, some x =>
      if x.got.length = x.fragCount ∧ !s.c3Shed then
        let r := s.verifyReason w x
        let s := if w.kind == .stripWrite then
            (if r = 0 then s.slotStored w.surf w.gen x.obj x.addr x.len x.crc else s.xferSlotBack x)
          else s
        s.xferAnswer x r
      else s
    | _, _ => s) s

/-- Fragments missing 10 ms after the last one (R60). -/
def execDbtTimeout (t session window xferId : Nat) (s : State) : Host.Outcome State Fault Refusal :=
  run t (fun s =>
    match s.ingest.xfers.find? fun x => x.session == session && x.window == window && x.id == xferId with
    | some x =>
      if x.got.length < x.fragCount ∧ s.past x.lastAt 10000000 then (s.xferSlotBack x).xferAnswer x 5 else s
    | none => s) s

/-- A DP port loses its link (R63): its transfers and the answers still to be sent for them are discarded. -/
def execDpLinkLoss (t port : Nat) (s : State) : Host.Outcome State Fault Refusal :=
  run t (fun s =>
    let s := s.xfersDrop fun x => x.ports.contains port
    { s with ingest := { s.ingest with
        delayed := s.ingest.delayed.filter fun r => !r.ports.contains port
        reads := s.ingest.reads.filter (·.port != port) } }) s

/-! Read-back (R64) -/

/-- The strip directory's entries of one surface generation (R52). -/
def Surface.directory (f : Surface) : List Byte :=
  (List.range (bodySlots f.body)).flatMap fun k =>
    let x := f.slot k
    leBytes 4 (x.addr / 64) ++ leBytes 4 (x.len + x.state * 2 ^ 18 + x.mode * 2 ^ 21) ++ leBytes 4 x.digest ++ leBytes 4 x.rawLen

/-- A 64 KiB block of a range of the store, cut at the range's end. -/
def State.storeBlock (s : State) (base size k : Nat) : Option (List Byte) :=
  if k * 0x10000 < size then some (s.rdMem (base + k * 0x10000) (min 0x10000 (size - k * 0x10000))) else none

/-- The object an RDREQ names (R55, R64, log 17); none where it names no object, or a slot that holds no data. -/
def State.readObj (s : State) (w : Window) (k : Nat) : Option (List Byte) :=
  match w.target with
  | 0 =>
    match s.surf w.surf w.gen with
    | none => none
    | some f => if k < bodySlots f.body ∧ (f.slot k).len ≠ 0 then some (s.stripBytes (f.slot k)) else none
  | 1 =>
    let dir := s.ingest.surfs.flatMap Surface.directory
    if k * 0x10000 < dir.length then some (slice dir (k * 0x10000) 0x10000) else none
  | 2 => s.storeBlock (s.rgnBase 3) (s.rgnSize 3) k
  | 3 => s.storeBlock (s.rgnBase 6) (s.rgnSize 6) k
  | _ => if k < 16 then s.storeBlock (s.rgnBase 0 + w.img * 0x100000) 0x100000 k else none

/-- A NAK of an RDREQ (R64). -/
def State.readNak (s : State) (port src : Nat) (h : DbtHdr) (reason : Nat) : State :=
  s.dbtReply ⟨h.session, h.window, h.xferId, h.objIndex, h.fragCount, h.xferLen, h.xferCrc, reason, src, port, [port]⟩

/-- An RDREQ taken: answered at once, or, while C3 is shed, one of the 16 that wait; a further one draws BUSY (R29, R64,
log 17). -/
def State.readTake (s : State) (port src : Nat) (h : DbtHdr) (f : Nat) (bs : List Byte) : State :=
  let r : ReadOut := ⟨h.session, h.window, h.xferId, h.objIndex, src, port, f, bs⟩
  if !s.c3Shed then s.sendObj r
  else if 16 ≤ s.ingest.reads.length then s.readNak port src h 4
  else { s with ingest := { s.ingest with reads := s.ingest.reads ++ [r] } }

/-- A datagram that is not DATA (R58, R64): an RDREQ that names no object, or no data, draws RANGE (log 51). -/
def State.readReq (s : State) (port src : Nat) (h : DbtHdr) : State :=
  match s.ingest.sessions.find? (·.id == h.session), s.window h.session h.window with
  | some e, some w =>
    if h.magic == 0xDB70 && h.ver == 1 && h.kind == 3 && h.payloadLen == 0 && w.kind == .readBack then
      match s.readObj w h.objIndex with
      | some bs => s.readTake port src h e.frag bs
      | none => s.readNak port src h 3
    else s.dbtDrop
  | _, _ => s.dbtDrop

/-- An RDREQ (R58, R64). -/
def execRdreq (t port : Nat) (from_ : DbtFrom) (h : DbtHdr) (s : State) : Host.Outcome State Fault Refusal :=
  run t (fun s => if s.hostUp && decide (port < 2) then s.dbtArrives from_ h fun s => s.readReq port from_.src h else s) s

/-! Surface release (R135, R136) -/

/-- What a release does at once to windows and transfers (R136). -/
def State.releaseWindows (s : State) (id gen : Nat) : State :=
  let ws := s.surfWindows id gen
  let s := s.each (s.ingest.xfers.filter fun x => ws.any fun w => w.session == x.session && w.num == x.window)
    fun s x => (s.xferSlotBack x).xferAnswer x 6
  { s with ingest := { s.ingest with windows := s.ingest.windows.filter fun w =>
      !(ws.any fun v => v.session == w.session && v.num == w.num) } }

/-- Every transfer discarded, and the answers still to be sent for them (R39); sessions and windows stay open (R54). -/
def State.xfersCut (s : State) : State :=
  let s := s.xfersDrop fun _ => true
  { s with ingest := { s.ingest with delayed := [], reads := [] } }

/-- Every session closed, with its windows and transfers (a takeover, R39, R54). -/
def State.ingestDrop (s : State) : State :=
  let s := s.xfersCut.windowsClose fun _ => true
  { s with ingest := { s.ingest with sessions := [] } }

end Sys2Proof.Machine
end

