-- ==== Sys2Proof/Machine/Jobs.lean ====
section
/-! DEFINITION. Jobs, pages, surfaces and their object records (spec/02, R48–R50, R69–R74; spec/04, R104–R110, R115–R121,
R134–R136, R527, R528; spec/18, R523, R526), job start (R147, R158, R386), and the GAP and TICK commits. -/

namespace Sys2Proof.Machine

/-! Layer references of a page -/

/-- No surface. -/
def noRef : Nat := 0xFFFFFFFF

/-- The surface a reference names. -/
def State.refSurf (s : State) (ref : Nat) : Option Surface :=
  if ref = noRef then none else s.surf (ref / 65536) (ref % 65536)

/-! GAP settings (R115, R116) -/

/-- The registers of the GAP domain. -/
def gapAddrs : List Nat :=
  [PG_PAGE_LINES, PG_GAP, PG_MARK_OFS, PG_PROOF] ++
    ((List.range 8).flatMap fun n => [LY_CTRL n, LY_X n, LY_W n, LY_Y n, LY_H n, LY_COLOUR_LO n, LY_COLOUR_HI n, LY_HOLD n]) ++
    (List.range 4).flatMap fun k => (List.range 4).map fun m => BY_SENS k m

/-- The registers of the TICK domain. -/
def tickAddrs : List Nat :=
  (List.range 18).flatMap fun blk => (regSpecsOf blk).flatMap fun r =>
    if r.dom = .tick then (List.range r.count1).flatMap fun i => (List.range r.count2).map fun k =>
      r.base + r.stride1 * i + r.stride2 * k
    else []

/-- The live GAP set, and the set the shadows hold. -/
def State.liveGap (s : State) : GapSet := gapAddrs.map fun a => (a, s.rd a)
def State.shadowGap (s : State) : GapSet := gapAddrs.map fun a => (a, s.rdSh a)

/-- The order of a job among started jobs; a job not started follows every started one. -/
def Job.rank (j : Job) : Option Nat := if j.started then some j.order else none

/-- Whether a job is queued after another. -/
def Job.isAfter (j k : Job) : Bool := match j.rank, k.rank with
  | some a, some b => decide (b < a)
  | none, _ => j.slot != k.slot
  | some _, none => false

/-- The id of the job in a slot. -/
def State.idAt (s : State) (slot : Nat) : Option Nat := (s.jobAt slot).map (·.id)

/-- Whether a page of a job is the apply-at page of a set, or a later one; every page is once the apply-at job, known by its
slot and id, has left the queue. -/
def State.reaches (s : State) (slot : Nat) (id : Option Nat) (page : Nat) (j : Job) (p : Nat) : Bool :=
  match (s.jobAt slot).filter fun k => some k.id == id with
  | some k => if j.slot = slot then decide (page ≤ p) else j.isAfter k
  | none => true

/-- The GAP settings a page of a job will use (R116, R121). -/
def State.gapFor (s : State) (j : Job) (p : Nat) : GapSet :=
  match s.scan.pendingGap with
  | some g => if s.reaches g.job g.id g.page j p then g.set else s.liveGap
  | none => s.liveGap

/-! Pages of a job -/

def Job.page (j : Job) (n : Nat) : Option Page := j.pages.find? (·.num == n)

def Job.modPage (j : Job) (n : Nat) (f : Page → Page) : Job :=
  { j with pages := j.pages.map fun p => if p.num == n then f p else p }

/-- Pages a job prints in all: its PAGES, or, once it is closed, its last defined page (R423). -/
def Job.total (j : Job) : Option Nat :=
  if j.pageCount != 0 then some j.pageCount
  else if j.closed then some (j.pages.foldl (fun a p => max a (p.num + 1)) 0)
  else none

/-- The last checked page of a started job. -/
def State.lastRun (s : State) (ord : Nat) : Option PageRun :=
  s.scan.runs.foldl (fun r x => if x.ord == ord then some x else r) none

/-- The first page of a started job that has not passed its readiness check. -/
def State.nextPageNum (s : State) (j : Job) : Nat :=
  if j.started then ((s.lastRun j.order).map (·.page + 1)).getD 0 else 0

/-- Whether a page of a job is still to be checked (R108, R110). -/
def State.jobGoesOn (s : State) (j : Job) : Bool :=
  !j.cancelled && (match j.total with
    | some n => decide (s.nextPageNum j < n)
    | none => true)

/-! Admission (R69–R74) -/

/-- A strip slot's store and decode charges before overlap (R70, R73). -/
def Surface.charge (f : Surface) (k : Nat) : Nat × Nat :=
  let x := f.slot k
  if bodyVarying f.body && x.state != stHeld then (slotCeiling f.body k + 16, slotRaw f.body k)
  else (x.len + 16, if x.mode = 1 ∨ x.mode = 2 then slotRaw f.body k else 0)

/-- A slot's charges on a layer whose previous generation is kept live (R74). -/
def chargeWith (f : Surface) (prev : Option Surface) (k : Nat) : Nat × Nat :=
  match prev with
  | none => f.charge k
  | some g => if k < bodySlots g.body then (max (f.charge k).1 (g.charge k).1, max (f.charge k).2 (g.charge k).2)
      else f.charge k

/-- The started job whose last page comes right before a job's first. -/
def State.prevJob (s : State) (j : Job) : Option Job :=
  (s.scan.jobs.filter fun k => k.started && j.isAfter k).foldl (fun (r : Option Job) k => match r with
    | none => some k
    | some m => if m.order < k.order then some k else some m) none

/-- The generation the layer will use on the previous page (R74): as its check decided, else as its entry names. Before a
job's first page comes the last page of the job before it. -/
def State.prevGen (s : State) (j : Job) (page n : Nat) : Nat :=
  let last := s.scan.prevUses.getD n noRef
  let named (p : Option Page) : Nat := (p.map fun p => p.refs.getD n noRef).getD last
  if page = 0 then
    match s.prevJob j with
    | some k => if s.jobGoesOn k then named (k.total.bind fun m => k.page (m - 1)) else last
    | none => last
  else
    match (if j.started then s.runOf j.order (page - 1) else none) with
    | some r => r.uses.getD n noRef
    | none => named (j.page (page - 1))

/-- One reference's charge on the lines [lo, lo + 64) of a page, in bytes (R70). -/
def refCharge (l : Layer) (gridY : Nat) (f : Surface) (prev : Option Surface) (lo : Nat) : Rat × Rat :=
  (List.range (bodySlots f.body)).foldl (fun (a : Rat × Rat) k =>
    let q := l.rowLines gridY f.body (k / bodyCols f.body % bodyRows f.body)
    let top := max q.1 lo
    let bot := min q.2 (lo + 64)
    if top < bot then
      let c := chargeWith f prev k
      let part : Rat := ((bot - top : Nat) : Rat) / ((q.2 - q.1 : Nat) : Rat)
      (a.1 + c.1 * part, a.2 + c.2 * part)
    else a) (0, 0)

/-- The references admission charges: layer, surface and previous generation (R69, R72, R74). `acts` gives what a
readiness check has resolved: a layer under BLANK carries no charge (R129). -/
def State.charged (s : State) (g : GapSet) (j : Job) (p : Page) (acts : List Nat) : List (Layer × Surface × Option Surface) :=
  (List.range 8).filterMap fun n =>
    let l := layerOf g n
    match s.refSurf (p.refs.getD n noRef) with
    | some f =>
      if l.enable && l.format != 3 && acts.getD n 0 != 2 then
        some (l, f, if l.policy == 2 then s.refSurf (s.prevGen j p.num n) else none)
      else none
    | none => none

/-- The highest band demands of a page, in 0.01 GB/s (R70): band time is 64 line pitches of 4,064 × (PITCH_DIV + 1) ÷ 3
pu at VMAX mm/s of 64,000 pu. -/
def State.demand (s : State) (g : GapSet) (j : Job) (p : Page) (acts : List Nat) : Rat × Rat :=
  let l := s.charged g j p acts
  let perSec : Rat := (j.vmax * 64000 * 3 : Nat) / (64 * 4064 * (j.pitchDiv + 1) : Nat)
  let bands := cdiv (gapGet g PG_PAGE_LINES_PAGE_LINES) 64
  let top := (List.range bands).foldl (fun (a : Rat × Rat) b =>
    let c := l.foldl (fun (c : Rat × Rat) x =>
      let q := refCharge x.1 j.gridY x.2.1 x.2.2 (64 * b)
      (c.1 + q.1, c.2 + q.2)) ((0, 0) : Rat × Rat)
    (max a.1 c.1, max a.2 c.2)) ((0, 0) : Rat × Rat)
  (top.1 * perSec / 10000000, top.2 * perSec / 10000000)

/-- PG_ADM_LAST.REASON for demands: 0 admitted (R71). -/
def State.admReason (s : State) (d : Rat × Rat) : Nat :=
  b2n (decide ((s.get PG_ADM_LIMIT_DRAM_LIMIT : Rat) < d.1)) + 2 * b2n (decide ((s.get PG_ADM_LIMIT_DEC_LIMIT : Rat) < d.2))

/-- Whether a page would be admitted under some settings (R120, R527): 0 when it would. -/
def State.admTry (s : State) (g : GapSet) (j : Job) (p : Page) : Nat := s.admReason (s.demand g j p [])

/-- Whether admission must wait: a non-VARYING strip the page references is not HELD (R69). -/
def State.admWaits (s : State) (g : GapSet) (p : Page) : Bool :=
  (List.range 8).any fun n =>
    let l := layerOf g n
    match s.refSurf (p.refs.getD n noRef) with
    | some f => l.enable && l.format != 3 && !bodyVarying f.body &&
        (List.range (bodySlots f.body)).any fun k => (f.slot k).state != stHeld
    | none => false

/-- A page change in its job. -/
def State.modPage (s : State) (slot page : Nat) (f : Page → Page) : State :=
  match s.jobAt slot with
  | some j => s.setJob (j.modPage page f)
  | none => s

/-- The outcome of admission recorded: counters, PG_ADM_LAST, the generations in use (R134), the ADMIT entry (R381). -/
def State.admTake (s : State) (slot page reason : Nat) : State :=
  let s := s.modPage slot page fun p => { p with adm := if reason = 0 then .admitted else .refused }
  let refs := (((s.jobAt slot).bind (·.page page)).map (·.refs)).getD []
  let s := if reason = 0 then
      (s.inc PG_ADM_CNT_ADMITTED).each refs fun s r =>
        if r = noRef then s else s.modSurf (r / 65536) (r % 65536) fun f => { f with inUse := true }
    else
      (s.inc PG_ADM_CNT_REFUSED).wr PG_ADM_LAST (slot + reason * 64 + page * 256)
  s.copy 3 [packPage slot page, b2n (reason == 0) + reason * 2]

/-- Admission of a page under its settings (R69–R71); `acts` as a readiness check has resolved its layers. -/
def State.letIn (s : State) (g : GapSet) (j : Job) (p : Page) (acts : List Nat) : Nat × State :=
  let d := s.demand g j p acts
  let r := s.admReason d
  let s := s.wr PG_ADM_PEAK ((min d.1.floor.toNat 65535) + (min d.2.floor.toNat 65535) * 65536)
  (r, s.admTake j.slot p.num r)

/-- A page refused after its close (R69, R74). -/
def State.pageRefused (s : State) (slot page reason : Nat) : State := s.raise 0x3101 slot (packPage slot page) reason

/-- Pages awaiting admission whose last strip has become HELD (R69). -/
def State.admitLater (s : State) : State :=
  s.each (s.scan.jobs.flatMap fun j => (j.pages.filter fun p => p.adm == .awaiting && !p.checked).map fun p => (j.slot, p.num))
    fun s k =>
      match s.jobAt k.1, (s.jobAt k.1).bind (·.page k.2) with
      | some j, some p =>
        let g := s.gapFor j p.num
        if s.admWaits g p then s
        else
          let r := s.letIn g j p []
          if r.1 = 0 then r.2 else r.2.pageRefused k.1 k.2 r.1
      | _, _ => s

/-! Object records (R526) -/

def jobWin (slot : Nat) : Nat := 0x1D00000 + 0x40 * slot
def surfWin (entry : Nat) : Nat := 0x1D10000 + 0x20 * entry
def portWin (slot : Nat) : Nat := 0x1D40000 + 0x40 * slot

/-- A record's words written in ascending order, with a WRITE entry each where this unit decides. -/
def State.objPut (s : State) (base : Nat) (words : List Nat) : State :=
  s.each (words.zipIdx) fun s w => s.wrCopy (base + 4 * w.2) w.1

/-- The first number below `n` not in a list. -/
def freeIndex (used : List Nat) (n : Nat) : Option Nat := (List.range n).find? fun i => !used.contains i

/-- A generation freed (R135): its windows and everything kept for it go. -/
def State.surfFree (s : State) (entry : Nat) : State :=
  match s.ingest.surfs.find? (·.entry == entry) with
  | none => s
  | some f =>
    let s := s.windowsClose fun w => w.kind == .stripWrite && w.surf == f.id && w.gen == f.gen
    { s with ingest := { s.ingest with
        surfs := s.ingest.surfs.filter (·.entry != entry)
        fetched := s.ingest.fetched.filter fun x => !(x.1 == f.id && x.2.1 == f.gen)
        waiting := s.ingest.waiting.filter fun x => !(x.1 == f.id && x.2.1 == f.gen)
        failed := s.ingest.failed.filter fun x => !(x.id == f.id && x.gen == f.gen)
        digests := s.ingest.digests.filter fun x => !(x.1 == f.id && x.2.1 == f.gen) } }

/-- A surface record applied by the write of its STATE word. -/
def State.surfApply (s : State) (entry : Nat) : State :=
  let w (k : Nat) : Nat := s.rd (surfWin entry + 4 * k)
  if !bit (w 6) 0 then s.surfFree entry
  else
    let id := w 0 / 65536
    let gen := w 0 % 65536
    let released := bit (w 6) 1
    match s.ingest.surfs.find? (·.entry == entry) with
    | some f =>
      if f.id = id ∧ f.gen = gen then
        let s := s.modSurf id gen fun f => { f with released := released }
        if released && !f.released then s.releaseWindows id gen else s
      else
        let s := s.surfFree entry
        { s with ingest := { s.ingest with surfs := s.ingest.surfs ++
            [⟨entry, id, gen, (List.range 6).map w, [], false, released, []⟩] } }
    | none => { s with ingest := { s.ingest with surfs := s.ingest.surfs ++
        [⟨entry, id, gen, (List.range 6).map w, [], false, released, []⟩] } }

/-! What a job start does in either unit (R147, R158) -/

/-- The segments in use of a bar: number, first column, slots. -/
def State.segs (s : State) (b : Nat) : List (Nat × Nat × Nat) :=
  (List.range 12).filterMap fun m =>
    let n := s.get (SC_BAR_SEG_SLOTS_SLOTS b m)
    if n = 0 then none else some (m, s.get (SC_BAR_SEG_COL_SEG_COL0 b m), n)

/-- Columns two segments share: first and number. FIRST of a boundary that shares none is the upper segment's first column
(log 53). -/
def overlapOf (p q : Nat × Nat × Nat) : Nat × Nat :=
  let lo := max p.2.1 q.2.1
  let hi := min (p.2.1 + p.2.2) (q.2.1 + q.2.2)
  (lo, hi - lo)

/-- The first fault of R147 among a bar's segments, with the segment it names; `done` holds those before the previous
one, nearest first. -/
def geomFault (done : List (Nat × Nat × Nat)) (p : Nat × Nat × Nat) : List (Nat × Nat × Nat) → Option (Nat × Nat)
  | [] => none
  | q :: l =>
    if q.2.1 ≤ p.2.1 then some (1, q.1)
    else if 256 < (overlapOf p q).2 then some (2, p.1)
    else if done.any fun d => (overlapOf d q).2 != 0 then some (3, q.1)
    else geomFault (p :: done) q l

def State.geomCheck (s : State) (b : Nat) : Option (Nat × Nat) := match s.segs b with
  | [] => none
  | p :: l => geomFault [] p l

/-- Columns 0–94,487 covered by segments whose starts rise; `from_` is the first column not counted yet. -/
def covered (from_ : Nat) : List (Nat × Nat × Nat) → Nat
  | [] => 0
  | q :: l =>
    let lo := max from_ q.2.1
    let hi := min (q.2.1 + q.2.2) 94488
    (hi - lo) + covered (max lo hi) l

/-- The default ramp entry of an overlap of W columns (R158). -/
def rampEntry (w i : Nat) : Nat := min 255 ((256 * (w - i) - 128) / w)

def rampWin (b m : Nat) : Nat := 0x818000 + 0x1000 * b + 0x100 * m

/-- A boundary's overlap shown, and its ramp filled while RAMP_USER is 0. -/
def State.boundary (s : State) (b m : Nat) (o : Nat × Nat) : State :=
  let s := s.wr (SC_BAR_OVL b m) (o.2 + o.1 * 512)
  if s.is (SC_BAR_CFG_RAMP_USER b) || o.2 = 0 then s
  else s.each (List.range (cdiv o.2 4)) fun s k =>
    let at_ (i : Nat) : Nat := if 4 * k + i < o.2 then rampEntry o.2 (4 * k + i)
      else bits (s.rd (rampWin b m + 4 * k)) (8 * i + 7) (8 * i)
    s.wr (rampWin b m + 4 * k) (at_ 0 + at_ 1 * 2 ^ 8 + at_ 2 * 2 ^ 16 + at_ 3 * 2 ^ 24)

/-- A bar's geometry taken at a job start that passes: UNCOVERED, the boundaries and their ramps (R147, R158); CAUSE and SEG of an
earlier failure are cleared (log 60, DESIGN CHOICE). -/
def State.barStart (s : State) (b : Nat) : State :=
  let l := s.segs b
  let s := s.wr (SC_BAR_GEOM b) (94488 - covered 0 l)
  let pairs := l.zip (l.drop 1)
  s.each (List.range 11) fun s m => s.boundary b m ((pairs[m]?.map fun p => overlapOf p.1 p.2).getD (0, 0))

/-! Job records -/

/-- Words 0–4 of a job's record. -/
def Job.record (j : Job) : List Nat :=
  [j.id, j.w1, j.w2, j.w3, 1 + 2 * b2n j.started + 4 * b2n j.closed + 8 * b2n j.cancelled]

/-- A job entry freed (R48). -/
def State.jobFree (s : State) (slot : Nat) : State :=
  let jobs := s.scan.jobs.filter (·.slot != slot)
  let bars := barsOf (((s.jobAt slot).map Job.bars).getD 0)
  ({ s with scan := { s.scan with jobs := jobs, emptied := s.scan.emptied || jobs.isEmpty } }).each bars State.rateShow

/-- A job record applied by the write of its STATE word; a job newly started takes the next place in the order of
starts. -/
def State.jobApply (s : State) (slot : Nat) : State :=
  let w (k : Nat) : Nat := s.rd (jobWin slot + 4 * k)
  if !bit (w 4) 0 then s.jobFree slot
  else
    let old := (s.jobAt slot).filter (·.id == w 0)
    let starts := bit (w 4) 1 && !((old.map (·.started)).getD false)
    let j : Job :=
      { slot := slot, id := w 0, w1 := w 1, w2 := w 2, w3 := w 3, started := bit (w 4) 1, closed := bit (w 4) 2
        cancelled := bit (w 4) 3, pages := (old.map (·.pages)).getD []
        order := if starts then s.scan.starts else (old.map (·.order)).getD 0 }
    let s := if old.isSome then s.setJob j
      else { s with scan := { s.scan with jobs := s.scan.jobs.filter (·.slot != slot) ++ [j] } }
    if starts then
      let s := { s with scan := { s.scan with starts := s.scan.starts + 1 } }
      (s.each (barsOf j.bars) fun s b => s.barStart b).rateStart j
    else s

/-- A job's record written and applied. -/
def State.jobPut (s : State) (j : Job) : State := (s.objPut (jobWin j.slot) j.record).jobApply j.slot

/-- A page record applied by the write of its STATE word: a JOB_ID that is not the job of the port's slot leaves it as
the port's content only. Closing through a port never runs admission. -/
def State.portApply (s : State) (slot : Nat) : State :=
  let w (k : Nat) : Nat := s.rd (portWin slot + 4 * k)
  match s.jobAt slot with
  | none => s
  | some j =>
    if j.id != w 0 then s
    else
      let num := w 1 % 2 ^ 24
      let refs := (List.range 8).map fun n => w (2 + n)
      let closed := bit (w 10) 0
      let upd (p : Page) : Page :=
        { p with refs := refs, closed := closed
                 adm := if p.checked then p.adm else if closed then (if p.adm == .open then .awaiting else p.adm) else .open }
      if (j.page num).isSome then s.setJob (j.modPage num upd)
      else s.setJob { j with pages := j.pages ++ [upd ⟨num, refs, .open, closed, false, false⟩] }

/-- A page's record written through its job's port and applied. -/
def State.portPut (s : State) (j : Job) (num : Nat) (refs : List Nat) (closed : Bool) : State :=
  (s.objPut (portWin j.slot) ([j.id, num] ++ refs ++ [b2n closed])).portApply j.slot

/-! Body checks on receipt (R417, order 7) -/

/-- SURFACE_DEFINE's body with reserved bits cleared. -/
def surfBody (b : List Nat) : List Nat :=
  [b.getD 0 0, b.getD 1 0 &&& 0x37F, b.getD 2 0, b.getD 3 0, b.getD 4 0, b.getD 5 0]

/-- Limits of SURFACE_DEFINE (R423). -/
def surfCheck (b : List Nat) : Option Ans :=
  if b.getD 0 0 / 65536 = 0xFFFF then some (.value 0)
  else if bodyFormat b = 3 ∨ bodyPlanes b = 0 ∨ 8 < bodyPlanes b ∨ (bodyFormat b = 1 ∧ bodyHtBits b < 2) then some (.value 1)
  else if bodyWidth b = 0 ∨ 94488 < bodyWidth b then some (.value 2)
  else if bodyLines b = 0 ∨ 16777215 < bodyLines b then some (.value 3)
  else if bodyRowH b = 0 ∨ 32 < bodyRowH b then some (.value 4)
  else if 16777216 < bodySlots b then some (.value 3)
  else none

/-- JOB_DEFINE's words 1–3 with reserved bits cleared. -/
def jobWords (b : List Nat) : Nat × Nat × Nat := (b.getD 1 0 &&& 0xFFF03, b.getD 2 0 % 65536, b.getD 3 0 % 2 ^ 24)

/-- Limits of JOB_DEFINE (R49, R104). -/
def jobCheck (b : List Nat) : Option Ans :=
  let w := jobWords b
  let d := bits w.1 1 0
  if bits w.1 15 8 = 0 ∨ (bit w.1 18 ∧ d ≠ 0) then some (.value 1)
  else if w.2.1 = 0 ∨ 3386 < w.2.1 ∨ 160000 * 254 * (d + 1) < w.2.1 * 12000 then some (.value 2)
  else none

/-! Surfaces (R50, R135, R136) -/

/-- SURFACE_DEFINE commits (R50). -/
def State.surfaceDefine (body : List Nat) (s : State) : Ans × State :=
  let b := surfBody body
  match s.surf (b.getD 0 0 / 65536) (b.getD 0 0 % 65536) with
  | some f =>
    if f.released then (.of stBadState 0, s)
    else if f.body = b then (.ok, s) else (.of stBadState 0, s)
  | none =>
    match freeIndex (s.ingest.surfs.map (·.entry)) 4096 with
    | none => (.of stBusy 0, s)
    | some e => (.ok, (s.objPut (surfWin e) (b ++ [1])).surfApply e)

/-- SURFACE_RELEASE commits (R135, R136). -/
def State.surfaceRelease (body : List Nat) (s : State) : Ans × State :=
  let w := body.getD 0 0
  match s.surf (w / 65536) (w % 65536) with
  | none => (.value 0, s)
  | some f => if f.released then (.ok, s) else (.ok, (s.objPut (surfWin f.entry) (f.body ++ [3])).surfApply f.entry)

/-- Whether a page's entry names a generation. -/
def Page.names (p : Page) (f : Surface) : Bool := p.refs.contains (packGen f.id f.gen)

/-- Whether a checked page uses a generation, or keeps it live as the previous one of a layer under REPEAT (R74). -/
def PageRun.keeps (r : PageRun) (key : Nat) : Bool :=
  r.uses.contains key || (List.range 8).any fun n =>
    let l := layerOf r.set n
    l.enable && l.policy == 2 && r.before.getD n noRef == key

/-- Whether a generation is kept live as a previous one until the page that could repeat it has printed (R74): a page checked and
not done keeps it, or one still to be checked does. -/
def State.keptLive (s : State) (f : Surface) : Bool :=
  let key := packGen f.id f.gen
  s.scan.runs.any (fun r => !r.done && r.keeps key) ||
  s.scan.jobs.any fun j => j.pages.any fun p => p.adm == .admitted && !p.checked && (List.range 8).any fun n =>
    let l := layerOf (s.gapFor j p.num) n
    l.enable && l.policy == 2 && s.prevGen j p.num n == key

/-- Whether a released generation may be freed (R135). -/
def State.mayFree (s : State) (f : Surface) : Bool :=
  f.released && !s.keptLive f && f.waits.isEmpty &&
    s.scan.jobs.all fun j => j.pages.all fun p => !(p.adm == .admitted && p.names f) || p.done

/-- Released generations freed where nothing holds them (R135). -/
def State.freeReleased (s : State) : State :=
  s.each (s.ingest.surfs.filter s.mayFree) fun s f => (s.objPut (surfWin f.entry) (f.body ++ [0])).surfApply f.entry

/-- A generation freed at the tick end that passes, once its pages are done (R135). -/
def execGenerationFreed (t id gen : Nat) (s : State) : Host.Outcome State Fault Refusal :=
  run t (fun s =>
    match s.surf id gen with
    | some f =>
      if s.authoritative && s.tick != s.tb.seen && s.mayFree f then
        (s.objPut (surfWin f.entry) (f.body ++ [0])).surfApply f.entry
      else s
    | none => s) s

/-! Pages (R121, R528, R69) -/

/-- The number of bits set below 8. -/
def popcount8 (m : Nat) : Nat := (barsOf m).length

/-- Whether a surface has the size, planes and format of a layer on a job's pages (R91, R121, R122, R126). -/
def State.refFits (s : State) (l : Layer) (j : Job) (f : Surface) : Bool :=
  l.format == bodyFormat f.body && popcount8 l.planes == bodyPlanes f.body && l.sx != 0 && l.sy != 0 &&
    l.srcW j.gridX == bodyWidth f.body && l.srcH j.gridY == bodyLines f.body &&
    (l.format != 1 || l.bars.all fun b => s.get (SC_BAR_CFG_DROP_BITS b) + 2 == bodyHtBits f.body)

/-- The reference of one layer judged (R121). -/
def State.refCheck (s : State) (l : Layer) (j : Job) (ref : Nat) : Option (Nat × Nat) :=
  if ref != noRef && (s.refSurf ref).isNone then some (stRange, dtValue)
  else if ((s.refSurf ref).map (·.released)).getD false then some (stBadState, 0)
  else if !l.enable then none
  else
    match s.refSurf ref with
    | none => if l.format == 3 then none else some (stRange, dtValue)
    | some f => if l.format != 3 && s.refFits l j f && bodyVarying f.body == l.varying then none else some (stRange, dtValue)

/-- PAGE_DEFINE commits (R121, R528). -/
def State.pageDefine (body : List Nat) (s : State) : Ans × State :=
  let num := body.getD 1 0 % 2 ^ 24
  let refs := (List.range 8).map fun n => body.getD (2 + n) 0
  match s.jobOf (body.getD 0 0) with
  | none => (.value 0, s)
  | some j =>
    let old := j.page num
    if j.pageCount != 0 && decide (j.pageCount ≤ num) then (.value 1, s)
    else if old.isNone && (j.cancelled || j.closed) then (.of stBadState 0, s)
    else if (old.map (·.closed)).getD false then
      (if (old.map (·.refs)) = some refs then (.ok, s) else (.of stBadState 0, s))
    else
      let g := s.gapFor j num
      match (List.range 8).findSome? fun n => (s.refCheck (layerOf g n) j (refs.getD n noRef)).map fun v => (n, v) with
      | some (n, v) => (⟨v.1, v.2, 2 + n, []⟩, s)
      | none => (.ok, s.portPut j num refs false)

/-- PAGE_CLOSE commits (R528), with admission under R69 unless a readiness check has run it (R129). -/
def State.pageClose (body : List Nat) (s : State) : Ans × State :=
  let num := body.getD 1 0 % 2 ^ 24
  match s.jobOf (body.getD 0 0) with
  | none => (.value 0, s)
  | some j =>
    if j.pageCount != 0 && decide (j.pageCount ≤ num) then (.value 1, s)
    else
      match j.page num with
      | none => (.of stBadState 0, s)
      | some p =>
        let ran : Ans := if p.adm == .refused then .of stBandwidth 0 else .ok
        if p.closed then (ran, s)
        else
          let s := s.portPut j num p.refs true
          let g := s.gapFor j num
          if p.adm != .open then (ran, s)
          else if s.admWaits g p then (.ok, s)
          else
            let r := s.letIn g j p []
            (if r.1 = 0 then .ok else .of stBandwidth 0, r.2)

/-! Jobs (R48, R49, R109, R110, R527) -/

/-- A rejection latched (R109, R120, R527). -/
def State.rejectLatch (s : State) (cause layer page : Nat) : State :=
  let s := (s.put PG_CMT_STAT_REJ_CAUSE cause).put PG_CMT_STAT_REJ_LAYER layer
  s.raise 0x3307 layer cause page

/-- Whether a job's first page has passed its readiness check (R109). -/
def State.firstChecked (s : State) (j : Job) : Bool := j.started && s.nextPageNum j != 0

/-- The started job whose page comes next. -/
def State.nextJob (s : State) : Option Job :=
  (s.scan.jobs.filter fun j => j.started && s.jobGoesOn j).foldl (fun (r : Option Job) j => match r with
    | none => some j
    | some k => if j.order < k.order then some j else some k) none

/-- A next page that its job no longer has let go, with what PG_JOB_STAT shows of it. -/
def State.pageUnplace (s : State) (p : NextPage → Bool) : State :=
  if (s.scan.nextPage.map p).getD false then ({ s with scan := { s.scan with nextPage := none } }).put ⟨PG_JOB_STAT, 7, 6⟩ 0
  else s

/-- A next page beyond a job's total let go (R423, R527). -/
def State.pageBeyond (s : State) (j : Job) : State := s.pageUnplace fun n => n.job == j.slot && (match j.total with
  | some k => decide (k ≤ n.page)
  | none => false)

/-- JOB_DEFINE of a queued job; one that was cancelled or has ended, and waits for its last PAGE_DONE, is BAD_STATE (R527). -/
def State.jobRedefine (s : State) (j : Job) (w : Nat × Nat × Nat) : Ans × State :=
  let k := { j with w1 := w.1, w2 := w.2.1, w3 := w.2.2 }
  let high := j.pages.foldl (fun a p => max a (p.num + 1)) 0
  if j.cancelled || (j.started && !s.jobGoesOn j) then (.of stBadState 0, s)
  else if k = j then (.okBody [j.slot], s)
  else if w.2.2 != 0 && decide (w.2.2 < high) then (.value 3, s)
  else if j.w1 &&& 0xEFFFF != w.1 &&& 0xEFFFF && s.firstChecked j then
    (.of stRejected 0, s.rejectLatch 8 0 (j.slot * 2 ^ 24))
  else if j.w2 != w.2.1 && j.pages.any fun p => p.adm == .admitted && !p.checked && s.admTry (s.gapFor k p.num) k p != 0 then
    (.of stRejected 0, s.rejectLatch 6 0 (j.slot * 2 ^ 24))
  else
    -- a first page placed on the grid the job had is placed anew (R108, R109)
    let place (n : NextPage) : Option NextPage := if n.job = j.slot ∧ j.w1 &&& 0x60003 ≠ k.w1 &&& 0x60003 then none else some n
    let s := s.jobPut k
    let s : State := { s with scan := { s.scan with nextPage := s.scan.nextPage.bind place } }
    (.okBody [j.slot], s.pageBeyond k)

/-- JOB_DEFINE commits. -/
def State.jobDefine (body : List Nat) (s : State) : Ans × State :=
  let w := jobWords body
  let id := body.getD 0 0
  match s.jobOf id with
  | some j => s.jobRedefine j w
  | none =>
    match freeIndex (s.scan.jobs.map (·.slot)) 64 with
    | none => (.of stBusy 0, s)
    | some slot => (.okBody [slot], s.jobPut ⟨slot, id, w.1, w.2.1, w.2.2, false, false, false, [], 0⟩)

/-- The claim set (R371, R372): epoch and rank, shown on PR_CLAIM. -/
def State.setClaim (s : State) (epoch rank : Nat) : State :=
  ({ s with pair := { s.pair with epoch := epoch, rank := rank } }).wr PR_CLAIM (epoch * 256 + rank * 2 + b2n s.unitId)

/-- The claim a SINGLE by pairing timeout takes at its first job start (R386). -/
def State.firstClaim (s : State) : State :=
  if s.base == .single && !s.pair.holdsSeq then
    let top := (idxs 96 s.ready).foldl (fun a l => max a (s.rd (JL_ACC_CLAIM l) / 256)) 0
    (({ s with pair := { s.pair with holdsSeq := true } }).setClaim (min (top + 1) 0xFFFFFF) 32).claimHbs
  else s

/-- Whether another unit is feeding a READY head lane (R386). -/
def State.fedElsewhere (s : State) : Bool :=
  s.base == .single && !s.pair.holdsSeq && (idxs 96 s.ready).any fun l => (s.laneSt l).bufFill != 0

/-- A bar whose segments fail R147: cause and segment latched beside the UNCOVERED of the last start that passed (log 53). -/
def State.geomRefuse (s : State) (b cause seg : Nat) : State :=
  (s.wrCopy (SC_BAR_GEOM b) (s.get (SC_BAR_GEOM_UNCOVERED b) + cause * 2 ^ 17 + seg * 2 ^ 19)).raise 0x3406 b 0 0

/-- JOB_START commits: the conditions of R42, R147, R386, R465 and PG_PAGE_LINES, then the job is started. -/
def State.jobStart (body : List Nat) (s : State) : Ans × State :=
  match s.jobOf (body.getD 0 0) with
  | none => (.value 0, s)
  | some j =>
    if j.cancelled then (.of stBadState 0, s)
    else if j.started then (.ok, s)
    else if !s.is MC_STAT_PRINT_RATE || !s.is PG_PAGE_LINES_PAGE_LINES || s.fedElsewhere ||
        (barsOf j.bars).any (s.bitOf PW_GATE_BARS) then (.of stBadState 0, s)
    else
      let bad := (barsOf j.bars).filterMap fun b => (s.geomCheck b).map fun g => (b, g)
      if bad.isEmpty then (.ok, (s.jobPut { j with started := true }).firstClaim)
      else (.value 0, s.each bad fun s g => s.geomRefuse g.1 g.2.1 g.2.2)

/-- A job with nothing left to check or print ends (R48, R108, R110). -/
def State.jobEnds (s : State) (j : Job) : Bool :=
  (j.started || j.cancelled) && !s.jobGoesOn j &&
    s.scan.runs.all fun r => !(j.started && r.ord == j.order) || r.done

/-- Ended jobs free their entries (R48). -/
def State.jobsEnd (s : State) : State :=
  s.each (s.scan.jobs.filter s.jobEnds) fun s j => (s.objPut (jobWin j.slot) [j.id, j.w1, j.w2, j.w3, 0]).jobApply j.slot

/-- JOB_CLOSE commits (R423). -/
def State.jobClose (body : List Nat) (s : State) : Ans × State :=
  match s.jobOf (body.getD 0 0) with
  | none => (.value 0, s)
  | some j =>
    if j.cancelled || j.pageCount != 0 then (.of stBadState 0, s)
    else if j.closed then (.ok, s)
    else
      let j := { j with closed := true }
      (.ok, ((s.jobPut j).pageBeyond j).jobsEnd)

/-- JOB_CANCEL commits (R110). -/
def State.jobCancel (body : List Nat) (s : State) : Ans × State :=
  match s.jobOf (body.getD 0 0) with
  | none => (.value 0, s)
  | some j =>
    if j.cancelled then (.ok, s)
    else
      let waits := s.is PG_JOB_STAT_DRAINING && (s.nextJob.map (·.slot)) == some j.slot
      let s := if waits then s.flag PG_JOB_STAT_DRAINING false else s
      (.ok, ((s.jobPut { j with cancelled := true }).pageUnplace (·.job == j.slot)).jobsEnd)

/-! The GAP commit (R115–R120) -/

/-- The apply-at page of a GAP commit: the target, else the first page of a started job still to be checked (R116). -/
def State.applyAt (s : State) : Option (Nat × Nat) :=
  if s.is PG_CMT_TARGET_EN then some (s.get PG_CMT_TARGET_JOB_SLOT, s.get PG_CMT_TARGET_PAGE)
  else
    let first := (s.scan.jobs.filter fun j => j.started && s.jobGoesOn j).foldl (fun (r : Option Job) j => match r with
      | none => some j
      | some k => if j.order < k.order then some j else some k) none
    first.map fun j => (j.slot, s.nextPageNum j)

/-- The jobs whose settings a commit's checks use (R120). -/
def State.commitJobs (s : State) (at_ : Option (Nat × Nat)) : List Job :=
  s.scan.jobs.filter fun j => !j.cancelled && (match at_ with
    | none => true
    | some (slot, _) => match s.jobAt slot with
      | some k => j.slot == slot || j.isAfter k
      | none => true)

/-- The admitted pages not yet checked from the apply-at page on (R120). -/
def State.commitPages (s : State) (at_ : Option (Nat × Nat)) : List (Job × Page) :=
  (s.scan.jobs.filter (!·.cancelled)).flatMap fun j => (j.pages.filter fun p => p.adm == .admitted && !p.checked &&
    (match at_ with
     | none => true
     | some (slot, page) => s.reaches slot (s.idAt slot) page j p.num)).map fun p => (j, p)

/-- The first layer of a set for which a condition holds. -/
def layerWhere (g : GapSet) (p : Layer → Bool) : Option Nat := (List.range 8).find? fun n => p (layerOf g n)

/-- BOUNDS of R120. -/
def gapBounds (g : GapSet) : Option Nat :=
  let lines := gapGet g PG_PAGE_LINES_PAGE_LINES
  if lines = 0 then some 0
  else layerWhere g fun l => l.enable && (l.w == 0 || l.h == 0 || decide (94488 < l.x + l.w) || decide (lines < l.y + l.h))

/-- ALIGN of R120 for a job. -/
def gapAlign (g : GapSet) (j : Job) : Option Nat :=
  layerWhere g fun l => (j.gridX == 1 && (l.x % 2 == 1 || l.w % 2 == 1)) || (j.gridY == 1 && (l.y % 2 == 1 || l.h % 2 == 1))

/-- Samples of line buffer a layer's scaler needs per plane (R128). -/
def Layer.buffer (l : Layer) (gridX : Nat) : Nat :=
  if l.format = 3 ∨ l.sx = 0 ∨ l.sy ≤ 1 then 0 else (if l.linear then 2 else 1) * l.srcW gridX

/-- BUFFER of R120 for a job. -/
def gapBuffer (g : GapSet) (j : Job) : Option Nat := layerWhere g fun l => decide (16384 < l.buffer j.gridX)

/-- ENCODING of R120. -/
def gapEncoding (g : GapSet) : Option Nat :=
  if gapGet g PG_PROOF_MODE = 3 then some 0
  else layerWhere g fun l => l.blend == 3 || l.policy == 3 || l.sx == 0 || l.sy == 0 || (l.enable && l.planes == 0) ||
    (l.format == 1 && l.linear) || (l.format == 3 && l.varying) || (l.varying && l.policy == 2)

/-- GEOMETRY of R120 for an admitted page. -/
def State.gapGeometry (s : State) (g : GapSet) (j : Job) (p : Page) : Option Nat :=
  layerWhere g fun l => l.enable && (match s.refSurf (p.refs.getD l.n noRef) with
    | some f => !s.refFits l j f
    | none => false)

/-- Whether the named target has already been checked (R116); a target slot without a job counts as checked (log 53). -/
def State.targetLate (s : State) (at_ : Option (Nat × Nat)) : Bool :=
  s.is PG_CMT_TARGET_EN && (match at_ with
    | some (slot, page) => match s.jobAt slot with
      | some j => decide (page < s.nextPageNum j)
      | none => true
    | none => false)

/-- The first failing check of a GAP commit, in the table's order: REJ_CAUSE and layer (R120). -/
def State.gapReject (s : State) (g : GapSet) (at_ : Option (Nat × Nat)) : Option (Nat × Nat) :=
  let jobs := s.commitJobs at_
  let pages := s.commitPages at_
  let first (cause : Nat) (r : Option Nat) : Option (Nat × Nat) := r.map fun n => (cause, n)
  (first 1 (gapBounds g)) <|> (first 2 (jobs.findSome? (gapAlign g))) <|> (first 3 (jobs.findSome? (gapBuffer g))) <|>
    (first 4 (gapEncoding g)) <|> (first 5 (pages.findSome? fun p => s.gapGeometry g p.1 p.2)) <|>
    (first 6 (if pages.any fun p => s.admTry g p.1 p.2 != 0 then some 0 else none)) <|>
    (first 7 (if s.targetLate at_ then some 0 else none))

/-- GAP_PENDING in both registers. -/
def State.gapFlag (s : State) (b : Bool) : State := (s.flag PG_CMT_STAT_GAP_PENDING b).flag GL_CMT_STAT_GAP_PENDING b

/-- The sensitivity matrix of a set (R333). -/
def sensOf (g : GapSet) : List Nat := (List.range 16).map fun i => gapWord g (BY_SENS (i / 4) (i % 4))

/-- A GAP set becomes live (R116): a layer whose VARYING becomes 0 loses its signature (R138); a changed sensitivity
matrix starts a generation (R333). -/
def State.gapLive (s : State) (g : GapSet) : State :=
  let s := if sensOf s.liveGap = sensOf g then s else { s with beryl := { s.beryl with gen := s.beryl.gen + 1 } }
  let clear := (List.range 8).filter fun n => s.is (LY_CTRL_VARYING n) && gapGet g (LY_CTRL_VARYING n) == 0
  let s := s.each g fun s w => s.wr w.1 w.2
  s.each clear fun s n => s.wr (LY_SIG n) 0

/-- A GAP set taken at its commit, in either unit: live at once, or pending for its apply-at page. -/
def State.gapTake (s : State) (g : GapSet) (at_ : Option (Nat × Nat)) : State :=
  match at_ with
  | none => s.gapLive g
  | some (slot, page) => ({ s with scan := { s.scan with pendingGap := some ⟨g, slot, s.idAt slot, page⟩ } }).gapFlag true

/-- PG_CMT_APPLY for an apply-at page. -/
def applyWord (at_ : Option (Nat × Nat)) : Nat := match at_ with
  | some (slot, page) => slot + page % 2 ^ 24 * 64
  | none => 2 ^ 30

/-- GAP_COMMIT of a unit that decides (R115–R120, R523). -/
def State.gapCommit (s : State) : Nat × State :=
  if s.scan.pendingGap.isSome || s.is PG_CMT_STAT_GAP_PENDING || s.scan.gapTick == some s.tick then
    (stBusy, s.put GL_CMT_STAT_GAP_LAST stBusy)
  else
    let g := s.shadowGap
    let at_ := s.applyAt
    match s.gapReject g at_ with
    | some (cause, layer) =>
      let s := (s.rejectLatch cause layer ((at_.map fun a => packPage a.1 a.2).getD 0)).flag PG_EVT_STAT_COMMIT_REJ true
      (stRejected, (s.put GL_CMT_STAT_GAP_LAST stRejected).flag PG_CMT_TARGET_EN false)
    | none =>
      let s := (s.wrCopy PG_CMT_APPLY (applyWord at_)).flag PG_CMT_TARGET_EN false
      let s := (s.gapTake g at_).put GL_CMT_STAT_GAP_LAST stOk
      (stOk, { s with scan := { s.scan with gapTick := some s.tick } })

/-- What a refused GAP commit leaves behind once the rest of its command is undone (R120, R523): the outcome, the latched
cause with its event, and the target's EN. `pre` is the state in which the commit was refused. -/
def State.gapRefused (orig pre : State) (status : Nat) : State :=
  let s := orig.put GL_CMT_STAT_GAP_LAST status
  if status = stRejected then
    let at_ := pre.applyAt
    let r := (pre.gapReject pre.shadowGap at_).getD (0, 0)
    ((s.rejectLatch r.1 r.2 ((at_.map fun a => packPage a.1 a.2).getD 0)).flag PG_EVT_STAT_COMMIT_REJ true).flag
      PG_CMT_TARGET_EN false
  else s

/-- A GAP commit as the copy's PG_CMT_APPLY write brings it to a standby: the shadows as they stand (R116, R523). -/
def State.gapFollow (s : State) : State :=
  let at_ := if s.is PG_CMT_APPLY_IMMEDIATE then none
    else some (s.get PG_CMT_APPLY_JOB_SLOT, s.get PG_CMT_APPLY_PAGE)
  ((s.gapTake s.shadowGap at_).put GL_CMT_STAT_GAP_LAST stOk).flag PG_CMT_TARGET_EN false

/-! The TICK commit (R118, R119) -/

/-- The registers of a camera context in the order a context adopts them (R321). -/
def camCtxAddrs (n : Nat) : List Nat :=
  [CM_CTX_CFG n, CM_CTX_GEOM n, CM_CTX_RATE n, CM_CTX_LAT n, CM_CTX_OFS n, CM_CTX_BLACK01 n, CM_CTX_BLACK23 n] ++
    (List.range 6).map (CM_CTX_M n) ++ [CM_CTX_MAP_X n, CM_CTX_MAP_P0 n, CM_CTX_MAP_PX n, CM_CTX_MAP_P2 n]

/-- A clamped registration target of a bar reported (R198). -/
def State.regClampSee (s : State) (b : Nat) : State :=
  let sum := s.sget (WP_BAR_REG_HOST_REG b) + s.sget (WP_BAR_REG_AUTO_REG b)
  if sum = regTarget (s.sget (WP_BAR_REG_HOST_REG b)) (s.sget (WP_BAR_REG_AUTO_REG b)) then s else s.raise 0x210B b 0 0

/-! The printing job at the reference bar (R113, R114) -/

/-- The bar GAP_START and LINE_MATCH refer to for a page (R114). -/
def State.refBar (s : State) (r : PageRun) : Nat :=
  let b := s.get PG_EVT_CFG_REF_BAR
  if bit r.barMask b then b else (r.bars.head?).getD 0

/-- The first checked page not yet at PAGE_DONE. -/
def State.curRun (s : State) : Option PageRun := s.scan.runs.find? (!·.done)

/-- REF_SUBST as the printing job's BARS and REF_BAR stand (R114). -/
def State.refShow (s : State) : State :=
  s.flag PG_EVT_STAT_REF_SUBST ((s.curRun.map fun r => !bit r.barMask (s.get PG_EVT_CFG_REF_BAR)).getD false)

/-- PG_JOB_STAT of the printing job, and REF_SUBST (R114). -/
def State.jobShow (s : State) : State :=
  match s.curRun with
  | none => (s.flag PG_JOB_STAT_RUNNING false).refShow
  | some r =>
    let s := (s.put ⟨PG_JOB_STAT, 4, 0⟩ (r.pitchDiv + r.gridX * 4 + r.gridY * 8 + b2n r.upsample * 16)).flag PG_JOB_STAT_RUNNING true
    (s.put PG_JOB_STAT_JOB_SLOT r.job).refShow

/-- The TICK-domain shadows become live; WP_PRED and REG_HOST keep their old values for the lines before the apply-at
lines, and the tick's copy carries those lines (R119, R381); changed camera contexts set the unprinted web afresh (R334). -/
def State.tickTake (s : State) : State :=
  let before := s
  let s := s.each tickAddrs fun s a => s.wr a (s.rdSh a)
  let pred := before.rd WP_PRED != s.rd WP_PRED
  let host := (List.range 8).any fun b => before.rd (WP_BAR_REG_HOST b) != s.rd (WP_BAR_REG_HOST b)
  let lines := before.applyLines
  let s := if pred then s.holdOld lines (·.pred) (fun x l => { x with pred := l }) fun _ => before.rd WP_PRED else s
  let s := if host then s.holdOld lines (·.regHost) (fun x l => { x with regHost := l }) fun b => before.rd (WP_BAR_REG_HOST b)
    else s
  let s := if pred || host then s.copyLines lines else s
  let s := s.each (idxs 8 fun b => before.rd (WP_BAR_REG_HOST b) != s.rd (WP_BAR_REG_HOST b)) fun s b => s.regClampSee b
  let cams := (List.range 16).any fun n => (camCtxAddrs n).any fun a => before.rd a != s.rd a
  let s := s.each (idxs 16 fun n => s.is (CM_CTX_CFG_EN n) && !before.is (CM_CTX_CFG_EN n)) fun s n =>
    { s with cam := { s.cam with ctxs := modAt s.cam.ctxs n fun x => { x with edges := 0 } } }
  let anew (w : WhiteCol) : WhiteCol := { w with anew := true }
  let s := if cams then { s with beryl := { s.beryl with whites := s.beryl.whites.map anew } } else s
  ((s.encoOrigin before).refShow).put GL_CMT_STAT_TICK_LAST stOk

/-- TICK_COMMIT of a unit that decides (R118, R313). -/
def State.tickCommit (s : State) : Nat × State := if s.camReject.isSome then (stRejected, s) else (stOk, s.tickTake)

/-- What a refused GAP or TICK commit leaves behind once the rest of its command is undone (R313, R523). -/
def State.cmtRefused (orig pre : State) (gap : Bool) (status : Nat) : State :=
  if gap && (pre.gapCommit).1 != stOk then orig.gapRefused pre status
  else
    let s := orig.put GL_CMT_STAT_TICK_LAST stRejected
    match pre.camReject with
    | some r => s.camRefused r
    | none => s

/-! Register writes of the GL, PG and LY blocks -/

/-- What a write to GL_CMT_CTRL sets off where this unit decides (R523): GAP is committed first. -/
def actGl (a mask val : Nat) (_before s : State) : Nat × State :=
  let w := mask &&& val
  if a = GL_CMT_CTRL then
    let r := if bit w 0 then s.gapCommit else (stOk, s)
    if r.1 != stOk then r
    else if bit w 1 then r.2.tickCommit else r
  else (stOk, s)

/-- Limits of the PG_ registers. -/
def limitPg (_ : State) (a new _mask : Nat) : Verdict :=
  if a = PG_ADM_LIMIT then rangeUnless (decide (bits new 15 0 ≤ 5120) && decide (bits new 31 16 ≤ 3200))
  else if a = PG_SPDREQ_CTRL then rangeUnless (decide (20 ≤ bits new 23 16))
  else none

/-! SPEED_REQ (R75–R77) -/

/-- VMAX of the running job in pu/µs. -/
def State.vmax (s : State) : Option Rat := s.running.map fun j => (j.vmax : Rat) * 64 / 1000

/-- Whether the conditions of R76 hold. -/
def State.spdCalm (s : State) : Bool :=
  s.scan.slackLow.isEmpty && !s.is PG_SPDREQ_STAT_THERMAL && (match s.vmax with
    | some v => decide (s.web.speed ≤ v * (1 - (s.get PG_SPDREQ_CTRL_HYST_PM : Rat) / 1000))
    | none => true)

/-- Since when R76's conditions hold together. -/
def State.calmShow (s : State) : State :=
  { s with scan := { s.scan with calm := if s.spdCalm then s.scan.calm.or (some s.now) else none } }

/-- Whether R76's conditions have held together for 10 ms. -/
def State.calmLong (s : State) : Bool :=
  s.spdCalm && (s.scan.calm.map fun a => s.past a 10000000).getD false

/-- SPEED_REQ as its reasons stand (R77): a rise is counted and reported at once; a fall comes only once R76's conditions have
held for 10 ms, and is reported (R76, R78). -/
def State.spdShow (s : State) : State :=
  let why := s.get ⟨PG_SPDREQ_STAT, 4, 1⟩
  if why != 0 && !s.is PG_SPDREQ_STAT_PIN then
    ((s.flag PG_SPDREQ_STAT_PIN true).inc PG_SPDREQ_STAT_ASSERT_CNT).raise 0x3104 why 0 0
  else if why == 0 && s.is PG_SPDREQ_STAT_PIN && s.calmLong then (s.flag PG_SPDREQ_STAT_PIN false).raise 0x3105 0 0 0
  else s

/-- FORCE shows and drives SPEED_REQ at once (R77); a changed HYST_PM is judged from the write on (R76). -/
def actPg (a _mask _val : Nat) (_before s : State) : Nat × State :=
  if a = PG_SPDREQ_CTRL then (stOk, (s.flag PG_SPDREQ_STAT_FORCED (s.is PG_SPDREQ_CTRL_FORCE)).calmShow.spdShow)
  else (stOk, s)

end Sys2Proof.Machine
end

