-- ==== Sys2Proof/Machine/Scan.lean ====
section
/-! DEFINITION. Scan-out (spec/04): where the next page starts (R105–R108, R131), readiness checks (R129–R133), the
scan-out events (R113, R114), SPEED_REQ (R75–R77), and the web commands that move lines. -/

namespace Sys2Proof.Machine

/-- A register field written by the unit's own authoritative logic, with its WRITE entry. -/
def State.putCopy (s : State) (f : Fld) (v : Nat) : State := s.wrCopy f.addr (setBits (s.rd f.addr) f.hi f.lo v)

/-! The page at the reference bar -/

/-- The smallest number below 2^k for which a monotone test holds, counted from `lo`; the top when none does. -/
def firstWhere (p : Nat → Bool) : Nat → Nat → Nat
  | 0, lo => lo
  | k + 1, lo => if p (lo + 2 ^ k - 1) then firstWhere p k lo else firstWhere p k (lo + 2 ^ k)

/-- Whether Q has reached a line's fire position at a bar (R113): the position the line has kept since its composition
(R199); a line composed whose position is no longer kept has been passed. -/
def State.fired (s : State) (r : PageRun) (line b : Nat) : Bool :=
  let x := s.screenBar b
  let composed := match x.lastLine with
    | some (o, l) => decide (r.ord < o) || (r.ord == o && decide (line ≤ l))
    | none => false
  match x.fps.find? fun f => f.1 == r.ord && f.2.1 == line with
  | some f => decide ((f.2.2 : Rat) ≤ s.qInterp)
  | none => composed || decide ((s.lineFp r line b : Rat) ≤ s.qInterp)

/-- PG_CUR_PAGE and PG_CUR_LINE brought up to date: the line last fired at the reference bar. -/
def State.curShow (s : State) : State :=
  match s.scan.runs.foldl (fun r x => if s.fired x x.firstLine (s.refBar x) then some x else r) (none : Option PageRun) with
  | none => s
  | some r =>
    let b := s.refBar r
    let n := firstWhere (fun k => !s.fired r (r.firstLine + k + 1) b) 24 0
    let line := match s.lineLimit r with
      | some e => min (r.firstLine + n) (e - 1)
      | none => r.firstLine + n
    let s := { s with scan := { s.scan with cur := some (r.ord, r.page) } }
    (s.wr PG_CUR_PAGE (r.job + r.page % 2 ^ 24 * 64 + b2n (!r.inPage line) * 2 ^ 30)).wr PG_CUR_LINE line

/-! Placing the next page (R105–R108, R196) -/

/-- The start a next page has at a line of its grid. -/
def NextPage.at_ (n : NextPage) (g : Nat) : Int := n.anchorPos + offPu n.pitchDiv ((g : Int) - n.anchorLine)

/-- Its line 0's job line number: 0 on a job's first page (R105). -/
def NextPage.firstLine (n : NextPage) : Nat := if n.page = 0 then 0 else n.gridLine

/-- The bar of a job that reaches a line first. -/
def State.leadBar (s : State) (j : Job) : Nat := (s.nearBar (barsOf j.bars)).getD 0

/-- Fire time of line 0 started at a position, and the lead in force for it there, in ns (R107). -/
def State.f0 (s : State) (j : Job) (n : NextPage) (start : Int) : Nat × Nat :=
  let b := s.leadBar j
  let w := s.predFor b n.ord n.firstLine
  (s.predict (start + s.barOfs b + s.sget (WP_BAR_REG_EFF_REG b)) w, leadNs w)

/-- Q predicted `d` ns ahead (R196); Q itself at standstill. -/
def State.qAhead (s : State) (d : Nat) (pred : Nat) : Rat :=
  if s.webGoes then
    let us : Rat := (d : Rat) / 1000
    let a : Rat := if bit pred 16 then s.web.acc / 1000 else 0
    s.qInterp + max 0 (s.web.speed * us + a * us * us / 2)
  else s.qInterp

/-- A next page following a checked one under R106; the settings in force on the page before it say how it starts
(log 53). -/
def nextAfter (r : PageRun) (j : Job) (page : Nat) : NextPage :=
  let s0 := r.start + offPu r.pitchDiv ((r.minEnd : Int) - r.firstLine)
  { job := j.slot, ord := j.order, page := page, anchorLine := r.firstLine, anchorPos := r.start, gridLine := r.minEnd
    pitchDiv := r.pitchDiv, mark := r.mark, probe := gapGet r.set PG_GAP_MARK_PRB
    ofs := sgn 32 (gapGet r.set PG_MARK_OFS_OFS), earliest := s0
    start := if r.mark then none else some s0, held := false, delays := List.replicate 8 0, lookAt := 0, fallen := [] }

/-- The least start whose line 0, of a job line number, fires lead + 750 µs from now at the job's first bar (R108, R131,
R196). -/
def State.leastStart (s : State) (j : Job) (line : Nat) : Int :=
  let b := s.leadBar j
  let w := s.predFor b j.order line
  (s.qAhead (leadNs w + 750000) w - s.barOfs b).ceil

/-- A next page of a job that starts after an empty queue or a drain (R108, R196), no earlier than a position. -/
def State.nextFresh (s : State) (j : Job) (least : Option Int) : NextPage :=
  let p := s.leastStart j 0
  let p := match least with
    | some x => max x p
    | none => p
  let g := s.gapFor j 0
  let mark : Bool := gapGet g PG_GAP_START_MODE == 1
  let ofs := sgn 32 (gapGet g PG_MARK_OFS_OFS)
  { job := j.slot, ord := j.order, page := 0, anchorLine := 0, anchorPos := p, gridLine := 0, pitchDiv := j.pitchDiv
    mark := mark, probe := gapGet g PG_GAP_MARK_PRB, ofs := ofs, earliest := (least.map (· - ofs)).getD s.qPu
    start := if mark then none else some p, held := false, delays := List.replicate 8 0, lookAt := 0, fallen := [] }

/-- Whether a job may start back to back with the page before it (R108). -/
def sameGrid (r : PageRun) (j : Job) : Bool := r.w1 &&& 0x60003 == j.w1 &&& 0x60003

/-- Least start after a drain: its line 0 fires at the job's first bar GAP_LINES line pitches of web after the last line has
fired at the last bar (R108, R196). -/
def State.drained (s : State) (r : PageRun) (j : Job) : Int :=
  let b := s.leadBar j
  r.lastFp + offPu r.pitchDiv r.gapLines - s.barOfs b - s.sget (WP_BAR_REG_EFF_REG b)

/-- The next page placed where none is: after the page before it, back to back, after a drain, or ahead of the web. A job of
the same grid that starts once the page before it is done starts ahead of the web as well (log 53). -/
def State.placeNext (s : State) : State :=
  let put (s : State) (n : NextPage) : State :=
    ({ s with scan := { s.scan with nextPage := some n } }).flag PG_JOB_STAT_DRAINING false
  match s.scan.nextPage, s.nextJob with
  | none, some j =>
    match s.scan.runs.getLast? with
    | none => put s (s.nextFresh j none)
    | some r =>
      if r.ord = j.order then put s (nextAfter r j (r.page + 1))
      else if !r.done then
        (if sameGrid r j then put s (nextAfter r j 0) else s.flag PG_JOB_STAT_DRAINING true)
      else if s.scan.emptied || sameGrid r j then put s (s.nextFresh j none)
      else put s (s.nextFresh j (some (s.drained r j)))
  | _, _ => s

/-- The bars have drained and the waiting job's first page is placed (R108). -/
def execJobDrainDone (t : Nat) (s : State) : Host.Outcome State Fault Refusal :=
  run t (fun s =>
    if s.authoritative && s.is PG_JOB_STAT_DRAINING && s.scan.runs.all (·.done) then s.placeNext else s) s

/-! Marks (R106, R107) -/

/-- The web length of a page from a start, waste-marked under the PAGE cause (R107, R129, R131). -/
def State.wastePage (s : State) (start : Int) (pitchDiv lines : Nat) : State :=
  s.wasteCopy 4 start (start + offPu pitchDiv lines)

/-- A late mark: counted, its length waste-marked, 0x3308 (R107). -/
def State.markLate (s : State) (n : NextPage) (lines : Nat) (start : Int) : State :=
  let s := (s.inc PG_MARK_STAT_LATE).flag PG_EVT_STAT_MARK_LATE true
  (s.wastePage start n.pitchDiv lines).raise 0x3308 n.probe (unsgn 32 (start - n.ofs)) 0

/-- A mark judged for the page that waits for it: too early, late, or the page's start. -/
def State.markJudge (s : State) (n : NextPage) (j : Job) (m : Nat × Int × Nat) : State :=
  let start := m.2.1 + n.ofs
  let pitches := (start - n.anchorPos) * 3 / ((4064 * (n.pitchDiv + 1) : Nat) : Int)
  let n' := { n with start := some start, gridLine := n.anchorLine + pitches.toNat }
  let f := s.f0 j n' start
  if m.2.1 < n.earliest then s.inc PG_MARK_STAT_EARLY
  else if f.1 < m.2.2 + f.2 + 750000 then s.markLate n (gapGet (s.gapFor j n.page) PG_PAGE_LINES_PAGE_LINES) start
  else { s with scan := { s.scan with nextPage := some n' } }

/-- The marks that wait judged in order; a mark that comes while a held page has not been found ready starts nothing. -/
def State.marksTake (s : State) : Nat → State
  | 0 => s
  | k + 1 =>
    match s.scan.marks with
    | [] => s
    | m :: rest =>
      let drop (s : State) : State := { s with scan := { s.scan with marks := rest } }
      match s.scan.nextPage with
      | none => if s.scan.runs.any (!·.done) then s else (drop s).marksTake k
      | some n =>
        if !n.mark || m.1 != n.probe || n.held then (drop s).marksTake k
        else if n.start.isSome then s
        else match s.jobAt n.job with
          | some j => ((drop s).markJudge n j m).marksTake k
          | none => (drop s).marksTake k

/-- Every mark that can be judged now, on a unit that decides. -/
def State.marksSettle (s : State) : State := if s.authoritative then s.marksTake (s.scan.marks.length + 1) else s

/-! Readiness (R129–R133) -/

/-- Whether a layer is ready for a page (R130). -/
def State.layerReady (s : State) (l : Layer) (ref : Nat) : Bool :=
  match s.refSurf ref with
  | none => l.format == 3
  | some f => l.format == 3 || ((List.range (bodySlots f.body)).all fun k => (f.slot k).state == stHeld) &&
      (!l.varying || s.scan.prevUses.getD l.n noRef != ref)

/-- Lines by which a layer's hold has delayed a next page (R132). -/
def NextPage.delay (n : NextPage) (layer : Nat) : Nat :=
  ((n.delays.getD layer 0) * 3 + 2 * (n.pitchDiv + 1)).toNat / (4064 * (n.pitchDiv + 1))

/-- A further delay put to the account of the layers that hold; those whose hold has run out are remembered (R132). -/
def NextPage.delayed (n : NextPage) (g : GapSet) (acts : List Nat) (by_ : Int) : NextPage :=
  { n with
    delays := (n.delays.zip acts).map fun d => if d.2 = 1 then d.1 + by_ else d.1
    fallen := (List.range 8).filter fun k => n.fallen.contains k || ((layerOf g k).policy == 0 && acts.getD k 0 == 2) }

/-- The action of a layer that is not ready: 1 HOLD, 2 BLANK, 3 REPEAT; and whether a hold has just run out, which is told once
(R131, R132, R138). -/
def State.layerAction (s : State) (n : NextPage) (variable_ : Bool) (l : Layer) : Nat × Bool :=
  match l.policy with
  | 0 =>
    let frozen := s.is (LY_STAT_FROZEN l.n)
    let out := !frozen && l.holdMax != 0 && decide (l.holdMax ≤ n.delay l.n)
    if !variable_ then (2, false) else if out then (2, !n.fallen.contains l.n) else (1, false)
  | 2 =>
    let prev := s.scan.prevUses.getD l.n noRef
    let ok := match s.refSurf prev with
      | none => false
      | some f => (List.range (bodySlots f.body)).all fun k => (f.slot k).state == stHeld
    (if ok then 3 else 2, false)
  | _ => (2, false)

/-- The decision on one layer at a check: shown, counted and reported where it is not ready (R130). A FROZEN layer under HOLD
holds every page until a write clears FROZEN (R138): it counts as not ready whatever its slots are, and so, where HOLD acts as
BLANK, its pages are blanked and waste-marked (log 60, DESIGN CHOICE). -/
def State.layerCheck (s : State) (n : NextPage) (variable_ : Bool) (l : Layer) (ref : Nat) : Nat × State :=
  let used := l.enable && (ref != noRef || l.format == 3)
  let frozen := l.policy == 0 && s.is (LY_STAT_FROZEN l.n)
  if (!used || s.layerReady l ref) && !frozen then
    (0, if used then s.putCopy (LY_STAT_READY l.n) 1 else s)
  else
    let a := s.layerAction n variable_ l
    let s := (s.putCopy (LY_STAT_READY l.n) 0).putCopy (LY_STAT_LAST_ACTION l.n) a.1
    let s := s.putCopy (LY_CNT_NOT_READY l.n) (s.get (LY_CNT_NOT_READY l.n) + 1)
    let s := (s.flag PG_EVT_STAT_NOT_READY true).raise 0x3305 l.n (packPage n.job n.page) a.1
    (a.1, if a.2 then s.raise 0x330B l.n (packPage n.job n.page) 0 else s)

/-- The actions of all layers at a check. -/
def State.layersCheck (s : State) (n : NextPage) (variable_ : Bool) (g : GapSet) (p : Page) : List Nat × State :=
  (List.range 8).foldl (fun (a : List Nat × State) k =>
    let r := a.2.layerCheck n variable_ (layerOf g k) (p.refs.getD k noRef)
    (a.1 ++ [r.1], r.2)) ([], s)

/-- The actions of a page as the copy carries them. -/
def actWord (acts : List Nat) : Nat := acts.zipIdx.foldl (fun w a => w + a.1 * 4 ^ a.2) 0

/-- The outcome of a check: SUSPENDED lasts while it is "not printable" (R133), and the PAGE entry (R381). -/
def State.pageEntry (s : State) (n : NextPage) (acts : List Nat) (held notPrintable : Bool) : State :=
  (s.flag PG_JOB_STAT_SUSPENDED notPrintable).copy 4 ([packPage n.job n.page, n.firstLine] ++ posWords (n.start.getD 0) ++
    [actWord acts, b2n held + 2 * b2n notPrintable])

/-- The generation each layer uses on a page under its actions; a page entry's layers that contribute nothing use none. -/
def State.usesOf (s : State) (g : GapSet) (refs acts : List Nat) : List Nat :=
  (List.range 8).map fun n =>
    let l := layerOf g n
    let act := acts.getD n 0
    if !l.enable || l.format == 3 || act == 1 || act == 2 then noRef
    else if act == 3 then s.scan.prevUses.getD n noRef
    else refs.getD n noRef

/-- A page fixed at its check (R116, R129), in either unit: the pending set it reaches becomes live, the page before it
ends where it begins, its lanes leave L1 and L2, and its composition may follow. `acts` all BLANK stands for a page
that passes unprinted. -/
def State.fixPage (s : State) (j : Job) (page firstLine : Nat) (start : Int) (acts : List Nat) : State :=
  let s := match s.scan.pendingGap with
    | some g => if s.reaches g.job g.id g.page j page then
        (({ s with scan := { s.scan with pendingGap := none } }).gapLive g.set).gapFlag false else s
    | none => s
  let set := s.liveGap
  let refs := ((j.page page).map (·.refs)).getD (List.replicate 8 noRef)
  let uses := s.usesOf set refs acts
  let close (r : PageRun) : PageRun :=
    if r.endLine.isSome then r
    else if r.ord = j.order then { r with endLine := some firstLine } else { r with endLine := some r.minEnd }
  let run : PageRun :=
    { job := j.slot, ord := j.order, jobId := j.id, w1 := j.w1, page := page, set := set, firstLine := firstLine
      start := start, lines := gapGet set PG_PAGE_LINES_PAGE_LINES, checkTick := s.tick, uses := uses, actions := acts
      before := s.scan.prevUses, lastFp := start + offPu j.pitchDiv ((gapGet set PG_PAGE_LINES_PAGE_LINES : Int) - 1) +
        ((s.farBar (barsOf j.bars)).map s.barOfs).getD 0
      strips := none, underruns := [], gapStarted := false, matched := false, done := false, endLine := none, sigs := []
      proofOff := none, proofBad := false, compared := false, sensGen := s.beryl.gen }
  let skipped := acts.all (· == 2)
  let s := { s with scan := { s.scan with
    runs := s.scan.runs.map close ++ [run], nextPage := none, emptied := false
    prevUses := if skipped then s.scan.prevUses else uses } }
  let s := s.modPage j.slot page fun p => { p with checked := true }
  let wait (f : Surface) : Surface :=
    if gapGet set PG_PROOF_MODE = 2 && refs.contains (packGen f.id f.gen) then { f with waits := f.waits ++ [(j.order, page)] }
    else f
  let s := { s with ingest := { s.ingest with surfs := s.ingest.surfs.map wait } }
  let s := s.each (List.range 8) fun s n =>
    let u := uses.getD n noRef
    if u = noRef then s else s.wr (LY_SRC n) (u / 65536 + u % 65536 * 65536)
  (s.lanesExit run.bars).jobShow

/-- An admitted page admitted again (R74). -/
def State.admitAgain (s : State) (slot page : Nat) : State :=
  match s.jobAt slot, (s.jobAt slot).bind (·.page page) with
  | some j, some p =>
    if p.adm == .admitted then
      let r := s.letIn (s.gapFor j p.num) j p []
      if r.1 = 0 then r.2 else r.2.pageRefused slot p.num r.1
    else s
  | _, _ => s

/-- The page after one admitted again where a REPEAT has changed what that one uses (R74): the next of its job, or, after
the job's last, the first of every job that follows it. -/
def State.readmit (s : State) (slot page : Nat) : State :=
  match s.jobAt slot with
  | none => s
  | some j =>
    if j.total = some (page + 1) then
      s.each ((s.scan.jobs.filter fun k => (s.prevJob k).map (·.slot) == some slot).map (·.slot)) fun s k => s.admitAgain k 0
    else s.admitAgain slot (page + 1)

/-- A page that passes unprinted, waste-marked whole: late (R129), or not printable (R133). -/
def State.passUnprinted (s : State) (n : NextPage) (j : Job) (start : Int) (notPrintable : Bool) : State :=
  let acts := List.replicate 8 2
  let lines := gapGet (s.gapFor j n.page) PG_PAGE_LINES_PAGE_LINES
  ((s.pageEntry n acts false notPrintable).wastePage start j.pitchDiv lines).fixPage j n.page n.firstLine start acts

/-- The layers' settings on a next page. -/
def State.nextSet (s : State) (n : NextPage) (j : Job) : GapSet := s.gapFor j n.page

/-- A page moved on (R129, R131, R133): in CONT to the first line far enough ahead, in MARK to the next mark. The layers that
hold it, if any do, have delayed it by that (R132). -/
def State.holdPage (s : State) (n : NextPage) (j : Job) (acts : List Nat) (notPrintable : Bool) : State :=
  let t := s.tick * 250000
  let n' : NextPage :=
    if n.mark then
      let at_ := s.leastStart j n.firstLine
      { n.delayed (s.nextSet n j) acts (max 0 (at_ - n.start.getD at_)) with start := none, held := true, lookAt := at_ }
    else
      let ok (g : Nat) : Bool :=
        let m := { n with gridLine := n.gridLine + g }
        let f := s.f0 j m (m.at_ m.gridLine)
        decide (t + f.2 + 750000 ≤ f.1)
      let g := n.gridLine + firstWhere ok 20 0
      { n.delayed (s.nextSet n j) acts (n.at_ g - n.at_ n.gridLine) with gridLine := g, start := some (n.at_ g) }
  ({ s with scan := { s.scan with nextPage := some n' } }).pageEntry n' acts true notPrintable

/-- A page found not printable: SUSPENDED, with 0x3309 once while it lasts (R133). -/
def State.suspend (s : State) (n : NextPage) : State :=
  if s.is PG_JOB_STAT_SUSPENDED then s
  else (s.flag PG_JOB_STAT_SUSPENDED true).raise 0x3309 0 (packPage n.job n.page) 0

/-- A page passes its check and will print (R129–R131): BLANK waste-marks its whole length. -/
def State.passPage (s : State) (n : NextPage) (j : Job) (start : Int) (acts : List Nat) : State :=
  let s := s.pageEntry n acts false false
  let lines := gapGet (s.gapFor j n.page) PG_PAGE_LINES_PAGE_LINES
  let s := if acts.contains 2 then s.wastePage start j.pitchDiv lines else s
  let s := s.fixPage j n.page n.firstLine start acts
  if acts.contains 3 then s.readmit j.slot n.page else s

/-- The check of a defined page: its layers, then its admission where that has not run (R129). A page refused here raises 0x3101
although no PAGE_CLOSE has come for it, and one with a BAD slot takes its layer's policy, as R95's last sentence says, with no
SUSPENDED and no 0x3309 of its own (log 60, DESIGN CHOICE). -/
def State.checkDefined (s : State) (n : NextPage) (j : Job) (start : Int) (p : Page) (variable_ : Bool) : State :=
  let g := s.gapFor j n.page
  let r := s.layersCheck n variable_ g p
  if r.1.contains 1 then r.2.holdPage n j r.1 false
  else
    let a := if p.adm == .admitted || p.adm == .refused then (b2n (p.adm == .refused), r.2)
      else
        let a := r.2.letIn g j p r.1
        (a.1, if a.1 = 0 then a.2 else a.2.pageRefused j.slot n.page a.1)
    let j := (a.2.jobAt j.slot).getD j
    if a.1 = 0 then a.2.passPage n j start r.1
    else if variable_ then (a.2.suspend n).holdPage n j r.1 true
    else (a.2.suspend n).passUnprinted n j start true

/-- One readiness check (R129). A page that is undefined or refused is not printable (R133), late or not. -/
def State.checkPage (s : State) (n : NextPage) (j : Job) (start : Int) (late : Bool) : State :=
  let g := s.gapFor j n.page
  let variable_ := n.mark || j.gapVar || gapGet g PG_GAP_START_MODE == 1
  let page := j.page n.page
  let bad := (page.map (·.adm == .refused)).getD true
  let s := if bad then s.suspend n else s
  if late && n.mark then
    let s := s.markLate n (gapGet g PG_PAGE_LINES_PAGE_LINES) start
    ({ s with scan := { s.scan with nextPage := some { n with start := none } } }).pageEntry { n with start := none }
      (List.replicate 8 0) true bad
  else
    match page with
    | some p =>
      if late || bad then
        (if variable_ then s.holdPage n j (List.replicate 8 0) bad else s.passUnprinted n j start bad)
      else s.checkDefined n j start p variable_
    | none => if variable_ then s.holdPage n j (List.replicate 8 0) true else s.passUnprinted n j start true

/-- A held MARK page with no start: once its layers are ready, the next mark starts it (R131). Its delay is counted in lines by
how far the least possible start has moved since its mark, or the last look (R132 gives no measure; log 60, DESIGN CHOICE). -/
def State.heldLook (s : State) (n : NextPage) (j : Job) : State :=
  match j.page n.page with
  | none => s.suspend n
  | some p =>
    if p.adm == .refused then s.suspend n
    else
      let r := s.layersCheck n true (s.gapFor j n.page) p
      if r.1.contains 1 then
        let at_ := s.leastStart j n.firstLine
        let n := { n.delayed (s.nextSet n j) r.1 (max 0 (at_ - n.lookAt)) with lookAt := at_ }
        ({ r.2 with scan := { r.2.scan with nextPage := some n } }).pageEntry n r.1 true false
      else
        let s := r.2.flag PG_JOB_STAT_SUSPENDED false
        { s with scan := { s.scan with nextPage := some { n with held := false }, marks := [] } }

/-- The readiness checks of a tick end (R129): pages are placed and checked until none is due. -/
def State.readiness (s : State) : Nat → State
  | 0 => s
  | k + 1 =>
    let s := s.placeNext.marksSettle
    match s.scan.nextPage with
    | none => s
    | some n =>
      match s.jobAt n.job, n.start with
      | some j, some start =>
        let t := s.tick * 250000
        let f := s.f0 j n start
        if f.1 < f.2 + 750000 + t then
          let s := s.checkPage n j start (decide (f.1 < t + f.2 + 250000))
          if s.scan.nextPage.isSome then s else s.readiness k
        else s
      | some j, none => if n.held then s.heldLook n j else s
      | none, _ => { s with scan := { s.scan with nextPage := none } }

/-- A PAGE entry applied by a standby (R129, R381): it follows the outcome and takes no check of its own. -/
def State.pageFollow (s : State) (w : List Nat) : State :=
  let slot := bits (w.getD 0 0) 29 24
  let page := w.getD 0 0 % 2 ^ 24
  let line := w.getD 1 0
  let start := s.posTaken (w.getD 2 0) (w.getD 3 0)
  let acts := (List.range 8).map fun n => bits (w.getD 4 0) (2 * n + 1) (2 * n)
  let held := bit (w.getD 5 0) 0
  match s.jobAt slot with
  | none => s
  | some j =>
    let s := s.flag PG_JOB_STAT_SUSPENDED (bit (w.getD 5 0) 1)
    if held then
      let mark := match s.scan.runs.getLast? with
        | some r => if page = 0 then gapGet (s.gapFor j 0) PG_GAP_START_MODE == 1 else r.mark
        | none => gapGet (s.gapFor j 0) PG_GAP_START_MODE == 1
      let n : NextPage :=
        { job := slot, ord := j.order, page := page, anchorLine := line, anchorPos := start, gridLine := line
          pitchDiv := j.pitchDiv, mark := mark, probe := 0, ofs := 0, earliest := start
          start := if mark then none else some start, held := true, delays := List.replicate 8 0, lookAt := start, fallen := [] }
      { s with scan := { s.scan with nextPage := some n } }
    else s.fixPage j page line start acts

/-! Scan-out events (R113, R114) -/

/-- The first gap line after a page fires at the reference bar. -/
def execGapStart (t slot page : Nat) (s : State) : Host.Outcome State Fault Refusal :=
  run t (fun s =>
    match s.scan.runs.find? fun r => r.job == slot && r.page == page && !r.gapStarted with
    | none => s
    | some r =>
      let b := s.refBar r
      if s.fired r (r.firstLine + r.lines) b then
        let s := ((s.modRun r.ord page fun r => { r with gapStarted := true }).flag PG_EVT_STAT_GAP_START true).curShow
        let s := s.flag PG_EVT_STAT_REF_SUBST (b != s.get PG_EVT_CFG_REF_BAR)
        if s.is PG_EVT_CFG_GAP_START_EN then s.raise 0x3301 b (packPage slot page) 0 else s
      else s) s

/-- Page-relative line MATCH_LINE fires at the reference bar; beyond the page and its minimum gap it never matches. -/
def execLineMatch (t slot page : Nat) (s : State) : Host.Outcome State Fault Refusal :=
  run t (fun s =>
    match s.scan.runs.find? fun r => r.job == slot && r.page == page && !r.matched with
    | none => s
    | some r =>
      let b := s.refBar r
      let m := s.get PG_EVT_CFG_MATCH_LINE
      if m < r.lines + r.gapLines ∧ s.fired r (r.firstLine + m) b then
        let s := ((s.modRun r.ord page fun r => { r with matched := true }).flag PG_EVT_STAT_LINE_MATCH true).curShow
        let s := s.flag PG_EVT_STAT_REF_SUBST (b != s.get PG_EVT_CFG_REF_BAR)
        if s.is PG_EVT_CFG_LINE_MATCH_EN then s.raise 0x3302 b (packPage slot page) 0 else s
      else s) s

/-- A page's last line fires at the last bar: the page is done, and its job's entry may be freed (R48, R113). -/
def execPageDone (t slot page : Nat) (s : State) : Host.Outcome State Fault Refusal :=
  run t (fun s =>
    match s.scan.runs.find? fun r => r.job == slot && r.page == page && !r.done with
    | none => s
    | some r =>
      let b := (s.farBar r.bars).getD 0
      if s.fired r (r.firstLine + r.lines - 1) b then
        let s := (s.modRun r.ord page fun r => { r with done := true }).flag PG_EVT_STAT_PAGE_DONE true
        let s := s.modPage slot page fun p => { p with done := true }
        let s := if s.is PG_EVT_CFG_PAGE_DONE_EN then s.raise 0x3303 b (packPage slot page) 0 else s
        let s := (if s.authoritative then s.jobsEnd else s).jobShow
        s.curShow
      else s) s

/-- Whether a page's mark at a bar has still to be judged (R327, R328). -/
def State.markWaits (s : State) (r : PageRun) (b : Nat) : Bool :=
  match s.cam.markDone.getD b none with
  | some (o, p) => decide (o < r.ord) || (o == r.ord && decide (p < r.page))
  | none => true

/-- Whether a checked page is still needed: it is not done, its proof is to be compared, its marks are to be found, or
tap lines of it are in the ring. -/
def State.runNeeded (s : State) (r : PageRun) : Bool :=
  !r.done || (s.beryl.taps.any fun t => t.ord == r.ord && t.page == r.page) || (gapGet r.set PG_PROOF_MODE == 2 && !r.compared) || (s.is CM_MARK_CFG_EN && r.bars.any (s.markWaits r))

/-- Old checked pages let go: besides those needed the last 256 are kept, for the cameras downstream. -/
def State.runsPrune (s : State) : State :=
  { s with scan := { s.scan with runs := s.scan.runs.drop (min (s.scan.runs.length - 256)
      ((s.scan.runs.findIdx s.runNeeded))) } }

/-! SPEED_REQ (R75–R77) -/

/-- The over-speed reason (R75). -/
def State.overShow (s : State) : State :=
  match s.vmax with
  | some v =>
    let s := if v * (1 + (s.get PG_SPDREQ_CTRL_MARGIN_PM : Rat) / 1000) < s.web.speed then
        (s.flag PG_SPDREQ_STAT_OVER_DECL true).spdShow else s
    s.calmShow
  | none => s.calmShow

/-- A channel's slack at the completion of a LINE record, in ns (R75). -/
def State.slackShow (s : State) (ch : Nat) (slack : Int) : State :=
  let low := decide (slack < (s.get PG_SPDREQ_CTRL_SLACK_10US * 10000 : Nat))
  let rest := s.scan.slackLow.filter (· != ch)
  let s := { s with scan := { s.scan with slackLow := if low then ch :: rest else rest } }
  (if low then (s.flag PG_SPDREQ_STAT_SLACK true).spdShow else s).calmShow

/-- The thermal reason (R77): it asserts at once; its end counts toward R76. -/
def State.thermalShow (s : State) (b : Bool) : State :=
  let s := s.flag PG_SPDREQ_STAT_THERMAL b
  (if b then s.spdShow else s).calmShow

/-- SPEED_REQ's reasons withdrawn after 10 ms of R76's conditions. -/
def execSpeedReqRelease (t : Nat) (s : State) : Host.Outcome State Fault Refusal :=
  run t (fun s =>
    let s := s.calmShow
    if s.calmLong then ((s.flag PG_SPDREQ_STAT_OVER_DECL false).flag PG_SPDREQ_STAT_SLACK false).spdShow else s) s

/-! The web's commands (spec/06) -/

/-- The EDGE_BIN under way written once its bin has ended (R485, R487). -/
def State.binFlush (s : State) : State :=
  if s.agate.binWords.isEmpty then s
  else
    let n := s.agate.binWords.length
    let ws := s.agate.binWords ++ List.replicate ((4 - n % 4) % 4) 0xFFFF
    let s := { s with agate := { s.agate with binWords := [] } }
    s.record 0x01 s.agate.binEnd (ws.flatMap (leBytes 2))

/-- A change of an encoder's filtered levels put into its 10 µs bin. -/
def State.edgeBin (s : State) (n : Nat) (a b z : Bool) (at_ : Nat) : State :=
  let e := (at_ / 10000 + 1) * 10000
  let s := if s.agate.binEnd == e then s else s.binFlush
  let w := n % 4 * 2 ^ 14 + b2n a * 2 ^ 13 + b2n b * 2 ^ 12 + b2n z * 2 ^ 11 + at_ % 10000 / 10
  if s.recording then { s with agate := { s.agate with binEnd := e, binWords := s.agate.binWords ++ [w] } } else s

/-- What follows a change of the estimates: predictions, SPEED_REQ, the page at the reference bar, the outputs' LAG. -/
def State.webFollow (s : State) : State := s.webShow.estTake.predictAll.overShow.curShow.encosShow

/-- The speed's update at a count and at a change of the selected encoder or its motion state (R186). -/
def State.speedFollow (s : State) : State := s.speedUpdate.accKeep.webFollow

/-- An accepted change of an encoder's levels with what follows it: the estimate updates at each count of the selected
encoder, and where the selection has changed (R186). -/
def State.edgeTake (s : State) (n : Nat) (a b z : Bool) (at_ : Nat) : State :=
  let sel := s.selEnc
  let e := s.enc n
  let counts := (a != e.a) != (b != e.b)
  let s := s.encEdge n a b z at_
  if (n = sel ∧ counts) ∨ s.selEnc ≠ sel then s.speedFollow else s

/-- An accepted level change of an encoder, its stamp `ago` ns back (R171–R181); in a running replay the recorded ones stand in for
it (R497). -/
def execEncEdge (t n : Nat) (a b z : Bool) (ago : Nat) (s : State) : Host.Outcome State Fault Refusal :=
  run t (fun s =>
    let e := s.enc n
    if s.get AG_RP_STAT_MODE ≠ 2 ∧ n < 4 ∧ (a, b, z) ≠ (e.a, e.b, e.z) then
      let at_ := s.now - ago
      (s.edgeBin n a b z at_).edgeTake n a b z at_
    else s) s

/-- An accepted probe edge, its stamp `ago` ns back (R189–R191): a latch while AHEAD may start a page. In a running replay the recorded
latches stand in for it (R497). -/
def execProbeEdge (t n : Nat) (rising : Bool) (ago : Nat) (s : State) : Host.Outcome State Fault Refusal :=
  run t (fun s =>
    if s.get AG_RP_STAT_MODE ≠ 2 ∧ n < 4 then
      let at_ := s.now - ago
      let r := s.probeEdge n rising at_
      match r.1 with
      | some pos =>
        let s := r.2
        ({ s with scan := { s.scan with marks := s.scan.marks ++ [(n, pos, at_)] } }).marksSettle
      | none => r.2
    else s) s

/-- No count for STILL_MS (R184). -/
def execStandstill (t n : Nat) (s : State) : Host.Outcome State Fault Refusal :=
  run t (fun s =>
    if n < 4 then
      let was := (s.enc n).state
      let s := s.stillOne n
      let s := if n = s.selEnc ∧ was = 2 ∧ (s.enc n).state = 0 then s.raise 0x2106 0 0 0 else s
      if n = s.selEnc then s.speedFollow else s
    else s) s

/-- The estimates' 10 µs update (R186, R188). -/
def State.estimateUpdate (s : State) : State :=
  let s := s.speedUpdate.accUpdate.webFollow.histPush
  if decide (s.agate.binEnd ≤ s.now) then s.binFlush else s

end Sys2Proof.Machine
end

