-- ==== Sys2Proof/Machine/Compose.lean ====
section
/-! DEFINITION. Composition of a line at a bar (spec/04, R122–R128) and what screening receives of it (spec/05, R148;
spec/11, R356). A row is an array of samples, left to right. -/

namespace Sys2Proof.Machine

/-- A row's sample; past the end, the last one. -/
def rowAt (r : Array Nat) (i : Nat) : Nat := r.getD (min i (r.size - 1)) 0

/-! A layer's own values (R123, R126, R127) -/

/-- Row `row` of plane `plane` of a surface as the page receives it (R91, R95). -/
def State.srcRow (s : State) (r : PageRun) (f : Surface) (plane row : Nat) : Array Nat :=
  let b := f.body
  let y := row % bodyRowH b
  ((List.range (bodyCols b)).flatMap fun c =>
    let k := (plane * bodyRows b + row / bodyRowH b) * bodyCols b + c
    let w := (slotGeom b k).widthM1 + 1
    let part := ((s.stripSamples r f.id f.gen k).drop (y * w)).take w
    part ++ List.replicate (w - part.length) 0).toArray

/-- R127 along one axis: the value at output position `u` from two source values, with factor f. -/
def scaleMix (linear : Bool) (f u a b : Nat) : Nat :=
  if linear then (a * (f - u % f) + b * (u % f) + f / 2) / f else a

/-- R127 across the web. -/
def scaleAcross (l : Layer) (src : Array Nat) (u : Nat) : Nat :=
  scaleMix l.linear l.sx u (rowAt src (u / l.sx)) (rowAt src (u / l.sx + 1))

/-- A plane's scaled row `u` of its rectangle: first across, then along the web (R127). -/
def State.scaledRow (s : State) (r : PageRun) (l : Layer) (f : Surface) (plane u : Nat) : Array Nat :=
  let q := u / l.sy
  let top := s.srcRow r f plane q
  let low := if l.linear && l.sy != 1 then s.srcRow r f plane (min (q + 1) (l.srcH r.gridY - 1)) else top
  ((List.range (l.wg r.gridX)).map fun x => scaleMix l.linear l.sy u (scaleAcross l top x) (scaleAcross l low x)).toArray

/-- The plane of a layer that feeds a bar (R123). -/
def Layer.plane (l : Layer) (b : Nat) : Nat := (l.bars.filter (· < b)).length

/-- The colour vector's value for a bar. -/
def Layer.colourOf (l : Layer) (b : Nat) : Nat := bits l.colour (8 * b + 7) (8 * b)

/-- One row of one layer at one bar: where it begins in its grid, its values (none where it is transparent), whether
it carries the bar, and its blend mode. -/
structure LayerRow where
  x0 : Nat
  vals : Array (Option Nat)
  carried : Bool
  blend : Nat

/-- Whether a layer contributes to a page (R121, R131). -/
def PageRun.contributes (r : PageRun) (l : Layer) : Bool :=
  l.enable && r.actions.getD l.n 0 != 2 && (l.format == 3 || (r.useOf l.n).isSome)

/-- Row u of a layer's rectangle at a bar. -/
def State.layerRow (s : State) (r : PageRun) (l : Layer) (b u : Nat) : LayerRow :=
  let carried := bit l.planes b
  let surf := (r.useOf l.n).bind fun k => s.surf k.1 k.2
  let v := l.colourOf b
  let vals : Array (Option Nat) := match l.format, surf with
    | 3, _ => Array.replicate (l.wg r.gridX) (some v)
    | 2, some f => (s.scaledRow r l f 0 u).map fun m => if m = 0 then none else some v
    | _, some f =>
      if carried then (s.scaledRow r l f (l.plane b) u).map some else Array.replicate (l.wg r.gridX) (some 0)
    | _, none => #[]
  ⟨l.x / l.gx r.gridX, vals, carried, l.blend⟩

/-- One sample blended (R124, R156). -/
def LayerRow.blendAt (r : LayerRow) (x out : Nat) : Nat :=
  if x < r.x0 then out
  else match r.vals.getD (x - r.x0) none with
    | none => out
    | some v =>
      if r.carried then (if r.blend = 2 then max out v else v)
      else if r.blend = 1 then 0 else out

/-- The rows of the layers of a kind that cover a row of their grid: composed layers (R124) or HT layers (R125). -/
def State.layerRows (s : State) (r : PageRun) (ht : Bool) (b row : Nat) : List LayerRow :=
  (List.range 8).filterMap fun n =>
    let l := layerOf r.set n
    let y0 := l.y / l.gy r.gridY
    if (l.format == 1) == ht && r.contributes l && decide (y0 ≤ row) && decide (row < y0 + l.hg r.gridY) then
      some (s.layerRow r l b (row - y0))
    else none

/-- One composed grid row of a bar (R124). -/
def State.composeRow (s : State) (r : PageRun) (b row : Nat) : Array Nat :=
  let rows := s.layerRows r false b row
  ((List.range (cdiv 94488 (1 + r.gridX))).map fun x => rows.foldl (fun out l => l.blendAt x out) 0).toArray

/-! Screening's input (R148, R356) -/

/-- R148 at a column, from the grid row and the next one. -/
def c4At (gridX : Nat) (upsample : Bool) (fy : Nat) (top low : Array Nat) (x : Nat) : Nat :=
  let kx := if gridX = 1 then x / 2 else x
  let fx := if gridX = 1 then x % 2 else 0
  if !upsample || (fx == 0 && fy == 0) then 4 * rowAt top kx
  else if fy = 0 then 2 * (rowAt top kx + rowAt top (kx + 1))
  else if fx = 0 then 2 * (rowAt top kx + rowAt low kx)
  else rowAt top kx + rowAt top (kx + 1) + rowAt low kx + rowAt low (kx + 1)

/-- c4 of a page line by column (R148). -/
def State.c4Page (s : State) (r : PageRun) (b p : Nat) : Array Nat :=
  let ry := if r.gridY = 1 then p / 2 else p
  let fy := if r.gridY = 1 then p % 2 else 0
  let last := cdiv r.lines (1 + r.gridY) - 1
  let top := s.composeRow r b (min ry last)
  let low := if fy = 1 && r.upsample then s.composeRow r b (min (ry + 1) last) else top
  ((List.range 94488).map (c4At r.gridX r.upsample fy top low)).toArray

/-- The strip of a bar that a gap line belongs to, with the gap's values (R355, R356). -/
def PageRun.stripAt (r : PageRun) (b line : Nat) : Option (GapStrips × TestStrip) :=
  let end_ := r.firstLine + r.lines
  match r.strips with
  | none => none
  | some g =>
    if line < end_ + g.ofs then none
    else
      let k := line - end_ - g.ofs
      let per := g.lines + g.space
      match g.strips[k / per]? with
      | some x => if x.bar = b ∧ k % per < g.lines ∧ 0 < per then some (g, x) else none
      | none => none

/-- Whether a column is a strip's: covered by the bar, and all of it, or a deficit block or overlap (R356). -/
def State.stripCol (s : State) (g : GapStrips) (x : TestStrip) (col : Nat) : Bool :=
  let l := s.segs x.bar
  let within (q : Nat × Nat × Nat) : Bool := decide (q.2.1 ≤ col) && decide (col < q.2.1 + q.2.2)
  l.any within && (g.colmode || x.full || x.blocks.contains (col / 64) ||
    (l.zip (l.drop 1)).zipIdx.any fun p => bit x.overlaps p.2 && within p.1.1 && within p.1.2)

/-- c4 of a gap line by column: 0 but on a strip of the bar (R148, R356). -/
def State.c4Gap (s : State) (r : PageRun) (b line : Nat) : Array Nat :=
  match r.stripAt b line with
  | none => Array.replicate 94488 0
  | some (g, x) => ((List.range 94488).map fun col => if s.stripCol g x col then g.c4 else 0).toArray

/-- c4 of a job line. -/
def State.c4Line (s : State) (r : PageRun) (b line : Nat) : Array Nat :=
  if r.inPage line then s.c4Page r b (line - r.firstLine) else s.c4Gap r b line

/-! What a line depends on (R45, R93) -/

/-- The strip slots a bar's page line reads (R45): the rows of each contributing layer that feed it. -/
def State.lineDeps (s : State) (r : PageRun) (b line : Nat) : List (Nat × Nat × Nat) :=
  if !r.inPage line then []
  else
    let p := line - r.firstLine
    (List.range 8).flatMap fun n =>
      let l := layerOf r.set n
      match r.useOf n with
      | none => []
      | some (id, gen) =>
        match s.surf id gen with
        | none => []
        | some f =>
          if !r.contributes l || l.format == 3 || (l.format != 2 && !bit l.planes b) then []
          else
            let gy := l.gy r.gridY
            let ups := r.upsample && gy == 2 && p % 2 == 1
            let rows := (p / gy) :: (if ups then [p / gy + 1] else [])
            let y0 := l.y / gy
            let src := (rows.filter fun g => decide (y0 ≤ g) && decide (g < y0 + l.hg r.gridY)).flatMap fun g =>
              let q := (g - y0) / l.sy
              if l.linear && (g - y0) % l.sy != 0 then [q, min (q + 1) (l.srcH r.gridY - 1)] else [q]
            let plane := if l.format = 2 then 0 else l.plane b
            (src.map (· / bodyRowH f.body)).eraseDups.flatMap fun sr => (List.range (bodyCols f.body)).map fun c =>
              (id, gen, (plane * bodyRows f.body + sr) * bodyCols f.body + c)

end Sys2Proof.Machine
end

