-- ==== Sys2Proof/Machine/Screen.lean ====
section
/-! DEFINITION. Screening (spec/05): slots and their entries (R146, R149–R152), tone, thresholds, HT layers, stitching
(R153–R158), table windows and their limits (R159, R160, R168), apply-at changes (R161) and overspeed (R162–R165). -/

namespace Sys2Proof.Machine

/-! Tables (R168) -/

def liveWin (b : Nat) : Nat := 0x200000 + 0x60000 * b
def shadowWin (b : Nat) : Nat := 0x500000 + 0x60000 * b
def bankSize : Nat := 0x60000

/-- One byte of a table window. -/
def State.tableByte (s : State) (a : Nat) : Nat := bits (s.rd (a / 4 * 4)) (8 * (a % 4) + 7) (8 * (a % 4))

/-- One 16-bit word of a table window. -/
def State.tableHalf (s : State) (a : Nat) : Nat := bits (s.rd (a / 4 * 4)) (8 * (a % 4) + 15) (8 * (a % 4))

/-- The live correction entry of a slot (R149). -/
def State.entry (s : State) (b m i : Nat) : Nat := s.rd (liveWin b + (m * 8192 + i) * 4)
def entGain (e : Nat) : Nat := bits e 11 0
def entOffset (e : Nat) : Int := sgn 10 (bits e 21 12)
def entState (e : Nat) : Nat := bits e 23 22
def entShare (e : Nat) : Nat := bits e 31 24

/-- OK or WEAK. -/
def entPrints (e : Nat) : Bool := decide (entState e < 2)

/-- T[set][c1] (R153, R154). -/
def State.tone (s : State) (b set c1 : Nat) : Nat := bits (s.tableHalf (0x800000 + 0x2000 * b + set * 0x800 + c1 * 2)) 9 0

/-- θj of the cell of a column and line (R155). -/
def State.theta (s : State) (b x n j : Nat) : Nat :=
  s.tableHalf (0x900000 + 0x100000 * b + ((n + s.get (SC_BAR_CFG_PHASE b)) % 256 * 256 + x % 256) * 16 + 2 * j)

/-- The selector's value for a column and line (R157). -/
def State.selector (s : State) (b x n : Nat) : Nat :=
  s.tableByte (0x810000 + 0x1000 * b + ((n + s.get (SC_BAR_CFG_SEL_PHASE b)) % 64 * 64 + x % 64))

/-! Levels (R146–R157) -/

/-- The column of slot i of a segment (R146). -/
def slotCol (col0 slots i : Nat) (reverse : Bool) : Nat := if reverse then col0 + slots - 1 - i else col0 + i

/-- The entry of the slot of a segment at a column it covers (R146). -/
def State.entryAt (s : State) (b : Nat) (q : Nat × Nat × Nat) (x : Nat) : Nat :=
  let i := if s.is (SC_BAR_SEG_COL_REVERSE b q.1) then q.2.1 + q.2.2 - 1 - x else x - q.2.1
  s.entry b q.1 i

/-- The other segment of a bar that covers a column. -/
def otherSeg (l : List (Nat × Nat × Nat)) (m x : Nat) : Option (Nat × Nat × Nat) :=
  l.find? fun q => q.1 != m && decide (q.2.1 ≤ x) && decide (x < q.2.1 + q.2.2)

/-- The share a slot gives each neighbour (R151). -/
def State.shareOf (s : State) (b : Nat) (l : List (Nat × Nat × Nat)) (m x e c4 : Nat) : Nat :=
  if entState e != 2 then 0
  else match otherSeg l m x with
    | some q => if entPrints (s.entryAt b q x) then 0 else (c4 * entShare e + 64) / 128
    | none => (c4 * entShare e + 64) / 128

/-- The corrected value of a slot (R150). -/
def corrected (e cin : Nat) : Nat :=
  if 2 ≤ entState e ∨ cin = 0 then 0
  else (clamp (((cin * entGain e + 1024) / 2048 : Nat) + entOffset e) 0 1023).toNat

/-- The number of thresholds at or below a tone value (R155). -/
def State.dropLevel (s : State) (b x n t : Nat) : Nat :=
  let k := if s.is (SC_BAR_CFG_DROP_BITS b) then 7 else 3
  ((List.range k).filter fun j => decide (s.theta b x n j ≤ t)).length

/-- Whether a slot keeps its level at its column (R157). -/
def State.keeps (s : State) (b : Nat) (l : List (Nat × Nat × Nat)) (q : Nat × Nat × Nat) (x n e : Nat) : Bool :=
  match otherSeg l q.1 x with
  | none => true
  | some o =>
    let other := entPrints (s.entryAt b o x)
    let mine := entPrints e
    if mine != other then mine
    else
      let lower := decide (q.1 < o.1)
      let low := if lower then q else o
      let high := if lower then o else q
      let boundary := (l.filter fun z => decide (z.1 < low.1)).length
      let ramp := s.tableByte (0x818000 + 0x1000 * b + 0x100 * boundary + (x - high.2.1))
      let toLower := decide (s.selector b x n < ramp)
      toLower == lower

/-- The drop levels of a segment's slots on a line (R145): its tone set, c4 by column and HT rows given. -/
def State.segLevels (s : State) (b : Nat) (l : List (Nat × Nat × Nat)) (n set : Nat) (c4 : Array Nat) (ht : List LayerRow)
    (q : Nat × Nat × Nat) : List Nat :=
  let rev := s.is (SC_BAR_SEG_COL_REVERSE b q.1)
  let slots : Array (Nat × Nat) := ((List.range q.2.2).map fun i => (slotCol q.2.1 q.2.2 i rev, s.entry b q.1 i)).toArray
  let shares : Array Nat := slots.map fun p => s.shareOf b l q.1 p.1 p.2 (rowAt c4 p.1)
  (List.range q.2.2).map fun i =>
    let p := slots.getD i (0, 0)
    if !entPrints p.2 || decide (94487 < p.1) then 0
    else
      let sh := (if i = 0 then 0 else shares.getD (i - 1) 0) + shares.getD (i + 1) 0
      let lev := s.dropLevel b p.1 n (s.tone b set (corrected p.2 (c4.getD p.1 0 + sh)))
      let lev := ht.foldl (fun v h => h.blendAt p.1 v) lev
      if s.keeps b l q p.1 n p.2 then lev else 0

/-- The HT rows of a bar's page line (R156). -/
def State.htRows (s : State) (r : PageRun) (b line : Nat) : List LayerRow :=
  if r.inPage line then s.layerRows r true b (line - r.firstLine) else []

/-- The tone set of a line (R153): strip, decimated, or the live normal set. -/
def State.toneSet (s : State) (r : PageRun) (b line : Nat) : Nat :=
  if (r.stripAt b line).isSome then 2
  else if s.get (SC_BAR_OVS_STATE b) = 1 then 1
  else if s.is (SC_BAR_APPLY_CTRL_LIVE_SET b) then 3 else 0

/-- The levels of every segment in use of a bar on a line. -/
def State.barLevels (s : State) (r : PageRun) (b line : Nat) (c4 : Array Nat) : List (List Nat) :=
  let l := s.segs b
  let ht := s.htRows r b line
  l.map (s.segLevels b l line (s.toneSet r b line) c4 ht)

/-- A line's payload (R256, R258): levels packed from the most significant bit, then zero bytes to a multiple of 4. -/
def payloadOf (bits_ : Nat) (levels : List Nat) : List Byte :=
  let bs := bitsBytes (levels.flatMap (natBits bits_))
  let n := cdiv (levels.length * bits_) 8
  let bs := bs.take n
  bs ++ List.replicate (cdiv n 4 * 4 - bs.length) 0

/-! Banks (R159) -/

/-- The listed words of a window, as offsets and values. -/
def State.windowWords (s : State) (base size : Nat) : List (Nat × Nat) :=
  (s.words.filter fun p => decide (base ≤ p.1) && decide (p.1 < base + size)).map fun p => (p.1 - base, p.2.toNat)

/-- A window's words replaced: those listed go to 0, then the new ones are written. -/
def State.windowPut (s : State) (base size : Nat) (ws : List (Nat × Nat)) : State :=
  let s := s.each (s.windowWords base size) fun s p => s.wr (base + p.1) 0
  s.each ws fun s p => s.wr (base + p.1) p.2

/-- The slots of the live bank that are MISSING and WEAK counted (R161). -/
def State.recount (s : State) (b : Nat) : State :=
  let l := s.windowWords (liveWin b) bankSize
  let count (st : Nat) : Nat := (l.filter fun p => entState p.2 == st).length
  (s.wr (SC_BAR_MISSING b) (count 2)).wr (SC_BAR_WEAK b) (count 1)

/-- The banks exchanged; the copy back begins (R159). -/
def State.bankSwap (s : State) (b : Nat) : State :=
  let live := s.windowWords (liveWin b) bankSize
  let shadow := s.windowWords (shadowWin b) bankSize
  let s := (s.windowPut (liveWin b) bankSize shadow).windowPut (shadowWin b) bankSize live
  (s.modBar b fun x => { x with copyFrom := some s.now }).flag (SC_BAR_APPLY_CTRL_COPY_BUSY b) true

/-- The new live bank has been copied into the new shadow bank (R159). -/
def execBankCopyDone (t b : Nat) (s : State) : Host.Outcome State Fault Refusal :=
  run t (fun s =>
    if s.is (SC_BAR_APPLY_CTRL_COPY_BUSY b) then
      let s := s.windowPut (shadowWin b) bankSize (s.windowWords (liveWin b) bankSize)
      (s.modBar b fun x => { x with copyFrom := none }).flag (SC_BAR_APPLY_CTRL_COPY_BUSY b) false
    else s) s

/-! Apply-at changes (R161) -/

/-- A change takes effect: bank, tone set, counts and event 0x3404; a Beryl cycle closes with it (R359). -/
def State.armApply (s : State) (b : Nat) (a : Armed) : State :=
  let s := if a.swap then s.bankSwap b else s
  let s := if a.setTone then s.flag (SC_BAR_APPLY_CTRL_LIVE_SET b) a.toneSet else s
  let s := (s.modBar b fun x => { x with armed := none }).flag (SC_BAR_APPLY_CTRL_PENDING b) false
  let s := ((s.recount b).inc (SC_BAR_APPLY_CNT_APPLIED b)).raise 0x3404 b 0 0
  if a.beryl then (s.inc (BY_BAR_APPLY_CYCLES b)).setBitOf BY_STAT_CYCLE b false else s

/-- The change SC_BARn_APPLY_CTRL and _LINE describe. -/
def State.armOf (s : State) (b : Nat) (beryl : Bool) : Armed :=
  let slot := s.get (SC_BAR_APPLY_CTRL_JOB_SLOT b)
  { job := slot, id := (s.jobAt slot).map (·.id), line := s.get (SC_BAR_APPLY_LINE_LINE b)
    swap := s.is (SC_BAR_APPLY_CTRL_SWAP b), setTone := s.is (SC_BAR_APPLY_CTRL_SET_TONE b)
    toneSet := s.is (SC_BAR_APPLY_CTRL_TONE_SET b), beryl := beryl }

/-- When composition of a job's line at a bar begins where its position is fixed (R111, R196): a line of a checked page, of its gap
as far as that is known to reach, or of the next page once that has its place; none where it is not fixed yet (R161). -/
def State.lineBegins (s : State) (b : Nat) (j : Job) (line : Nat) : Option Nat :=
  let inRun (r : PageRun) : Bool := match s.lineLimit r with
    | some e => decide (line < e)
    | none => true
  match (s.runAt j.order line).filter inRun with
  | some r => some (s.composeAt r line b)
  | none =>
    match s.scan.nextPage.filter fun n => n.ord == j.order && decide (n.gridLine ≤ line) && !n.held with
    | none => none
    | some n => n.start.map fun start =>
      let w := s.predFor b j.order line
      s.predict (s.firePos n.pitchDiv start n.gridLine line b (s.sget (WP_BAR_REG_EFF_REG b))) w - (leadNs w + 250000)

/-- Whether the bar has begun composition of a line of a job, or begins it less than 500 µs after the tick end (R161). -/
def State.armLate (s : State) (b : Nat) (a : Armed) : Bool :=
  match s.jobAt a.job with
  | none => false
  | some j =>
    if !j.started then false
    else
      let begun := match (s.screenBar b).lastLine with
        | some (o, l) => decide (j.order < o) || (o == j.order && decide (a.line ≤ l))
        | none => false
      begun || (s.lineBegins b j a.line).any fun t => decide (t < s.tick * 250000 + 500000)

/-- A committed change taken: at once on an idle bar, else PENDING (R161). -/
def State.armTake (s : State) (b : Nat) (a : Armed) : State :=
  if s.barIdle b then s.armApply b a
  else (s.modBar b fun x => { x with armed := some a }).flag (SC_BAR_APPLY_CTRL_PENDING b) true

/-- ARM at its commit (R161). -/
def State.arm (s : State) (b : Nat) (beryl : Bool) : Nat × State :=
  let a := s.armOf b beryl
  if s.is (SC_BAR_APPLY_CTRL_PENDING b) then (stBusy, s)
  else if !beryl && a.swap && s.bitOf BY_STAT_CYCLE b then (stBusy, s)
  else if !s.barIdle b && s.armLate b a then (stRejected, s)
  else (stOk, s.armTake b a)

/-- What a refused ARM leaves behind (R161): the count and event 0x3405. -/
def State.armRefused (s : State) (b : Nat) : State := (s.inc (SC_BAR_APPLY_CNT_REFUSED b)).raise 0x3405 b 0 0

/-- Whether an armed change has come due at a line of a job about to be composed (R161): its line, or its job over; or, where its
JOB_SLOT held no job, at the next line the bar composes (log 60, DESIGN CHOICE). -/
def Armed.dueAt (a : Armed) (jobs : List Job) (r : PageRun) (line : Nat) : Bool :=
  if r.job = a.job ∧ some r.jobId = a.id then decide (a.line ≤ line)
  else match jobs.find? fun j => j.slot == a.job && some j.id == a.id with
    | some j => j.started && decide (j.order < r.ord)
    | none => true

/-- An armed change whose bar is idle and whose job is over takes effect at a tick end, once the bar has composed the last line of
that job, its closing gap's included (R161). -/
def State.armSettle (s : State) (b : Nat) : State :=
  match (s.screenBar b).armed with
  | none => s
  | some a =>
    let ended := !(s.scan.jobs.any fun j => j.slot == a.job && some j.id == a.id) &&
      (s.nextLine b).all fun x => !(x.1.job == a.job && some x.1.jobId == a.id)
    if s.barIdle b && ended then s.armApply b a else s

/-! Overspeed (R162–R165) -/

/-- EFF of a bar (R162). -/
def State.effMax (s : State) (b : Nat) : Nat :=
  (List.range 12).foldl (fun e m =>
    let ch := 12 * b + m
    (List.range (s.get (JL_BAND_HEADS ch))).foldl (fun e h => min e (identMaxRate (s.ident ch h))) e)
    (s.get (SC_BAR_MAXRATE_MAXRATE b))

/-- The line rate of a job's pitch at the present speed, in lines/s (R162). -/
def State.lineRate (s : State) (pitchDiv : Nat) : Rat := s.web.speed * 3000000 / ((4064 * (pitchDiv + 1) : Nat) : Rat)

/-- The next overspeed state (R163). -/
def ovsNext (from_ : Nat) (rate : Rat) (eff : Nat) (hyst : Nat) (en : Bool) : Nat :=
  let e : Rat := (eff : Rat)
  let low : Rat := e * ((1000 - (hyst : Int) : Int) : Rat) / 1000
  if from_ = 0 then (if 2 * e < rate then 2 else if e < rate then (if en then 1 else 2) else 0)
  else if from_ = 1 then (if 2 * e < rate then 2 else if e < rate ∧ !en then 2 else if rate ≤ low then 0 else 1)
  else (if rate ≤ low then 0 else if rate ≤ 2 * low ∧ en then 1 else 2)

/-- The overspeed state a bar has or is about to take. -/
def State.ovsLast (s : State) (b : Nat) : Nat :=
  match (s.screenBar b).ovs.getLast? with
  | some c => c.state
  | none => s.get (SC_BAR_OVS_STATE b)

/-- A decided change kept for its line: CHANGES and its event (R163). -/
def State.ovsTake (s : State) (b state ord line : Nat) : State :=
  let s := (s.inc (SC_BAR_OVS_LATE_CHANGES b)).raise ([0x3403, 0x3401].getD state 0x3402) b 0 0
  s.modBar b fun x => { x with ovs := x.ovs ++ [⟨state, ord, line⟩] }

/-- The active or SINGLE unit's comparison as a line's composition starts, and its apply-at line in the next HB (R162,
R165). -/
def State.ovsDecide (s : State) (r : PageRun) (b : Nat) : State :=
  if !s.authoritative then s
  else
    let st := s.ovsLast b
    let new := ovsNext st (s.lineRate r.pitchDiv) (s.effMax b) (s.get (SC_BAR_OVS_HYST_PM b)) (s.is (SC_BAR_CFG_OVS_EN b))
    if new = st then s
    else
      let line := s.applyLine b r.ord (s.now + 50000)
      (s.ovsTake b new r.ord line).hbItem (2 * 2 ^ 24 + r.job * 2 ^ 16 + b * 2 ^ 8 + new) line 0 0

/-- Changes that have reached their line take effect (R165). -/
def State.ovsReach (s : State) (b ord line : Nat) : State :=
  let due (c : OvsChange) : Bool := decide (c.ord < ord) || (c.ord == ord && decide (c.line ≤ line))
  let x := s.screenBar b
  match (x.ovs.filter due).getLast? with
  | none => s
  | some c => (s.modBar b fun x => { x with ovs := x.ovs.filter fun c => !due c }).put (SC_BAR_OVS_STATE b) c.state

/-- The order of the job in a slot whose lines a bar composes: that of its next line or of its last, also once the job has left
the queue, else that of the job in the slot. -/
def State.barOrd (s : State) (b slot : Nat) : Option Nat :=
  let next := ((s.nextLine b).map (·.1)).filter (·.job == slot)
  let last := ((s.screenBar b).lastLine.bind fun x => s.runAt x.1 x.2).filter (·.job == slot)
  ((next <|> last).map (·.ord)) <|> (s.jobAt slot).map (·.order)

/-- An OVS item of the active (R165): lines already composed at or beyond it go VOID. Lines that the old state skipped here have no
record to withdraw: none is sent for them and LATE does not count them (R257; log 60, DESIGN CHOICE). -/
def State.ovsFollow (s : State) (slot b state line : Nat) : State :=
  match s.barOrd b slot with
  | none => s
  | some ord =>
    let late := (s.barChans b).flatMap fun ch => ((s.chanLines ch).filter fun x =>
      x.bar == b && x.ord == ord && decide (line ≤ x.line)).map fun x => (ch, x)
    let lines := (late.map (·.2.line)).eraseDups
    let s := s.ovsTake b state ord line
    let s := match (s.screenBar b).lastLine with
      | some (o, l) => s.ovsReach b o l
      | none => s
    let s := s.each late fun s p => s.lineVoid p.1 p.2
    if lines.isEmpty then s
    else (s.add (SC_BAR_OVS_LATE_LATE b) lines.length).raise 0x3408 b 0 0

/-! Register and table writes (R154, R155, R158–R160, R360) -/

/-- Which table a window address lies in, with its bar: 0 shadow bank, 1 tone, 2 threshold, 3 selector, 4 ramp. -/
def tableAt (a : Nat) : Option (Nat × Nat) :=
  if 0x500000 ≤ a ∧ a < 0x800000 then some (0, (a - 0x500000) / 0x60000)
  else if 0x800000 ≤ a ∧ a < 0x810000 then some (1, (a - 0x800000) / 0x2000)
  else if 0x900000 ≤ a ∧ a < 0x1100000 then some (2, (a - 0x900000) / 0x100000)
  else if 0x810000 ≤ a ∧ a < 0x818000 then some (3, (a - 0x810000) / 0x1000)
  else if 0x818000 ≤ a ∧ a < 0x820000 then some (4, (a - 0x818000) / 0x1000)
  else none

/-- The bits of a screening table's word that hold values (R154, R168); the others ignore a write. -/
def tableMask (a : Nat) : Nat :=
  match tableAt a with
  | some (1, _) => 0x03FF03FF
  | some (2, _) => if a % 16 = 12 then 0x0000FFFF else 0xFFFFFFFF
  | _ => 0xFFFFFFFF

/-- Whether every part of a new table word that a mask touches holds a value the table allows. -/
def tableValue (kind a new mask : Nat) : Bool :=
  let half (i : Nat) : Nat := bits new (16 * i + 15) (16 * i)
  let touched (hi lo : Nat) : Bool := bits mask hi lo != 0
  match kind with
  | 1 => a % 0x800 != 0 || bits new 9 0 == 0
  | 2 => (List.range 2).all fun i => !touched (16 * i + 15) (16 * i) || (i == 1 && a % 16 == 12) ||
      (decide (1 ≤ half i) && decide (half i ≤ 1023))
  | 3 => (List.range 4).all fun i => !touched (8 * i + 7) (8 * i) || bits new (8 * i + 7) (8 * i) != 255
  | _ => true

/-- Whether a table may be written now (R159, R160, R360). -/
def State.tableBusy (s : State) (kind b a : Nat) : Bool :=
  match kind with
  | 0 => s.is (SC_BAR_APPLY_CTRL_COPY_BUSY b) || (s.bitOf BY_CTRL_APPLY_EN b && !s.is (BY_BAR_CTRL_HOLD b))
  | 1 =>
    let set := a % 0x2000 / 0x800
    let idleOnly := set == 1 || set == 2 || (set == 3) == s.is (SC_BAR_APPLY_CTRL_LIVE_SET b)
    idleOnly && !s.barIdle b
  | _ => !s.barIdle b

/-- Limits of a screening table's word. -/
def State.limitTable (s : State) (a new mask : Nat) : Verdict :=
  match tableAt a with
  | none => none
  | some (k, b) => (rangeUnless (tableValue k a new mask)).orElse' (busyWhen (s.tableBusy k b a))

/-- The bar and offset of an SC_ per-bar register. -/
def scBar (a : Nat) : Option (Nat × Nat) :=
  if SC_BAR_CFG 0 ≤ a ∧ a < SC_BAR_CFG 0 + 0x4000 then some ((a - SC_BAR_CFG 0) / 0x800, (a - SC_BAR_CFG 0) % 0x800) else none

/-- Limits of the SC_ registers; a DEPTH is checked against the PITCH written with it or before it (R166). -/
def limitSc (s : State) (a new _mask : Nat) : Verdict :=
  if a = SC_TAP_CTRL then
    let d := bits new 20 16
    let p := bits new 15 0
    rangeUnless (decide (1 ≤ d) && decide (d ≤ 16) && (p == 0 || decide (d ≤ p)))
  else
    match scBar a with
    | none => none
    | some (b, off) =>
      if off = 0 then busyWhen (!s.barIdle b)
      else if off = 4 then rangeUnless (fieldIn new 17 0 1 160000)
      else if 0x100 ≤ off ∧ off < 0x160 then
        (rangeUnless (if off % 8 = 0 then decide (bits new 16 0 ≤ 94487) else decide (bits new 13 0 ≤ 8192))).orElse'
          (busyWhen (!s.barIdle b))
      else none

/-- What a write to an SC_ register sets off: ARM (R161). -/
def actSc (a mask val : Nat) (_before s : State) : Nat × State :=
  match scBar a with
  | some (b, 0x14) => if bit (mask &&& val) 9 then s.arm b false else (stOk, s)
  | _ => (stOk, s)

/-- Limits of the CS_ registers: MODE_EN is held while the encoder has a stream. -/
def limitCs (s : State) (a _new mask : Nat) : Verdict :=
  match instOf (CS_ENC_CFG 0) 0x20 4 a with
  | some n => busyWhen (bits mask 21 19 != 0 && s.is (CS_ENC_STAT_BUSY n))
  | none => none

end Sys2Proof.Machine
end

