-- ==== Sys2Proof/Machine/Output.lean ====
section
/-! DEFINITION. A line composed, screened and delivered (R111, R139, R143): LINE records, output digests (R488), freeze
signatures (R137, R138), observation taps (R166, R167) and the proof ring with its encoders (R98–R100, R139–R141). -/

namespace Sys2Proof.Machine

/-! Output digests (R488) -/

/-- The digest group of a bar closed; its entry waits until its VOIDs are final (log 31). -/
def State.digClose (s : State) (b ord : Nat) : State :=
  let x := s.screenBar b
  if x.digLines = 0 then s
  else
    let g : DigGroup := ⟨b, x.digSlot, ord, x.digFirst, x.digFirst + (x.digLines - 1), x.digSeq, crc32c x.digBytes, x.digVoids, x.digAt⟩
    let s := if s.is GL_ROLE_STAT_REPLAY then { s with agate := { s.agate with own := s.agate.own ++ [g] } } else s
    s.modBar b fun x => { x with digLines := 0, digBytes := [], digVoids := 0, digWait := x.digWait ++ [g] }

/-- A line's words taken into the bar's group; the group closes with its last line. -/
def State.digLine (s : State) (r : PageRun) (b line seq : Nat) (pchks : List Nat) : State :=
  let g := s.get AG_CFG_DIG_LINES_M1 + 1
  let s := match (s.screenBar b).lastLine with
    | some (o, _) => if o ≠ r.ord then s.digClose b o else s
    | none => s
  let s := s.modBar b fun x =>
    let x := if x.digLines = 0 then
        { x with digFirst := line, digSeq := seq, digVoids := 0, digBytes := [], digSlot := r.job }
      else x
    { x with digLines := x.digLines + 1, digBytes := x.digBytes ++ pchks.flatMap (beBytes 4), digAt := s.now }
  if (line + 1) % g = 0 ∨ (s.screenBar b).digLines = 64 then s.digClose b r.ord else s

/-- Whether a line of a group may still be sent VOID. -/
def State.digOpen (s : State) (g : DigGroup) : Bool :=
  (barLanes g.bar).any fun ch => (s.chanLines ch).any fun x => g.has x && !x.past s.now

/-- A group's LINE_DIGEST entry (R485, R487). -/
def State.digRecord (s : State) (g : DigGroup) : State :=
  s.record 0x0A g.at_ (leBytes 4 g.first ++ leBytes 4 (g.seq + (g.last - g.first) * 2 ^ 24) ++ leBytes 4 g.dig ++
    leBytes 4 (g.bar + g.slot * 8 + g.voids % 1024 * 512))

/-- The groups of a bar whose VOIDs are final recorded, in their order. -/
def State.digWrite (s : State) (b : Nat) : State :=
  let w := (s.screenBar b).digWait
  let done := w.takeWhile fun g => !s.digOpen g
  if done.isEmpty then s
  else s.each done State.digRecord |>.modBar b fun x => { x with digWait := w.drop done.length }

/-- Whether a bar has lines of a job still to compose: it is in the queue, or its last lines are to come. -/
def State.jobComposes (s : State) (ord b : Nat) : Bool :=
  (s.scan.jobs.any fun j => j.started && j.order == ord) || (s.nextLine b).any fun x => x.1.ord == ord

/-- A group cut short by the end of its job closes (R488), and the entries of groups whose VOIDs are final are written. -/
def State.digSettle (s : State) (b : Nat) : State :=
  let s := match (s.screenBar b).lastLine with
    | none => s
    | some (o, _) => if s.jobComposes o b then s else s.digClose b o
  s.digWrite b

/-! Freeze detection (R137, R138) -/

/-- The CRC register of a signature under way: of a layer at a bar. -/
def PageRun.sig (r : PageRun) (n b : Nat) : Nat × Nat :=
  ((r.sigs.find? fun x => x.1 == n && x.2.1 == b).map fun x => x.2.2).getD (0xFFFFFFFF, 0)

/-- The signature of a layer whose every carried bar has composed its rectangle (R137): none for a layer whose PLANES names a
bar that composes no line of the page (log 53). -/
def PageRun.sigDone (r : PageRun) (l : Layer) : Option Nat :=
  if l.bars.all fun b => (r.sig l.n b).2 == l.hg r.gridY then
    some (crc32c (l.bars.flatMap fun b => beBytes 4 ((r.sig l.n b).1 ^^^ 0xFFFFFFFF)))
  else none

/-- FREEZE, or the signature kept (R138). -/
def State.freezeJudge (s : State) (r : PageRun) (l : Layer) (sig : Nat) : State :=
  if sig = s.get (LY_SIG_SIG l.n) then
    let s := (s.flag (LY_STAT_FROZEN l.n) true).inc (LY_CNT_FREEZE l.n)
    let u := (r.useOf l.n).getD (0, 0)
    let s := (s.raise 0x3306 l.n (packGen u.1 u.2) (packPage r.job r.page)).flag PG_EVT_STAT_FREEZE true
    if s.authoritative then s.wasteCopy 4 r.span.1 r.span.2 else s
  else s.wr (LY_SIG l.n) sig

/-- A composed line's rows taken into the signatures of the page's VARYING layers (R137). -/
def State.freezeLine (s : State) (ord page b p : Nat) : State :=
  s.each (List.range 8) fun s n =>
    match s.runOf ord page with
    | none => s
    | some r =>
      let l := layerOf r.set n
      let gy := l.gy r.gridY
      let row := p / gy
      let y0 := l.y / gy
      if l.varying && l.freezeEn && r.contributes l && bit l.planes b && p % gy == 0 && decide (y0 ≤ row) &&
          decide (row < y0 + l.hg r.gridY) then
        let old := r.sig n b
        let vals := (s.layerRow r l b (row - y0)).vals.toList.map fun v => BitVec.ofNat 8 (v.getD 0)
        let crc := (vals.foldl crcByte (BitVec.ofNat 32 old.1)).toNat
        let r' : PageRun := { r with sigs := (r.sigs.filter fun x => !(x.1 == n && x.2.1 == b)) ++ [(n, b, crc, old.2 + 1)] }
        let s := s.modRun ord page fun _ => r'
        match r'.sigDone l with
        | some sig => s.freezeJudge r' l sig
        | none => s
      else s

/-! Observation taps (R166, R167) -/

/-- Bytes of a tap line's place in the ring: header and columns, to a 64-byte boundary (log 27). -/
def tapBytes : Nat := 1511872

/-- Tap lines the ring of region 4 holds above its first 24 MiB. -/
def State.tapSlots (s : State) : Nat := (s.rgnSize 4 - 0x1800000) / tapBytes

/-- VOL_b[L]. -/
def State.vol (s : State) (b lev : Nat) : Nat :=
  if lev < 4 then bits (s.rd (SC_BAR_VOL_LO b)) (8 * lev + 7) (8 * lev)
  else bits (s.rd (SC_BAR_VOL_HI b)) (8 * (lev - 4) + 7) (8 * (lev - 4))

/-- Whether a bar is the first of a page's bars to reach a line. -/
def State.firstAt (s : State) (r : PageRun) (b line : Nat) : Bool :=
  r.bars.all fun c => c == b || (match (s.screenBar c).lastLine with
    | some (o, l) => decide (o < r.ord) || (o == r.ord && decide (l < line))
    | none => true)

/-- A tap line not written: counted, and reported once a page (R166). -/
def State.tapDrop (s : State) (r : PageRun) (b : Nat) : State :=
  let s := s.inc SC_TAP_STAT_DROPPED
  if s.screen.tapDropPage = some (r.ord, r.page) then s
  else ({ s with screen := { s.screen with tapDropPage := some (r.ord, r.page) } }).raise 0x3407 b 0 0

/-- The first bar to reach a tap line's first line begins it (R166). -/
def State.tapBegin (s : State) (r : PageRun) (b line : Nat) : State :=
  let pitch := s.get SC_TAP_CTRL_PITCH
  if pitch = 0 ∨ line % pitch ≠ 0 ∨ !s.firstAt r b line then s
  else
    let soon := match s.screen.tapAt with
      | some x => decide (s.now < x + 244000)
      | none => false
    if soon || decide (s.tapSlots ≤ s.beryl.taps.length + s.screen.taps.length) then s.tapDrop r b
    else
      let t : TapLine :=
        { job := r.job, ord := r.ord, jobId := r.jobId, first := line, depth := s.get SC_TAP_CTRL_DEPTH, bars := r.barMask
          gap := !r.inPage line, ovs := false, missing := false
          pos := r.start + offPu r.pitchDiv ((line : Int) - r.firstLine), page := r.page
          sums := List.replicate 8 (0, [], []) }
      { s with screen := { s.screen with taps := s.screen.taps ++ [t], tapAt := some s.now } }

/-- Two rows of sums added column by column; an empty one is zeros. -/
def addCols (a b : List Nat) : List Nat := if a.isEmpty then b else a.zipWith (· + ·) b

/-- A bar's line taken into a tap line: VOL of the level fired at each column and c4 (R167). -/
def TapLine.take (t : TapLine) (b : Nat) (ovs shed : Bool) (vols c4 : List Nat) : TapLine :=
  let t := { t with ovs := t.ovs || ovs, missing := t.missing || shed }
  { t with sums := modAt t.sums b fun x =>
      if shed then (x.1 + 1, x.2.1, x.2.2) else (x.1 + 1, addCols x.2.1 vols, addCols x.2.2 c4) }

/-- A tap line's bytes (R167). -/
def TapLine.bytes (t : TapLine) : List Byte :=
  let d := t.depth
  let p := unsgn 48 t.pos
  let head := leBytes 4 (0x7A90 + d % 32 * 2 ^ 16 + b2n t.missing * 2 ^ 21 + b2n t.gap * 2 ^ 22 + b2n t.ovs * 2 ^ 23 +
      t.bars * 2 ^ 24) ++ leBytes 4 t.jobId ++ leBytes 4 t.first ++ leBytes 4 p ++ leBytes 4 (p / 2 ^ 32) ++
      leBytes 4 (t.page % 2 ^ 24) ++ leBytes 4 0
  let a := t.sums.map fun x => (x.2.1.map fun v => BitVec.ofNat 8 ((v + d / 2) / d)).toArray
  let c := t.sums.map fun x => (x.2.2.map fun v => BitVec.ofNat 8 ((v + 2 * d) / (4 * d))).toArray
  head ++ leBytes 4 (crc32c head) ++ (List.range 94488).flatMap fun x =>
    a.map (·.getD x 0) ++ c.map (·.getD x 0)

/-- A complete tap line written to its place in the ring, for Beryl (R167, R337). -/
def State.tapWrite (s : State) (t : TapLine) : State :=
  let n := s.tapSlots
  let used := s.beryl.taps.map (·.slot)
  let slot := ((List.range n).find? fun k => !used.contains ((s.beryl.tapNext + k) % n)).getD 0
  let slot := (s.beryl.tapNext + slot) % n
  let s := s.wrMem (s.rgnBase 4 + 0x1800000 + slot * tapBytes) t.bytes
  let s := s.inc SC_TAP_STAT_WRITTEN
  let s := if t.missing then s.inc SC_TAP_MISS_MISSING else s
  let e : TapEntry :=
    { slot := slot, ord := t.ord, jobId := t.jobId, first := t.first, depth := t.depth
      pitchDiv := ((s.runOf t.ord t.page).map (·.pitchDiv)).getD 0, pos := t.pos, page := t.page, bars := t.bars
      gap := t.gap, unfit := t.missing || t.ovs, matched := false }
  { s with beryl := { s.beryl with
      taps := s.beryl.taps ++ [e]
      tapNext := (slot + 1) % n } }

/-- Whether every bar of a tap line has screened all its lines. -/
def TapLine.complete (t : TapLine) : Bool := (barsOf t.bars).all fun b => decide (t.depth ≤ (t.sums.getD b (0, [], [])).1)

/-- A screened line delivered to the tap writer (R139, R166, R167): lost while C2 has no tokens, and as a free value has it while C2 has a
share of them (R472, log 12). -/
def State.tapLine (s : State) (r : PageRun) (b line : Nat) (ovs : Bool) (vols c4 : List Nat) : State :=
  let s := s.tapBegin r b line
  let shed := s.c2Shed || (decide (s.c2Tokens < 100) && Config.tapLost s.free)
  let s := { s with free := s.free + 1 }
  let taps := s.screen.taps.map fun t =>
    if t.ord == r.ord && decide (t.first ≤ line) && decide (line < t.first + t.depth) then t.take b ovs shed vols c4 else t
  let s := { s with screen := { s.screen with taps := taps.filter (!·.complete) } }
  s.each (taps.filter (·.complete)) fun s t => s.tapWrite t

/-- The level fired at each column of a bar: the one its keeping slot holds, 0 where no slot lies. -/
def State.colLevels (s : State) (b : Nat) (levels : List (List Nat)) : List Nat :=
  let segs := ((s.segs b).zip levels).map fun p => (p.1, p.2.toArray, s.is (SC_BAR_SEG_COL_REVERSE b p.1.1))
  (List.range 94488).map fun x => segs.foldl (fun v p =>
    let q := p.1
    if q.2.1 ≤ x ∧ x < q.2.1 + q.2.2 then
      max v (p.2.1.getD (if p.2.2 then q.2.1 + q.2.2 - 1 - x else x - q.2.1) 0)
    else v) 0

/-! The proof ring (R139–R141, R98–R100) -/

/-- The encoder of a bar's streams (log 24). -/
def proofEnc (b : Nat) : Nat := b % 4

/-- The streams of a page (R140). -/
def State.proofStreams (s : State) (r : PageRun) : List ProofStream :=
  let mk (layer b width rows bps : Nat) : ProofStream :=
    ⟨proofEnc b, r.ord, r.page, layer, b, width, bps, rows, [], [], [], false, false⟩
  if gapGet r.set PG_PROOF_SCOPE = 1 then
    r.bars.map fun b => mk 8 b (cdiv 94488 (1 + r.gridX)) (cdiv r.lines (1 + r.gridY)) 3
  else
    (List.range 8).flatMap fun n =>
      let l := layerOf r.set n
      if l.varying && r.contributes l then
        l.bars.map fun b => mk n b (l.wg r.gridX) (l.hg r.gridY)
          (if l.format = 1 then s.get (SC_BAR_CFG_DROP_BITS b) + 1 else 3)
      else []

def ProofStream.isOf (x : ProofStream) (r : PageRun) : Bool := x.ord == r.ord && x.page == r.page
def ProofStream.is (x y : ProofStream) : Bool :=
  x.ord == y.ord && x.page == y.page && x.layer == y.layer && x.bar == y.bar

def State.modStream (s : State) (x : ProofStream) (f : ProofStream → ProofStream) : State :=
  { s with screen := { s.screen with streams := s.screen.streams.map fun y => if y.is x then f y else y } }
def State.stream (s : State) (x : ProofStream) : ProofStream := (s.screen.streams.find? (·.is x)).getD x

/-- Strips of the body of an image write (R449). -/
def ImgOp.strips (o : ImgOp) : Nat := cdiv o.rawLen 131072

/-- Whether an image write has a body to encode still: a stream of encoder 0 (log 24). -/
def ImgOp.encodes (o : ImgOp) : Bool := !o.erase && !o.failed && decide (o.next < o.strips)
def State.imgEncodes (s : State) : Bool := (s.dcp.imgOp.map (·.encodes)).getD false

/-- What an encoder shows of the streams it holds: of several, LINES_PENDING is the first gathering one's (log 24, DESIGN
CHOICE). -/
def State.encShow (s : State) (n : Nat) : State :=
  let mine := s.screen.streams.filter (·.enc == n)
  let s := s.flag (CS_ENC_STAT_BUSY n) (!mine.isEmpty || (n == 0 && s.imgEncodes))
  s.put (CS_ENC_STAT_LINES_PENDING n) (((mine.find? fun x => !x.rows.isEmpty).map (·.rows.length)).getD 0)

/-- Whether self-verify applies to a stream (R99). -/
def State.verifies (s : State) (x : ProofStream) : Bool := x.layer != 8 || s.is CS_ENC_GLOBAL_VERIFY_ALL

/-- A new stream shown by its encoder's configuration, until a later one is; WIDTH_M1 has 12 bits and shows the low 12 of a
plane's width - 1 (log 24, DESIGN CHOICE). -/
def State.streamOpen (s : State) (x : ProofStream) : State :=
  let n := x.enc
  let s := (s.put (CS_ENC_CFG_WIDTH_M1 n) (x.width - 1)).put (CS_ENC_CFG_BPS n) x.bps
  let s := ((s.put (CS_ENC_CFG_LINES_M1 n) 31).flag (CS_ENC_CFG_VERIFY n) (s.verifies x)).put (CS_ENC_CFG_DEST n) 0
  ({ s with screen := { s.screen with streams := s.screen.streams ++ [x] } }).flag (CS_ENC_STAT_FAILED n) false |>.encShow n

/-- The page's entry is INCOMPLETE (R139): reported once. -/
def State.proofLost (s : State) (ord page : Nat) : State :=
  match s.runOf ord page with
  | none => s
  | some r =>
    if r.proofBad then s
    else (s.modRun ord page fun r => { r with proofBad := true }).raise 0x330A 0 (packPage r.job page) 0

/-- A strip's geometry from its samples: its width and whether it closes its plane (R98). -/
def proofGeom (bps width n : Nat) (last : Bool) : StripGeom :=
  { bps := bps, widthM1 := width - 1, linesM1 := n / width - 1, last := last, flushed := last && decide (n / width < 32) }

/-- A finished strip: to self-verify, or released (R99). -/
def State.stripOut (s : State) (x : ProofStream) (last : Bool) (width : Nat) (ss : List Nat) : State :=
  if s.verifies x then s.modStream x fun y => { y with verify := y.verify ++ [(last, width, ss)] }
  else
    let bs := encodeStrip (proofGeom x.bps width ss.length last) (s.get (CS_ENC_CFG_MODE_EN x.enc)) ss
    (s.modStream x fun y => { y with strips := y.strips ++ [bs] }).inc (CS_ENC_STAT_STRIPS x.enc)

/-- The rows gathered closed as a strip row, 4,096 samples wide at most (R98), in C3: while that is shed the close waits (R29,
R472). -/
def State.stripClose (s : State) (x : ProofStream) (last : Bool) : State :=
  let rows := (s.stream x).rows
  if rows.isEmpty then s
  else if s.c3Shed then s.modStream x fun y => { y with closing := true }
  else
    let s := s.modStream x fun y => { y with rows := [], closing := false }
    s.each (List.range (cdiv x.width 4096)) fun s c =>
      let w := min 4096 (x.width - 4096 * c)
      s.stripOut x last w (rows.flatMap fun row => (row.drop (4096 * c)).take w)

/-- A row into a stream: the strip closes at the row height and at the end of the page (R98, R139), and before it where a flush
has waited. -/
def State.streamRow (s : State) (x : ProofStream) (row : List Nat) : State :=
  let s := if (s.stream x).closing then s.stripClose x true else s
  let s := if s.c3Shed then (s.modStream x fun y => { y with rowsLeft := y.rowsLeft - 1 }).proofLost x.ord x.page
    else s.modStream x fun y => { y with rowsLeft := y.rowsLeft - 1, rows := y.rows ++ [row] }
  let y := s.stream x
  let s := if y.rowsLeft = 0 then s.stripClose x true else if 32 ≤ y.rows.length then s.stripClose x false else s
  s.encShow x.enc

/-- The entry of R141 for a page whose streams have all ended. -/
def proofEntry (r : PageRun) (streams : List ProofStream) : List Byte :=
  let pad (bs : List Byte) : List Byte := bs ++ List.replicate (cdiv bs.length 64 * 64 - bs.length) 0
  let strips := streams.flatMap (·.strips)
  let layers := (streams.map (·.layer)).eraseDups.foldl (fun m n => if n < 8 then m ||| 2 ^ n else m) 0
  let layers := if gapGet r.set PG_PROOF_SCOPE = 1 then
      (List.range 8).foldl (fun m n => if r.contributes (layerOf r.set n) then m ||| 2 ^ n else m) 0
    else layers
  let head := leBytes 4 (0x50F7 + gapGet r.set PG_PROOF_SCOPE * 2 ^ 16 + b2n r.proofBad * 2 ^ 17 + layers * 2 ^ 24) ++
    leBytes 4 r.jobId ++ leBytes 4 (r.page % 2 ^ 24) ++ leBytes 4 r.firstLine ++ leBytes 4 r.lines ++
    leBytes 4 (strips.length % 65536) ++ leBytes 4 (unsgn 32 r.start)
  pad (head ++ leBytes 4 (crc32c head)) ++ strips.flatMap pad

/-- A page's entry written once all its streams have ended; one larger than the ring is not written (R140). It is written in C3:
while that is shed it waits (R27, R29). -/
def State.proofClose (s : State) (ord page : Nat) : State :=
  match s.runOf ord page with
  | none => s
  | some r =>
    let mine := s.screen.streams.filter (·.isOf r)
    if s.c3Shed || mine.isEmpty || mine.any (fun x => x.rowsLeft != 0 || !x.rows.isEmpty || !x.verify.isEmpty) then s
    else
      let s := { s with screen := { s.screen with streams := s.screen.streams.filter (!·.isOf r) } }
      let s := s.each (List.range 4) State.encShow
      let bs := proofEntry r mine
      let size := s.rgnSize 3
      if size < bs.length then
        (s.proofLost ord page).inc PG_PROOF_STAT_INCOMPLETE
      else
        let off := if size < s.screen.proofNext + bs.length then 0 else s.screen.proofNext
        let s := (s.wrMem (s.rgnBase 3 + off) bs).inc PG_PROOF_STAT_WRITTEN
        let s := { s with screen := { s.screen with proofNext := off + bs.length } }
        let s := s.modRun ord page fun r => { r with proofOff := some off }
        if r.proofBad then s.inc PG_PROOF_STAT_INCOMPLETE else s

/-- A composed page line delivered to the proof writer (R139, R140). -/
def State.proofLine (s : State) (r : PageRun) (b p : Nat) : State :=
  if gapGet r.set PG_PROOF_MODE = 0 then s
  else
    let fresh := p == 0 && !s.screen.streams.any (·.isOf r) &&
      r.bars.all fun c => c == b || (match (s.screenBar c).lastLine with
        | some (o, l) => decide (o < r.ord) || (o == r.ord && decide (l < r.firstLine))
        | none => true)
    let s := if fresh then s.each (s.proofStreams r) State.streamOpen else s
    let s := s.each (s.screen.streams.filter fun x => x.isOf r && x.bar == b && x.rowsLeft != 0) fun s x =>
      if x.layer = 8 then
        (if p % (1 + r.gridY) = 0 then s.streamRow x (s.composeRow r b (p / (1 + r.gridY))).toList else s)
      else
        let l := layerOf r.set x.layer
        let gy := l.gy r.gridY
        let y0 := l.y / gy
        if p % gy = 0 ∧ y0 ≤ p / gy ∧ p / gy < y0 + l.hg r.gridY then
          let row := if l.format = 1 then (s.layerRow r l b (p / gy - y0)).vals.toList.map (·.getD 0)
            else ((s.composeRow r b (p / gy)).toList.drop (l.x / l.gx r.gridX)).take (l.wg r.gridX)
          s.streamRow x row
        else s
    s.proofClose r.ord r.page

/-- Strips and entries that have waited for C3 go on once it has its tokens back (R29). -/
def State.proofsSettle (s : State) : State :=
  if s.c3Shed then s
  else
    let s := s.each (s.screen.streams.filter (·.closing)) fun s x => (s.stripClose x true).encShow x.enc
    s.each ((s.screen.streams.map fun x => (x.ord, x.page)).eraseDups) fun s k => s.proofClose k.1 k.2

/-- FLUSH (R98): every strip the encoder gathers is closed; with no line gathered nothing changes. The rule speaks of one stream
of an encoder: where it serves several, all of them are flushed (log 24, DESIGN CHOICE). -/
def State.flush (s : State) (n : Nat) : State :=
  let mine := s.screen.streams.filter fun x => x.enc == n && !x.rows.isEmpty
  if mine.isEmpty then s else (s.each mine fun s x => s.stripClose x true).encShow n

/-- What a write to a CS_ register sets off. -/
def actCs (a mask val : Nat) (_before s : State) : Nat × State :=
  match instOf (CS_ENC_CTRL 0) 0x20 4 a with
  | some n => (stOk, if bit (mask &&& val) 0 then s.flush n else s)
  | none => (stOk, s)

/-- Self-verify found a difference on an encoder, in a strip for a destination (R100, R103). -/
def State.encDiffers (s : State) (n dest : Nat) : State := (s.addSat (CS_ENC_VFAIL_VERIFY_FAIL n) 1).raise 0x3202 n dest 0

/-- The RAW retry differed too: the stream has failed (R100, R103). -/
def State.encFails (s : State) (n dest : Nat) : State :=
  ((s.flag (CS_ENC_STAT_FAILED n) true).addSat (CS_ENC_VFAIL_ENCODE_FAIL n) 1).raise 0x3203 n dest 0

/-- The self-verify of a proof stream's strip ends (R99, R100): released, rewritten as RAW and released, or discarded with
its stream failed; the stream's later strips go on into an entry that is INCOMPLETE (log 24). -/
def State.verifyEnd (s : State) (n : Nat) (o : VerifyOutcome) : State :=
  match s.screen.streams.find? fun x => x.enc == n && !x.verify.isEmpty with
  | none => s
  | some x =>
    match x.verify with
    | [] => s
    | (last, width, ss) :: rest =>
      let s := s.modStream x fun y => { y with verify := rest }
      let g := proofGeom x.bps width ss.length last
      let release (s : State) (modeEn : Nat) : State :=
        (s.modStream x fun y => { y with strips := y.strips ++ [encodeStrip g modeEn ss] }).inc (CS_ENC_STAT_STRIPS n)
      let s := match o with
        | .equal => release s (s.get (CS_ENC_CFG_MODE_EN n))
        | .rawEqual => release (s.encDiffers n 0) 0
        | .rawDiffers =>
          (((s.encDiffers n 0).modStream x fun y => { y with failed := true }).encFails n 0).proofLost x.ord x.page
      (s.encShow n).proofClose x.ord x.page

/-! A line (R111, R139, R257) -/

/-- Whether a bar may begin composition of its next line now (R111, R200, R260). -/
def State.mayCompose (s : State) (b : Nat) (r : PageRun) (line : Nat) : Bool :=
  s.webGoes && decide (s.composeAt r line b ≤ s.now) && (line != r.firstLine || decide (r.checkTick < s.tick)) &&
    !s.predHeld (s.lineFp r line b) (s.predFor b r.ord line) &&
    (s.barChans b).all fun ch => !s.flowing ch || decide (s.outstanding ch < s.get (JL_OUT_WINDOW ch))

/-- The record of one channel's line as composed; VOID when its composition falls in SAFE, STALE or DEMOTED (R304, R384,
R395). -/
def State.lineOf (s : State) (r : PageRun) (b line ch : Nat) (levels : List Nat) (void : Bool) (deps : List (Nat × Nat × Nat)) :
    ChanLine :=
  let lead := s.predFor b r.ord line
  let fp := s.lineFp r line b
  let three := s.is (SC_BAR_CFG_DROP_BITS b)
  let payload := payloadOf (if three then 3 else 2) levels
  { seq := s.get (JL_SEQ_NEXT_SEQ ch), bar := b, job := r.job, ord := r.ord, line := line, page := r.page, fp := fp
    pred := s.predict fp lead, lead := lead, stamp := none, startAt := s.now, doneAt := s.now
    void := void || s.voidAll || s.is PR_STAT_STALE || s.is PR_STAT_DEMOTED
    safe := s.is FS_SAFE_STAT_SAFE, bits3 := three, gap := !r.inPage line, test := (r.stripAt b line).isSome, slots := levels.length
    pchk := crc32c payload, payload := payload
    unsent := s.is PR_STAT_RESYNC_PHASE || !s.inRole || s.is GL_ROLE_STAT_REPLAY, voided := false, deps := deps }

/-- A channel's line put in flight; on a lane too slow for the job it is discarded (R242, R244). -/
def State.linePut (s : State) (ch : Nat) (x : ChanLine) : State :=
  let s := s.modLines ch fun l => l ++ [x]
  let s := s.slackShow ch ((x.pred : Int) - x.doneAt)
  if s.is (LANE_STAT_RATE_LOW ch) && !x.unsent then s.lineDiscard ch x else s

/-- The next SEQ of every channel of a bar (R257). -/
def State.seqAll (s : State) (b : Nat) : State := s.each (barLanes b) fun s ch => s.inc (JL_SEQ_NEXT_SEQ ch)

/-- RATE_LOW of a bar's lanes for the job of the line about to be composed, at the job's first line (R244). -/
def State.startRates (s : State) (b : Nat) (r : PageRun) : State :=
  if (s.screenBar b).lastLine.map (·.1) == some r.ord then s
  else
    match s.jobAt r.job with
    | some j => s.each (barLanes b) fun s l => s.flag (LANE_STAT_RATE_LOW l) (s.rateFails l j)
    | none => s

/-- The first line of a bar's test strip: the strip is printed (R354, BY_STRIP_STAT). -/
def State.stripPrinted (s : State) (b : Nat) (r : PageRun) (line : Nat) : State :=
  if (r.stripAt b line).isSome && (r.stripAt b (line - 1)).isNone then
    let s := { s with beryl := { s.beryl with bars := modAt s.beryl.bars b fun x =>
      { x with forced := false, lastStrip := some s.now } } }
    s.inc BY_STRIP_STAT_STRIPS
  else s

/-- A line composed, screened and handed on at a bar. -/
def State.composeLine (s : State) (b : Nat) (r : PageRun) (line : Nat) : State :=
  let s := s.startRates b r
  let s := match (s.screenBar b).armed with
    | some a => if a.dueAt s.scan.jobs r line then s.armApply b a else s
    | none => s
  let s := (s.ovsReach b r.ord line).regStep b (s.regFor b r.ord line)
  let s := s.ovsDecide r b
  let st := s.get (SC_BAR_OVS_STATE b)
  let deps := s.lineDeps r b line
  let s := s.each deps fun s d => s.stripNeed r d.1 d.2.1 d.2.2
  let void := deps.any fun d => (s.slotOf d.1 d.2.1 d.2.2).ue
  let c4 := s.c4Line r b line
  let chans := s.barChans b
  let first := s.get (JL_SEQ_NEXT_SEQ (12 * b))
  let screened := st = 0 ∨ (st = 1 ∧ line % 2 = 0)
  let levels := if screened then s.barLevels r b line c4 else []
  let lines := if screened then (chans.zip levels).map fun p => (p.1, s.lineOf r b line p.1 p.2 void deps) else []
  let s := s.each lines fun s p => s.linePut p.1 p.2
  let s := (s.seqAll b).stripPrinted b r line
  let s := if screened then s
    else if st = 1 then s.inc (SC_BAR_DECIM_DROPPED b)
    else (s.inc (SC_BAR_DECIM_STOPPED b)).wasteOfLine 4 r line
  let s := s.digLine r b line first (if screened then lines.map (·.2.pchk) else chans.map fun _ => 0)
  let vols := (if screened then s.colLevels b levels else List.replicate 94488 0).map (s.vol b)
  let s := s.tapLine r b line (st != 0) vols c4.toList
  let s := if r.inPage line then
      (s.freezeLine r.ord r.page b (line - r.firstLine)).proofLine r b (line - r.firstLine)
    else s
  let s := if line + 1 == r.firstLine + r.lines && s.farBar r.bars == some b then
      s.modRun r.ord r.page fun x => { x with lastFp := s.lineFp r line b } else s
  let ahead (f : Nat × Nat × Int) : Bool := decide (s.qInterp < (f.2.2 : Rat))
  let s := s.modBar b fun x => { x with
    lastLine := some (r.ord, line), fps := x.fps.filter ahead ++ [(r.ord, line, s.lineFp r line b)] }
  let s := s.digSettle b
  if (s.barJobs b).any (·.order == r.ord) then s else s.rateShow b

/-- LINE_COMPOSE_START: the bar's next line, where it may begin now. -/
def State.composeNext (s : State) (b : Nat) : State :=
  match s.nextLine b with
  | none => s
  | some (r, line) => if s.mayCompose b r line then s.composeLine b r line else s

end Sys2Proof.Machine
end

