-- ==== Sys2Proof/Machine/Camera.lean ====
section
/-! DEFINITION. The camera interface and the image pipeline (spec/10): frames and lines received, placed, corrected and
mapped, observed lines, the registration-mark finder and proof comparison; and the emulated encoder's edges (R192, R316). -/

namespace Sys2Proof.Machine

def State.camCtx (s : State) (n : Nat) : CamCtx := s.cam.ctxs.getD n CamCtx.reset
def State.modCtx (s : State) (n : Nat) (f : CamCtx → CamCtx) : State :=
  { s with cam := { s.cam with ctxs := modAt s.cam.ctxs n f } }

/-! A context's adopted registers (R321), in the order of camCtxAddrs -/

def cfgAt (c : List Nat) (i hi lo : Nat) : Nat := bits (c.getD i 0) hi lo
def cfgEn (c : List Nat) : Bool := cfgAt c 0 0 0 == 1
def cfgFmt (c : List Nat) : Nat := cfgAt c 0 1 1
def cfgStripeMode (c : List Nat) : Bool := cfgAt c 0 2 2 == 1
def cfgEnco (c : List Nat) : Nat := cfgAt c 0 3 3
def cfgDiv (c : List Nat) : Nat := 2 ^ cfgAt c 0 5 4
def cfgStripe (c : List Nat) : Nat := cfgAt c 0 11 6
def cfgPixels (c : List Nat) : Nat := cfgAt c 1 13 0
def cfgLines (c : List Nat) : Nat := cfgAt c 1 23 14 + 1
def cfgLat (c : List Nat) : Nat := c.getD 3 0
def cfgOfs (c : List Nat) : Nat := c.getD 4 0
def cfgX0 (c : List Nat) : Nat := cfgAt c 13 16 0
def cfgXn (c : List Nat) : Nat := cfgAt c 13 30 17

/-! Placing lines (R315–R317) -/

/-- Whether an edge is a trigger edge of a context (R315). -/
def isTrigger (c : List Nat) (e : EncoEdge) : Bool := e.k % cfgDiv c == 1 % cfgDiv c

/-- Half a trigger spacing in pu (R317). -/
def State.halfSpacing (s : State) (c : List Nat) : Nat :=
  let cpm := s.get (WP_ENCO_CPM_CPM (cfgEnco c))
  (cfgDiv c * 32000000 + cpm / 2) / cpm

def State.edgesOf (s : State) (c : List Nat) : List EncoEdge := s.cam.edges.getD (cfgEnco c) []

/-- The latest trigger edge at or before a device time (R317). -/
def State.triggerAt (s : State) (c : List Nat) (at_ : Int) : Option EncoEdge :=
  (s.edgesOf c).find? fun e => isTrigger c e && decide ((e.time : Int) ≤ at_)

/-- The i-th trigger edge after edge a (R317). -/
def State.triggerAfter (s : State) (c : List Nat) (a : EncoEdge) (i : Nat) : Option EncoEdge :=
  if i = 0 then some a
  else (((s.edgesOf c).takeWhile (· != a)).reverse.filter (isTrigger c))[i - 1]?

/-- The trigger edge of line i of a frame with edge a (R317): where a has left the history, the edge of its number
(log 59). -/
def State.lineEdge (s : State) (c : List Nat) (a : EncoEdge) (i : Nat) : Option EncoEdge :=
  if (s.edgesOf c).contains a then s.triggerAfter c a i
  else (s.edgesOf c).find? fun e => e.k == a.k + i * cfgDiv c && decide (a.time ≤ e.time)

/-- Reference position of line i of a frame with edge a (R317). -/
def State.camPos (s : State) (c : List Nat) (a : EncoEdge) (i : Nat) : Option Int :=
  (s.lineEdge c a i).map fun e => e.pos + s.halfSpacing c - cfgOfs c

/-! The emulated encoder's edges (R192, R316) -/

/-- The next edge of an output, kept in its history and counted by the contexts it triggers (R316, R322). -/
def State.encoStep (s : State) (n : Nat) : State :=
  let before := (s.enco n).k
  let s := s.encoEdge n
  let e := s.enco n
  if e.k = before then s
  else
    let edge : EncoEdge := ⟨e.k, encoPos e.origin e.k (s.get (WP_ENCO_CPM_CPM n)), s.now⟩
    let s := { s with cam := { s.cam with edges := modAt s.cam.edges n fun l => (edge :: l).take 4096 } }
    s.each (idxs 16 fun c => (s.is (CM_CTX_CFG_EN c) || s.is (CM_CTX_STAT_RECEIVING c)) && s.get (CM_CTX_CFG_ENCO c) == n) fun s c =>
      s.modCtx c fun x => { x with edges := x.edges + 1 }

def execEncoEdge (t n : Nat) (s : State) : Host.Outcome State Fault Refusal :=
  run t (fun s => s.encoStep n) s

/-! Marks discarded lines touch (R328) -/

/-- The window of a page's mark at a bar: its page, and its two ends (R327). -/
def State.markWindow (s : State) (r : PageRun) (b : Nat) : Int × Int :=
  let c := r.start + (s.get (CM_MARK_POS_VALUE b) : Nat)
  let w : Int := (s.get ⟨CM_MARK_SEARCH, 23, 0⟩ : Nat)
  (c - w, c + w)

/-- The windows not yet judged: page run and bar. -/
def State.markOpen (s : State) : List (PageRun × Nat) :=
  s.scan.runs.flatMap fun r => (r.bars.filter (s.markWaits r)).map fun b => (r, b)

def MarkWin.isOf (m : MarkWin) (r : PageRun) (b : Nat) : Bool := m.ord == r.ord && m.page == r.page && m.bar == b

/-- A window's record changed, made when there is none. -/
def State.modMark (s : State) (r : PageRun) (b : Nat) (f : MarkWin → MarkWin) : State :=
  let l := if s.cam.marks.any (·.isOf r b) then s.cam.marks else s.cam.marks ++ [⟨r.ord, r.page, b, [], false⟩]
  { s with cam := { s.cam with marks := l.map fun m => if m.isOf r b then f m else m } }

/-- A line of the searched context discarded: the windows it lies in are missed (R328). -/
def State.markLost (s : State) (n : Nat) (c : List Nat) (a : Option EncoEdge) (i : Nat) : State :=
  match a.bind fun a => s.camPos c a i with
  | none => s
  | some r =>
    if s.is CM_MARK_CFG_EN && s.get CM_MARK_CFG_CTX == n then
      s.each (s.markOpen.filter fun p => decide ((s.markWindow p.1 p.2).1 ≤ r) && decide (r ≤ (s.markWindow p.1 p.2).2))
        fun s p => s.modMark p.1 p.2 fun m => { m with bad := true }
    else s

/-! Frames (R317–R319, R321) -/

/-- Whether a port receives (R310, R322). -/
def State.portOn (s : State) (port : Nat) : Bool := s.inRole && decide (port < 4) && s.is (CM_PORT_CFG_EN port)

/-- Event 0x5103, once a frame (R319). -/
def State.frameFlag (s : State) (n : Nat) : State :=
  match (s.camCtx n).frame with
  | some f => if f.flagged then s
      else (s.modCtx n fun x => { x with frame := x.frame.map fun f => { f with flagged := true } }).raise 0x5103 n 0 0
  | none => s

/-- A frame closed: counted and recorded (R319, R485). -/
def State.frameClose (s : State) (n : Nat) (f : CamFrame) (short ovf : Bool) : State :=
  let s := (s.modCtx n fun x => { x with count := x.count + 1 }).inc (CM_CTX_STAT_FRAMES n)
  s.record 0x07 f.stamp (leBytes 4 (n + b2n short * 16 + b2n f.long * 32 + b2n ovf * 64) ++
    leBytes 4 (f.no % 2 ^ 22 + min f.lines 1023 * 2 ^ 22) ++ leBytes 4 ((f.edge.map (·.k)).getD 0))

/-- The open frame of a context ended: short when it has too few lines, or when a new one starts before its end (`cut`); one
already truncated is only let go. -/
def State.frameEnd (s : State) (n : Nat) (cut : Bool) : State :=
  match (s.camCtx n).frame with
  | none => s
  | some f =>
    let short := cut || decide (f.lines < cfgLines f.cfg)
    let s := if f.tooLong then s
      else
        let s := if short then (s.inc (CM_CTX_DROP1_LOW n)).frameFlag n else s
        s.frameClose n f short false
    s.modCtx n fun x => { x with frame := none }

/-- A Frame Start (R317, R319, R321, R322, R366). -/
def State.frameStart (s : State) (n ago : Nat) : State :=
  let s := s.frameEnd n true
  let c := (camCtxAddrs n).map s.rd
  let s := s.modCtx n fun x => { x with adopted := c, errSeen := false }
  if !cfgEn c then s.flag (CM_CTX_STAT_RECEIVING n) false
  else
    let stamp := s.now - ago
    let a := s.triggerAt c ((stamp : Int) - cfgLat c)
    let f : CamFrame := ⟨(s.camCtx n).count, stamp, a, c, 0, false, false, false⟩
    let s := s.modCtx n fun x => { x with frame := some f, edges := 0, silent := false }
    let s := (s.flag (CM_CTX_STAT_RECEIVING n) true).flag BY_STAT_NOCAM false
    if a.isNone then (s.inc (CM_CTX_DROP3_LOW n)).raise 0x5104 n 0 0 else s

/-- Event 0x5101, once a frame (R311): once from one Frame Start to the next, also in a context that is not enabled. -/
def State.packetError (s : State) (port n : Nat) : State :=
  if (s.camCtx n).errSeen then s else (s.modCtx n fun x => { x with errSeen := true }).raise 0x5101 port 0 0

/-- A packet's header (R311): 0 good; 1 a single-bit error, corrected and counted, which a Frame Start's new frame bears; 2 not to be
corrected, the packet discarded. -/
def State.headerIn (s : State) (port : Nat) (h : CsiHead) (f : State → State) : State :=
  let n := 4 * port + h.vc
  if h.ecc = 2 then (s.inc (CM_PORT_ERR_LOW port)).packetError port n
  else if h.ecc = 1 then (f (s.inc (CM_PORT_ERR2_HIGH port))).packetError port n
  else f s

def execCsiFrameStart (t port : Nat) (hdr : CsiHead) (ago : Nat) (s : State) : Host.Outcome State Fault Refusal :=
  run t (fun s =>
    if s.portOn port && decide (hdr.vc < 4) then s.headerIn port hdr fun s => s.frameStart (4 * port + hdr.vc) ago else s) s

def execCsiFrameEnd (t port : Nat) (hdr : CsiHead) (s : State) : Host.Outcome State Fault Refusal :=
  run t (fun s =>
    if s.portOn port && decide (hdr.vc < 4) then s.headerIn port hdr fun s => s.frameEnd (4 * port + hdr.vc) false else s) s

/-- Bytes buffered on a port (R318). -/
def State.portBytes (s : State) (port : Nat) : Nat :=
  ((s.cam.queue.filter fun l => l.ctx / 4 == port).map (·.bytes)).sum

/-- Samples of RAW10: four in five bytes, the fifth holding their two low bits from the first sample up (R312, log 56). -/
def raw10 : List Byte → List Nat
  | a :: b :: c :: d :: e :: l =>
    let low (k : Nat) : Nat := e.toNat / 4 ^ k % 4
    (a.toNat * 4 + low 0) :: (b.toNat * 4 + low 1) :: (c.toNat * 4 + low 2) :: (d.toNat * 4 + low 3) :: raw10 l
  | _ => []

/-- Samples of RAW12: two in three bytes, the third holding their four low bits (R312, log 56). -/
def raw12 : List Byte → List Nat
  | a :: b :: c :: l => (a.toNat * 16 + c.toNat % 16) :: (b.toNat * 16 + c.toNat / 16) :: raw12 l
  | _ => []

/-- A line's packet within its context's open frame (R318, R319). -/
def State.lineIn (s : State) (n words : Nat) (bad : Bool) (raw : List Byte) : State :=
  match (s.camCtx n).frame with
  | none => s
  | some f =>
    let c := f.cfg
    let i := f.lines
    let s := s.modCtx n fun x => { x with frame := x.frame.map fun f => { f with lines := f.lines + 1 } }
    if f.tooLong then s.markLost n c f.edge i
    else if cfgLines c ≤ i then
      let s := s.modCtx n fun x => { x with frame := x.frame.map fun f => { f with long := true } }
      ((s.inc (CM_CTX_DROP1_HIGH n)).frameFlag n).markLost n c f.edge i
    else if bad || words != camWords (cfgFmt c) (cfgPixels c) then
      ((s.inc (CM_CTX_DROP2_HIGH n)).frameFlag n).markLost n c f.edge i
    else
      match f.edge with
      | none => s
      | some a =>
        if 524288 < s.portBytes (n / 4) + words then
          let s := (s.inc (CM_CTX_DROP2_LOW n)).raise 0x5102 n 0 0
          let s := s.frameClose n f false true
          (s.modCtx n fun x => { x with frame := x.frame.map fun f => { f with tooLong := true } }).markLost n c f.edge i
        else
          { s with cam := { s.cam with queue := s.cam.queue ++ [⟨n, f.no, i, words, s.now, a, c,
            if cfgFmt c = 1 then raw12 raw else raw10 raw⟩] } }

/-- A packet other than Frame Start and Frame End (R311, R312): Line Start and Line End are ignored, embedded data discarded,
other types counted; a long packet of a camera line is taken. -/
def State.packetIn (s : State) (port vc dtype words : Nat) (crcOk : Bool) (raw : List Byte) : State :=
  let n := 4 * port + vc
  if dtype = 0x02 ∨ dtype = 0x03 ∨ dtype = 0x12 then s
  else if dtype ≠ 0x2B ∧ dtype ≠ 0x2C then s.inc (CM_PORT_ERR2_LOW port)
  else
    let s := if crcOk then s else (s.inc (CM_PORT_ERR_HIGH port)).packetError port n
    let fmt := match (s.camCtx n).frame with
      | some f => cfgFmt f.cfg
      | none => 0
    s.lineIn n words (!crcOk || dtype != 0x2B + fmt) raw

def execCsiLine (t port vc hdr dtype words : Nat) (crcOk : Bool) (raw : List Byte) (s : State) :
    Host.Outcome State Fault Refusal :=
  run t (fun s =>
    if s.portOn port && decide (vc < 4) then s.headerIn port ⟨vc, hdr⟩ fun s => s.packetIn port vc dtype words crcOk raw else s) s

/-- The edges of a context's output without a Frame Start after which it is silent (R322), from the values it has adopted or,
while it has adopted none, the live ones. -/
def State.silentAfter (s : State) (n : Nat) : Nat :=
  let a := (s.camCtx n).adopted
  let c := if cfgEn a then a else (camCtxAddrs n).map s.rd
  2 * cfgLines c * cfgDiv c

/-- A context that receives no frames (R322): RECEIVING falls, and 0x5109 is raised for an enabled one, once until frames have
resumed. -/
def execCamSilent (t n : Nat) (s : State) : Host.Outcome State Fault Refusal :=
  run t (fun s =>
    if s.inRole && decide (n < 16) && decide (s.silentAfter n ≤ (s.camCtx n).edges) then
      let s := s.flag (CM_CTX_STAT_RECEIVING n) false
      if s.is (CM_CTX_CFG_EN n) && !(s.camCtx n).silent then
        (s.modCtx n fun x => { x with silent := true }).raise 0x5109 n 0 0
      else s
    else s) s

/-! The engine (R320) -/

/-- Whether the unit of work under way has ended. -/
def State.unitOver (s : State) : Bool :=
  let c := s.get CM_PIPE_STAT_CTX
  let mine := s.cam.queue.filter (·.ctx == c)
  let cfg := (mine.head?.map (·.cfg)).getD (s.camCtx c).adopted
  if !s.is CM_PIPE_STAT_BUSY then true
  else if cfgStripeMode cfg then
    decide (cfgStripe cfg ≤ s.cam.unitLines) || (mine.isEmpty && s.cam.queue.any (·.ctx != c))
  else
    let gone := match (s.camCtx c).frame with
      | some f => f.tooLong || some f.no != s.cam.unitFrame
      | none => true
    gone && !mine.any fun l => some l.frame == s.cam.unitFrame

/-- The buffered line that arrived first; on equal stamps, of the lower context. -/
def State.oldestLine (s : State) : Option CamLine :=
  s.cam.queue.foldl (fun r l => match r with
    | none => some l
    | some k => if l.arrived < k.arrived ∨ (l.arrived = k.arrived ∧ l.ctx < k.ctx) then some l else some k) none

/-- A switch: the engine, which runs in a role (R322), takes a context, or rests when no line waits. -/
def execPipeSwitch (t : Nat) (s : State) : Host.Outcome State Fault Refusal :=
  run t (fun s =>
    if !s.inRole || !s.unitOver || s.c2Shed then s
    else match s.oldestLine with
      | none => s.flag CM_PIPE_STAT_BUSY false
      | some l =>
        let s := ((s.put CM_PIPE_STAT_CTX l.ctx).flag CM_PIPE_STAT_BUSY true).inc CM_PIPE_STAT_SWITCHES
        { s with cam := { s.cam with unitLines := 0, unitFrame := some l.frame } }) s

/-! Correction, conversion and mapping (R323, R324) -/

/-- The four densities of a pixel from its samples (R323). -/
def State.density (s : State) (n : Nat) (c : List Nat) (p : Nat) (raw : List Nat) : List Nat :=
  let four := cfgFmt c == 1
  let sh := if four then 0 else 2
  let black (k : Nat) : Nat := cfgAt c (5 + k / 2) (16 * (k % 2) + 11) (16 * (k % 2))
  let v (k : Nat) : Int :=
    let f := s.rd (0x1400000 + 0x20000 * n + 16 * p + 4 * k)
    let x : Int := (raw.getD k 0 * 2 ^ sh : Nat) - (black k : Nat)
    clamp (sar ((x - sgn 16 (bits f 31 16)) * (bits f 15 0 : Nat) + 8192) 14) 0 4095
  let v0 := v 0
  let v1 := v 1
  let v2 := v 2
  let v3 := if four then v 3 else 0
  let x3 := if four then v3 else 4095
  let m (i k : Nat) : Int := sgn 16 (cfgAt c (7 + 2 * i + k / 2) (16 * (k % 2) + 15) (16 * (k % 2)))
  let y (i : Nat) : Nat := (clamp (sar (m i 0 * v0 + m i 1 * v1 + m i 2 * v2 + m i 3 * x3 + 2048) 12) 0 4095).toNat
  let dt (i y : Nat) : Nat := s.tableHalf (0x1600000 + 0x8000 * n + 0x2000 * i + 2 * y)
  [dt 0 (y 0), dt 1 (y 1), dt 2 (y 2), if four then dt 3 v3.toNat else 0]

/-- The pixel position of column X0 + u, in 1/256 pixel (R324). -/
def pixelPos (c : List Nat) (u : Nat) : Int :=
  sar (sgn 32 (c.getD 14 0) * 2 ^ 32 + ((cfgAt c 15 23 0 * u * 2 ^ 18 : Nat) : Int) + sgn 32 (c.getD 16 0) * ((u * u : Nat) : Int)) 32

/-- A line's columns (R324): none where no value falls. -/
def State.mapLine (s : State) (n : Nat) (c : List Nat) (raw : List Nat) : List (Option (Nat × Nat × Nat × Nat)) :=
  let per := if cfgFmt c = 1 then 4 else 3
  let pixels := cfgPixels c
  let px : Array (List Nat) := ((linesOf per pixels raw).zipIdx.map fun p => s.density n c p.2 p.1).toArray
  (List.range (cfgXn c)).map fun u =>
    let p := pixelPos c u
    let i := sar p 8
    if i < 0 ∨ (pixels : Int) - 2 < i then none
    else
      let w := (p % 256).toNat
      let a := px.getD i.toNat []
      let b := px.getD (i.toNat + 1) []
      let mix (k : Nat) : Nat := (a.getD k 0 * (256 - w) + b.getD k 0 * w + 128) / 256
      some (mix 0, mix 1, mix 2, mix 3)

/-! The registration-mark finder (R327, R328) -/

def chanOf (v : Nat × Nat × Nat × Nat) (k : Nat) : Nat := [v.1, v.2.1, v.2.2.1, v.2.2.2].getD k 0

/-- The mean of the finder's channel over its columns, of those that have a value. -/
def State.markMean (s : State) (p : Processed) : Option Rat :=
  let x0 := bits (s.rd CM_MARK_WIN) 16 0
  let w := bits (s.rd CM_MARK_WIN) 26 17 + 1
  let vals := (List.range w).filterMap fun k =>
    if p.first ≤ x0 + k then ((p.cols.getD (x0 + k - p.first) none).map fun v => chanOf v (s.get CM_MARK_CFG_CH)) else none
  if vals.isEmpty then none else some ((vals.sum : Nat) / (vals.length : Nat) : Rat)

/-- The first crossing of THR between consecutive lines in order of r (R327). -/
def markCross (thr : Rat) (falling : Bool) : List (Int × Rat) → Option Rat
  | a :: b :: l =>
    let hit := if falling then decide (thr < a.2) && decide (b.2 ≤ thr) else decide (a.2 < thr) && decide (thr ≤ b.2)
    if hit then some ((a.1 : Rat) + (thr - a.2) * ((b.1 - a.1 : Int) : Rat) / (b.2 - a.2)) else markCross thr falling (b :: l)
  | _ => none

/-- A line put among lines in order of r. -/
def insertLine (x : Int × Rat) : List (Int × Rat) → List (Int × Rat)
  | [] => [x]
  | y :: l => if x.1 < y.1 then x :: y :: l else y :: insertLine x l

/-- Whether a page's window runs into the next page's (R328). -/
def State.markRuns (s : State) (r : PageRun) (b : Nat) : Bool :=
  s.scan.runs.any fun q => (decide (r.ord < q.ord) || (r.ord == q.ord && decide (r.page < q.page))) && bit q.barMask b &&
    decide ((s.markWindow q b).1 ≤ (s.markWindow r b).2)

/-- A window that lines have passed is judged (R327, R328); with the finder off it is only let go. -/
def State.markJudged (s : State) (r : PageRun) (b : Nat) : State :=
  let win := (s.cam.marks.find? (·.isOf r b)).getD ⟨r.ord, r.page, b, [], false⟩
  let s := { s with cam := { s.cam with
    marks := s.cam.marks.filter fun m => !m.isOf r b
    markDone := modAt s.cam.markDone b fun _ => some (r.ord, r.page) } }
  if !s.is CM_MARK_CFG_EN then s
  else
    match (if win.bad || s.markRuns r b then none else markCross (s.get CM_MARK_CFG_THR : Nat) (s.is CM_MARK_CFG_POL) win.lines) with
    | some x =>
      let e : Int := (x + 1 / 2).floor - (r.start + (s.get (CM_MARK_POS_VALUE b) : Nat))
      let s := (s.wr (CM_MARK_ERR b) (unsgn 32 e)).setBitOf CM_MARK_STAT_FOUND b true
      { s with cam := { s.cam with markRes := s.cam.markRes ++ [(r.ord, r.page, b, e)] } }
    | none =>
      let s := (s.setBitOf CM_MARK_STAT_FOUND b false).inc CM_MARK_STAT_MISSED
      if s.cam.missedPage = some (r.ord, r.page) then s
      else ({ s with cam := { s.cam with missedPage := some (r.ord, r.page) } }).raise 0x5106 (s.get CM_MARK_CFG_CTX) 0 0

/-- With the finder off, the windows that the web has carried past its camera are let go (R327): none of them is missed when it is
switched on. -/
def State.marksSkip (s : State) : State :=
  if s.is CM_MARK_CFG_EN then s
  else
    let at_ : Int := s.qPu - (s.get (CM_CTX_OFS_VALUE (s.get CM_MARK_CFG_CTX)) : Nat)
    s.each (s.markOpen.filter fun q => decide ((s.markWindow q.1 q.2).2 < at_)) fun s q => s.markJudged q.1 q.2

/-- A processed line of the searched context (R327). -/
def State.markLine (s : State) (n : Nat) (p : Processed) : State :=
  if s.get CM_MARK_CFG_CTX ≠ n then s
  else
    let win := s.markOpen
    let s := s.each (win.filter fun q => decide ((s.markWindow q.1 q.2).2 < p.r)) fun s q => s.markJudged q.1 q.2
    match s.markMean p with
    | none => s
    | some m =>
      if !s.is CM_MARK_CFG_EN then s
      else s.each (win.filter fun q => decide ((s.markWindow q.1 q.2).1 ≤ p.r) && decide (p.r ≤ (s.markWindow q.1 q.2).2))
        fun s q => s.modMark q.1 q.2 fun w => { w with lines := insertLine (p.r, m) w.lines }

/-! Proof comparison (R329, R330) -/

/-- The page-relative line a reference position lies on. -/
def PageRun.relLine (r : PageRun) (pos : Int) : Int := (pos - r.start) * 3 / (4064 * (r.pitchDiv + 1) : Nat)

/-- One observed value taken into its tile. -/
def tilePut (key : Nat × Nat) (v : Nat × Nat × Nat × Nat) :
    List ((Nat × Nat) × (Nat × List Nat)) → List ((Nat × Nat) × (Nat × List Nat))
  | [] => [(key, (1, [v.1, v.2.1, v.2.2.1, v.2.2.2]))]
  | t :: l => if t.1 = key then (key, (t.2.1 + 1, t.2.2.zipWith (· + ·) [v.1, v.2.1, v.2.2.1, v.2.2.2])) :: l
      else t :: tilePut key v l

/-- The rectangle of a layer on a page under comparison. -/
def PageRun.rect (r : PageRun) (n : Nat) : ProofRect :=
  let l := layerOf r.set n
  ⟨r.ord, r.page, n, l.x, l.w, l.y, l.h, []⟩

def ProofRect.isOf (x : ProofRect) (r : PageRun) (n : Nat) : Bool := x.ord == r.ord && x.page == r.page && x.layer == n

/-- The layers of a page that are compared. -/
def PageRun.proofLayers (r : PageRun) : List Nat :=
  (List.range 8).filter fun n => let l := layerOf r.set n; l.enable && l.varying

/-- An observed line taken into the tiles of the pages under comparison (R329). -/
def State.proofObs (s : State) (p : Processed) : State :=
  let tile := s.get CM_PROOF_CFG_TILE_LINES
  s.each (s.scan.runs.filter fun r => gapGet r.set PG_PROOF_MODE == 2 && !r.compared) fun s r =>
    let rel := r.relLine p.r
    s.each r.proofLayers fun s n =>
      let q := (s.cam.rects.find? (·.isOf r n)).getD (r.rect n)
      if rel < q.y ∨ (q.y + q.h : Int) ≤ rel then s
      else
        let row := (rel.toNat - q.y) / tile
        let tiles := p.cols.zipIdx.foldl (fun ts v => match v.1 with
          | none => ts
          | some d =>
            let x := p.first + v.2
            if q.x ≤ x ∧ x < q.x + q.w then tilePut ((x - q.x) / 64, row) d ts else ts) q.tiles
        { s with cam := { s.cam with rects := (s.cam.rects.filter fun x => !x.isOf r n) ++ [{ q with tiles := tiles }] } }

/-- The means of a tile. -/
def tileMeans (t : Nat × List Nat) : List Rat := t.2.map fun v => (v : Nat) / (t.1 : Nat)

/-- The tiles of a rectangle that have changed against another (R329). -/
def changedTiles (delta : Nat) (a b : ProofRect) : Nat :=
  (a.tiles.filter fun t => match b.tiles.find? (·.1 == t.1) with
    | none => false
    | some u => (List.zip (tileMeans t.2) (tileMeans u.2)).any fun p =>
        decide ((delta : Rat) < p.1 - p.2) || decide ((delta : Rat) < p.2 - p.1)).length

/-- Whether a rectangle passes (R329). -/
def State.rectPasses (s : State) (q : ProofRect) : Bool :=
  match s.cam.lastRects.find? (·.layer == q.layer) with
  | none => true
  | some o => o.ord != q.ord || (o.x, o.w, o.y, o.h) != (q.x, q.w, q.y, q.h) ||
      decide (s.get CM_PROOF_CFG_MIN_TILES ≤ changedTiles (s.get CM_PROOF_CFG_DELTA) q o)

/-- The contexts now enabled. -/
def State.camsOn (s : State) : List Nat := idxs 16 fun n => s.is (CM_CTX_CFG_EN n)

/-- Whether a rectangle has been observed whole (R330): every column mapped, every tile row with an observed line. -/
def State.rectSeen (s : State) (q : ProofRect) : Bool :=
  let maps := s.camsOn.map fun n => (s.get (CM_CTX_MAP_X_X0 n), s.get (CM_CTX_MAP_X_X0 n) + s.get (CM_CTX_MAP_X_XN n))
  ((List.range q.w).all fun k => maps.any fun m => decide (m.1 ≤ q.x + k) && decide (q.x + k < m.2)) &&
    (List.range (cdiv q.h (s.get CM_PROOF_CFG_TILE_LINES))).all fun row => q.tiles.any fun t => t.1.2 == row

/-- Where Q must stand for a page's result to fall due (R330): 64,000 pu to the mm. -/
def State.proofDue (s : State) (r : PageRun) : Int :=
  let far := s.camsOn.foldl (fun m n => max m (s.get (CM_CTX_OFS_VALUE n))) 0
  r.start + offPu r.pitchDiv ((r.lines : Int) - 1) + far + (s.get CM_PROOF_DUE_DUE_MM * 64000 : Nat)

/-- A page's result (R330): what R135 waits for is answered. -/
def State.proofResult (s : State) (r : PageRun) : State :=
  let rects := r.proofLayers.map fun n => (s.cam.rects.find? (·.isOf r n)).getD (r.rect n)
  let seen := !r.proofBad && rects.all s.rectSeen
  let pass := rects.all s.rectPasses
  let s := s.modRun r.ord r.page fun r => { r with compared := true }
  let told (f : Surface) : Surface := { f with waits := f.waits.filter (· != (r.ord, r.page)) }
  let s := { s with
    ingest := { s.ingest with surfs := s.ingest.surfs.map told }
    cam := { s.cam with rects := s.cam.rects.filter fun x => !(x.ord == r.ord && x.page == r.page) } }
  if !seen then (s.inc CM_PROOF_STAT2_LOW).raise 0x5108 0 0 0
  else
    let kept := s.cam.lastRects.filter fun x => !rects.any (·.layer == x.layer)
    let s := { s with cam := { s.cam with lastRects := kept ++ rects } }
    if pass then s.inc CM_PROOF_STAT_LOW
    else
      let s := (s.inc CM_PROOF_STAT_HIGH).raise 0x5107 0 0 0
      if s.is CM_PROOF_CFG_FAIL_WASTE && s.authoritative then s.wasteCopy 4 r.span.1 r.span.2 else s

/-- A page of a job slot falls due for its result; the comparison waits for C2 tokens (R27, R472). -/
def execProofResult (t slot page : Nat) (s : State) : Host.Outcome State Fault Refusal :=
  run t (fun s =>
    match s.scan.runs.find? fun r => r.job == slot && r.page == page && !r.compared && gapGet r.set PG_PROOF_MODE == 2 with
    | none => s
    | some r => if s.inRole && !s.c2Shed && decide (s.proofDue r ≤ s.qPu) then s.proofResult r else s) s

/-! Observed lines (R326) -/

/-- An observed line's bytes: the columns from the first to the last that has a value. -/
def obsBytes (n : Nat) (p : Processed) (t : TapEntry) : List Byte :=
  let skip := (p.cols.takeWhile (·.isNone)).length
  let cols := (((p.cols.drop skip).reverse.dropWhile (·.isNone)).reverse).map fun v => v.getD (0, 0, 0, 0)
  let pos := unsgn 48 p.r
  let head := leBytes 4 (0x0B5E + n * 2 ^ 16 + b2n p.nir * 2 ^ 20) ++ leBytes 4 (p.first + skip + cols.length * 2 ^ 17) ++
    leBytes 4 t.jobId ++ leBytes 4 t.first ++ leBytes 4 pos ++ leBytes 4 (pos / 2 ^ 32) ++
    leBytes 4 (p.frame % 2 ^ 22 + p.idx * 2 ^ 22)
  head ++ leBytes 4 (crc32c head) ++ cols.flatMap fun v =>
    leBytes 2 v.1 ++ leBytes 2 v.2.1 ++ leBytes 2 v.2.2.1 ++ leBytes 2 v.2.2.2

/-- Where a line of a length goes in the ring without touching a line Beryl has not read. -/
def State.obsPlace (s : State) (len : Nat) : Option Nat :=
  let size := s.rgnSize 5
  let free (off : Nat) : Bool := decide (off + len ≤ size) &&
    s.cam.obs.all fun o => decide (o.off + o.len ≤ off) || decide (off + len ≤ o.off)
  if free s.cam.obsNext then some s.cam.obsNext
  else if decide (size < s.cam.obsNext + len) && free 0 then some 0 else none

/-- An observed line written for a tap line (R326). -/
def State.obsWrite (s : State) (n : Nat) (p : Processed) (t : TapEntry) : State :=
  let bs := obsBytes n p t
  match s.obsPlace bs.length with
  | none => s.inc (CM_CTX_DROP3_HIGH n)
  | some off =>
    let s := s.wrMem (s.rgnBase 5 + off) bs
    let o : ObsLine := ⟨off, bs.length, t.jobId, t.first⟩
    let s := { s with cam := { s.cam with obs := s.cam.obs ++ [o], obsNext := off + bs.length } }
    s.proofObs p

/-- Twice the centre of a tap line's span (R326). -/
def TapEntry.centre2 (t : TapEntry) : Int := 2 * t.pos + offPu t.pitchDiv t.depth

/-- The tap lines a processed line has reached: each takes the nearer of it and the line before, within h (R326). -/
def State.obsLine (s : State) (n h : Nat) (p : Processed) : State :=
  let prev := (s.camCtx n).prev
  let due := s.beryl.taps.filter fun t => !(s.camCtx n).taps.contains (t.ord, t.first) && decide (t.centre2 ≤ 2 * p.r)
  let s := s.each due fun s t =>
    let s := s.modCtx n fun x => { x with
      taps := (t.ord, t.first) :: x.taps.filter fun k => s.beryl.taps.any fun u => (u.ord, u.first) == k }
    let dist (q : Processed) : Nat := (2 * q.r - t.centre2).natAbs
    let best := match prev with
      | some q => if dist q ≤ dist p then q else p
      | none => p
    if dist best ≤ 2 * h then s.obsWrite n best t else s
  s.modCtx n fun x => { x with prev := some p }

/-- Whether a line's trigger edge has left the history, so that it cannot be placed (R316, R317). -/
def State.edgeGone (s : State) (l : CamLine) : Bool :=
  !(s.edgesOf l.cfg).contains l.edge && (s.lineEdge l.cfg l.edge l.idx).isNone

/-- One line through the engine (R323–R327): the first buffered line of the context served, once its trigger edge has
come; a line whose edge has left the history cannot be placed. -/
def State.lineProcess (s : State) : State :=
  let n := s.get CM_PIPE_STAT_CTX
  match s.cam.queue.find? fun l => l.ctx == n with
  | none => s
  | some l =>
    let taken : State := { s with cam := { s.cam with queue := s.cam.queue.erase l, unitLines := s.cam.unitLines + 1 } }
    if s.edgeGone l then taken
    else match s.camPos l.cfg l.edge l.idx with
      | none => s
      | some r =>
        let p : Processed := ⟨r, cfgX0 l.cfg, s.mapLine n l.cfg l.raw, cfgFmt l.cfg == 1, l.frame, l.idx⟩
        (taken.obsLine n (s.halfSpacing l.cfg) p).markLine n p

/-- The engine's next line within its unit of work; it does nothing without C2 tokens (R27, R472). -/
def execLineProcessed (t : Nat) (s : State) : Host.Outcome State Fault Refusal :=
  run t (fun s => if s.inRole && s.is CM_PIPE_STAT_BUSY && !s.unitOver && !s.c2Shed then s.lineProcess else s) s

/-! Tables (R321, R325) -/

/-- The context whose flat field or density table a window address lies in. -/
def camTableAt (a : Nat) : Option Nat :=
  if 0x1400000 ≤ a ∧ a < 0x1600000 then some ((a - 0x1400000) / 0x20000)
  else if 0x1600000 ≤ a ∧ a < 0x1680000 then some ((a - 0x1600000) / 0x8000)
  else none

/-- A camera table changes only while its context's live EN is 0 (R321). -/
def State.limitCamTable (s : State) (a : Nat) : Verdict :=
  match camTableAt a with
  | some n => busyWhen (s.is (CM_CTX_CFG_EN n))
  | none => none

end Sys2Proof.Machine
end

