-- ==== Sys2Proof/Machine/BerylObs.lean ====
section
/-! DEFINITION. Beryl observes (spec/11): the unprinted web (R334, R335), matching (R336, R337), accumulation windows and
column accumulators (R339–R342), overlap accumulators (R347) and strip figures (R357). Densities carry 16 fraction
bits. -/

namespace Sys2Proof.Machine

def State.byBar (s : State) (b : Nat) : BerylBar := s.beryl.bars.getD b BerylBar.reset
def State.modBy (s : State) (b : Nat) (f : BerylBar → BerylBar) : State :=
  { s with beryl := { s.beryl with bars := modAt s.beryl.bars b f } }

/-- The entry of a key in a list in order of keys, changed, or put in its place. -/
def putBy {α : Type} (key : α → Nat) (k : Nat) (f : Option α → α) : List α → List α
  | [] => [f none]
  | x :: l => if key x = k then f (some x) :: l else if k < key x then f none :: x :: l else x :: putBy key k f l

/-- A number divided by 2^k and rounded to nearest. -/
def roundShift (v : Int) (k : Nat) : Int := if k = 0 then v else sar (v + 2 ^ (k - 1)) k

/-! Sensitivities (R333) -/

/-- s(k,b) of a set. -/
def sensAt (g : GapSet) (k b : Nat) : Int :=
  let w := gapWord g (BY_SENS k (b / 2))
  sgn 16 (bits w (16 * (b % 2) + 15) (16 * (b % 2)))

/-- Whether a channel takes part: some bar's sensitivity is not 0, and the head has the channel. -/
def sensOn (g : GapSet) (nir : Bool) (k : Nat) : Bool := (k != 3 || nir) && (List.range 8).any fun b => sensAt g k b != 0

/-! Slots of a column -/

/-- The segments in use of a bar that cover a column, with their places among those in use, ascending. -/
def State.colSegs (s : State) (b x : Nat) : List ((Nat × Nat × Nat) × Nat) :=
  (s.segs b).zipIdx.filter fun p => decide (p.1.2.1 ≤ x) && decide (x < p.1.2.1 + p.1.2.2)

/-- The slot of a segment at a column, numbered 8,192 × segment + slot. -/
def State.slotCode (s : State) (b : Nat) (q : Nat × Nat × Nat) (x : Nat) : Nat :=
  8192 * q.1 + (if s.is (SC_BAR_SEG_COL_REVERSE b q.1) then q.2.1 + q.2.2 - 1 - x else x - q.2.1)

def recAddr (b code : Nat) : Nat := 0x1800000 + 0x60000 * b + 4 * code

/-! The unprinted web (R334, R335) -/

def State.white (s : State) (x : Nat) : Option WhiteCol := s.beryl.whites.find? (·.col == x)

/-- A white observation of a column: set directly the first time and after a change of camera settings, else moved by 2^-WSHIFT of the difference. -/
def State.whiteTake (s : State) (x : Nat) (d : List Nat) : State :=
  let sh := s.get BY_WHITE_CFG_WSHIFT
  let new : List Int := d.map fun v => ((v * 65536 : Nat) : Int)
  let was := s.white x
  let step (o : Option WhiteCol) : WhiteCol := match o with
    | some w => { w with
        e := if w.anew then new else w.e.zipWith (fun e v => e + sar (v - e) sh) new, at_ := s.now, stale := false, anew := false }
    | none => ⟨x, new, s.now, false, false⟩
  let s := if (was.map (·.stale)).getD false then s.put BY_OBS_STAT2_STALE_COLS (s.get BY_OBS_STAT2_STALE_COLS - 1) else s
  { s with beryl := { s.beryl with whites := putBy (·.col) x step s.beryl.whites } }

/-- A column whose unprinted-web value has aged out leaves accumulation (R335); one that has no value yet has not been in it
(log 45). -/
def execWhiteStale (t x : Nat) (s : State) : Host.Outcome State Fault Refusal :=
  run t (fun s =>
    match s.white x with
    | none => s
    | some w =>
      if w.stale || !s.past w.at_ (s.get BY_WHITE_CFG_MAX_S * 1000000000) || !s.inRole then s
      else
        let first := s.get BY_OBS_STAT2_STALE_COLS = 0
        let age (w : WhiteCol) : WhiteCol := if w.col = x then { w with stale := true } else w
        let s := { s with beryl := { s.beryl with whites := s.beryl.whites.map age } }
        let s := s.put BY_OBS_STAT2_STALE_COLS (s.get BY_OBS_STAT2_STALE_COLS + 1)
        if first then s.raise 0x5206 0 0 0 else s) s

/-! Column accumulators (R340, R341) -/

/-- A column's accumulator entry. -/
structure ColAcc where
  n : List Int
  r : List Int
  yy : Int
  rows : Int
  scale : Nat
  gen : Nat
  windows : Nat
  last : Nat
  deriving DecidableEq, Repr

/-- The pairs (b, c), b ≤ c, in the order of R341. -/
def pairs36 : List (Nat × Nat) := (List.range 8).flatMap fun b => (List.range (8 - b)).map fun d => (b, b + d)

def ColAcc.empty (gen last : Nat) : ColAcc := ⟨List.replicate 36 0, List.replicate 8 0, 0, 0, 0, gen, 0, last⟩

def ColAcc.parse (bs : List Byte) : ColAcc :=
  let w (off : Nat) : Nat := leAt bs off 4
  { n := (List.range 36).map fun i => sgn 32 (w (4 * i)), r := (List.range 8).map fun i => sgn 32 (w (144 + 4 * i))
    yy := (w 176 : Int), rows := (w 180 : Int), scale := w 184 % 256, gen := w 184 / 256 % 256, windows := w 184 / 65536
    last := w 188 }

def ColAcc.bytes (a : ColAcc) : List Byte :=
  (a.n ++ a.r).flatMap (fun v => leBytes 4 (unsgn 32 v)) ++ leBytes 4 a.yy.toNat ++ leBytes 4 a.rows.toNat ++
    leBytes 4 (a.scale + a.gen * 256 + a.windows * 65536) ++ leBytes 4 a.last

def State.accAddr (s : State) (x : Nat) : Nat := s.rgnBase 4 + 192 * x
def State.colAcc (s : State) (x : Nat) : ColAcc := ColAcc.parse (s.rdMem (s.accAddr x) 192)
def State.putAcc (s : State) (x : Nat) (a : ColAcc) : State := s.wrMem (s.accAddr x) a.bytes

/-- Every entry halved, rounding to nearest, ties to even. -/
def halve (v : Int) : Int := if v % 4 = 3 then sar (v + 1) 1 else sar v 1

def ColAcc.halved (a : ColAcc) : ColAcc :=
  { a with n := a.n.map halve, r := a.r.map halve, yy := halve a.yy, rows := halve a.rows }

/-- N[b][b] × 2^SCALE at its largest (R342). -/
def ColAcc.peak (a : ColAcc) : Int :=
  ((pairs36.zip a.n).foldl (fun m p => if p.1.1 = p.1.2 then max m p.2 else m) 0) * 2 ^ a.scale

/-- A window's sums added at the entry's scale (R340). -/
def ColAcc.plus (a : ColAcc) (w : WinSum) : ColAcc :=
  { a with
    n := a.n.zipWith (fun v x => v + roundShift x (24 + a.scale)) w.n
    r := a.r.zipWith (fun v x => v + roundShift x (32 + a.scale)) w.r
    yy := a.yy + roundShift w.yy (40 + a.scale), rows := a.rows + w.rows }

/-- Whether every word of an entry fits. -/
def ColAcc.fits (a : ColAcc) : Bool :=
  (a.n ++ a.r).all (fun v => decide (-(2 ^ 31) ≤ v) && decide (v < 2 ^ 31)) && decide (a.yy < 2 ^ 32) && decide (a.rows < 2 ^ 32)

/-- A window added, the entry halved and its SCALE raised as often as it takes; none where SCALE would pass 15 (R340). -/
def ColAcc.add (a : ColAcc) (w : WinSum) : Nat → Option ColAcc
  | 0 => none
  | k + 1 =>
    let b := a.plus w
    if b.fits then some { b with windows := min (a.windows + 1) 0xFFFF }
    else if a.scale = 15 then none
    else ColAcc.add { a.halved with scale := a.scale + 1 } w k

/-! The window under way (R340) -/

/-- One row into a column's sums: x by bar, and the target y. -/
def WinSum.row (w : WinSum) (x : List Int) (y : Int) : WinSum :=
  { w with
    n := (pairs36.zip w.n).map fun p => p.2 + x.getD p.1.1 0 * x.getD p.1.2 0
    r := w.r.zipWith (fun r v => r + v * y) x, yy := w.yy + y * y, rows := w.rows + 1 }

def State.winRow (s : State) (col : Nat) (x : List Int) (y : Int) : State :=
  let step (o : Option WinSum) : WinSum := (o.getD ⟨col, List.replicate 36 0, List.replicate 8 0, 0, 0⟩).row x y
  { s with beryl := { s.beryl with win := putBy (·.col) col step s.beryl.win } }

/-- A column or overlap queued for solving, with the bars of its window (R342). -/
def State.solveQueue (s : State) (item bars : Nat) : State :=
  if s.beryl.queue.any (·.1 == item) then s
  else { s with beryl := { s.beryl with queue := s.beryl.queue ++ [(item, bars)] } }

/-! Matching (R336, R337) -/

/-- The strip of a gap, by its index, that a job line of a page's gap lies in. -/
def PageRun.stripIdx (r : PageRun) (line : Nat) : Option Nat :=
  match r.strips with
  | none => none
  | some g => (List.range g.strips.length).find? fun k =>
      let lo := r.firstLine + r.lines + g.ofs + k * (g.lines + g.space)
      decide (lo ≤ line) && decide (line < lo + g.lines)

/-- Where a tap span stands to the strips: none outside, `some (some k)` inside strip k, `some none` partly inside. -/
def PageRun.spanStrip (r : PageRun) (t : TapEntry) : Option (Option Nat) :=
  let l := (List.range t.depth).map fun k => r.stripIdx (t.first + k)
  let h := l.headD none
  if l.all (· == none) then none else if l.all (· == h) then some h else some none

/-- A tap line's column records, 16 bytes each. -/
def State.tapColumns (s : State) (t : TapEntry) : Array Byte :=
  (s.rdMem (s.rgnBase 4 + 0x1800000 + t.slot * tapBytes + 32) (94488 * 16)).toArray

/-- A_b of a column. -/
def tapInk (a : Array Byte) (b x : Nat) : Nat := (a.getD (16 * x + b) 0).toNat

/-- Whether a column is white (R334): no ink within GUARD columns of it. -/
def State.inkFree (s : State) (a : Array Byte) (x : Nat) : Bool :=
  let g := s.get BY_WHITE_CFG_GUARD
  (List.range (2 * g + 1)).all fun k => decide (x + k < g) || decide (94488 + g ≤ x + k) ||
    (List.range 8).all fun b => tapInk a b (x + k - g) == 0

/-- An observed line's columns: first, and the four densities of each. -/
def obsColumns (bs : Array Byte) : Nat × List (List Nat) :=
  let half (o : Nat) : Nat := (bs.getD o 0).toNat + 256 * (bs.getD (o + 1) 0).toNat
  let w := half 4 + 65536 * half 6
  (bits w 16 0, (List.range (bits w 30 17)).map fun k => (List.range 4).map fun c => half (32 + 8 * k + 2 * c))

/-! Overlap accumulators (R347) -/

def OvlAcc.key (o : OvlAcc) : Nat := (o.bar * 11 + o.boundary) * 256 + o.pos

def OvlAcc.peak (o : OvlAcc) : Int := max o.n00 o.n11 * 2 ^ o.scale

/-- One row into an overlap accumulator, at its scale. -/
def OvlAcc.row (o : OvlAcc) (x0 x1 y : Rat) : OvlAcc :=
  let sh (v : Rat) (k : Nat) : Int := (v / (2 : Rat) ^ (k + o.scale) + 1 / 2).floor
  { o with n00 := o.n00 + sh (x0 * x0) 24, n01 := o.n01 + sh (x0 * x1) 24, n11 := o.n11 + sh (x1 * x1) 24
           r0 := o.r0 + sh (x0 * y) 16, r1 := o.r1 + sh (x1 * y) 16, rows := o.rows + 1 }

def OvlAcc.fits (o : OvlAcc) : Bool :=
  ([o.n00, o.n01, o.n11, o.r0, o.r1].all fun v => decide (-(2 ^ 31) ≤ v) && decide (v < 2 ^ 31)) && decide (o.rows < 2 ^ 32)

def OvlAcc.halved (o : OvlAcc) : OvlAcc :=
  { o with n00 := halve o.n00, n01 := halve o.n01, n11 := halve o.n11, r0 := halve o.r0, r1 := halve o.r1
           rows := (halve o.rows).toNat }

/-- A row added, halving as often as it takes; none where SCALE would pass 15. -/
def OvlAcc.add (o : OvlAcc) (x0 x1 y : Rat) : Nat → Option OvlAcc
  | 0 => none
  | k + 1 =>
    let p := o.row x0 x1 y
    if p.fits then some p
    else if o.scale = 15 then none
    else OvlAcc.add { o.halved with scale := o.scale + 1 } x0 x1 y k

/-- The lines of a span on which the lower slot keeps an overlap column (R157, R347). -/
def State.lowerLines (s : State) (b : Nat) (t : TapEntry) (low : Nat × Nat × Nat) (x : Nat) : Nat :=
  ((List.range t.depth).filter fun k => s.keeps b (s.segs b) low x (t.first + k) (s.entryAt b low x)).length

/-! Strip figures (R357) -/

/-- The channel with the largest sensitivity to a bar. -/
def sensBest (g : GapSet) (b : Nat) : Nat :=
  (List.range 4).foldl (fun k c => if (sensAt g k b).natAbs < (sensAt g c b).natAbs then c else k) 0

/-- A strip's observation of a column. -/
def State.figObs (s : State) (r : PageRun) (strip b x : Nat) (ys : List Int) : State :=
  let y := ys.getD (sensBest r.set b) 0
  let is (f : StripFig) : Bool := f.ord == r.ord && f.page == r.page && f.strip == strip
  let step (o : Option (Nat × Int × Nat)) : Nat × Int × Nat := match o with
    | some c => (x, c.2.1 + y, c.2.2 + 1)
    | none => (x, y, 1)
  let figs := if s.beryl.figs.any is then s.beryl.figs else s.beryl.figs ++ [⟨r.ord, r.page, strip, b, []⟩]
  let put (f : StripFig) : StripFig := if is f then { f with cols := putBy (·.1) x step f.cols } else f
  { s with beryl := { s.beryl with figs := figs.map put } }

/-- The RMS of R357 over a strip's columns, in 0.01 %; a free value where the mean density is 0. -/
def figDev (cols : List (Nat × Int × Nat)) : Option Nat :=
  let ys : List Rat := cols.map fun c => (c.2.1 : Rat) / (c.2.2 : Nat)
  let n : Rat := ((ys.length : Nat) : Rat)
  let mean := ys.foldl (· + ·) 0 / n
  if mean = 0 then none
  else
    let ms := (ys.map fun y => (y / mean - 1) * (y / mean - 1)).foldl (· + ·) 0 / n
    some (isqrt ((ms * 100000000 + 1 / 2).floor.toNat))

/-- A strip measured whole: DEV of its bar (R357). -/
def State.figEnd (s : State) (f : StripFig) : State :=
  if f.cols.length < 1024 then s
  else
    let r : Nat × State := match figDev f.cols with
      | some d => (min d 65535, s)
      | none => let q := s.draw; ((Config.devOfNothing q.1).toNat, q.2)
    let s := r.2.wr (BY_BAR_DEV f.bar) (r.1 + 65536)
    if s.get BY_DEV_CFG_DEV_LIM < r.1 then s.raise 0x5208 f.bar 0 0 else s

/-- Tap lines the web has carried past every camera and Beryl has done with are freed (R337); strips whose tap lines
are all gone are measured. -/
def State.tapsFree (s : State) : State :=
  let far := s.camsOn.foldl (fun m n => max m (s.get (CM_CTX_OFS_VALUE n))) 0
  let keep (t : TapEntry) : Bool := decide (s.qPu ≤ t.pos + ((far + 640000 : Nat) : Int)) ||
    s.cam.obs.any fun o => o.jobId == t.jobId && o.first == t.first
  let taps := s.beryl.taps.filter keep
  let live (f : StripFig) : Bool := taps.any fun t => t.ord == f.ord && t.page == f.page &&
    (match s.runOf t.ord t.page with
     | some r => r.spanStrip t == some (some f.strip)
     | none => false)
  let done := s.beryl.figs.filter (!live ·)
  let s := { s with beryl := { s.beryl with taps := taps, figs := s.beryl.figs.filter live } }
  s.each done State.figEnd

/-! Region 4 (R337) -/

/-- The 16 bytes of a column's unprinted-web values, and the 32 bytes of an overlap accumulator, as they stand in region 4 (log 45). -/
def WhiteCol.bytes (w : WhiteCol) : List Byte := w.e.flatMap fun v => leBytes 4 (unsgn 32 v)
def OvlAcc.bytes (o : OvlAcc) : List Byte :=
  [o.n00, o.n01, o.n11, o.r0, o.r1].flatMap (fun v => leBytes 4 (unsgn 32 v)) ++ leBytes 4 o.rows ++ leBytes 4 o.scale ++ leBytes 4 o.gen

/-- A byte of region 4 by its offset: the per-slot records from 18 MiB, the unprinted web from 21 MiB and the overlap accumulators from
23 MiB are those the state holds; the rest is the store's. -/
def State.berylByte (s : State) (off : Nat) : Byte :=
  if 0x1200000 ≤ off ∧ off < 0x1500000 then
    (leBytes 4 (s.rd (0x1800000 + (off - 0x1200000) / 4 * 4))).getD (off % 4) 0
  else if 0x1500000 ≤ off ∧ off < 0x1700000 then
    (((s.white ((off - 0x1500000) / 16)).map (·.bytes)).getD []).getD (off % 16) 0
  else if 0x1700000 ≤ off ∧ off < 0x1800000 then
    (((s.beryl.ovls.find? fun o => o.key == (off - 0x1700000) / 32).map (·.bytes)).getD []).getD (off % 32) 0
  else (s.rdMem (s.rgnBase 4 + off) 1).headD 0

end Sys2Proof.Machine
end

