-- ==== Sys2Proof/Machine/BerylSolve.lean ====
section
/-! DEFINITION. Beryl solves (spec/11): windows closed into the column accumulators (R340), column and overlap solves
(R342–R347), per-slot records (R345), the confidence decay, and the residual (R362). -/

namespace Sys2Proof.Machine

/-! Per-slot records (R345, R365) -/

def State.slotRec (s : State) (b code : Nat) : Nat := s.rd (recAddr b code)
def recEff (w : Nat) : Nat := bits w 15 0
def recConf (w : Nat) : Nat := bits w 23 16
def recBelow (w : Nat) : Nat := bits w 27 24
def recMarked (w : Nat) : Bool := bit w 28

/-- A record written; the change waits for the copy of a unit that decides (R365, R485). -/
def State.recPut (s : State) (b code w : Nat) : State :=
  let a := recAddr b code
  if s.rd a = w then s
  else
    let s := s.wr a w
    if s.authoritative && !s.beryl.recDeltas.contains a then
      { s with beryl := { s.beryl with recDeltas := s.beryl.recDeltas ++ [a] } }
    else s

/-- EFF as Q2.14 of an accepted efficiency. -/
def effWord (a : Rat) : Nat := min 32767 (a * 16384 + 1 / 2).floor.toNat

/-- An accepted solve's record (R345, R351): `ovl` when an overlap accumulator gave it (R347). -/
def State.recAccept (s : State) (b code : Nat) (a : Rat) (ovl : Bool) : State :=
  let w := s.slotRec b code
  let e := effWord a
  let below := if e < s.get BY_NOZ_CFG_MISS_THR * 16 then min 15 (recBelow w + 1) else 0
  let w := setBits (setBits (setBits w 15 0 e) 23 16 (min 255 (recConf w + 32))) 27 24 below
  s.recPut b code (setBits w 30 29 (b2n ovl + 2))

/-- A slot has had an accepted solve: for the next apply cycle, and against the decay. -/
def State.slotTouch (s : State) (b code : Nat) : State :=
  let s := s.modBy b fun x => if x.touched.contains code then x else { x with touched := x.touched ++ [code] }
  if s.beryl.solved.contains (b, code) then s
  else { s with beryl := { s.beryl with solved := s.beryl.solved ++ [(b, code)] } }

/-- CONF of every slot whose column has had no accepted solve falls by 1 every 10 s (R345). -/
def execConfDecay (t : Nat) (s : State) : Host.Outcome State Fault Refusal :=
  run t (fun s =>
    if s.authoritative && s.past s.beryl.decayAt 10000000000 then
      let done := s.beryl.solved
      let s := { s with beryl := { s.beryl with solved := [], decayAt := s.now } }
      s.each (List.range 8) fun s b =>
        s.each (s.windowWords (recAddr b 0) bankSize) fun s p =>
          if recConf p.2 = 0 || done.contains (b, p.1 / 4) then s
          else s.recPut b (p.1 / 4) (setBits p.2 23 16 (recConf p.2 - 1))
    else s) s

/-! Linear algebra over rationals (R343) -/

/-- One row of a matrix less a multiple of another. -/
def rowMinus (r p : List Rat) (k : Rat) : List Rat := r.zipWith (fun x y => x - k * y) p

/-- Gauss–Jordan on column `c` and those after it; `none` where no pivot is left. -/
def gaussJordan (n : Nat) : Nat → Nat → List (List Rat) → Option (List (List Rat))
  | 0, _, m => some m
  | k + 1, c, m =>
    match (List.range n).find? fun r => decide (c ≤ r) && (m.getD r []).getD c 0 != 0 with
    | none => none
    | some r =>
      let top := m.getD c []
      let pivot := m.getD r []
      let one := pivot.map (· / pivot.getD c 1)
      let m := (m.set r top).set c one
      gaussJordan n k (c + 1) (m.zipIdx.map fun q => if q.2 = c then q.1 else rowMinus q.1 one (q.1.getD c 0))

/-- The solution of m a = v and the diagonal of m's inverse. -/
def solveSpd (m : List (List Rat)) (v : List Rat) : Option (List (Rat × Rat)) :=
  let n := v.length
  let unit_ (r : Nat) : List Rat := (List.range n).map fun c => if r = c then 1 else 0
  let aug := m.zipIdx.map fun q => q.1 ++ [v.getD q.2 0] ++ unit_ q.2
  (gaussJordan n n 0 aug).map fun x => (List.range n).map fun k =>
    ((x.getD k []).getD n 0, (x.getD k []).getD (n + 1 + k) 0)

/-- λ, and for each unknown its efficiency and s_b (R343). -/
structure Solved where
  lam : Rat
  a : List Rat
  sb : List Rat

/-- R343 for N, r and the priors; a free value for each unknown where the matrix has no inverse. -/
def State.solveRidge (s : State) (n : List (List Int)) (r : List Int) (ap : List Rat) : Solved × State :=
  let k := r.length
  let diag := (List.range k).map fun b => (n.getD b []).getD b 0
  let lam : Rat := (s.get BY_SOLVE_CFG_RIDGE : Nat) * ((diag.foldl max 0 : Int) : Rat) / 65536
  let m : List (List Rat) := n.zipIdx.map fun q => q.1.zipIdx.map fun e => (e.1 : Rat) + if q.2 = e.2 then lam else 0
  let v : List Rat := (r.zip ap).map fun q => (q.1 : Rat) * 255 / 256 + lam * q.2
  match solveSpd m v with
  | some x => (⟨lam, x.map (·.1), x.map fun q => 1 / q.2⟩, s)
  | none => (List.range k).foldl (fun (q : Solved × State) _ =>
      let d := q.2.draw
      let e := d.2.draw
      (⟨lam, q.1.a ++ [((Config.singularEff d.1).toNat : Rat) / 16384],
        q.1.sb ++ [((Config.singularExc e.1).toNat : Rat)]⟩, e.2)) (⟨lam, [], []⟩, s)

/-- The unknowns R343 accepts: `ok` says whether the unknown's bar is in the job and covers the column. -/
def State.acceptedOf (s : State) (x : Solved) (scale : Nat) (ok : Nat → Bool) : List Nat :=
  (List.range x.a.length).filter fun k =>
    let a := x.a.getD k 0
    ok k && decide (0 ≤ a) && decide (a < 2) &&
      decide ((s.get BY_EXC_MIN_EXC_MIN : Rat) ≤ (x.sb.getD k 0 - x.lam) * ((2 ^ scale : Nat) : Rat))

/-! A column (R343–R346) -/

/-- ap[b] of a column (R343). -/
def State.prior (s : State) (b x : Nat) : Rat :=
  let eff (q : Nat × Nat × Nat) : Rat := ((recEff (s.slotRec b (s.slotCode b q x)) : Nat) : Rat) / 16384
  match s.colSegs b x with
  | [] => 1
  | [(q, _)] => eff q
  | (low, m) :: (high, _) :: _ =>
    let p : Rat := ((s.tableByte (rampWin b m + (x - high.2.1)) : Nat) : Rat) / 255
    p * eff low + (1 - p) * eff high

/-- The mean square of R362 over an accumulator's rows, as (Σ of squares, rows). -/
def ColAcc.sse (a : ColAcc) (e : List Rat) : Rat :=
  let lin := (a.r.zip e).foldl (fun (t : Rat) q => t + (q.1 : Rat) * q.2) 0
  let quad := (pairs36.zip a.n).foldl (fun (t : Rat) p =>
    t + (p.2 : Rat) * e.getD p.1.1 0 * e.getD p.1.2 0 * (if p.1.1 = p.1.2 then 1 else 2)) 0
  max 0 ((a.yy : Rat) * 256 - lin * 131072 / 255 + quad * 16777216 / 65025)

/-- An accepted solve of a bar counted and dated (R362); its residual joins those of the last second. -/
def State.barSolved (s : State) (b : Nat) (sse : Option (Rat × Nat)) : State :=
  let s := ((s.inc (BY_BAR_SOLVES_COUNT b)).wr (BY_BAR_LAST_LO b) s.now).wr (BY_BAR_LAST_HI b) (s.now / 2 ^ 32)
  match sse with
  | none => s
  | some (q, rows) =>
    s.modBy b fun x => { x with resid := (x.resid.filter fun e => decide (s.now ≤ e.1 + 1000000000)) ++ [(s.now, q, rows)] }

/-- RESID of a bar (R362): the RMS over the rows solved in the last second, 0 before any solve, and a free value where that second has
none (log 45). -/
def State.residView (s : State) (b : Nat) : Nat :=
  let all := (s.byBar b).resid
  let sum := (all.filter fun e => decide (s.now ≤ e.1 + 1000000000)).foldl
    (fun (t : Rat × Nat) e => (t.1 + e.2.1, t.2 + e.2.2)) ((0, 0) : Rat × Nat)
  if all.isEmpty then 0
  else if sum.2 = 0 then (Config.residOfNothing s.clk).toNat
  else min 65535 (isqrt (sum.1 * 256 / ((sum.2 : Nat) : Rat)).floor.toNat)

/-- An entry halved until its excitation lies below EXC_MIN ÷ 2 (R344). -/
def ColAcc.fade (a : ColAcc) (excMin : Nat) : Nat → ColAcc
  | 0 => a
  | k + 1 => if 2 * a.peak < (excMin : Int) then a else ColAcc.fade a.halved excMin k

/-- A value put by key among pairs. -/
def putPair {α : Type} (l : List (Nat × α)) (k : Nat) (v : α) : List (Nat × α) := putBy (·.1) k (fun _ => (k, v)) l

/-- An accepted bar of a solved column (R345, R346): its slot's record, or the column's efficiency. -/
def State.colAccept (s : State) (x b : Nat) (a : Rat) (sse : Rat × Nat) : State :=
  let s := s.barSolved b (some sse)
  let s := s.modBy b fun y => { y with blockAt := putPair y.blockAt (x / 64) s.now }
  match s.colSegs b x with
  | [] => s
  | [(q, _)] =>
    let code := s.slotCode b q x
    (s.recAccept b code a false).slotTouch b code
  | l =>
    let s := s.modBy b fun y => { y with colEff := putPair y.colEff x a }
    s.each l fun s q => s.slotTouch b (s.slotCode b q.1 x)

/-- One column solved and its entry handled (R343, R344). -/
def State.colSolve (s : State) (x bars : Nat) : State :=
  let acc := s.colAcc x
  let at_ (b c : Nat) : Int := ((pairs36.zip acc.n).find? fun p => p.1 == (min b c, max b c)).elim 0 (·.2)
  let n : List (List Int) := (List.range 8).map fun b => (List.range 8).map fun c => at_ b c
  let r := s.solveRidge n acc.r ((List.range 8).map fun b => s.prior b x)
  let s := r.2
  let ok := s.acceptedOf r.1 acc.scale fun b => bit bars b && !(s.colSegs b x).isEmpty
  let last := s.now / 2 ^ 20 % 2 ^ 32
  if ok.isEmpty then
    (s.putAcc x { acc.fade (s.get BY_EXC_MIN_EXC_MIN) 64 with last := last }).inc BY_SOLVE_STAT_NONE_ACCEPTED
  else
    let s := (s.putAcc x (ColAcc.empty acc.gen last)).inc BY_SOLVE_STAT_SOLVES
    let sse := (acc.sse r.1.a * ((2 ^ acc.scale : Nat) : Rat), acc.rows.toNat * 2 ^ acc.scale)
    s.each ok fun s b => s.colAccept x b (r.1.a.getD b 0) sse

/-! An overlap accumulator (R347) -/

def OvlAcc.fade (o : OvlAcc) (excMin : Nat) : Nat → OvlAcc
  | 0 => o
  | k + 1 => if 2 * o.peak < (excMin : Int) then o else OvlAcc.fade o.halved excMin k

/-- One overlap accumulator solved for its lower and upper slot. -/
def State.ovlSolve (s : State) (key bars : Nat) : State :=
  match s.beryl.ovls.find? (·.key == key) with
  | none => s
  | some o =>
    let l := s.segs o.bar
    match l[o.boundary]?, l[o.boundary + 1]? with
    | some low, some high =>
      let x := high.2.1 + o.pos
      let codes := [s.slotCode o.bar low x, s.slotCode o.bar high x]
      let ap := codes.map fun c => ((recEff (s.slotRec o.bar c) : Nat) : Rat) / 16384
      let r := s.solveRidge [[o.n00, o.n01], [o.n01, o.n11]] [o.r0, o.r1] ap
      let s := r.2
      let ok := s.acceptedOf r.1 o.scale fun _ => bit bars o.bar
      let put (s : State) (l : List OvlAcc) : State := { s with beryl := { s.beryl with ovls := l } }
      let rest := s.beryl.ovls.filter (·.key != key)
      if ok.isEmpty then (put s (rest ++ [o.fade (s.get BY_EXC_MIN_EXC_MIN) 64])).inc BY_SOLVE_STAT_NONE_ACCEPTED
      else
        let s := ((put s rest).inc BY_SOLVE_STAT_SOLVES).barSolved o.bar none
        let s := s.modBy o.bar fun y => { y with ovlAt := putPair y.ovlAt o.boundary s.now }
        s.each ok fun s k =>
          let code := codes.getD k 0
          (s.recAccept o.bar code (r.1.a.getD k 0) true).slotTouch o.bar code
    | _, _ => s

/-- An overlap accumulator in its place. -/
def State.ovlPut (s : State) (o : OvlAcc) : State :=
  { s with beryl := { s.beryl with ovls := s.beryl.ovls.filter (·.key != o.key) ++ [o] } }

/-- The overlap accumulator of a bar, boundary and position, of a sensitivity generation. -/
def State.ovlAcc (s : State) (b m pos gen : Nat) : OvlAcc :=
  let new : OvlAcc := ⟨b, m, pos, 0, 0, 0, 0, 0, 0, 0, gen⟩
  ((s.beryl.ovls.find? (·.key == new.key)).filter (·.gen == gen)).getD new

/-- One row into an overlap accumulator (R347); one that would need SCALE above 15 is solved at once, in a unit that solves, and takes the
row then (R340, log 45). -/
def State.ovlRow (s : State) (b m pos gen bars : Nat) (x0 x1 y : Rat) : State :=
  let o := s.ovlAcc b m pos gen
  match o.add x0 x1 y 17 with
  | some p => s.ovlPut p
  | none =>
    if s.authoritative && !s.is BY_STAT_NOCAM then
      let s := (s.ovlPut o).ovlSolve o.key bars
      match (s.ovlAcc b m pos gen).add x0 x1 y 17 with
      | some p => s.ovlPut p
      | none => s
    else s

/-- A strip observation of an overlap column taken by the overlap accumulator (R347). -/
def State.ovlObs (s : State) (r : PageRun) (t : TapEntry) (b x ink : Nat) (nir : Bool) (ys : List Int) : State :=
  match s.colSegs b x with
  | [(low, m), (high, _)] =>
    let f : Rat := (s.lowerLines b t low x : Nat) / (t.depth : Nat)
    let gen := r.sensGen % 256
    let pos := x - high.2.1
    let s := (List.range 4).foldl (fun s k =>
      if sensOn r.set nir k then
        let x0 : Rat := ((sensAt r.set k b * (ink : Int) : Int) : Rat)
        s.ovlRow b m pos gen t.bars (x0 * f) (x0 * (1 - f)) ((ys.getD k 0 : Int) / 65536)
      else s) s
    let o := s.ovlAcc b m pos gen
    if (s.get BY_EXC_MIN_EXC_MIN : Int) ≤ o.peak then s.solveQueue (2 ^ 20 + o.key) t.bars else s
  | _ => s

/-! One observed line (R336, R339) -/

/-- The bars of a job that cover a column. -/
def State.colCovered (s : State) (bars x : Nat) : Bool := (barsOf bars).any fun b => !(s.colSegs b x).isEmpty

/-- A column of a matched observation: a white value, or rows. -/
def State.obsColumn (s : State) (r : PageRun) (t : TapEntry) (strip : Option Nat) (ink : Array Byte) (nir : Bool)
    (x : Nat) (d : List Nat) : State :=
  let s := if strip.isNone && s.inkFree ink x then s.whiteTake x d else s
  match s.white x with
  | none => s
  | some w =>
    if w.stale || s.past w.at_ (s.get BY_WHITE_CFG_MAX_S * 1000000000) || !s.is BY_CTRL_ACC_EN then s
    else
      let ys : List Int := d.zipWith (fun v e => ((v * 65536 : Nat) : Int) - e) w.e
      let s := if s.colCovered t.bars x then
          (List.range 4).foldl (fun s k =>
            if sensOn r.set nir k then
              s.winRow x ((List.range 8).map fun b => sensAt r.set k b * (tapInk ink b x : Nat)) (ys.getD k 0)
            else s) s
        else s
      match strip, r.strips with
      | some k, some g =>
        match g.strips[k]? with
        | some z =>
          if s.stripCol g z x then (s.ovlObs r t z.bar x (tapInk ink z.bar x) nir ys).figObs r k z.bar x ys else s
        | none => s
      | _, _ => s

/-! The solver's queue (R342) -/

/-- A queued item solved, unless its entry is of an older sensitivity generation (R333). -/
def State.solveItem (s : State) (q : Nat × Nat) : State :=
  let gen := s.beryl.gen % 256
  if q.1 < 2 ^ 20 then (if (s.colAcc q.1).gen = gen then s.colSolve q.1 q.2 else s)
  else if s.beryl.ovls.any fun o => o.key == q.1 - 2 ^ 20 && o.gen == gen then s.ovlSolve (q.1 - 2 ^ 20) q.2 else s

/-- The oldest queued solve, in a unit that solves (R364) with cameras (R366) and C2 not shed (R338). -/
def execColumnSolve (t : Nat) (s : State) : Host.Outcome State Fault Refusal :=
  run t (fun s =>
    match s.beryl.queue with
    | [] => s
    | q :: rest =>
      if s.authoritative && !s.is BY_STAT_NOCAM && !s.c2Shed then
        ({ s with beryl := { s.beryl with queue := rest } }).solveItem q
      else s) s

/-! Windows (R340) -/

/-- One column's sums into its accumulator (R340, R341). -/
def State.winColumn (s : State) (bars : Nat) (w : WinSum) : State :=
  let gen := s.beryl.gen % 256
  let fresh (s : State) : ColAcc := let a := s.colAcc w.col; if a.gen = gen then a else ColAcc.empty gen a.last
  let r : Option ColAcc × State := match (fresh s).add w 17 with
    | some a => (some a, s)
    | none =>
      if s.authoritative && !s.is BY_STAT_NOCAM then
        let s := s.colSolve w.col bars
        ((fresh s).add w 17, s)
      else (none, s)
  match r.1 with
  | none => r.2
  | some a => r.2.putAcc w.col a

/-- The columns whose accumulators hold anything, ascending. -/
def State.accCols (s : State) : List Nat :=
  let lo := s.accAddr 0
  let cols := (s.mem.filter fun c => decide (lo ≤ c.1) && decide (c.1 < s.accAddr 94488)).map fun c => (c.1 - lo) / 192
  cols.foldr (fun x l => if l.head? = some x then l else x :: l) []

/-- Every column whose excitation has reached EXC_MIN queued, after a window (R342). -/
def State.colsQueue (s : State) (bars : Nat) : State :=
  let gen := s.beryl.gen % 256
  s.each (s.accCols.filter fun x => (s.colAcc x).gen == gen && decide ((s.get BY_EXC_MIN_EXC_MIN : Int) ≤ (s.colAcc x).peak))
    fun s x => s.solveQueue x bars

/-- The window under way closed: its sums are added to the columns' entries, unless its sensitivities are no longer those
in force (R333, R340); then the columns that have enough are queued (R342). -/
def State.winClose (s : State) : State :=
  let win := s.beryl.win
  let gen := s.beryl.winGen
  let bars := s.beryl.winBars
  let s := { s with beryl := { s.beryl with win := [], winTaps := 0 } }
  (if gen = s.beryl.gen then s.each win fun s w => s.winColumn bars w else s).colsQueue bars

/-- No further matched tap line has come within 20 ms (R340). -/
def execAccWindowTimeout (t : Nat) (s : State) : Host.Outcome State Fault Refusal :=
  run t (fun s =>
    if s.beryl.winTaps != 0 && s.past s.beryl.winAt 20000000 && s.inRole && !s.c2Shed then
      s.winClose.flag BY_STAT_ACCUMULATING false
    else s) s

/-- A matched observation's place in the windows (R340): a window of 16 tap lines, of another job or of another
sensitivity generation closes first. A tap line counts once, at its first observed line. -/
def State.winTake (s : State) (r : PageRun) (t : TapEntry) : State :=
  let other := s.beryl.winOrd != r.ord || s.beryl.winGen != r.sensGen
  let full := s.beryl.winTaps != 0 && (other || (!t.matched && s.beryl.winTaps == 16))
  let s := if full then s.winClose else s
  let s := if t.matched then s else s.inc BY_OBS_STAT_TAPLINES
  let mark (x : TapEntry) : TapEntry := if x = t then { x with matched := true } else x
  { s with beryl := { s.beryl with
      winOrd := r.ord, winGen := r.sensGen, winBars := r.barMask, winAt := s.now, taps := s.beryl.taps.map mark
      winTaps := if t.matched && s.beryl.winTaps != 0 then s.beryl.winTaps else s.beryl.winTaps + 1 } }

/-- An observed line paired with its tap line, the latest of its job's number, or set aside (R336). -/
def State.obsTake (s : State) (o : ObsLine) : State :=
  match s.beryl.taps.reverse.find? fun t => t.jobId == o.jobId && t.first == o.first with
  | none => s.inc BY_OBS_STAT_UNMATCHED
  | some t =>
    match s.runOf t.ord t.page with
    | none => s.inc BY_OBS_STAT_UNMATCHED
    | some r =>
      let span := r.spanStrip t
      if t.unfit || span == some none then s
      else
        let bs := (s.rdMem (s.rgnBase 5 + o.off) o.len).toArray
        let nir := bit (bs.getD 2 0).toNat 4
        let cols := obsColumns bs
        let ink := s.tapColumns t
        let s := (s.winTake r t).flag BY_STAT_ACCUMULATING true
        s.each cols.2.zipIdx fun s d => s.obsColumn r t (span.getD none) ink nir (cols.1 + d.2) d.1

/-- The oldest observed line not yet read (R336). -/
def execObsMatch (t : Nat) (s : State) : Host.Outcome State Fault Refusal :=
  run t (fun s =>
    match s.cam.obs with
    | [] => s
    | o :: rest =>
      if s.inRole && !s.c2Shed then ({ s with cam := { s.cam with obs := rest } }).obsTake o else s) s

end Sys2Proof.Machine
end

