-- ==== Sys2Proof/Machine/Beryl.lean ====
section
/-! DEFINITION. Beryl acts (spec/11): gains and nozzle states (R348–R353), apply cycles (R358–R360), test strips
(R354–R356), registration (R361), takeover (R366), the standby's deltas (R365), and its registers. -/

namespace Sys2Proof.Machine

/-- Whether Beryl governs a bar's correction table (R358, R360). -/
def State.berylOn (s : State) (b : Nat) : Bool := s.bitOf BY_CTRL_APPLY_EN b && !s.is (BY_BAR_CTRL_HOLD b)

/-- The slots of a bar: segment, slot code, column. -/
def State.barSlots (s : State) (b : Nat) : List (Nat × Nat × Nat) :=
  (s.segs b).flatMap fun q => (List.range q.2.2).map fun i =>
    (q.1, 8192 * q.1 + i, slotCol q.2.1 q.2.2 i (s.is (SC_BAR_SEG_COL_REVERSE b q.1)))

/-- Whether a column lies in an overlap of a bar. -/
def State.inOverlap (s : State) (b x : Nat) : Bool := decide (2 ≤ (s.colSegs b x).length)

/-! Reference efficiency (R348) -/

/-- A number put in its place among rising ones. -/
def insertNat (v : Nat) : List Nat → List Nat
  | [] => [v]
  | x :: l => if v ≤ x then v :: x :: l else x :: insertNat v l

/-- The median of EFF values as Q1.15: the middle one, or the mean of the middle two. -/
def medianQ15 (l : List Nat) : Nat :=
  let a := (l.foldr insertNat []).toArray
  min 65535 (a.getD ((a.size - 1) / 2) 0 + a.getD (a.size / 2) 0)

/-- a_ref chosen for an apply cycle. -/
def State.refTake (s : State) (b : Nat) : State :=
  if !s.is (BY_BAR_CFG_REF_MODE b) then s.put (BY_BAR_REF_REF b) (s.get (BY_BAR_CFG_TARGET b))
  else
    let l := (s.barSlots b).filterMap fun q =>
      let w := s.slotRec b q.2.1
      if entPrints (s.rd (liveWin b + 4 * q.2.1)) && decide (128 ≤ recConf w) && !s.inOverlap b q.2.2 then some (recEff w)
      else none
    if l.length < 1024 then s
    else (s.put (BY_BAR_REF_REF b) (medianQ15 l)).put (BY_BAR_REF_SLOTS_USED b) (min l.length 65535)

/-! Target gains (R349) -/

/-- The efficiency a slot's gain is set by: its EFF, or its overlap column's latest. -/
def State.gainEff (s : State) (b code x : Nat) : Rat :=
  let own : Rat := ((recEff (s.slotRec b code) : Nat) : Rat) / 16384
  if s.inOverlap b x then (((s.byBar b).colEff.find? (·.1 == x)).map (·.2)).getD own else own

/-- gt before its limits; an efficiency of 0 puts it above them. -/
def State.gainTarget (s : State) (b : Nat) (eff : Rat) : Nat × State :=
  let top := s.get (BY_BAR_CFG_GBASE b) * s.get (BY_BAR_REF_REF b)
  if eff = 0 then
    if top = 0 then let d := s.draw; ((Config.gainOfNothing d.1).toNat, d.2) else (4096, s)
  else (((top : Rat) / 32768 / eff + 1 / 2).floor.toNat, s)

/-- Whether a target gain is clamped, and the clamped gain. -/
def State.gainClamp (s : State) (gt : Nat) : Bool × Nat :=
  let low := s.get BY_GAIN_CFG_GMIN
  (decide (gt < low) || decide (4095 < gt), min 4095 (max low gt))

/-- The gain a step toward its target gives. -/
def State.gainStep (s : State) (g gt : Nat) : Nat :=
  let d : Int := (gt : Int) - g
  let step : Int := (s.get BY_GAIN_CFG_STEP : Nat)
  if d.natAbs * 1000 ≤ s.get BY_GAIN_CFG_DEADBAND * g then g else ((g : Int) + clamp d (-step) step).toNat

/-! One slot in an apply cycle (R349–R353) -/

/-- What a cycle has found so far: entries to write, slots that became WEAK, the count of marks by segment. -/
structure CycleAcc where
  writes : List (Nat × Nat)
  weak : Nat
  marks : List Nat

/-- An entry with STATE and SHARE replaced. -/
def entWith (e state share : Nat) : Nat := setBits (setBits e 23 22 state) 31 24 share

/-- A slot reset by REVIVE or by a head change (R353): none where it is not Beryl's to change, which a DISABLED slot
never is (R349). -/
def State.slotReset (s : State) (b seg code e : Nat) : Option (Nat × State) :=
  let w := s.slotRec b code
  if !recMarked w || entState e == 3 then none
  else if (s.byBar b).resetSegs.contains seg then
    some (setBits (entWith e 0 0) 11 0 (s.get (BY_BAR_CFG_GBASE b)), s.recPut b code (setBits w 28 28 0))
  else if (s.byBar b).revive then
    some (entWith e 1 0, s.recPut b code (setBits (setBits w 28 16 0) 15 0 0x4000))
  else none

/-- A segment's marks held to MISS_LIMIT: at the limit LIMITED is set and reported (R352). -/
def State.missLimit (s : State) (b seg marks : Nat) : State :=
  if marks < s.get BY_APPLY_CFG_MISS_LIMIT || s.bitOf (BY_BAR_NOZ_LIMITED b) seg then s
  else (s.setBitOf (BY_BAR_NOZ_LIMITED b) seg true).raise 0x5203 b seg 0

/-- A slot's count of low solves has reached M (R351, R352): marked MISSING unless its segment is at the limit. -/
def State.slotMiss (s : State) (b seg code e : Nat) (c : CycleAcc) : CycleAcc × State :=
  let n := c.marks.getD seg 0
  if s.get BY_APPLY_CFG_MISS_LIMIT ≤ n then (c, s.missLimit b seg n)
  else
    let s := s.recPut b code (setBits (s.slotRec b code) 28 28 1)
    ({ c with writes := c.writes ++ [(code, entWith e 2 (s.get BY_NOZ_CFG_SHARE))]
              marks := modAt c.marks seg (· + 1) }, (s.raise 0x5201 b seg (code % 8192)).missLimit b seg (n + 1))

/-- A slot Beryl marked that prints again, by the host's edit or by a cycle discarded at a takeover, is held MARKED no
longer (R351, R366). -/
def State.slotUnmark (s : State) (b seg code : Nat) (c : CycleAcc) : CycleAcc × State :=
  if recMarked (s.slotRec b code) then
    ({ c with marks := modAt c.marks seg (· - 1) }, s.recPut b code (setBits (s.slotRec b code) 28 28 0))
  else (c, s)

/-- The gain and the WEAK state of a slot that prints (R349, R350). -/
def State.slotGain (s : State) (b code x e : Nat) (c : CycleAcc) : CycleAcc × State :=
  let r := s.gainTarget b (s.gainEff b code x)
  let s := r.2
  let gt := s.gainClamp r.1
  let eff := recEff (s.slotRec b code)
  let thr := s.get BY_NOZ_CFG_WEAK_THR
  let touched := (s.byBar b).touched.contains code
  let low := decide (eff < thr * 16) || (touched && gt.1)
  let state := if entState e = 0 then b2n low
    else if !low && decide ((thr + 32) * 16 ≤ eff) then 0 else 1
  let g := if touched then s.gainStep (entGain e) gt.2 else entGain e
  let new := setBits (setBits e 23 22 state) 11 0 g
  ({ c with writes := if new = e then c.writes else c.writes ++ [(code, new)]
            weak := c.weak + b2n (entState e = 0 && state = 1) }, s)

/-- One slot. -/
def State.slotCycle (b : Nat) (r : CycleAcc × State) (q : Nat × Nat × Nat) : CycleAcc × State :=
  let s := r.2
  let e := s.rd (liveWin b + 4 * q.2.1)
  match s.slotReset b q.1 q.2.1 e with
  | some (new, s) =>
    ({ r.1 with writes := if new = e then r.1.writes else r.1.writes ++ [(q.2.1, new)]
                marks := modAt r.1.marks q.1 (· - 1) }, s)
  | none =>
    if !entPrints e then r
    else
      let low := s.get BY_NOZ_CFG_M ≤ recBelow (s.slotRec b q.2.1) &&
        (!recMarked (s.slotRec b q.2.1) || (s.byBar b).touched.contains q.2.1)
      let r := s.slotUnmark b q.1 q.2.1 r.1
      if low && (decide (r.1.marks.getD q.1 0 < s.get BY_APPLY_CFG_MISS_LIMIT) || !s.bitOf (BY_BAR_NOZ_LIMITED b) q.1) then
        r.2.slotMiss b q.1 q.2.1 e r.1
      else r.2.slotGain b q.2.1 q.2.2 e r.1

/-! Apply cycles (R358–R360) -/

/-- The shadow words of a bar that differ between two states, for the copy (R365). -/
def shadowDeltas (before after : State) (b : Nat) : List (Nat × Nat × Nat) :=
  let old := before.windowWords (shadowWin b) bankSize
  let new := after.windowWords (shadowWin b) bankSize
  let changed := (new.filter fun p => !old.contains p) ++
    (old.filter fun p => !new.any fun q => q.1 == p.1).map fun p => (p.1, 0)
  changed.map fun p => (shadowWin b + p.1, p.2, b)

/-- A shadow bank brought to given contents, what changed waiting for the copy where this unit decides. -/
def State.shadowFill (s : State) (b : Nat) (writes : List (Nat × Nat)) : State :=
  let t := s.windowPut (shadowWin b) bankSize (s.windowWords (liveWin b) bankSize)
  let t := t.each writes fun t w => t.wr (shadowWin b + 4 * w.1) w.2
  if s.authoritative then { t with beryl := { t.beryl with deltas := t.beryl.deltas ++ shadowDeltas s t b } } else t

/-- Slots Beryl holds MISSING, by segment. -/
def State.markCounts (s : State) (b : Nat) : List Nat :=
  let l := (s.windowWords (recAddr b 0) bankSize).filter fun p => recMarked p.2
  (List.range 12).map fun m => (l.filter fun p => p.1 / 32768 == m).length

/-- The opening of an apply cycle: its changes go into the shadow bank and wait for their ARM. With nothing to change no cycle
runs (R358), so solves since the previous one still count (R349). -/
def State.cycleOpen (s : State) (b : Nat) : State :=
  let s := s.refTake b
  let cleared := (List.range 12).filter fun m => (s.byBar b).revive || (s.byBar b).resetSegs.contains m
  let s := s.each cleared fun s m => s.setBitOf (BY_BAR_NOZ_LIMITED b) m false
  let r := (s.barSlots b).foldl (State.slotCycle b) (⟨[], 0, s.markCounts b⟩, s)
  let s := r.2.modBy b fun x => { x with
    cycleAt := s.now, touched := if r.1.writes.isEmpty then x.touched else [], revive := false, resetSegs := [] }
  let s := s.put (BY_BAR_NOZ_MARKED b) ((s.markCounts b).foldl (· + ·) 0)
  let s := if r.1.weak = 0 then s else s.raise 0x5202 b r.1.weak 0
  if r.1.writes.isEmpty then s
  else
    let s := (s.shadowFill b r.1.writes).setBitOf BY_STAT_CYCLE b true
    s.modBy b fun x => { x with armWait := true, retried := false }

/-- A bar's apply cycle (R358). -/
def execApplyCycle (t b : Nat) (s : State) : Host.Outcome State Fault Refusal :=
  run t (fun s =>
    if b < 8 && s.authoritative && s.berylOn b && !s.bitOf BY_STAT_CYCLE b && !s.is (SC_BAR_APPLY_CTRL_PENDING b) &&
        !s.is (SC_BAR_APPLY_CTRL_COPY_BUSY b) && s.past (s.byBar b).cycleAt (s.get BY_APPLY_CFG_APPLY_MS * 1000000) then
      s.cycleOpen b
    else s) s

/-- Whether an active's standby follows its copies. -/
def State.followed (s : State) : Bool :=
  s.base == .active && s.pair.partnerUp && !s.pair.partnerLost && !s.pair.partnerStale && !s.pair.partnerDemoted

/-- Whether a cycle may be ARMed at this tick end (R365). -/
def State.cycleMayArm (s : State) (b : Nat) : Bool :=
  !s.followed || (!(s.beryl.deltas.any fun d => d.2.2 == b) && s.pair.acked)

/-- A waiting cycle's ARM at a tick end (R358, R359). -/
def State.cycleArm (s : State) (b : Nat) : State :=
  if !(s.byBar b).armWait || !s.cycleMayArm b then s
  else
    let line := match s.running with
      | some j => s.applyLine b j.order (s.tick * 250000 + 1000000)
      | none => 0
    let slot := (s.running.map (·.slot)).getD 63
    let s := s.wrCopy (SC_BAR_APPLY_LINE b) line
    let s := s.wr (SC_BAR_APPLY_CTRL b) (setBits (s.rd (SC_BAR_APPLY_CTRL b)) 8 0 (1 + slot * 8))
    let r := s.arm b true
    if r.1 = stOk then
      (r.2.copy 1 [SC_BAR_APPLY_CTRL b, 1 + slot * 8 + 512]).modBy b fun x => { x with armWait := false }
    else if r.1 = stBusy then s
    else
      let s := (s.armRefused b).inc (BY_BAR_APPLY_RETRIES b)
      if (s.byBar b).retried then s
      else (s.modBy b fun x => { x with retried := true }).raise 0x5204 b 0 0

/-- Every waiting cycle at a tick end. -/
def State.cyclesArm (s : State) : State := if s.authoritative then s.each (List.range 8) State.cycleArm else s

/-! Resets (R353) -/

/-- The records of a segment's slots set to EFF 1.0, CONF 0, BELOW 0; its MARKED slots wait for the next cycle. -/
def State.segReset (s : State) (b m : Nat) : State :=
  let base := recAddr b (8192 * m)
  let s := s.each (s.windowWords base 0x8000) fun s p =>
    s.recPut b (8192 * m + p.1 / 4) (setBits (setBits p.2 30 30 0) 27 0 0x4000)
  let inSeg (x : Nat) : Bool := (s.colSegs b x).any fun q => q.1.1 == m
  s.modBy b fun x => { x with
    resetSegs := if x.resetSegs.contains m then x.resetSegs else x.resetSegs ++ [m]
    colEff := x.colEff.filter fun c => !inSeg c.1 }

/-- A channel's head serial has changed (R289, R353). -/
def State.headReset (s : State) (ch : Nat) : State := (s.segReset (chanBar ch) (chanSeg ch)).raise 0x5209 (chanBar ch) 0 0

/-- RESET_EST of a bar. -/
def State.estReset (s : State) (b : Nat) : State := (s.each (List.range 12) fun s m => s.segReset b m).raise 0x5209 b 0 0

/-! Test strips (R354, R355, R381) -/

/-- The 64-column blocks a bar covers. -/
def State.barBlocks (s : State) (b : Nat) : List Nat :=
  let l := s.segs b
  (List.range 1477).filter fun j => l.any fun q => decide (q.2.1 < 64 * j + 64) && decide (64 * j < q.2.1 + q.2.2)

/-- Whether something dated has lapsed for DEFICIT_S; what has no date has never been solved. -/
def State.lapsed (s : State) (l : List (Nat × Nat)) (k : Nat) : Bool :=
  match l.find? (·.1 == k) with
  | none => true
  | some e => s.past e.2 (s.get BY_STRIP_CFG2_DEFICIT_S * 1000000000)

/-- A bar's deficit as the strip that would answer it; none when it has none (R354, R356). -/
def State.deficit (s : State) (bars b : Nat) : Option TestStrip :=
  if !bit bars b then none
  else if (s.byBar b).forced then some ⟨b, true, 0, []⟩
  else if !s.bitOf BY_CTRL_APPLY_EN b then none
  else
    let blocks := (s.barBlocks b).filter (s.lapsed (s.byBar b).blockAt)
    let l := s.segs b
    let ovls := (l.zip (l.drop 1)).zipIdx.filterMap fun p =>
      if (overlapOf p.1.1 p.1.2).2 != 0 && s.lapsed (s.byBar b).ovlAt p.2 then some p.2 else none
    if blocks.isEmpty && ovls.isEmpty then none
    else if s.is BY_STRIP_CFG_COLMODE then some ⟨b, true, 0, []⟩
    else some ⟨b, false, ovls.foldl (fun m i => m + 2 ^ i) 0, blocks⟩

/-- Strips that fit a gap (R355). -/
def State.stripsFit (s : State) (gapLines : Nat) : Nat :=
  ((List.range 8).filter fun k => decide (s.get BY_STRIP_CFG_OFS + (k + 1) * s.get BY_STRIP_CFG_LINES +
    k * s.get BY_STRIP_CFG_SPACE ≤ gapLines)).length

/-- Whether a bar's last strip lies further back than another's; none lies furthest. -/
def olderStrip (x y : Option Nat) : Bool := match x, y with
  | none, some _ => true
  | some a, some b => decide (a < b)
  | _, none => false

/-- A strip put among those that have waited longer. -/
def State.stripSort (s : State) (x : TestStrip) : List TestStrip → List TestStrip
  | [] => [x]
  | y :: l => if olderStrip (s.byBar y.bar).lastStrip (s.byBar x.bar).lastStrip || (s.byBar y.bar).lastStrip == (s.byBar x.bar).lastStrip
      then y :: s.stripSort x l else x :: y :: l

/-- The copy's entries for a gap's strips. -/
def State.stripsCopy (s : State) (slot page : Nat) (g : GapStrips) : State :=
  let word (x : TestStrip) : Nat := x.bar + b2n x.full * 8 + x.overlaps * 16
  let s := s.copy 5 ([packPage slot page, g.strips.length + g.c4 * 16 + b2n g.colmode * 2 ^ 14,
    g.lines + g.ofs * 2 ^ 8 + g.space * 2 ^ 16] ++ g.strips.map word)
  s.each g.strips.zipIdx fun s x =>
    if x.1.full then s
    else
      let map (k : Nat) : Nat := (List.range 32).foldl (fun w i => w + b2n (x.1.blocks.contains (32 * k + i)) * 2 ^ i) 0
      s.copy 10 ([packPage slot page, x.2] ++ (List.range 47).map map)

/-- The strips of the gap after a page, chosen at its readiness check (R355). -/
def State.stripsTake (s : State) (r : PageRun) : State :=
  let on := s.is BY_STRIP_CFG_EN && !s.is BY_STAT_NOCAM
  let all := if on then (List.range 8).filterMap (s.deficit r.barMask) else []
  let due := all.filter fun x => match (s.byBar x.bar).lastStrip with
    | none => true
    | some a => s.past a (s.get BY_STRIP_CFG2_PERIOD_S * 1000000000)
  let order := due.foldl (fun l x => s.stripSort x l) []
  let n := s.stripsFit r.gapLines
  let g : GapStrips := ⟨s.get BY_STRIP_CFG2_C4, s.is BY_STRIP_CFG_COLMODE, s.get BY_STRIP_CFG_LINES,
    s.get BY_STRIP_CFG_OFS, s.get BY_STRIP_CFG_SPACE, order.take n⟩
  let s := (s.modRun r.ord r.page fun r => { r with strips := some g }).stripsCopy r.job r.page g
  let idle := (List.range 8).filter fun b => !all.any (·.bar == b)
  let s := s.each idle fun s b => s.modBy b fun x => { x with waited := 0 }
  let s := s.each g.strips fun s x =>
    s.modBy x.bar fun y => { y with lastStrip := some s.now, waited := 0 }
  s.each (order.drop n) fun s x =>
    let s := (s.inc BY_STRIP_STAT_SKIPPED).modBy x.bar fun y => { y with waited := y.waited + 1 }
    if (s.byBar x.bar).waited = 16 then s.raise 0x5207 x.bar 0 0 else s

/-- The strips of every page checked at this tick end. -/
def State.stripsSettle (s : State) : State :=
  if s.authoritative then
    s.each (s.scan.runs.filter fun r => r.checkTick == s.tick && r.strips.isNone) fun s r => s.stripsTake r
  else s

/-- A STRIPS entry applied by a standby (R355). -/
def State.stripsFollow (s : State) (w : List Nat) : State :=
  let slot := bits (w.getD 0 0) 29 24
  let page := w.getD 0 0 % 2 ^ 24
  let h := w.getD 1 0
  let z := w.getD 2 0
  let strip (v : Nat) : TestStrip := ⟨bits v 2 0, bit v 3, bits v 14 4, []⟩
  let g : GapStrips := ⟨bits h 13 4, bit h 14, bits z 7 0, bits z 15 8, bits z 23 16, ((w.drop 3).take (bits h 3 0)).map strip⟩
  match s.jobAt slot with
  | none => s
  | some j => s.modRun j.order page fun r => { r with strips := some g }

/-- A STRIP_MAP entry applied by a standby. -/
def State.stripMapFollow (s : State) (w : List Nat) : State :=
  let slot := bits (w.getD 0 0) 29 24
  let page := w.getD 0 0 % 2 ^ 24
  let blocks := (List.range 1477).filter fun j => bit (w.getD (2 + j / 32) 0) (j % 32)
  let put (g : GapStrips) : GapStrips := { g with strips := modAt g.strips (w.getD 1 0 % 16) fun x => { x with blocks := blocks } }
  match s.jobAt slot with
  | none => s
  | some j => s.modRun j.order page fun r => { r with strips := r.strips.map put }

/-! Registration (R361) -/

/-- REG_AUTO of some bars set at a tick end, with the apply-at lines of R119. -/
def State.regAutoPut (s : State) (l : List (Nat × Int)) : State :=
  if l.isEmpty then s
  else
    let before := s
    let lines := s.applyLines
    let s := s.holdOld lines (·.regAuto) (fun x l => { x with regAuto := l }) fun b => before.rd (WP_BAR_REG_AUTO b)
    let s := s.copyLines lines
    s.each l fun s v => (s.wrCopy (WP_BAR_REG_AUTO v.1) (unsgn 32 v.2)).regClampSee v.1

/-- The tick's mark results taken into REG_AUTO: the later page's where there are two (R198, R361). -/
def State.regSettle (s : State) : State :=
  let res := s.cam.markRes
  let s := { s with cam := { s.cam with markRes := [] } }
  if !s.authoritative || !s.is BY_CTRL_REG_EN || s.is BY_STAT_NOCAM then s
  else match res.getLast? with
    | none => s
    | some last =>
      let top := res.foldl (fun (m : Nat × Nat) r => if m.1 < r.1 ∨ (m.1 = r.1 ∧ m.2 < r.2.1) then (r.1, r.2.1) else m)
        (last.1, last.2.1)
      let mine := res.filter fun r => (r.1, r.2.1) == top && decide (s.get BY_REG_CFG_DB < r.2.2.2.natAbs)
      s.regAutoPut (mine.map fun r =>
        (r.2.2.1, s.sget (WP_BAR_REG_AUTO_REG r.2.2.1) - sar (r.2.2.2 * (s.get BY_REG_CFG_KREG : Nat) + 128) 8))

/-! Takeover (R366) and the copy (R365) -/

/-- Beryl at a takeover (R366): uncommitted cycles are discarded and every bar's live bank is copied to its shadow, but for a bar whose
committed change still waits there (log 45); without cameras it pauses. -/
def State.berylTakeover (s : State) : State :=
  let s := s.each (List.range 8) fun s b =>
    let s := (s.modBy b fun x => { x with armWait := false, retried := false }).setBitOf BY_STAT_CYCLE b false
    if !s.is (SC_BAR_APPLY_CTRL_PENDING b) then
      s.windowPut (shadowWin b) bankSize (s.windowWords (liveWin b) bankSize)
    else s
  let s := { s with beryl := { s.beryl with deltas := [], recDeltas := [] } }
  let seen := (List.range 16).any fun n => s.is (CM_CTX_CFG_EN n) && s.is (CM_CTX_STAT_RECEIVING n)
  if seen then s else (s.flag BY_STAT_NOCAM true).raise 0x5205 0 0 0

/-- A per-slot record of the active's followed (R365): a mark set or cleared shows that it has run an apply cycle, which took REVIVE and the
resets that waited for it (R353, log 45). -/
def State.recFollow (s : State) (a v : Nat) : State :=
  if 0x1800000 ≤ a ∧ a < 0x1B00000 ∧ recMarked (s.rd a) ≠ recMarked v then
    s.modBy ((a - 0x1800000) / 0x60000) fun x => { x with revive := false, resetSegs := [] }
  else s

/-- The deferrable part of a copy at a link width (R365, R382): what it holds, the rest waiting. -/
def State.berylDeltas (s : State) (width : Nat) : List TsEntry × State :=
  let n := 2048 * width
  let a := (s.beryl.deltas.take n).map fun d => (⟨1, [d.1, d.2.1]⟩ : TsEntry)
  let b := (s.beryl.recDeltas.take n).map fun r => (⟨1, [r, s.rd r]⟩ : TsEntry)
  (a ++ b, { s with beryl := { s.beryl with deltas := s.beryl.deltas.drop n, recDeltas := s.beryl.recDeltas.drop n } })

/-! Registers -/

/-- Limits of the BY_ registers. -/
def limitBy (_s : State) (a new _mask : Nat) : Verdict :=
  if a = BY_EXC_MIN then rangeUnless (new != 0)
  else if a = BY_GAIN_CFG then rangeUnless (bits new 15 8 != 0)
  else if a = BY_NOZ_CFG then rangeUnless (decide (bits new 9 0 < bits new 19 10) && bits new 23 20 != 0)
  else if a = BY_WHITE_CFG then rangeUnless (decide (bits new 3 0 ≤ 12) && bits new 23 8 != 0)
  else if a = BY_APPLY_CFG then rangeUnless (fieldIn new 15 0 100 60000)
  else if a = BY_REG_CFG then rangeUnless (bits new 7 0 != 0)
  else if a = BY_STRIP_CFG then rangeUnless (decide (8 ≤ bits new 9 2))
  else if a = BY_STRIP_CFG2 then rangeUnless (fieldIn new 9 0 1 1020 && bits new 19 10 != 0 && bits new 31 20 != 0)
  else none

/-- The bar whose BY_BARn_CTRL an address is. -/
def byCtrlBar (a : Nat) : Option Nat := instOf (BY_BAR_CTRL 0) 0x100 8 a

/-- What a write to a BY_ register sets off: REG_CLR (R361), FORCE (R354), REVIVE and RESET_EST (R353). -/
def actBy (a mask val : Nat) (_before s : State) : Nat × State :=
  let w := mask &&& val
  if a = BY_CTRL then
    if bit w 10 && s.authoritative then (stOk, s.regAutoPut ((List.range 8).map fun b => (b, 0))) else (stOk, s)
  else if a = BY_STRIP_CTRL then
    (stOk, s.each (barsOf w) fun s b => s.modBy b fun x => { x with forced := true })
  else match byCtrlBar a with
    | none => (stOk, s)
    | some b =>
      let s := if bit w 0 then s.modBy b fun x => { x with revive := true } else s
      (stOk, if bit w 1 then s.estReset b else s)

end Sys2Proof.Machine
end

