-- ==== Sys2Proof/Machine/Fields.lean ====
section
/-! DEFINITION. The registers with more than one writable field, from the register tables of the spec: by the base of their row, the bits
of each such field, lowest first. An image writes field by field (R453). -/

namespace Sys2Proof.Machine

def splitsLow : List (Nat × List Nat) :=
  [(0x020008, [0xFFF, 0xFF000, 0xFF00000]), -- PW_MODEL_CFG
   (0x02000C, [0xFF, 0xFF00, 0xFFFF0000]), -- PW_THR_CFG
   (0x020018, [0x3FF, 0xFFC00]), -- PW_SUP_CFG
   (0x020060, [0x7F, 0xFF00, 0x10000]), -- PW_PMB_CFG
   (0x030040, [0x1, 0x2, 0xFFFF0000]), -- TB_REF_CFG
   (0x030060, [0xFFFF, 0xFFFF0000]), -- TB_PAIR_CFG
   (0x040000, [0x3, 0xC, 0xF0, 0xFF00]), -- WP_ENC_CFG
   (0x040050, [0xFF, 0xFF00, 0xFF0000]), -- WP_FAIL_CFG
   (0x040054, [0xFFFF, 0xFFFF0000]), -- WP_TRACK
   (0x04007C, [0xFF, 0xFF00, 0xFF0000, 0xFF000000]), -- WP_SPD_CFG
   (0x040090, [0x1FFF, 0x10000, 0xFF000000]), -- WP_PRED
   (0x040200, [0x3, 0xFF00, 0xFFFF0000]), -- WP_PRB_CFG
   (0x040300, [0x1, 0x6]), -- WP_ENCO_CFG
   (0x050400, [0xFFFF, 0xFFFF0000]), -- PG_ADM_LIMIT
   (0x050410, [0xFF, 0xFF00, 0xFF0000, 0x1000000]), -- PG_SPDREQ_CTRL
   (0x050004, [0xFFFF, 0x10000, 0x60000]), -- PG_GAP
   (0x050010, [0x7, 0x8, 0x10, 0x20, 0x40, 0xFFFFFF00]), -- PG_EVT_CFG
   (0x050014, [0x1, 0x2, 0x4, 0x8, 0x10, 0x20, 0x40, 0x80]), -- PG_EVT_STAT
   (0x050040, [0x1, 0x7E, 0x7FFFFF80]), -- PG_CMT_TARGET
   (0x050060, [0x3, 0x4]), -- PG_PROOF
   (0x060000, [0x1, 0x6, 0x18, 0x20, 0xC0, 0x100, 0x600, 0x1800, 0x2000, 0xFF0000]), -- LY_CTRL
   (0x080000, [0x1, 0x2, 0x4, 0xFF00, 0x3F0000]), -- SC_BAR_CFG
   (0x080014, [0x1, 0x2, 0x4, 0x1F8]), -- SC_BAR_APPLY_CTRL
   (0x080100, [0x1FFFF, 0x20000]), -- SC_BAR_SEG_COL
   (0x084000, [0xFFFF, 0x1F0000]), -- SC_TAP_CTRL
   (0x090000, [0xFF, 0x100, 0x200]), -- BY_CTRL
   (0x090010, [0xFF, 0xFF00, 0xFFF0000]), -- BY_GAIN_CFG
   (0x090014, [0x3FF, 0xFFC00, 0xF00000, 0xFF000000]), -- BY_NOZ_CFG
   (0x090018, [0xF, 0xF0, 0xFFFF00]), -- BY_WHITE_CFG
   (0x09001C, [0xFFFF, 0xFF0000]), -- BY_APPLY_CFG
   (0x090020, [0xFF, 0xFFFF00]), -- BY_REG_CFG
   (0x090030, [0x1, 0x2, 0x3FC, 0x3FC00, 0x3FC0000]), -- BY_STRIP_CFG
   (0x090034, [0x3FF, 0xFFC00, 0xFFF00000])] -- BY_STRIP_CFG2

def splitsHigh : List (Nat × List Nat) :=
  [(0x090100, [0xFFFF, 0xFFFF0000]), -- BY_SENS
   (0x091000, [0x1, 0xFFF0, 0xFFFF0000]), -- BY_BAR_CFG
   (0x0A0000, [0x1, 0x2, 0x4, 0x8, 0x30, 0xFC0]), -- CM_CTX_CFG
   (0x0A0004, [0x3FFF, 0xFFC000]), -- CM_CTX_GEOM
   (0x0A0014, [0xFFF, 0xFFF0000]), -- CM_CTX_BLACK01
   (0x0A0018, [0xFFF, 0xFFF0000]), -- CM_CTX_BLACK23
   (0x0A0020, [0xFFFF, 0xFFFF0000]), -- CM_CTX_M
   (0x0A0040, [0x1FFFF, 0x7FFE0000]), -- CM_CTX_MAP_X
   (0x0A2000, [0x1, 0x6, 0x1FFF0000]), -- CM_PORT_CFG
   (0x0A2100, [0x1, 0x1E, 0x60, 0x80, 0xFFFF0000]), -- CM_MARK_CFG
   (0x0A2180, [0xFF, 0xFF00, 0xFFF0000, 0x10000000]), -- CM_PROOF_CFG
   (0x0B000C, [0x1, 0xFF00, 0xFFFF0000]), -- FS_INH_CFG
   (0x0B0100, [0x7FF, 0x7FF0000]), -- FS_BAR_STB
   (0x0B0200, [0xFF, 0xFFFF0000]), -- FS_WM_CFG
   (0x0C0000, [0x1, 0xE, 0x10, 0x20, 0xC0, 0xFF00]), -- LANE_CFG
   (0x0C001C, [0x1F, 0x3F00, 0x1F0000]), -- LANE_TXEQ
   (0x0C8000, [0xFF, 0xFF00, 0x3FF0000]), -- JL_TRAIN_CFG
   (0x0C8004, [0xFFFF, 0xFFFF0000]), -- JL_PWR_CFG
   (0x0C8030, [0xFF, 0x1F00]), -- JL_RT_CFG
   (0x0C9000, [0xFFFF, 0x10000]), -- JL_HC_ID
   (0x0C9004, [0xFFFF, 0xFF0000, 0x1000000]), -- JL_HC_BAND
   (0x0D0800, [0x1, 0xE, 0x10, 0x20, 0xC0, 0xFF00]), -- LANE_CFG
   (0x0D081C, [0x1F, 0x3F00, 0x1F0000]), -- LANE_TXEQ
   (0x0D0000, [0xFFFF, 0xFF0000]), -- PR_CFG
   (0x0E0A00, [0x1, 0x2, 0x1C, 0xFF00]), -- HP_PTP_CFG
   (0x0E0A04, [0xFFFF, 0xFFFF0000]), -- HP_PTP_LAT0
   (0x0E0A08, [0xFFFF, 0xFFFF0000]), -- HP_PTP_LAT1
   (0x0E0A18, [0x2, 0xC, 0x7F0]), -- HP_PTP_TX_CTRL
   (0x0E0000, [0xFFFF, 0x10000]), -- HP_DCP_CFG
   (0x0F0000, [0x3, 0x4, 0x30]), -- MC_CFG
   (0x100000, [0x1, 0x7E, 0xFF80, 0xFF0000, 0xFF000000]), -- AG_CFG
   (0x100004, [0x7F, 0x80, 0x100]), -- AG_TRIG_CFG
   (0x100010, [0xFFFF, 0x7FFF0000, 0x80000000]), -- AG_TRIG_CODE
   (0x110010, [0x1, 0x1FE])] -- EV_MST_CFG

/-- The bits of a register that a write may change: its RW, RWS, RWL and W1C fields (R11). -/
def RegSpec.writable (r : RegSpec) : Nat := r.rw ||| r.rws ||| r.rwl ||| r.w1c

/-- Its writable fields, by their bits. -/
def RegSpec.pieces (r : RegSpec) : List Nat :=
  (((splitsLow ++ splitsHigh).find? fun x => x.1 == r.base).map (·.2)).getD [r.writable]

end Sys2Proof.Machine
end

