-- ==== Sys2Proof/Machine/Dcp.lean ====
section
/-! DEFINITION. DCP messages as the unit sends them (R413, R414): responses, EVENT messages and their MACs, and the
responses that wait for the standby's confirmation (R38, R39). -/

namespace Sys2Proof.Machine

/-- A DCP message from offset 0 to the end of its body (R413). -/
def dcpMsg (word0 op master bodyLen resv1 counter tag w5 w6 w7 : Nat) (body : List Nat) : List Byte :=
  beBytes 4 word0 ++ beBytes 4 (op * 2 ^ 24 + master * 2 ^ 22 + resv1 * 2 ^ 16 + bodyLen) ++ beBytes 8 counter ++
    beBytes 4 tag ++ beBytes 4 w5 ++ beBytes 4 w6 ++ beBytes 4 w7 ++ body.flatMap (beBytes 4)

/-- The first word of a message of a TYPE. -/
def dcpWord0 (type : Nat) : Nat := 0xDC701000 + type * 256

/-- The state of a key slot (R418): 0 BLANK, 1 VALID, 2 REVOKED, 3 FAULT. -/
def State.keyState (s : State) (slot : Nat) : Nat := bits (s.get HP_KEY_STAT_STATE) (2 * slot + 1) (2 * slot)

/-- BOOT_NONCE (R415). -/
def State.nonce (s : State) : Nat := s.get HP_BOOT_NONCE_HI_NONCE * 2 ^ 32 + s.get HP_BOOT_NONCE_LO_NONCE

/-- The MAC of a message of a master (R414). -/
def State.macOf (s : State) (master : Nat) (msg : List Byte) : Nat :=
  let key := beBytes 32 (s.otp.keys.getD (s.get (HP_MST_CFG_KEY_SLOT master)) 0)
  beNat ((hmacSha256 key (beBytes 8 s.nonce ++ msg)).take 16)

/-- A response's bytes up to its MAC. -/
def Resp.msg (r : Resp) : List Byte :=
  dcpMsg (dcpWord0 1) r.opcode r.master (4 * r.body.length) 0 r.counter r.tag
    (r.status * 2 ^ 24 + r.detail * 2 ^ 16 + r.index) (r.tick % 2 ^ 32) 0 r.body

/-- Opcode of IDENTIFY (R423). -/
def opIdentify : Nat := 0x00

/-- The COMMAND entry of a request answered (R485, R487). -/
def Resp.entry (r : Resp) : List Byte :=
  [r.opcode * 2 ^ 24 + r.master * 2 ^ 22 + r.status, r.counter % 2 ^ 32, r.counter / 2 ^ 32, r.tag, r.tick].flatMap
    fun w => leBytes 4 (w % 2 ^ 32)

/-- A response leaves while MP is up (R437), and is recorded; IDENTIFY and AUTH_FAIL carry a MAC of 0 (R414). -/
def State.respond (s : State) (r : Resp) : State :=
  if s.is HP_MP_STAT_LINK then
    let mac := if r.opcode = opIdentify ∨ r.status = stAuthFail then 0 else s.macOf r.master r.msg
    (s.emit (.dcp r mac)).record 0x05 s.now r.entry
  else s

/-- The responses that waited for the standby's confirmation leave (R38). -/
def State.respFlush (s : State) : State :=
  ({ s with dcp := { s.dcp with await := [] } }).each s.dcp.await State.respond

/-- A held command's response when it is discarded: DISCARDED, decided at no tick end (R39, R413). -/
def Held.discarded (h : Held) : Resp := ⟨h.opcode, h.master, h.counter, h.tag, h.src, stDiscarded, 0, 0, 0, []⟩

/-- A response that says a command was discarded instead of what was decided (R391). -/
def Resp.discarded (r : Resp) : Resp := { r with status := stDiscarded, detail := 0, index := 0, tick := 0, body := [] }

/-- Every command not yet committed discarded and answered DISCARDED (R39). -/
def State.heldDiscard (s : State) : State :=
  ({ s with dcp := { s.dcp with held := [] } }).each s.dcp.held fun s h => s.respond h.discarded

/-- Every held or uncommitted command answered DISCARDED (R391). -/
def State.dcpDiscard (s : State) : State :=
  (({ s with dcp := { s.dcp with await := [] } }).each s.dcp.await fun s r => s.respond r.discarded).heldDiscard

/-! EVENT messages (R435) -/

/-- An event record's six words (R433). -/
def EventRec.words (e : EventRec) : List Nat :=
  [e.code * 65536 + e.arg0, e.seq, e.time / 2 ^ 32, e.time % 2 ^ 32, e.arg1, e.arg2]

/-- An EVENT message to a master: at most 48 records, once 48 are gathered or 1 ms after the first was raised. -/
def State.eventPush (s : State) (n : Nat) : State :=
  let p := s.dcp.push.getD n Push.reset
  match p.dst with
  | none => s
  | some dst =>
    if s.is HP_MP_STAT_LINK && !p.recs.isEmpty && (decide (48 ≤ p.recs.length) || s.past p.since 1000000) then
      let recs := p.recs.take 48
      let count := p.count + 1
      let body := recs.flatMap EventRec.words
      let msg := dcpMsg (dcpWord0 2) 0xE0 n (4 * body.length) 0 count 0 0 0 0 body
      let rest := p.recs.drop 48
      let q : Push := { p with recs := rest, count := count, since := ((rest.head?).map (·.time)).getD p.since }
      let s := { s with dcp := { s.dcp with push := modAt s.dcp.push n fun _ => q } }
      (s.inc EV_PUSH_STAT_MESSAGES).emit (.event n dst count recs (s.macOf n msg))
    else s

def execEventPush (t master : Nat) (s : State) : Host.Outcome State Fault Refusal :=
  run t (fun s => if s.hostUp && decide (master < 4) then s.eventPush master else s) s

/-- A DCP message on a DP port (R24, R412): it changes nothing but for its event. -/
def execDcpOnDp (t port : Nat) (s : State) : Host.Outcome State Fault Refusal :=
  run t (fun s => if port < 2 then s.raise 0x7103 port 0 0 else s) s

/-- MP's link goes down (R437): what has not committed is discarded, and nothing leaves until it returns. -/
def execMpLinkDown (t : Nat) (s : State) : Host.Outcome State Fault Refusal :=
  run t (fun s =>
    if s.is HP_MP_STAT_LINK then
      let s := { s with dcp := { s.dcp with held := [], await := [], mpLost := true } }
      ((s.flag HP_MP_STAT_LINK false).inc HP_MP_STAT_LOSSES).raise 0x7108 0 0 0
    else s) s

/-- MP comes up at 1000 Mbit/s full duplex (R408, R437); after a loss this is reported with ARG1 1 (R438). -/
def execMpLinkUp (t : Nat) (s : State) : Host.Outcome State Fault Refusal :=
  run t (fun s =>
    if s.is HP_MP_STAT_LINK then s
    else
      let s := s.flag HP_MP_STAT_LINK true
      if s.dcp.mpLost then s.raise 0x7108 0 1 0 else s) s

end Sys2Proof.Machine
end

