-- ==== Sys2Proof/Machine/EcnalLink.lean ====
section
/-! DEFINITION. Frames over the Ecnal link (spec/12, R374–R378): how a frame arrives, the reliable sequence, and the
frames the unit sends. -/

namespace Sys2Proof.Machine

/-- A frame received (R376, R377): one cut by a change of width or faulty is counted and dropped. -/
def State.frameIn (s : State) (a : Arrival) (f : State → State) : State :=
  match a with
  | .cut => s.inc PR_LINK_CNT_LOW
  | .bad => s.inc PR_LINK_ERR_LOW
  | .good => if s.linkUp then f s else s

/-- A frame sent while the link is up. -/
def State.frameOut (s : State) (f : EFrame) : State := if s.linkUp then s.emit (.ecnal f) else s

/-! The reliable sequence (R376) -/

/-- A reliable frame as it is sent. -/
def RelFrame.frame (f : RelFrame) (claim : Nat) : EFrame :=
  match f.body with
  | .ts tick part parts entries => .ts claim f.fseq tick part parts entries
  | .digest items => .digest claim f.fseq items
  | .resync tick code index offset words => .resync claim f.fseq tick code index offset words

def State.relOut (s : State) (f : RelFrame) : State := s.frameOut (f.frame s.claim)

/-- The place of a reliable frame in the order of R377: 3 the part of a copy that cannot be deferred, 4 DIGEST, 5 its deferrable
part, 6 RESYNC. -/
def RelBody.rank (deferred : Bool) : RelBody → Nat
  | .ts .. => if deferred then 5 else 3
  | .digest _ => 4
  | .resync .. => 6

/-- Waiting frames numbered in the order of R377 and sent, while no more than 128 are unacknowledged (R376). -/
def State.relPump : Nat → State → State
  | 0, s => s
  | k + 1, s =>
    match s.pair.waiting with
    | [] => s
    | w :: l =>
      if 128 < s.pair.unacked.length then s
      else
        let f : RelFrame := ⟨s.pair.fseqTx, w.2⟩
        let s := { s with pair := { s.pair with
          waiting := l, fseqTx := (f.fseq + 1) % 2 ^ 32, unacked := s.pair.unacked ++ [f]
          ackAdvAt := if s.pair.unacked.isEmpty then s.now else s.pair.ackAdvAt } }
        (s.relOut f).relPump k

/-- A reliable frame put behind those of its place in R377's order; it leaves at once where it may. -/
def State.relPut (s : State) (deferred : Bool) (b : RelBody) : State :=
  let r := b.rank deferred
  let before (w : Nat × RelBody) : Bool := decide (w.1 ≤ r)
  let l := s.pair.waiting
  let s := { s with pair := { s.pair with waiting := l.takeWhile before ++ (r, b) :: l.dropWhile before } }
  s.relPump 129

/-- A reliable frame of no deferrable part. -/
def State.relSend (s : State) (b : RelBody) : State := s.relPut false b

/-- An acknowledgement of everything before a number (R376): what leaves the window lets waiting frames go. -/
def State.relAck (s : State) (next : Nat) : State :=
  let gone := (s.pair.unacked.filter fun f => later 32 next f.fseq).length
  if gone = 0 then s
  else ({ s with pair := { s.pair with unacked := s.pair.unacked.drop gone, ackAdvAt := s.now } }).relPump 129

/-- 20 µs without an ACK that advances: every unacknowledged frame again, from the oldest (R376). -/
def execEcnalResend (t : Nat) (s : State) : Host.Outcome State Fault Refusal :=
  run t (fun s =>
    if s.linkUp && !s.pair.unacked.isEmpty && s.past s.pair.ackAdvAt 20000 then
      let s := { s with pair := { s.pair with ackAdvAt := s.now } }
      (s.each s.pair.unacked State.relOut).inc PR_LINK_CNT_HIGH
    else s) s

/-- The ACK of everything received (R376, R383). -/
def State.ackSend (s : State) : State :=
  s.frameOut (.ack ⟨s.claim, s.pair.fseqRx, if s.base == .standby then s.pair.appliedTick else 0,
    s.get (JL_READY_CH 0), s.get (JL_READY_CH 1), s.get (JL_READY_CH 2)⟩)

/-- The claim a frame carries (PR_PARTNER_CLAIM). -/
def State.claimSeen (s : State) (claim : Nat) : State :=
  ({ s with pair := { s.pair with partnerEpoch := claim / 256 } }).wr PR_PARTNER_CLAIM claim

/-- A reliable frame received: accepted only in order, and then acknowledged (R376). -/
def State.relIn (s : State) (h : RelHdr) (f : State → State) : State :=
  s.frameIn h.arrival fun s =>
    let s := s.claimSeen h.claim
    if h.fseq = s.pair.fseqRx then
      (f { s with pair := { s.pair with fseqRx := (h.fseq + 1) % 2 ^ 32 } }).ackSend
    else s.inc PR_LINK_ERR_HIGH

/-- The reliable sequence begun again, as both ends do when the link comes up. -/
def State.relReset (s : State) : State :=
  { s with pair := { s.pair with fseqTx := 0, fseqRx := 0, unacked := [], waiting := [], hbTx := [], rxSeq := 0, rxAt := 0 } }

/-! HB (R378) and HELLO (R385) -/

/-- The receive stamp of a frame whose first symbol reached the lane that carries word 0 some ns ago: less that lane's arrival
skew (R214, R374). A sent frame's stamp needs none: every lane sends its K27.7 in the same symbol slot
(log 58). -/
def State.frameStamp (s : State) (ago : Nat) : Nat :=
  (((s.now - ago : Nat) : Int) - (s.laneSt (96 + s.pair.linkSet.headD 0)).skew).toNat

/-- Items of the next HB: at most 8, WDTRIP and OVS first; and those left for later. -/
def hbPick (l : List HbItem) : List HbItem × List HbItem :=
  let urgent (i : HbItem) : Bool := i.w0 / 2 ^ 24 == 1 || i.w0 / 2 ^ 24 == 2
  let q := l.filter urgent ++ l.filter fun i => !urgent i
  (q.take 8, q.drop 8)

/-- Whether the unit yields, with its cause (R388). -/
def State.yields (s : State) : Bool := s.pair.yieldUntil.isSome

/-- ROLE as the unit's frames carry it; while it yields, the role it yields. -/
def State.roleSent (s : State) : Nat := if s.yields then s.pair.yieldRole else s.get PR_STAT_ROLE

/-- The flags word of an HB. -/
def State.hbFlags (s : State) : Nat :=
  s.roleSent + b2n (s.is PR_STAT_STALE) * 2 ^ 4 + b2n (s.is FS_SAFE_STAT_SAFE) * 2 ^ 5 +
    b2n (s.is ⟨GL_DEGRADED, 6, 0⟩) * 2 ^ 6 + b2n (s.is PR_STAT_DEMOTED) * 2 ^ 7 + b2n (s.is PR_STAT_CONTEST) * 2 ^ 8 +
    b2n s.pair.partnerLost * 2 ^ 9 + b2n s.pair.staleYou * 2 ^ 10 + b2n s.yields * 2 ^ 11 +
    (if s.yields then s.pair.yieldCause else 0) * 2 ^ 12 + b2n (s.get TB_PAIR_STAT_STATE == 3) * 2 ^ 16

/-- TICK of an HB: the last copy sent, or applied. -/
def State.hbTick (s : State) : Nat :=
  if s.authoritative then s.pair.sentTick else if s.base == .standby then s.pair.appliedTick else 0

/-- An HB leaves, stamped. -/
def State.hbSend (s : State) : State :=
  let items := hbPick s.pair.items
  let seq := (s.pair.hbSeq + 1) % 2 ^ 32
  let f : HbFrame := ⟨s.claim, seq, s.now, s.pair.rxSeq, s.pair.rxAt, s.hbFlags, s.hbTick % 2 ^ 32, items.1⟩
  let s := { s with pair := { s.pair with
    hbSeq := seq, hbAt := s.now / 10000 + 1, items := items.2, hbTx := (seq, s.now) :: s.pair.hbTx.take 7 } }
  s.frameOut (.hb f)

/-- Whether the unit takes part in the pair: a role, PAIRING, or the HBs of a unit that leaves. -/
def State.inPair (s : State) : Bool := s.pairEn && (s.inRole || s.base == .pairing || s.yields)

/-- A yield ends: its HBs have gone out for 100 µs; a unit that leaves then disables its Ecnal lanes (R406). -/
def State.yieldEnd (s : State) : State :=
  match s.pair.yieldUntil with
  | none => s
  | some u =>
    if s.now < u then s
    else
      let left := s.pair.leftAt.isSome
      let s := { s with pair := { s.pair with yieldUntil := none, yieldCause := 0 } }
      if left then s.each (List.range 4) fun s i => s.laneDisable (96 + i) else s

/-- A yield begun with its cause, from the role held (R388); its first HB leaves at once. -/
def State.yieldStart (s : State) (cause role : Nat) : State :=
  let s := { s with pair := { s.pair with yieldCause := cause, yieldRole := role, yieldUntil := some (s.now + 100000) } }
  if s.linkUp then s.hbSend else s

/-- A HELLO. -/
def State.helloOut (s : State) : State :=
  s.frameOut (.hello ⟨s.claim, b2n s.unitId, s.get PR_STAT_ROLE, s.is PR_STAT_STALE, s.is PR_STAT_DEMOTED, s.pair.epoch⟩)

/-- The moments from which HELLOs are sent every 100 µs (R385). -/
def State.helloStart (s : State) : State :=
  if s.linkUp then { s with pair := { s.pair with helloOn := true, helloRx := 0, helloAt := s.now } } else s

/-- A HELLO falls due (R385). -/
def execHelloSend (t : Nat) (s : State) : Host.Outcome State Fault Refusal :=
  run t (fun s =>
    if s.linkUp && s.pair.helloOn && decide (s.pair.helloAt ≤ s.now) then
      ({ s with pair := { s.pair with helloAt := s.now + 100000 } }).helloOut
    else s) s

/-! Width (R245) and ELSYNC (R380) -/

/-- The link widens to what the READY lanes allow, at a tick end (R245); when it comes up in a role or PAIRING, HELLOs
begin (R385). -/
def State.linkWiden (s : State) : State :=
  let was := s.linkUp
  let s := { s.put PR_STAT_WIDTH (max (s.get PR_STAT_WIDTH) s.linkLanes) with
    pair := { s.pair with linkSet := s.linkAllowed } }
  if !was && s.linkUp then (if s.inRole || s.base == .pairing then s.relReset.helloStart else s.relReset) else s

/-- An EL lane's sixteen ELSYNC frames judged (R380). -/
def State.elsyncEnd (s : State) (l : Nat) (skew : Int) : State :=
  let r := (s.laneSt l).els
  let lo := r.foldl min (r.headD 0)
  let hi := r.foldl max (r.headD 0)
  if hi - lo ≤ 128 ∧ skew.natAbs ≤ 64 then (s.modLane l fun x => { x with skew := skew }).laneReadyBase l
  else s.laneFail l 5

/-- The ELSYNCs an EL lane in TIMELOCK has still to send by now: one at its entry and one every 10 µs, sixteen in all (R380). -/
def State.elsyncSend (s : State) : State :=
  s.each (List.range 4) fun s el =>
    let x := s.laneSt (96 + el)
    let due := min 16 ((s.now - x.since) / 10000 + 1)
    if s.tstate (96 + el) = tsTimelock then
      (s.each ((List.range due).drop x.elsTx) fun s k => s.emit (.ecnal (.elsync el s.claim (x.since + 10000 * k)))).modLane (96 + el)
        fun y => { y with elsTx := max y.elsTx due }
    else s

/-- The HB of a 10 µs slot of device time (R378); ELSYNCs keep the same interval (R380). -/
def execEcnalHbSend (t : Nat) (s : State) : Host.Outcome State Fault Refusal :=
  run t (fun s =>
    let s := s.yieldEnd.elsyncSend
    if s.linkUp && s.inPair && decide (s.pair.hbAt ≤ s.now / 10000) then s.hbSend else s) s

/-- An ELSYNC received on an EL lane in TIMELOCK with its round trip in 1/16 ns and the lane's arrival skew in ns (R380). -/
def execElsync (t el : Nat) (rtt skew : Int) (s : State) : Host.Outcome State Fault Refusal :=
  run t (fun s =>
    let l := 96 + el
    let s := s.elsyncSend
    if el < 4 ∧ s.tstate l = tsTimelock then
      let s := s.modLane l fun x => { x with els := x.els ++ [rtt] }
      if (s.laneSt l).els.length = 16 then s.elsyncEnd l skew else s
    else s) s

end Sys2Proof.Machine
end

