-- ==== Sys2Proof/Machine/Pair.lean ====
section
/-! DEFINITION. The pair's roles (spec/12, R369–R399): heartbeats and their items, pairing, takeover, yield, contest and
back-off, STALE, and planned switchover. -/

namespace Sys2Proof.Machine

/-- Whether the unit is a standby that may take over and that follows the copy: neither STALE nor DEMOTED. -/
def State.goodStandby (s : State) : Bool := s.base == .standby && !s.is PR_STAT_STALE && !s.is PR_STAT_DEMOTED

/-- Whether the unit is joining (R400). -/
def State.joining (s : State) : Bool := s.is PR_STAT_RESYNC_PHASE

/-- An epoch raised by 1, kept at the top value (R372). -/
def epochUp (e : Nat) : Nat := min (e + 1) 0xFFFFFF

/-- The epoch a raised claim takes: one more than the higher of the unit's own and the partner's last (R372). -/
def State.epochRaised (s : State) : Nat := epochUp (max s.pair.epoch s.pair.partnerEpoch)

/-- PR_STAT's words about the partner. -/
def State.partnerShow (s : State) : State :=
  s.flag PR_STAT_PARTNER_STALE (s.pair.partnerStale || s.pair.partnerJoining)

/-- Copies, held copies and what a join had gathered let go. -/
def State.copiesDrop (s : State) : State :=
  { s with pair := { s.pair with copies := [], objs := [], t0 := none, framesRx := 0, ended := false, endFrames := 0,
                                 anchored := false } }

/-- A pending switchover abandoned (R399). -/
def State.switchAbandon (s : State) : State :=
  match s.pair.switchAt with
  | none => s
  | some _ =>
    (({ s with pair := { s.pair with switchAt := none } }).flag PR_STAT_SWITCH_PENDING false).raise 0x610D 0 0 0

/-! STALE (R383, R384) -/

/-- A standby enters STALE (R384): its servo holds, copies are let go, HELLOs begin (R385). -/
def State.goStale (s : State) : State :=
  if s.base != .standby || s.is PR_STAT_STALE then s
  else (((s.flag PR_STAT_STALE true).copiesDrop.switchAbandon).servoHold).helloStart

/-- The standby no longer follows (R383): STORED slots are HELD (R68), a switchover is abandoned and responses leave (R38). -/
def State.followerGone (s : State) : State :=
  let s := s.holdAll.switchAbandon
  if s.is PR_STAT_CONTEST then s else s.respFlush

/-- The active declares the standby STALE (R383): STALE_YOU, 0x6104. -/
def State.partnerGoesStale (s : State) : State :=
  let s := { s with pair := { s.pair with partnerStale := true, staleYou := true } }
  (s.partnerShow.raise 0x6104 0 0 0).followerGone

/-- Whether a copy sent to a standby still lacks its acknowledgement; a standby that shows STALE of itself meanwhile has not given
it. -/
def State.copyAwaited (s : State) : Bool :=
  s.base == .active && s.pair.partnerUp && !s.pair.partnerJoining && !s.pair.staleYou && !s.pair.acked

/-- A copy's limit of 200 µs after its tick end (R383). -/
def execCopyDeadline (t : Nat) (s : State) : Host.Outcome State Fault Refusal :=
  run t (fun s =>
    let late := s.past (s.tick * 250000) 200000
    if s.goodStandby && !s.joining && late && decide (s.pair.appliedTick < s.tick) then s.goStale
    else if s.copyAwaited && s.past s.pair.sentAt 200000 then s.partnerGoesStale
    else s) s

/-! Takeover (R387–R389) -/

/-- What follows in the unit when it becomes authoritative: HBs with the claim, the pair's time, Beryl, its own encoder
findings. -/
def State.authTake (s : State) : State :=
  let s := s.claimHbs.servoAdopt.berylTakeover
  let s := { s with pair := { s.pair with entries := [], higher := false, acked := true } }
  if s.selFailed then s.failedAct s.web.onSec else s

/-- A takeover with its cause and new epoch (R389): counted, reported, recorded; sessions close (R54). -/
def State.takeover (s : State) (b : Base) (epoch cause : Nat) : State :=
  let s := (s.setBase b).copiesDrop.setClaim epoch 32
  let s := ((s.inc PR_TAKEOVER_COUNT).put PR_TAKEOVER_CAUSE cause).wr PR_TAKEOVER_T_LO s.now
  let s := (s.wr PR_TAKEOVER_T_HI (s.now / 2 ^ 32)).authTake.ingestDrop
  let s := s.raise 0x6103 0 0 0
  let s := if s.is AG_TRIG_CFG_TAKEOVER then s.trigger 3 0x6103 else s
  if s.heldAlone then s.holdAll else s

/-- A contest begun (R390). -/
def State.contestStart (s : State) : State :=
  ({ s with pair := { s.pair with won := [], contestAt := s.now } }).flag PR_STAT_CONTEST true

/-- Head lanes that must report the claim for a win, and whether the contest is won (R390). -/
def State.contestWon (s : State) : Bool :=
  match s.running with
  | some j => ((barsOf j.bars).flatMap barLanes).all fun l => !s.ready l || s.pair.won.contains l
  | none =>
    if (idxs 96 s.ready).isEmpty then s.past s.pair.contestAt 1000000 else s.pair.won.any s.ready

/-- A contest that is won ends; held responses leave (R390). -/
def State.contestLook (s : State) : State :=
  if s.is PR_STAT_CONTEST && s.contestWon then (s.flag PR_STAT_CONTEST false).respFlush else s

/-- 1 ms of a contest with no job and no READY head lane (R390). -/
def execContestTimeout (t : Nat) (s : State) : Host.Outcome State Fault Refusal := run t State.contestLook s

/-- PAIRING entered or restarted (R385–R387). -/
def State.pairingStart (s : State) : State :=
  let s := (s.setBase .pairing).put PR_STAT_RESYNC_PHASE 0
  let s := { s with pair := { s.pair with pairAt := s.now, helloRx := 0, helloMet := 0, partnerLost := false } }
  s.copiesDrop.servoHold.helloStart

/-- What a unit does when its partner is declared lost (R387). -/
def State.lossAct (s : State) : State :=
  match s.base with
  | .standby =>
    if s.goodStandby then (s.takeover .single s.epochRaised 1).contestStart else s.servoHold
  | .active =>
    (((s.setBase .single).setClaim s.epochRaised 32).contestStart.claimHbs).holdAll
  | .pairing => s.pairingStart
  | _ => s

/-- Multiples of 10 µs without a valid HB since the last one (R379): the slots of R378 in which none has come while the partner is
present, and every 10 µs once it is lost. -/
def State.hbMissed (s : State) (at_ : Nat) : Nat :=
  if s.pair.lastHb = 0 then 0
  else if s.pair.partnerUp then at_ / 10000 - s.pair.lastHb / 10000 - 1
  else (at_ - s.pair.lastHb) / 10000

/-- Those that have still to be counted, counted up to an instant. -/
def State.missedAdd (s : State) (at_ : Nat) : State := s.add PR_HB_CNT_MISSED (s.hbMissed at_ - s.pair.missed)

/-- PR_HB_CNT as read: MISSED counts on while no HB comes (R379). -/
def State.hbCntView (s : State) : Nat := (if s.inPair then s.missedAdd s.now else s).rd PR_HB_CNT

/-- 30 µs without a valid HB (R379). -/
def execPartnerLost (t : Nat) (s : State) : Host.Outcome State Fault Refusal :=
  run t (fun s =>
    if s.pair.partnerUp && s.past s.pair.lastHb 30000 then
      let n := (s.now - s.pair.lastHb) / 10000
      let s := s.add PR_HB_CNT_MISSED (n - s.pair.missed)
      let s := { s with pair := { s.pair with
        partnerUp := false, partnerLost := true, partnerJoining := false, missed := n, items := [] } }
      let s := ((s.flag PR_STAT_PARTNER_UP false).partnerShow.raise 0x6102 0 0 0).switchAbandon
      let s := if s.joining && s.base == .standby then (s.put PR_STAT_RESYNC_PHASE 0).copiesDrop else s
      s.lossAct
    else s) s

/-! Back-off (R391) -/

/-- The unit stands down: STANDBY and STALE at rank 1, its servo in HOLDOVER (R226, R384), its commands answered DISCARDED, its
unacknowledged transfers dropped (R39). -/
def State.standDown (s : State) : State :=
  let s := ((s.setBase .standby).flag PR_STAT_STALE true).put TB_PAIR_STAT_STATE 4
  let s := (s.setClaim s.pair.epoch 1).flag PR_STAT_CONTEST false
  let s := { s with pair := { s.pair with higher := false, won := [], entries := [] } }
  s.dcpDiscard.xfersCut.switchAbandon.copiesDrop.helloStart

/-- The back-off of a unit of rank 32 that has seen a higher claim, at a tick end. -/
def State.backOff (s : State) : State :=
  if s.pair.rank == 32 && s.pair.higher && s.authoritative then s.standDown.raise 0x6105 0 0 0
  else { s with pair := { s.pair with higher := false } }

/-- A claim seen in an HB or a STAT. -/
def State.claimCompare (s : State) (claim : Nat) : State :=
  if s.pair.rank == 32 && decide (s.claim < claim) then { s with pair := { s.pair with higher := true } } else s

/-! Joining begins (R400) and the pairing table (R385) -/

/-- A join begun: STANDBY comes only with its last step; the claim is 0, the servo starts in ACQUIRE, and no line composed before is
sent any more (R373). -/
def State.joinStart (s : State) : State :=
  if s.joining then { s with pair := { s.pair with helloOn := false } }
  else
    let s := if s.base == .single then ((s.setBase .standby).flag PR_STAT_STALE true).dcpDiscard.xfersCut else s
    let s := { s with pair := { s.pair with
      holdsSeq := false, rank := 0, helloOn := false, partnerLost := false, higher := false, entries := [] } }
    let cut (x : ChanLine) : ChanLine := if x.stamp.isNone then { x with unsent := true } else x
    let s := { s with lines := s.lines.map fun (l : List ChanLine) => l.map cut }
    let s := (s.wr PR_CLAIM (b2n s.unitId)).flag PR_STAT_CONTEST false
    ((s.copiesDrop.heldBack.put PR_STAT_RESYNC_PHASE 1).servoStart).raise 0x610E 0 0 0

/-- The unit becomes, or stays, ACTIVE with a partner that joins (R385); responses leave (R38). -/
def State.pairActive (s : State) : State :=
  let s := { s with pair := { s.pair with
    helloOn := false, partnerLost := false, partnerStale := true, partnerJoining := true, staleYou := false,
    partnerLocked := false, t0 := none, digestsSent := false, acked := true } }
  let s := match s.base with
    | .pairing => ((({ s.setBase .active with pair := { s.pair with holdsSeq := true } }).setClaim 1 32).claimHbs).servoStop
    | .standby => ((s.flag PR_STAT_STALE false).setBase .active |>.setClaim s.epochRaised 32).authTake
    | .single => s.firstClaim.setBase .active
    | _ => s
  let s := s.partnerShow.holdAll
  if s.is PR_STAT_CONTEST then s else s.respFlush

/-- Whether a HELLO's sender is PAIRING, or STANDBY and STALE or DEMOTED. -/
def helloWeak (h : HelloFrame) : Bool := h.role == 0 || (h.role == 2 && (h.stale || h.demoted))

/-- The table of R385, before it R22's clash of UNIT_ID. A unit that already holds a role keeps it and enters SAFE; a HELLO with
another UNIT_ID ends the clash, while SAFE lasts until CLEAR (log 53). -/
def State.pairDecide (s : State) (h : HelloFrame) : State :=
  let s := { s with pair := { s.pair with helloRx := 0, helloOn := false } }
  let weak := s.base == .standby && (s.is PR_STAT_STALE || s.is PR_STAT_DEMOTED)
  if h.unit = b2n s.unitId then
    if s.pair.clash then s
    else (({ s with pair := { s.pair with clash := true } }).raise 0x6106 0 0 0).safeEnter
  else
    let s := { s with pair := { s.pair with clash := false } }
    match s.base with
    | .pairing =>
      if h.role = 0 then (if s.unitId then s.joinStart else if s.joining then s else s.pairActive)
      else if h.role = 1 ∨ h.role = 3 then s.joinStart
      else s
    | .standby =>
      if !weak then s
      else if h.role = 1 ∨ h.role = 3 then s.joinStart
      else if h.role = 2 then
        if s.is PR_STAT_DEMOTED && h.demoted then s.raise 0x6107 0 0 0
        else if s.is PR_STAT_DEMOTED then (if h.stale then s.joinStart else s)
        else if h.demoted || (h.stale && decide (h.claim < s.claim)) then s.pairActive
        else if h.stale then s.joinStart else s
      else s
    | .active => if helloWeak h then s.pairActive else s
    | .single =>
      if helloWeak h then s.pairActive
      else if h.role = 3 then (if h.claim < s.claim then s.pairActive else s.joinStart)
      else s
    | _ => s

/-- A HELLO received: answered whatever the role; the second since the moment decides (R385). -/
def execHello (t : Nat) (a : Arrival) (h : HelloFrame) (s : State) : Host.Outcome State Fault Refusal :=
  run t (fun s => s.frameIn a fun s =>
    let s := (s.claimSeen h.claim).helloOut
    let s := { s with pair := { s.pair with
      helloRx := s.pair.helloRx + 1, helloMet := s.pair.helloMet + 1, partnerEpoch := max s.pair.partnerEpoch h.epoch } }
    if 2 ≤ s.pair.helloRx && (s.inRole || s.base == .pairing) then s.pairDecide h else s) s

/-- PAIR_TMO_MS in PAIRING without two HELLOs (R386): SINGLE without sequence numbers, its claim still of epoch 0 and rank 0
(R373). -/
def execPairTimeout (t : Nat) (s : State) : Host.Outcome State Fault Refusal :=
  run t (fun s =>
    if s.base == .pairing && !s.joining && !s.pair.clash && decide (s.pair.helloMet < 2) &&
        s.past s.pair.pairAt (s.get PR_CFG_PAIR_TMO_MS * 1000000) then
      let s := ({ s with pair := { s.pair with holdsSeq := false, epoch := 0, rank := 0, partnerEpoch := 0 } }).servoStop
      ((s.setBase .single).wr PR_CLAIM (b2n s.unitId) |>.raise 0x6108 0 0 0).holdAll
    else s) s

/-! Heartbeats received (R378, R379, R388, R392) -/

/-- A 64-bit time from its low 32 bits, the latest not after the present. -/
def State.timeOf (s : State) (low : Nat) : Nat := s.now - (s.now + 2 ^ 32 - low % 2 ^ 32) % 2 ^ 32

/-- Counts of an encoder after a device time, signed. -/
def State.countsSince (s : State) (n at_ : Nat) : Int :=
  let e := s.enc n
  let c : Int := ((e.counts.filter fun a => decide (at_ < a)).length : Nat)
  if e.fwd then c else -c

/-- An ENCSRC item (R183): the active's selection, anchor and states. A restored encoder is the tracked one, but after LOST the
selected one, whose partner is FAILED still (R182). -/
def State.encFollow (s : State) (w : HbItem) : State :=
  let kind := bits w.w0 23 22
  let sel := bits w.w0 21 20
  let at_ := s.timeOf w.w3
  let old := s.selEnc
  let s := if sel != s.selEnc && sel == s.trkEnc then
      let p := s.posTaken w.w1 w.w2 * 65536 + s.countsSince sel at_ * (s.scaleOf sel : Nat)
      let s := { s with web := { s.web with onSec := !s.web.onSec, ps := s.web.p, alignAt := p } }
      (s.pSet p s.now).dirUpdate.webShow
    else s
  let s := (s.flag WP_SRC_STAT_PRI_FAILED (bit w.w0 19)).flag WP_SRC_STAT_SEC_FAILED (bit w.w0 18)
  let s := if kind = 0 then (s.inc WP_SRC_STAT_FAILOVERS).raise 0x2101 old 0 0 else s
  let s := if kind = 2 then
      s.modEnc (if s.trkFailed then s.selEnc else s.trkEnc) fun e => { e with errs := [], others := 0 }
    else s
  if bit w.w0 17 then s.posLost else s.flag WP_SRC_STAT_LOST false

/-- An UNSENT item (R307): lines neither unit sent are marked PAIR by the active. -/
def State.unsentFollow (s : State) (w : HbItem) : State :=
  if s.base != .active then s
  else
    let ch := bits w.w0 6 0
    s.each (List.range (min w.w2 4096)) fun s k =>
      let seq := (w.w1 + k) % 2 ^ 24
      match s.pair.unsentOwn.find? fun x => x.1 == ch && x.2.1 == seq with
      | some x =>
        ({ s with pair := { s.pair with unsentOwn := s.pair.unsentOwn.filter (· != x) } }).wastePair x.2.2.1 x.2.2.2
      | none => { s with pair := { s.pair with unsentPartner := s.pair.unsentPartner ++ [(ch, seq)] } }

/-- Items kept for lines long past let go. -/
def State.unsentPrune (s : State) : State :=
  let near (ch seq : Nat) : Bool := decide (cdiff 24 (s.get (JL_SEQ_NEXT_SEQ ch)) seq < 65536)
  { s with pair := { s.pair with
    unsentOwn := s.pair.unsentOwn.filter fun x => near x.1 x.2.1
    unsentPartner := s.pair.unsentPartner.filter fun x => near x.1 x.2 } }

/-- An item of the partner's HB (R378). -/
def State.itemTake (s : State) (w : HbItem) : State :=
  match w.w0 / 2 ^ 24 with
  | 1 => s.each (barsOf (bits w.w0 7 0)) fun s b => s.wdTrip b false false
  | 2 => if s.follows then s.ovsFollow (bits w.w0 21 16) (bits w.w0 10 8) (bits w.w0 1 0) w.w1 else s
  | 3 => if s.follows then s.encFollow w else s
  | 4 => s.unsentFollow w
  | _ => s

/-- Whether items apply: not to a STALE unit, unless it is joining and holds the snapshot (R384, R400). -/
def State.itemsApply (s : State) : Bool := !s.is PR_STAT_STALE || decide (3 ≤ s.get PR_STAT_RESYNC_PHASE)

/-- An offset measured from an exchange of HBs (R224), in 1/32 ns. -/
def State.thetaTake (s : State) (h : HbFrame) (rx : Nat) : State :=
  if !((s.base == .standby && !s.is PR_STAT_STALE) || s.joining) then s
  else
    match s.pair.hbTx.find? (·.1 == h.rxSeq) with
    | none => s
    | some (_, t3) =>
      let d : Int := ((rx : Int) - h.tTx) - ((h.tRx : Int) - t3)
      { s with tb := { s.tb with thetas := s.tb.thetas ++ [16 * d - s.sget TB_PAIR_ASYM_ASYM] } }

/-- Whether an HB's flags are those of a unit that leaves (R406). -/
def leaves (f : Nat) : Bool := bit f 11 && bits f 15 12 == 4

/-- An HB with YIELD (R388, R406); `again` of a unit whose HB before it said already that it leaves. -/
def State.yieldTake (s : State) (role cause : Nat) (again : Bool) : State :=
  if cause = 4 then
    if s.base == .active then
      let s := { s with pair := { s.pair with partnerJoining := false, partnerStale := true } }
      ((s.setBase .single).raise 0x6111 0 0 0).holdAll.respFlush
    else if s.base == .single && !again then s.raise 0x6111 0 0 0
    else s
  else if s.goodStandby && !s.joining && role == 1 then
    let s := { s with pair := { s.pair with
      partnerDemoted := s.pair.partnerDemoted || cause == 1, partnerStale := s.pair.partnerStale || cause == 3 } }
    s.takeover (if cause = 2 then .single else .active) s.epochRaised (cause + 1)
  else s

/-- What the partner's HB says of itself. A join ends for the active with the first HB of a standby that holds a claim, once its
snapshot has been sent (R371, R385, R400). -/
def State.partnerTake (s : State) (h : HbFrame) (rx : Nat) : State :=
  let f := h.flags
  let s := s.missedAdd rx
  let followed := s.followed
  let done := s.pair.partnerJoining && bits f 3 0 == 2 && !bit f 4 && h.claim / 256 != 0 && s.pair.t0.isSome
  let s := { s with pair := { s.pair with
    rxSeq := h.hbSeq, rxAt := rx, lastHb := rx, missed := 0, partnerFlags := f, partnerUp := true,
    partnerJoining := s.pair.partnerJoining && !done
    staleYou := s.pair.staleYou && !done
    partnerStale := bit f 4 || (s.pair.staleYou && !done) || (s.pair.partnerJoining && !done)
    partnerDemoted := bit f 7, partnerLocked := bit f 16 } }
  let s := (s.inc PR_HB_CNT_RECEIVED).flag PR_STAT_PARTNER_UP true
  let s := (s.put PR_STAT_PARTNER_ROLE (bits f 3 0)).partnerShow
  let s := if s.heldAlone then s.holdAll else s
  let s := if followed && bit f 4 then s.followerGone else s
  if done then s.raise 0x6101 0 0 0 else s

/-- LOST_YOU and STALE_YOU (R383, R392): LOST_YOU counts only while this unit has not declared its partner lost. -/
def State.youTake (s : State) (f : Nat) : State :=
  let s := if bit f 9 && !s.pair.partnerLost then (if s.authoritative then s.standDown else s.goStale) else s
  if bit f 10 then s.goStale else s

/-- An HB from the partner (R378): `ago` ns since its receive stamp. -/
def execEcnalHb (t ago : Nat) (a : Arrival) (h : HbFrame) (s : State) : Host.Outcome State Fault Refusal :=
  run t (fun s => s.frameIn a fun s =>
    let rx := s.frameStamp ago
    let again := leaves s.pair.partnerFlags
    let s := ((s.claimSeen h.claim).partnerTake h rx).thetaTake h rx
    let s := (s.claimCompare h.claim).youTake h.flags
    let s := if bit h.flags 11 then s.yieldTake (bits h.flags 3 0) (bits h.flags 15 12) again else s
    if s.itemsApply then s.each (h.items.take 8) State.itemTake else s) s

/-! Reference loss (R212) -/

/-- A reference input becomes BAD (R210); with both BAD an ACTIVE unit yields to a good standby (R388). -/
def execRefInputBad (t input : Nat) (s : State) : Host.Outcome State Fault Refusal :=
  run t (fun s =>
    let was := s.is TB_REF_STAT_LOST
    let s := s.refBad input
    if !was && s.is TB_REF_STAT_LOST && s.followed then
      let s := s.yieldStart 3 1
      s.standDown
    else s) s

/-! ACK (R376) and DIGEST (R66) -/

/-- Digests queued for the partner leave at a tick end, at most 4,096 (R66, R376). -/
def State.digestsSend (s : State) : State :=
  if s.linkUp && (s.base == .active || s.base == .standby || s.joining) then
    let l := s.ingest.digests.take 4096
    let s := { s with ingest := { s.ingest with digests := s.ingest.digests.drop 4096 } }
    s.each (List.range (cdiv l.length 127)) fun s k =>
      s.relSend (.digest (((l.drop (127 * k)).take 127).map fun d => ⟨d.1, d.2.1, d.2.2.1, d.2.2.2.1, d.2.2.2.2⟩))
  else s

/-- A DIGEST frame (R66): each digest is kept and compared. -/
def execDigestFrame (t : Nat) (h : RelHdr) (items : List DigestItem) (s : State) : Host.Outcome State Fault Refusal :=
  run t (fun s => s.relIn h fun s =>
    s.each (items.take 127) fun s d => s.digestIn d.surf d.gen d.slot d.len d.digest) s

/-- The standby's acknowledgement of the last copy (R38, R383). -/
def State.copyAcked (s : State) (tick : Nat) : State :=
  if s.base == .active && !s.pair.acked && tick == s.pair.sentTick % 2 ^ 32 && tick != 0 then
    let us := (s.now - s.pair.sentAt) / 1000
    let s := ({ s with pair := { s.pair with acked := true } }).put PR_TS_STAT_CONFIRM_US (min us 255)
    if s.is PR_STAT_CONTEST then s else s.respFlush
  else s

/-- An ACK from the partner (R376). -/
def execEcnalAck (t : Nat) (a : Arrival) (k : AckFrame) (s : State) : Host.Outcome State Fault Refusal :=
  run t (fun s => s.frameIn a fun s =>
    let s := ((s.claimSeen k.claim).relAck k.nextFseq).wr (PR_PARTNER_READY 0) k.ready0
    ((s.wr (PR_PARTNER_READY 1) k.ready1).wr (PR_PARTNER_READY 2) k.ready2).copyAcked k.appliedTick) s

/-! Planned switchover (R398, R399) -/

/-- Whether the partner's READY bitmaps cover the running job's READY channels (R398). -/
def State.partnerCovers (s : State) : Bool :=
  ((s.runBars).flatMap barLanes).all fun ch => !s.ready ch || s.bitOf (PR_PARTNER_READY_CH (ch / 32)) (ch % 32)

/-- SWITCH commits (R398): the copy of this tick names the next tick. -/
def State.switchCommit (s : State) : Nat × State :=
  if s.base == .active && s.followed && bits s.pair.partnerFlags 3 0 == 2 && !bit s.pair.partnerFlags 5 && s.pair.partnerLocked &&
      s.partnerCovers && s.pair.switchAt.isNone && decide (s.pair.epoch < 0xFFFFFF) then
    let s := ({ s with pair := { s.pair with switchAt := some (s.tick * 250000) } }).flag PR_STAT_SWITCH_PENDING true
    (stOk, s.copy 8 [s.tick + 1])
  else (stBadState, s)

/-- The old active at T + 460 µs: rank 1 at the next epoch, STANDBY, its servo in TRACK (R399). -/
def State.switchOld (s : State) : State :=
  let s := ((s.setBase .standby).setClaim (epochUp s.pair.epoch) 1).claimHbs
  let s := { s with pair := { s.pair with entries := [], appliedTick := s.pair.sentTick } }
  (s.put TB_PAIR_STAT_STATE 2).heldDiscard.raise 0x610C 0 0 0

/-- The handover instant (R399): the new active drives its outputs 10 µs later. -/
def execSwitchHandover (t : Nat) (s : State) : Host.Outcome State Fault Refusal :=
  run t (fun s =>
    match s.pair.switchAt with
    | none => s
    | some t0 =>
      if !s.past t0 460000 then s
      else
        let n := t0 / 250000 + 1
        let go := if s.base == .active then s.pair.acked && s.pair.sentTick == n
          else s.goodStandby && decide (n ≤ s.pair.appliedTick)
        if go then
          let s := ({ s with pair := { s.pair with switchAt := none } }).flag PR_STAT_SWITCH_PENDING false
          if s.base == .active then s.switchOld
          else
            let s := { s with pair := { s.pair with driveAt := t0 + 470000 } }
            (s.takeover .active (epochUp s.pair.epoch) 6).raise 0x610C 0 0 0
        else s.switchAbandon) s

/-! Leaving and clearing (R397, R406) -/

/-- LEAVE (R406). -/
def State.leave (s : State) : Nat × State :=
  if s.base == .active || s.base == .single then (stBadState, s)
  else
    let role := s.get PR_STAT_ROLE
    let s := s.yieldStart 4 role
    let s := { s with pair := { s.pair with leftAt := some s.now, helloOn := false } }
    let s := ((s.setBase .configured).put PR_STAT_RESYNC_PHASE 0).copiesDrop.autoArm
    let s := s.each (List.range 96) State.laneDisable
    (stOk, if s.linkUp then s else s.each (List.range 4) fun s i => s.laneDisable (96 + i))

/-- CLR_DEMOTE (R397): a DEMOTED standby stays STALE until it rejoins. -/
def State.clrDemote (s : State) : State :=
  let was := s.is PR_STAT_DEMOTED
  let s := ((s.flag PR_STAT_DEMOTED false).flag FS_SAFE_STAT_GARNET false).flag PR_GARNET_LAST_FAILED false
  if was then
    let s := if s.base == .standby then (s.setClaim s.pair.epoch 1).claimHbs else s
    (s.flag PR_STAT_STALE true).servoHold.helloStart
  else s

/-- Limits of PR_CFG. -/
def limitPr (_s : State) (a new _mask : Nat) : Verdict :=
  if a = PR_CFG then rangeUnless (fieldIn new 15 0 10 60000 && bits new 23 16 != 0) else none

/-- What a write to PR_CTRL sets off. -/
def actPr (a mask val : Nat) (_before s : State) : Nat × State :=
  let w := mask &&& val
  if a = PR_CTRL then
    let s := if bit w 2 then s.clrDemote else s
    if bit w 1 then s.leave
    else if bit w 0 then s.switchCommit
    else (stOk, s)
  else (stOk, s)

end Sys2Proof.Machine
end

