-- ==== Sys2Proof/Machine/Garnet.lean ====
section
/-! DEFINITION. Garnet (spec/12, R393–R396) and STAT records (spec/09, R285), whose mismatches and claims it serves. -/

namespace Sys2Proof.Machine

/-- A confirmed failure and what it brings (R394, R395); an active that yields steers to its successor from TRACK (R223, log 58). -/
def State.garnetFail (s : State) (ch : Nat) : State :=
  let s := ((s.flag PR_GARNET_LAST_FAILED true).inc PR_GARNET_STAT_FAILS).raise 0x610A ch 0 0
  if s.base == .active && s.followed then
    let s := s.yieldStart 1 1
    let s := ((s.setBase .standby).flag PR_STAT_DEMOTED true).setClaim s.pair.epoch 0
    let s := s.put TB_PAIR_STAT_STATE 2
    let s := { s with pair := { s.pair with higher := false, entries := [] } }
    (s.flag PR_STAT_CONTEST false).dcpDiscard.xfersCut.switchAbandon.copiesDrop
  else if s.authoritative then s.safeSet 4
  else if s.base == .standby then
    ((s.flag PR_STAT_DEMOTED true).setClaim s.pair.epoch 0).copiesDrop
  else s

/-- A channel focused (R394, R396); a fifth waits for the first free focus. A mismatch on a channel that a miscompare has focused is
one that Garnet attributes. -/
def State.focusOn (s : State) (ch : Nat) (fromMm : Bool) : State :=
  if s.pair.focus.any (·.ch == ch) then
    if fromMm && s.authoritative && s.pair.focus.any (fun f => f.ch == ch && !f.fromMm) then s.inc PR_MM_STAT_ATTRIBUTED else s
  else if s.pair.focus.length < 4 then
    { s with pair := { s.pair with focus := s.pair.focus ++ [⟨ch, 16, fromMm⟩] } }
  else if s.pair.focusWait.any (·.1 == ch) then s
  else { s with pair := { s.pair with focusWait := s.pair.focusWait ++ [(ch, fromMm)] } }

/-- A focus ends and the first one that waits begins. -/
def State.focusOff (s : State) (ch : Nat) : State :=
  let s := { s with pair := { s.pair with focus := s.pair.focus.filter (·.ch != ch) } }
  match s.pair.focusWait with
  | [] => s
  | (c, m) :: l => { s with pair := { s.pair with focus := s.pair.focus ++ [⟨c, 16, m⟩], focusWait := l } }

/-- A miscompare (R394): the first focuses the channel, a second while it is focused confirms; the first within a focus
that an HDM mismatch began attributes that mismatch (R396). -/
def State.miscompare (s : State) (ch seq : Nat) : State :=
  let s := ((s.inc PR_GARNET_STAT_MISCOMPARES).put PR_GARNET_LAST_SEQ seq).put PR_GARNET_LAST_CH ch
  let s := s.raise 0x6109 ch seq 0
  match s.pair.focus.find? (·.ch == ch) with
  | none => s.focusOn ch false
  | some f =>
    if f.fromMm then
      let s := if s.authoritative then s.inc PR_MM_STAT_ATTRIBUTED else s
      { s with pair := { s.pair with focus := s.pair.focus.map fun g => if g.ch == ch then ⟨ch, 16, false⟩ else g } }
    else (s.focusOff ch).garnetFail ch

/-- Whether Garnet checks a channel's line: by its schedule, or focused (R393). -/
def State.garnetDue (s : State) (ch line : Nat) : Bool := ch / 6 == line % 16 || s.pair.focus.any (·.ch == ch)

/-- Garnet has computed the PCHK of its own payload of a channel's line (R393); the main path's record is complete. -/
def execGarnetCheck (t ch seq pchk : Nat) (s : State) : Host.Outcome State Fault Refusal :=
  run t (fun s =>
    match (s.chanLines ch).find? (·.seq == seq) with
    | none => s
    | some x =>
      if !s.garnetDue ch x.line then s
      else
        let s := s.inc PR_GARNET_CHECKS_COUNT
        let s := { s with pair := { s.pair with focus := s.pair.focus.map fun f =>
          if f.ch == ch then { f with left := f.left - 1 } else f } }
        if pchk = x.pchk then s else s.miscompare ch seq) s

/-- A mismatch that no Garnet miscompare followed (R396), on the standby. -/
def State.unattributed (s : State) (ch : Nat) : State :=
  let s := (s.inc PR_MM_STAT_UNATTRIBUTED).raise 0x610B ch 0 0
  let l := (s.pair.mms ++ [(ch, s.now)]).filter fun m => decide (s.now < m.2 + 1000000000)
  let s := { s with pair := { s.pair with mms := l } }
  if s.get PR_CFG_MM_LIMIT < (l.filter (·.1 == ch)).length then s.garnetFail ch else s

/-- A focused channel has been checked on 16 lines with no second miscompare (R394, R396). -/
def execGarnetFocusEnd (t ch : Nat) (s : State) : Host.Outcome State Fault Refusal :=
  run t (fun s =>
    match s.pair.focus.find? fun f => f.ch == ch && f.left == 0 with
    | none => s
    | some f =>
      let s := s.focusOff ch
      if f.fromMm && s.base == .standby then s.unattributed ch else s) s

/-! STAT (R285, R298, R390) -/

/-- A STAT's claim to the pair logic (R285, R390, R391). -/
def State.statClaim (s : State) (l claim : Nat) : State :=
  let s := { s with pair := { s.pair with accMax := max s.pair.accMax claim } }
  let s := s.claimCompare claim
  if s.is PR_STAT_CONTEST && claim == s.claim && !s.pair.won.contains l then
    ({ s with pair := { s.pair with won := s.pair.won ++ [l] } }).contestLook
  else s

/-- A STAT record on a READY lane (R285): copied, its mismatch focused, its strobe watched, its claim judged. -/
def execStatReceived (t l : Nat) (r : StatRec) (s : State) : Host.Outcome State Fault Refusal :=
  run t (fun s =>
    if l < 96 ∧ s.flowing l then
      let mm := later 16 r.mismatch (s.get (JL_HDM_CNT0_LOW l))
      let s := s.statCopy l r
      let s := if r.stbLong then s.wdTrip (chanBar l) false true else s
      let s := if mm then s.focusOn l true else s
      s.statClaim l r.accClaim
    else s) s

/-- An IDRS record (R286–R289); a changed head starts its channel's estimates afresh (R359). -/
def execIdrsReceived (t l : Nat) (r : IdrsRec) (s : State) : Host.Outcome State Fault Refusal :=
  run t (fun s =>
    if l < 96 then
      let a := s.idrsTake l r
      if a.2.isEmpty then a.1 else a.1.headReset l
    else s) s

end Sys2Proof.Machine
end

