-- ==== Sys2Proof/Machine/Recorder.lean ====
section
/-! DEFINITION. The recorder's states (spec/16, R492–R495): arming, triggers by command, freezing, and the way into
replay. The ring itself is in Ops. -/

namespace Sys2Proof.Machine

/-- ARM (R492): BAD_STATE with no region 6, or in replay (R495); BUSY while an RDREQ on the ring is being answered; no change
while it records. -/
def State.recArm (s : State) : Nat × State :=
  if s.rgnSize 6 == 0 || s.is AG_RP_STAT_MODE then (stBadState, s)
  else if !s.ringReads.isEmpty then (stBusy, s)
  else if s.recording then (stOk, s)
  else (stOk, s.recStart)

/-- FROZEN entered (R492). -/
def State.recFreeze (s : State) : State :=
  if s.recording then ((s.put AG_STAT_STATE 3).ringSync).raise 0x8102 0 0 0 else s

/-- What a write to AG_CTRL sets off: ARM, then TRIGGER, then FREEZE. -/
def State.recCtrl (s : State) (w : Nat) : Nat × State :=
  let r := if bit w 0 then s.recArm else (stOk, s)
  if r.1 != stOk then r
  else
    let s := if bit w 1 then r.2.trigger 2 0 else r.2
    (stOk, if bit w 2 then s.recFreeze else s)

/-- POST ends once POST_PCT of the ring's bytes have been written since its TRIGGER entry (R492). -/
def State.postDone (s : State) : State :=
  if s.get AG_STAT_STATE == 2 && decide (s.rgnSize 6 * s.get AG_TRIG_CFG_POST_PCT ≤ s.agate.postBytes * 100) then
    s.recFreeze
  else s

def execRecPostDone (t : Nat) (s : State) : Host.Outcome State Fault Refusal := run t State.postDone s

/-- Replay entered (R495). -/
def State.replayEnter (s : State) : Nat × State :=
  if s.base == .single && !s.pairEn && !s.is PG_JOB_STAT_RUNNING &&
      (List.range 96).all (fun l => !s.is (LANE_STAT_TSTATE l)) then
    (stOk, ((s.put AG_RP_STAT_MODE 1).flag GL_ROLE_STAT_REPLAY true).put AG_STAT_STATE 0 |>.ringSync)
  else (stBadState, s)

/-- Limits of the AG_ registers. -/
def limitAg (_s : State) (a new _mask : Nat) : Verdict :=
  if a = AG_CFG then rangeUnless (bits new 15 7 != 0)
  else if a = AG_TRIG_CFG then rangeUnless (decide (bits new 6 0 ≤ 100))
  else none

end Sys2Proof.Machine
end

