-- ==== Sys2Proof/Machine/Acts.lean ====
section
/-! DEFINITION. What a write to a register of any block must keep and what it sets off: each family's limits and acts
by block (R428, R520), and those of the boot, power, memory, host and recorder blocks (R460, R465, PW_ tables, R47,
R221, R222, R492, R495). -/

namespace Sys2Proof.Machine

/-- Limits of the MC_ registers. -/
def limitMc (a new : Nat) : Verdict :=
  if a = MC_CFG then rangeUnless (bits new 1 0 != 3 && bits new 5 4 != 3) else none

/-- PRINT_RATE as RATE and the training stand (R42). -/
def State.printRateShow (s : State) : State :=
  s.flag MC_STAT_PRINT_RATE (s.is MC_STAT_TRAINED && s.get MC_CFG_RATE == 0)

/-- SLEEP is refused in ACTIVE, STANDBY, and in SINGLE while a job runs (R460). -/
def limitBt (s : State) (a new mask : Nat) : Verdict :=
  if a = BT_PWR_CTRL ∧ bit mask 0 ∧ bit new 0 then
    if s.base == .active || s.base == .standby || (s.base == .single && s.is PG_JOB_STAT_RUNNING) then some (stBadState, 0)
    else none
  else none

/-- Limits of the PW_ registers; a bar is gated only while it is idle (R465). -/
def limitPw (s : State) (a new : Nat) : Verdict :=
  if a = PW_MODEL_CFG then rangeUnless (bits new 11 0 != 0 && bits new 19 12 != 0)
  else if a = PW_THR_CFG then rangeUnless (fieldIn new 7 0 90 115 && bits new 15 8 != 0 && bits new 31 16 != 0)
  else if a = PW_TRIP_CFG then rangeUnless (fieldIn new 15 8 60 105)
  else if a = PW_SUP_CFG then
    rangeUnless (fieldIn new 9 0 640 700 && fieldIn new 19 10 600 (bits new 9 0 - 20))
  else if a = PW_GATE then
    busyWhen ((barsOf (bits new 7 0)).any fun b => !s.bitOf PW_GATE_BARS b && !s.barIdle b)
  else none

/-- Bars gated or ungated (R465). -/
def State.gateShow (s before : State) : State :=
  s.each (idxs 8 fun b => before.bitOf PW_GATE_BARS b != s.bitOf PW_GATE_BARS b) fun s b =>
    s.raise 0x110C b (b2n (s.bitOf PW_GATE_BARS b)) 0

/-- A rail newly enabled is waited for from now on; one no longer enabled is not read, so nothing is shown of it (R469, log 40). -/
def State.railBegin (s before : State) (a : Nat) : State :=
  match instOf (PW_PMB_CFG 0) 4 8 a with
  | some n =>
    if s.is (PW_PMB_CFG_EN n) && !before.is (PW_PMB_CFG_EN n) then
      { s with pwr := { s.pwr with railAt := modAt s.pwr.railAt n fun _ => s.now } }
    else if !s.is (PW_PMB_CFG_EN n) then (s.put (PW_RAIL_POWER n) 0).flag (PW_RAIL_STALE n) false
    else s
  | none => s

/-- SLEEP executes (R460): BAR_EN low, every lane DISABLED, PWR_EN to fall. -/
def State.sleepStart (s : State) : State :=
  let s := { s with pwr := { s.pwr with sleepAt := some s.now } }
  s.each (List.range 100) State.laneDisable

/-- What a write to an HP_ register sets off: the PTP queue's POP and the transmitter's SEND (R221, R222). -/
def actHp (a mask val : Nat) (_before s : State) : Nat × State :=
  let w := mask &&& val
  if a = HP_PTP_RXQ_CTRL then (stOk, if bit w 0 then s.rxPop else s)
  else if a = HP_PTP_TX_CTRL then (if bit w 0 then s.ptpSend else (stOk, s))
  else (stOk, s)

/-- The verdict on a register's new word, by its block; WO bits stand in `new` as commanded. -/
def State.limitReg (s : State) (a new mask : Nat) : Verdict :=
  match a / 0x10000 with
  | 0x1 => limitBt s a new mask
  | 0x2 => limitPw s a new
  | 0x3 => limitTb s a new mask
  | 0x4 => limitWp s a new mask
  | 0x5 => limitPg s a new mask
  | 0x7 => limitCs s a new mask
  | 0x8 => limitSc s a new mask
  | 0x9 => limitBy s a new mask
  | 0xB => limitFs s a new mask
  | 0xC => (limitLane s a new mask).orElse' (limitJl s a new mask)
  | 0xD => (limitLane s a new mask).orElse' (limitPr s a new mask)
  | 0xF => limitMc a new
  | 0x10 => limitAg s a new mask
  | _ => none

/-- What a write to a register sets off in either unit, by its block: status and state. -/
def State.actReg (s before : State) (a mask val : Nat) : Nat × State :=
  match a / 0x10000 with
  | 0x1 => (stOk, if a = BT_PWR_CTRL ∧ bit (mask &&& val) 0 then s.sleepStart else s)
  | 0x2 => (stOk, if a = PW_GATE then s.gateShow before else s.railBegin before a)
  | 0x3 => actTb a mask val before s
  | 0x4 => actWp a mask val before s
  | 0x5 => actPg a mask val before s
  | 0x7 => actCs a mask val before s
  | 0x8 => actSc a mask val before s
  | 0x9 => actBy a mask val before s
  | 0xB => actFs a mask val before s
  | 0xC =>
    let r := actLane a mask val before s
    if r.1 != stOk then r else actJl a mask val before r.2
  | 0xD =>
    let r := actLane a mask val before s
    if r.1 != stOk then r else actPr a mask val before r.2
  | 0xE => actHp a mask val before s
  | 0xF => (stOk, if a = MC_CFG then s.printRateShow else s)
  | 0x10 => if a = AG_CTRL then s.recCtrl (mask &&& val) else (stOk, s)
  | _ => (stOk, s)

end Sys2Proof.Machine
end

