-- ==== Sys2Proof/Machine/Power.lean ====
section
/-! DEFINITION. Power, temperature and supply (spec/15): the thermal model and the diode, bands and trim recompute,
throttling, PMBus, dips, shutdown and the event store; and what a core that stops leaves (spec/14, R460; spec/15, R476,
R483; spec/17, R517). -/

namespace Sys2Proof.Machine

/-! The event store (R478, R479) -/

def storeWin (n : Nat) : Nat := 0x1C00000 + 16 * n

/-- The words of an entry made now, with COMMIT. -/
def State.storeWords (s : State) (code : Nat) (supply : Bool) : List Nat :=
  [code + bits (s.get PW_TEMP_T) 11 0 * 2 ^ 16 + s.get PW_TEMP_STEP * 2 ^ 28 + 2 ^ 31,
   b2n supply + 2 * b2n (s.is PW_TEMP_SOURCE) + bits (s.get BT_TRIM_CNT_COUNT) 29 0 * 4, s.now % 2 ^ 32, s.now / 2 ^ 32]

/-- An entry appended: a full store takes none. THERMAL_SHUTDOWN and FATAL set LATCHED (R480). -/
def State.storeAppend (s : State) (w : List Nat) : State :=
  let code := bits (w.getD 0 0) 15 0
  let s := if code = 0x1106 ∨ code = 0x110F then s.flag PW_SHUT_STAT_LATCHED true else s
  let n := s.get PW_SHUT_STAT_NV_COUNT
  if 1024 ≤ n then s.flag PW_SHUT_STAT_NV_FULL true
  else
    let s := s.each w.zipIdx fun s x => s.wr (storeWin n + 4 * x.2) x.1
    (s.put PW_SHUT_STAT_NV_COUNT (n + 1)).flag PW_SHUT_STAT_NV_FULL (n + 1 == 1024)

/-- SHUTDOWN's entry appended, with flag SUPPLY when the always-on domain does it (R477). -/
def State.shutAppend (s : State) (supply : Bool) : State :=
  match s.pwr.shutEntry with
  | none => s
  | some w =>
    let s := { s with pwr := { s.pwr with shutEntry := none } }
    s.storeAppend (if supply then w.modify 1 (· ||| 1) else w)

/-- SHUTDOWN's entry appended by the core once 500 µs have passed. -/
def State.shutLate (s : State) : State :=
  match s.pwr.shutAt with
  | some a => if s.past a 500000 then s.shutAppend false else s
  | none => s

/-! A core that stops -/

/-- Words that outlive the core: what VAO keeps, and the event store. -/
def keptWord (a : Nat) : Bool :=
  a == BT_TRIM_CNT || a == BT_AO_STAT || a == PW_TRIP_CFG || a == PW_SHUT_STAT ||
    (decide (0x1C00000 ≤ a) && decide (a < 0x1C04000))

/-- The core reset or unpowered: everything is as after a reset but for the always-on domain, OTP, flash and the event
store, the commands that wait, the clock, and the levels on the pins. -/
def State.coreDown (s : State) (core : CoreRun) (b : Base) : State :=
  let s := s.shutLate
  let r : State :=
    { State.reset with
      pending := s.pending, clk := s.clk, frc0 := s.frc0, free := s.free, out := s.out, core := core, base := b,
      words := skeep keptWord s.words, flash := s.flash, otp := s.otp, ao := s.ao, tap := s.tap, cells := s.cells,
      web := { Web.reset with pins := (List.range 2).map s.encoPins }
      fire := { Fire.reset with inhPin := s.fire.inhPin, stbSense := s.fire.stbSense } }
  r.put PW_SHUT_STAT_NV_FULL 0

/-- PWR_EN falls: the core stops on every port (R460, R476). -/
def State.pwrEnFall (s : State) (b : Base) : State :=
  let s := s.coreDown .unpowered b
  { s with ao := { s.ao with pwrEn := false, pwrEnFell := s.clk, fallAt := none, rose := false } }

/-! SHUTDOWN (R36, R388, R476, R478) -/

/-- SHUTDOWN entered: the unit leaves every role, yields with cause 2, drops its work without an answer, and
THERM_TRIP_N goes low. -/
def State.shutStart (s : State) (code : Nat) : State :=
  if s.shutdown then s
  else
    let w := s.storeWords code false
    let role := s.get PR_STAT_ROLE
    let s := { s with
      shutdown := true, pwr := { s.pwr with shutAt := some s.now, shutEntry := some w }
      ao := { s.ao with thermTrip := true, fallAt := some (s.clk + 1000000) }, dcp := { s.dcp with held := [], await := [], keyOp := none } }
    let s := s.yieldStart 2 role
    let s := { s with pair := { s.pair with yieldUntil := some (s.now + 1000000000), helloOn := false } }
    ((s.xfersCut.setBase .configured).put PR_STAT_RESYNC_PHASE 0).copiesDrop

/-- PWR_EN falls 1 ms after SHUTDOWN began (R476), also by the always-on domain alone after a core reset meanwhile (R477). -/
def execShutdownPwrEnFall (t : Nat) (s : State) : Host.Outcome State Fault Refusal :=
  let s := s.advance t
  match s.ao.fallAt with
  | some a => .next (if a ≤ s.clk then (s.shutAppend false).pwrEnFall .off else s)
  | none => .next s

/-- An uncorrectable error in critical SRAM (R478). -/
def execFatal (t : Nat) (s : State) : Host.Outcome State Fault Refusal := run t (·.shutStart 0x110F) s

/-! The thermal model (R466–R468) -/

/-- VDD_CORE as measured at this instant (R482). -/
def State.vddPut (s : State) (mv : Nat) : State :=
  { s.put PW_SUP_STAT_VDD_MV (min mv 1023) with pwr := { s.pwr with vddAt := s.clk } }

/-- Whether trim has run and the governor works. -/
def State.trimmed (s : State) : Bool := s.base != .boot && s.base != .trim && !s.shutdown

/-- Typical and maximum power of the rails, nominal voltage times the currents of R463, in 10 mW. -/
def railTypical : List Nat := [2850, 720, 216, 275, 18, 72, 108, 33]
def railMax : List Nat := [3300, 855, 270, 352, 36, 96, 144, 66]

/-- P in watts: rails read by PMBus, and the typical figure of the others (R467, R469). -/
def State.power (s : State) : Rat :=
  let mw : Nat := ((List.range 8).map fun n =>
    if s.is (PW_PMB_CFG_EN n) then s.get (PW_RAIL_POWER n) else railTypical.getD n 0).sum
  (mw : Rat) / 100

/-- θ × P in °C. -/
def State.rise (s : State) : Rat := (s.get PW_MODEL_CFG_THETA : Rat) / 100 * s.power

/-- A temperature in 0.1 °C, rounded to nearest. -/
def tenths (x : Rat) : Int := roundR (x * 10)

/-- One step of a value towards another with the time constant, over 1 ms (R467). -/
def State.towards (s : State) (x goal : Rat) : Rat := x + (goal - x) / 1000 / (s.get PW_MODEL_CFG_TAU_S : Nat)

/-- Readings whose change over 2 s is below 0.25 °C while the model moved by more than 4 °C (R466). -/
def stuck (now : Nat) (l : List (Nat × Int × Int)) : Bool :=
  match l, l.getLast? with
  | (_, d, m) :: _, some (t0, _, m0) =>
    let top := l.foldl (fun a x => max a x.2.1) d
    let low := l.foldl (fun a x => min a x.2.1) d
    decide (t0 + 2000000000 ≤ now) && decide (10 * (top - low) < 25) && decide (40 < (m - m0).natAbs)
  | _, _ => false

/-- A good reading taken: tamb follows, and tm is the reading (R467). -/
def State.readingTake (s : State) (d : Int) : State :=
  let c : Rat := (d : Rat) / 10
  { s with pwr := { s.pwr with tamb := s.towards s.pwr.tamb (c - s.rise), tm := c } }

/-- The reported temperature (R468). -/
def State.tempPut (s : State) (v : Int) : State := s.sput PW_TEMP_T v

/-- A reading judged and taken (R466–R468): t is the reading while the diode is good, the model plus 8 °C while it is
FAILED; a bad reading of a diode not yet FAILED leaves t as it was. -/
def State.diodeSee (s : State) (d : Int) : State :=
  let s := { s with pwr := { s.pwr with tm := s.towards s.pwr.tm (s.pwr.tamb + s.rise) } }
  let m := tenths s.pwr.tm
  let inside := decide (-500 ≤ d) && decide (d ≤ 1500)
  let far := decide (200 < (d - m).natAbs)
  let s := s.sput PW_SENSE_DIODE d
  let s := if s.is PW_TEMP_DIODE_FAIL then
      let since := if inside && !far then some (s.pwr.goodSince.getD s.now) else none
      let s := { s with pwr := { s.pwr with goodSince := since } }
      match since with
      | some a =>
        if s.past a 1000000000 then
          let s := { s with pwr := { s.pwr with goodSince := none, badRun := 0, farSince := none, track := [] } }
          (((((s.flag PW_TEMP_DIODE_FAIL false).flag PW_TEMP_SOURCE false).raise 0x1105 0 0 0).readingTake d).tempPut d)
        else s
      | none => s
    else
      let track := (s.now, d, m) :: s.pwr.track.filter fun x => !s.past x.1 2001000000
      let s := { s with pwr := { s.pwr with
        badRun := if inside then 0 else s.pwr.badRun + 1
        farSince := if far then some (s.pwr.farSince.getD s.now) else none
        track := track } }
      let long := match s.pwr.farSince with
        | some a => s.past a 100000000
        | none => false
      if decide (3 ≤ s.pwr.badRun) || long || stuck s.now track then
        let s := { s with pwr := { s.pwr with goodSince := none, track := [] } }
        ((s.flag PW_TEMP_DIODE_FAIL true).flag PW_TEMP_SOURCE true).raise 0x1104 0 0 0
      else if inside && !far then (s.readingTake d).tempPut d
      else s
  let s := s.sput PW_SENSE_MODEL (tenths s.pwr.tm)
  if s.is PW_TEMP_DIODE_FAIL then s.tempPut (tenths s.pwr.tm + 80) else s

/-! Bands and trim recompute (R457, R458, R470, R471) -/

/-- The band of a temperature in 0.1 °C. -/
def tBandOf (v : Int) : Nat := if v < 0 then 0 else if v ≤ 450 then 1 else if v ≤ 850 then 2 else if v ≤ 1000 then 3 else 4

/-- The core delay margin of a band, in percent (R470). -/
def delayMargin (band : Nat) : Nat := [5, 5, 8, 12, 15].getD band 15

/-- The band's lower bound less 3 °C, in 0.1 °C, below which it falls. -/
def bandFall (b : Nat) : Int := [-100000, -30, 420, 820, 970].getD b 0

/-- DRAM refresh in force: the higher of the band's rate and MR4's. -/
def State.refreshShow (s : State) : State :=
  let band := if 3 ≤ s.get PW_TEMP_BAND then 2 else 1
  { s with pwr := { s.pwr with refresh := max band s.pwr.mr4 } }

/-- A division rounded to nearest, halves away from zero (R457). -/
def divAway (a : Int) (b : Nat) : Int :=
  if a < 0 then -(((2 * -a + b) / (2 * b : Nat) : Int)) else (2 * a + b) / (2 * b : Nat)

/-- F(t) in 1/256 of a code, for a temperature in 0.1 °C (R457). -/
def TrimItem.factory (x : TrimItem) (v : Int) : Int :=
  if v ≤ -100 then x.fCold
  else if v ≤ 450 then x.fCold + divAway ((x.fMid - x.fCold) * (v + 100)) 550
  else if v ≤ 950 then x.fMid + divAway ((x.fHot - x.fMid) * (v - 450)) 500
  else x.fHot

/-- The code computed for a temperature. -/
def TrimItem.codeAt (x : TrimItem) (v : Int) : TrimItem := { x with code := divAway (x.factory v + x.d) 256 }

/-- A number moved towards another, by no more than n. -/
def moveBy (n : Nat) (a b : Int) : Int := if a ≤ b then min b (a + n) else max b (a - n)

/-- A code moved by one step for every whole interval, in ns, since it last moved or stood at its aim. -/
def TrimItem.moved (x : TrimItem) (now interval : Nat) : TrimItem :=
  let n := (now - x.movedAt) / interval
  let used := moveBy n x.used x.code
  { x with used := used, movedAt := if used = x.code then now else x.movedAt + n * interval }

/-- The codes in use brought on (R458): a READY lane's offsets by one code every 100 µs, DDR5 delays by one step per
refresh interval; the offsets of a lane that is not READY, and the core's own values, at once. -/
def TrimItem.follow (s : State) (x : TrimItem) : TrimItem :=
  match x.part with
  | .offset l => if s.ready l then x.moved s.now 100000 else { x with used := x.code, movedAt := s.now }
  | .serdes _ | .ctle _ | .tap _ _ => x
  | .ddr => x.moved s.now (Config.refreshInterval s.pwr.refresh)
  | .core => { x with used := x.code, movedAt := s.now }

def State.trimsFollow (s : State) : State :=
  { s with pwr := { s.pwr with trims := s.pwr.trims.map (TrimItem.follow s) } }

/-- Every trimmed value recomputed at t (R458). -/
def State.trimsCompute (s : State) : State :=
  let v := s.sget PW_TEMP_T
  ({ s with pwr := { s.pwr with trims := s.pwr.trims.map (TrimItem.codeAt · v) } }).sput BT_TRIM_TEMP_T_APPLIED v

/-- A band changed (R471). -/
def State.tBandPut (s : State) (b : Nat) : State :=
  let s := { s.put PW_TEMP_BAND b with pwr := { s.pwr with bandAt := some s.now } }
  (s.raise 0x1101 0 b 0).refreshShow.trimsCompute

/-- The band as t now asks, at most one step and not within 50 ms of the last change; the first t sets it directly. -/
def State.bandLook (s : State) : State :=
  let v := s.sget PW_TEMP_T
  let b := s.get PW_TEMP_BAND
  match s.pwr.bandAt with
  | none => if tBandOf v = b then { s with pwr := { s.pwr with bandAt := some s.now } } else s.tBandPut (tBandOf v)
  | some a =>
    if !s.past a 50000000 then s
    else if b < tBandOf v then s.tBandPut (b + 1)
    else if v < bandFall b then s.tBandPut (b - 1)
    else s

/-- A recompute once t has moved 2 °C from the last one (R458). -/
def State.trimsLook (s : State) : State :=
  if 20 ≤ (s.sget PW_TEMP_T - s.sget BT_TRIM_TEMP_T_APPLIED).natAbs then s.trimsCompute else s

/-! Throttling (R472–R475) -/

/-- A step taken (R473), which may end the recorder's loss (R491); the thermal reason of SPEED_REQ clears below S7 (R474). -/
def State.stepPut (s : State) (n : Nat) : State :=
  let s := ({ s.put PW_TEMP_STEP n with pwr := { s.pwr with stepAt := s.now } }).gapRecord
  let s := s.put PW_STEP_STAT_MAX_STEP (max n (s.get PW_STEP_STAT_MAX_STEP))
  let s := (s.inc PW_STEP_STAT_CHANGES).raise 0x1102 0 n 0
  if n < 7 && s.is PW_STEP_STAT_THERMAL_REQ then (s.flag PW_STEP_STAT_THERMAL_REQ false).thermalShow false else s

/-- An evaluation at which t is at or above T_THR: the step rises; at S7 with t risen since the last evaluation the
thermal reason is raised (R473, R474). -/
def State.stepRise (s : State) : State :=
  let v := s.sget PW_TEMP_T
  let n := s.get PW_TEMP_STEP
  let s := if n < 7 then s.stepPut (n + 1) else { s with pwr := { s.pwr with stepAt := s.now } }
  let more := match s.pwr.lastEval with
    | some a => decide (a < v)
    | none => false
  let s := { s with pwr := { s.pwr with lastEval := some v } }
  if s.get PW_TEMP_STEP == 7 && more && !s.is PW_STEP_STAT_THERMAL_REQ then
    ((s.flag PW_STEP_STAT_THERMAL_REQ true).thermalShow true).raise 0x1103 0 0 0
  else s

/-- Whether the step may fall: with the diode FAILED only after 60 s of tm at or below T_THR − 8 °C (R475). -/
def State.mayFall (s : State) : Bool :=
  !s.is PW_TEMP_DIODE_FAIL || (match s.pwr.coolSince with
    | some a => s.past a 60000000000
    | none => false)

/-- A sample's part in throttling: the first rise at once, and since when t or tm have been low. -/
def State.throttleSee (s : State) : State :=
  let v := s.sget PW_TEMP_T
  let thr : Int := 10 * (s.get PW_THR_CFG_T_THR : Nat)
  let hot := decide (thr ≤ v)
  let rises := hot && !s.pwr.hot
  let s := { s with pwr := { s.pwr with
    hot := hot
    lowSince := if v ≤ thr - 30 then some (s.pwr.lowSince.getD s.now) else none
    coolSince := if s.sget PW_SENSE_MODEL ≤ thr - 80 then some (s.pwr.coolSince.getD s.now) else none } }
  if rises then s.stepRise else s

/-- THROTTLE_EVAL (R473): the step rises every STEP_MS while t is high, falls every RELAX_MS while it is low. -/
def State.throttle (s : State) : State :=
  let n := s.get PW_TEMP_STEP
  let relax := s.get PW_THR_CFG_RELAX_MS * 1000000
  if s.pwr.hot then (if s.past s.pwr.stepAt (s.get PW_THR_CFG_STEP_MS * 1000000) then s.stepRise else s)
  else
    let s := { s with pwr := { s.pwr with lastEval := some (s.sget PW_TEMP_T) } }
    match s.pwr.lowSince with
    | some a => if n != 0 && s.past a relax && s.past s.pwr.stepAt relax && s.mayFall then s.stepPut (n - 1) else s
    | none => s

def execThrottleEval (t : Nat) (s : State) : Host.Outcome State Fault Refusal :=
  run t (fun s => if s.trimmed then s.throttle else s) s

/-! The 1 ms sample -/

/-- The TEMP entry of the recorder, when one is due (R485, R487). -/
def State.tempRecord (s : State) : State :=
  if s.recording && decide (s.agate.tempDue ≤ s.now) then
    let s := { s with agate := { s.agate with tempDue := s.now + s.get AG_CFG_TEMP_MS * 1000000 } }
    s.record 0x08 s.now (leBytes 4 (s.get PW_TEMP_T + s.get PW_SENSE_MODEL * 2 ^ 16) ++
      leBytes 4 (s.get PW_TEMP_BAND + s.get PW_TEMP_STEP * 8 + s.get PW_SUP_STAT_VDD_MV * 2 ^ 16))
  else s

/-- TEMP_SAMPLE: the diode's reading in 0.1 °C and VDD_CORE in mV (R466–R471, R473, R476). -/
def execTempSample (t : Nat) (diode : Int) (vdd : Nat) (s : State) : Host.Outcome State Fault Refusal :=
  run t (fun s =>
    if s.trimmed then
      let s := ((s.vddPut vdd).diodeSee diode).trimsFollow.bandLook.trimsLook.throttleSee.tempRecord
      if 1180 ≤ s.sget PW_TEMP_T then s.shutStart 0x1106 else s
    else s) s

/-- The MR4 poll: the refresh multiplier the DRAMs call for (R470). -/
def execDramMr4Poll (t rate : Nat) (s : State) : Host.Outcome State Fault Refusal :=
  run t (fun s => if s.trimmed then ({ s with pwr := { s.pwr with mr4 := rate } }).refreshShow else s) s

/-! PMBus (R469, R506) -/

/-- A number as a mantissa and a power of two. -/
def scaled (m e : Int) : Rat := if 0 ≤ e then (m : Rat) * (2 ^ e.toNat : Nat) else (m : Rat) / (2 ^ (-e).toNat : Nat)

/-- A rail's power in 10 mW from LINEAR16 volts and LINEAR11 amperes. -/
def pmbPower (a : PmbAnswer) : Nat :=
  let v := scaled (a.vout % 65536 : Nat) (sgn 5 a.mode)
  let i := scaled (sgn 11 a.iout) (sgn 5 (a.iout % 65536 / 2048))
  min 65535 (roundR (v * i * 100)).toNat

/-- An enabled rail read over PMBus (R469): an answer counts; none for 10 ms puts its maximum figure in its place. -/
def State.railRead (s : State) (n : Nat) (a : Option PmbAnswer) : State :=
  if !s.is (PW_PMB_CFG_EN n) then s
  else
    let s := s.emit (.pmbRead n (s.get (PW_PMB_CFG_ADDR n)) (s.get (PW_PMB_CFG_PAGE n)))
    match a with
    | some r =>
      let s := { s with pwr := { s.pwr with railAt := modAt s.pwr.railAt n fun _ => s.now } }
      (s.put (PW_RAIL_POWER n) (pmbPower r)).flag (PW_RAIL_STALE n) false
    | none =>
      if s.past (s.pwr.railAt.getD n 0) 10000000 && !s.is (PW_RAIL_STALE n) then
        ((s.put (PW_RAIL_POWER n) (railMax.getD n 0)).flag (PW_RAIL_STALE n) true).raise 0x110E n 0 0
      else s

/-- Every enabled rail read; `answers` by rail. -/
def State.railsRead (s : State) (answers : List (Option PmbAnswer)) : State :=
  s.each (List.range 8) fun s n => s.railRead n (answers.getD n none)

/-- The 1 ms PMBus schedule (R469). -/
def execPmbusPoll (t : Nat) (answers : List (Option PmbAnswer)) (s : State) : Host.Outcome State Fault Refusal :=
  run t (fun s => if s.trimmed then s.railsRead answers else s) s

/-- PMB_ALERT_N low (R506): every enabled rail is read at once, as long as the core runs. -/
def execPmbAlert (t : Nat) (answers : List (Option PmbAnswer)) (s : State) : Host.Outcome State Fault Refusal :=
  run t (fun s => if s.base != .boot && s.base != .trim then s.railsRead answers else s) s

/-! The supply monitor (R482, R483) -/

/-- VDD_CORE below the warning threshold (R482). -/
def execSupplyDip (t mv : Nat) (s : State) : Host.Outcome State Fault Refusal :=
  run t (fun s =>
    if !s.pwr.dip && decide (mv < s.get PW_SUP_CFG_WARN_MV) then
      let s := ({ s with pwr := { s.pwr with dip := true } }).vddPut mv
      ((s.flag PW_TEMP_SUPPLY_WARN true).inc PW_SUP_STAT_DIPS).raise 0x1109 0 mv 0
    else s) s

/-- VDD_CORE above the warning threshold plus 10 mV for 100 µs (R482); a loss of the recorder ends (R491). -/
def execSupplyRecovered (t mv : Nat) (s : State) : Host.Outcome State Fault Refusal :=
  run t (fun s =>
    if s.pwr.dip && decide (s.get PW_SUP_CFG_WARN_MV + 10 < mv) then
      let s := (({ s with pwr := { s.pwr with dip := false } }).vddPut mv).gapRecord
      (s.flag PW_TEMP_SUPPLY_WARN false).raise 0x110A 0 0 0
    else s) s

/-- VDD_CORE below the reset threshold: SUPPLY_RESET and a core held in reset (R483); in a shutdown under way the always-on domain
appends its entry and lets PWR_EN fall when it is due (R477). -/
def execSupplyReset (t mv : Nat) (s : State) : Host.Outcome State Fault Refusal :=
  run t (fun s =>
    if mv < s.get PW_SUP_CFG_RESET_MV then
      let s := if s.shutdown then s.shutLate.shutAppend true else s.storeAppend (s.storeWords 0x110B true)
      let s := s.coreDown .held .boot
      { s with ao := { s.ao with lowVdd := true } }
    else s) s

end Sys2Proof.Machine
end

