-- ==== Sys2Proof/Machine/Objects.lean ====
section
/-! DEFINITION. The words of a snapshot's objects (spec/12, R401–R403; spec/16, R494): what a RESYNC frame and a SNAPSHOT entry
carry of an object, and the object that such words are. Registers and windows are address–value pairs, as R401 lays out
object 0x01; the manual gives the other objects no layout, and theirs is the model's (log 32). -/

namespace Sys2Proof.Machine

/-- OBJ (R401). -/
def ResyncObj.code : ResyncObj → Nat
  | .regs .. => 1
  | .queue .. => 2
  | .banks .. => 3
  | .tables .. => 4
  | .berylSlots .. => 5
  | .bar .. => 6
  | .channel .. => 7
  | .motion .. => 8
  | .waste .. => 9
  | .last .. => 0xFF
  | .part code => code

/-! Written -/

/-- A signed number in two words, the high one first. -/
def intWords (i : Int) : List Nat := [unsgn 64 i / 2 ^ 32, unsgn 64 i % 2 ^ 32]

/-- A list with its length before it. -/
def listWords {α : Type} (f : α → List Nat) (l : List α) : List Nat := l.length :: l.flatMap f

/-- What may be absent. -/
def optWords {α : Type} (f : α → List Nat) : Option α → List Nat
  | none => [0]
  | some x => 1 :: f x

def natWords (n : Nat) : List Nat := [n]
def pairWords (p : Nat × Nat) : List Nat := [p.1, p.2]

/-- Registers or window words as address–value pairs; a shadow value's address carries bit 31. -/
def pairsWords (shadow : Bool) (l : List (Nat × Nat)) : List Nat := l.flatMap fun p => [b2n shadow * 2 ^ 31 + p.1, p.2]

def Page.objWords (p : Page) : List Nat :=
  let adm := match p.adm with
    | .open => 0
    | .awaiting => 1
    | .admitted => 2
    | .refused => 3
  p.num :: listWords natWords p.refs ++ [adm, b2n p.closed, b2n p.checked, b2n p.done]

def Job.objWords (j : Job) : List Nat :=
  [j.slot, j.id, j.w1, j.w2, j.w3, b2n j.started, b2n j.closed, b2n j.cancelled, j.order] ++ listWords Page.objWords j.pages

/-- A generation; each unit keeps its own strips of it. -/
def Surface.objWords (f : Surface) : List Nat :=
  [f.entry, f.id, f.gen, b2n f.inUse, b2n f.released] ++ listWords natWords f.body ++ listWords pairWords f.waits

def TestStrip.objWords (t : TestStrip) : List Nat := [t.bar, b2n t.full, t.overlaps] ++ listWords natWords t.blocks

def GapStrips.objWords (g : GapStrips) : List Nat :=
  [g.c4, b2n g.colmode, g.lines, g.ofs, g.space] ++ listWords TestStrip.objWords g.strips

def PageRun.objWords (r : PageRun) : List Nat :=
  [r.job, r.ord, r.jobId, r.w1, r.page, r.firstLine, r.lines, b2n r.gapStarted, b2n r.matched, b2n r.done,
    b2n r.proofBad, b2n r.compared, r.sensGen] ++ intWords r.checkTick ++ intWords r.start ++ intWords r.lastFp ++ listWords pairWords r.set ++
    listWords natWords r.uses ++ listWords natWords r.actions ++ listWords natWords r.before ++ listWords natWords r.underruns ++
    listWords (fun g => [g.1, g.2.1, g.2.2.1, g.2.2.2]) r.sigs ++ optWords natWords r.endLine ++ optWords natWords r.proofOff ++
    optWords GapStrips.objWords r.strips

def NextPage.objWords (n : NextPage) : List Nat :=
  [n.job, n.ord, n.page, n.anchorLine, n.gridLine, n.pitchDiv, b2n n.mark, n.probe, b2n n.held] ++ intWords n.anchorPos ++
    intWords n.ofs ++ intWords n.earliest ++ intWords n.lookAt ++ optWords intWords n.start ++ listWords intWords n.delays ++
    listWords natWords n.fallen

def PendingGap.objWords (g : PendingGap) : List Nat :=
  [g.job, g.page] ++ optWords natWords g.id ++ listWords pairWords g.set

def Enco.objWords (e : Enco) : List Nat :=
  intWords e.origin ++ [e.k, e.phase, b2n e.z] ++ optWords (fun n => [n / 2 ^ 32, n % 2 ^ 32]) e.lastAt ++ optWords intWords e.zPage ++
    optWords (optWords intWords) e.lagPage

def Motion.objWords (m : Motion) : List Nat :=
  optWords (fun n => [n / 2 ^ 32, n % 2 ^ 32]) m.edgeAt ++ intWords m.edgeP ++ intWords m.q ++ intWords m.ps ++
    [b2n m.onSec, b2n m.priFailed, b2n m.secFailed, b2n m.lost, m.speedState, m.dirState] ++ listWords Enco.objWords m.encos

def OvsChange.objWords (o : OvsChange) : List Nat := [o.state, o.ord, o.line]

def WasteRange.objWords (r : WasteRange) : List Nat := r.causes :: b2n r.told :: (intWords r.lo ++ intWords r.hi)

/-- An object's words. -/
def ResyncObj.words : ResyncObj → List Nat
  | .regs live shadow => pairsWords false live ++ pairsWords true shadow
  | .queue jobs surfs runs next pending wins =>
    listWords Job.objWords jobs ++ listWords Surface.objWords surfs ++ listWords PageRun.objWords runs ++
      optWords NextPage.objWords next ++ optWords PendingGap.objWords pending ++ pairsWords false wins
  | .banks _ vals => pairsWords false vals
  | .tables _ vals => pairsWords false vals
  | .berylSlots _ vals => pairsWords false vals
  | .bar _ ovs changes regEff at_ sigs =>
    [ovs, regEff] ++ listWords OvsChange.objWords changes ++ optWords pairWords at_ ++ listWords natWords sigs
  | .channel _ job line seq bands => [job, line, seq, bands]
  | .motion m => m.objWords
  | .waste ranges counters => listWords WasteRange.objWords ranges ++ listWords intWords (counters.map fun (n : Nat) => (n : Int))
  | .last frames => [frames]
  | .part _ => []

/-- Words in pieces of at most 505, which a RESYNC frame of 2,048 bytes holds (R375, R401); none make one empty piece. -/
def piecesOf : Nat → List Nat → List (List Nat)
  | 0, l => [l]
  | k + 1, l => if l.length ≤ 505 then [l] else l.take 505 :: piecesOf k (l.drop 505)

/-- An object's pieces, each with its byte offset into the object. -/
def ResyncObj.pieces (o : ResyncObj) : List (Nat × List Nat) :=
  (piecesOf (o.words.length / 505) o.words).zipIdx.map fun p => (2020 * p.2, p.1)

/-! Read -/

/-- A reader of words: what it reads and the words left; none where they end too soon. -/
abbrev Reader (α : Type) := StateT (List Nat) Option α

def readNat : Reader Nat := fun
  | [] => none
  | w :: l => some (w, l)

def readBool : Reader Bool := do return (← readNat) != 0
def readInt : Reader Int := do return sgn 64 ((← readNat) * 2 ^ 32 + (← readNat))
def readTime : Reader Nat := do return (← readNat) * 2 ^ 32 + (← readNat)
def readPair : Reader (Nat × Nat) := do return (← readNat, ← readNat)

def readMany {α : Type} (f : Reader α) : Nat → Reader (List α)
  | 0 => return []
  | k + 1 => do return (← f) :: (← readMany f k)

def readList {α : Type} (f : Reader α) : Reader (List α) := do readMany f (← readNat)
def readOpt {α : Type} (f : Reader α) : Reader (Option α) := do
  if (← readNat) = 0 then return none else return some (← f)

/-- Address–value pairs, to the words' end. -/
def addrPairs : List Nat → List (Nat × Nat)
  | a :: v :: l => (a, v) :: addrPairs l
  | _ => []

def readPage : Reader Page := do
  let num ← readNat
  let refs ← readList readNat
  let adm : Admission := match ← readNat with
    | 0 => .open
    | 1 => .awaiting
    | 2 => .admitted
    | _ => .refused
  return ⟨num, refs, adm, ← readBool, ← readBool, ← readBool⟩

def readJob : Reader Job := do
  let [slot, id, w1, w2, w3, st, cl, ca, order] ← readMany readNat 9 | failure
  return ⟨slot, id, w1, w2, w3, st != 0, cl != 0, ca != 0, ← readList readPage, order⟩

def readSurface : Reader Surface := do
  let [entry, id, gen, use, rel] ← readMany readNat 5 | failure
  let body ← readList readNat
  return ⟨entry, id, gen, body, [], use != 0, rel != 0, ← readList readPair⟩

def readTestStrip : Reader TestStrip := do return ⟨← readNat, ← readBool, ← readNat, ← readList readNat⟩

def readGapStrips : Reader GapStrips := do
  return ⟨← readNat, ← readBool, ← readNat, ← readNat, ← readNat, ← readList readTestStrip⟩

def readRun : Reader PageRun := do
  let [job, ord, jobId, w1, page, firstLine, lines, gs, ma, dn, pb, co, sensGen] ← readMany readNat 13 | failure
  let checkTick ← readTime
  let start ← readInt
  let lastFp ← readInt
  let set ← readList readPair
  let uses ← readList readNat
  let actions ← readList readNat
  let before ← readList readNat
  let underruns ← readList readNat
  let sigs ← readList (do return (← readNat, ← readNat, ← readNat, ← readNat))
  let endLine ← readOpt readNat
  let proofOff ← readOpt readNat
  let strips ← readOpt readGapStrips
  return { job, ord, jobId, w1, page, set, firstLine, start, lines, checkTick, uses, actions, before, strips, underruns
           gapStarted := gs != 0, matched := ma != 0, done := dn != 0, endLine, lastFp, sigs, proofOff
           proofBad := pb != 0, compared := co != 0, sensGen }

def readNext : Reader NextPage := do
  let [job, ord, page, anchorLine, gridLine, pitchDiv, mark, probe, held] ← readMany readNat 9 | failure
  let anchorPos ← readInt
  let ofs ← readInt
  let earliest ← readInt
  let lookAt ← readInt
  let start ← readOpt readInt
  let delays ← readList readInt
  return { job, ord, page, anchorLine, anchorPos, gridLine, pitchDiv, mark := mark != 0, probe, ofs, earliest, start
           held := held != 0, delays, lookAt, fallen := ← readList readNat }

def readGap : Reader PendingGap := do
  let job ← readNat
  let page ← readNat
  let id ← readOpt readNat
  return ⟨← readList readPair, job, id, page⟩

def readEnco : Reader Enco := do
  return ⟨← readInt, ← readNat, ← readNat, ← readBool, ← readOpt readTime, ← readOpt readInt, ← readOpt (readOpt readInt)⟩

def readMotion : Reader Motion := do
  return ⟨← readOpt readTime, ← readInt, ← readInt, ← readInt, ← readBool, ← readBool, ← readBool, ← readBool, ← readNat, ← readNat,
    ← readList readEnco⟩

def readQueue : Reader ResyncObj := do
  let jobs ← readList readJob
  let surfs ← readList readSurface
  let runs ← readList readRun
  let next ← readOpt readNext
  let pending ← readOpt readGap
  let wins ← get
  return .queue jobs surfs runs next pending (addrPairs wins)

def readBar (b : Nat) : Reader ResyncObj := do
  let ovs ← readNat
  let regEff ← readNat
  let changes ← readList (do return (⟨← readNat, ← readNat, ← readNat⟩ : OvsChange))
  let last ← readOpt readPair
  return .bar b ovs changes regEff last (← readList readNat)

def readWaste : Reader ResyncObj := do
  let ranges ← readList (do
    let causes ← readNat
    let told ← readBool
    return (⟨causes, ← readInt, ← readInt, told⟩ : WasteRange))
  return .waste ranges (← readList readTime)

/-- The object of some words by its OBJ and INDEX; none where the words are none. -/
def objectOf (code index : Nat) (ws : List Nat) : Option ResyncObj :=
  let whole (r : Reader ResyncObj) : Option ResyncObj := (r ws).map (·.1)
  match code with
  | 1 => some (.regs ((addrPairs ws).filter fun p => decide (p.1 < 2 ^ 31))
      (((addrPairs ws).filter fun p => decide (2 ^ 31 ≤ p.1)).map fun p => (p.1 - 2 ^ 31, p.2)))
  | 2 => whole readQueue
  | 3 => some (.banks index (addrPairs ws))
  | 4 => some (.tables index (addrPairs ws))
  | 5 => some (.berylSlots index (addrPairs ws))
  | 6 => whole (readBar index)
  | 7 => whole (do return .channel index (← readNat) (← readNat) (← readNat) (← readNat))
  | 8 => whole (do return .motion (← readMotion))
  | 9 => whole readWaste
  | 0xFF => whole (do return .last (← readNat))
  | _ => none

end Sys2Proof.Machine
end

