-- ==== Sys2Proof/Machine/Join.lean ====
section
/-! DEFINITION. The tick state copy (spec/12, R381–R383) and joining (R400–R403): what a unit sends at a tick end, what
its partner applies, and the snapshot. -/

namespace Sys2Proof.Machine

/-! A copy's entries applied (R381, R432) -/

/-- A word with the bits of a mask taken from another. -/
def mixBits (old new mask : Nat) : Nat := (old ^^^ (old &&& mask)) ||| (new &&& mask)

/-- A register's WRITE entry: a register with RO fields alone takes the value as state; another takes its writable
fields, RWS fields in the shadow, and acts as the write did where it was decided. -/
def State.regFollow (s : State) (r : RegSpec) (a v : Nat) : State :=
  let before := s
  let mine := r.rw ||| r.rwl ||| r.w1c
  let keep := if mine ||| r.rws ||| r.wo = 0 then r.ro else mine
  let s := s.wr a (mixBits (s.rd a) v keep)
  let s := if r.rws = 0 then s else s.wrSh a (mixBits (s.rdSh a) v r.rws)
  match scBar a with
  | some (b, 0x14) => if bit v 9 then s.armTake b (s.armOf b false) else s
  | _ =>
    match instOf (WP_BAR_REG_AUTO 0) 0x10 8 a with
    | some b =>
      (s.holdOld before.applyLines (·.regAuto) (fun x l => { x with regAuto := l }) fun c =>
        before.rd (WP_BAR_REG_AUTO c)).regClampSee b
    | none => (s.actReg before a 0xFFFFFFFF v).2

/-- A WRITE entry (R381): the write of an object's STATE word applies its record (R526); PG_CMT_APPLY commits the GAP
shadows and TICK_COMMIT the TICK shadows (R116, R118, R523); WP_SRC_CTRL is ignored (R183). -/
def State.writeFollow (s : State) (a v : Nat) : State :=
  if a < 0x120000 then
    match regSpecAt a with
    | none => s
    | some r =>
      if a = WP_SRC_CTRL ∨ a = PR_CTRL then s
      else if a = PG_CMT_APPLY then (s.wr a v).gapFollow
      else if a = GL_CMT_CTRL then (if bit v 1 then s.tickTake else s)
      else s.regFollow r a v
  else
    let s := (s.recFollow a v).wr a v
    if 0x1D00000 ≤ a ∧ a < 0x1D01000 then (if a % 0x40 = 0x10 then s.jobApply ((a - 0x1D00000) / 0x40) else s)
    else if 0x1D10000 ≤ a ∧ a < 0x1D30000 then (if a % 0x20 = 0x18 then s.surfApply ((a - 0x1D10000) / 0x20) else s)
    else if 0x1D40000 ≤ a ∧ a < 0x1D41000 then (if a % 0x40 = 0x28 then s.portApply ((a - 0x1D40000) / 0x40) else s)
    else s

/-- A master's floor (R416). -/
def State.floor (s : State) (m : Nat) : Nat := s.get (HP_MST_CTR_HI_FLOOR m) * 2 ^ 32 + s.get (HP_MST_CTR_LO_FLOOR m)

/-- A master's floor raised to a counter (R432). -/
def State.floorRaise (s : State) (m c : Nat) : State :=
  if s.floor m < c then (s.wr (HP_MST_CTR_LO m) (c % 2 ^ 32)).wr (HP_MST_CTR_HI m) (c / 2 ^ 32) else s

/-- The number of a tick of which a frame carries the low 32 bits. -/
def State.tickOf (s : State) (w : Nat) : Nat := ((s.tick : Int) + cdiff 32 w s.tick).toNat

/-- An entry of a copy applied (R381). -/
def State.entryFollow (s : State) (e : TsEntry) : State :=
  let w (k : Nat) : Nat := e.words.getD k 0
  match e.kind with
  | 1 => s.writeFollow (w 0) (w 1)
  | 2 => s.floorRaise (w 0 % 4) (w 1 * 2 ^ 32 + w 2)
  | 3 => s.admTake (bits (w 0) 29 24) (w 0 % 2 ^ 24) (if bit (w 1) 0 then 0 else bits (w 1) 2 1)
  | 4 => s.pageFollow e.words
  | 5 => s.stripsFollow e.words
  | 6 => s.bandChange (bits (w 0) 6 0) (bits (w 0) 9 8) (bits (w 0) 14 12) (w 1 % 2 ^ 24)
  | 7 => s.waste (w 0 % 256) (s.posTaken (w 1) (w 2)) (s.posTaken (w 3) (w 4))
  | 8 => ({ s with pair := { s.pair with switchAt := some ((s.tickOf (w 0) - 1) * 250000) } }).flag PR_STAT_SWITCH_PENDING true
  | 10 => s.stripMapFollow e.words
  | 12 => s.encoStart (w 0 % 2) (s.posTaken (w 1) (w 2)) (w 3 % 4)
  | _ => s

/-- An INCR or adjustment the active committed, taken by a unit whose servo runs (R225, R228). -/
def State.timeFollow (s : State) : State :=
  let s := match s.tb.newIncr with
    | none => s
    | some v =>
      let r : Rat := (s.sget TB_PAIR_RATE_VALUE : Rat) / 1000000000
      let s := s.setRate (roundR ((v : Rat) * (1 + r))).toNat
      { s with tb := { s.tb with newIncr := none } }
  s.timeCommit

/-- A copy in the recorder (R485, R487). -/
def State.recordCopy (s : State) (tick : Nat) (es : List TsEntry) : State :=
  s.record 0x03 (tick * 250000) (leBytes 4 tick ++ es.flatMap fun e =>
    leBytes 4 (e.kind * 2 ^ 24 + e.words.length * 2 ^ 16) ++ e.words.flatMap (leBytes 4))

/-- A copy's entries applied in order as those of a tick (R383, R497); the outputs' origins once more, after the commit that
starts them. -/
def State.entriesApply (s : State) (es : List TsEntry) : State :=
  let lines := ((es.find? (·.kind == 9)).map (·.words)).getD []
  let s := ({ s with pair := { s.pair with tickLines := lines } }).batchBegin
  let s := (s.each es State.entryFollow).each (es.filter (·.kind == 12)) State.entryFollow
  ({ s with pair := { s.pair with tickLines := [] } }).timeFollow.batchEnd

/-- A whole copy applied (R383). -/
def State.copyApply (s : State) (c : CopyIn) : State :=
  let part (p : Nat) : List TsEntry := ((c.got.find? (·.1 == p)).map (·.2)).getD []
  let es := (List.range c.parts).flatMap part
  let s := s.entriesApply es
  let s := { s with pair := { s.pair with appliedTick := c.tick } }
  (s.inc PR_TS_STAT_COPIES).recordCopy c.tick es

/-- Whether every frame of a copy is held. -/
def CopyIn.whole (c : CopyIn) : Bool := decide (c.got.length = c.parts)

/-- Whole copies at the front of those held, applied in order. -/
def State.copiesRun (s : State) : Nat → State
  | 0 => s
  | k + 1 =>
    match s.pair.copies with
    | c :: l => if c.whole then (({ s with pair := { s.pair with copies := l } }).copyApply c).copiesRun k else s
    | [] => s

/-- Whether a joining unit has applied its snapshot. -/
def State.joined (s : State) : Bool := decide (3 ≤ s.get PR_STAT_RESYNC_PHASE)

/-- A TS frame taken (R383, R400, R401): kept until its copy is whole; with more than 64 copies waiting behind an
unfinished snapshot they are discarded. -/
def State.tsTake (s : State) (tick part parts : Nat) (es : List TsEntry) : State :=
  let n := s.tickOf tick
  let wanted := s.goodStandby || (s.joining && (match s.pair.t0 with
    | some t0 => decide (t0 < n)
    | none => false))
  if !wanted then s
  else
    let put (c : CopyIn) : CopyIn := if c.tick == n && !(c.got.any (·.1 == part)) then { c with got := c.got ++ [(part, es)] } else c
    let l := if s.pair.copies.any (·.tick == n) then s.pair.copies.map put
      else s.pair.copies ++ [⟨n, parts, [(part, es)]⟩]
    let s := { s with pair := { s.pair with copies := l } }
    if s.joining && !s.joined then (if 64 < l.length then s.copiesDrop.raise 0x6110 0 0 0 else s)
    else s.copiesRun l.length

/-- A TS frame received (R383). -/
def execTsFrame (t : Nat) (h : RelHdr) (tick part parts : Nat) (entries : List TsEntry) (s : State) :
    Host.Outcome State Fault Refusal :=
  run t (fun s => s.relIn h fun s => s.tsTake tick part parts entries) s

/-! The copy sent (R381, R382) -/

/-- Words an entry takes. -/
def TsEntry.size (e : TsEntry) : Nat := e.words.length + 1

/-- Bytes of the mandatory entries gathered so far (R382). -/
def State.copyBytes (s : State) : Nat := (s.pair.entries.map fun e => 4 * e.size).sum

/-- Entries packed into frames of at most 506 entry words, which a TS frame of 2,048 bytes holds. -/
def packFrames (room : Nat) (cur : List TsEntry) : List TsEntry → List (List TsEntry)
  | [] => [cur]
  | e :: l => if e.size ≤ room then packFrames (room - e.size) (cur ++ [e]) l
      else cur :: packFrames (506 - e.size) [e] l

/-- Whether a standby that follows, or a joining unit, receives copies. -/
def State.copyReceived (s : State) : Bool := s.base == .active && s.linkUp && (s.followed || s.pair.partnerJoining)

/-- The copy of the tick that ends (R370, R381): recorded, and sent where it is received; the digests that wait leave between
its mandatory part and the part that can be deferred (R377). Where none is received the whole of that part is in it (R485, log 31). -/
def State.copyEnd (s : State) : State :=
  if !s.authoritative then s.digestsSend
  else
    let n := s.tick
    let recv := s.copyReceived
    let d := s.berylDeltas (if recv then s.get PR_STAT_WIDTH else s.beryl.deltas.length + s.beryl.recDeltas.length)
    let s := d.2
    let mand := s.pair.entries
    let s := ({ s with pair := { s.pair with entries := [] } }).recordCopy n (mand ++ d.1)
    if recv then
      let first := packFrames 506 [] mand
      let later := if d.1.isEmpty then [] else packFrames 506 [] d.1
      let parts := first.length + later.length
      let s := (s.each first.zipIdx fun s f => s.relSend (.ts n f.2 parts f.1)).digestsSend
      let s := s.each (later.zipIdx first.length) fun s f => s.relPut true (.ts n f.2 parts f.1)
      let s := s.inc PR_TS_STAT_COPIES
      { s with pair := { s.pair with sentTick := n, sentAt := n * 250000, acked := !s.followed } }
    else s.digestsSend

/-! The snapshot (R401–R403) -/

/-- RO registers that hold no state: what they show is computed as they are read. -/
def computedRegs : List Nat :=
  [TB_FRC_LO, TB_FRC_HI, TB_TIME_LO, TB_TIME_HI, TB_TIME_FRAC, TB_OFS_REMAIN, GL_TICK, FS_PIN_STAT, PG_PAIR_HOLD, SC_BAR_EFFMAX 0, BY_BAR_RESID 0,
    WP_PRB_TIME_LO 0, WP_PRB_TIME_HI 0, WP_PRB_POS_LO 0, WP_PRB_POS_HI 0]

/-- The registers of a snapshot: every RW, RWS and state-holding RO register of the blocks R401 names, of the JL block the head
classes. -/
def snapRegs : List RegSpec :=
  [0x0, 0x5, 0x6, 0x8, 0x4, 0x3, 0xB, 0x9, 0xA, 0xC].flatMap fun blk => (regSpecsOf blk).filter fun r =>
    (blk ≠ 0xC ∨ JL_HC_ID 0 ≤ r.base) ∧ (r.rw ||| r.rws ≠ 0 ∨ (r.ro ≠ 0 ∧ r.base ∉ computedRegs))

/-- Their addresses. -/
def snapAddrs : List Nat := snapRegs.flatMap fun r =>
  (List.range (max 1 r.count1)).flatMap fun i => (List.range (max 1 r.count2)).map fun k => r.base + r.stride1 * i + r.stride2 * k

/-- Whether a joining unit takes a register's RO fields from the snapshot: those that tell of the job, the web and the bars, not
those that tell of the active unit itself (log 32). -/
def RegSpec.taken (r : RegSpec) : Bool :=
  let blk := r.base / 0x10000
  (blk == 5 && r.base != PG_SPDREQ_STAT) || blk == 6 || blk == 8 || blk == 9 ||
    [GL_CMT_STAT, FS_WM_STAT, FS_BAR_WD 0, FS_BAR_WD_TIME 0, WP_BAR_REG_AUTO 0, WP_BAR_REG_EFF 0, CM_MARK_STAT, CM_MARK_ERR 0,
      CM_CFG_STAT, CM_PROOF_STAT, CM_PROOF_STAT2].contains r.base

/-- The listed words of some windows of a bar. -/
def State.winVals (s : State) (l : List (Nat × Nat)) : List (Nat × Nat) :=
  l.flatMap fun w => (s.windowWords w.1 w.2).map fun x => (w.1 + x.1, x.2)

def bankWins (b : Nat) : List (Nat × Nat) := [(liveWin b, bankSize), (shadowWin b, bankSize)]
def tableWins (b : Nat) : List (Nat × Nat) :=
  [(0x800000 + 0x2000 * b, 0x2000), (0x900000 + 0x100000 * b, 0x100000), (0x810000 + 0x1000 * b, 0x1000),
   (0x818000 + 0x1000 * b, 0x1000)]
/-- The windows of the job, surface and port records (R526). -/
def objWins : List (Nat × Nat) := [(0x1D00000, 0x1000), (0x1D10000, 0x20000), (0x1D40000, 0x1000)]

def berylWins (b : Nat) : List (Nat × Nat) := [(recAddr b 0, 0x60000)]

/-- The motion object (R402): no edge where the selected encoder has had none for 1 ms. -/
def State.motionNow (s : State) : Motion :=
  let e := s.enc s.selEnc
  { edgeAt := e.counts.head?.filter fun a => !s.past a 1000000
    edgeP := s.web.p, q := s.web.q, ps := s.web.ps, onSec := s.web.onSec
    priFailed := s.is WP_SRC_STAT_PRI_FAILED, secFailed := s.is WP_SRC_STAT_SEC_FAILED, lost := s.is WP_SRC_STAT_LOST
    speedState := e.state, dirState := s.get WP_MOTION_DIR_STATE, encos := s.web.encos }

/-- A channel's anchor (R403): the next line of its bar with its SEQ, and the band of each head. -/
def State.anchorOf (s : State) (ch : Nat) : ResyncObj :=
  match s.nextLine (chanBar ch) with
  | some (r, line) => .channel ch r.job line (s.get (JL_SEQ_NEXT_SEQ ch)) (s.get (JL_BAND_BAND ch))
  | none => .channel ch 63 0xFFFFFFFF (s.get (JL_SEQ_NEXT_SEQ ch)) (s.get (JL_BAND_BAND ch))

/-- The objects of a snapshot in OBJ order with their INDEX (R401); END carries the number of its RESYNC frames, itself included. -/
def State.snapObjects (s : State) : List (Nat × ResyncObj) :=
  let regs := snapAddrs.map fun a => (a, s.rd a)
  let shadow := (snapAddrs.filter fun a => ((regSpecAt a).map (·.rws)).getD 0 ≠ 0).map fun a => (a, s.rdSh a)
  let per (n : Nat) (f : Nat → ResyncObj) : List (Nat × ResyncObj) := (List.range n).map fun i => (i, f i)
  let bar (b : Nat) : ResyncObj :=
    let x := s.screenBar b
    .bar b (s.get (SC_BAR_OVS_STATE b)) x.ovs (s.get (WP_BAR_REG_EFF_REG b)) x.lastLine ((List.range 8).map fun n => s.rd (LY_SIG n))
  let l := [(0, ResyncObj.regs regs shadow),
      (0, .queue s.scan.jobs s.ingest.surfs s.scan.runs s.scan.nextPage s.scan.pendingGap (s.winVals objWins))] ++
    per 8 (fun b => .banks b (s.winVals (bankWins b))) ++ per 8 (fun b => .tables b (s.winVals (tableWins b))) ++
    per 8 (fun b => .berylSlots b (s.winVals (berylWins b))) ++ per 8 bar ++ per 96 s.anchorOf ++
    [(0, .motion s.motionNow), (0, .waste s.marks ((List.range 4).map s.floor))]
  l ++ [(0, .last ((l.map fun o => o.2.pieces.length).sum + 1))]

/-- Windows cleared and their listed words set. -/
def State.winsTake (s : State) (wins vals : List (Nat × Nat)) : State :=
  let inside (a : Nat) : Bool := wins.any fun w => decide (w.1 ≤ a) && decide (a < w.1 + w.2)
  let s := { s with words := skeep (fun a => !inside a) s.words }
  s.each (vals.filter fun v => inside v.1) fun s v => s.wr v.1 v.2

/-- The registers of a snapshot taken (R401, R481): INHIBIT's cause of SAFE and SPEED_REQ's FORCE follow the values taken, the
latter with its event (R77, R78). -/
def State.regsTake (s : State) (live shadow : List (Nat × Nat)) : State :=
  let s := s.each (live.filter fun v => snapAddrs.contains v.1) fun s v =>
    match regSpecAt v.1 with
    | some r => s.wr v.1 (mixBits (s.rd v.1) v.2 (r.rw ||| r.rws ||| (if r.taken then r.ro else 0)))
    | none => s
  let s := s.each (shadow.filter fun v => snapAddrs.contains v.1) fun s v => s.wrSh v.1 v.2
  let s := if s.is FS_SAFE_CTRL_INHIBIT then s.safeSet 1 else s.flag FS_SAFE_STAT_INH_CMD false
  let s := (s.flag PG_SPDREQ_STAT_FORCED (s.is PG_SPDREQ_CTRL_FORCE)).calmShow.spdShow
  s.each (idxs 8 fun b => s.is (SC_BAR_APPLY_CTRL_PENDING b)) fun s b =>
    s.modBar b fun x => { x with armed := some (s.armOf b false) }

/-- A surface of a snapshot with this unit's own strips of the same generation. -/
def State.surfTake (s : State) (f : Surface) : Surface :=
  match s.surf f.id f.gen with
  | some g => { f with slots := g.slots }
  | none => { f with slots := [], waits := [] }

/-- The queue of a snapshot taken, and what the windows of its records read (R526). -/
def State.queueTake (s : State) (jobs : List Job) (surfs : List Surface) (runs : List PageRun) (next : Option NextPage)
    (gap : Option PendingGap) (wins : List (Nat × Nat)) : State :=
  let s := s.winsTake objWins wins
  let top := jobs.foldl (fun n j => max n (j.order + 1)) (runs.foldl (fun n r => max n (r.ord + 1)) 0)
  let uses := (runs.getLast?.map (·.uses)).getD (List.replicate 8 noRef)
  let s := { s with ingest := { s.ingest with surfs := surfs.map s.surfTake } }
  let s := { s with scan := { s.scan with
    jobs := jobs, runs := runs, nextPage := next, pendingGap := gap, starts := top, prevUses := uses, marks := [] } }
  s.gapFlag gap.isSome

/-- A channel's anchor taken (R403): the line it names has its SEQ, and the lines of its job at the bar count on from there; the
unit holds sequence numbers from then on. -/
def State.anchorTake (s : State) (ch job line seq bands : Nat) : State :=
  let on : Nat := match s.nextLine (chanBar ch) with
    | some (r, n) => if r.job = job then (((seq : Int) + n - line) % 2 ^ 24).toNat else seq
    | none => seq
  let s := (s.put (JL_SEQ_NEXT_SEQ ch) on).put (JL_BAND_BAND ch) bands
  { s with pair := { s.pair with holdsSeq := true } }

/-- An object of a snapshot applied (R401, R403); the motion object is taken apart from the others. -/
def State.objApply (s : State) (o : ResyncObj) : State :=
  match o with
  | .regs live shadow => s.regsTake live shadow
  | .queue jobs surfs runs next gap wins => s.queueTake jobs surfs runs next gap wins
  | .banks b vals => s.winsTake (bankWins b) vals
  | .tables b vals => s.winsTake (tableWins b) vals
  | .berylSlots b vals => s.winsTake (berylWins b) vals
  | .bar b ovs changes eff last sigs =>
    let s := (s.modBar b fun x => { x with ovs := changes, lastLine := last }).put (SC_BAR_OVS_STATE b) ovs
    s.each sigs.zipIdx (fun s g => s.wr (LY_SIG g.2) g.1) |>.put (WP_BAR_REG_EFF_REG b) eff
  | .channel ch job line seq bands => s.anchorTake ch job line seq bands
  | .motion _ => s
  | .waste ranges floors =>
    let s := { s with fire := { s.fire with ranges := ranges } }
    (s.put FS_WM_STAT_PENDING (min 64 s.marks.length)).each floors.zipIdx fun s f => s.floorRaise f.2 f.1
  | .last _ => s
  | .part _ => s

/-- The position a joining unit takes from a motion object (R402): from its own count of the same encoder within 50 ns
of the active's edge, or as sent when the active has had no edge; none while no edge matches. -/
def State.anchorAt (s : State) (m : Motion) : Option Int :=
  match m.edgeAt with
  | none => some m.edgeP
  | some at_ =>
    let n := if m.onSec then s.get WP_ENC_CFG_SECONDARY else s.get WP_ENC_CFG_PRIMARY
    let e := s.enc n
    match e.counts.findIdx? fun (a : Nat) => decide (((a : Int) - (at_ : Int)).natAbs ≤ 50) with
    | some i => some (m.edgeP + (if e.fwd then 1 else -1) * ((i * s.scaleOf n : Nat) : Int))
    | none => none

/-- P set, and the other values of a motion object as sent (R402). -/
def State.motionPut (s : State) (m : Motion) (p : Int) : State :=
    let s := { s with web := { s.web with
      p := p, pAt := s.now, was := [], q := max m.q p, ps := m.ps, onSec := m.onSec, encos := m.encos, alignAt := p } }
    let s := ((s.flag WP_SRC_STAT_PRI_FAILED m.priFailed).flag WP_SRC_STAT_SEC_FAILED m.secFailed).put
      WP_MOTION_DIR_STATE m.dirState
    let s := s.modEnc s.selEnc fun e => { e with state := m.speedState }
    let s := if m.lost then s.posLost else s.flag WP_SRC_STAT_LOST false
    s.webShow.estTake

/-- The motion object taken (R402). -/
def State.motionTake (s : State) (m : Motion) : State :=
  match s.anchorAt m with
  | none => s
  | some p =>
    ({ s.motionPut m p with pair := { s.pair with anchored := true } }).put PR_STAT_RESYNC_PHASE 5

/-- A whole snapshot applied, then the copies that waited, then the position (R400). -/
def State.snapshotApply (s : State) : State :=
  let l := s.pair.objs
  let s := (s.each l State.objApply).put PR_STAT_RESYNC_PHASE 3
  let s := { s with pair := { s.pair with objs := [] } }
  let s := (s.copiesRun s.pair.copies.length).put PR_STAT_RESYNC_PHASE 4
  match l.findSome? fun o => match o with
      | .motion m => some m
      | _ => none with
  | some m => s.motionTake m
  | none => s

/-- A RESYNC frame taken by a joining unit. -/
def State.resyncTake (s : State) (tick : Nat) (o : ResyncObj) : State :=
  if !s.joining then s
  else if s.joined then
    match o with
    | .motion m => if s.pair.anchored then s else s.motionTake m
    | _ => s
  else
    let n := s.tickOf tick
    let s := if s.pair.t0 = some n then s
      else { s with pair := { s.pair with t0 := some n, objs := [], framesRx := 0, copies := [], ended := false } }
    let new := match o with
      | .part _ => []
      | o => [o]
    let s := { s with pair := { s.pair with objs := s.pair.objs ++ new, framesRx := s.pair.framesRx + 1 } }
    match o with
    | .last k => if k = s.pair.framesRx then ({ s with pair := { s.pair with ended := true, endFrames := k } }).snapshotApply else s
    | _ => s

/-- A RESYNC frame received (R401). -/
def execResyncFrame (t : Nat) (h : RelHdr) (tick : Nat) (obj : ResyncObj) (s : State) : Host.Outcome State Fault Refusal :=
  run t (fun s => s.relIn h fun s => s.resyncTake tick obj) s

/-! Progress at tick ends (R400) -/

/-- The generations admitted pages still to finish reference. -/
def State.admittedRefs (s : State) : List Nat :=
  ((s.scan.jobs.flatMap fun j => (j.pages.filter fun p => p.adm == .admitted && !p.done).flatMap (·.refs)).filter
    (· != noRef)).eraseDups

/-- Whether every strip slot an admitted page references is HELD (R400 step 5). -/
def State.stripsHeld (s : State) : Bool := s.admittedRefs.all fun r => match s.refSurf r with
  | some f => (List.range (bodySlots f.body)).all fun k => (f.slot k).state == stHeld
  | none => false

/-- The join is complete (R400): STANDBY at the active's epoch. -/
def State.joinDone (s : State) : State :=
  let s := ((s.setBase .standby).flag PR_STAT_STALE false).put PR_STAT_RESYNC_PHASE 0
  let s := { s with pair := { s.pair with holdsSeq := true, helloOn := false, appliedTick := max s.pair.appliedTick s.tick } }
  let s := (s.setClaim s.pair.partnerEpoch (if s.is PR_STAT_DEMOTED then 0 else 1)).claimHbs
  (s.raise 0x610F 0 0 0).raise 0x6101 0 0 0

/-- A joining unit at a tick end. -/
def State.joinTick (s : State) : State :=
  if !s.joining then s
  else
    let locked := s.get TB_PAIR_STAT_STATE == 3
    let s := if s.get PR_STAT_RESYNC_PHASE == 1 && locked then s.put PR_STAT_RESYNC_PHASE 2 else s
    if s.get PR_STAT_RESYNC_PHASE == 5 && locked && s.stripsHeld then s.joinDone else s

/-- The digests of every slot an admitted page references, queued for the joining unit (R400). -/
def State.digestsQueue (s : State) : State :=
  let l := s.admittedRefs.flatMap fun r => match s.refSurf r with
    | some f => (f.slots.filter fun p => p.2.state == stStored || p.2.state == stHeld).map fun p =>
        (f.id, f.gen, p.1, p.2.len, p.2.digest)
    | none => []
  { s with ingest := { s.ingest with digests := s.ingest.digests ++ l }, pair := { s.pair with digestsSent := true } }

/-- An object sent in RESYNC frames (R375, R401). -/
def State.objSend (s : State) (t0 index : Nat) (o : ResyncObj) : State :=
  s.each o.pieces fun s p => s.relSend (.resync t0 o.code index p.1 p.2)

/-- Whether the joining unit has still to acknowledge the snapshot's END object (R400). -/
def State.endAwaited (s : State) : Bool := (s.pair.unacked.any (·.body.isEnd)) || s.pair.waiting.any (·.2.isEnd)

/-- The active's part in a join at a tick end (R400–R402): the snapshot once the partner's servo is LOCKED, its restart
after 64 copies, then the digests, and the motion object again while the partner may still lack it. -/
def State.joinServe (s : State) : State :=
  if !(s.base == .active && s.linkUp && s.pair.partnerJoining) then s
  else
    match s.pair.t0 with
    | none =>
      if s.pair.partnerLocked then
        let l := s.snapObjects
        let s := { s with pair := { s.pair with t0 := some s.tick, digestsSent := false } }
        s.each l fun s o => s.objSend s.tick o.1 o.2
      else s
    | some t0 =>
      if s.endAwaited then
        if t0 + 64 < s.tick then
          ({ s with pair := { s.pair with t0 := none, waiting := s.pair.waiting.filter (!·.2.isResync) } }).raise 0x6110 0 0 0
        else s
      else
        let s := if s.pair.digestsSent then s else s.digestsQueue
        s.objSend t0 0 (.motion s.motionNow)

end Sys2Proof.Machine
end

