-- ==== Sys2Proof/Machine/Replay.lean ====
section
/-! DEFINITION. Snapshots and replay (spec/16, R494–R498). -/

namespace Sys2Proof.Machine

/-! Snapshots (R494) -/

/-- What a RESYNC frame carries from offset 16 (R401), as a SNAPSHOT entry's payload, little-endian (R5). -/
def snapPayload (o : Nat × ResyncObj) : List Byte :=
  leBytes 4 (o.2.code * 2 ^ 24 + o.1) ++ leBytes 4 0 ++ o.2.words.flatMap (leBytes 4)

/-- The snapshot's entries, then a DIGEST entry for every STORED or HELD slot that an admitted page references. -/
def State.snapshotWrite (s : State) : State :=
  let at_ := s.tick * 250000
  let s := s.each s.snapObjects fun s o => s.record 0x0D at_ (snapPayload o)
  s.each s.admittedRefs fun s r => match s.refSurf r with
    | some f => s.each (f.slots.filter fun p => p.2.state == stStored || p.2.state == stHeld) fun s p =>
        s.record 0x06 at_ (leBytes 4 (packGen f.id f.gen) ++ leBytes 4 p.1 ++ leBytes 4 p.2.len ++ leBytes 4 p.2.digest)
    | none => s

/-- A snapshot written at a tick end when one is due: the first after RECORDING begins, then every SNAP_S seconds. -/
def State.snapshotTick (s : State) : State :=
  match s.agate.snapDue with
  | none => s
  | some d =>
    if s.recording && decide (d ≤ s.now) then
      let n := s.get AG_CFG_SNAP_S
      { s.snapshotWrite with agate :=
        { s.snapshotWrite.agate with snapDue := if n = 0 then none else some (s.now + n * 1000000000) } }
    else s

/-- SNAPSHOT (R494). -/
def execSnapshot (t : Nat) (s : State) : Host.Outcome State Fault Refusal := run t State.snapshotTick s

/-! The recording read (R486, R489, R490, R496) -/

/-- A payload's 32-bit words. -/
def leWords (bs : List Byte) : List Nat := (List.range (bs.length / 4)).map fun i => leAt bs (4 * i) 4

/-- The entry of a SEQ at a byte offset of region 6, with CONT and LEN. -/
def State.ringEntry (s : State) (o n : Nat) : Option (ReplayEntry × Bool × Nat) :=
  let h := s.rdMem (s.rgnBase 6 + o) 16
  let w := leAt h 0 4
  let len := bits w 31 16
  if leAt h 4 4 == n && len % 8 == 0 && decide (16 ≤ len) && decide (len ≤ 4096) && decide (o + len ≤ s.rgnSize 6) then
    some (⟨bits w 7 0, n, leAt h 8 8, s.rdMem (s.rgnBase 6 + o + 16) (len - 16)⟩, bit w 8, len)
  else none

/-- Entries followed by SEQ from an offset up to the header's NEXT_SEQ: past the ring's end at offset 64, and where an entry of
another SEQ stands, of a block that was skipped, behind that block (R490). -/
def State.ringWalk (s : State) (last : Nat) : Nat → Nat → Nat → List (ReplayEntry × Bool)
  | 0, _, _ => []
  | k + 1, o, n =>
    if n = last then []
    else if s.rgnSize 6 < o + 16 then s.ringWalk last k 64 n
    else
      match s.ringEntry o n with
      | some (e, cont, len) => (e, cont) :: s.ringWalk last k (o + len) ((n + 1) % 2 ^ 32)
      | none =>
        let b := (o / 0x10000 + 1) * 0x10000
        s.ringWalk last k (if s.rgnSize 6 ≤ b then 64 else b) n

/-- An entry put behind those read, newest first; one with CONT continues the previous entry of its TYPE (R486). -/
def joinEntry (l : List ReplayEntry) (x : ReplayEntry × Bool) : List ReplayEntry :=
  match if x.2 then l.findIdx? (·.kind == x.1.kind) else none with
  | some i => modAt l i fun a => { a with payload := a.payload ++ x.1.payload }
  | none => x.1 :: l

/-- The recording in region 6, oldest entry first. -/
def State.recorded (s : State) : List ReplayEntry :=
  let h := s.rdMem (s.rgnBase 6) 64
  ((s.ringWalk (leAt h 16 4) (s.rgnSize 6 / 8) (leAt h 8 4) (leAt h 12 4)).foldl joinEntry []).reverse

/-- OBJ of a SNAPSHOT entry. -/
def ReplayEntry.obj (e : ReplayEntry) : Nat := leAt e.payload 0 4 / 2 ^ 24

/-- Whether an entry ends a snapshot. -/
def ReplayEntry.isEnd (e : ReplayEntry) : Bool := e.kind == 0x0D && e.obj == 0xFF

/-! Replay (R495–R498) -/

/-- `f` at a virtual instant (R497); the time base stays as it was. -/
def State.atTime (s : State) (at_ : Nat) (f : State → State) : State :=
  let tb := s.tb
  let s := f { s with tb := { s.tb with baseT := at_ * nsU, baseF := s.frc, remain := 0 } }
  { s with tb := { s.tb with baseT := tb.baseT, baseF := tb.baseF, remain := tb.remain, rate := tb.rate, adj := none, newIncr := none } }

/-- REPLAY_RUN commits (R496): the snapshot of START is applied, P is its motion object's, and virtual time is its TIME. The copy of
the snapshot's own tick stands in it already, as for a joining unit (R400). -/
def State.replayRun (s : State) : Nat × State :=
  if s.get AG_RP_STAT_MODE != 1 && s.get AG_RP_STAT_MODE != 3 then (stBadState, s)
  else
    let from_ := s.recorded.dropWhile (·.seq != s.get AG_RP_START_SEQ)
    let snap := from_.takeWhile (!·.isEnd)
    match from_, from_.drop snap.length with
    | e :: _, _ :: later_ =>
      if e.kind != 0x0D || e.obj != 1 || snap.any (·.kind == 0x0B) then (stRange, s)
      else
        let named := (later_.filter fun d => d.kind != 0 && d.kind != 0x0B).takeWhile fun d => d.kind == 6 && d.time == e.time
        let held := named.all fun d =>
          let x := s.slotOf (leAt d.payload 0 4 / 65536) (leAt d.payload 0 4 % 65536) (leAt d.payload 4 4)
          (x.state == stStored || x.state == stHeld) && x.digest == leAt d.payload 12 4
        if !held then (stBadState, s)
        else
          let objs := (snap.filter (·.kind == 0x0D)).filterMap fun o =>
            objectOf o.obj (leAt o.payload 0 4 % 2 ^ 24) ((leWords o.payload).drop 2)
          let s := s.each objs State.objApply
          let s := { s with tb := { s.tb with baseT := e.time * nsU, baseF := s.frc, remain := 0, seen := e.time / 250000 } }
          let s := s.each objs fun s o => match o with
            | .motion m => s.motionPut m m.edgeP
            | _ => s
          let script := later_.filter fun d => !later 32 d.seq (s.get AG_RP_END_SEQ) && !(d.kind == 3 && decide (d.time ≤ e.time))
          (stOk, { s.put AG_RP_STAT_MODE 2 with agate := { s.agate with script := script, compared := 0, own := [], gaps := [] } })
    | _, _ => (stRange, s)

/-- Words of a TICK_COPY entry as copy entries (R381, R487). -/
def copyEntries : Nat → List Nat → List TsEntry
  | 0, _ => []
  | k + 1, l =>
    match l with
    | [] => []
    | h :: r =>
      let n := bits h 23 16
      if h / 2 ^ 24 = 0 then [] else ⟨h / 2 ^ 24, r.take n⟩ :: copyEntries k (r.drop n)

/-- The level changes of an EDGE_BIN, each at its sample time. -/
def State.binApply (s : State) (e : ReplayEntry) : State :=
  s.each (List.range (e.payload.length / 2)) fun s i =>
    let w := leAt e.payload (2 * i) 2
    if w = 0xFFFF then s
    else
      let at_ := e.time - 10000 + bits w 10 0 * 10
      s.atTime at_ fun s => s.edgeTake (bits w 15 14) (bit w 13) (bit w 12) (bit w 11) at_

/-- A recorded probe latch. -/
def State.latchApply (s : State) (e : ReplayEntry) : State :=
  let w := leAt e.payload 0 4
  let n := bits w 1 0
  let pos := s.posNear (sgn 48 (leAt e.payload 4 4 + leAt e.payload 8 4 % 65536 * 2 ^ 32))
  let s := (s.flag (WP_PRB_STAT_LEVEL n) (bit w 16)).modProbe n fun p => { p with lastPos := some pos }
  if bit w 20 then
    if 16 ≤ (s.probe n).fifo.length then s.inc (WP_PRB_STAT_OVF n)
    else
      let s := s.modProbe n fun p => { p with fifo := p.fifo ++ [⟨e.time, pos, bit w 16, bit w 17, bit w 18⟩] }
      s.inc (WP_PRB_STAT_ENTRIES n)
  else s.inc (WP_PRB_STAT_OVF n)

/-- An entry other than a LINE_DIGEST applied at its instant (R497). -/
def State.scriptApply (s : State) (e : ReplayEntry) : State :=
  match e.kind with
  | 1 => s.binApply e
  | 2 => s.atTime e.time (·.latchApply e)
  | 3 => s.atTime e.time fun s => s.entriesApply (copyEntries e.payload.length ((leWords e.payload).drop 1))
  | 4 =>
    let w (k : Nat) : Nat := leAt e.payload (4 * k) 4
    s.atTime e.time fun s => s.itemTake ⟨w 0, w 1, w 2, w 3⟩
  | 6 =>
    let w (k : Nat) : Nat := leAt e.payload (4 * k) 4
    s.digestIn (w 0 / 65536) (w 0 % 65536) (w 1) (w 2) (w 3)
  | 0x0B => { s with agate := { s.agate with gaps := s.agate.gaps ++ [(leAt e.payload 4 8, e.time)] } }
  | _ => s

/-- Whether a group of the unit's own falls inside a loss that a GAP tells of (R498). -/
def State.inGap (s : State) (g : DigGroup) : Bool := s.agate.gaps.any fun x => decide (x.1 ≤ g.at_) && decide (g.at_ ≤ x.2)

/-- Replay ends (R498): own groups inside a GAP that no record met are SKIPPED. -/
def State.replayEnd (s : State) : State :=
  let s := s.addSat AG_RP_STAT_SKIPPED (s.agate.own.filter s.inGap).length
  ({ s.put AG_RP_STAT_MODE 3 with agate := { s.agate with script := [], own := [] } }).raise 0x8105 0 s.agate.compared
    (s.get AG_RP_STAT_MISMATCHES)

/-- A recorded LINE_DIGEST met by the unit's own group of the same first line (R498): own groups before it have no
record left and are SKIPPED; none while the own group is still to be computed. -/
def State.digCompare (s : State) (e : ReplayEntry) : Option State :=
  let w (k : Nat) : Nat := leAt e.payload (4 * k) 4
  let b := bits (w 3) 2 0
  let mine := s.agate.own.filter (·.bar == b)
  let rest := s.agate.own.filter (·.bar != b)
  match mine.findIdx? (·.first == w 0) with
  | some i =>
    let o := mine.getD i ⟨b, 0, 0, 0, 0, 0, 0, 0, 0⟩
    let s := { s with agate := { s.agate with own := rest ++ mine.drop (i + 1), compared := s.agate.compared + 1 } }
    let s := s.addSat AG_RP_STAT_SKIPPED i
    if o.seq = bits (w 1) 23 0 ∧ o.dig = w 2 then some s
    else
      let first := !s.is AG_RP_STAT_MISMATCHES
      let s := s.addSat AG_RP_STAT_MISMATCHES 1
      let s := if first then s.put AG_RP_MM_SEQ e.seq else s
      let s := s.raise 0x8104 b (w 0) 0
      some (if s.is AG_RP_CTRL_STOP_MM then s.replayEnd else s)
  | none => if mine.any fun o => later 24 o.seq (bits (w 1) 23 0) then some (s.addSat AG_RP_STAT_SKIPPED 1) else none

/-- The recording played up to the present instant. -/
def State.scriptRun : Nat → State → State
  | 0, s => s
  | k + 1, s =>
    if s.get AG_RP_STAT_MODE != 2 then s
    else
      match s.agate.script with
      | [] => s.replayEnd
      | e :: l =>
        if s.now < e.time then s
        else
          let s' := { s with agate := { s.agate with script := l } }
          if e.kind = 0x0A then
            match s'.digCompare e with
            | some r => State.scriptRun k r
            | none => s
          else State.scriptRun k (s'.scriptApply e)

/-- The earliest predicted fire time of a line not yet composed (R497). -/
def State.virtualLimit (s : State) : Option Nat :=
  ((List.range 8).filterMap fun b => (s.nextLine b).bind fun x =>
    if s.predHeld (s.lineFp x.1 x.2 b) (s.predFor b x.1.ord x.2) then none else some (s.lineTime x.1 x.2 b)).foldl
    (fun m x => some ((m.map fun y => min y x).getD x)) none

/-- Virtual time stopped at the fire time of a line that is not complete (R497). -/
def State.virtualHold (s : State) : State :=
  match s.virtualLimit with
  | some x => if x < s.now then { s with tb := { s.tb with baseT := x * nsU, baseF := s.frc, remain := 0 } } else s
  | none => s

/-- A running replay brought to the present virtual instant. -/
def State.replayStep (s : State) : State :=
  if s.get AG_RP_STAT_MODE == 2 then s.virtualHold.scriptRun (s.agate.script.length + 1) else s

def execLineComposeStart (t b : Nat) (s : State) : Host.Outcome State Fault Refusal :=
  run t (fun s => s.replayStep.composeNext b) s

/-- The estimates' 10 µs update (R186, R188). -/
def execEstimateUpdate (t : Nat) (s : State) : Host.Outcome State Fault Refusal :=
  run t (fun s => s.replayStep.estimateUpdate) s

end Sys2Proof.Machine
end

