-- ==== Sys2Proof/Machine/Writes.lean ====
section
/-! DEFINITION. WRITE (spec/13, R422, R427, R428; spec/18, R520–R525): what each address accepts, the level it needs,
its classification, the checks of a command's items, their application, and what two commands may contradict each
other in (R430). -/

namespace Sys2Proof.Machine

/-! Addresses -/

/-- A table window that a DCP WRITE may write (R524). -/
def rwWindow (a : Nat) : Bool :=
  (decide (0x500000 ≤ a) && decide (a < 0x820000)) || (decide (0x900000 ≤ a) && decide (a < 0x1100000)) ||
    (decide (0x1400000 ≤ a) && decide (a < 0x1680000))

/-- Whether EV_DIAG_VIEW.EYE hides the tile at an address (R525). -/
def State.eyeHides (s : State) (a : Nat) : Bool :=
  s.is EV_DIAG_VIEW_EYE && decide (0xC00000 ≤ a) && decide (a < 0xCC8000)

/-- Whether a DCP WRITE may name an address (R10, R13, R524–R526). -/
def State.writable (s : State) (a : Nat) : Bool :=
  a % 4 == 0 && !s.eyeHides a && (if a < 0x120000 then (regSpecAt a).isSome else rwWindow a)

/-- A register's fields. -/
def RegSpec.fields (r : RegSpec) : Nat := r.rw ||| r.rws ||| r.w1c ||| r.wo ||| r.rwl ||| r.ro

/-- The bits of the fields at an address. -/
def fieldBits (a : Nat) : Nat :=
  if a < 0x120000 then ((regSpecAt a).map RegSpec.fields).getD 0 else 0xFFFFFFFF

/-- The fields at an address that are unit-local (R427). -/
def localBits (a : Nat) : Nat :=
  if 0x120000 ≤ a then 0
  else
    match regSpecAt a with
    | none => 0
    | some r =>
      let all := r.fields
      if a / 0x10000 = 0x11 ∨ a = HP_DCP_CFG ∨ a = HP_PTP_RXQ_CTRL ∨ a = HP_PTP_TX_CTRL ∨
          (HP_PTP_TXBUF 0 ≤ a ∧ a ≤ HP_PTP_TXBUF 15) ∨ (instOf (WP_PRB_CTRL 0) 0x20 4 a).isSome ∨
          r.base = LANE_SCAN_CTRL 0 ∨ r.base = LANE_SCAN_CTRL 96 then all
      else if a = PR_CTRL then 6
      else if a = BT_PWR_CTRL then 1
      else if r.base = LY_STAT 0 then 0
      else r.w1c

/-- The authority that a WRITE item needs (R422). -/
def itemLevel (x : WriteItem) : Nat :=
  let blk := x.addr / 0x10000
  if x.addr = FS_SAFE_CTRL then (if x.mask &&& 2 = 0 then 1 else 3)
  else if 0x200000 ≤ x.addr then 2
  else if 0x120000 ≤ x.addr then 0
  else if blk = 0x11 then 1
  else if [0x3, 0x4, 0x5, 0x6, 0x7, 0x8, 0x9, 0xA, 0xC, 0x10].contains blk then 2
  else if blk = 0xE ∧ 0x800 ≤ x.addr % 0x10000 then 2
  else 3

/-- How a WRITE item classifies (R427): it selects no field, unit-local fields alone, critical ones alone, or both. -/
inductive ItemKind where
  | idle | unitLocal | critical | mixed
  deriving DecidableEq, Repr

def itemKind (x : WriteItem) : ItemKind :=
  let sel := x.mask &&& fieldBits x.addr
  let loc := sel &&& localBits x.addr
  if sel = 0 then .idle else if loc = sel then .unitLocal else if loc = 0 then .critical else .mixed

/-- The class of a WRITE: none when it is MIXED, else whether it is critical; with the item that makes it mixed. -/
def writeKind (items : List WriteItem) : Except Nat Bool :=
  let ks := items.map itemKind
  let part := ks.filter (· != .idle)
  match ks.findIdx? (· == .mixed) with
  | some i => .error i
  | none =>
    match part with
    | [] => .ok false
    | k :: _ =>
      match ks.findIdx? fun x => x != .idle && x != k with
      | some i => .error i
      | none => .ok (k == .critical)

/-! One item (R11, R12, R428) -/

/-- A register's word as DCP shows its values: RWS fields by their shadow. -/
def State.held (s : State) (r : RegSpec) (a : Nat) : Nat := mixBits (s.rd a) (s.rdSh a) r.rws

/-- The word an item would make, with its WO bits as commanded. -/
def State.itemWord (s : State) (x : WriteItem) : Nat :=
  if x.addr < 0x120000 then
    match regSpecAt x.addr with
    | none => 0
    | some r => mixBits (s.held r x.addr) x.value (x.mask &&& (r.rw ||| r.rws ||| r.rwl ||| r.wo))
  else mixBits (s.rd x.addr) x.value (x.mask &&& tableMask x.addr)

/-- An item's value limits and the states that refuse it. -/
def State.itemLimit (s : State) (x : WriteItem) : Verdict :=
  let new := s.itemWord x
  if x.addr < 0x120000 then s.limitReg x.addr new x.mask
  else (s.limitTable x.addr new x.mask).orElse' (s.limitCamTable x.addr)

/-- The RWL fields of a register. -/
def RegSpec.lockFields (r : RegSpec) : List Nat :=
  if r.base = MC_CFG then [0x3, 0x4, 0x30] else if r.rwl = 0 then [] else [r.rwl]

/-- RWL fields that an item selects, as keys of those written since reset. -/
def lockKeys (x : WriteItem) : List Nat :=
  match (if x.addr < 0x120000 then regSpecAt x.addr else none) with
  | none => []
  | some r => (r.lockFields.filter fun m => m &&& x.mask != 0).map fun m => x.addr * 32 + m.log2

/-- The values of an item stored: RW and RWL fields, W1C bits cleared, RWS fields in the shadow. -/
def State.itemPut (s : State) (x : WriteItem) : State :=
  if x.addr < 0x120000 then
    match regSpecAt x.addr with
    | none => s
    | some r =>
      let live := mixBits (s.rd x.addr) x.value (x.mask &&& (r.rw ||| r.rwl))
      let s := s.wr x.addr (mixBits live 0 (x.mask &&& x.value &&& r.w1c))
      let s := if r.rws = 0 then s else s.wrSh x.addr (mixBits (s.rdSh x.addr) x.value (x.mask &&& r.rws))
      { s with rwlDone := lockKeys x ++ s.rwlDone }
  else s.wr x.addr (mixBits (s.rd x.addr) x.value (x.mask &&& tableMask x.addr))

/-- What an item sets off in the unit that executes it. -/
def State.itemAct (s before : State) (x : WriteItem) : Nat × State :=
  if 0x120000 ≤ x.addr then (stOk, s)
  else if x.addr / 0x10000 = 0 then actGl x.addr x.mask x.value before s
  else if x.addr = AG_RP_CTRL then
    let w := x.mask &&& x.value
    let r := if bit w 0 then s.replayEnter else (stOk, s)
    if r.1 != stOk then r else if bit w 1 then r.2.replayRun else r
  else s.actReg before x.addr x.mask x.value

/-- An item applied: status, DETAIL, and the state. A critical item enters the tick state copy (R381), except one to
WP_SRC_CTRL (R183). -/
def State.itemApply (s : State) (crit : Bool) (x : WriteItem) : Nat × Nat × State :=
  match s.itemLimit x with
  | some (st, d) => (st, d, s)
  | none =>
    if (lockKeys x).any s.rwlDone.contains then (stBadState, 0, s)
    else
      let word := s.itemWord x
      let s' := s.itemPut x
      let w1c := if x.addr < 0x120000 then ((regSpecAt x.addr).map (·.w1c)).getD 0 else 0
      let s' := if crit && x.addr != WP_SRC_CTRL && itemKind x != .idle then
          s'.copy 1 [x.addr, mixBits word (s'.rd x.addr) w1c] else s'
      let r := s'.itemAct s x
      (r.1, 0, r.2)

/-! A whole command -/

/-- Values that more than one word forms, judged once every item stands: TB_INCR (R206), the adjustment (R207) and a
class's bands (R290); the last item that touched them is named. -/
def State.jointCheck (s : State) (items : List WriteItem) : Option (Nat × Nat × Nat) :=
  let last (p : Nat → Bool) : Option Nat := (idxs items.length fun i => p ((items.getD i ⟨0, 0, 0⟩).addr)).getLast?
  let incr := match last fun a => a == TB_INCR_LO || a == TB_INCR_HI with
    | some i => if incrOk s.tbIncr then none else some (stRange, dtValue, i)
    | none => none
  let adj := match last fun a => a == TB_OFS_ADJ_LO || a == TB_OFS_ADJ_HI with
    | some i => if s.dcp.adjBusy then some (stBusy, 0, i) else none
    | none => none
  let bands := (List.range 8).findSome? fun n =>
    match last fun a => decide (JL_HC_ID n ≤ a) && decide (a < JL_HC_ID n + 0x40) with
    | some i => if bandsOk ((List.range 8).map fun k => s.rd (JL_HC_BAND n k)) then none else some (stRange, dtValue, i)
    | none => none
  incr <|> bands <|> adj

/-- The limits of a command's items on receipt, on a copy of the registers (R417 order 7, R428): only RANGE refuses. -/
def State.itemsCheck (s : State) : List (WriteItem × Nat) → Option Ans × State
  | [] => (none, s)
  | x :: l =>
    match s.itemLimit x.1 with
    | some (st, d) => if st = stRange then (some ⟨st, d, x.2, []⟩, s) else (s.itemPut x.1).itemsCheck l
    | none => (s.itemPut x.1).itemsCheck l

/-- The checks of a WRITE's values on receipt. -/
def State.writeCheck (s : State) (items : List WriteItem) : Option Ans :=
  match s.itemsCheck items.zipIdx with
  | (some a, _) => some a
  | (none, s) =>
    match s.jointCheck items with
    | some (st, d, i) => if st = stRange then some ⟨st, d, i, []⟩ else none
    | none => none

/-- What a refused item leaves behind though nothing of its command applies (R120, R161, R313, R523): `pre` is the state
as the item found it, with its own fields put. -/
def State.refusedItem (s pre : State) (x : WriteItem) (st : Nat) : State :=
  let w := x.mask &&& x.value
  if x.addr = GL_CMT_CTRL then s.cmtRefused pre (bit w 0) st
  else
    match scBar x.addr with
    | some (b, 0x14) => if st = stRejected && bit w 9 then s.armRefused b else s
    | _ => s

/-- Items applied in body order from a state that stays as it was when one refuses. -/
def State.itemsRun (s orig : State) (crit : Bool) : List (WriteItem × Nat) → Ans × State
  | [] => (.ok, s)
  | x :: l =>
    let r := s.itemApply crit x.1
    if r.1 = stOk then r.2.2.itemsRun orig crit l
    else (⟨r.1, r.2.1, x.2, []⟩, orig.refusedItem (s.itemPut x.1) x.1 r.1)

/-- A WRITE executed or committed (R428): all or nothing. -/
def State.writeGo (s : State) (crit : Bool) (items : List WriteItem) : Ans × State :=
  let r := s.itemsRun s crit items.zipIdx
  if r.1.status != stOk then r
  else
    match r.2.jointCheck items with
    | some (st, d, i) => (⟨st, d, i, []⟩, s)
    | none => r

/-- The items of a WRITE body. -/
def itemsOf (body : List Nat) : List WriteItem :=
  (List.range (body.length / 3)).map fun i => ⟨body.getD (3 * i) 0, body.getD (3 * i + 1) 0, body.getD (3 * i + 2) 0⟩

/-- A WRITE's body words. -/
def WriteItem.words (x : WriteItem) : List Nat := [x.addr, x.mask, x.value]

/-! What commands may contradict each other in (R430) -/

/-- A claim of a committed command: register bits with their values, or an object and the way the command acts on it. -/
inductive Claim where
  | bits (addr mask value : Nat)
  | obj (kind a b : Nat) (act : List Nat)
  deriving DecidableEq, Repr

/-- Whether two claims contradict each other. -/
def Claim.clash : Claim → Claim → Bool
  | .bits a m v, .bits a' m' v' => a == a' && ((v ^^^ v') &&& (m &&& m')) != 0
  | .obj k a b x, .obj k' a' b' x' => k == k' && a == a' && b == b' && x != x'
  | _, _ => false

/-- What a WRITE's items make of a word: the bits they select and the values these end with. -/
def itemsMask (items : List WriteItem) (a : Nat) : Nat :=
  ((items.filter (·.addr == a)).map fun x => x.mask &&& fieldBits a).foldl (· ||| ·) 0
def itemsValue (items : List WriteItem) (a old : Nat) : Nat :=
  (items.filter (·.addr == a)).foldl (fun w x => mixBits w x.value (x.mask &&& fieldBits a)) old

/-- Claims of a WRITE: the field bits it selects; an ARM as the apply-at change it makes of the bar's words, INHIBIT and CLEAR as the SAFE
state, SWITCH as the pair role. -/
def State.writeClaims (s : State) (items : List WriteItem) : List Claim :=
  let w (a : Nat) : Nat := itemsValue items a 0
  let regs := items.map fun x => Claim.bits x.addr (x.mask &&& fieldBits x.addr) x.value
  let bars := ((List.range 8).filter fun b => bit (w (SC_BAR_APPLY_CTRL b)) 9).map fun b =>
    Claim.obj 1 b 0 ([SC_BAR_APPLY_LINE b, SC_BAR_APPLY_CTRL b].map fun a => itemsValue items a (s.rd a))
  let safe := if itemsMask items FS_SAFE_CTRL &&& 1 != 0 || bit (w FS_SAFE_CTRL) 1 then
      [itemsMask items FS_SAFE_CTRL &&& 1, w FS_SAFE_CTRL &&& 3] else []
  let role := if bit (w PR_CTRL) 0 then [1] else []
  regs ++ bars ++ (if safe.isEmpty then [] else [.obj 2 0 0 safe]) ++ (if role.isEmpty then [] else [.obj 3 0 0 role])

end Sys2Proof.Machine
end

