-- ==== Sys2Proof/Machine/Boot.lean ====
section
/-! DEFINITION. Start-up, configuration and trim (spec/14), re-arm (spec/15, R480, R481), the pins that reset or power
the core (spec/17, R511, R512, R517), sleep and wake. -/

namespace Sys2Proof.Machine

/-! Power and reset pins -/

/-- The core reset by a pin while it runs; without an answer to what it held (R39). -/
def State.coreReset (s : State) : State := if s.core == .running then s.coreDown .held .boot else s

/-- PWR_GOOD falls (R517). -/
def execPwrGoodFall (t : Nat) (s : State) : Host.Outcome State Fault Refusal :=
  let s := (s.advance t).coreReset
  .next { s with ao := { s.ao with pwrGood := false, lowAt := s.clk } }

/-- TEST_EN high (R511). -/
def execTestEnHigh (t : Nat) (s : State) : Host.Outcome State Fault Refusal :=
  let s := (s.advance t).coreReset
  .next { s with ao := { s.ao with testEn := true } }

/-- RESET_N low (R439). -/
def execResetNLow (t : Nat) (s : State) : Host.Outcome State Fault Refusal :=
  let s := (s.advance t).coreReset
  .next { s with ao := { s.ao with rstN := false, lowAt := s.clk } }

/-- VAO removed: LATCHED, BT_TRIM_CNT, BT_AO_STAT and what else VAO keeps go; the event store stays (R459, R480). -/
def execVaoRemove (t : Nat) (s : State) : Host.Outcome State Fault Refusal :=
  let s := (s.advance t).coreDown .unpowered .off
  let n := s.get PW_SHUT_STAT_NV_COUNT
  let s := { s with words := skeep (fun a => decide (0x1C00000 ≤ a)) s.words }
  let s := s.put PW_SHUT_STAT_NV_COUNT n
  .next { s with ao := { AlwaysOn.reset with vao := false, pwrEn := false, nvReported := s.ao.nvReported } }

/-- VAO applied: PWR_EN rises 1 ms later, a cold start (R461). -/
def execVaoApply (t : Nat) (s : State) : Host.Outcome State Fault Refusal :=
  let s := s.advance t
  if s.ao.vao then .next s
  else .next { s with ao := { s.ao with vao := true, pwrEn := true, riseAt := s.clk + 1000000, cause := 0, rose := true } }

/-- WAKE_N low for 50 µs while VDD_CORE is absent (R461): PWR_EN rises, no sooner than 10 ms after it fell. -/
def execWake (t : Nat) (s : State) : Host.Outcome State Fault Refusal :=
  let s := s.advance t
  if s.core == .unpowered && s.ao.vao && !s.ao.pwrEn then
    .next { s with ao := { s.ao with
      pwrEn := true, riseAt := max s.clk (s.ao.pwrEnFell + 10000000), cause := if s.ao.thermTrip then 3 else 1
      rose := true } }
  else .next s

/-- 1 ms after SLEEP executed (R460): the core stops; the always-on domain counts the sleep. -/
def execSleepPwrEnFall (t : Nat) (s : State) : Host.Outcome State Fault Refusal :=
  run t (fun s =>
    match s.pwr.sleepAt with
    | some a => if s.past a 1000000 then (s.inc BT_AO_STAT_SLEEPS).pwrEnFall .deepSleep else s
    | none => s) s

/-- Whether the core may be released: 1 ms has passed since RESET_N or PWR_GOOD was last low (R439), as PWR_GOOD is until PWR_EN has
risen (log 41), and no SHUTDOWN still waits for PWR_EN to fall (R477). -/
def State.releasable (s : State) : Bool :=
  s.core != .running && s.ao.vao && s.ao.pwrEn && s.ao.fallAt.isNone && decide (max s.ao.riseAt s.ao.lowAt + 1000000 ≤ s.clk)

/-- The release of RESET_N (R439, R440): 1 ms with RESET_N and PWR_GOOD high, and TEST_EN low, on a powered core. FRC starts
(R203), the straps are sampled, BOOT_NONCE is drawn, never 0 (R415), and the cause of the start is recorded (R461). -/
def execResetRelease (t : Nat) (pairEn unitId mode : Bool) (nonce : Nat) (s : State) : Host.Outcome State Fault Refusal :=
  let s := s.advance t
  if !s.releasable || nonce % 2 ^ 64 == 0 then .next s
  else
    let s := s.coreDown .running .boot
    let rose := s.ao.rose
    let cause := if rose then s.ao.cause else 2
    let s := { s with
      frc0 := s.clk, pairEn := pairEn, unitId := unitId, modeStrap := mode
      ao := { s.ao with rstN := true, pwrGood := true, testEn := false, lowVdd := false, rose := false } }
    let s := (s.wr HP_BOOT_NONCE_LO nonce).wr HP_BOOT_NONCE_HI (nonce / 2 ^ 32)
    let s := ((s.flag BT_BOOT_STAT_PAIR_EN pairEn).flag BT_BOOT_STAT_UNIT_ID unitId).flag BT_BOOT_STAT_MODE mode
    let s := (s.flag GL_ROLE_STAT_PAIR_EN pairEn).flag GL_ROLE_STAT_UNIT_ID unitId
    let s := s.put BT_AO_STAT_WAKE_CAUSE cause
    .next (settle (if rose then s.raise 0x180A 0 cause 0 else s))

/-! Pins and the TAP -/

/-- IRQ_N is driven low (R436): an event's subject stands in EV_IRQ_STAT and in EV_IRQ_MASK; released until CONFIGURED (R441). -/
def State.irqLow (s : State) : Bool :=
  s.core == .running && s.base != .boot && s.base != .trim && s.get ⟨EV_IRQ_STAT, 8, 0⟩ &&& s.get ⟨EV_IRQ_MASK, 8, 0⟩ != 0

/-- The pins of R502 whose levels the state holds. -/
inductive Pin where
  | barEn (b : Nat) | fireInhN | speedReq | stbSense (b : Nat) | wasteMark (n : Nat) | enc (n k : Nat) | enco (n k : Nat)
  | pwrEn | thermTripN | supplyWarnN | irqN | unitId | pairEn | mode
  deriving DecidableEq, Repr

/-- They in R502's order, which is that of their boundary cells (log 42). -/
def pinsOf : List Pin :=
  (List.range 8).map .barEn ++ [.fireInhN, .speedReq] ++ (List.range 8).map .stbSense ++ (List.range 2).map .wasteMark ++
    (List.range 12).map (fun i => .enc (i / 3) (i % 3)) ++ (List.range 6).map (fun i => .enco (i / 3) (i % 3)) ++
    [.pwrEn, .thermTripN, .supplyWarnN, .irqN, .unitId, .pairEn, .mode]

/-- Whether the unit drives a pin: the others are its inputs. -/
def Pin.output : Pin → Bool
  | .barEn _ | .speedReq | .wasteMark _ | .enco _ _ | .pwrEn | .thermTripN | .supplyWarnN | .irqN => true
  | .fireInhN | .stbSense _ | .enc _ _ | .unitId | .pairEn | .mode => false

/-- One of an encoder's three lines. -/
def lineAt (x : Bool × Bool × Bool) (k : Nat) : Bool := if k = 0 then x.1 else if k = 1 then x.2.1 else x.2.2

/-- A pin's level in its normal function: none where an open-drain output is released (R506); an ENCO line at high impedance stands
as its bus keeper holds it (R508). -/
def State.pinLevel (s : State) (p : Pin) : Option Bool :=
  let low (c : Bool) : Option Bool := if c then some false else none
  match p with
  | .barEn b => some (s.barEn b)
  | .fireInhN => some s.fire.inhPin
  | .speedReq => some (s.is PG_SPDREQ_STAT_PIN)
  | .stbSense b => some (bit s.fire.stbSense b)
  | .wasteMark n => some (if n = 0 then s.fire.waste0 else s.fire.waste1)
  | .enc n k => let e := s.enc n; some (lineAt (e.a, e.b, e.z) k)
  | .enco n k => some (lineAt (s.encoPins n) k)
  | .pwrEn => some s.ao.pwrEn
  | .thermTripN => low s.ao.thermTrip
  | .supplyWarnN => low (s.is PW_TEMP_SUPPLY_WARN)
  | .irqN => low s.irqLow
  | .unitId => some s.unitId
  | .pairEn => some s.pairEn
  | .mode => some s.modeStrap

/-- Whether the TAP has taken over the pins (R512). -/
def State.tapPins (s : State) : Bool :=
  (match s.tap with
    | .extest _ | .highz | .clamp => true
    | .bypass | .sample _ | .idcode => false) && s.core == .running && s.base == .configured && s.is GL_ROLE_STAT_SERVICE

/-- A pin's level as it stands (R512): EXTEST and CLAMP drive an output from its cell, HIGHZ leaves it undriven, and a BAR_EN cell
drives low in each; an ENCO line left undriven keeps its level (R508). -/
def State.pin (s : State) (p : Pin) : Option Bool :=
  if s.tapPins && p.output then
    match p with
    | .barEn _ => some false
    | .enco n k => if s.tap = .highz then some (lineAt (s.web.pins.getD n (false, false, false)) k)
      else some (s.cells.getD (pinsOf.findIdx (· == p)) false)
    | _ => if s.tap = .highz then none else some (s.cells.getD (pinsOf.findIdx (· == p)) false)
  else s.pinLevel p

/-- An instruction shifted into the TAP (R512): IDCODE gives GL_DEV_ID; SAMPLE/PRELOAD and EXTEST shift the pins' levels out and the
cells' next values in. -/
def execTapInstruction (t : Nat) (i : TapInstr) (s : State) : Host.Outcome State Fault Refusal :=
  let s := s.advance t
  let s := match i with
    | .idcode => s.emit (.tapId (s.rd GL_DEV_ID))
    | .sample c | .extest c => { s.emit (.tapScan (pinsOf.map s.pin)) with cells := c }
    | .bypass | .highz | .clamp => s
  .next { s with tap := i }

/-! The configuration image (R447–R451) -/

/-- `n` bytes of the flash. -/
def State.rdFlash (s : State) (a n : Nat) : List Byte := sgets flashReset s.flash a n

/-- Where an image slot lies, 0 A and 1 B (R447). -/
def slotBase (k : Nat) : Nat := if k = 0 then 0 else 0x1000000

/-- A header's fields (R448). -/
structure ImgHdr where
  bytes : List Byte
  keySlot : Nat
  unkeyed : Bool
  seq : Nat
  rawLen : Nat
  build : Nat
  strips : Nat
  storedLen : Nat
  check : List Byte
  deriving DecidableEq, Repr

def ImgHdr.parse (h : List Byte) : ImgHdr :=
  let w := leAt h 4 4
  ⟨h, bits w 10 8, bit w 12, leAt h 8 4, leAt h 12 4, leAt h 16 4, leAt h 24 2, leAt h 28 4, slice h 32 32⟩

/-- Whether a RAW_LEN is allowed. -/
def rawLenOk (n : Nat) : Bool := n % 4096 == 0 && decide (4096 ≤ n) && decide (n ≤ 15728640)

/-- What is wrong with a header, as BT_BOOT_STAT codes it; 0 nothing. -/
def ImgHdr.reason (h : ImgHdr) : Nat :=
  let w := leAt h.bytes 4 4
  if leAt h.bytes 0 4 ≠ 0xD968C0F1 ∨ bits w 7 0 ≠ 1 ∨ bit w 11 ∨ bits w 31 13 ≠ 0 ∨ leAt h.bytes 20 4 ≠ 0 ∨
      leAt h.bytes 26 2 ≠ 0 ∨ (slice h.bytes 68 60).any (· != 0) then 1
  else if leAt h.bytes 64 4 ≠ crc32c (h.bytes.take 64) then 2
  else if !rawLenOk h.rawLen ∨ h.strips ≠ cdiv h.rawLen 131072 ∨ 0x1000000 - 128 < h.storedLen then 3
  else 0

/-- The geometry of strip j of a body (R449): as R91 has it, a last strip of fewer than 32 lines is FLUSHED. -/
def imgGeom (rawLen j : Nat) : StripGeom :=
  let lines := rawLen / 4096
  ⟨3, 4095, min 32 (lines - 32 * j) - 1, decide (lines ≤ 32 * (j + 1)), decide (lines < 32 * (j + 1))⟩

/-- The body read from a slot: strips from an offset, each on a 4-byte boundary; none when one is in error, with the
offset after the last. -/
def State.imgBody (s : State) (k rawLen : Nat) : Nat → Nat → Nat → Option (List Byte × Nat)
  | 0, _, off => some ([], off)
  | n + 1, j, off =>
    let at_ := slotBase k + (off + 3) / 4 * 4
    let h := StripHdr.parse (s.rdFlash at_ 16)
    let g := imgGeom rawLen j
    let r := decodeStrip g (s.rdFlash at_ (16 + h.payloadLen))
    if r.reason ≠ 0 then none
    else
      (s.imgBody k rawLen n (j + 1) ((off + 3) / 4 * 4 + 16 + h.payloadLen)).map fun x =>
        (rawForm g.bps g.widthM1 g.linesM1 r.samples ++ x.1, x.2)

/-- Little-endian words of a byte list. -/
def bytesWords : List Byte → List Nat
  | a :: b :: c :: d :: r => leNat [a, b, c, d] :: bytesWords r
  | _ => []

/-- The records before END: TYPE and data (R450); none where one reaches past the body, a TYPE is unknown or END is
missing. -/
def imgRecords : Nat → List Nat → Option (List (Nat × List Nat))
  | 0, _ => none
  | _, [] => none
  | k + 1, h :: r =>
    let n := h % 2 ^ 24
    if 3 < h / 2 ^ 24 ∨ r.length < n then none
    else if h / 2 ^ 24 = 0 then some []
    else (imgRecords k (r.drop n)).map ((h / 2 ^ 24, r.take n) :: ·)

/-- A body's records, none for an invalid body: two MASTER records, or one whose words its layout does not allow. -/
def imgParse (body : List Byte) : Option (List (Nat × List Nat)) :=
  let ws := bytesWords body
  (imgRecords (ws.length + 1) ws).filter fun l =>
    decide ((l.filter (·.1 == 3)).length ≤ 1) && l.all fun r =>
      (r.1 != 3 || r.2.length == 4) && (r.1 != 1 || r.2.length % 2 == 0) && (r.1 != 2 || !r.2.isEmpty)

/-- HP_MSTn_CFG from a MASTER_SET word (R423). -/
def masterWord (w : Nat) : Nat := b2n (bit w 8) + bits w 18 16 * 16 + bits w 25 24 * 256

/-- The master table an image leaves: its MASTER record, or the reset table (R419). -/
def imgMasters (l : List (Nat × List Nat)) : List Nat :=
  match l.find? (·.1 == 3) with
  | some r => r.2.map masterWord
  | none => [0x301, 0, 0, 0]

/-- Whether every key slot is BLANK. -/
def State.keysBlank (s : State) : Bool := s.get HP_KEY_STAT_STATE == 0

/-- What is wrong with a body and its CHECK over header bytes 0–23 and the body (R450, R451); 0 nothing. -/
def State.checkReason (s : State) (head : List Byte) (keySlot : Nat) (unkeyed : Bool) (check body : List Byte) : Nat :=
  let msg := head ++ body
  let keyed : Bool := s.keyState keySlot == 1
  let good := if unkeyed then check == leBytes 4 (crc32c msg) ++ List.replicate 28 0
    else check == hmacSha256 (beBytes 32 (s.otp.keys.getD keySlot 0)) msg
  if (unkeyed && !s.keysBlank) || (!unkeyed && !keyed) then 7
  else if !good then 5
  else
    match imgParse body with
    | none => 6
    | some l =>
      if unkeyed || (imgMasters l).any fun m => bit m 0 && bits m 6 4 == keySlot && bits m 9 8 == 3 then 0 else 7

/-- A slot with a good header read, decoded, checked and parsed (R452): its reason and records. -/
def State.slotRead (s : State) (k : Nat) (h : ImgHdr) : Nat × List (Nat × List Nat) :=
  match s.imgBody k h.rawLen h.strips 0 128 with
  | none => (4, [])
  | some (body, end_) =>
    if end_ - 128 ≠ h.storedLen then (3, [])
    else
      let r := s.checkReason (h.bytes.take 24) h.keySlot h.unkeyed h.check body
      (r, if r = 0 then (imgParse body).getD [] else [])

def State.imgHdr (s : State) (k : Nat) : ImgHdr := ImgHdr.parse (s.rdFlash (slotBase k) 128)

/-- The slots' reasons and the slot and records chosen (R452). -/
def State.imgChoose (s : State) : Nat × Nat × Option (Nat × List (Nat × List Nat)) :=
  let a := s.imgHdr 0
  let b := s.imgHdr 1
  let ra := a.reason
  let rb := b.reason
  let tryA : Nat × List (Nat × List Nat) := s.slotRead 0 a
  let tryB : Nat × List (Nat × List Nat) := s.slotRead 1 b
  if ra ≠ 0 ∧ rb ≠ 0 then (ra, rb, none)
  else if ra ≠ 0 then (ra, tryB.1, if tryB.1 = 0 then some (1, tryB.2) else none)
  else if rb ≠ 0 then (tryA.1, rb, if tryA.1 = 0 then some (0, tryA.2) else none)
  else if a.seq < b.seq then
    if tryB.1 = 0 then (8, 0, some (1, tryB.2))
    else (tryA.1, tryB.1, if tryA.1 = 0 then some (0, tryA.2) else none)
  else if tryA.1 = 0 then (0, 8, some (0, tryA.2))
  else (tryA.1, tryB.1, if tryB.1 = 0 then some (1, tryB.2) else none)

/-! Records applied (R445, R47, R453) -/

/-- A record's write refused. -/
def State.recRefused (s : State) (a : Nat) : State := (s.addSat BT_IMG_REFUSED_COUNT 1).raise 0x1804 0 a 0

/-- Least sizes of the regions in MiB, and of the strip pool (R46). -/
def regionMin : List Nat := [64, 64, 1, 0, 256, 128, 0]

/-- Data capacity in GiB of the devices MC_CFG names (R41): 16, 24 or 32 GiB of x16 devices, twice that of x8. -/
def State.capGib (s : State) : Nat :=
  [16, 24, 32].getD (s.get MC_CFG_DENSITY) 0 * (if s.is MC_CFG_DEV_X16 then 1 else 2)

/-- Whether a region size may be set with the others in force in a store of the capacity now named (R47, log 52). -/
def State.sizeOk (s : State) (i v : Nat) : Bool :=
  let sum := ((List.range 7).map fun k => if k = i then v else s.get (MC_RGN_SIZE_SIZE_MIB k)).sum
  decide (regionMin.getD i 0 ≤ v) && decide (sum + 4096 ≤ s.capGib * 1024)

/-- The MAC address registers. -/
def macReg (a : Nat) : Bool := a == HP_MP_MAC_LO || a == HP_MP_MAC_HI || a == HP_DP_MAC_LO || a == HP_DP_MAC_HI

/-- The bits of a register that an image's value may change: all its writable ones, or, where a limit refuses that word, those of the
fields that it accepts one after the other (R453). -/
def State.imgBits (s : State) (r : RegSpec) (a v : Nat) : Nat :=
  let fits (m : Nat) : Bool := (s.limitReg a (mixBits (s.held r a) v m) m).isNone
  if fits r.writable then r.writable else r.pieces.foldl (fun m f => if fits (m ||| f) then m ||| f else m) 0

/-- A REG pair (R453): an unmasked write of every field; a refused one leaves its field alone. -/
def State.imgReg (s : State) (a v : Nat) : State :=
  match (if a % 4 = 0 ∧ a < 0x120000 then regSpecAt a else none) with
  | none => s.recRefused a
  | some r =>
    let m := r.writable
    if m = 0 ∨ (macReg a ∧ v &&& m = 0) then s
    else
      let bad := match instOf (MC_RGN_SIZE 0) 8 7 a with
        | some i => if s.sizeOk i (v % 65536) then none else some i
        | none => none
      match bad with
      | some i => (s.recRefused a).raise 0x3107 i (v % 65536) 0
      | none =>
        let done := r.lockFields.filter fun f => s.rwlDone.contains (a * 32 + f.log2)
        let k := done.foldl (fun m f => m - (m &&& f)) (s.imgBits r a v)
        let s := if k = m then s else s.recRefused a
        let s := s.itemPut ⟨a, k, v⟩
        s.wr a (mixBits (s.rd a) v (k &&& r.rws))

/-- A WIN record (R453): refused whole where TABLE_LOAD's checks refuse a word. -/
def State.imgWin (s : State) (l : List Nat) : State :=
  let base := l.headD 0
  let ws := (l.drop 1).zipIdx.map fun w => (base + 4 * w.2, w.1)
  let bad (w : Nat × Nat) : Bool :=
    w.1 % 4 != 0 || !rwWindow w.1 || (s.limitTable w.1 w.2 0xFFFFFFFF).isSome || (s.limitCamTable w.1).isSome
  if ws.any bad then s.recRefused base
  else s.each ws fun s w => s.wr w.1 (mixBits (s.rd w.1) w.2 (tableMask w.1))

/-- A record applied. -/
def State.imgRecord (s : State) (r : Nat × List Nat) : State :=
  match r.1 with
  | 1 => s.each (addrPairs r.2) fun s p => s.imgReg p.1 p.2
  | 2 => s.imgWin r.2
  | 3 => s.each r.2.zipIdx fun s w => s.wr (HP_MST_CFG w.2) (masterWord w.1)
  | _ => s

/-- Values that several words form, judged once every record stands: TB_INCR and a class's bands; a pair or class out of
its limits returns to its values before the image. -/
def State.imgJoint (s before : State) : State :=
  let s := if incrOk s.tbIncr then s
    else ((s.wr TB_INCR_LO (before.rd TB_INCR_LO)).wr TB_INCR_HI (before.rd TB_INCR_HI)).recRefused TB_INCR_LO
  s.each (List.range 8) fun s n =>
    if bandsOk ((List.range 8).map fun k => s.rd (JL_HC_BAND n k)) then s
    else (s.each (List.range 8) fun s k => s.wr (JL_HC_BAND n k) (before.rd (JL_HC_BAND n k))).recRefused (JL_HC_BAND n 0)

/-- What settings an image brings set off once: the rate, the emulated outputs, INHIBIT and FORCE. -/
def State.imgFollow (s before : State) : State :=
  let s := (s.setRate s.tbIncr).encoOrigin before
  let s := if s.is FS_SAFE_CTRL_INHIBIT then s.safeSet 1 else s
  if s.is PG_SPDREQ_CTRL_FORCE then (s.flag PG_SPDREQ_STAT_FORCED true).spdShow else s

/-! The steps of a start (R442) -/

/-- OTP read (R418, R444). -/
def State.otpRead (s : State) (faults : List Nat) : State :=
  let state (i : Nat) : Nat := if faults.contains i then 3 else s.otp.keyState.getD i 0
  let s := s.put HP_KEY_STAT_STATE ((List.range 8).map fun i => state i * 4 ^ i).sum
  (s.wr BT_OTP_SERIAL_LO s.otp.serial).wr BT_OTP_SERIAL_HI (s.otp.serial / 2 ^ 32)

/-- An RWL register written first by the unit itself. -/
def State.lockPut (s : State) (a v : Nat) : State :=
  { s.wr a v with rwlDone := lockKeys ⟨a, 0xFFFFFFFF, v⟩ ++ s.rwlDone }

/-- A port's MAC address taken from OTP while both its halves are 0; otherwise both count as written (R445). -/
def State.macFill (s : State) (lo hi mac : Nat) : State :=
  if s.rd lo = 0 ∧ s.rd hi = 0 then (s.lockPut lo mac).lockPut hi (mac / 2 ^ 32 % 65536)
  else (s.lockPut lo (s.rd lo)).lockPut hi (s.rd hi)

def State.macsFill (s : State) : State :=
  (s.macFill HP_MP_MAC_LO HP_MP_MAC_HI s.otp.mac).macFill HP_DP_MAC_LO HP_DP_MAC_HI (s.otp.mac + 1)

/-- A start without an image (R454). -/
def State.serviceBoot (s : State) : State :=
  let ip := s.otp.svcIp4
  let s := (s.macsFill.lockPut HP_MP_IP4 (ip + b2n s.unitId)).lockPut HP_DP_IP4 (ip + 2 + b2n s.unitId)
  (s.flag GL_ROLE_STAT_SERVICE true).put BT_BOOT_STAT_SLOT 2

/-- The chosen image applied (R453, R445). -/
def State.imageBoot (s : State) (k : Nat) (l : List (Nat × List Nat)) : State :=
  let h := s.imgHdr k
  let before := s
  let s := ((s.put BT_BOOT_STAT_SLOT k).wr BT_IMG_SEQ h.seq).wr BT_IMG_BUILD h.build
  let s := ((s.each l State.imgRecord).imgJoint before).imgFollow before
  s.macsFill.raise 0x1801 k h.seq 0

/-- The boot from flash or without it (R440, R452, R454). -/
def State.bootImage (s : State) (b : BootInputs) : State :=
  if s.modeStrap then (s.serviceBoot.flag BT_BOOT_STAT_SERVICE true).put ⟨BT_BOOT_STAT, 11, 4⟩ 0x88
  else
    let c := if b.flashOk then s.imgChoose else (8, 8, none)
    let s := (s.put BT_BOOT_STAT_A_REASON c.1).put BT_BOOT_STAT_B_REASON c.2.1
    let s := if c.1 != 0 && c.1 != 8 then s.raise 0x1802 0 c.1 0 else s
    let s := if c.2.1 != 0 && c.2.1 != 8 then s.raise 0x1802 1 c.2.1 0 else s
    match c.2.2 with
    | some (k, l) => s.imageBoot k l
    | none => (s.serviceBoot.flag BT_BOOT_STAT_FALLBACK true).raise 0x1803 0 0 0

/-- Regions laid out from the sizes in force, which counts as each size's first write (R46, R47). -/
def State.regionsLay (s : State) : State :=
  let size (i : Nat) : Nat := s.get (MC_RGN_SIZE_SIZE_MIB i)
  let base (i : Nat) : Nat := ((List.range i).map size).sum
  let s := s.each ((List.range 8).map fun i => (i, base i)) fun s x => s.put (MC_RGN_BASE_BASE_MIB x.1) x.2
  let s := s.each ((List.range 7).map fun i => (i, size i)) fun s x => s.lockPut (MC_RGN_SIZE x.1) x.2
  s.wr (MC_RGN_BASE 7 + 4) (s.capGib * 1024 - base 7)

/-- The diode trimmed and the thermal model started (R456, R467). -/
def State.diodeTrim (s : State) (b : BootInputs) : State :=
  let fall := if s.otp.trimFOk then s
    else ((s.flag BT_TRIM_STAT_OTP_FALLBACK true).flag GL_DEGRADED_TRIM true).raise 0x1808 0 0 0
  let s := fall
  let amb : Rat := if b.diodeOk then (b.diode : Rat) / 10 - s.rise else (s.get PW_MODEL_CFG_AMB_INIT : Nat)
  let s := { s with pwr := { s.pwr with tamb := amb, tm := amb + s.rise } }
  let s := (s.sput PW_SENSE_DIODE b.diode).sput PW_SENSE_MODEL (tenths s.pwr.tm)
  if b.diodeOk then s.tempPut b.diode
  else
    let s := ((s.flag BT_TRIM_STAT_DIODE_FAIL true).flag PW_TEMP_DIODE_FAIL true).flag PW_TEMP_SOURCE true
    (s.raise 0x1104 0 0 0).tempPut (tenths s.pwr.tm + 80)

/-- A value as trim leaves it (R457), from its factory set and what was measured, for the temperature of the trim. -/
def trimItem (now : Nat) (v : Int) (f : TrimSet) (measured : Option Int) : TrimItem :=
  let x : TrimItem := ⟨f.item, f.part, f.fCold, f.fMid, f.fHot, 0, 0, 0, now⟩
  let x := ({ x with d := match measured with
      | some k => k - x.factory v
      | none => 0 }).codeAt v
  { x with used := x.code }

/-- The SD_CAL ball that calibrates a lane (R514). -/
def calOf (l : Nat) : Nat := if l < 96 then l / 16 else 6

/-- The lanes whose trim fails: those the start names, and every lane of a group with no resistor (R456, R514). -/
def lanesFailed (b : BootInputs) : List Nat := idxs 100 fun l => b.laneFails.contains l || b.calMissing.contains (calOf l)

/-- Whether the trim of a value failed, so that its factory values are used (R456). -/
def partFailed (b : BootInputs) : TrimPart → Bool
  | .offset l | .serdes l | .ctle l | .tap l _ => (lanesFailed b).contains l
  | .core => !b.delayOk
  | .ddr => false

/-- Every value trimmed at a temperature: from TRIM_F's sets, or the generic ones where its CRC fails (R446, R456, R457). -/
def State.trimsMade (s : State) (b : BootInputs) (v : Int) : List TrimItem :=
  (if s.otp.trimFOk then s.otp.trimF else Config.genericTrims).map fun f =>
    trimItem s.now v f (if partFailed b f.part then none
      else (b.values.find? fun (m : TrimMeasure) => m.item == f.item && m.part == f.part).map TrimMeasure.measured)

/-- The rest of trim (R456, R459). -/
def State.trimRun (s : State) (b : BootInputs) : State :=
  let v := s.sget PW_TEMP_T
  let s := if b.delayOk then s else (s.flag BT_TRIM_STAT_DELAY_FAIL true).flag GL_DEGRADED_TRIM true
  let fails := lanesFailed b
  let s := s.each fails fun s l =>
    ((s.setBitOf (BT_TRIM_FAIL_LANE (l / 32)) (l % 32) true).flag GL_DEGRADED_TRIM true).raise 0x1806 l 0 0
  let s := s.put BT_TRIM_STAT_FAILED_LANES fails.length
  let s := if b.ddrOk then (s.put MC_STAT_CAP_GIB s.capGib).flag MC_STAT_TRAINED true
    else ((s.flag BT_TRIM_STAT_DDR_FAIL true).flag GL_DEGRADED_TRIM true).raise 0x1807 0 0 0
  let s := s.printRateShow
  let s := { s with pwr := { s.pwr with railAt := List.replicate 8 s.now } }
  let s := { s with mem := [], pwr := { s.pwr with trims := s.trimsMade b v } }
  let done := s.now - b.trimAgo
  let s := ((s.flag BT_TRIM_STAT_DONE true).inc BT_TRIM_CNT_COUNT).wr BT_TRIM_LAST_LO done
  ((s.wr BT_TRIM_LAST_HI (done / 2 ^ 32)).sput BT_TRIM_TEMP_T0 v).sput BT_TRIM_TEMP_T_APPLIED v

/-- Event store entries appended since the previous start reported; a full store is reported at each start (R478, R479). -/
def State.storeReport (s : State) : State :=
  let n := s.get PW_SHUT_STAT_NV_COUNT
  let s := s.each ((List.range n).drop s.ao.nvReported) fun s i => s.raise (bits (s.rd (storeWin i)) 15 0) 0 i 0
  let s := { s with ao := { s.ao with nvReported := n } }
  if n = 1024 then (s.flag PW_SHUT_STAT_NV_FULL true).raise 0x110D 0 0 0 else s

/-- CONFIGURED entered and left for PAIRING or SINGLE (R443, R481). -/
def State.configuredEnter (s : State) (b : BootInputs) : State :=
  let s := s.setBase .configured
  let s := (s.raise 0x1805 0 (s.now / 1000000) 0).storeReport
  let s := if s.is PW_SHUT_STAT_LATCHED then (s.flag FS_SAFE_CTRL_INHIBIT true).safeSet 1 else s
  let s := s.autoArm
  let s := s.each (idxs 100 fun l => s.is (LANE_CFG_EN l) && s.mayTrain l) fun s l => s.laneDetect l false
  if s.is GL_ROLE_STAT_SERVICE || !b.ddrOk then s
  else if s.pairEn then s.pairingStart
  else (({ s with pair := { s.pair with holdsSeq := true } }).setBase .single).setClaim 1 32

/-- Whether a start is refused (R480). -/
def State.rearmRefused (s : State) (b : BootInputs) : Bool :=
  s.is PW_SHUT_STAT_LATCHED && (!b.diodeOk || decide (10 * (s.get PW_TRIP_CFG_REARM : Nat) ≤ s.sget PW_TEMP_T))

/-- From BOOT to CONFIGURED and on (R442). -/
def State.bootRun (s : State) (b : BootInputs) : State :=
  let s := ((s.otpRead b.keyFaults).bootImage b).setBase .trim
  let s := s.diodeTrim b
  if s.rearmRefused b then
    let s := (s.storeAppend (s.storeWords 0x1108 false)).inc PW_SHUT_STAT_REARM_REFUSED
    s.pwrEnFall .off
  else
    let s := { s with ao := { s.ao with thermTrip := false } }
    (s.trimRun b).regionsLay.configuredEnter b

/-- CONFIGURED_ENTRY (R442, R443). -/
def execConfiguredEntry (t : Nat) (b : BootInputs) (s : State) : Host.Outcome State Fault Refusal :=
  run t (fun s => if s.base == .boot then s.bootRun b else s) s

end Sys2Proof.Machine
end

