-- ==== Sys2Proof/Machine/View.lean ====
section
/-! DEFINITION. What the host reads: a word as a READ samples it (R11, R13, R429, R524, R525), IDENTIFY (R424) and
EVENT_READ (R434). -/

namespace Sys2Proof.Machine

/-! Words -/

/-- A table or object window that a READ may read (R524). -/
def readWindow (a : Nat) : Bool :=
  (decide (0x200000 ≤ a) && decide (a < 0x820000)) || (decide (0x900000 ≤ a) && decide (a < 0x1100000)) ||
    (decide (0x1200000 ≤ a) && decide (a < 0x1206000)) || (decide (0x1400000 ≤ a) && decide (a < 0x1680000)) ||
    (decide (0x1800000 ≤ a) && decide (a < 0x1B00000)) || (decide (0x1C00000 ≤ a) && decide (a < 0x1C04000)) ||
    (decide (0x1D00000 ≤ a) && decide (a < 0x1D01000)) || (decide (0x1D10000 ≤ a) && decide (a < 0x1D30000)) ||
    (decide (0x1D40000 ≤ a) && decide (a < 0x1D41000))

/-- PW_SUP_STAT as read: VDD_MV follows the supply every 10 µs (R482), so it is free but for the 10 µs of a measurement that a command
brought (log 40). -/
def State.vddView (s : State) : Nat :=
  if s.clk / 10000 = s.pwr.vddAt / 10000 then s.rd PW_SUP_STAT
  else setBits (s.rd PW_SUP_STAT) PW_SUP_STAT_VDD_MV.hi PW_SUP_STAT_VDD_MV.lo (Config.vddNow (s.clk / 10000)).toNat

/-- BT_IMG_WR_STAT as read while an operation runs: the phases after the last strip, header and read-back, and how far an erase or a
read-back has come, follow the flash, whose times are free (R455, log 42). -/
def State.imgView (s : State) : Nat :=
  let w := s.rd BT_IMG_WR_STAT
  match s.dcp.imgOp with
  | none => w
  | some o =>
    let whole := !o.erase && !o.failed && o.strips ≤ o.next
    let w := if whole then setBits w BT_IMG_WR_STAT_PHASE.hi BT_IMG_WR_STAT_PHASE.lo (if Config.readsBack s.clk then 4 else 3) else w
    if whole || bits w BT_IMG_WR_STAT_PHASE.hi BT_IMG_WR_STAT_PHASE.lo == 1 then
      setBits w BT_IMG_WR_STAT_PROGRESS.hi BT_IMG_WR_STAT_PROGRESS.lo (Config.flashDone s.clk).toNat
    else w

/-- Words that show what the unit computes when they are read, of registers that stand alone. -/
def State.viewOne (s : State) (a : Nat) : Option Nat :=
  if a = TB_FRC_LO then some s.frc
  else if a = TB_FRC_HI then some (s.frc / 2 ^ 32)
  else if a = TB_TIME_LO then some s.now
  else if a = TB_TIME_HI then some (s.now / 2 ^ 32)
  else if a = TB_TIME_FRAC then some s.nowFrac
  else if a = TB_OFS_REMAIN then some (unsgn 32 (tdv s.remNow nsU))
  else if a = GL_TICK then some s.tick
  else if a = FS_PIN_STAT then some s.pinView
  else if a = PW_SUP_STAT then some s.vddView
  else if a = BT_IMG_WR_STAT then some s.imgView
  else if a = PG_PAIR_HOLD then some s.pairHoldView
  else if a = PR_HB_CNT then some s.hbCntView
  else if HP_PTP_RXE 0 ≤ a ∧ a < HP_PTP_RXE 0 + 0x50 then some (s.rxEntryWord ((a - HP_PTP_RXE 0) / 4))
  else none

/-- Words that show what the unit computes when they are read, of registers with instances. -/
def State.viewMany (s : State) (a : Nat) : Option Nat :=
  ((laneOf 0x18 a).filter fun l => s.inL0 l).map (fun l => s.get (LANE_RXEQ_CTLE l) + (Config.dfeNow l s.clk).toNat * 16) <|>
  ((instOf (WP_ENCO_STAT 0) 0x20 2 a).map fun n =>
    setBits (s.rd a) (WP_ENCO_STAT_LAG n).hi (WP_ENCO_STAT_LAG n).lo (min (s.encoLag n) 65535)) <|>
  ((instOf (JL_OUT 0) 0x100 96 a).map s.jlOutView) <|>
    ((instOf (SC_BAR_EFFMAX 0) 0x800 8 a).map s.effMax) <|>
    ((instOf (BY_BAR_RESID 0) 0x100 8 a).map s.residView) <|>
    ((instOf (LANE_TXEQ 0) 0x100 96 a).map s.txeqView) <|>
    ((instOf (LANE_TXEQ 96) 0x100 4 a).map fun k => s.txeqView (96 + k)) <|>
    ((List.range 4).findSome? fun k => (instOf (WP_PRB_TIME_LO 0 + 4 * k) 0x20 4 a).map fun n => s.probeWord n k)

/-- A word as a READ samples it; none at an unoccupied address. -/
def State.view (s : State) (a : Nat) : Option Nat :=
  if a % 4 ≠ 0 then none
  else if s.eyeHides a then some (s.rd (eyeBase 0 + (a - 0xC00000)))
  else if a < 0x120000 then
    match regSpecAt a with
    | none => none
    | some r =>
      match s.viewOne a <|> s.viewMany a with
      | some v => some (v % 2 ^ 32)
      | none => some (s.held r a &&& (0xFFFFFFFF ^^^ r.wo))
  else if readWindow a then some (s.rd a)
  else none

/-- READ (R429): words at unoccupied addresses read 0, and the first of them is named. -/
def State.readWords (body : List Nat) (s : State) : Ans × State :=
  let a := body.getD 0 0
  let s := s.curShow
  let ws := (List.range (body.getD 1 0)).map fun i => s.view (a + 4 * i)
  let vals := ws.map (·.getD 0)
  match ws.findIdx? Option.isNone with
  | none => (.okBody vals, s)
  | some i => (⟨stRange, dtAddress, i, vals⟩, s)

/-! IDENTIFY (R424) -/

/-- A master's byte of word 4. -/
def State.masterByte (s : State) (n : Nat) : Nat :=
  s.get (HP_MST_CFG_EN n) + s.get (HP_MST_CFG_KEY_SLOT n) * 2 + s.get (HP_MST_CFG_AUTHORITY n) * 16

/-- The thirteen words. -/
def State.identWords (s : State) : List Nat :=
  [s.rd GL_DEV_ID, b2n s.unitId + s.get PR_STAT_ROLE * 16 + s.get HP_KEY_STAT_STATE * 2 ^ 16,
   s.get HP_BOOT_NONCE_HI_NONCE, s.get HP_BOOT_NONCE_LO_NONCE,
   s.masterByte 0 + s.masterByte 1 * 2 ^ 8 + s.masterByte 2 * 2 ^ 16 + s.masterByte 3 * 2 ^ 24] ++
    (List.range 4).flatMap fun n => [s.get (HP_MST_CTR_HI_FLOOR n), s.get (HP_MST_CTR_LO_FLOOR n)]

/-! EVENT_READ (R434) -/

/-- The most bytes of a message (R412). -/
def State.msgLimit (s : State) : Nat := if s.is HP_DCP_CFG_JUMBO then 8192 else 1408

/-- EVENT_READ: records from FROM_SEQ on, at most MAX and no more than fit. -/
def State.eventRead (body : List Nat) (s : State) : Ans × State :=
  let from_ := body.getD 0 0
  let next := s.get EV_NEXT_SEQ_SEQ
  let most := min (body.getD 1 0) ((s.msgLimit - 52) / 24)
  match s.events with
  | [] => (.okBody [next], s)
  | e :: _ =>
    if !later 32 next from_ then (.okBody [next], s)
    else
      let lost := later 32 e.seq from_
      let recs := (s.events.filter fun x => lost || !later 32 from_ x.seq).take most
      let after := match recs.getLast? with
        | some x => (x.seq + 1) % 2 ^ 32
        | none => next
      let s := if later 32 after s.dcp.readUpTo then { s with dcp := { s.dcp with readUpTo := after } } else s
      (⟨stOk, if lost then dtEventsLost else 0, 0, after :: recs.flatMap EventRec.words⟩, s)

end Sys2Proof.Machine
end

