-- ==== Sys2Proof/Machine/Keys.lean ====
section
/-! DEFINITION. Key slots and the master table (spec/13, R418–R421), TABLE_LOAD (R423) and the writing of flash image
slots (spec/14, R455). -/

namespace Sys2Proof.Machine

/-! Keys and masters -/

/-- Whether a master table, with the states of the key slots, leaves an enabled master of authority 3 with a VALID key. -/
def adminIn (cfg state : Nat → Nat) : Bool :=
  (List.range 4).any fun n => bit (cfg n) 0 && bits (cfg n) 9 8 == 3 && state (bits (cfg n) 6 4) == 1

/-- Bits 15:0 of HP_KEY_STAT with one slot's state changed. -/
def State.keyStates (s : State) (slot st : Nat) : Nat :=
  ((List.range 8).map fun i => (if i = slot then st else s.keyState i) * 4 ^ i).sum

/-- KEY_PROGRAM (R421): none while the OTP write is under way, else why it does not start. -/
def State.keyProgram (s : State) (body : List Nat) (r : Resp) : Option Ans × State :=
  let slot := bits (body.getD 0 0) 2 0
  if s.dcp.keyOp.isSome then (some (.of stBusy 0), s)
  else if s.keyState slot ≠ 0 then (some (.of stBadState 0), s)
  else (none, { s with dcp := { s.dcp with keyOp := some ⟨true, slot, beNat ((body.drop 1).flatMap (beBytes 4)), r⟩ } })

/-- KEY_REVOKE (R421); refused where no master could administer the unit after it. -/
def State.keyRevoke (s : State) (body : List Nat) (r : Resp) : Option Ans × State :=
  let slot := bits (body.getD 0 0) 2 0
  if s.dcp.keyOp.isSome then (some (.of stBusy 0), s)
  else if !adminIn (fun n => s.rd (HP_MST_CFG n)) fun i => if i = slot then 2 else s.keyState i then
    (some (.of stBadState 0), s)
  else (none, { s with dcp := { s.dcp with keyOp := some ⟨false, slot, 0, r⟩ } })

/-- A key operation ends and is answered (R421). -/
def State.keyDone (s : State) (ok : Bool) : State :=
  match s.dcp.keyOp with
  | none => s
  | some k =>
    let s := { s with dcp := { s.dcp with keyOp := none } }
    if !ok then s.respond { k.resp with status := stBadState }
    else
      let st := if k.program then 1 else 2
      let keys := if k.program then modAt s.otp.keys k.slot fun _ => k.key else s.otp.keys
      let s := { s with otp := { s.otp with keys := keys, keyState := modAt s.otp.keyState k.slot fun _ => st } }
      let s := s.put HP_KEY_STAT_STATE (s.keyStates k.slot st)
      (s.raise (if k.program then 0x7105 else 0x7106) k.resp.master 0 0).respond k.resp

/-- KEY_OP_DONE: the OTP operation under way ends, its read-back in agreement or not. -/
def execKeyOpDone (t : Nat) (ok : Bool) (s : State) : Host.Outcome State Fault Refusal := run t (·.keyDone ok) s

/-- MASTER_SET's slot judged (R421). -/
def State.masterCheck (s : State) (body : List Nat) : Option Ans :=
  let w := masterWord (body.getD 0 0)
  if bit w 0 && s.keyState (bits w 6 4) != 1 then some (.value 0) else none

/-- A slot's state, REVOKED already while its KEY_REVOKE is under way. -/
def State.keyNext (s : State) (i : Nat) : Nat :=
  match s.dcp.keyOp with
  | some k => if !k.program ∧ k.slot = i then 2 else s.keyState i
  | none => s.keyState i

/-- MASTER_SET commits (R421). -/
def State.masterSet (body : List Nat) (s : State) : Ans × State :=
  let n := bits (body.getD 0 0) 1 0
  let w := masterWord (body.getD 0 0)
  match s.masterCheck body with
  | some a => (a, s)
  | none =>
    if !adminIn (fun k => if k = n then w else s.rd (HP_MST_CFG k)) s.keyNext then (.of stBadState 0, s)
    else (.ok, (s.wrCopy (HP_MST_CFG n) w).raise 0x7107 n 0 0)

/-! TABLE_LOAD (R423) -/

/-- Where a load goes, and how many bytes it takes. -/
def tableDest (w : Nat) : Nat × Nat :=
  let b := bits w 11 8
  match bits w 7 0 with
  | 0 => (shadowWin b, bankSize)
  | 1 => (0x800000 + 0x2000 * b + 0x800 * bits w 13 12, 0x800)
  | 2 => (0x900000 + 0x100000 * b, 0x100000)
  | 3 => (0x810000 + 0x1000 * b, 0x1000)
  | 4 => (0x818000 + 0x1000 * b, 0x1000)
  | 5 => (0x1400000 + 0x20000 * b, 0x20000)
  | _ => (0x1600000 + 0x8000 * b, 0x8000)

/-- A load's kind, bar or context, and table image slot judged. -/
def State.loadCheck (s : State) (body : List Nat) : Option Ans :=
  let w := body.getD 0 0
  if 6 < bits w 7 0 ∨ (bits w 7 0 < 5 ∧ 7 < bits w 11 8) then some (.value 0)
  else if s.imgSlots ≤ body.getD 1 0 then some (.value 1)
  else none

/-- The words of a load: address, and the value the image gives. -/
def State.loadWords (s : State) (body : List Nat) : List (Nat × Nat) :=
  let d := tableDest (body.getD 0 0)
  (leWords (s.rdMem (s.rgnBase 0 + body.getD 1 0 * 0x100000) d.2)).zipIdx.map fun w => (d.1 + 4 * w.2, w.1)

/-- TABLE_LOAD commits: refused whole by the limits of a direct write (R154, R158–R160, R321). -/
def State.tableLoad (body : List Nat) (s : State) : Ans × State :=
  match s.loadCheck body with
  | some a => (a, s)
  | none =>
    let ws := s.loadWords body
    let bad (w : Nat × Nat) : Verdict := (s.limitTable w.1 w.2 0xFFFFFFFF).orElse' (s.limitCamTable w.1)
    match ws.findSome? bad with
    | some (st, d) => (.of st d, s)
    | none =>
      let put := (ws.map fun w => (w.1, mixBits (s.rd w.1) w.2 (tableMask w.1))).filter fun w => s.rd w.1 != w.2
      let s := s.each put fun s w => s.wr w.1 w.2
      let es := if s.authoritative then put.map fun w => ⟨1, [w.1, w.2]⟩ else []
      (.ok, { s with pair := { s.pair with entries := s.pair.entries ++ es } })

/-! IMAGE_WRITE (R455) -/

/-- A body as an operation. -/
def imgOpOf (b : List Nat) : ImgOp :=
  { erase := bits (b.getD 0 0) 1 0 == 1, slot := bits (b.getD 0 0) 8 8, first := b.getD 1 0, rawLen := b.getD 2 0
    seq := b.getD 3 0, keySlot := bits (b.getD 4 0) 2 0, unkeyed := bit (b.getD 4 0) 8, build := b.getD 5 0
    check := (b.drop 6).flatMap (beBytes 4), next := 0, len := 0, failed := false }

/-- Header bytes 0–23 of an operation (R448). -/
def ImgOp.head (o : ImgOp) : List Byte :=
  [0xD968C0F1, 1 + o.keySlot * 2 ^ 8 + b2n o.unkeyed * 2 ^ 12, o.seq, o.rawLen, o.build, 0].flatMap (leBytes 4)

/-- The body staged in table image slots. -/
def State.staged (s : State) (o : ImgOp) : List Byte := s.rdMem (s.rgnBase 0 + o.first * 0x100000) o.rawLen

/-- A range of the flash erased, and bytes programmed. -/
def State.flashErase (s : State) (a n : Nat) : State :=
  { s with flash := skeep (fun b => b < a || decide (a + n ≤ b)) s.flash }
def State.flashWrite (s : State) (a : Nat) (bs : List Byte) : State := { s with flash := sputs flashReset s.flash a bs }

/-- IMAGE_WRITE: refused in the order of R455's table, else begun with its header sector erased. -/
def State.imageWrite (body : List Nat) (s : State) : Ans × State :=
  let o := imgOpOf body
  if s.get BT_BOOT_STAT_SLOT = o.slot then (.of stBadState 0, s)
  else if s.dcp.imgOp.isSome then (.of stBusy 0, s)
  else
    let bad : Option Ans :=
      if o.erase then none
      else if !rawLenOk o.rawLen then some (.value 2)
      else if s.imgSlots < o.first + cdiv o.rawLen 0x100000 then some (.value 1)
      else
        let r := s.checkReason o.head o.keySlot o.unkeyed o.check (s.staged o)
        if r = 0 ∨ (r = 6 ∧ o.unkeyed) then none else some (.value 6)
    match bad with
    | some a => (a, s)
    | none =>
      let s := ({ s with dcp := { s.dcp with imgOp := some o } }).flashErase (slotBase o.slot) 0x10000
      (.ok, ((s.flag BT_IMG_WR_STAT_BUSY true).put BT_IMG_WR_STAT_SLOT o.slot).put BT_IMG_WR_STAT_PHASE 1)

/-- The body's stream begins on encoder 0 (R99, R455): the whole slot is erased, and the encoder shows the stream. -/
def State.imgOpen (s : State) (o : ImgOp) : State :=
  let s := (s.flashErase (slotBase o.slot) 0x1000000).put BT_IMG_WR_STAT_PHASE 2
  let s := (s.put (CS_ENC_CFG_WIDTH_M1 0) 4095).put (CS_ENC_CFG_BPS 0) 3
  let s := ((s.put (CS_ENC_CFG_LINES_M1 0) 31).flag (CS_ENC_CFG_VERIFY 0) true).put (CS_ENC_CFG_DEST 0) 2
  s.flag (CS_ENC_STAT_FAILED 0) false

/-- A verified strip of the body programmed on the next 4-byte boundary (R448, R455). -/
def State.imgRelease (s : State) (o : ImgOp) (modeEn : Nat) : State :=
  let samples := (slice (s.staged o) (o.next * 131072) 131072).map BitVec.toNat
  let bs := List.replicate ((4 - o.len % 4) % 4) 0 ++ encodeStrip (imgGeom o.rawLen o.next) modeEn samples
  let o' : ImgOp := { o with next := o.next + 1, len := o.len + bs.length }
  let s := ({ s with dcp := { s.dcp with imgOp := some o' } }).flashWrite (slotBase o.slot + 128 + o.len) bs
  (s.inc (CS_ENC_STAT_STRIPS 0)).put BT_IMG_WR_STAT_PROGRESS (o'.len / 0x10000)

/-- The self-verify of the body's next strip ends (R99, R100). -/
def State.imgVerify (s : State) (r : VerifyOutcome) : State :=
  match s.dcp.imgOp with
  | none => s
  | some o =>
    if !o.encodes then s
    else
      let s := if o.next = 0 then s.imgOpen o else s
      let s := match r with
        | .equal => s.imgRelease o (s.get (CS_ENC_CFG_MODE_EN 0))
        | .rawEqual => (s.encDiffers 0 2).imgRelease o 0
        | .rawDiffers =>
          let s := (s.encDiffers 0 2).encFails 0 2
          { s with dcp := { s.dcp with imgOp := some { o with failed := true } } }
      s.encShow 0

/-- A strip's self-verify ends on an encoder, in C3: not while that is shed (R29, R102). Encoder 0 takes a proof stream's
strip before the image's (log 24). -/
def execEncoderVerify (t n : Nat) (o : VerifyOutcome) (s : State) : Host.Outcome State Fault Refusal :=
  run t (fun s =>
    if s.c3Shed then s
    else if n = 0 ∧ !(s.screen.streams.any fun x => x.enc == 0 && !x.verify.isEmpty) then s.imgVerify o
    else s.verifyEnd n o) s

/-- The header written over a whole body (R448). -/
def State.imgHeader (s : State) (o : ImgOp) : State :=
  let head := o.head ++ leBytes 4 o.strips ++ leBytes 4 o.len ++ o.check
  s.flashWrite (slotBase o.slot) (head ++ leBytes 4 (crc32c head) ++ List.replicate 60 0)

/-- Whether an operation can end so: well, or in its read-back, once all of it is done; as a failed encode once its stream has
failed; with a flash error while it has not. -/
def ImgOp.ends (o : ImgOp) : WriteOutcome → Bool
  | .ok => !o.encodes && !o.failed
  | .readBackFailed => !o.erase && !o.encodes && !o.failed
  | .encodeFailed => o.failed
  | .flashError => !o.failed

/-- A write or erase ends, in C3 (R29, R455): RESULT, event 0x1809; a slot whose read-back fails, or any other failed one, is
invalid. -/
def State.imageDone (s : State) (r : WriteOutcome) : State :=
  match s.dcp.imgOp with
  | none => s
  | some o =>
    if s.c3Shed || !o.ends r then s
    else
      let s := { s with dcp := { s.dcp with imgOp := none } }
      let s := match r with
        | .ok => if o.erase then s.flashErase (slotBase o.slot) 0x1000000 else s.imgHeader o
        | _ => s
      let reads : Bool := o.erase || ((s.imgHdr o.slot).reason == 0 && (s.slotRead o.slot (s.imgHdr o.slot)).1 == 0)
      let result := match r with
        | .ok => if reads then 1 else 4
        | .encodeFailed => 2
        | .flashError => 3
        | .readBackFailed => 4
      let s := ((s.flag BT_IMG_WR_STAT_BUSY false).put BT_IMG_WR_STAT_PHASE 0).put BT_IMG_WR_STAT_PROGRESS 0
      ((s.put BT_IMG_WR_STAT_RESULT result).encShow 0).raise 0x1809 o.slot result 0

def execImageWriteDone (t : Nat) (r : WriteOutcome) (s : State) : Host.Outcome State Fault Refusal := run t (·.imageDone r) s

end Sys2Proof.Machine
end

