-- ==== Sys2Proof/Machine/Host.lean ====
section
/-! DEFINITION. The host door (spec/13): the checks of R417 in their order, what the unit answers on receipt, unit-local
commands executed and critical ones held for their tick end (R425, R426), and the other services of R411. -/

namespace Sys2Proof.Machine

/-! The command table (R423) -/

/-- The opcodes of the command table. -/
def opcodes : List Nat :=
  [0x00, 0x01, 0x02, 0x03, 0x08, 0x09, 0x0A, 0x0B, 0x10, 0x11, 0x12, 0x13, 0x14, 0x15, 0x16, 0x17, 0x18, 0x20, 0x30,
   0x31, 0x32]

/-- The level an opcode needs; a WRITE's is that of its addresses. -/
def opLevel (op : Nat) : Nat :=
  if op < 0x08 then 0 else if op < 0x14 then 1 else if op < 0x20 then 2 else 3

/-- Whether a body's length fits its opcode. -/
def lengthOk (op : Nat) (body : List Nat) : Bool :=
  let n := body.length
  match op with
  | 0x00 => n == 0
  | 0x01 => n == 2
  | 0x02 => n % 3 == 0 && decide (3 ≤ n) && decide (n ≤ 765)
  | 0x03 => n == 2
  | 0x0A => n == 3
  | 0x10 => n == 6
  | 0x12 => n == 10
  | 0x13 => n == 2
  | 0x14 => n == 4
  | 0x18 => n == 2
  | 0x20 => if bits (body.getD 0 0) 1 0 == 1 then n == 1 else n == 14
  | 0x30 => n == 9
  | _ => n == 1

/-- Whether a command is critical (R423, R427). -/
def isCritical (op : Nat) (body : List Nat) : Bool :=
  if op = 0x02 then (match writeKind (itemsOf body) with
    | .ok c => c
    | .error _ => false)
  else (decide (0x10 ≤ op) && decide (op ≤ 0x18)) || op == 0x32

/-! The header (R413) -/

/-- A header with every field in its width. -/
def hdrNorm (h : DcpHdr) : DcpHdr :=
  { h with master := h.master % 4, counter := h.counter % 2 ^ 64, tag := h.tag % 2 ^ 32, resv5 := h.resv5 % 2 ^ 96
           mac := h.mac % 2 ^ 128 }

/-- Order 1 of R417. -/
def hdrFormed (h : DcpHdr) (body : List Nat) : Bool :=
  h.word0 == dcpWord0 0 && h.resv1 == 0 && h.resv5 % 2 ^ 32 == 0 && h.bodyLen == 4 * body.length

/-- The bytes a request's MAC is taken over (R414). -/
def hdrMsg (h : DcpHdr) (op : Nat) (body : List Nat) : List Byte :=
  dcpMsg h.word0 op h.master h.bodyLen h.resv1 h.counter h.tag (h.resv5 / 2 ^ 64) (h.resv5 / 2 ^ 32 % 2 ^ 32)
    (h.resv5 % 2 ^ 32) body

/-! Answers -/

/-- The response of a command decided at no tick end. -/
def answer (op : Nat) (h : DcpHdr) (a : Ans) : Resp :=
  ⟨op, h.master, h.counter, h.tag, h.src, a.status, a.detail, a.index, 0, a.body⟩

def State.reply (s : State) (op : Nat) (h : DcpHdr) (a : Ans) : State := s.respond (answer op h a)

/-- A failure of order 2 or 3: counted, answered at most once in 1 ms, reported at most once in 1 s (R417). -/
def State.authFail (s : State) (op : Nat) (h : DcpHdr) : State :=
  let free (last : Option Nat) (d : Nat) : Bool := match last with
    | some a => s.past a d
    | none => true
  let s1 := s.inc HP_DCP_ERR_AUTH_FAIL
  let s2 := if free s.dcp.authEvtAt 1000000000 then
      ({ s1 with dcp := { s1.dcp with authEvtAt := some s.now } }).raise 0x7101 h.master 0 0
    else s1
  if free s.dcp.authRespAt 1000000 then
    ({ s2 with dcp := { s2.dcp with authRespAt := some s.now } }).reply op h (.of stAuthFail 0)
  else s2

/-- The counter consumed (R417): the floor raised, with its COUNTER entry (R432). -/
def State.consume (s : State) (h : DcpHdr) : State :=
  let keep := s.pair.entries.filter fun e => !(e.kind == 2 && e.words.headD 4 == h.master)
  let s := if s.authoritative then { s with pair := { s.pair with entries := keep } } else s
  (s.floorRaise h.master h.counter).copy 2 [h.master, h.counter / 2 ^ 32, h.counter]

/-- A command that passed every check is counted; an authenticated one sets where its master's events go (R435). -/
def State.accept (s : State) (h : DcpHdr) (signed : Bool) : State :=
  let s := s.inc HP_DCP_STAT_ACCEPTED
  if signed then
    { s with dcp := { s.dcp with push := modAt s.dcp.push h.master fun p => { p with dst := some h.src } } }
  else s

/-! Orders 6 to 8 -/

/-- Order 6: the master's authority. -/
def authCheck (auth op : Nat) (body : List Nat) : Option Ans :=
  if op = 0x02 then
    ((itemsOf body).findIdx? fun x => decide (auth < itemLevel x)).map fun i => ⟨stRange, dtAuthority, i, []⟩
  else if auth < opLevel op then some (.of stRange dtAuthority)
  else none

/-- A WRITE's items: their addresses, their classification, their values. -/
def State.itemsJudge (s : State) (items : List WriteItem) : Option Ans :=
  match items.findIdx? fun x => !s.writable x.addr with
  | some i => some ⟨stRange, dtAddress, i, []⟩
  | none =>
    match writeKind items with
    | .error i => some ⟨stRange, dtMixed, i, []⟩
    | .ok _ => s.writeCheck items

/-- Order 7: the body's length and every value in it. -/
def State.bodyCheck (s : State) (op : Nat) (body : List Nat) : Option Ans :=
  let w (i : Nat) : Nat := body.getD i 0
  if !lengthOk op body then some (.of stRange dtLength)
  else
    match op with
    | 0x01 =>
      if w 0 % 4 ≠ 0 then some ⟨stRange, dtAddress, 0, []⟩
      else if w 1 = 0 ∨ 256 < w 1 then some (.value 1) else none
    | 0x02 => s.itemsJudge (itemsOf body)
    | 0x03 => if w 1 = 0 ∨ 255 < w 1 then some (.value 1) else none
    | 0x10 => surfCheck body
    | 0x14 => jobCheck body
    | 0x18 => s.loadCheck body
    | 0x20 => if 1 < bits (w 0) 1 0 then some (.value 0) else none
    | 0x32 => s.masterCheck body
    | _ => none

/-! Execution (R425, R426) -/

/-- A unit-local command other than a key command executed. -/
def State.localGo (s : State) (op : Nat) (body : List Nat) : Ans × State :=
  match op with
  | 0x00 => (.okBody s.identWords, s)
  | 0x01 => s.readWords body
  | 0x02 => s.writeGo false (itemsOf body)
  | 0x03 => s.eventRead body
  | 0x08 => s.sessionOpen body
  | 0x09 => s.sessionClose body
  | 0x0A => s.windowOpen body
  | 0x0B => s.windowClose body
  | 0x20 => s.imageWrite body
  | _ => (.ok, s)

/-- A critical command held for its tick end (R426). -/
def State.hold (s : State) (op : Nat) (h : DcpHdr) (body : List Nat) : State :=
  let c : Held := ⟨op, h.master, s.get (HP_MST_CFG_AUTHORITY h.master), h.counter, h.tag, h.src, body, s.now⟩
  { s with dcp := { s.dcp with held := s.dcp.held ++ [c] } }

/-- A key command started, or answered (R421). -/
def State.keyGo (s : State) (op : Nat) (h : DcpHdr) (body : List Nat) : State :=
  let r := if op = 0x30 then s.keyProgram body (answer op h .ok) else s.keyRevoke body (answer op h .ok)
  match r.1 with
  | some a => r.2.reply op h a
  | none => r.2

/-- A command past every check. A RANGE found as it executes, with nothing returned, leaves it uncounted. -/
def State.perform (s : State) (op : Nat) (h : DcpHdr) (body : List Nat) (signed : Bool) : State :=
  if isCritical op body then (s.accept h signed).hold op h body
  else if op = 0x30 ∨ op = 0x31 then (s.accept h signed).keyGo op h body
  else
    let r := (s.accept h signed).localGo op body
    if r.1.status = stRange ∧ r.1.body = [] then s.reply op h r.1 else r.2.reply op h r.1

/-- Orders 5 to 8. -/
def State.judged (s : State) (op : Nat) (h : DcpHdr) (body : List Nat) : State :=
  if !opcodes.contains op then s.reply op h (.of stRange dtOpcode)
  else
    match authCheck (s.get (HP_MST_CFG_AUTHORITY h.master)) op body with
    | some a => s.reply op h a
    | none =>
      match s.bodyCheck op body with
      | some a => s.reply op h a
      | none =>
        if isCritical op body && !s.authoritative then s.reply op h (.of stBadState 0)
        else s.perform op h body true

/-- Orders 2 to 4. -/
def State.signedIn (s : State) (op : Nat) (h : DcpHdr) (body : List Nat) : State :=
  let m := h.master
  if !(s.is (HP_MST_CFG_EN m) && s.keyState (s.get (HP_MST_CFG_KEY_SLOT m)) == 1) then s.authFail op h
  else if s.macOf m (hdrMsg h op body) ≠ h.mac then s.authFail op h
  else if h.counter ≤ s.floor m then (s.inc HP_DCP_ERR_STALE).reply op h (.of stStale 0)
  else (s.consume h).judged op h body

/-- The commands taken without a MAC: IDENTIFY, and KEY_PROGRAM of slot 0 while every slot is BLANK (R417, R420). -/
def State.unsigned (s : State) (op : Nat) (body : List Nat) : Bool :=
  op == opIdentify || (op == 0x30 && s.keysBlank && bits (body.getD 0 0) 2 0 == 0)

/-- A datagram's checks from order 1 on, at a unit that answers. -/
def State.checked (s : State) (op : Nat) (h : DcpHdr) (body : List Nat) : State :=
  if s.msgLimit < 48 + 4 * body.length ∨ !hdrFormed h body then s.inc HP_DCP_STAT_DROPPED
  else if s.unsigned op body then
    match s.bodyCheck op body with
    | some a => s.reply op h a
    | none => s.perform op h body false
  else s.signedIn op h body

/-- Whether the MP takes a message: its IP version is on (R410) and it names the DCP port (R412). -/
def State.takes (s : State) (h : DcpHdr) : Bool := s.ipOn 0 h.v6 && h.dport == s.get HP_DCP_CFG_PORT

/-- A DCP request on MP (R409, R412, R417): a datagram over an IP version that is off, or to another port, is a frame the unit does not
answer (R410, R411). -/
def State.request (op : Nat) (h : DcpHdr) (body : List Nat) (s : State) : State :=
  if !s.is HP_MP_STAT_LINK then s
  else if s.base == .boot || s.base == .trim then s.inc HP_RX_DROP_MP
  else if !s.takes h then s.inc HP_RX_DROP_MP
  else if s.hostUp then s.checked (op % 256) (hdrNorm h) (body.map (· % 2 ^ 32))
  else s

/-! The commands of the table that are not writes of one register -/


def execIdentify (t : Nat) (h : DcpHdr) (body : List Nat) (s : State) : Host.Outcome State Fault Refusal :=
  run t (State.request 0x00 h body) s
def execRead (t : Nat) (h : DcpHdr) (body : List Nat) (s : State) : Host.Outcome State Fault Refusal :=
  run t (State.request 0x01 h body) s
def execWrite (t : Nat) (h : DcpHdr) (body : List Nat) (s : State) : Host.Outcome State Fault Refusal :=
  run t (State.request 0x02 h body) s
def execEventRead (t : Nat) (h : DcpHdr) (body : List Nat) (s : State) : Host.Outcome State Fault Refusal :=
  run t (State.request 0x03 h body) s
def execSessionOpen (t : Nat) (h : DcpHdr) (body : List Nat) (s : State) : Host.Outcome State Fault Refusal :=
  run t (State.request 0x08 h body) s
def execSessionClose (t : Nat) (h : DcpHdr) (body : List Nat) (s : State) : Host.Outcome State Fault Refusal :=
  run t (State.request 0x09 h body) s
def execWindowOpen (t : Nat) (h : DcpHdr) (body : List Nat) (s : State) : Host.Outcome State Fault Refusal :=
  run t (State.request 0x0A h body) s
def execWindowClose (t : Nat) (h : DcpHdr) (body : List Nat) (s : State) : Host.Outcome State Fault Refusal :=
  run t (State.request 0x0B h body) s
def execSurfaceDefine (t : Nat) (h : DcpHdr) (body : List Nat) (s : State) : Host.Outcome State Fault Refusal :=
  run t (State.request 0x10 h body) s
def execSurfaceRelease (t : Nat) (h : DcpHdr) (body : List Nat) (s : State) : Host.Outcome State Fault Refusal :=
  run t (State.request 0x11 h body) s
def execPageDefine (t : Nat) (h : DcpHdr) (body : List Nat) (s : State) : Host.Outcome State Fault Refusal :=
  run t (State.request 0x12 h body) s
def execPageClose (t : Nat) (h : DcpHdr) (body : List Nat) (s : State) : Host.Outcome State Fault Refusal :=
  run t (State.request 0x13 h body) s
def execJobDefine (t : Nat) (h : DcpHdr) (body : List Nat) (s : State) : Host.Outcome State Fault Refusal :=
  run t (State.request 0x14 h body) s
def execJobStart (t : Nat) (h : DcpHdr) (body : List Nat) (s : State) : Host.Outcome State Fault Refusal :=
  run t (State.request 0x15 h body) s
def execJobClose (t : Nat) (h : DcpHdr) (body : List Nat) (s : State) : Host.Outcome State Fault Refusal :=
  run t (State.request 0x16 h body) s
def execJobCancel (t : Nat) (h : DcpHdr) (body : List Nat) (s : State) : Host.Outcome State Fault Refusal :=
  run t (State.request 0x17 h body) s
def execTableLoad (t : Nat) (h : DcpHdr) (body : List Nat) (s : State) : Host.Outcome State Fault Refusal :=
  run t (State.request 0x18 h body) s
def execImageWrite (t : Nat) (h : DcpHdr) (body : List Nat) (s : State) : Host.Outcome State Fault Refusal :=
  run t (State.request 0x20 h body) s
def execKeyProgram (t : Nat) (h : DcpHdr) (body : List Nat) (s : State) : Host.Outcome State Fault Refusal :=
  run t (State.request 0x30 h body) s
def execKeyRevoke (t : Nat) (h : DcpHdr) (body : List Nat) (s : State) : Host.Outcome State Fault Refusal :=
  run t (State.request 0x31 h body) s
def execMasterSet (t : Nat) (h : DcpHdr) (body : List Nat) (s : State) : Host.Outcome State Fault Refusal :=
  run t (State.request 0x32 h body) s

/-- A request of an opcode that the command table does not name. -/
def execUnknownOpcode (t op : Nat) (h : DcpHdr) (body : List Nat) (s : State) : Host.Outcome State Fault Refusal :=
  run t (fun s => if opcodes.contains (op % 256) then s else s.request op h body) s

/-! The other services (R410, R411) -/

/-- Whether the ports of the network take frames: MP drops every frame in BOOT and TRIM (R409). -/
def State.netUp (s : State) (port : Nat) : Bool :=
  s.base != .boot && s.base != .trim && (port != 0 || s.is HP_MP_STAT_LINK)

/-- An ARP request for an address, from a sender. -/
def execArpRequest (t port src target : Nat) (s : State) : Host.Outcome State Fault Refusal :=
  run t (fun s => if port < 3 ∧ s.netUp port ∧ target ≠ 0 ∧ target = s.ip4 port then s.emit (.arp port src) else s) s

/-- A Neighbor Solicitation for an address. -/
def execNeighborSolicitation (t port src target : Nat) (s : State) : Host.Outcome State Fault Refusal :=
  run t (fun s => if port < 3 ∧ s.netUp port ∧ target ≠ 0 ∧ target = s.ip6 port then s.emit (.neighbor port src) else s) s

/-- An echo request to an address, ICMP or ICMPv6. -/
def execEchoRequest (t port src target : Nat) (v6 : Bool) (s : State) : Host.Outcome State Fault Refusal :=
  run t (fun s =>
    if port < 3 ∧ s.netUp port ∧ target ≠ 0 ∧ target = (if v6 then s.ip6 port else s.ip4 port) then s.emit (.echo port src)
    else s) s

/-- A frame on MP that the unit does not answer: counted by R411, or by R412 and R417 where it was for DCP. -/
def State.mpDrop (s : State) (k : MpDrop) : State :=
  if !s.is HP_MP_STAT_LINK then s
  else if s.base == .boot || s.base == .trim then s.inc HP_RX_DROP_MP
  else
    match k with
    | .tagged | .fragment | .other => s.inc HP_RX_DROP_MP
    | .oversize | .malformed => s.inc HP_DCP_STAT_DROPPED

def execMpFrameDropped (t : Nat) (k : MpDrop) (s : State) : Host.Outcome State Fault Refusal := run t (·.mpDrop k) s

end Sys2Proof.Machine
end

