-- ==== Sys2Proof/Machine/Reqs.lean ====
section
/-! DEFINITION. The rows of the table that are WRITE commands to one register: each is a WRITE whose body is the items
before it, the row's own item and the items after it (R423, R428). -/

namespace Sys2Proof.Machine

/-- The items around a row's own, in body order. -/
def around (pre post mine : List WriteItem) : List Nat := (pre ++ mine ++ post).flatMap WriteItem.words

/-- A WRITE request with a row's own items among others. -/
def State.writeReq (h : DcpHdr) (pre post mine : List WriteItem) (s : State) : State := s.request 0x02 h (around pre post mine)

/-- An item that sets the bits of a mask, and writes further ones as commanded. -/
def setting (addr own mask value : Nat) : WriteItem := ⟨addr, mask ||| own, value ||| own⟩

/-- GL_CMT_CTRL.GAP_COMMIT (R115, R120, R523). -/
def execGapCommit (t : Nat) (h : DcpHdr) (pre post : List WriteItem) (s : State) :
    Host.Outcome State Fault Refusal :=
  run t (fun s => s.writeReq h pre post [⟨GL_CMT_CTRL, 1, 1⟩]) s

/-- GL_CMT_CTRL.TICK_COMMIT (R118). -/
def execTickCommit (t : Nat) (h : DcpHdr) (pre post : List WriteItem) (s : State) :
    Host.Outcome State Fault Refusal :=
  run t (fun s => s.writeReq h pre post [⟨GL_CMT_CTRL, 2, 2⟩]) s

/-- SC_BARn_APPLY_CTRL with ARM and its other fields (R161). -/
def execArm (t : Nat) (h : DcpHdr) (pre post : List WriteItem) (b mask value : Nat) (s : State) :
    Host.Outcome State Fault Refusal :=
  run t (fun s => if b < 8 then s.writeReq h pre post [setting (SC_BAR_APPLY_CTRL b) 0x200 mask value] else s) s

/-- WP_SRC_CTRL.SWAP (R182). -/
def execSwap (t : Nat) (h : DcpHdr) (pre post : List WriteItem) (s : State) :
    Host.Outcome State Fault Refusal :=
  run t (fun s => s.writeReq h pre post [⟨WP_SRC_CTRL, 1, 1⟩]) s

/-- WP_SRC_CTRL.RESTORE (R182). -/
def execRestore (t : Nat) (h : DcpHdr) (pre post : List WriteItem) (s : State) :
    Host.Outcome State Fault Refusal :=
  run t (fun s => s.writeReq h pre post [⟨WP_SRC_CTRL, 2, 2⟩]) s

/-- WP_ENC_CFG (R530). -/
def execEncCfgWrite (t : Nat) (h : DcpHdr) (pre post : List WriteItem) (mask value : Nat) (s : State) :
    Host.Outcome State Fault Refusal :=
  run t (fun s => s.writeReq h pre post [⟨WP_ENC_CFG, mask, value⟩]) s

/-- TB_INCR, both words (R206). -/
def execTbIncrWrite (t : Nat) (h : DcpHdr) (pre post : List WriteItem) (incr : Nat) (s : State) :
    Host.Outcome State Fault Refusal :=
  run t (fun s => s.writeReq h pre post [⟨TB_INCR_LO, 0xFFFFFFFF, incr % 2 ^ 32⟩, ⟨TB_INCR_HI, 0xFFFFFFFF, incr / 2 ^ 32⟩]) s

/-- TB_OFS_ADJ, both words (R207). -/
def execTbOfsAdj (t : Nat) (h : DcpHdr) (pre post : List WriteItem) (adj : Int) (s : State) :
    Host.Outcome State Fault Refusal :=
  run t (fun s => s.writeReq h pre post [⟨TB_OFS_ADJ_LO, 0xFFFFFFFF, unsgn 64 adj % 2 ^ 32⟩, ⟨TB_OFS_ADJ_HI, 0xFFFFFFFF, unsgn 64 adj / 2 ^ 32⟩]) s

/-- LANE_CFG (R237). -/
def execLaneCfgWrite (t : Nat) (h : DcpHdr) (pre post : List WriteItem) (l mask value : Nat) (s : State) :
    Host.Outcome State Fault Refusal :=
  run t (fun s => if l < 100 then s.writeReq h pre post [⟨LANE_CFG l, mask, value⟩] else s) s

/-- FS_BARn_STB (R294). -/
def execStrobeWrite (t : Nat) (h : DcpHdr) (pre post : List WriteItem) (b mask value : Nat) (s : State) :
    Host.Outcome State Fault Refusal :=
  run t (fun s => if b < 8 then s.writeReq h pre post [⟨FS_BAR_STB b, mask, value⟩] else s) s

/-- FS_WD_CLR (R300). -/
def execFsWdClr (t : Nat) (h : DcpHdr) (pre post : List WriteItem) (bars : Nat) (s : State) :
    Host.Outcome State Fault Refusal :=
  run t (fun s => s.writeReq h pre post [⟨FS_WD_CLR, 0xFF, bars⟩]) s

/-- FS_SAFE_CTRL.INHIBIT set to 1 (R302). -/
def execSafeInhibit (t : Nat) (h : DcpHdr) (pre post : List WriteItem) (s : State) :
    Host.Outcome State Fault Refusal :=
  run t (fun s => s.writeReq h pre post [⟨FS_SAFE_CTRL, 1, 1⟩]) s

/-- FS_SAFE_CTRL.CLEAR, with INHIBIT as commanded (R304). -/
def execSafeClear (t : Nat) (h : DcpHdr) (pre post : List WriteItem) (mask value : Nat) (s : State) :
    Host.Outcome State Fault Refusal :=
  run t (fun s => s.writeReq h pre post [⟨FS_SAFE_CTRL, mask % 2 ||| 2, value % 2 ||| 2⟩]) s

/-- PW_GATE (R465). -/
def execBarGate (t : Nat) (h : DcpHdr) (pre post : List WriteItem) (mask value : Nat) (s : State) :
    Host.Outcome State Fault Refusal :=
  run t (fun s => s.writeReq h pre post [⟨PW_GATE, mask, value⟩]) s

/-- PR_CTRL.SWITCH (R398). -/
def execSwitch (t : Nat) (h : DcpHdr) (pre post : List WriteItem) (s : State) :
    Host.Outcome State Fault Refusal :=
  run t (fun s => s.writeReq h pre post [⟨PR_CTRL, 1, 1⟩]) s

/-- PR_CTRL.LEAVE (R406). -/
def execLeave (t : Nat) (h : DcpHdr) (pre post : List WriteItem) (s : State) :
    Host.Outcome State Fault Refusal :=
  run t (fun s => s.writeReq h pre post [⟨PR_CTRL, 2, 2⟩]) s

/-- PR_CTRL.CLR_DEMOTE (R397). -/
def execClrDemote (t : Nat) (h : DcpHdr) (pre post : List WriteItem) (s : State) :
    Host.Outcome State Fault Refusal :=
  run t (fun s => s.writeReq h pre post [⟨PR_CTRL, 4, 4⟩]) s

/-- BY_BARn_CTRL.REVIVE (R353). -/
def execRevive (t : Nat) (h : DcpHdr) (pre post : List WriteItem) (b : Nat) (s : State) :
    Host.Outcome State Fault Refusal :=
  run t (fun s => if b < 8 then s.writeReq h pre post [⟨BY_BAR_CTRL b, 1, 1⟩] else s) s

/-- BY_BARn_CTRL.RESET_EST (R353). -/
def execResetEst (t : Nat) (h : DcpHdr) (pre post : List WriteItem) (b : Nat) (s : State) :
    Host.Outcome State Fault Refusal :=
  run t (fun s => if b < 8 then s.writeReq h pre post [⟨BY_BAR_CTRL b, 2, 2⟩] else s) s

/-- BY_CTRL.REG_CLR (R361). -/
def execRegClr (t : Nat) (h : DcpHdr) (pre post : List WriteItem) (s : State) :
    Host.Outcome State Fault Refusal :=
  run t (fun s => s.writeReq h pre post [⟨BY_CTRL, 0x400, 0x400⟩]) s

/-- BY_STRIP_CTRL.FORCE (R354). -/
def execStripForce (t : Nat) (h : DcpHdr) (pre post : List WriteItem) (bars : Nat) (s : State) :
    Host.Outcome State Fault Refusal :=
  run t (fun s => s.writeReq h pre post [⟨BY_STRIP_CTRL, 0xFF, bars⟩]) s

/-- CS_ENCn_CTRL.FLUSH (R98). -/
def execFlush (t : Nat) (h : DcpHdr) (pre post : List WriteItem) (n : Nat) (s : State) :
    Host.Outcome State Fault Refusal :=
  run t (fun s => if n < 4 then s.writeReq h pre post [⟨CS_ENC_CTRL n, 1, 1⟩] else s) s

/-- LANE_SCAN_CTRL.MAP (R250). -/
def execLaneScanMap (t : Nat) (h : DcpHdr) (pre post : List WriteItem) (l : Nat) (s : State) :
    Host.Outcome State Fault Refusal :=
  run t (fun s => if l < 100 then s.writeReq h pre post [⟨LANE_SCAN_CTRL l, 1, 1⟩] else s) s

/-- WP_PRBn_CTRL.POP (R190). -/
def execProbePop (t : Nat) (h : DcpHdr) (pre post : List WriteItem) (n : Nat) (s : State) :
    Host.Outcome State Fault Refusal :=
  run t (fun s => if n < 4 then s.writeReq h pre post [⟨WP_PRB_CTRL n, 1, 1⟩] else s) s

/-- HP_PTP_RXQ_CTRL.POP (R221). -/
def execPtpRxqPop (t : Nat) (h : DcpHdr) (pre post : List WriteItem) (s : State) :
    Host.Outcome State Fault Refusal :=
  run t (fun s => s.writeReq h pre post [⟨HP_PTP_RXQ_CTRL, 1, 1⟩]) s

/-- HP_PTP_TX_CTRL.SEND with the port, transport and length (R222). -/
def execPtpSend (t : Nat) (h : DcpHdr) (pre post : List WriteItem) (mask value : Nat) (s : State) :
    Host.Outcome State Fault Refusal :=
  run t (fun s => s.writeReq h pre post [setting HP_PTP_TX_CTRL 1 mask value]) s

/-- AG_CTRL.ARM (R492). -/
def execRecArm (t : Nat) (h : DcpHdr) (pre post : List WriteItem) (s : State) :
    Host.Outcome State Fault Refusal :=
  run t (fun s => s.writeReq h pre post [⟨AG_CTRL, 1, 1⟩]) s

/-- AG_CTRL.TRIGGER (R493); the other triggers act within the commands that cause them. -/
def execRecTrigger (t : Nat) (h : DcpHdr) (pre post : List WriteItem) (s : State) :
    Host.Outcome State Fault Refusal :=
  run t (fun s => s.writeReq h pre post [⟨AG_CTRL, 2, 2⟩]) s

/-- AG_CTRL.FREEZE (R492). -/
def execRecFreeze (t : Nat) (h : DcpHdr) (pre post : List WriteItem) (s : State) :
    Host.Outcome State Fault Refusal :=
  run t (fun s => s.writeReq h pre post [⟨AG_CTRL, 4, 4⟩]) s

/-- AG_RP_CTRL.ENTER (R495). -/
def execReplayEnter (t : Nat) (h : DcpHdr) (pre post : List WriteItem) (s : State) :
    Host.Outcome State Fault Refusal :=
  run t (fun s => s.writeReq h pre post [⟨AG_RP_CTRL, 1, 1⟩]) s

/-- AG_RP_CTRL.RUN, with STOP_MM as commanded (R496). -/
def execReplayRun (t : Nat) (h : DcpHdr) (pre post : List WriteItem) (mask value : Nat) (s : State) :
    Host.Outcome State Fault Refusal :=
  run t (fun s => s.writeReq h pre post [setting AG_RP_CTRL 2 (mask &&& 4) (value &&& 4)]) s

/-- BT_PWR_CTRL.SLEEP (R460). -/
def execSleep (t : Nat) (h : DcpHdr) (pre post : List WriteItem) (s : State) :
    Host.Outcome State Fault Refusal :=
  run t (fun s => s.writeReq h pre post [⟨BT_PWR_CTRL, 1, 1⟩]) s

end Sys2Proof.Machine
end

