-- ==== Sys2Proof/Machine/Tick.lean ====
section
/-! DEFINITION. The tick end (R370): the critical commands it commits and how those of several masters meet (R426, R430,
R431), the unit's own work in its order, the copy, and the responses (R38). -/

namespace Sys2Proof.Machine

/-! Commits -/

/-- A critical command committed, by its opcode (R423). -/
def State.commitGo (s : State) (op : Nat) (body : List Nat) : Ans × State :=
  match op with
  | 0x02 => s.writeGo true (itemsOf body)
  | 0x10 => s.surfaceDefine body
  | 0x11 => s.surfaceRelease body
  | 0x12 => s.pageDefine body
  | 0x13 => s.pageClose body
  | 0x14 => s.jobDefine body
  | 0x15 => s.jobStart body
  | 0x16 => s.jobClose body
  | 0x17 => s.jobCancel body
  | 0x18 => s.tableLoad body
  | 0x32 => s.masterSet body
  | _ => (.ok, s)

/-- What a command may contradict another in (R430): register and table bits; generations (kind 4), pages (5), jobs (6). -/
def State.commitClaims (s : State) (op : Nat) (body : List Nat) : List Claim :=
  let w (i : Nat) : Nat := body.getD i 0
  let gen (r : Nat) (act : List Nat) : Claim := .obj 4 (r / 65536) (r % 65536) act
  match op with
  | 0x02 => s.writeClaims (itemsOf body)
  | 0x10 => [gen (w 0) (1 :: surfBody body)]
  | 0x11 => [gen (w 0) [2]]
  | 0x12 => .obj 5 (w 0) (w 1 % 2 ^ 24) (1 :: body.drop 2) ::
      ((body.drop 2).filter (· != noRef)).map fun r => gen r [3]
  | 0x13 => [.obj 5 (w 0) (w 1 % 2 ^ 24) [2]]
  | 0x14 => [.obj 6 (w 0) 0 [1, (jobWords body).1, (jobWords body).2.1, (jobWords body).2.2]]
  | 0x15 => [.obj 6 (w 0) 0 [2]]
  | 0x16 => [.obj 6 (w 0) 0 [3]]
  | 0x17 => [.obj 6 (w 0) 0 [4]]
  | 0x18 => (s.loadWords body).map fun x => .bits x.1 (tableMask x.1) x.2
  | 0x32 => [.bits (HP_MST_CFG (bits (w 0) 1 0)) 0xFFFFFFFF (masterWord (w 0))]
  | _ => []

/-- The order of R430. -/
def Held.before (a b : Held) : Bool :=
  decide (b.authority < a.authority) || (a.authority == b.authority &&
    (decide (a.master < b.master) || (a.master == b.master && decide (a.counter < b.counter))))

/-- A command put among commands in their order. -/
def heldInsert (a : Held) : List Held → List Held
  | [] => [a]
  | b :: l => if b.before a then b :: heldInsert a l else a :: b :: l

/-- Commands in the order of R430. -/
def heldSort : List Held → List Held
  | [] => []
  | a :: l => heldInsert a (heldSort l)

/-- The response of a command decided at a tick end. -/
def Held.answer (h : Held) (tick : Nat) (a : Ans) : Resp :=
  ⟨h.opcode, h.master, h.counter, h.tag, h.src, a.status, a.detail, a.index, tick, a.body⟩

/-- A tick end's commits so far: the state, what each committed command claims with its master, the responses. -/
structure Commits where
  s : State
  done : List (Nat × List Claim)
  resps : List Resp

/-- The tick is full (R382, R426). -/
def Commits.full (c : Commits) (tick : Nat) (h : Held) : Commits :=
  { c with s := c.s.inc HP_DCP_CONFLICT_TICK_FULL, resps := c.resps ++ [h.answer tick (.of stBusy dtTickFull)] }

/-- One command at its tick end: at most 64 commit; a contradictory one loses; a copy holds 48 KiB (R382, R426, R430). -/
def Commits.one (tick : Nat) (c : Commits) (h : Held) : Commits :=
  if 64 ≤ c.done.length then c.full tick h
  else
    let cs := c.s.commitClaims h.opcode h.body
    match c.done.find? fun d => d.1 != h.master && d.2.any fun x => cs.any x.clash with
    | some d =>
      { c with s := (c.s.inc HP_DCP_CONFLICT_CONFLICTS).raise 0x7104 h.master d.1 0
               resps := c.resps ++ [h.answer tick (.of stConflict 0)] }
    | none =>
      let r := c.s.commitGo h.opcode h.body
      if c.s.base == .active && decide (49152 < r.2.copyBytes) && decide (c.s.copyBytes < r.2.copyBytes) then c.full tick h
      else { s := r.2, done := if r.1.status = stOk then c.done ++ [(h.master, cs)] else c.done
             resps := c.resps ++ [h.answer tick r.1] }

/-- Commands committed in order. The words of a tick's adjustment form one (R207), judged when all commands have committed: where it
may not stand, every command that writes such a word completes with BUSY. -/
def State.commitAll (s : State) (l : List Held) : Commits :=
  let c := l.foldl (Commits.one s.tick) ⟨s, [], []⟩
  if c.s.adjOk then c
  else
    let r := l.foldl (Commits.one s.tick) ⟨{ s with dcp := { s.dcp with adjBusy := true } }, [], []⟩
    { r with s := { r.s with dcp := { r.s.dcp with adjBusy := false } } }

/-- The commands due at this tick end committed in order (R426); a unit that no longer decides discards what it holds
(R39). -/
def State.commits (s : State) : State × List Resp :=
  if !s.authoritative then (s.heldDiscard, [])
  else
    let due (h : Held) : Bool := decide (h.passedAt + 20000 ≤ s.now)
    let now := heldSort (s.dcp.held.filter due)
    let s := { s with dcp := { s.dcp with held := s.dcp.held.filter fun h => !due h } }
    let c := s.commitAll now
    (c.s, c.resps)

/-- Responses decided at a tick end: they leave at once, unless the standby's confirmation (R38) or a contest's end
(R390) is awaited. -/
def State.respDecided (s : State) (l : List Resp) : State :=
  if s.is PR_STAT_CONTEST || (s.base == .active && s.followed) then
    { s with dcp := { s.dcp with await := s.dcp.await ++ l } }
  else s.each l State.respond

/-! The tick end -/

/-- PR_ACC_CLAIM: the highest ACC_CLAIM of the STATs of the tick. -/
def State.accShow (s : State) : State :=
  ({ s with pair := { s.pair with accMax := 0 } }).wr PR_ACC_CLAIM s.pair.accMax

/-- Tap lines that no bar will screen further lines of let go: those of a job that has ended, once its last gap is composed. -/
def State.tapLinesPrune (s : State) : State :=
  { s with screen := { s.screen with taps := s.screen.taps.filter fun t => (barsOf t.bars).any (s.jobComposes t.ord) } }

/-- What a unit that decides does after its commits (R370, 3 and 4): admissions that waited (R69), readiness checks and
their strips, band changes, REG_AUTO, ARMs, jobs and generations that end; and the copy of what each lasting waste cause
covers so far (R307). -/
def State.tickDecide (s : State) : State :=
  let s := s.each s.fire.opens fun s o => let r := s.openRange o; s.copy 7 ([r.causes] ++ posWords r.lo ++ posWords r.hi)
  let s := if s.authoritative then (s.admitLater.readiness 256).stripsSettle else s
  let s := s.each (List.range 96) State.bandsTick
  let s := s.regSettle.cyclesArm
  let s := s.each (List.range 8) fun s b => (s.armSettle b).digSettle b
  if s.authoritative then s.jobsEnd.freeReleased else s

/-- What every unit does at a tick end beside the pair's and the host's work. -/
def State.tickUpkeep (s : State) : State :=
  s.refRevert.tapsFree.timedPrune.runsPrune.unsentPrune.tapLinesPrune.dbtFlush.proofsSettle

/-- A tick end (R370). -/
def State.tickEnd (s : State) : State :=
  let s := { s with tb := { s.tb with seen := s.tick } }
  let s := (s.linkWiden.backOff).accShow.contestLook.marksSkip
  let r := s.batchBegin.commits
  let s := r.1
  let s := (if s.authoritative then s.timeCommit else s).tickDecide.batchEnd.tickUpkeep.elsyncSend
  let s := (s.servoTick.joinTick.snapshotTick.copyEnd).joinServe
  (s.respDecided r.2).postDone

/-- Device time passes a multiple of 250 µs (R370): once for each, in a running replay of virtual time (R497). -/
def execTickEnd (t : Nat) (s : State) : Host.Outcome State Fault Refusal :=
  run t (fun s =>
    let s := s.replayStep
    if s.tick != s.tb.seen then s.tickEnd else s) s

end Sys2Proof.Machine
end

