-- ==== Sys2Proof/Machine/Dispatch.lean ====
section
/-! DEFINITION. One arm per command: a direct call of its meaning. -/

namespace Sys2Proof.Machine

def exec (i : Instr) (s : State) : Host.Outcome State Fault Refusal :=
  match i with
  | .resetRelease t pairEn unitId mode nonce => Sys2Proof.Machine.execResetRelease t pairEn unitId mode nonce s
  | .configuredEntry t b => Sys2Proof.Machine.execConfiguredEntry t b s
  | .vaoApply t => Sys2Proof.Machine.execVaoApply t s
  | .wake t => Sys2Proof.Machine.execWake t s
  | .pwrGoodFall t => Sys2Proof.Machine.execPwrGoodFall t s
  | .testEnHigh t => Sys2Proof.Machine.execTestEnHigh t s
  | .sleep t h pre post => Sys2Proof.Machine.execSleep t h pre post s
  | .sleepPwrEnFall t => Sys2Proof.Machine.execSleepPwrEnFall t s
  | .dcpOnDp t port => Sys2Proof.Machine.execDcpOnDp t port s
  | .identify t h body => Sys2Proof.Machine.execIdentify t h body s
  | .read t h body => Sys2Proof.Machine.execRead t h body s
  | .write t h body => Sys2Proof.Machine.execWrite t h body s
  | .eventRead t h body => Sys2Proof.Machine.execEventRead t h body s
  | .sessionOpen t h body => Sys2Proof.Machine.execSessionOpen t h body s
  | .sessionClose t h body => Sys2Proof.Machine.execSessionClose t h body s
  | .windowOpen t h body => Sys2Proof.Machine.execWindowOpen t h body s
  | .windowClose t h body => Sys2Proof.Machine.execWindowClose t h body s
  | .surfaceDefine t h body => Sys2Proof.Machine.execSurfaceDefine t h body s
  | .surfaceRelease t h body => Sys2Proof.Machine.execSurfaceRelease t h body s
  | .pageDefine t h body => Sys2Proof.Machine.execPageDefine t h body s
  | .pageClose t h body => Sys2Proof.Machine.execPageClose t h body s
  | .jobDefine t h body => Sys2Proof.Machine.execJobDefine t h body s
  | .jobStart t h body => Sys2Proof.Machine.execJobStart t h body s
  | .jobDrainDone t => Sys2Proof.Machine.execJobDrainDone t s
  | .jobClose t h body => Sys2Proof.Machine.execJobClose t h body s
  | .jobCancel t h body => Sys2Proof.Machine.execJobCancel t h body s
  | .tableLoad t h body => Sys2Proof.Machine.execTableLoad t h body s
  | .imageWrite t h body => Sys2Proof.Machine.execImageWrite t h body s
  | .imageWriteDone t r => Sys2Proof.Machine.execImageWriteDone t r s
  | .keyProgram t h body => Sys2Proof.Machine.execKeyProgram t h body s
  | .keyRevoke t h body => Sys2Proof.Machine.execKeyRevoke t h body s
  | .keyOpDone t ok => Sys2Proof.Machine.execKeyOpDone t ok s
  | .masterSet t h body => Sys2Proof.Machine.execMasterSet t h body s
  | .arpRequest t port src target => Sys2Proof.Machine.execArpRequest t port src target s
  | .neighborSolicitation t port src target => Sys2Proof.Machine.execNeighborSolicitation t port src target s
  | .echoRequest t port src target v6 => Sys2Proof.Machine.execEchoRequest t port src target v6 s
  | .mpLinkDown t => Sys2Proof.Machine.execMpLinkDown t s
  | .mpLinkUp t => Sys2Proof.Machine.execMpLinkUp t s
  | .eventPush t master => Sys2Proof.Machine.execEventPush t master s
  | .gapCommit t h pre post => Sys2Proof.Machine.execGapCommit t h pre post s
  | .tickCommit t h pre post => Sys2Proof.Machine.execTickCommit t h pre post s
  | .arm t h pre post b mask value => Sys2Proof.Machine.execArm t h pre post b mask value s
  | .swap t h pre post => Sys2Proof.Machine.execSwap t h pre post s
  | .restore t h pre post => Sys2Proof.Machine.execRestore t h pre post s
  | .encCfgWrite t h pre post mask value => Sys2Proof.Machine.execEncCfgWrite t h pre post mask value s
  | .tbIncrWrite t h pre post incr => Sys2Proof.Machine.execTbIncrWrite t h pre post incr s
  | .tbOfsAdj t h pre post adj => Sys2Proof.Machine.execTbOfsAdj t h pre post adj s
  | .ofsSlewEnd t => Sys2Proof.Machine.execOfsSlewEnd t s
  | .laneCfgWrite t h pre post l mask value => Sys2Proof.Machine.execLaneCfgWrite t h pre post l mask value s
  | .strobeWrite t h pre post b mask value => Sys2Proof.Machine.execStrobeWrite t h pre post b mask value s
  | .fsWdClr t h pre post bars => Sys2Proof.Machine.execFsWdClr t h pre post bars s
  | .safeInhibit t h pre post => Sys2Proof.Machine.execSafeInhibit t h pre post s
  | .safeClear t h pre post mask value => Sys2Proof.Machine.execSafeClear t h pre post mask value s
  | .barGate t h pre post mask value => Sys2Proof.Machine.execBarGate t h pre post mask value s
  | .switch t h pre post => Sys2Proof.Machine.execSwitch t h pre post s
  | .switchHandover t => Sys2Proof.Machine.execSwitchHandover t s
  | .leave t h pre post => Sys2Proof.Machine.execLeave t h pre post s
  | .clrDemote t h pre post => Sys2Proof.Machine.execClrDemote t h pre post s
  | .revive t h pre post b => Sys2Proof.Machine.execRevive t h pre post b s
  | .resetEst t h pre post b => Sys2Proof.Machine.execResetEst t h pre post b s
  | .regClr t h pre post => Sys2Proof.Machine.execRegClr t h pre post s
  | .stripForce t h pre post bars => Sys2Proof.Machine.execStripForce t h pre post bars s
  | .flush t h pre post n => Sys2Proof.Machine.execFlush t h pre post n s
  | .laneScanMap t h pre post l => Sys2Proof.Machine.execLaneScanMap t h pre post l s
  | .eyeMapDone t l points => Sys2Proof.Machine.execEyeMapDone t l points s
  | .probePop t h pre post n => Sys2Proof.Machine.execProbePop t h pre post n s
  | .ptpRxqPop t h pre post => Sys2Proof.Machine.execPtpRxqPop t h pre post s
  | .ptpSend t h pre post mask value => Sys2Proof.Machine.execPtpSend t h pre post mask value s
  | .ptpTxDone t => Sys2Proof.Machine.execPtpTxDone t s
  | .recArm t h pre post => Sys2Proof.Machine.execRecArm t h pre post s
  | .recTrigger t h pre post => Sys2Proof.Machine.execRecTrigger t h pre post s
  | .recFreeze t h pre post => Sys2Proof.Machine.execRecFreeze t h pre post s
  | .recPostDone t => Sys2Proof.Machine.execRecPostDone t s
  | .snapshot t => Sys2Proof.Machine.execSnapshot t s
  | .replayEnter t h pre post => Sys2Proof.Machine.execReplayEnter t h pre post s
  | .replayRun t h pre post mask value => Sys2Proof.Machine.execReplayRun t h pre post mask value s
  | .tickEnd t => Sys2Proof.Machine.execTickEnd t s
  | .generationFreed t id gen => Sys2Proof.Machine.execGenerationFreed t id gen s
  | .lineComposeStart t b => Sys2Proof.Machine.execLineComposeStart t b s
  | .bankCopyDone t b => Sys2Proof.Machine.execBankCopyDone t b s
  | .lineSend t ch => Sys2Proof.Machine.execLineSend t ch s
  | .lineDeadline t ch => Sys2Proof.Machine.execLineDeadline t ch s
  | .retimeCycle t ch => Sys2Proof.Machine.execRetimeCycle t ch s
  | .gapStart t slot page => Sys2Proof.Machine.execGapStart t slot page s
  | .lineMatch t slot page => Sys2Proof.Machine.execLineMatch t slot page s
  | .pageDone t slot page => Sys2Proof.Machine.execPageDone t slot page s
  | .hdmHbSend t l => Sys2Proof.Machine.execHdmHbSend t l s
  | .tsyncSend t l => Sys2Proof.Machine.execTsyncSend t l s
  | .controlResend t l => Sys2Proof.Machine.execControlResend t l s
  | .encEdge t n a b z ago => Sys2Proof.Machine.execEncEdge t n a b z ago s
  | .probeEdge t n rising ago => Sys2Proof.Machine.execProbeEdge t n rising ago s
  | .standstill t n => Sys2Proof.Machine.execStandstill t n s
  | .estimateUpdate t => Sys2Proof.Machine.execEstimateUpdate t s
  | .speedReqRelease t => Sys2Proof.Machine.execSpeedReqRelease t s
  | .encoEdge t n => Sys2Proof.Machine.execEncoEdge t n s
  | .refInputBad t input => Sys2Proof.Machine.execRefInputBad t input s
  | .refInputGood t input => Sys2Proof.Machine.execRefInputGood t input s
  | .refDiffWindow t diff => Sys2Proof.Machine.execRefDiffWindow t diff s
  | .bridgeFrame t port f => Sys2Proof.Machine.execBridgeFrame t port f s
  | .orderedSet t l o => Sys2Proof.Machine.execOrderedSet t l o s
  | .signalDetect t l => Sys2Proof.Machine.execSignalDetect t l s
  | .trainTimeout t e => Sys2Proof.Machine.execTrainTimeout t e s
  | .backoffExpiry t l => Sys2Proof.Machine.execBackoffExpiry t l s
  | .absentTimeout t l => Sys2Proof.Machine.execAbsentTimeout t l s
  | .laneLost t l cause cv disp => Sys2Proof.Machine.execLaneLost t l cause cv disp s
  | .l1Entry t l => Sys2Proof.Machine.execL1Entry t l s
  | .l2Entry t l => Sys2Proof.Machine.execL2Entry t l s
  | .hdmIdleExit t l => Sys2Proof.Machine.execHdmIdleExit t l s
  | .pwrExitTimeout t l => Sys2Proof.Machine.execPwrExitTimeout t l s
  | .eyeScan t l w h => Sys2Proof.Machine.execEyeScan t l w h s
  | .statReceived t l r => Sys2Proof.Machine.execStatReceived t l r s
  | .statLost t l => Sys2Proof.Machine.execStatLost t l s
  | .tsyncReply t l r => Sys2Proof.Machine.execTsyncReply t l r s
  | .idrsReceived t l r => Sys2Proof.Machine.execIdrsReceived t l r s
  | .ackReceived t l a => Sys2Proof.Machine.execAckReceived t l a s
  | .recordDiscard t l => Sys2Proof.Machine.execRecordDiscard t l s
  | .watchdogTrip t bar high => Sys2Proof.Machine.execWatchdogTrip t bar high s
  | .fireInhibit t => Sys2Proof.Machine.execFireInhibit t s
  | .inhibitRelease t high => Sys2Proof.Machine.execInhibitRelease t high s
  | .csiFrameStart t port hdr ago => Sys2Proof.Machine.execCsiFrameStart t port hdr ago s
  | .csiLine t port vc hdr dtype words crcOk raw => Sys2Proof.Machine.execCsiLine t port vc hdr dtype words crcOk raw s
  | .csiFrameEnd t port hdr => Sys2Proof.Machine.execCsiFrameEnd t port hdr s
  | .pipeSwitch t => Sys2Proof.Machine.execPipeSwitch t s
  | .lineProcessed t => Sys2Proof.Machine.execLineProcessed t s
  | .camSilent t n => Sys2Proof.Machine.execCamSilent t n s
  | .proofResult t slot page => Sys2Proof.Machine.execProofResult t slot page s
  | .obsMatch t => Sys2Proof.Machine.execObsMatch t s
  | .accWindowTimeout t => Sys2Proof.Machine.execAccWindowTimeout t s
  | .columnSolve t => Sys2Proof.Machine.execColumnSolve t s
  | .applyCycle t b => Sys2Proof.Machine.execApplyCycle t b s
  | .confDecay t => Sys2Proof.Machine.execConfDecay t s
  | .whiteStale t x => Sys2Proof.Machine.execWhiteStale t x s
  | .hello t a h => Sys2Proof.Machine.execHello t a h s
  | .helloSend t => Sys2Proof.Machine.execHelloSend t s
  | .ecnalHb t ago a h => Sys2Proof.Machine.execEcnalHb t ago a h s
  | .ecnalHbSend t => Sys2Proof.Machine.execEcnalHbSend t s
  | .tsFrame t h tick part parts entries => Sys2Proof.Machine.execTsFrame t h tick part parts entries s
  | .digestFrame t h items => Sys2Proof.Machine.execDigestFrame t h items s
  | .resyncFrame t h tick obj => Sys2Proof.Machine.execResyncFrame t h tick obj s
  | .ecnalAck t a k => Sys2Proof.Machine.execEcnalAck t a k s
  | .ecnalResend t => Sys2Proof.Machine.execEcnalResend t s
  | .elsync t el rtt skew => Sys2Proof.Machine.execElsync t el rtt skew s
  | .partnerLost t => Sys2Proof.Machine.execPartnerLost t s
  | .copyDeadline t => Sys2Proof.Machine.execCopyDeadline t s
  | .pairTimeout t => Sys2Proof.Machine.execPairTimeout t s
  | .contestTimeout t => Sys2Proof.Machine.execContestTimeout t s
  | .garnetCheck t ch seq pchk => Sys2Proof.Machine.execGarnetCheck t ch seq pchk s
  | .garnetFocusEnd t ch => Sys2Proof.Machine.execGarnetFocusEnd t ch s
  | .tempSample t diode vdd => Sys2Proof.Machine.execTempSample t diode vdd s
  | .shutdownPwrEnFall t => Sys2Proof.Machine.execShutdownPwrEnFall t s
  | .throttleEval t => Sys2Proof.Machine.execThrottleEval t s
  | .pmbusPoll t answers => Sys2Proof.Machine.execPmbusPoll t answers s
  | .pmbAlert t answers => Sys2Proof.Machine.execPmbAlert t answers s
  | .supplyDip t mv => Sys2Proof.Machine.execSupplyDip t mv s
  | .supplyRecovered t mv => Sys2Proof.Machine.execSupplyRecovered t mv s
  | .supplyReset t mv => Sys2Proof.Machine.execSupplyReset t mv s
  | .fatal t => Sys2Proof.Machine.execFatal t s
  | .storeUe t block c0 => Sys2Proof.Machine.execStoreUe t block c0 s
  | .storeCe t => Sys2Proof.Machine.execStoreCe t s
  | .patrolScrub t corrected => Sys2Proof.Machine.execPatrolScrub t corrected s
  | .dbtFragment t port from_ h payload => Sys2Proof.Machine.execDbtFragment t port from_ h payload s
  | .dbtVerifyDone t session window xferId => Sys2Proof.Machine.execDbtVerifyDone t session window xferId s
  | .dbtTimeout t session window xferId => Sys2Proof.Machine.execDbtTimeout t session window xferId s
  | .rdreq t port from_ h => Sys2Proof.Machine.execRdreq t port from_ h s
  | .dpLinkLoss t port => Sys2Proof.Machine.execDpLinkLoss t port s
  | .stripFetch t id gen k => Sys2Proof.Machine.execStripFetch t id gen k s
  | .stripDecodeEnd t n => Sys2Proof.Machine.execStripDecodeEnd t n s
  | .encoderVerify t n o => Sys2Proof.Machine.execEncoderVerify t n o s
  | .resetNLow t => Sys2Proof.Machine.execResetNLow t s
  | .vaoRemove t => Sys2Proof.Machine.execVaoRemove t s
  | .tapInstruction t ti => Sys2Proof.Machine.execTapInstruction t ti s
  | .mpFrameDropped t k => Sys2Proof.Machine.execMpFrameDropped t k s
  | .unknownOpcode t op h body => Sys2Proof.Machine.execUnknownOpcode t op h body s
  | .eiAnswerTimeout t l => Sys2Proof.Machine.execEiAnswerTimeout t l s
  | .equalisationDone t l trials w h ctle dfe => Sys2Proof.Machine.execEqualisationDone t l trials w h ctle dfe s
  | .ts2Sent t l => Sys2Proof.Machine.execTs2Sent t l s
  | .exitToL0Done t l => Sys2Proof.Machine.execExitToL0Done t l s
  | .dramMr4Poll t rate => Sys2Proof.Machine.execDramMr4Poll t rate s

end Sys2Proof.Machine
end

