-- ==== Sys2Proof/Machine/Wire.lean ====
section
/-! DEFINITION. The bytes on the wire of everything the unit sends and receives as records, frames and messages: Joend
records in both directions (R252–R287), ordered sets (R235), Ecnal frames (R375–R385, R401), DBT headers (R57, R60) and
DCP messages (R413, R435); and what R254 and R376 take of the bytes received. All are big-endian (R5). -/

namespace Sys2Proof.Machine

/-- A 32-bit word's four bytes. -/
def wordBytes (w : Nat) : List Byte := beBytes 4 (w % 2 ^ 32)

/-- Several words' bytes. -/
def wordsBytes (ws : List Nat) : List Byte := ws.flatMap wordBytes

/-- A byte list with zero bytes up to a multiple of 4. -/
def padTo4 (bs : List Byte) : List Byte := bs ++ List.replicate (cdiv bs.length 4 * 4 - bs.length) 0

/-- A record or frame: its first word with TYPE, FLAGS and LEN, its content, and the CRC-32C of all of it (R253, R375). -/
def frameBytes (type flags : Nat) (content : List Byte) : List Byte :=
  let bs := wordBytes (type * 2 ^ 24 + flags % 256 * 2 ^ 16 + (content.length + 8)) ++ content
  bs ++ beBytes 4 (crc32c bs)

/-! Joend (R252–R287) -/

/-- A symbol of a record on a lane (R252). -/
inductive RecSymbol where
  | k27 | data (b : Byte) | k29
  deriving DecidableEq, Repr

/-- What a lane sends while it sends no ordered set and no record (R232, R237, R246, R252). -/
inductive LaneRest where
  | off | electricalIdle | idlePair
  deriving DecidableEq, Repr

/-- A lane's rest: K28.5 D16.2 between sets and records; electrical idle in BACKOFF, ABSENT, L1 and L2; off in DISABLED. -/
def State.laneRest (s : State) (l : Nat) : LaneRest :=
  if s.tstate l = tsDisabled then .off
  else if s.tstate l = tsBackoff ∨ s.tstate l = tsAbsent ∨ (s.ready l ∧ (s.pstate l = 1 ∨ s.pstate l = 2)) then .electricalIdle
  else .idlePair

/-- The idle pair's two characters before 8b/10b coding: K28.5 and D16.2, each with whether it is a K character (R232). -/
def idlePairBytes : List (Bool × Byte) := [(true, 0xBC), (false, 0x50)]

/-- A record as symbols (R252). -/
def recSymbols (bs : List Byte) : List RecSymbol := .k27 :: (bs.map .data ++ [.k29])

/-- A downstream record (R256, R263, R265, R277, R278, R286). -/
def JRec.bytes : JRec → List Byte
  | .line claim seq stamp num void bits3 gap test slots pchk payload =>
    frameBytes 0x01 (b2n void + 2 * b2n bits3 + 4 * b2n gap + 8 * b2n test)
      (wordsBytes [claim, seq % 2 ^ 24 * 256, stamp, num, slots % 2 ^ 14, pchk] ++ padTo4 payload)
  | .retime claim first delta entries =>
    frameBytes 0x02 (b2n delta) (wordsBytes [claim, first % 2 ^ 24 * 256 + entries.length % 256] ++
      (if delta then padTo4 (entries.flatMap fun d => beBytes 2 (unsgn 16 d))
       else entries.flatMap fun d => beBytes 4 (unsgn 32 d)))
  | .tsync claim id t1 lat rate =>
    frameBytes 0x03 (b2n lat.isSome)
      (wordsBytes [claim, t1 / 2 ^ 32, t1, lat.getD 0 % 2 ^ 24, unsgn 32 rate, id % 2 ^ 16])
  | .hb claim next safe => frameBytes 0x07 (b2n safe) (wordsBytes [claim, next % 2 ^ 24 * 256, 0])
  | .set claim applySeq recId entries =>
    frameBytes 0x05 0 (wordsBytes ([claim, applySeq % 2 ^ 24 * 256, recId % 2 ^ 16 * 2 ^ 16 + entries.length % 256] ++
      entries.map fun e => e.1 % 256 * 2 ^ 24 + e.2 % 2 ^ 24))
  | .wave claim applySeq recId head band waveId =>
    frameBytes 0x04 0 (wordsBytes [claim, applySeq % 2 ^ 24 * 256 + head % 16 * 16,
      recId % 2 ^ 16 * 2 ^ 16 + band % 256 * 256 + waveId % 256])
  | .idrq claim head => frameBytes 0x06 0 (wordsBytes [claim, head % 4])

end Sys2Proof.Machine

namespace Sys2Proof
open Sys2Proof.Machine

/-- A STAT record (R284). -/
def StatRec.bytes (r : StatRec) : List Byte :=
  frameBytes 0x81 (b2n r.urgent) (wordsBytes
    [r.accClaim, r.lastSeq * 256 + (b2n r.stbLong + 2 * b2n r.stbNow + 4 * b2n r.barEnLow + 8 * b2n r.timeValid), r.bufFill,
      r.fallback * 2 ^ 16 + r.mismatch, r.lastMm * 256, r.late * 2 ^ 16 + r.empty, r.temp1 * 2 ^ 16 + r.temp0,
      r.temp3 * 2 ^ 16 + r.temp2, r.err * 2 ^ 16 + r.suppressed, r.stbMax])

/-- An upstream TSYNC (R266). -/
def TsyncReply.bytes (r : TsyncReply) : List Byte :=
  frameBytes 0x83 (b2n r.timeValid) (wordsBytes [r.tsId, r.turn, r.th3])

/-- An IDRS record (R286). -/
def IdrsRec.bytes (r : IdrsRec) : List Byte :=
  frameBytes 0x86 (b2n r.nohead) (wordsBytes [r.heads * 2 ^ 24 + r.head * 2 ^ 16 + r.depth, r.hdmRev * 2 ^ 16, r.slotBase] ++
    r.ident)

/-- An ACK record of an HDM (R281). -/
def AckRec.bytes (r : AckRec) : List Byte :=
  frameBytes 0x88 (b2n r.late + 2 * b2n r.refused) (wordsBytes [r.ackType * 2 ^ 24 + r.recId, r.appliedSeq * 256])

/-- The sixteen symbols of an ordered set after its K28.5 (R235). -/
def OrdSet.bytes (o : OrdSet) : List Byte :=
  beBytes 1 o.kind ++ beBytes 1 o.rates ++ beBytes 1 (b2n o.src * 128 + o.unit % 2) ++ beBytes 2 o.lane ++
    beBytes 1 (b2n o.ffeValid * 8 + o.ffeReq % 8) ++ beBytes 1 (b2n o.eqDone + 2 * b2n o.fast) ++ List.replicate 8 0x4A

/-- A DBT header (R57). -/
def DbtHdr.bytes (h : DbtHdr) : List Byte :=
  wordsBytes [h.magic * 2 ^ 16 + h.ver * 2 ^ 12 + h.kind * 2 ^ 8 + h.flags, h.session,
    h.window * 2 ^ 24 + h.frag * 2 ^ 16 + h.fragCount * 256 + h.reason, h.xferId, h.objIndex,
    h.payloadLen * 2 ^ 16 + h.resv, h.xferLen, h.xferCrc]

/-- An Ecnal HB (R378). -/
def HbFrame.bytes (h : HbFrame) : List Byte :=
  frameBytes 0x21 0 (wordsBytes ([h.claim, 0, h.hbSeq, h.tTx / 2 ^ 32, h.tTx, h.rxSeq, h.tRx / 2 ^ 32, h.tRx, h.flags, h.tick,
    h.items.length * 2 ^ 24] ++ h.items.flatMap fun i => [i.w0, i.w1, i.w2, i.w3]))

/-- A HELLO (R385). -/
def HelloFrame.bytes (h : HelloFrame) : List Byte :=
  frameBytes 0x20 0 (wordsBytes [h.claim, 0, h.unit % 2 + h.role % 16 * 16 + b2n h.stale * 256 + b2n h.demoted * 512,
    h.epoch % 2 ^ 24])

/-- An Ecnal ACK (R376). -/
def AckFrame.bytes (a : AckFrame) : List Byte :=
  frameBytes 0x25 0 (wordsBytes [a.claim, 0, a.nextFseq, a.appliedTick, a.ready0, a.ready1, a.ready2])

end Sys2Proof

namespace Sys2Proof.Machine

/-- What the unit received on a head lane. -/
inductive UpRec where
  | stat (r : StatRec)
  | tsync (r : TsyncReply)
  | idrs (r : IdrsRec)
  | ack (r : AckRec)
  deriving DecidableEq, Repr

/-- The bytes of an upstream record. -/
def UpRec.bytes : UpRec → List Byte
  | .stat r => r.bytes
  | .tsync r => r.bytes
  | .idrs r => r.bytes
  | .ack r => r.bytes

/-- The fields of an upstream record of a TYPE, wherever its other bits stand. -/
def upFields (bs : List Byte) : Option UpRec :=
  let w (o : Nat) : Nat := beAt bs o 4
  let flags := beAt bs 1 1
  match beAt bs 0 1 with
  | 0x81 => some (.stat ⟨bit flags 0, w 4, bits (w 8) 31 8, bit (w 8) 0, bit (w 8) 1, bit (w 8) 2, bit (w 8) 3,
      bits (w 12) 15 0, bits (w 16) 15 0, bits (w 16) 31 16, bits (w 20) 31 8, bits (w 24) 15 0, bits (w 24) 31 16,
      bits (w 28) 15 0, bits (w 28) 31 16, bits (w 32) 15 0, bits (w 32) 31 16, bits (w 36) 15 0, bits (w 36) 31 16,
      bits (w 40) 15 0⟩)
  | 0x83 => some (.tsync ⟨bit flags 0, bits (w 4) 15 0, w 8, w 12⟩)
  | 0x86 => some (.idrs ⟨bit flags 0, bits (w 4) 31 24, bits (w 4) 23 16, bits (w 4) 15 0, bits (w 8) 31 16, bits (w 12) 13 0,
      slice bs 16 64⟩)
  | 0x88 => some (.ack ⟨bit flags 0, bit flags 1, bits (w 4) 31 24, bits (w 4) 15 0, bits (w 8) 31 8⟩)
  | _ => none

/-- R254: the record that received bytes are, or none where the DT968 discards them: a CRC that fails, a TYPE unknown or
of the other direction, a LEN that is not the bytes' number or breaks the layout, a reserved bit that is not 0. Each of
these makes the bytes differ from those of the record with their fields. -/
def upParse (bs : List Byte) : Option UpRec :=
  match upFields bs with
  | some r => if r.bytes = bs then some r else none
  | none => none

/-! Ordered sets (R235) -/

/-- The TYPE of an ordered set; none for the end of traffic. -/
def LaneSig.kind : LaneSig → Option Nat
  | .ts1 => some 0x4A
  | .ts2 => some 0x45
  | .ei1 => some 0x7C
  | .ei2 => some 0x7D
  | .idle => none

/-- The ordered set the unit sends on a lane: in TS1 every rate it allows, in TS2 the agreed rate; `ffe` is the preset requested
of the far end (R240). -/
def State.setSent (s : State) (l : Nat) (g : LaneSig) (fast : Bool) (ffe : Option Nat) : Option OrdSet :=
  let own := s.get (LANE_CFG_RATE_EN l)
  let agreed := agreedRate own (s.laneSt l).farRates
  g.kind.map fun k =>
    { kind := k, rates := if g = .ts2 then (if agreed = 0 then 0 else 2 ^ (agreed - 1)) else own, src := true
      unit := b2n s.unitId, lane := laneField l, ffeValid := ffe.isSome, ffeReq := ffe.getD 0
      eqDone := (s.laneSt l).eqMine, fast := fast, resv := 0 }

/-! Ecnal (R375–R385, R401) -/

/-- An entry of a tick state copy (R381). -/
def TsEntry.bytes (e : TsEntry) : List Byte :=
  wordsBytes ((e.kind % 256 * 2 ^ 24 + e.words.length % 256 * 2 ^ 16) :: e.words)

/-- A digest item (R376). -/
def DigestItem.bytes (d : DigestItem) : List Byte :=
  wordsBytes [d.surf % 2 ^ 16 * 2 ^ 16 + d.gen % 2 ^ 16, d.slot % 2 ^ 24, d.len % 2 ^ 18, d.digest]

/-- A frame as sent. -/
def EFrame.bytes : EFrame → List Byte
  | .hb h => h.bytes
  | .hello h => h.bytes
  | .ack a => a.bytes
  | .ts claim fseq tick part parts entries =>
    frameBytes 0x22 0 (wordsBytes [claim, fseq, tick, part % 2 ^ 16 * 2 ^ 16 + parts % 2 ^ 16] ++ entries.flatMap TsEntry.bytes)
  | .digest claim fseq items => frameBytes 0x23 0 (wordsBytes [claim, fseq] ++ items.flatMap DigestItem.bytes)
  | .resync claim fseq tick code index offset words =>
    frameBytes 0x24 0 (wordsBytes ([claim, fseq, tick, code * 2 ^ 24 + index % 2 ^ 24, offset] ++ words))
  | .elsync _ claim t => frameBytes 0x2F 0 (wordsBytes [claim, 0, t / 2 ^ 32, t])

/-- A frame's words on the lanes of a running set, in ascending order (R374): word i on lane i mod w, zero words up to a multiple of
w, each lane's share between K27.7 and K29.7. -/
def laneShares (set : List Nat) (bs : List Byte) : List (Nat × List RecSymbol) :=
  let w := set.length
  let rounds := cdiv (cdiv bs.length 4) w
  let word (i : Nat) : List Byte := (List.range 4).map fun k => bs.getD (4 * i + k) 0
  set.zipIdx.map fun l => (l.1, recSymbols ((List.range rounds).flatMap fun r => word (r * w + l.2)))

/-- What a frame sends on each EL lane: an ELSYNC on its own lane alone (R380), any other on the running set (R374). -/
def State.frameShares (s : State) (f : EFrame) : List (Nat × List RecSymbol) :=
  match f with
  | .elsync el _ _ => laneShares [el] f.bytes
  | _ => laneShares s.pair.linkSet f.bytes

/-- Whether received bytes are a frame whose CRC and LEN hold (R376). -/
def frameOk (bs : List Byte) : Bool :=
  bs.length % 4 == 0 && decide (16 ≤ bs.length) && decide (bs.length ≤ 2048) && beAt bs 2 2 == bs.length &&
    beAt bs (bs.length - 4) 4 == crc32c (bs.take (bs.length - 4))

/-! DBT and DCP -/

/-- An ACK, or a NAK with its reason (R60): FRAG_COUNT and XFER_LEN are its transfer's, within R57's limits (log 51). -/
def DbtReply.bytes (r : DbtReply) : List Byte :=
  DbtHdr.bytes ⟨0xDB70, 1, if r.reason = 0 then 1 else 2, 0, r.session, r.window, 0, r.fragCount, r.reason, r.id,
    r.obj, 0, 0, r.len, r.crc⟩

/-- A response with its MAC (R413). -/
def Resp.bytes (r : Resp) (mac : Nat) : List Byte := r.msg ++ beBytes 16 mac

/-- An EVENT message with its MAC (R435). -/
def eventBytes (master count : Nat) (recs : List EventRec) (mac : Nat) : List Byte :=
  dcpMsg (dcpWord0 2) 0xE0 master (24 * recs.length) 0 count 0 0 0 0 (recs.flatMap EventRec.words) ++ beBytes 16 mac

/-- The bytes of what is sent, where the manual lays them out; the network answers and PTP keep the layouts of their
standards, and a bridged frame leaves as it came but for what R218 corrects. -/
def Sent.bytes : Sent → Option (List Byte)
  | .dcp r mac => some (r.bytes mac)
  | .event master _ count recs mac => some (eventBytes master count recs mac)
  | .dbt r => some r.bytes
  | .rddata _ _ session window xferId obj frag fragCount len crc bs =>
    some (DbtHdr.bytes ⟨0xDB70, 1, 4, 0, session, window, frag, fragCount, 0, xferId, obj, bs.length, 0, len, crc⟩ ++ bs)
  | .ptp _ _ _ bs => some bs
  | .joend _ r => some r.bytes
  | .ecnal f => some f.bytes
  | .tapId id => some (beBytes 4 id)
  | .bridged _ _ bs => bs
  | .arp .. | .neighbor .. | .echo .. | .lane .. | .tapScan _ | .pmbRead .. => none

end Sys2Proof.Machine
end

