-- ==== Sys2Proof/Safety.lean ====
section
/-! DEFINITION. What a sound state is and what a command leaves alone, in the terms the statements use: memories in
their canonical form, the words that show one fact in two registers in agreement (R522), the events a command raises,
and the state but for what the unit derives and reports of its own accord. -/

namespace Sys2Proof.Machine

/-- The canonical form of the job store. -/
abbrev Memory.wf (s : State) : Prop := swf memReset s.mem = true

/-- Every sparse file of the state in its canonical form: addresses strictly rising, nothing listed that an unlisted
address reads as. -/
def State.canonical (s : State) : Bool :=
  swf wordReset s.words && swf wordReset s.shadow && swf memReset s.mem && swf flashReset s.flash

/-- GL_ROLE_STAT bits 10 to 4 as GL_DEGRADED, FS_SAFE_STAT and PR_STAT stand, whenever the core runs (R522). -/
def State.rolesAgree (s : State) : Prop := s.core = .running → s.get ⟨GL_ROLE_STAT, 10, 4⟩ = s.overlays

/-- One byte of the job store. -/
def State.byte (s : State) (a : Nat) : Byte := Sys2Proof.Machine.sget memReset s.mem a

/-- Whether a byte of the job store belongs to the recorder's ring (R46, R489). -/
def State.inRing (s : State) (a : Nat) : Bool := decide (s.rgnBase 6 ≤ a) && decide (a < s.rgnBase 6 + s.rgnSize 6)

/-- The registers that show what follows from any effect: the event ring's (R433), the recorder's state, triggers and
losses (R491–R493), the waste marker's (R306), and the conditions of R522. -/
def shown : List Nat :=
  [EV_NEXT_SEQ, EV_OLDEST_SEQ, EV_IRQ_STAT, EV_PUSH_STAT, AG_STAT, FS_WM_STAT, GL_DEGRADED, GL_ROLE_STAT]

/-- The state without its words and store, the event ring, the recorder, events gathered for pushes, waste marking, the levels on the
output pins and the copy entries under way: what a command's own effect is compared on beside the words and the store. -/
def State.bare (s : State) : State :=
  { s with words := [], mem := [], events := [], agate := Recorder.reset, dcp := { s.dcp with push := [] }
           fire := { s.fire with ranges := [], opens := [], waste0 := true, waste1 := true }
           web := { s.web with pins := [] }, pair := { s.pair with entries := [] } }

/-- `s'` is `x` but for what the unit reports and derives after any effect: every other field of the state is the same,
every register and table word outside `shown` reads the same, so do the fields of GL_ROLE_STAT and GL_DEGRADED that no
overlay owns, and every byte of the job store outside the recorder's ring. -/
structure Rest (x s' : State) : Prop where
  bare : s'.bare = x.bare
  words : ∀ a, a ∉ shown → s'.rd a = x.rd a
  state : s'.get ⟨GL_ROLE_STAT, 3, 0⟩ = x.get ⟨GL_ROLE_STAT, 3, 0⟩
  straps : s'.get ⟨GL_ROLE_STAT, 15, 11⟩ = x.get ⟨GL_ROLE_STAT, 15, 11⟩
  trim : s'.get ⟨GL_DEGRADED, 31, 6⟩ = x.get ⟨GL_DEGRADED, 31, 6⟩
  mem : ∀ a, x.inRing a = false → s'.byte a = x.byte a

/-- Events put in the ring one after the other. -/
def ringAll (l es : List EventRec) : List EventRec := es.foldl ringPush l

/-- The record of an event of the state's next sequence number, at its device time (R433). -/
def State.eventNext (s : State) (code a0 a1 a2 : Nat) : EventRec :=
  ⟨code % 0x10000, a0 % 0x10000, s.get EV_NEXT_SEQ_SEQ, s.now, a1 % 2 ^ 32, a2 % 2 ^ 32⟩

/-- From `s` to `s'` the first event raised is the one named, with the next sequence number and the device time of
`s`; `more` may follow it. -/
def Reports (s s' : State) (code a0 a1 a2 : Nat) : Prop :=
  ∃ more, s'.events = ringAll s.events (s.eventNext code a0 a1 a2 :: more)

/-- From `s` to `s'` an event of this code and ARG0 is among those raised. -/
def Raises (s s' : State) (code a0 : Nat) : Prop :=
  ∃ l, s'.events = ringAll s.events l ∧ ∃ e ∈ l, e.code = code ∧ e.arg0 = a0

/-- What a core that stops leaves of `s` (R14, R460, R476, R480, R517): everything as after a reset, with the core and
base state named and the always-on domain `ao`; but for the words the always-on domain and the event store keep, the
flash, OTP, the TAP and its cells, what has been sent, the commands that wait, the clock and the levels on the pins. -/
structure Halted (s : State) (core : CoreRun) (b : Base) (ao : AlwaysOn) (s' : State) : Prop where
  rest : s' = { State.reset with
    pending := s.pending, clk := s.clk, frc0 := s.frc0, free := s.free, out := s.out, core := core, base := b
    words := s'.words, flash := s.flash, otp := s.otp, ao := ao, tap := s.tap
    cells := s.cells, web := { Web.reset with pins := (List.range 2).map s.encoPins }
    fire := { Fire.reset with inhPin := s.fire.inhPin, stbSense := s.fire.stbSense } }
  lost : ∀ a, keptWord a = false → s'.rd a = (wordReset a).toNat
  kept : ∀ a, keptWord a = true → a ≠ PW_SHUT_STAT → s'.rd a = s.rd a
  count : s'.get PW_SHUT_STAT_NV_COUNT = s.get PW_SHUT_STAT_NV_COUNT
  latched : s'.get PW_SHUT_STAT_LATCHED = s.get PW_SHUT_STAT_LATCHED
  full : s'.get PW_SHUT_STAT_NV_FULL = 0

/-! Lanes -/

/-- Nothing is ready on a lane that R255 puts before a LINE record or an HB: no TSYNC is due, no retime cycle, and no WAVE or SET
waits. -/
def State.laneClear (s : State) (l : Nat) : Bool :=
  !s.past (s.laneSt l).tsyncAt (s.get TB_HDM_CFG_TSYNC_US * 1000) &&
    !s.past (s.laneSt l).retimeAt (s.get JL_RT_CFG_CYCLE_US * 1000) && (s.laneSt l).ctl.all (·.copies != 0)

/-- The TSYNC that would leave on a lane now (R265). -/
def State.tsyncNow (s : State) (l : Nat) : JRec :=
  .tsync s.claim (s.laneSt l).tsId s.now (if s.is (JL_LAT_VALID l) then some (s.get (JL_LAT_LAT l)) else none) s.tsyncRate

/-! Requests (R412–R417) -/

/-- A request with every field in its width. -/
def request (t op : Nat) (h : DcpHdr) (body : List Nat) : Option (Nat × Nat × DcpHdr × List Nat) :=
  some (t, op % 256, hdrNorm h, body.map (· % 2 ^ 32))

/-- A WRITE request with a row's own items among others. -/
def writeRow (t : Nat) (h : DcpHdr) (pre post mine : List WriteItem) : Option (Nat × Nat × DcpHdr × List Nat) :=
  request t 0x02 h (around pre post mine)

/-- The DCP request that a row of the table carries: its instant, opcode, header and body words. -/
def rowRequest : Instr → Option (Nat × Nat × DcpHdr × List Nat)
  | .identify t h body => request t 0x00 h body
  | .read t h body => request t 0x01 h body
  | .write t h body => request t 0x02 h body
  | .eventRead t h body => request t 0x03 h body
  | .sessionOpen t h body => request t 0x08 h body
  | .sessionClose t h body => request t 0x09 h body
  | .windowOpen t h body => request t 0x0A h body
  | .windowClose t h body => request t 0x0B h body
  | .surfaceDefine t h body => request t 0x10 h body
  | .surfaceRelease t h body => request t 0x11 h body
  | .pageDefine t h body => request t 0x12 h body
  | .pageClose t h body => request t 0x13 h body
  | .jobDefine t h body => request t 0x14 h body
  | .jobStart t h body => request t 0x15 h body
  | .jobClose t h body => request t 0x16 h body
  | .jobCancel t h body => request t 0x17 h body
  | .tableLoad t h body => request t 0x18 h body
  | .imageWrite t h body => request t 0x20 h body
  | .keyProgram t h body => request t 0x30 h body
  | .keyRevoke t h body => request t 0x31 h body
  | .masterSet t h body => request t 0x32 h body
  | .unknownOpcode t op h body => if opcodes.contains (op % 256) then none else request t op h body
  | .gapCommit t h pre post => writeRow t h pre post [⟨GL_CMT_CTRL, 1, 1⟩]
  | .tickCommit t h pre post => writeRow t h pre post [⟨GL_CMT_CTRL, 2, 2⟩]
  | .arm t h pre post b mask value =>
    if b < 8 then writeRow t h pre post [setting (SC_BAR_APPLY_CTRL b) 0x200 mask value] else none
  | .swap t h pre post => writeRow t h pre post [⟨WP_SRC_CTRL, 1, 1⟩]
  | .restore t h pre post => writeRow t h pre post [⟨WP_SRC_CTRL, 2, 2⟩]
  | .encCfgWrite t h pre post mask value => writeRow t h pre post [⟨WP_ENC_CFG, mask, value⟩]
  | .tbIncrWrite t h pre post incr =>
    writeRow t h pre post [⟨TB_INCR_LO, 0xFFFFFFFF, incr % 2 ^ 32⟩, ⟨TB_INCR_HI, 0xFFFFFFFF, incr / 2 ^ 32⟩]
  | .tbOfsAdj t h pre post adj =>
    writeRow t h pre post [⟨TB_OFS_ADJ_LO, 0xFFFFFFFF, unsgn 64 adj % 2 ^ 32⟩, ⟨TB_OFS_ADJ_HI, 0xFFFFFFFF, unsgn 64 adj / 2 ^ 32⟩]
  | .laneCfgWrite t h pre post l mask value =>
    if l < 100 then writeRow t h pre post [⟨LANE_CFG l, mask, value⟩] else none
  | .strobeWrite t h pre post b mask value =>
    if b < 8 then writeRow t h pre post [⟨FS_BAR_STB b, mask, value⟩] else none
  | .fsWdClr t h pre post bars => writeRow t h pre post [⟨FS_WD_CLR, 0xFF, bars⟩]
  | .safeInhibit t h pre post => writeRow t h pre post [⟨FS_SAFE_CTRL, 1, 1⟩]
  | .safeClear t h pre post mask value => writeRow t h pre post [⟨FS_SAFE_CTRL, mask % 2 ||| 2, value % 2 ||| 2⟩]
  | .barGate t h pre post mask value => writeRow t h pre post [⟨PW_GATE, mask, value⟩]
  | .switch t h pre post => writeRow t h pre post [⟨PR_CTRL, 1, 1⟩]
  | .leave t h pre post => writeRow t h pre post [⟨PR_CTRL, 2, 2⟩]
  | .clrDemote t h pre post => writeRow t h pre post [⟨PR_CTRL, 4, 4⟩]
  | .revive t h pre post b => if b < 8 then writeRow t h pre post [⟨BY_BAR_CTRL b, 1, 1⟩] else none
  | .resetEst t h pre post b => if b < 8 then writeRow t h pre post [⟨BY_BAR_CTRL b, 2, 2⟩] else none
  | .regClr t h pre post => writeRow t h pre post [⟨BY_CTRL, 0x400, 0x400⟩]
  | .stripForce t h pre post bars => writeRow t h pre post [⟨BY_STRIP_CTRL, 0xFF, bars⟩]
  | .flush t h pre post n => if n < 4 then writeRow t h pre post [⟨CS_ENC_CTRL n, 1, 1⟩] else none
  | .laneScanMap t h pre post l => if l < 100 then writeRow t h pre post [⟨LANE_SCAN_CTRL l, 1, 1⟩] else none
  | .probePop t h pre post n => if n < 4 then writeRow t h pre post [⟨WP_PRB_CTRL n, 1, 1⟩] else none
  | .ptpRxqPop t h pre post => writeRow t h pre post [⟨HP_PTP_RXQ_CTRL, 1, 1⟩]
  | .ptpSend t h pre post mask value => writeRow t h pre post [setting HP_PTP_TX_CTRL 1 mask value]
  | .recArm t h pre post => writeRow t h pre post [⟨AG_CTRL, 1, 1⟩]
  | .recTrigger t h pre post => writeRow t h pre post [⟨AG_CTRL, 2, 2⟩]
  | .recFreeze t h pre post => writeRow t h pre post [⟨AG_CTRL, 4, 4⟩]
  | .replayEnter t h pre post => writeRow t h pre post [⟨AG_RP_CTRL, 1, 1⟩]
  | .replayRun t h pre post mask value => writeRow t h pre post [setting AG_RP_CTRL 2 (mask &&& 4) (value &&& 4)]
  | .sleep t h pre post => writeRow t h pre post [⟨BT_PWR_CTRL, 1, 1⟩]
  | _ => none

/-- A request that passes orders 1 to 4 of R417 at a state: MP is up and the unit answers, it comes over an IP version that is on to the
DCP port, it is well formed, its master is enabled with a VALID key, its MAC is right and its counter new. -/
structure Signed (s : State) (op : Nat) (h : DcpHdr) (body : List Nat) : Prop where
  link : s.is HP_MP_STAT_LINK = true
  up : s.hostUp = true
  takes : s.takes h = true
  size : 48 + 4 * body.length ≤ s.msgLimit
  formed : hdrFormed h body = true
  signed : s.unsigned op body = false
  enabled : s.is (HP_MST_CFG_EN h.master) = true
  key : s.keyState (s.get (HP_MST_CFG_KEY_SLOT h.master)) = 1
  mac : s.macOf h.master (hdrMsg h op body) = h.mac
  fresh : s.floor h.master < h.counter

/-- A request that passes orders 1 to 7 of R417; its limits are judged with its counter consumed. -/
structure Passes (s : State) (op : Nat) (h : DcpHdr) (body : List Nat) : Prop extends Signed s op h body where
  known : opcodes.contains op = true
  level : authCheck (s.get (HP_MST_CFG_AUTHORITY h.master)) op body = none
  limits : (s.consume h).bodyCheck op body = none

/-- From `s` to `s'` exactly one message has left: the signed response to a request, with an answer. -/
def Answered (s s' : State) (op : Nat) (h : DcpHdr) (a : Ans) : Prop :=
  s'.out = s.out ++ [.dcp (answer op h a) (s'.macOf h.master (answer op h a).msg)]

/-- A request's counter consumed and the request counted as accepted (R415, R417). -/
def Took (s s' : State) (h : DcpHdr) : Prop :=
  s'.floor h.master = h.counter ∧ s'.get HP_DCP_STAT_ACCEPTED = (s.get HP_DCP_STAT_ACCEPTED + 1) % 2 ^ 16

/-- Every register and table word outside `shown` and a list reads the same. -/
def WordsKept (s s' : State) (l : List Nat) : Prop := ∀ a, a ∉ shown → a ∉ l → s'.rd a = s.rd a

end Sys2Proof.Machine
end

