-- ==== Sys2Proof/Certificates/Slice0/Obligations.lean ====
section
/-! DEFINITION. The statements for the provers, each about one command, one family of commands or every step. -/

open Sys2Proof Sys2Proof.Machine

/-- For every command c and state s with c at the front of its queue, step of s is exec of c at s with the queue's
rest; on an empty queue step answers s itself (the block idles; log 1, the model's choice).
(spec/95_what_each_step_holds.md, log 1) -/
def Obligations.StepTakesFront : Prop :=
  (∀ (c : Instr) (rest : List Instr) (s : State), s.pending = c :: rest →
    Machine.step s = exec c { s with pending := rest }) ∧
  ∀ s : State, s.pending = [] → Machine.step s = .next s

/-- The reset state has its memories in canonical form (log 3, the model's choice) and its role overlays in agreement.
At a state whose core does not run, every command except those of the power and reset pins, the TAP and the fall of
PWR_EN that ends a SHUTDOWN (R477) only moves the clock: R441 and R460 speak of outputs and ports, that nothing else
is obeyed is the model's choice (log 5). (R441, R522, R460, R477, log 3, log 5) -/
def Obligations.ResetAndHeldCore : Prop :=
    (State.reset.rolesAgree ∧ State.reset.canonical = true ∧ Memory.wf State.reset) ∧
    (∀ (c : Instr) (s : State),
    s.core ≠ .running →
    (match c with
      | .resetRelease .. | .vaoApply .. | .vaoRemove .. | .wake .. | .pwrGoodFall .. | .testEnHigh .. | .resetNLow ..
      | .tapInstruction .. | .shutdownPwrEnFall .. => False
      | _ => True) →
    ∃ t, exec c s = .next (s.advance t))

/-- For every state in which GL_ROLE_STAT bits 10 to 4 agree with GL_DEGRADED, FS_SAFE_STAT and PR_STAT whenever the
core runs, and every step from it that answers a next state, they agree in that state too. It covers every command of
the table. (R522) -/
def Obligations.RolesAgreeAlways : Prop :=
  ∀ s s' : State, s.rolesAgree → Machine.step s = .next s' → s'.rolesAgree

/-- From a state whose sparse files are canonical, writing a word, a field, a shadow, bytes of the store or of the
flash, erasing them, replacing a window of words, stopping the core and removing VAO leave them canonical, and writing
a word-aligned address keeps every listed word address a multiple of 4. From every canonical state a step of any
command that answers a next state leaves it canonical. The form is the model's own (log 3); R46 and R447 give the
store and the flash. (spec/02_job_store_and_ingest.md R46, spec/14_startup_configuration_and_trim.md R447, log 3) -/
def Obligations.CanonicalKept : Prop := ∀ s : State, s.canonical = true →
    (∀ a v, (s.wr a v).canonical = true ∧
      (a % 4 = 0 → (∀ p ∈ s.words, p.1 % 4 = 0) → ∀ p ∈ (s.wr a v).words, p.1 % 4 = 0)) ∧
    (∀ f v, (s.put f v).canonical = true) ∧
    (∀ a v, (s.wrSh a v).canonical = true) ∧
    (∀ a bs, (s.wrMem a bs).canonical = true) ∧
    (∀ a n, (s.clrMem a n).canonical = true) ∧
    (∀ a n, (s.flashErase a n).canonical = true) ∧
    (∀ a bs, (s.flashWrite a bs).canonical = true) ∧
    (∀ core b, (s.coreDown core b).canonical = true) ∧
    (∀ base size ws, (s.windowPut base size ws).canonical = true) ∧
    (∀ t, ∃ s', exec (.vaoRemove t) s = .next s' ∧ s'.canonical = true) ∧
    -- and so does every step
    ∀ s', step s = .next s' → s'.canonical = true

/-- Applying VAO and waking an unpowered core raise PWR_EN with the cause recorded and no sooner than 10 ms after it
fell; a wake of a powered core changes nothing. PWR_GOOD falling, TEST_EN high and RESET_N low reset a running core:
everything is as after reset but the always-on domain, OTP, flash, event store and the pins. That the base state is
BOOT while the core is held is the model's choice (log 41). (R439, R461, R511, R517, log 11, log 41) -/
def Obligations.PowerAndResetPins : Prop :=
    (∀ (t : Nat) (s : State),
    (s.ao.vao = false → exec (.vaoApply t) s = .next { s.advance t with ao := { s.ao with
        vao := true, pwrEn := true, riseAt := max s.clk t + 1000000, cause := 0, rose := true } }) ∧
    (s.core = .unpowered → s.ao.vao = true → s.ao.pwrEn = false →
      exec (.wake t) s = .next { s.advance t with ao := { s.ao with
        pwrEn := true, riseAt := max (max s.clk t) (s.ao.pwrEnFell + 10000000)
        cause := if s.ao.thermTrip then 3 else 1, rose := true } }) ∧
    (s.core ≠ .unpowered → exec (.wake t) s = .next (s.advance t))) ∧
    (∀ (t : Nat) (s : State), s.core = .running → s.pwr.shutAt = none →
    (∃ s', exec (.pwrGoodFall t) s = .next s' ∧ Halted (s.advance t) .held .boot { s.ao with pwrGood := false, lowAt := max s.clk t } s') ∧
    (∃ s', exec (.testEnHigh t) s = .next s' ∧ Halted (s.advance t) .held .boot { s.ao with testEn := true } s') ∧
    (∃ s', exec (.resetNLow t) s = .next s' ∧ Halted (s.advance t) .held .boot { s.ao with rstN := false, lowAt := max s.clk t } s'))

/-- SLEEP_PWR_EN_FALL and SHUTDOWN_PWR_EN_FALL after 1 ms, and SUPPLY_RESET below the reset threshold, leave what
R460, R476 and R483 say: the sleep counted or the entry appended to the event store, and the core in the state named;
after a SUPPLY_RESET in a SHUTDOWN the entry carries SUPPLY and PWR_EN still falls when it is due. DEEP_SLEEP at the
fall of PWR_EN is the model's choice (log 42), so is the moment a shutdown's entry is appended (log 40) and BOOT as
the base state of a held core (log 41). (R460, R476, R477, R478, R483, log 40, log 41, log 42) -/
def Obligations.PowerEnds : Prop := ∀ (t : Nat) (s : State),
    -- SLEEP_PWR_EN_FALL (R460)
    (s.core = .running → ∀ a, s.pwr.sleepAt = some a → (s.advance t).past a 1000000 = true → s.pwr.shutAt = none →
      ∃ s', exec (.sleepPwrEnFall t) s = .next s' ∧
        Halted ((s.advance t).inc BT_AO_STAT_SLEEPS) .unpowered .deepSleep
          { s.ao with pwrEn := false, pwrEnFell := max s.clk t, fallAt := none, rose := false } s') ∧
    -- SHUTDOWN_PWR_EN_FALL (R476), its entry appended (R478), also where the core was reset meanwhile (R477)
    (∀ a, s.ao.fallAt = some a → a ≤ max s.clk t →
      ∃ s', exec (.shutdownPwrEnFall t) s = .next s' ∧
        Halted ((s.advance t).shutAppend false) .unpowered .off
          { s.ao with pwrEn := false, pwrEnFell := max s.clk t, fallAt := none, rose := false } s') ∧
    -- SUPPLY_RESET (R483)
    (s.core = .running → ∀ mv, mv < s.get PW_SUP_CFG_RESET_MV → s.shutdown = false → s.pwr.shutAt = none →
      ∃ s', exec (.supplyReset t mv) s = .next s' ∧
        Halted ((s.advance t).storeAppend ((s.advance t).storeWords 0x110B true)) .held .boot { s.ao with lowVdd := true } s') ∧
    -- in a shutdown its entry carries SUPPLY, and PWR_EN still falls when it is due (R477)
    (s.core = .running → ∀ mv w, mv < s.get PW_SUP_CFG_RESET_MV → s.shutdown = true → s.pwr.shutEntry = some w →
      (∀ a, s.pwr.shutAt = some a → (s.advance t).past a 500000 = false) →
      ∃ s', exec (.supplyReset t mv) s = .next s' ∧
        Halted (({ s.advance t with pwr := { s.pwr with shutEntry := none } }).storeAppend (w.modify 1 (· ||| 1)))
          .held .boot { s.ao with lowVdd := true } s')

/-- An entry appended to the event store is four words at the next index, counted, with FULL at the 1,024th and
LATCHED for a thermal shutdown or a fatal error. SUPPLY_DIP and SUPPLY_RECOVERED set and clear the warning, count the
dip and raise 0x1109 and 0x110A, and change nothing else but the measured voltage. That 0x1109's ARG1 is the
millivolts the command carries is the model's choice (log 40; R484 says the lowest VDD_MV). (R479, R480, R481, R482,
R484, log 40) -/
def Obligations.SupplyEntries : Prop :=
    (∀ (s : State) (w : List Nat), w.length = 4 → s.get PW_SHUT_STAT_NV_COUNT < 1024 →
    (∀ i < 4, (s.storeAppend w).rd (storeWin (s.get PW_SHUT_STAT_NV_COUNT) + 4 * i) = w.getD i 0 % 2 ^ 32) ∧
    (s.storeAppend w).get PW_SHUT_STAT_NV_COUNT = s.get PW_SHUT_STAT_NV_COUNT + 1 ∧
    (s.storeAppend w).get PW_SHUT_STAT_NV_FULL = (if s.get PW_SHUT_STAT_NV_COUNT = 1023 then 1 else 0) ∧
    (s.storeAppend w).get PW_SHUT_STAT_LATCHED =
      (if w.getD 0 0 % 2 ^ 16 = 0x1106 ∨ w.getD 0 0 % 2 ^ 16 = 0x110F then 1 else s.get PW_SHUT_STAT_LATCHED)) ∧
    (∀ (t mv : Nat) (s : State), s.core = .running →
    (s.pwr.dip = false → mv < s.get PW_SUP_CFG_WARN_MV →
      ∃ s', exec (.supplyDip t mv) s = .next s' ∧
        Rest (((({ s.advance t with pwr := { s.pwr with dip := true, vddAt := max s.clk t } }).put PW_SUP_STAT_VDD_MV
          (min mv 1023)).put PW_TEMP_SUPPLY_WARN 1).put PW_SUP_STAT_DIPS (s.get PW_SUP_STAT_DIPS + 1)) s' ∧
        Reports (s.advance t) s' 0x1109 0 mv 0) ∧
    (s.pwr.dip = true → s.get PW_SUP_CFG_WARN_MV + 10 < mv →
      ∃ s', exec (.supplyRecovered t mv) s = .next s' ∧
        Rest ((({ s.advance t with pwr := { s.pwr with dip := false, vddAt := max s.clk t } }).put PW_SUP_STAT_VDD_MV (min mv 1023)).put
          PW_TEMP_SUPPLY_WARN 0) s' ∧
        Reports (s.advance t) s' 0x110A 0 0 0))

/-- TB_INCR accepts exactly the Q8.40 values from 1 − 2^−10 to 1 + 2^−10; a write of it is critical; a value out of
range completes with RANGE and changes nothing; a write of the low word alone is judged with the high word as it
stands. That RANGE names the last item that touched TB_INCR is the model's reading (log 9). At the end of the tick
BASE_T becomes T(F_c), cut at the 40 fraction bits of R204 (log 9), BASE_F the FRC value F_c and INCR the new value,
and device time, its fraction and the slew remainder are unchanged. (R204, R206, log 9) -/
def Obligations.RateWrites : Prop :=
    (∀ v, incrOk v = true ↔ 2 ^ 40 - 2 ^ 30 ≤ v ∧ v ≤ 2 ^ 40 + 2 ^ 30) ∧
    (∀ (s : State) (incr : Nat), incr < 2 ^ 48 →
      isCritical 0x02 [TB_INCR_LO, 0xFFFFFFFF, incr % 2 ^ 32, TB_INCR_HI, 0xFFFFFFFF, incr / 2 ^ 32] = true ∧
      (incrOk incr = true →
        ∃ s', s.commitGo 0x02 [TB_INCR_LO, 0xFFFFFFFF, incr % 2 ^ 32, TB_INCR_HI, 0xFFFFFFFF, incr / 2 ^ 32] = (.ok, s') ∧
          s'.tbIncr = incr ∧ s'.tb = { s.tb with newIncr := some incr } ∧ WordsKept s s' [TB_INCR_LO, TB_INCR_HI]) ∧
      (incrOk incr = false →
        s.commitGo 0x02 [TB_INCR_LO, 0xFFFFFFFF, incr % 2 ^ 32, TB_INCR_HI, 0xFFFFFFFF, incr / 2 ^ 32] =
          (⟨stRange, dtValue, 1, []⟩, s))) ∧
    -- a word written alone is judged with the other as it stands
    (∀ (s : State) (lo : Nat), lo < 2 ^ 32 →
      (incrOk (s.get ⟨TB_INCR_HI, 15, 0⟩ * 2 ^ 32 + lo) = true →
        ∃ s', s.commitGo 0x02 [TB_INCR_LO, 0xFFFFFFFF, lo] = (.ok, s') ∧
          s'.tbIncr = s.get ⟨TB_INCR_HI, 15, 0⟩ * 2 ^ 32 + lo ∧
          s'.tb = { s.tb with newIncr := some (s.get ⟨TB_INCR_HI, 15, 0⟩ * 2 ^ 32 + lo) } ∧ WordsKept s s' [TB_INCR_LO]) ∧
      (incrOk (s.get ⟨TB_INCR_HI, 15, 0⟩ * 2 ^ 32 + lo) = false →
        s.commitGo 0x02 [TB_INCR_LO, 0xFFFFFFFF, lo] = (⟨stRange, dtValue, 0, []⟩, s))) ∧
    -- at the tick's end: BASE_T the device time, BASE_F the FRC value, the rate the new one, and no step
    (∀ (s : State) (v : Nat), s.tb.newIncr = some v → s.tb.adj = none →
      s.timeCommit.tb.baseT = s.devU / 1000000 * 1000000 ∧ s.timeCommit.tb.baseF = s.frc ∧ s.timeCommit.tb.rate = v ∧
        s.timeCommit.tb.remain = s.remNow ∧ s.timeCommit.tb.newIncr = none ∧ s.timeCommit.now = s.now ∧
        s.timeCommit.nowFrac = s.nowFrac ∧ s.timeCommit.words = s.words) ∧
    ∀ (s : State) (rate : Nat), (s.setRate rate).now = s.now ∧ (s.setRate rate).nowFrac = s.nowFrac ∧
      (s.setRate rate).remNow = s.remNow

/-- OFS_SLEW_END re-anchors device time with no remainder and no step. REF_INPUT_BAD switches the PLL to the good
input, or enters holdover, LOST and SAFE where none is left; REF_INPUT_GOOD relocks after a loss. REF_DIFF_WINDOW
shows the difference and raises 0x2205 as it exceeds DIFF_LIM. (R208, R210, R211, R212, R213, R302) -/
def Obligations.ReferenceClock : Prop :=
    (∀ (t : Nat) (s : State), s.core = .running → s.tb.remain ≠ 0 →
    (s.advance t).remNow = 0 →
    ∃ s', exec (.ofsSlewEnd t) s = .next s' ∧ s'.tb.remain = 0 ∧ s'.now = (s.advance t).now ∧
      Rest { s.advance t with tb := { s.tb with
        baseT := (s.advance t).devU / 1000000 * 1000000, baseF := (s.advance t).frc, remain := 0 } } s') ∧
    (∀ (t i : Nat) (s : State), s.core = .running → i < 2 →
    -- one good input is left: the PLL takes it where the bad one was selected
    (s.get (refGood i) = 1 → s.get (refGood (1 - i)) = 1 → s.get TB_REF_STAT_SEL = i →
      ∃ s', exec (.refInputBad t i) s = .next s' ∧ Reports (s.advance t) s' 0x2202 i 0 0 ∧
        Rest (((({ s.advance t with refs := modAt s.refs i fun _ => ⟨none⟩ }).put (refGood i) 0).put
          TB_REF_STAT_SEL (1 - i)).put TB_REF_STAT_SWITCHES (s.get TB_REF_STAT_SWITCHES + 1)) s') ∧
    (s.get (refGood i) = 1 → s.get (refGood (1 - i)) = 1 → s.get TB_REF_STAT_SEL = 1 - i →
      ∃ s', exec (.refInputBad t i) s = .next s' ∧ Reports (s.advance t) s' 0x2202 i 0 0 ∧
        Rest (({ s.advance t with refs := modAt s.refs i fun _ => ⟨none⟩ }).put (refGood i) 0) s') ∧
    -- none is left: holdover, LOST, SAFE
    (s.get (refGood i) = 1 → s.get (refGood (1 - i)) = 0 → s.base ≠ .active → 
      ∃ s', exec (.refInputBad t i) s = .next s' ∧ Reports (s.advance t) s' 0x2202 i 0 0 ∧
        s'.get TB_REF_STAT_HOLDOVER = 1 ∧ s'.get TB_REF_STAT_LOST = 1 ∧ s'.get FS_SAFE_STAT_REF_LOST = 1 ∧
        s'.get FS_SAFE_STAT_SAFE = 1 ∧ ∀ b, s'.barEn b = false) ∧
    (s.get (refGood i) = 0 → 
      ∃ s', exec (.refInputGood t i) s = .next s' ∧ Reports (s.advance t) s' 0x2204 i 0 0 ∧
        (s.get TB_REF_STAT_LOST = 1 →
          Rest ((((({ s.advance t with refs := modAt s.refs i fun _ => ⟨some (s.advance t).now⟩ }).put (refGood i) 1).put
            TB_REF_STAT_SEL i).put TB_REF_STAT_HOLDOVER 0).put TB_REF_STAT_LOST 0) s') ∧
        (s.get TB_REF_STAT_LOST = 0 →
          Rest (({ s.advance t with refs := modAt s.refs i fun _ => ⟨some (s.advance t).now⟩ }).put (refGood i) 1) s'))) ∧
    (∀ (t : Nat) (d : Int) (s : State), s.core = .running →
    s.get TB_REF_STAT_IN0_GOOD = 1 → s.get TB_REF_STAT_IN1_GOOD = 1 →
    ∃ s', exec (.refDiffWindow t d) s = .next s' ∧
      -- above DIFF_LIM 0x2205 comes once; it can come again when the difference has fallen below the limit
      (s.get TB_REF_CFG_DIFF_LIM < d.natAbs →
        Rest ({ s.advance t with tb := { s.tb with diffOver := true } }.put TB_REF_DIFF_DIFF (unsgn 32 d)) s' ∧
        (s.tb.diffOver = false → Reports (s.advance t) s' 0x2205 0 (unsgn 32 d) 0)) ∧
      (d.natAbs < s.get TB_REF_CFG_DIFF_LIM →
        Rest ({ s.advance t with tb := { s.tb with diffOver := false } }.put TB_REF_DIFF_DIFF (unsgn 32 d)) s') ∧
      (d.natAbs = s.get TB_REF_CFG_DIFF_LIM →
        Rest ((s.advance t).put TB_REF_DIFF_DIFF (unsgn 32 d)) s'))

/-- BRIDGE_FRAME: a frame to another address stands in the queue of its direction and leaves at the other port; a PTP
event message of version 2 is corrected by its residence where R218 says so, with its checksum and FCS, and every
other PTP message, and every one with TC_EN 0, is forwarded unchanged; a frame that finds no room in the 256 KiB queue
or the egress link down is dropped and counted. PTP_TX_DONE clears BUSY and shows the stamp of an event message only.
(R217, R218, R219, R221, log 47) -/
def Obligations.BridgeAndPtp : Prop :=
    (∀ (t port : Nat) (f : BridgeFrame) (s : State), s.core = .running →
    s.hostUp = true → port < 2 → f.dst = .other → f.len ≤ 9216 →
    -- the direction's queue, 256 KiB, has room: the frame stands in it until it leaves
    (f.linkDown = false → (s.advance t).bridgeRoom (1 - port) f.len = true →
      -- no PTP frame, or one that R219 passes on unchanged
      ((∀ m, f.ptp = some m → s.get HP_PTP_CFG_TC_EN = 0 ∨ m.ver ≠ 2 ∨ m.mtype ∉ [0, 1]) →
        ∃ s', exec (.bridgeFrame t port f) s = .next s' ∧
          Rest (((s.advance t).bridgePut (1 - port) f.len (max s.clk t + f.residence / 65536)).emit
            (.bridged (1 - port) f.id none)) s') ∧
      (∀ m, f.ptp = some m → s.get HP_PTP_CFG_TC_EN = 1 → tcCorrects m = true → ∀ r, r = s.residence port f →
        ∃ s', exec (.bridgeFrame t port f) s = .next s' ∧
          -- its correctionField grows by the residence time, each stamp corrected by its port's register, in 2^-16 ns
          Rest ((((s.advance t).bridgePut (1 - port) f.len (max s.clk t + f.residence / 65536)).put HP_PTP_TC_CNT_COUNT
            (s.get HP_PTP_TC_CNT_COUNT + 1)).emit (.bridged (1 - port) f.id (some (withFcs (ptpHead m r ++
              (m.bytes.take 8 ++ beBytes 8 (unsgn 64 ((beAt m.bytes 8 8 : Int) + r)) ++ m.bytes.drop 16) ++ m.tail))))) s')) ∧
    (f.linkDown = true ∨ (s.advance t).bridgeRoom (1 - port) f.len = false →
      ∃ s', exec (.bridgeFrame t port f) s = .next s' ∧
        Rest ((s.advance t).inc (if port = 0 then HP_FWD_DROP_TO_DP1 else HP_FWD_DROP_TO_DP0)) s')) ∧
    (∀ (t port seq : Nat) (event : Bool) (s : State), s.core = .running →
    s.ptp.tx = some (port, event, seq) →
    ∃ s', exec (.ptpTxDone t) s = .next s' ∧ s'.ptp = { s.ptp with tx := none } ∧ s'.get HP_PTP_TX_CTRL_BUSY = 0 ∧
      s'.out = s.out ∧
      (event = true → s'.get HP_PTP_TX_STAT_DONE = 1 ∧ s'.get HP_PTP_TX_STAT_SEQ = seq % 2 ^ 15) ∧
      (event = false → s'.rd HP_PTP_TX_STAT = s.rd HP_PTP_TX_STAT))

/-- SIGNAL_DETECT takes a lane in DETECT to ALIGN; BACKOFF_EXPIRY and ABSENT_TIMEOUT begin a new attempt in DETECT
with TS1 sent and FAST clear. Everything else is unchanged. (R237, R239, R240) -/
def Obligations.LaneAttempts : Prop := ∀ (t l : Nat) (s : State), s.core = .running → l < 100 →
    (s.tstate l = tsDetect → l < 96 ∨ s.unitId = false →
      ∃ s', exec (.signalDetect t l) s = .next s' ∧
        Rest ((((s.advance t).put (LANE_STAT_TSTATE l) tsAlign).put (LANE_STAT_PSTATE l) 0).modLane l fun x =>
          { x with sawSignal := true, fromAbsent := false, silentRun := 0, since := (s.advance t).now, lock := true }) s') ∧
    (s.tstate l = tsAbsent →
      ∃ s', exec (.signalDetect t l) s = .next s' ∧
        Rest (((s.advance t).modLane l fun x => { x with backoff := 0, fromAbsent := false }).laneDetect l false) s' ∧
        s'.tstate l = tsDetect ∧ s'.get (LANE_STAT_FAST l) = 0 ∧ s'.out = s.out ++ [.lane l .ts1 false none]) ∧
    (s.tstate l = tsBackoff → (s.advance t).past (s.laneSt l).since (s.get (LANE_STAT_BACKOFF_MS l) * 1000000) = true →
      ∃ s', exec (.backoffExpiry t l) s = .next s' ∧ Rest ((s.advance t).laneDetect l false) s' ∧
        s'.tstate l = tsDetect ∧ s'.get (LANE_STAT_FAST l) = 0 ∧ s'.out = s.out ++ [.lane l .ts1 false none]) ∧
    (s.tstate l = tsAbsent → (s.advance t).past (s.laneSt l).since 1000000000 = true →
      ∃ s', exec (.absentTimeout t l) s = .next s' ∧
        Rest (((s.advance t).modLane l fun x => { x with fromAbsent := true }).laneDetect l false) s' ∧
        s'.tstate l = tsDetect ∧ s'.get (LANE_STAT_FAST l) = 0 ∧ s'.out = s.out ++ [.lane l .ts1 false none])

/-- TRAIN_TIMEOUT: a stage of 10 ms fails with its stage and cause, is counted and backs off. LANE_LOST,
EI_ANSWER_TIMEOUT and PWR_EXIT_TIMEOUT: a READY lane lost goes straight to DETECT in a FAST attempt, with its cause,
its count and its event. (R238, R239, R241, R242, R248) -/
def Obligations.LaneFailures : Prop := ∀ (t l : Nat) (s : State), s.core = .running → l < 100 →
    -- a stage that lasts 10 ms fails; one that saw a signal backs off
    (∀ saw, tsAlign ≤ s.tstate l → s.tstate l ≤ tsTimelock → (s.advance t).past (s.laneSt l).since 10000000 = true →
      ∃ s', exec (.trainTimeout t ⟨l, saw⟩) s = .next s' ∧ s'.tstate l = tsBackoff ∧
        s'.get (LANE_STAT_FAIL_STAGE l) = s.tstate l ∧
        s'.get (LANE_STAT_FAIL_CAUSE l) = (if s.tstate l = tsTimelock then 5 else 1) ∧
        s'.get (LANE_STAT_BACKOFF_MS l) = backoffMs (s.laneSt l).backoff ∧
        s'.get (LANE_FAILS_FAILS l) = (s.get (LANE_FAILS_FAILS l) + 1) % 2 ^ 16 ∧
        s'.get (LANE_STAT_FAST l) = 0 ∧ s'.out = s.out) ∧
    -- a READY lane lost goes straight to DETECT, FAST
    (s.inL0 l = true → ∀ cause cv disp,
      ∃ s', exec (.laneLost t l cause cv disp) s = .next s' ∧ s'.tstate l = tsDetect ∧
        s'.get (LANE_STAT_FAST l) = 1 ∧ s'.get (LANE_STAT_FAIL_STAGE l) = tsReady ∧
        s'.get (LANE_STAT_FAIL_CAUSE l) = 7 ∧
        s'.get (LANE_CNT_LOSSES l) = (s.get (LANE_CNT_LOSSES l) + 1) % 2 ^ 16 ∧
        s'.out = s.out ++ [.lane l .ts1 true none] ∧ Reports (s.advance t) s' 0x4102 l 7 0) ∧
    -- an HDM silent to EI sets, and an exit that misses its time, are losses with cause 8
    (l < 96 → s.ready l = true → ∀ a, (s.laneSt l).eiSent = some a → (s.advance t).past a 10000 = true →
      ∃ s', exec (.eiAnswerTimeout t l) s = .next s' ∧ s'.tstate l = tsDetect ∧
        s'.get (LANE_STAT_FAIL_CAUSE l) = 8 ∧ s'.get (LANE_STAT_FAST l) = 1 ∧
        s'.out = s.out ++ [.lane l .ts1 true none] ∧ Reports (s.advance t) s' 0x4102 l 8 0) ∧
    (l < 96 → s.ready l = true → s.pstate l = 4 →
      (s.advance t).past (s.laneSt l).exitAt (if (s.laneSt l).exitL2 then 200000 else 1000) = true →
      ∃ s', exec (.pwrExitTimeout t l) s = .next s' ∧ s'.tstate l = tsDetect ∧
        s'.get (LANE_STAT_FAIL_CAUSE l) = 8 ∧ s'.get (LANE_STAT_FAST l) = 1 ∧
        s'.out = s.out ++ [.lane l .ts1 true none] ∧ Reports (s.advance t) s' 0x4106 l 8 0)

/-- ORDERED_SET: four TS1 at a common rate make the unit send TS2. TS2_SENT: the lane enters ESTABLISH at the agreed
rate and head 0 is asked for its identity. EQUALISATION_DONE: of the CTLE settings and the presets tried those of the
largest eye are chosen, and the lane moves to TIMELOCK once the HDM is done and its identity accepted. (R236, R237,
R240, R245, R286) -/
def Obligations.LaneTraining : Prop := ∀ (t l : Nat) (s : State), s.core = .running → l < 96 →
    -- four TS1 in ALIGN at a common rate: TS2 is sent
    (∀ o : OrdSet, s.tstate l = tsAlign → o.resv = 0 → o.lane = l → o.kind = 0x4A → (s.laneSt l).ts1 = false →
      agreedRate (s.get (LANE_CFG_RATE_EN l)) o.rates ≠ 0 →
      ∃ s', exec (.orderedSet t l o) s = .next s' ∧
        Rest (((s.advance t).modLane l fun x => { x with ts1 := true, farRates := o.rates }).emit
          (.lane l .ts2 (s.is (LANE_STAT_FAST l)) none)) s') ∧
    -- the sixteenth TS2 sent, with four TS2 held: ESTABLISH at the agreed rate, and head 0 is asked for its identity
    (s.tstate l = tsAlign → (s.laneSt l).ts1 = true → (s.laneSt l).ts2 = true →
      ∃ s', exec (.ts2Sent t l) s = .next s' ∧ s'.tstate l = tsEstablish ∧ s'.pstate l = 0 ∧
        s'.get (LANE_STAT_RATE l) = agreedRate (s.get (LANE_CFG_RATE_EN l)) (s.laneSt l).farRates ∧
        s'.out = s.out ++ (if s.is (LANE_STAT_FAST l) then [] else
          (idxs 8 (bit (s.get (LANE_CFG_PRESET_MASK l)))).map fun p => .lane l .ts2 false (some p)) ++
          [.joend l (.idrq s.claim 0)]) ∧
    -- equalisation done with an eye large enough; the lane moves on once the HDM is done and its identity accepted
    (∀ trials w h ctles dfe, s.tstate l = tsEstablish → (s.laneSt l).eqMine = false → s.is (LANE_STAT_FAST l) = false →
      s.get JL_TRAIN_CFG_MIN_W ≤ w → s.get JL_TRAIN_CFG_MIN_H ≤ h →
      ∃ s', exec (.equalisationDone t l trials w h ctles dfe) s = .next s' ∧
        -- of the CTLE settings and the allowed presets tried, the one of the largest product of eye width and height
        (∀ x ∈ ctles, x.1 < 16 → (∀ y ∈ ctles, y.1 < 16) → (∀ y ∈ ctles, y = x ∨ y.2.1 * y.2.2 < x.2.1 * x.2.2) →
          s'.get (LANE_RXEQ_CTLE l) = x.1) ∧
        s'.get (LANE_RXEQ_DFE l) = dfe % 2 ^ 25 ∧
        (∀ x ∈ trials, bit (s.get (LANE_CFG_PRESET_MASK l)) x.1 = true → x.1 < 8 →
          (∀ y ∈ trials, bit (s.get (LANE_CFG_PRESET_MASK l)) y.1 = true → y = x ∨ y.2.1 * y.2.2 < x.2.1 * x.2.2) →
          s'.get (LANE_STAT_PRESET l) = x.1) ∧
        s'.tstate l = (if (s.laneSt l).eqFar && (s.laneSt l).identOk then tsTimelock else tsEstablish) ∧
        s'.out = s.out ++ [.lane l .ts2 false (some (s'.get (LANE_STAT_PRESET l)))])

/-- L1_ENTRY and L2_ENTRY after their idle times, HDM_IDLE_EXIT and EXIT_TO_L0_DONE change the lane's power state,
counts and times as R247 and R248 say, send the ordered sets, and change nothing else; an exit from L2 ends only after
ALIGN, with four TS2 received and sixteen sent, and a TSYNC follows. (R247, R248) -/
def Obligations.LanePower : Prop := ∀ (t l : Nat) (s : State), s.core = .running → l < 96 → s.ready l = true →
    (s.pstate l = 0 → s.is (LANE_CFG_PWR_ALLOW l) = true → s.is JL_PWR_CFG_L1_IDLE_US = true →
      (s.advance t).past (s.laneSt l).lastUse (s.get JL_PWR_CFG_L1_IDLE_US * 1000) = true → (s.laneSt l).ctl = [] →
      s.barAwaited (chanBar l) = false →
      ∃ s', exec (.l1Entry t l) s = .next s' ∧
        Rest (((((s.advance t).put (LANE_STAT_PSTATE l) 1).put (LANE_PWR_STAT_L1_ENTRIES l)
          (s.get (LANE_PWR_STAT_L1_ENTRIES l) + 1)).modLane l fun x =>
            { x with lowAt := (s.advance t).now, eiSent := some (s.advance t).now }).emit (.lane l .ei1 false none)) s') ∧
    (s.pstate l = 1 → s.is (LANE_CFG_PWR_ALLOW l) = true → s.is JL_PWR_CFG_L1_IDLE_US = true →
      s.is JL_PWR_CFG_L2_IDLE_MS = true →
      (s.advance t).past (s.laneSt l).lowAt (s.get JL_PWR_CFG_L2_IDLE_MS * 1000000) = true →
      ∃ s', exec (.l2Entry t l) s = .next s' ∧
        Rest (((((s.advance t).put (LANE_STAT_PSTATE l) 2).put (LANE_PWR_STAT_L2_ENTRIES l)
          (s.get (LANE_PWR_STAT_L2_ENTRIES l) + 1)).modLane l fun x =>
            { x with eiSent := some (s.advance t).now }).emit (.lane l .ei2 false none)) s') ∧
    (s.pstate l = 1 →
      ∃ s', exec (.hdmIdleExit t l) s = .next s' ∧
        Rest (((s.advance t).put (LANE_STAT_PSTATE l) 4).modLane l fun x =>
          { x with exitAt := (s.advance t).now, exitL2 := false, eiSent := none, ts1 := false, ts2 := false, ts2Sent := 0 }) s') ∧
    (s.pstate l = 2 →
      ∃ s', exec (.hdmIdleExit t l) s = .next s' ∧
        Rest ((((s.advance t).put (LANE_STAT_PSTATE l) 4).modLane l fun x =>
          { x with exitAt := (s.advance t).now, exitL2 := true, eiSent := none, ts1 := false, ts2 := false, ts2Sent := 0 }).emit
            (.lane l .ts1 true none)) s') ∧
    (s.pstate l = 4 → (s.laneSt l).exitL2 = false → (s.advance t).laneClear l = true →
      ∃ s', exec (.exitToL0Done t l) s = .next s' ∧
        Rest (((s.advance t).put (LANE_STAT_PSTATE l) 0).modLane l fun x =>
          { x with lastUse := (s.advance t).now, statAt := (s.advance t).now }) s') ∧
    -- an exit from L2 runs ALIGN: it ends with four TS2 received and sixteen sent, and a TSYNC exchange follows
    (s.pstate l = 4 → (s.laneSt l).exitL2 = true → (s.laneSt l).ts2 = true → 16 ≤ (s.laneSt l).ts2Sent →
      s.is TB_HDM_CFG_TSYNC_US = true → (s.laneSt l).ctl = [] →
      (s.advance t).past (s.laneSt l).retimeAt (s.get JL_RT_CFG_CYCLE_US * 1000) = false →
      ∃ s', exec (.exitToL0Done t l) s = .next s' ∧ s'.pstate l = 0 ∧
        s'.out = s.out ++ [.joend l ((s.advance t).tsyncNow l)]) ∧
    (s.pstate l = 4 → (s.laneSt l).exitL2 = true → (s.laneSt l).ts2 = false ∨ (s.laneSt l).ts2Sent < 16 →
      ∃ s', exec (.exitToL0Done t l) s = .next s' ∧ Rest (s.advance t) s')

/-- EYE_SCAN shows the eye of a READY lane and raises 0x4105 where it falls below the minima; EYE_MAP_DONE writes the
8,192 bytes of the map, four to a word, and clears MAP_BUSY. Nothing else changes. (R249, R250) -/
def Obligations.EyeMeasurements : Prop := ∀ (t l : Nat) (s : State), s.core = .running → l < 100 →
    (∀ w h, s.inL0 l = true → s.is JL_SCAN_CFG_PERIOD_MS = true → s.get (LANE_SCAN_CTRL_MAP_BUSY l) = 0 →
      s.get JL_TRAIN_CFG_MIN_W ≤ w → s.get JL_TRAIN_CFG_MIN_H ≤ h →
      ∃ s', exec (.eyeScan t l w h) s = .next s' ∧
        Rest (((((s.advance t).put (LANE_EYE_EYE_W l) w).put (LANE_EYE_EYE_H l) h).put (LANE_EYE_VALID l) 1).modLane l
          fun x => { x with marginRaised := false }) s') ∧
    (∀ w h, s.inL0 l = true → s.is JL_SCAN_CFG_PERIOD_MS = true → s.get (LANE_SCAN_CTRL_MAP_BUSY l) = 0 →
      w < s.get JL_TRAIN_CFG_MIN_W ∨ h < s.get JL_TRAIN_CFG_MIN_H → (s.laneSt l).marginRaised = false →
      ∃ s', exec (.eyeScan t l w h) s = .next s' ∧ Reports (s.advance t) s' 0x4105 l 0 0 ∧
        Rest (((((s.advance t).put (LANE_EYE_EYE_W l) w).put (LANE_EYE_EYE_H l) h).put (LANE_EYE_VALID l) 1).modLane l
          fun x => { x with marginRaised := true }) s') ∧
    (∀ points : List Nat, s.get (LANE_SCAN_CTRL_MAP_BUSY l) = 1 →
      ∃ s', exec (.eyeMapDone t l points) s = .next s' ∧ s'.get (LANE_SCAN_CTRL_MAP_BUSY l) = 0 ∧
        (∀ k < 2048, s'.rd (eyeBase l + 4 * k) =
          leAt (points.map fun v => BitVec.ofNat 8 (min v 255)) (4 * k) 4) ∧
        s'.bare = (s.advance t).bare ∧
        ∀ a, a ∉ shown → a ≠ LANE_SCAN_CTRL l → ¬(eyeBase l ≤ a ∧ a < eyeBase l + 0x2000) → s'.rd a = s.rd a)

/-- LINE_SEND sends the oldest complete record where the window has room, VOID where R261 says so; a TSYNC ready
together with it leaves first. LINE_DEADLINE sends a VOID record for a line that has not left 200 µs before its fire
time and counts it. RETIME_CYCLE sends a delta for a stamped line whose prediction moved beyond THR_NS. (R32, R255,
R256, R258, R261, R262, R263) -/
def Obligations.LinesLeave : Prop := ∀ (t ch : Nat) (x : ChanLine) (rest : List ChanLine) (s : State),
    s.core = .running → ch < 96 → s.chanLines ch = x :: rest → x.unsent = false → x.voided = false →
    s.flowing ch = true → s.sendsLines = true →
    -- LINE_SEND: a complete record leaves where the window has room, VOID where it must
    (x.stamp = none → (s.advance t).now + 200000 ≤ x.pred → x.doneAt ≤ (s.advance t).now →
      (s.advance t).outstanding ch < s.get (JL_OUT_WINDOW ch) → (s.advance t).laneClear ch = true →
      ∃ s', exec (.lineSend t ch) s = .next s' ∧
        s'.out = s.out ++ [.joend ch (x.record s.claim (max x.pred ((s.advance t).now + 50000)) (x.void || s.voidAll))] ∧
        s'.get (JL_STAT_VOIDCNT ch) = (s.get (JL_STAT_VOIDCNT ch) + b2n (x.void || s.voidAll)) % 2 ^ 16 ∧
        s'.get (JL_STAT_RXERR ch) = s.get (JL_STAT_RXERR ch) ∧
        (x.void = false → s.voidAll = false → ∀ a, a ∉ shown → s'.rd a = s.rd a)) ∧
    -- a TSYNC ready together with it leaves first (R255)
    (x.stamp = none → (s.advance t).now + 200000 ≤ x.pred → x.doneAt ≤ (s.advance t).now →
      (s.advance t).outstanding ch < s.get (JL_OUT_WINDOW ch) → (s.laneSt ch).ctl.all (·.copies != 0) = true →
      (s.advance t).past (s.laneSt ch).retimeAt (s.get JL_RT_CFG_CYCLE_US * 1000) = false →
      (s.advance t).past (s.laneSt ch).tsyncAt (s.get TB_HDM_CFG_TSYNC_US * 1000) = true →
      ∃ s', exec (.lineSend t ch) s = .next s' ∧
        s'.out = s.out ++ [.joend ch ((s.advance t).tsyncNow ch),
          .joend ch (x.record s.claim (max x.pred ((s.advance t).now + 50000)) (x.void || s.voidAll))]) ∧
    -- LINE_DEADLINE, and LINE_SEND after it: a record that has not left 200 µs before its fire time goes VOID
    (∀ c : Instr, (c = .lineDeadline t ch ∧ x.pred ≤ (s.advance t).now + 200000) ∨
        (c = .lineSend t ch ∧ x.pred < (s.advance t).now + 200000) → x.stamp = none → (s.advance t).laneClear ch = true →
      ∃ s', exec c s = .next s' ∧
        s'.out = s.out ++ [.joend ch (x.record s.claim (max x.pred ((s.advance t).now + 50000)) true)] ∧
        s'.get (JL_STAT_VOIDCNT ch) = (s.get (JL_STAT_VOIDCNT ch) + 1) % 2 ^ 16 ∧
        s'.get PG_EVT_STAT_UNDERRUN = 1 ∧ s'.bitOf (PG_UNDERRUN_CH (ch / 32)) (ch % 32) = true) ∧
    -- RETIME_CYCLE: a stamped line whose prediction has moved beyond THR_NS is retimed, in a delta where it fits
    (∀ f, x.stamp = some f → rest = [] → (s.advance t).now + 50000 ≤ f → f < x.pred + 32768 → x.pred < f + 32768 →
      (s.advance t).now + 50000 ≤ x.pred → s.get JL_RT_CFG_THR_NS < ((x.pred : Int) - f).natAbs →
      (s.advance t).past (s.laneSt ch).retimeAt (s.get JL_RT_CFG_CYCLE_US * 1000) = true →
      (s.advance t).past (s.laneSt ch).tsyncAt (s.get TB_HDM_CFG_TSYNC_US * 1000) = false →
      ∃ s', exec (.retimeCycle t ch) s = .next s' ∧
        s'.out = s.out ++ [.joend ch (.retime s.claim x.seq true [(x.pred : Int) - f])] ∧
        s'.chanLines ch = [{ x with stamp := some x.pred }] ∧
        s'.get (JL_RT_CNT_RETIMES ch) = (s.get (JL_RT_CNT_RETIMES ch) + 1) % 2 ^ 16 ∧
        ∀ a, a ∉ shown → a ≠ JL_RT_CNT ch → s'.rd a = s.rd a)

/-- RECORD_DISCARD counts; HDM_HB_SEND, TSYNC_SEND and CONTROL_RESEND send their records when due; the third copy of a
control record unanswered is a loss with cause 8. (R230, R254, R265, R277, R282) -/
def Obligations.LaneRecords : Prop := ∀ (t l : Nat) (s : State), s.core = .running → l < 96 →
    (∃ s', exec (.recordDiscard t l) s = .next s' ∧
      Rest ((s.advance t).put (JL_STAT_RXERR l) (s.get (JL_STAT_RXERR l) + 1)) s') ∧
    (s.flowing l = true → s.pair.holdsSeq = true → (s.advance t).past (s.laneSt l).lastTx 100000 = true →
      (s.advance t).laneClear l = true → s.chanLines l = [] →
      ∃ s', exec (.hdmHbSend t l) s = .next s' ∧
        Rest (((s.advance t).modLane l fun x => { x with lastTx := (s.advance t).now }).emit
          (.joend l (.hb s.claim (s.get (JL_SEQ_NEXT_SEQ l)) (s.is FS_SAFE_STAT_SAFE)))) s') ∧
    (s.flowing l = true → (s.advance t).past (s.laneSt l).tsyncAt (s.get TB_HDM_CFG_TSYNC_US * 1000) = true →
      ∃ s', exec (.tsyncSend t l) s = .next s' ∧
        s'.out = s.out ++ [.joend l ((s.advance t).tsyncNow l)] ∧
        s'.laneSt l = (if l < s.lanes.length then { s.laneSt l with
          tsId := ((s.laneSt l).tsId + 1) % 65536, tsyncAt := (s.advance t).now, lastTx := (s.advance t).now
          tsOut := ((s.laneSt l).tsOut ++ [((s.laneSt l).tsId, (s.advance t).now)]).drop ((s.laneSt l).tsOut.length - 31) }
          else LaneSt.reset) ∧
        ∀ a, a ∉ shown → s'.rd a = s.rd a) ∧
    (∀ c, s.flowing l = true → (s.laneSt l).ctl = [c] → c.copies = 1 ∨ c.copies = 2 → (s.advance t).past c.sentAt 100000 = true →
      (s.advance t).laneClear l = true →
      ∃ s', exec (.controlResend t l) s = .next s' ∧ s'.out = s.out ++ [.joend l (c.record s.claim)] ∧
        (s'.laneSt l).ctl = [{ c with copies := c.copies + 1, sentAt := (s.advance t).now }] ∧
        ∀ a, a ∉ shown → a ≠ JL_CTL_STAT l → s'.rd a = s.rd a) ∧
    (∀ c, s.flowing l = true → (s.laneSt l).ctl = [c] → 3 ≤ c.copies → (s.advance t).past c.sentAt 100000 = true →
      ∃ s', exec (.controlResend t l) s = .next s' ∧ s'.tstate l = tsDetect ∧
        s'.get (LANE_STAT_FAIL_CAUSE l) = 8 ∧ s'.out = s.out ++ [.lane l .ts1 true none])

/-- TSYNC_REPLY shows the HDM's time error; ACK_RECEIVED closes the control record it answers; STAT_RECEIVED shows
every field of the record; STAT_LOST after four periods raises 0x420A. Each names the only registers it changes.
(R269, R282, R285) -/
def Obligations.HdmAnswers : Prop := ∀ (t l : Nat) (s : State), s.core = .running → l < 96 → s.flowing l = true →
    (∀ r : TsyncReply, r.timeValid = true →
      ∃ s', exec (.tsyncReply t l r) s = .next s' ∧
        (s'.laneSt l).tsOut = (s.laneSt l).tsOut.filter (·.1 != r.tsId) ∧ s'.out = s.out ∧
        s'.sget (JL_TERR_ERR l) =
          clamp (cdiff 32 r.th3 (((s.advance t).now16 - s.get (JL_LAT_LAT l)) / 16)) (-32768) 32767 ∧
        ∀ a, a ∉ shown → a ≠ JL_TERR l → s'.rd a = s.rd a) ∧
    (∀ (a : AckRec) (c : Ctl), (s.laneSt l).ctl = [c] → c.copies ≠ 0 → c.recId = a.recId →
      a.ackType = (if c.wave then 4 else 5) → a.refused = false →
      ∃ s', exec (.ackReceived t l a) s = .next s' ∧ (s'.laneSt l).ctl = [] ∧ s'.out = s.out ∧
        s'.get (JL_CTL_STAT_LATE l) = b2n a.late ∧ s'.get (JL_CTL_STAT_REFUSED l) = 0 ∧
        (s.get (JL_CTL_STAT_REC_ID l) = a.recId → s'.get (JL_CTL_STAT_ACK_PENDING l) = 0) ∧
        ∀ b, b ∉ shown → b ≠ JL_CTL_STAT l → s'.rd b = s.rd b) ∧
    (∀ r : StatRec, r.stbLong = false → s.is PR_STAT_CONTEST = false → r.accClaim ≤ s.claim →
      later 16 r.mismatch (s.get (JL_HDM_CNT0_LOW l)) = false → later 16 r.empty (s.get (JL_HDM_CNT1_LOW l)) = false →
      ∃ s', exec (.statReceived t l r) s = .next s' ∧ s'.out = s.out ∧
        s'.rd (JL_TEMP01 l) = (r.temp0 + r.temp1 * 65536) % 2 ^ 32 ∧
        s'.rd (JL_TEMP23 l) = (r.temp2 + r.temp3 * 65536) % 2 ^ 32 ∧
        s'.rd (JL_HDM_CNT0 l) = (r.mismatch + r.fallback * 65536) % 2 ^ 32 ∧
        s'.rd (JL_HDM_CNT1 l) = (r.empty + r.late * 65536) % 2 ^ 32 ∧
        s'.rd (JL_HDM_CNT2 l) = (r.suppressed + r.err * 65536) % 2 ^ 32 ∧
        s'.rd (JL_ACC_CLAIM l) = r.accClaim % 2 ^ 32 ∧
        s'.rd (JL_HDM_FLAGS l) = (r.lastMm + b2n r.stbNow * 2 ^ 24) % 2 ^ 32 ∧
        (s'.laneSt l).bufFill = (if l < s.lanes.length then r.bufFill else LaneSt.reset.bufFill) ∧
        ∀ a, a ∉ shown →
          a ∉ [JL_TEMP01 l, JL_TEMP23 l, JL_HDM_CNT0 l, JL_HDM_CNT1 l, JL_HDM_CNT2 l, JL_ACC_CLAIM l, JL_HDM_FLAGS l] →
          s'.rd a = s.rd a) ∧
    ((s.advance t).past (s.laneSt l).statAt (4 * s.get JL_STAT_CFG_STAT_US * 1000) = true →
      s.get (JL_HDM_FLAGS_STAT_LOST l) = 0 →
      ∃ s', exec (.statLost t l) s = .next s' ∧ Reports (s.advance t) s' 0x420A l 0 0 ∧
        Rest ((s.advance t).put (JL_HDM_FLAGS_STAT_LOST l) 1) s')

/-- ENC_EDGE: no change of A and B counts nothing; one line along 00, 10, 11, 01 counts +1, or −1 under DIR_INV, and
against it the reverse; both lines count one illegal change. The other encoders' counts and errors stay. (R172) -/
def Obligations.EncoderCounts : Prop := ∀ (t n ago : Nat) (a b z : Bool) (s : State), s.core = .running → n < 4 →
    (a, b, z) ≠ ((s.enc n).a, (s.enc n).b, (s.enc n).z) → n < s.web.encs.length → s.get AG_RP_STAT_MODE ≠ 2 →
    ∃ s', exec (.encEdge t n a b z ago) s = .next s' ∧
      (s'.enc n).a = a ∧ (s'.enc n).b = b ∧ (s'.enc n).z = z ∧
      -- both lines: illegal, the count unchanged
      (a ≠ (s.enc n).a → b ≠ (s.enc n).b → s'.get (WP_ENC_COUNT_COUNT n) = s.get (WP_ENC_COUNT_COUNT n) ∧
        s'.get (WP_ENC_ERR_ILLEGAL n) = (s.get (WP_ENC_ERR_ILLEGAL n) + 1) % 2 ^ 16) ∧
      -- no line (Z alone): nothing is counted
      (a = (s.enc n).a → b = (s.enc n).b → s'.get (WP_ENC_COUNT_COUNT n) = s.get (WP_ENC_COUNT_COUNT n) ∧
        s'.get (WP_ENC_ERR_ILLEGAL n) = s.get (WP_ENC_ERR_ILLEGAL n)) ∧
      -- one line, along 00, 10, 11, 01 exactly when A rises with B low, B rises with A high, A falls with B high or
      -- B falls with A low: +1, or −1 under DIR_INV; against that order the reverse
      ((a = !(s.enc n).a ∧ b = (s.enc n).b) ∨ (a = (s.enc n).a ∧ b = !(s.enc n).b) →
        s'.get (WP_ENC_ERR_ILLEGAL n) = s.get (WP_ENC_ERR_ILLEGAL n) ∧
        s'.get (WP_ENC_COUNT_COUNT n) =
          (if ((if b = (s.enc n).b then a != b else a == b) != s.bitOf WP_ENC_CFG_DIR_INV n) then
            s.get (WP_ENC_COUNT_COUNT n) + 1 else s.get (WP_ENC_COUNT_COUNT n) + (2 ^ 32 - 1)) % 2 ^ 32) ∧
      ∀ m < 4, m ≠ n → s'.rd (WP_ENC_COUNT m) = s.rd (WP_ENC_COUNT m) ∧ s'.rd (WP_ENC_ERR m) = s.rd (WP_ENC_ERR m)

/-- PROBE_EDGE: a latch is stored with its stamp and position, or counted as lost where the FIFO is full, the first
loss of a run with 0x2107; an edge within BLANK of the previous latch is counted in IGNORED and stored nowhere (that
one behind it counts as within: log 60, the model's choice). ENCO_EDGE: one edge of an emulated output after at least
100 ns, its phase advanced by one. (R189, R190, R192, R193, log 60) -/
def Obligations.ProbesAndEmulation : Prop :=
    (∀ (t n ago : Nat) (rising : Bool) (s : State), s.core = .running → n < 4 →
    n < s.web.probes.length → edgeChosen (s.get (WP_PRB_CFG_EDGE n)) rising = true → s.get AG_RP_STAT_MODE ≠ 2 →
    -- an edge within BLANK of the previous latch is counted and stored nowhere
    (∀ p, (s.probe n).lastPos = some p →
      ((s.advance t).posAt ((s.advance t).now - ago)).floor - p < (s.get (WP_PRB_CFG_BLANK n) * 64 : Nat) →
      ∃ s', exec (.probeEdge t n rising ago) s = .next s' ∧
        Rest (((s.advance t).put (WP_PRB_STAT_LEVEL n) (b2n rising)).put (WP_PRB_STAT_IGNORED n)
          (s.get (WP_PRB_STAT_IGNORED n) + 1)) s') ∧
    ((∀ p, (s.probe n).lastPos = some p →
      (s.get (WP_PRB_CFG_BLANK n) * 64 : Nat) ≤ ((s.advance t).posAt ((s.advance t).now - ago)).floor - p) →
    -- a latch with room is stored with the stamp and the position of that time
    ((s.probe n).fifo.length < 16 →
      ∃ s', exec (.probeEdge t n rising ago) s = .next s' ∧
        (s'.probe n).fifo = (s.probe n).fifo ++ [⟨(s.advance t).now - ago,
          ((s.advance t).posAt ((s.advance t).now - ago)).floor, rising, s.is WP_MOTION_DIR_STATE, (s.probe n).lostRun⟩] ∧
        (s'.probe n).lostRun = false ∧ s'.get (WP_PRB_STAT_LEVEL n) = b2n rising ∧
        s'.get (WP_PRB_STAT_ENTRIES n) = (s.get (WP_PRB_STAT_ENTRIES n) + 1) % 32 ∧
        s'.get (WP_PRB_STAT_OVF n) = s.get (WP_PRB_STAT_OVF n) ∧
        s'.get (WP_PRB_STAT_IGNORED n) = s.get (WP_PRB_STAT_IGNORED n)) ∧
    -- one that finds the FIFO full is counted, and the first of a run raises 0x2107
    (16 ≤ (s.probe n).fifo.length →
      ∃ s', exec (.probeEdge t n rising ago) s = .next s' ∧ (s'.probe n).fifo = (s.probe n).fifo ∧
        (s'.probe n).lostRun = true ∧ s'.get (WP_PRB_STAT_OVF n) = (s.get (WP_PRB_STAT_OVF n) + 1) % 2 ^ 8 ∧
        s'.get (WP_PRB_STAT_ENTRIES n) = s.get (WP_PRB_STAT_ENTRIES n) ∧
        ((s.probe n).lostRun = false → Raises s s' 0x2107 n)))) ∧
    (∀ (t n : Nat) (s : State), s.core = .running → n < 2 → n < s.web.encos.length →
    s.is (WP_ENCO_CFG_EN n) = true → s.encosStand = false → 0 < (s.advance t).encoLag n →
    (∀ a, (s.enco n).lastAt = some a → (s.advance t).past a 100 = true) →
    ∃ s', exec (.encoEdge t n) s = .next s' ∧ (s'.enco n).k = (s.enco n).k + 1 ∧
      (s'.enco n).phase = ((s.enco n).phase + 1) % 4 ∧ (s'.enco n).lastAt = some (s.advance t).now ∧
      (s'.enco n).origin = (s.enco n).origin ∧ (∀ m, m ≠ n → s'.enco m = s.enco m) ∧
      s'.web.p = s.web.p ∧ s'.web.q = s.web.q ∧
      s'.get (WP_ENCO_STAT_LAG n) = min ((s.advance t).encoLag n - 1) 65535 ∧
      ∀ a, a ∉ shown → a ≠ WP_ENCO_STAT n → s'.rd a = s.rd a)

/-- STANDSTILL: an encoder with no count for STILL_MS stands, and the selected one's speed is 0. ESTIMATE_UPDATE: the
speed is 0 outside MOVING, and by the count method it is the counts of the window over their time, limited by the time
since the last count. (R184, R186) -/
def Obligations.StandstillSpeed : Prop := ∀ (t n : Nat) (s : State), s.core = .running →
    (n < 4 → n < s.web.encs.length → (s.enc n).state ≠ 0 →
      (s.advance t).past ((s.enc n).counts.headD 0) (s.get WP_SPD_CFG_STILL_MS * 1000000) = true →
      ∃ s', exec (.standstill t n) s = .next s' ∧ (s'.enc n).state = 0 ∧
        (n = s.selEnc → s'.web.speed = 0 ∧ s'.get WP_SPEED_VALUE = 0 ∧ s'.get WP_MOTION_SPEED_STATE = 0) ∧
        (n = s.selEnc → (s.enc n).state = 2 → Reports (s.advance t) s' 0x2106 0 0 0) ∧
        s'.web.p = s.web.p ∧ s'.web.q = s.web.q) ∧
    -- speed reads 0 outside MOVING
    ((s.enc s.selEnc).state ≠ 2 → s.get AG_RP_STAT_MODE ≠ 2 →
      ∃ s', exec (.estimateUpdate t) s = .next s' ∧ s'.web.speed = 0 ∧ s'.get WP_SPEED_VALUE = 0 ∧
        s'.web.p = s.web.p ∧ s'.web.q = s.web.q ∧ s'.web.encs = s.web.encs) ∧
    -- the count method, forward, limited by the time since the last count
    (∀ last first : Nat, s.get AG_RP_STAT_MODE ≠ 2 → (s.enc s.selEnc).state = 2 → (s.enc s.selEnc).fwd = true → 
      (s.enc s.selEnc).counts.head? = some last →
      ((s.enc s.selEnc).counts.filter fun a => decide (last ≤ a + s.get WP_SPD_CFG_WIN_US * 1000)).getLast? = some first →
      s.get WP_SPD_CFG_SW_UP ≤
        ((s.enc s.selEnc).counts.filter fun a => decide (last ≤ a + s.get WP_SPD_CFG_WIN_US * 1000)).length →
      s.get WP_SPD_CFG_SW_DN ≤ s.get WP_SPD_CFG_SW_UP → first < last → last < (s.advance t).now →
      ∃ s', exec (.estimateUpdate t) s = .next s' ∧ s'.get WP_MOTION_METHOD = 1 ∧
        s'.web.speed = min
          ((((((s.enc s.selEnc).counts.filter fun a =>
              decide (last ≤ a + s.get WP_SPD_CFG_WIN_US * 1000)).length - 1) * s.scaleOf s.selEnc : Nat) : Rat) / 65536 /
            (((last - first : Nat) : Rat) / 1000))
          ((s.scaleOf s.selEnc : Rat) / 65536 / ((((s.advance t).now - last : Nat) : Rat) / 1000)) ∧
        s'.web.p = s.web.p ∧ s'.web.q = s.web.q ∧ s'.web.encs = s.web.encs)

/-- GAP_START, LINE_MATCH and PAGE_DONE latch their bits and raise their events once their line has fired.
SPEED_REQ_RELEASE after 10 ms of calm clears every reason. JOB_DRAIN_DONE places the next job's first page no earlier
than the drained position. (R76, R77, R108, R113, R114) -/
def Obligations.ScanEvents : Prop :=
    (∀ (t slot page : Nat) (r : PageRun) (s : State), s.core = .running →
    (s.scan.runs.find? (fun r => r.job == slot && r.page == page && !r.gapStarted) = some r →
      (s.advance t).fired r (r.firstLine + r.lines) (s.refBar r) = true → s.is PG_EVT_CFG_GAP_START_EN = true →
      ∃ s', exec (.gapStart t slot page) s = .next s' ∧ s'.get PG_EVT_STAT_GAP_START = 1 ∧
        s'.get PG_EVT_STAT_REF_SUBST = b2n (s.refBar r != s.get PG_EVT_CFG_REF_BAR) ∧
        Reports (s.advance t) s' 0x3301 (s.refBar r) (packPage slot page) 0 ∧
        s'.get PG_EVT_STAT_LINE_MATCH = s.get PG_EVT_STAT_LINE_MATCH ∧ s'.get PG_EVT_STAT_PAGE_DONE = s.get PG_EVT_STAT_PAGE_DONE ∧
        ∀ a, a ∉ shown → a ∉ [PG_EVT_STAT, PG_CUR_PAGE, PG_CUR_LINE] → s'.rd a = s.rd a) ∧
    (s.scan.runs.find? (fun r => r.job == slot && r.page == page && !r.matched) = some r →
      s.get PG_EVT_CFG_MATCH_LINE < r.lines + r.gapLines →
      (s.advance t).fired r (r.firstLine + s.get PG_EVT_CFG_MATCH_LINE) (s.refBar r) = true →
      s.is PG_EVT_CFG_LINE_MATCH_EN = true →
      ∃ s', exec (.lineMatch t slot page) s = .next s' ∧ s'.get PG_EVT_STAT_LINE_MATCH = 1 ∧
        s'.get PG_EVT_STAT_REF_SUBST = b2n (s.refBar r != s.get PG_EVT_CFG_REF_BAR) ∧
        Reports (s.advance t) s' 0x3302 (s.refBar r) (packPage slot page) 0 ∧
        s'.get PG_EVT_STAT_GAP_START = s.get PG_EVT_STAT_GAP_START ∧ s'.get PG_EVT_STAT_PAGE_DONE = s.get PG_EVT_STAT_PAGE_DONE ∧
        ∀ a, a ∉ shown → a ∉ [PG_EVT_STAT, PG_CUR_PAGE, PG_CUR_LINE] → s'.rd a = s.rd a) ∧
    -- a value beyond the page and its minimum gap never matches
    (s.scan.runs.find? (fun r => r.job == slot && r.page == page && !r.matched) = some r →
      r.lines + r.gapLines ≤ s.get PG_EVT_CFG_MATCH_LINE →
      ∃ s', exec (.lineMatch t slot page) s = .next s' ∧ Rest (s.advance t) s') ∧
    (∀ b, s.scan.runs.find? (fun r => r.job == slot && r.page == page && !r.done) = some r →
      s.farBar r.bars = some b → (s.advance t).fired r (r.firstLine + r.lines - 1) b = true →
      s.is PG_EVT_CFG_PAGE_DONE_EN = true →
      ∃ s', exec (.pageDone t slot page) s = .next s' ∧ s'.get PG_EVT_STAT_PAGE_DONE = 1 ∧
        Reports (s.advance t) s' 0x3303 b (packPage slot page) 0 ∧
        s'.get PG_EVT_STAT_GAP_START = s.get PG_EVT_STAT_GAP_START ∧
        s'.get PG_EVT_STAT_LINE_MATCH = s.get PG_EVT_STAT_LINE_MATCH)) ∧
    (∀ (t a : Nat) (s : State), s.core = .running → s.scan.calm = some a →
    (s.advance t).spdCalm = true → (s.advance t).past a 10000000 = true → s.get PG_SPDREQ_STAT_THERMAL = 0 →
    s.get PG_SPDREQ_STAT_FORCED = 0 → s.get PG_SPDREQ_STAT_PIN = 1 →
    ∃ s', exec (.speedReqRelease t) s = .next s' ∧ s'.get PG_SPDREQ_STAT_OVER_DECL = 0 ∧
      s'.get PG_SPDREQ_STAT_SLACK = 0 ∧ s'.get PG_SPDREQ_STAT_PIN = 0 ∧ Reports (s.advance t) s' 0x3105 0 0 0 ∧
      Rest ((((s.advance t).put PG_SPDREQ_STAT_OVER_DECL 0).put PG_SPDREQ_STAT_SLACK 0).put PG_SPDREQ_STAT_PIN 0) s') ∧
    (∀ (t : Nat) (j : Job) (r : PageRun) (s : State), s.core = .running →
    s.authoritative = true → s.get PG_JOB_STAT_DRAINING = 1 → s.scan.runs.all (·.done) = true → s.scan.nextPage = none →
    s.nextJob = some j → s.scan.runs.getLast? = some r → r.ord ≠ j.order →
    ∃ s', exec (.jobDrainDone t) s = .next s' ∧
      (∃ n, s'.scan.nextPage = some n ∧ n.job = j.slot ∧ n.page = 0 ∧
        (n.mark = false → ∃ p, n.start = some p ∧
          (s.scan.emptied = false → sameGrid r j = false → (s.advance t).drained r j ≤ p))) ∧
      s'.get PG_JOB_STAT_DRAINING = 0 ∧
      Rest (({ s.advance t with scan := { s.scan with nextPage := s'.scan.nextPage } }).put PG_JOB_STAT_DRAINING 0) s')

/-- STORE_CE, PATROL_SCRUB and STORE_UE count, latch and report, and an uncorrectable error in a slot makes it BAD.
STRIP_FETCH and STRIP_DECODE_END: a RAW or SOLID strip needs no decoder, another takes the lowest free one (log 60,
the model's choice of one), and a strip error makes the slot BAD, counts it and raises 0x3201 with its reason. (R44,
R45, R92, R93, R95, R101, log 60) -/
def Obligations.StoreErrorsAndStrips : Prop :=
    (∀ (t : Nat) (s : State), s.core = .running →
    (∃ s', exec (.storeCe t) s = .next s' ∧
      Rest ((s.advance t).put MC_ECC_CE_COUNT (min (s.get MC_ECC_CE_COUNT + 1) (2 ^ 32 - 1))) s') ∧
    (∀ n, ∃ s', exec (.patrolScrub t n) s = .next s' ∧
      Rest ((s.advance t).put MC_ECC_CE_COUNT (min (s.get MC_ECC_CE_COUNT + n) (2 ^ 32 - 1))) s') ∧
    (∀ block c0, (c0 = true → s.slotAt (block * 64) = none) →
      ∃ s', exec (.storeUe t block c0) s = .next s' ∧ Reports (s.advance t) s' 0x3103 (block % 4) (block % 2 ^ 30) 0 ∧
        Rest ((((s.advance t).put MC_ECC_UE_COUNT (min (s.get MC_ECC_UE_COUNT + 1) (2 ^ 32 - 1))).put MC_ECC_UE_ADDR_BLOCK
          block).put MC_ECC_UE_ADDR_SUBCH (block % 4)) s') ∧
    (∀ block id gen k, s.slotAt (block * 64) = some (id, gen, k) →
      ∃ s', exec (.storeUe t block true) s = .next s' ∧ (s'.slotOf id gen k).state = stBad ∧
        (s'.slotOf id gen k).ue = true ∧ s'.get MC_ECC_UE_COUNT = min (s.get MC_ECC_UE_COUNT + 1) (2 ^ 32 - 1) ∧
        Reports (s.advance t) s' 0x3103 (block % 4) (block % 2 ^ 30) 0)) ∧
    (∀ (t id gen k : Nat) (r : PageRun) (s : State), s.core = .running →
    s.userOf id gen = some r → (s.slotOf id gen k).readable = true → s.ingest.fetched.contains (id, gen, k) = false →
    s.ingest.waiting.contains (id, gen, k) = false →
    -- a sound RAW or SOLID strip goes straight to composition
    (s.ingest.decoding.any (·.2 == (id, gen, k)) = false → (s.stripRead id gen k).reason = 0 →
      (s.slotOf id gen k).mode = 0 ∨ (s.slotOf id gen k).mode = 3 →
      ∃ s', exec (.stripFetch t id gen k) s = .next s' ∧
        Rest (({ s.advance t with ingest := { s.ingest with
          rawOut := s.ingest.rawOut + (s.slotOf id gen k).rawLen, fetched := s.ingest.fetched ++ [(id, gen, k)] } }).put
            CS_DEC_OUT_UNITS_64K ((s.ingest.rawOut + (s.slotOf id gen k).rawLen) / 65536)) s') ∧
    -- a strip with a sound header in another mode goes to a free decoder, the lowest (log 60)
    (∀ n, s.ingest.decoding.any (·.2 == (id, gen, k)) = false → (s.stripRead id gen k).reason ≠ 1 →
      (s.stripRead id gen k).reason ≠ 2 → (s.slotOf id gen k).mode = 1 ∨ (s.slotOf id gen k).mode = 2 →
      (List.range 16).find? (fun n => !s.bitOf CS_DEC_STAT_BUSY n) = some n →
      ∃ s', exec (.stripFetch t id gen k) s = .next s' ∧
        Rest (({ s.advance t with ingest := { s.ingest with
          decoding := s.ingest.decoding ++ [(n, id, gen, k)] } }).setBitOf CS_DEC_STAT_BUSY n true) s') ∧
    -- and waits where every decoder is busy
    (s.ingest.decoding.any (·.2 == (id, gen, k)) = false → (s.stripRead id gen k).reason ≠ 1 →
      (s.stripRead id gen k).reason ≠ 2 → (s.slotOf id gen k).mode = 1 ∨ (s.slotOf id gen k).mode = 2 →
      (∀ n < 16, s.bitOf CS_DEC_STAT_BUSY n = true) →
      ∃ s', exec (.stripFetch t id gen k) s = .next s' ∧
        Rest { s.advance t with ingest := { s.ingest with waiting := s.ingest.waiting ++ [(id, gen, k)] } } s') ∧
    -- a fault in the header ends it there: BAD, counted, latched, reported
    (s.ingest.decoding.any (·.2 == (id, gen, k)) = false →
      (s.stripRead id gen k).reason = 1 ∨ (s.stripRead id gen k).reason = 2 →
      ∃ s', exec (.stripFetch t id gen k) s = .next s' ∧ (s'.slotOf id gen k).state = stBad ∧
        s'.get CS_DEC_ERR_COUNT = min (s.get CS_DEC_ERR_COUNT + 1) (2 ^ 32 - 1) ∧ s'.rd CS_DEC_LAST = (id + gen * 65536) % 2 ^ 32 ∧
        Reports (s.advance t) s' 0x3201 (s.stripRead id gen k).reason (packGen id gen) k) ∧
    -- a decoder that finishes frees itself; its strip is checked then
    (∀ n, s.ingest.decoding.find? (·.1 == n) = some (n, id, gen, k) → n < 16 → (s.stripRead id gen k).reason = 0 →
      s.ingest.waiting = [] →
      ∃ s', exec (.stripDecodeEnd t n) s = .next s' ∧
        Rest ((({ s.advance t with ingest := { s.ingest with
          decoding := s.ingest.decoding.filter (·.1 != n)
          rawOut := s.ingest.rawOut + (s.slotOf id gen k).rawLen, fetched := s.ingest.fetched ++ [(id, gen, k)] } }).setBitOf
            CS_DEC_STAT_BUSY n false).put
            CS_DEC_OUT_UNITS_64K ((s.ingest.rawOut + (s.slotOf id gen k).rawLen) / 65536)) s') ∧
    -- it takes the strip that waits
    (∀ n key, s.ingest.decoding.find? (·.1 == n) = some (n, id, gen, k) → n < 16 → (s.stripRead id gen k).reason = 0 →
      s.ingest.waiting = [key] → key ≠ (id, gen, k) → s.stripDue key.1 key.2.1 key.2.2 = true →
      (s.userOf key.1 key.2.1).isSome = true →
      ∃ s', exec (.stripDecodeEnd t n) s = .next s' ∧ s'.ingest.waiting = [] ∧ s'.bitOf CS_DEC_STAT_BUSY n = true ∧
        s'.ingest.decoding = s.ingest.decoding.filter (·.1 != n) ++ [(n, key)] ∧
        s'.ingest.fetched = s.ingest.fetched ++ [(id, gen, k)]) ∧
    (∀ n, s.ingest.decoding.find? (·.1 == n) = some (n, id, gen, k) → n < 16 → (s.stripRead id gen k).reason ≠ 0 →
      s.ingest.waiting = [] →
      ∃ s', exec (.stripDecodeEnd t n) s = .next s' ∧ s'.bitOf CS_DEC_STAT_BUSY n = false ∧
        (s'.slotOf id gen k).state = stBad ∧ s'.get CS_DEC_ERR_COUNT = min (s.get CS_DEC_ERR_COUNT + 1) (2 ^ 32 - 1) ∧
        Reports (s.advance t) s' 0x3201 (s.stripRead id gen k).reason (packGen id gen) k))

/-- DBT_FRAGMENT: one for another UDP port is a frame not answered; a datagram that fails the checks is dropped and
counted; ingest stops while C3 is shed; a first fragment begins a transfer, places its bytes in the store and nowhere
else, and makes the slot LOADING; a refused one is answered with a NAK; a further fragment is placed; one that differs
from its transfer is dropped. (R29, R56, R57, R58, R59, R61, R529) -/
def Obligations.FragmentsPlaced : Prop := ∀ (t port src dport : Nat) (v6 : Bool) (h : DbtHdr) (bs : List Byte) (e : Session) (w : Window)
    (s : State), s.core = .running → s.hostUp = true → port < 2 →
    -- one for another UDP port, or over an IP version that is off, is a frame the unit does not answer
    (dport ≠ s.get HP_DBT_PORT_PORT ∨ s.ipOn 1 v6 = false →
      ∃ s', exec (.dbtFragment t port ⟨src, dport, v6⟩ h bs) s = .next s' ∧
        Rest ((s.advance t).put HP_RX_DROP_DP (s.get HP_RX_DROP_DP + 1)) s') ∧
    (dport = s.get HP_DBT_PORT_PORT → s.ipOn 1 v6 = true →
    s.ingest.sessions.find? (·.id == h.session) = some e → s.window h.session h.window = some w →
    -- a datagram that fails R57 and R58 is dropped
    (fragOk h e.frag bs.length = false ∨ h.kind ≠ 0 ∨ w.kind = .readBack →
      ∃ s', exec (.dbtFragment t port ⟨src, dport, v6⟩ h bs) s = .next s' ∧
        Rest (((s.advance t).retxSeen h).put HP_DBT_DROP_COUNT (s.get HP_DBT_DROP_COUNT + 1)) s') ∧
    -- ingest stops while C3 is shed
    (fragOk h e.frag bs.length = true → h.kind = 0 → w.kind ≠ .readBack → s.c3Shed = true →
      ∃ s', exec (.dbtFragment t port ⟨src, dport, v6⟩ h bs) s = .next s' ∧ Rest ((s.advance t).retxSeen h) s') ∧
    (fragOk h e.frag bs.length = true → h.kind = 0 → w.kind ≠ .readBack → s.c3Shed = false → (s.advance t).isEnded h = false →
      -- a transfer's first fragment begins it
      (∀ a, s.ingest.xfers.find? (·.isOf h) = none → w.kind = .stripWrite → s.firstReason w h = 0 →
        s.ingest.xfers.filter (s.writesSame w h.objIndex) = [] →
        (s.ingest.xfers.filter fun y => y.session == h.session && y.window == h.window).length < 64 → s.ingest.xfers.length < 1024 →
        s.poolAlloc h.xferLen = some a →
        ∃ s', exec (.dbtFragment t port ⟨src, dport, v6⟩ h bs) s = .next s' ∧
          s'.ingest.xfers = s.ingest.xfers ++ [{ xferOf h a (s.advance t).now src port with got := [h.frag] }] ∧
          s'.get HP_DBT_INFLIGHT_XFERS = s.ingest.xfers.length + 1 ∧
          (s'.slotOf w.surf w.gen h.objIndex).state = stLoading ∧ s'.out = s.out ∧
          (∀ i (hi : i < bs.length), s.inRing (a + h.frag * e.frag + i) = false →
            s'.byte (a + h.frag * e.frag + i) = bs[i]) ∧
          (∀ b, s.inRing b = false → b < a + h.frag * e.frag ∨ a + h.frag * e.frag + bs.length ≤ b → s'.byte b = s.byte b)) ∧
      -- one that the window, its object or a live strip refuses is answered with a NAK
      (∀ reason, s.ingest.xfers.find? (·.isOf h) = none → s.firstReason w h = reason → reason ≠ 0 → reason ≠ 0xFF →
        ∃ s', exec (.dbtFragment t port ⟨src, dport, v6⟩ h bs) s = .next s' ∧ s'.ingest.xfers = s.ingest.xfers ∧
          s'.out = s.out ++ [.dbt ⟨h.session, h.window, h.xferId, h.objIndex, h.fragCount, h.xferLen, h.xferCrc, reason,
            src, port, [port]⟩] ∧
          s'.get HP_DBT_NAKS_COUNT = (s.get HP_DBT_NAKS_COUNT + 1) % 2 ^ 32 ∧
          (∀ b, s.inRing b = false → s'.byte b = s.byte b)) ∧
      -- a further fragment of the same transfer is placed; one that differs from it is dropped
      (∀ x, s.ingest.xfers = [x] → x.isOf h = true → x.obj = h.objIndex → x.fragCount = h.fragCount → x.len = h.xferLen →
        x.crc = h.xferCrc → h.frag ∉ x.got →
        ∃ s', exec (.dbtFragment t port ⟨src, dport, v6⟩ h bs) s = .next s' ∧
          s'.ingest.xfers = [{ x with got := h.frag :: x.got, lastAt := (s.advance t).now
                                      src := if x.got.length = x.fragCount then x.src else src
                                      port := if x.got.length = x.fragCount then x.port else port
                                      ports := if x.ports.contains port then x.ports else port :: x.ports }] ∧
          (∀ i (hi : i < bs.length), s.inRing (x.addr + h.frag * e.frag + i) = false →
            s'.byte (x.addr + h.frag * e.frag + i) = bs[i]) ∧ s'.out = s.out) ∧
      (∀ x, s.ingest.xfers.find? (·.isOf h) = some x → x.crc ≠ h.xferCrc →
        ∃ s', exec (.dbtFragment t port ⟨src, dport, v6⟩ h bs) s = .next s' ∧ s'.ingest.xfers = s.ingest.xfers ∧ s'.out = s.out ∧
          s'.get HP_DBT_DROP_COUNT = (s.get HP_DBT_DROP_COUNT + 1) % 2 ^ 32)))

/-- DBT_VERIFY_DONE answers ACK with the slot HELD, or NAK with the slot EMPTY; DBT_TIMEOUT after 10 ms answers NAK 5;
DP_LINK_LOSS discards the port's transfers without an answer; RDREQ sends the object in fragments of the session's
size or a NAK. (R59, R60, R62, R63, R64) -/
def Obligations.TransfersEnd : Prop :=
    (∀ (t session window id : Nat) (s : State), s.core = .running → s.c3Shed = false →
    (∀ w x, s.window session window = some w → s.ingest.xfers = [x] → x.session = session → x.window = window → x.id = id →
      x.got.length = x.fragCount →
      -- the check fails: NAK and an EMPTY slot; it passes: ACK, STORED, and HELD at once where no partner is awaited
      (∀ r, s.verifyReason w x = r → r ≠ 0 →
        ∃ s', exec (.dbtVerifyDone t session window id) s = .next s' ∧ s'.ingest.xfers = [] ∧
          s'.out = s.out ++ [.dbt ⟨session, window, id, x.obj, x.fragCount, x.len, x.crc, r, x.src, x.port, x.ports⟩] ∧
          s'.get HP_DBT_NAKS_COUNT = (s.get HP_DBT_NAKS_COUNT + 1) % 2 ^ 32 ∧
          (w.kind = .stripWrite → (s.slotOf w.surf w.gen x.obj).state = stLoading →
            (s'.slotOf w.surf w.gen x.obj).state = stEmpty)) ∧
      (∀ f, s.verifyReason w x = 0 → w.kind = .stripWrite → s.surf w.surf w.gen = some f → s.heldAlone = true →
        ∃ s', exec (.dbtVerifyDone t session window id) s = .next s' ∧ s'.ingest.xfers = [] ∧
          s'.out = s.out ++ [.dbt ⟨session, window, id, x.obj, x.fragCount, x.len, x.crc, 0, x.src, x.port, x.ports⟩] ∧
          s'.get HP_DBT_ACKS_COUNT = (s.get HP_DBT_ACKS_COUNT + 1) % 2 ^ 32 ∧
          (s'.slotOf w.surf w.gen x.obj).state = stHeld ∧ (s'.slotOf w.surf w.gen x.obj).addr = x.addr ∧
          (s'.slotOf w.surf w.gen x.obj).len = x.len ∧ (s'.slotOf w.surf w.gen x.obj).digest = x.crc)) ∧
    (∀ x, s.ingest.xfers = [x] → x.session = session → x.window = window → x.id = id → x.got.length < x.fragCount →
      (s.advance t).past x.lastAt 10000000 = true →
      ∃ s', exec (.dbtTimeout t session window id) s = .next s' ∧ s'.ingest.xfers = [] ∧
        s'.out = s.out ++ [.dbt ⟨session, window, id, x.obj, x.fragCount, x.len, x.crc, 5, x.src, x.port, x.ports⟩] ∧
        s'.get HP_DBT_NAKS_COUNT = (s.get HP_DBT_NAKS_COUNT + 1) % 2 ^ 32) ∧
    (∀ port, ∃ s', exec (.dpLinkLoss t port) s = .next s' ∧ s'.out = s.out ∧
      s'.ingest.delayed = s.ingest.delayed.filter (fun r => !r.ports.contains port) ∧
      s'.ingest.reads = s.ingest.reads.filter (·.port != port) ∧
      ∀ x ∈ s'.ingest.xfers, x ∈ s.ingest.xfers ∧ x.ports.contains port = false)) ∧
    (∀ (t port src dport : Nat) (v6 : Bool) (h : DbtHdr) (e : Session) (w : Window) (s : State),
    s.core = .running → s.hostUp = true → port < 2 → dport = s.get HP_DBT_PORT_PORT → s.ipOn 1 v6 = true →
    s.ingest.sessions.find? (·.id == h.session) = some e → s.window h.session h.window = some w → w.kind = .readBack →
    h.magic = 0xDB70 → h.ver = 1 → h.kind = 3 → h.payloadLen = 0 →
    (∀ bs, s.readObj w h.objIndex = some bs → s.c3Shed = false →
      ∃ s', exec (.rdreq t port ⟨src, dport, v6⟩ h) s = .next s' ∧
        s'.out = s.out ++ (List.range (cdiv bs.length e.frag)).map (fun i => .rddata port src h.session h.window h.xferId
          h.objIndex i (cdiv bs.length e.frag) bs.length (crc32c bs) (slice bs (i * e.frag) e.frag)) ∧
        Rest { (s.advance t).retxSeen h with out := s'.out } s') ∧
    -- while C3 is shed 16 wait, and a further one draws a NAK with BUSY, which waits too
    (∀ bs, s.readObj w h.objIndex = some bs → s.c3Shed = true → s.ingest.reads.length < 16 →
      ∃ s', exec (.rdreq t port ⟨src, dport, v6⟩ h) s = .next s' ∧ s'.out = s.out ∧
        s'.ingest.reads = s.ingest.reads ++ [⟨h.session, h.window, h.xferId, h.objIndex, src, port, e.frag, bs⟩] ∧
        s'.ingest.delayed = s.ingest.delayed) ∧
    (∀ bs, s.readObj w h.objIndex = some bs → s.c3Shed = true → 16 ≤ s.ingest.reads.length →
      ∃ s', exec (.rdreq t port ⟨src, dport, v6⟩ h) s = .next s' ∧ s'.out = s.out ∧ s'.ingest.reads = s.ingest.reads ∧
        s'.ingest.delayed = s.ingest.delayed ++
          [⟨h.session, h.window, h.xferId, h.objIndex, h.fragCount, h.xferLen, h.xferCrc, 4, src, port, [port]⟩]) ∧
    -- an object that does not exist, or holds no data, draws RANGE (log 51, the model's choice)
    (s.readObj w h.objIndex = none → s.c3Shed = false →
      ∃ s', exec (.rdreq t port ⟨src, dport, v6⟩ h) s = .next s' ∧
        Rest ((((s.advance t).retxSeen h).emit (.dbt ⟨h.session, h.window, h.xferId, h.objIndex, h.fragCount, h.xferLen,
          h.xferCrc, 3, src, port, [port]⟩)).put HP_DBT_NAKS_COUNT (s.get HP_DBT_NAKS_COUNT + 1)) s'))

/-- LINE_COMPOSE_START takes the next SEQ of each channel of its bar only; BANK_COPY_DONE makes the shadow bank equal
to the live bank (premise: canonical, kept by CanonicalKept); ENCODER_VERIFY counts by its outcome; GENERATION_FREED
frees a released generation's entry. (R99, R135, R159, R257) -/
def Obligations.LinesAndBanks : Prop := ∀ (t : Nat) (s : State), s.core = .running →
    -- a bar's next line begins: the next SEQ of each of its channels, and the line is its last
    (∀ b r line, b < 8 → b < s.screen.bars.length → s.lines.length = 96 → s.nextLine b = some (r, line) →
      s.get AG_RP_STAT_MODE ≠ 2 → (s.advance t).mayCompose b r line = true →
      ∃ s', exec (.lineComposeStart t b) s = .next s' ∧ (s'.screenBar b).lastLine = some (r.ord, line) ∧
        (∀ ch ∈ barLanes b, s'.get (JL_SEQ_NEXT_SEQ ch) = (s.get (JL_SEQ_NEXT_SEQ ch) + 1) % 2 ^ 24) ∧
        (∀ ch < 96, chanBar ch ≠ b → s'.get (JL_SEQ_NEXT_SEQ ch) = s.get (JL_SEQ_NEXT_SEQ ch) ∧ s'.chanLines ch = s.chanLines ch)) ∧
    -- the copy of the new live bank into the shadow bank completes
    (∀ b, b < 8 → s.canonical = true → s.get (SC_BAR_APPLY_CTRL_COPY_BUSY b) = 1 →
      ∃ s', exec (.bankCopyDone t b) s = .next s' ∧ s'.get (SC_BAR_APPLY_CTRL_COPY_BUSY b) = 0 ∧
        (s'.screenBar b).copyFrom = none ∧
        (∀ k < 0x18000, s'.rd (shadowWin b + 4 * k) = s.rd (liveWin b + 4 * k)) ∧
        (∀ a, a ∉ shown → a ≠ SC_BAR_APPLY_CTRL b → ¬(shadowWin b ≤ a ∧ a < shadowWin b + 0x60000) → s'.rd a = s.rd a)) ∧
    -- a strip of the encoder passes its verification, or fails it twice
    (∀ n x last width ss rest, n < 4 → s.c3Shed = false → s.screen.streams.find? (fun x => x.enc == n && !x.verify.isEmpty) = some x →
      x.verify = (last, width, ss) :: rest →
      (∃ s', exec (.encoderVerify t n .equal) s = .next s' ∧
        s'.get (CS_ENC_STAT_STRIPS n) = (s.get (CS_ENC_STAT_STRIPS n) + 1) % 2 ^ 16 ∧
        s'.get (CS_ENC_VFAIL_VERIFY_FAIL n) = s.get (CS_ENC_VFAIL_VERIFY_FAIL n)) ∧
      (∃ s', exec (.encoderVerify t n .rawEqual) s = .next s' ∧ Reports (s.advance t) s' 0x3202 n 0 0 ∧
        s'.get (CS_ENC_STAT_STRIPS n) = (s.get (CS_ENC_STAT_STRIPS n) + 1) % 2 ^ 16 ∧
        s'.get (CS_ENC_VFAIL_VERIFY_FAIL n) = min (s.get (CS_ENC_VFAIL_VERIFY_FAIL n) + 1) 0xFFFF) ∧
      ∃ s', exec (.encoderVerify t n .rawDiffers) s = .next s' ∧ Reports (s.advance t) s' 0x3202 n 0 0 ∧
        s'.get (CS_ENC_STAT_FAILED n) = 1 ∧
        s'.get (CS_ENC_VFAIL_VERIFY_FAIL n) = min (s.get (CS_ENC_VFAIL_VERIFY_FAIL n) + 1) 0xFFFF ∧
        s'.get (CS_ENC_VFAIL_ENCODE_FAIL n) = min (s.get (CS_ENC_VFAIL_ENCODE_FAIL n) + 1) 0xFFFF ∧
        s'.get (CS_ENC_STAT_STRIPS n) = s.get (CS_ENC_STAT_STRIPS n)) ∧
    -- a released generation with no page to come is freed at the tick end that passes
    (∀ id gen f, s.surf id gen = some f → s.authoritative = true → (s.advance t).tick ≠ s.tb.seen → s.mayFree f = true →
      f.entry < 4096 → f.body.length = 6 → s.surfWindows id gen = [] → (∀ g ∈ s.ingest.surfs, g.entry = f.entry → g = f) →
      ∃ s', exec (.generationFreed t id gen) s = .next s' ∧
        s'.ingest.surfs = s.ingest.surfs.filter (fun g => g.entry != f.entry) ∧ s'.rd (surfWin f.entry + 24) = 0 ∧
        s'.out = s.out)

/-- TICK_END takes each tick once; where one command waits and is due at a unit that decides it is committed, and its
response with the tick's number leaves or awaits the standby; a unit in CONFIGURED answers each held command
DISCARDED; a second TICK_END of the same tick changes nothing. (R26, R39, R370) -/
def Obligations.TickEnds : Prop := ∀ (t : Nat) (s : State), s.core = .running → s.get AG_RP_STAT_MODE = 0 →
    (s.agate.script = [] → s.dcp.held = [] → (s.advance t).tick ≠ s.tb.seen →
      ∃ s', exec (.tickEnd t) s = .next s' ∧ s'.tb.seen = (s.advance t).tick ∧ s'.dcp.held = [] ∧ ∃ sent, s'.out = s.out ++ sent) ∧
    (s.agate.script = [] → (s.advance t).tick ≠ s.tb.seen → s.base = .configured → s.is HP_MP_STAT_LINK = true →
      ∃ s', exec (.tickEnd t) s = .next s' ∧ s'.dcp.held = [] ∧ ∀ h ∈ s.dcp.held, ∃ mac, Sent.dcp h.discarded mac ∈ s'.out) ∧
    -- the one command that waits and is due commits, and its response with this tick leaves or awaits the standby
    (∀ h, s.agate.script = [] → (s.advance t).tick ≠ s.tb.seen → s.authoritative = true → s.pair.higher = false →
      s.is HP_MP_STAT_LINK = true → s.dcp.held = [h] → h.passedAt + 20000 ≤ (s.advance t).now →
      ∃ s' a, exec (.tickEnd t) s = .next s' ∧ s'.tb.seen = (s.advance t).tick ∧ s'.dcp.held = [] ∧
        ((∃ mac, Sent.dcp (h.answer (s.advance t).tick a) mac ∈ s'.out) ∨
          h.answer (s.advance t).tick a ∈ s'.dcp.await)) ∧
    -- once for each tick
    ((s.advance t).tick = s.tb.seen → ∃ s', exec (.tickEnd t) s = .next s' ∧ Rest (s.advance t) s')

/-- The commit order is a sorted permutation of the held commands; a unit without authority discards them; one command
alone commits with its own result once 20 µs have passed and waits before; of two contradictory commands of different
masters the later in the order answers CONFLICT, is counted and raises 0x7104. TB_OFS_ADJ words of one tick form one
adjustment. (R39, R426, R430, R431) -/
def Obligations.CommitsInOrder : Prop :=
    -- the order of R430: authority, then the lower master, then the lower counter
    (∀ l : List Held, (heldSort l).Perm l ∧ (heldSort l).Pairwise fun a b => b.before a = false) ∧
    (∀ s : State, s.authoritative = false → s.commits = (s.heldDiscard, [])) ∧
    -- a command alone
    (∀ (s : State) (h : Held), s.base = .single → s.get AG_RP_STAT_MODE = 0 → s.dcp.held = [h] → h.passedAt + 20000 ≤ s.now →
      ∀ r, r = State.commitGo { s with dcp := { s.dcp with held := [] } } h.opcode h.body → r.2.adjOk = true →
      s.commits = (r.2, [h.answer s.tick r.1])) ∧
    -- a time adjustment that may not stand completes with BUSY (R207)
    (∀ (s : State) (h : Held), s.base = .single → s.get AG_RP_STAT_MODE = 0 → s.dcp.held = [h] → h.passedAt + 20000 ≤ s.now →
      (State.commitGo { s with dcp := { s.dcp with held := [] } } h.opcode h.body).2.adjOk = false →
      ∀ r, r = State.commitGo { s with dcp := { s.dcp with held := [], adjBusy := true } } h.opcode h.body →
      s.commits = ({ r.2 with dcp := { r.2.dcp with adjBusy := false } }, [h.answer s.tick r.1])) ∧
    (∀ (s : State) (h : Held), s.authoritative = true → s.adjOk = true → s.dcp.held = [h] → s.now < h.passedAt + 20000 →
      s.commits = (s, [])) ∧
    -- of two contradictory commands of different masters the later in the order loses
    (∀ (s : State) (a b : Held), s.base = .single → s.get AG_RP_STAT_MODE = 0 → s.dcp.held = [b, a] →
      a.passedAt + 20000 ≤ s.now → b.passedAt + 20000 ≤ s.now → a.before b = true → a.master ≠ b.master →
      ∀ x r c, x = ({ s with dcp := { s.dcp with held := [] } } : State) → r = x.commitGo a.opcode a.body → r.1.status = stOk →
      ((x.commitClaims a.opcode a.body).any fun c => (r.2.commitClaims b.opcode b.body).any c.clash) = true →
      c = (r.2.inc HP_DCP_CONFLICT_CONFLICTS).raise 0x7104 b.master a.master 0 → c.adjOk = true →
      s.commits = (c, [a.answer s.tick r.1, b.answer s.tick (.of stConflict 0)]))

/-- For every DCP command of the table, rowRequest naming each, UNKNOWN_OPCODE among them: one over an IP version that
is off or to another port is a frame not answered; a malformed request is counted and dropped; a bad MAC, key or
master is AUTH_FAIL, answered at most once in 1 ms; a counter not above the floor is STALE; an unknown opcode (which
is UNKNOWN_OPCODE's own effect), a missing authority, a limit or a mixed write and a critical command at a unit
without authority are refused, each with its answer, its counter consumed and nothing else changed. (R409, R410, R412,
R413, R414, R416, R417) -/
def Obligations.RequestOrder : Prop := ∀ (c : Instr) (t op : Nat) (h : DcpHdr) (body : List Nat) (s : State),
    rowRequest c = some (t, op, h, body) → s.core = .running → s.is HP_MP_STAT_LINK = true → s.hostUp = true →
    -- over an IP version that is off, or to another port, it is a frame the unit does not answer (R410–R412)
    (s.ipOn 0 h.v6 = false ∨ h.dport ≠ s.get HP_DCP_CFG_PORT →
      ∃ s', exec c s = .next s' ∧ Rest ((s.advance t).put HP_RX_DROP_MP (s.get HP_RX_DROP_MP + 1)) s') ∧
    -- 1: a malformed datagram is counted and dropped
    (s.takes h = true → s.msgLimit < 48 + 4 * body.length ∨ hdrFormed h body = false →
      ∃ s', exec c s = .next s' ∧ Rest ((s.advance t).put HP_DCP_STAT_DROPPED (s.get HP_DCP_STAT_DROPPED + 1)) s') ∧
    (s.takes h = true → 48 + 4 * body.length ≤ s.msgLimit → hdrFormed h body = true → s.unsigned op body = false →
      -- 2 and 3: a disabled master, a key that is not VALID or a wrong MAC; an answer at most once in 1 ms
      (¬(s.is (HP_MST_CFG_EN h.master) = true ∧ s.keyState (s.get (HP_MST_CFG_KEY_SLOT h.master)) = 1 ∧
          s.macOf h.master (hdrMsg h op body) = h.mac) →
        ∃ s', exec c s = .next s' ∧ s'.get HP_DCP_ERR_AUTH_FAIL = (s.get HP_DCP_ERR_AUTH_FAIL + 1) % 2 ^ 16 ∧
          s'.out = (if (match s.dcp.authRespAt with
              | some a => (s.advance t).past a 1000000
              | none => true) then s.out ++ [.dcp (answer op h (.of stAuthFail 0)) 0] else s.out) ∧
          s'.dcp.held = s.dcp.held ∧ s'.ingest = s.ingest ∧ s'.scan = s.scan ∧ s'.otp = s.otp ∧ s'.flash = s.flash ∧
          WordsKept s s' [HP_DCP_ERR]) ∧
      -- 4: a counter not above the floor
      (s.is (HP_MST_CFG_EN h.master) = true → s.keyState (s.get (HP_MST_CFG_KEY_SLOT h.master)) = 1 →
        s.macOf h.master (hdrMsg h op body) = h.mac → h.counter ≤ s.floor h.master →
        ∃ s', exec c s = .next s' ∧ Answered s s' op h (.of stStale 0) ∧
          Rest (((s.advance t).put HP_DCP_ERR_STALE (s.get HP_DCP_ERR_STALE + 1)).emit
            (.dcp (answer op h (.of stStale 0)) (s.macOf h.master (answer op h (.of stStale 0)).msg))) s')) ∧
    (Signed s op h body →
      -- 5: an opcode not in the table
      (opcodes.contains op = false →
        ∃ s', exec c s = .next s' ∧ Answered s s' op h (.of stRange dtOpcode) ∧ s'.floor h.master = h.counter ∧
          WordsKept s s' [HP_MST_CTR_LO h.master, HP_MST_CTR_HI h.master] ∧ s'.dcp.held = s.dcp.held) ∧
      -- 6: an authority that does not reach
      (∀ a, opcodes.contains op = true → authCheck (s.get (HP_MST_CFG_AUTHORITY h.master)) op body = some a →
        ∃ s', exec c s = .next s' ∧ Answered s s' op h a ∧ s'.floor h.master = h.counter ∧
          WordsKept s s' [HP_MST_CTR_LO h.master, HP_MST_CTR_HI h.master] ∧ s'.dcp.held = s.dcp.held) ∧
      -- 7: a length, an address, a value or a mixture out of range
      (∀ a, opcodes.contains op = true → authCheck (s.get (HP_MST_CFG_AUTHORITY h.master)) op body = none →
        ((s.advance t).consume h).bodyCheck op body = some a →
        ∃ s', exec c s = .next s' ∧ Answered s s' op h a ∧ s'.floor h.master = h.counter ∧
          WordsKept s s' [HP_MST_CTR_LO h.master, HP_MST_CTR_HI h.master] ∧ s'.dcp.held = s.dcp.held) ∧
      -- 8: a critical command at a unit that takes no authoritative decisions
      (Passes (s.advance t) op h body → isCritical op body = true → s.authoritative = false →
        ∃ s', exec c s = .next s' ∧ Answered s s' op h (.of stBadState 0) ∧ s'.floor h.master = h.counter ∧
          WordsKept s s' [HP_MST_CTR_LO h.master, HP_MST_CTR_HI h.master] ∧ s'.dcp.held = s.dcp.held))

/-- For every row of the table that carries a critical DCP request (WRITE, SURFACE_DEFINE, SURFACE_RELEASE,
PAGE_DEFINE, PAGE_CLOSE, JOB_DEFINE, JOB_START, JOB_CLOSE, JOB_CANCEL, TABLE_LOAD, MASTER_SET, GAP and TICK commit,
ARM, SWAP, RESTORE, ENC_CFG, TB_INCR, TB_OFS_ADJ, LANE_CFG, strobe, FS_WD_CLR, SAFE inhibit and clear, BAR_GATE,
SWITCH, REVIVE, RESET_EST, REG_CLR, STRIP_FORCE, FLUSH, recorder ARM, TRIGGER and FREEZE, replay ENTER and RUN), at an
authoritative unit where the request passes orders 1 to 7 of R417: exec answers a next state in which it is held with
its master, authority, counter, tag and time, nothing is sent, and nothing but the counter floor and ACCEPTED changes.
(R417, R426) -/
def Obligations.CriticalHeld : Prop := ∀ (c : Instr) (t op : Nat) (h : DcpHdr) (body : List Nat) (s : State),
    rowRequest c = some (t, op, h, body) → s.core = .running → Passes (s.advance t) op h body →
    isCritical op body = true → s.authoritative = true →
    ∃ s', exec c s = .next s' ∧
      s'.dcp.held = s.dcp.held ++
        [⟨op, h.master, s.get (HP_MST_CFG_AUTHORITY h.master), h.counter, h.tag, h.src, body, (s.advance t).now⟩] ∧
      s'.out = s.out ∧ Took s s' h ∧
      (∀ a, s.inRing a = false → s'.byte a = s.byte a) ∧ s'.ingest = s.ingest ∧ s'.scan = s.scan ∧
      WordsKept s s' [HP_MST_CTR_LO h.master, HP_MST_CTR_HI h.master, HP_DCP_STAT]

/-- IDENTIFY answers the unit's identity, nonce and floors without a MAC. READ answers every word at one instant;
words at unoccupied addresses are 0 and the first is named with RANGE. EVENT_READ answers the events from FROM_SEQ on,
cut at MAX and at the message's limit; from a FROM_SEQ no longer held it starts at the oldest with EVENTS_LOST, and
past the last one it answers no record. (R423, R424, R429, R434) -/
def Obligations.ReadsAnswered : Prop := ∀ (t : Nat) (h : DcpHdr) (body : List Nat) (s : State), s.core = .running →
    -- IDENTIFY, with no MAC on either side
    (hdrFormed (hdrNorm h) [] = true → s.is HP_MP_STAT_LINK = true → s.hostUp = true → s.takes h = true →
      ∃ s', exec (.identify t h []) s = .next s' ∧
        Rest (((s.advance t).put HP_DCP_STAT_ACCEPTED (s.get HP_DCP_STAT_ACCEPTED + 1)).emit
          (.dcp (answer 0 (hdrNorm h) (.okBody ([s.rd GL_DEV_ID,
            b2n s.unitId + s.get PR_STAT_ROLE * 16 + s.get HP_KEY_STAT_STATE * 2 ^ 16, s.get HP_BOOT_NONCE_HI_NONCE,
            s.get HP_BOOT_NONCE_LO_NONCE, s.masterByte 0 + s.masterByte 1 * 2 ^ 8 + s.masterByte 2 * 2 ^ 16 +
              s.masterByte 3 * 2 ^ 24] ++
            (List.range 4).flatMap fun n => [s.get (HP_MST_CTR_HI_FLOOR n), s.get (HP_MST_CTR_LO_FLOOR n)]))) 0)) s') ∧
    -- READ: the words at one instant; one at an unoccupied address reads 0 and the first of them is named
    (∀ (op : Nat) (h' : DcpHdr) (b : List Nat) (vals : List (Option Nat)),
      rowRequest (.read t h body) = some (t, op, h', b) → Passes (s.advance t) op h' b →
      vals = (List.range (b.getD 1 0)).map (fun i =>
        (((s.advance t).consume h').accept h' true).curShow.view (b.getD 0 0 + 4 * i)) →
      ∃ s', exec (.read t h body) s = .next s' ∧ Took s s' h' ∧
        Answered s s' op h' (match vals.findIdx? Option.isNone with
          | none => .okBody (vals.map (·.getD 0))
          | some i => ⟨stRange, dtAddress, i, vals.map (·.getD 0)⟩) ∧
        WordsKept s s' [HP_MST_CTR_LO h'.master, HP_MST_CTR_HI h'.master, HP_DCP_STAT, PG_CUR_PAGE, PG_CUR_LINE]) ∧
    -- EVENT_READ from FROM_SEQ on: all that remain where FROM_SEQ is no older than the oldest
    (∀ (op : Nat) (h' : DcpHdr) (b : List Nat) (e : EventRec) (l : List EventRec),
      rowRequest (.eventRead t h body) = some (t, op, h', b) → Passes (s.advance t) op h' b →
      s.events = e :: l → later 32 (s.get EV_NEXT_SEQ_SEQ) (b.getD 0 0) = true → later 32 e.seq (b.getD 0 0) = false →
      s.events.length ≤ b.getD 1 0 → s.events.length ≤ (s.msgLimit - 52) / 24 →
      (∃ x, s.events.getLast? = some x ∧ (x.seq + 1) % 2 ^ 32 = s.get EV_NEXT_SEQ_SEQ ∧ later 32 (b.getD 0 0) x.seq = false) →
      ∃ s', exec (.eventRead t h body) s = .next s' ∧ Took s s' h' ∧
        Answered s s' op h' (.okBody (s.get EV_NEXT_SEQ_SEQ ::
          (s.events.filter fun x => !later 32 (b.getD 0 0) x.seq).flatMap EventRec.words)) ∧
        WordsKept s s' [HP_MST_CTR_LO h'.master, HP_MST_CTR_HI h'.master, HP_DCP_STAT]) ∧
    -- else it is cut at MAX and at the message's limit, and from a FROM_SEQ no longer held it starts at the oldest with EVENTS_LOST
    (∀ (op : Nat) (h' : DcpHdr) (b : List Nat) (e x : EventRec) (l recs : List EventRec) (lost : Bool),
      rowRequest (.eventRead t h body) = some (t, op, h', b) → Passes (s.advance t) op h' b →
      s.events = e :: l → later 32 (s.get EV_NEXT_SEQ_SEQ) (b.getD 0 0) = true → lost = later 32 e.seq (b.getD 0 0) →
      recs = (if lost then s.events else s.events.filter fun x => !later 32 (b.getD 0 0) x.seq).take
        (min (b.getD 1 0) ((s.msgLimit - 52) / 24)) → recs.getLast? = some x →
      ∃ s', exec (.eventRead t h body) s = .next s' ∧ Took s s' h' ∧
        Answered s s' op h' ⟨stOk, if lost then dtEventsLost else 0, 0, (x.seq + 1) % 2 ^ 32 :: recs.flatMap EventRec.words⟩ ∧
        WordsKept s s' [HP_MST_CTR_LO h'.master, HP_MST_CTR_HI h'.master, HP_DCP_STAT]) ∧
    -- no record is returned before the first event, and from a FROM_SEQ later than the last one raised
    (∀ (op : Nat) (h' : DcpHdr) (b : List Nat),
      rowRequest (.eventRead t h body) = some (t, op, h', b) → Passes (s.advance t) op h' b →
      s.events = [] ∨ later 32 (s.get EV_NEXT_SEQ_SEQ) (b.getD 0 0) = false →
      ∃ s', exec (.eventRead t h body) s = .next s' ∧ Took s s' h' ∧
        Answered s s' op h' (.okBody [s.get EV_NEXT_SEQ_SEQ]) ∧
        WordsKept s s' [HP_MST_CTR_LO h'.master, HP_MST_CTR_HI h'.master, HP_DCP_STAT])

/-- SESSION_OPEN gives an id that is not 0 and has not been used, and is BUSY for a 17th (log 51, the model's choice
of status); WINDOW_OPEN of each kind on an object there is and a number not in use adds exactly its window, and is
BAD_STATE where the number is in use or the generation released; SESSION_CLOSE and WINDOW_CLOSE take their windows and
the transfers in them with them and answer OK. (R54, R55, R531) -/
def Obligations.SessionsAndWindows : Prop := ∀ (t op : Nat) (h h' : DcpHdr) (body b : List Nat) (s : State),
    s.core = .running → Passes (s.advance t) op h' b →
    -- SESSION_OPEN: an id that is not 0 and has not been used; the 17th session is refused (log 51, the model's choice)
    (rowRequest (.sessionOpen t h body) = some (t, op, h', b) → s.ingest.sessions.length < 16 →
      ∃ s' id, exec (.sessionOpen t h body) s = .next s' ∧ Took s s' h' ∧ Answered s s' op h' (.okBody [id]) ∧ id < 2 ^ 32 ∧
        (s.ingest.usedIds.length < 2 ^ 31 → id ≠ 0 ∧ id ∉ s.ingest.usedIds) ∧
        s'.ingest = { s.ingest with
          sessions := s.ingest.sessions ++ [⟨id, if bit (b.getD 0 0) 0 then 8192 else 1408⟩], usedIds := id :: s.ingest.usedIds }) ∧
    (rowRequest (.sessionOpen t h body) = some (t, op, h', b) → 16 ≤ s.ingest.sessions.length →
      ∃ s', exec (.sessionOpen t h body) s = .next s' ∧ Answered s s' op h' (.of stBusy 0) ∧ s'.ingest = s.ingest) ∧
    -- SESSION_CLOSE: its windows close, and their transfers are discarded with no answer of their own
    (rowRequest (.sessionClose t h body) = some (t, op, h', b) → (s.ingest.sessions.any (·.id == b.getD 0 0)) = true →
      ∃ s', exec (.sessionClose t h body) s = .next s' ∧ Took s s' h' ∧ Answered s s' op h' .ok ∧
        s'.ingest.sessions = s.ingest.sessions.filter (·.id != b.getD 0 0) ∧
        s'.ingest.windows = s.ingest.windows.filter (fun w => !(w.session == b.getD 0 0)) ∧
        s'.ingest.xfers = s.ingest.xfers.filter fun x =>
          !s.ingest.windows.any fun w => w.session == b.getD 0 0 && w.session == x.session && w.num == x.window) ∧
    -- WINDOW_OPEN of every kind, on an object there is and a number not in use
    (∀ w, rowRequest (.windowOpen t h body) = some (t, op, h', b) → w = windowOf b →
      (s.ingest.sessions.any (·.id == w.session)) = true → w.num < 64 → bits (b.getD 1 0) 1 0 ≠ 3 →
      (w.kind = .readBack → w.target < 5) → (w.onImg = true → (s.imgBase w).isSome = true) →
      (w.onSurf = true → (s.surf w.surf w.gen).map (·.released) = some false) →
      (s.ingest.windows.any (·.num == w.num)) = false →
      ∀ ro, ro = (w.kind == .stripWrite && ((s.surf w.surf w.gen).map (·.inUse)).getD false) →
      ∃ s', exec (.windowOpen t h body) s = .next s' ∧ Took s s' h' ∧ Answered s s' op h' (.okBody [b2n ro]) ∧
        s'.ingest = { s.ingest with windows := s.ingest.windows ++ [{ w with readonly := ro }] }) ∧
    -- a number in use, and a generation already released, are refused
    (∀ w, rowRequest (.windowOpen t h body) = some (t, op, h', b) → w = windowOf b →
      (s.ingest.sessions.any (·.id == w.session)) = true → w.num < 64 → bits (b.getD 1 0) 1 0 ≠ 3 →
      (w.kind = .readBack → w.target < 5) → (w.onImg = true → (s.imgBase w).isSome = true) →
      (w.onSurf = true → (s.surf w.surf w.gen).isSome = true) →
      (s.ingest.windows.any (·.num == w.num)) = true ∨
        (w.onSurf = true ∧ (s.surf w.surf w.gen).map (·.released) = some true) →
      ∃ s', exec (.windowOpen t h body) s = .next s' ∧ Answered s s' op h' (.of stBadState 0) ∧ s'.ingest = s.ingest) ∧
    -- WINDOW_CLOSE: its transfers are discarded
    (rowRequest (.windowClose t h body) = some (t, op, h', b) →
      (s.ingest.windows.any (·.num == bits (b.getD 0 0) 31 24)) = true →
      ∃ s', exec (.windowClose t h body) s = .next s' ∧ Took s s' h' ∧ Answered s s' op h' .ok ∧
        s'.ingest.sessions = s.ingest.sessions ∧
        s'.ingest.windows = s.ingest.windows.filter (fun w => !(w.num == bits (b.getD 0 0) 31 24)) ∧
        s'.ingest.xfers = s.ingest.xfers.filter fun x =>
          !s.ingest.windows.any fun w => w.num == bits (b.getD 0 0) 31 24 && w.session == x.session && w.num == x.window)

/-- WRITE of EV_IRQ_MASK alone gives it VALUE under MASK. Each unit-local register command is answered at once, has
its effect and changes no other register; PTP_SEND puts the buffer's message on the port; a map of a lane that is not
READY is BAD_STATE. (R190, R220, R221, R250, R425) -/
def Obligations.UnitLocalRegisterCommands : Prop := ∀ (t op : Nat) (h h' : DcpHdr) (b : List Nat) (s : State),
    s.core = .running → Passes (s.advance t) op h' b →
    (∀ n, n < 4 → n < s.web.probes.length → rowRequest (.probePop t h [] [] n) = some (t, op, h', b) → (s.probe n).fifo ≠ [] →
      ∃ s', exec (.probePop t h [] [] n) s = .next s' ∧ Took s s' h' ∧ Answered s s' op h' .ok ∧
        (s'.probe n).fifo = (s.probe n).fifo.drop 1 ∧ (∀ m, m ≠ n → s'.probe m = s.probe m) ∧
        s'.get (WP_PRB_STAT_ENTRIES n) = ((s.probe n).fifo.length - 1) % 32 ∧
        WordsKept s s' [HP_MST_CTR_LO h'.master, HP_MST_CTR_HI h'.master, HP_DCP_STAT, WP_PRB_STAT n]) ∧
    (rowRequest (.ptpRxqPop t h [] []) = some (t, op, h', b) →
      ∃ s', exec (.ptpRxqPop t h [] []) s = .next s' ∧ Took s s' h' ∧ Answered s s' op h' .ok ∧
        s'.ptp = { s.ptp with rxq := s.ptp.rxq.drop 1, ovfRun := false } ∧
        WordsKept s s' [HP_MST_CTR_LO h'.master, HP_MST_CTR_HI h'.master, HP_DCP_STAT, HP_PTP_RXQ_STAT]) ∧
    (∀ mask value, rowRequest (.ptpSend t h [] [] mask value) = some (t, op, h', b) → s.get HP_PTP_TX_CTRL_BUSY = 0 →
      ∀ w, w = mixBits (s.rd HP_PTP_TX_CTRL) (value % 2 ^ 32) (mask % 2 ^ 32 &&& 0xFFFFFFFE) →
      ∀ port tr len, port = bits w HP_PTP_TX_CTRL_PORT.hi HP_PTP_TX_CTRL_PORT.lo →
        tr = bits w HP_PTP_TX_CTRL_TRANSPORT.hi HP_PTP_TX_CTRL_TRANSPORT.lo →
        len = bits w HP_PTP_TX_CTRL_LEN.hi HP_PTP_TX_CTRL_LEN.lo → tr ≠ 3 → s.bitOf HP_PTP_CFG_TRANSPORT tr = true →
      34 ≤ len → len ≤ 64 →
      ∀ bytes, bytes = ((List.range 16).flatMap fun k => leBytes 4 (s.rd (HP_PTP_TXBUF k))).take len →
      ∃ s', exec (.ptpSend t h [] [] mask value) s = .next s' ∧ Took s s' h' ∧
        s'.out = s.out ++ [.ptp port tr (if beAt bytes 0 1 % 16 < 4 then 319 else 320) bytes,
          .dcp (answer op h' .ok) (s'.macOf h'.master (answer op h' .ok).msg)] ∧
        s'.ptp = { s.ptp with tx := some (port, decide (beAt bytes 0 1 % 16 < 4), beAt bytes 30 2) } ∧
        s'.get HP_PTP_TX_CTRL_BUSY = 1 ∧
        WordsKept s s' [HP_MST_CTR_LO h'.master, HP_MST_CTR_HI h'.master, HP_DCP_STAT, HP_PTP_TX_CTRL]) ∧
    (∀ mask value, rowRequest (.write t h [EV_IRQ_MASK, mask, value]) = some (t, op, h', b) →
      ∃ s', exec (.write t h [EV_IRQ_MASK, mask, value]) s = .next s' ∧ Took s s' h' ∧ Answered s s' op h' .ok ∧
        s'.rd EV_IRQ_MASK = mixBits (s.rd EV_IRQ_MASK) (value % 2 ^ 32) (mask % 2 ^ 32 &&& 0x1FE) ∧
        WordsKept s s' [HP_MST_CTR_LO h'.master, HP_MST_CTR_HI h'.master, HP_DCP_STAT, EV_IRQ_MASK]) ∧
    (∀ l, l < 100 → rowRequest (.laneScanMap t h [] [] l) = some (t, op, h', b) →
      (s.inL0 l = true →
        ∃ s', exec (.laneScanMap t h [] [] l) s = .next s' ∧ Took s s' h' ∧ Answered s s' op h' .ok ∧
          s'.get (LANE_SCAN_CTRL_MAP_BUSY l) = 1 ∧ s'.lanes = s.lanes ∧
          WordsKept s s' [HP_MST_CTR_LO h'.master, HP_MST_CTR_HI h'.master, HP_DCP_STAT, LANE_SCAN_CTRL l]) ∧
      (s.inL0 l = false →
        ∃ s', exec (.laneScanMap t h [] [] l) s = .next s' ∧ Took s s' h' ∧ Answered s s' op h' (.of stBadState 0) ∧
          s'.lanes = s.lanes ∧ WordsKept s s' [HP_MST_CTR_LO h'.master, HP_MST_CTR_HI h'.master, HP_DCP_STAT]))

/-- SLEEP in CONFIGURED, PAIRING or an idle SINGLE disables every lane and bar and waits for PWR_EN to fall; it is
BAD_STATE in ACTIVE and STANDBY. LEAVE takes a unit without authority to CONFIGURED. CLR_DEMOTE clears DEMOTED and
GARNET, and a demoted unit stays STALE. (R397, R406, R460) -/
def Obligations.UnitLocalRoleCommands : Prop := ∀ (t op : Nat) (h h' : DcpHdr) (b : List Nat) (s : State),
    s.core = .running → Passes (s.advance t) op h' b →
    (rowRequest (.sleep t h [] []) = some (t, op, h', b) → s.base ≠ .active → s.base ≠ .standby →
      (s.base = .single → s.get PG_JOB_STAT_RUNNING = 0) →
      ∃ s', exec (.sleep t h [] []) s = .next s' ∧ Took s s' h' ∧ Answered s s' op h' .ok ∧
        s'.pwr.sleepAt = some (s.advance t).now ∧ (∀ k, s'.barEn k = false) ∧
        (∀ l < 100, s'.tstate l = tsDisabled ∧ s'.pstate l = 3) ∧ s'.base = s.base ∧ s'.core = .running) ∧
    (rowRequest (.sleep t h [] []) = some (t, op, h', b) → s.base = .active ∨ s.base = .standby →
      ∃ s', exec (.sleep t h [] []) s = .next s' ∧ Answered s s' op h' (.of stBadState 0) ∧ s'.pwr = s.pwr ∧
        WordsKept s s' [HP_MST_CTR_LO h'.master, HP_MST_CTR_HI h'.master, HP_DCP_STAT]) ∧
    (rowRequest (.leave t h [] []) = some (t, op, h', b) → s.base ≠ .active → s.base ≠ .single →
      ∃ s', exec (.leave t h [] []) s = .next s' ∧ Took s s' h' ∧ s'.base = .configured ∧
        (∃ sent mac, s'.out = s.out ++ sent ++ [.dcp (answer op h' .ok) mac]) ∧
        s'.pair.yieldCause = 4 ∧ s'.pair.leftAt = some (s.advance t).now ∧ (∀ l < 96, s'.tstate l = tsDisabled)) ∧
    (rowRequest (.leave t h [] []) = some (t, op, h', b) → s.base = .active ∨ s.base = .single →
      ∃ s', exec (.leave t h [] []) s = .next s' ∧ Answered s s' op h' (.of stBadState 0) ∧ s'.base = s.base ∧
        s'.pair.yieldCause = s.pair.yieldCause) ∧
    (rowRequest (.clrDemote t h [] []) = some (t, op, h', b) →
      ∃ s' sent mac, exec (.clrDemote t h [] []) s = .next s' ∧ Took s s' h' ∧
        s'.out = s.out ++ sent ++ [.dcp (answer op h' .ok) mac] ∧ (s.get PR_STAT_DEMOTED = 0 ∨ s.base ≠ .standby → sent = []) ∧
        -- a standby's claim rises from rank 0, and goes out on every lane
        (s.get PR_STAT_DEMOTED = 1 → s.base = .standby → s'.pair.rank = 1 ∧ ∀ l < 96, s.flowing l = true →
          ∃ n safe, Sent.joend l (.hb s'.claim n safe) ∈ sent) ∧
        s'.get PR_STAT_DEMOTED = 0 ∧ s'.get FS_SAFE_STAT_GARNET = 0 ∧ s'.base = s.base ∧
        (s.get PR_STAT_DEMOTED = 1 → s'.get PR_STAT_STALE = 1) ∧
        (s.get PR_STAT_DEMOTED = 0 → WordsKept s s' [HP_MST_CTR_LO h'.master, HP_MST_CTR_HI h'.master, HP_DCP_STAT,
          PR_STAT, FS_SAFE_STAT, PR_GARNET_LAST]))

/-- KEY_PROGRAM of a BLANK slot and KEY_REVOKE wait for the OTP, and KEY_OP_DONE answers them, writes the slot and
raises 0x7105 or 0x7106; slot 0 needs no MAC while every slot is BLANK; a revocation after which no master could
administer the unit is BAD_STATE; a second key command while one runs is BUSY. (R418, R420, R421) -/
def Obligations.KeysChange : Prop := ∀ (t : Nat) (s : State), s.core = .running →
    -- a blank slot is being programmed: the answer waits for its end
    (∀ op h h' body b, rowRequest (.keyProgram t h body) = some (t, op, h', b) → Passes (s.advance t) op h' b →
      s.dcp.keyOp = none → s.keyState (bits (b.getD 0 0) 2 0) = 0 →
      ∃ s', exec (.keyProgram t h body) s = .next s' ∧ Took s s' h' ∧ s'.out = s.out ∧ s'.otp = s.otp ∧
        s'.dcp.keyOp = some ⟨true, bits (b.getD 0 0) 2 0, beNat ((b.drop 1).flatMap (beBytes 4)), answer op h' .ok⟩) ∧
    -- slot 0 while every slot is BLANK, with no MAC and no counter
    (∀ h body, s.is HP_MP_STAT_LINK = true → s.hostUp = true → s.takes h = true → body.length = 9 → (∀ w ∈ body, w < 2 ^ 32) →
      hdrFormed (hdrNorm h) body = true → s.get HP_KEY_STAT_STATE = 0 → bits (body.getD 0 0) 2 0 = 0 → s.dcp.keyOp = none →
      ∃ s', exec (.keyProgram t h body) s = .next s' ∧ s'.out = s.out ∧ s'.otp = s.otp ∧
        s'.dcp.keyOp = some ⟨true, 0, beNat ((body.drop 1).flatMap (beBytes 4)), answer 0x30 (hdrNorm h) .ok⟩ ∧
        WordsKept s s' [HP_DCP_STAT]) ∧
    -- a slot that is not BLANK is refused
    (∀ op h h' body b, rowRequest (.keyProgram t h body) = some (t, op, h', b) → Passes (s.advance t) op h' b →
      s.dcp.keyOp = none → s.keyState (bits (b.getD 0 0) 2 0) ≠ 0 →
      ∃ s', exec (.keyProgram t h body) s = .next s' ∧ Answered s s' op h' (.of stBadState 0) ∧ s'.otp = s.otp ∧
        s'.dcp.keyOp = none) ∧
    (∀ op h h' body b, rowRequest (.keyRevoke t h body) = some (t, op, h', b) → Passes (s.advance t) op h' b →
      s.dcp.keyOp = none →
      adminIn (fun n => s.rd (HP_MST_CFG n)) (fun i => if i = bits (b.getD 0 0) 2 0 then 2 else s.keyState i) = true →
      ∃ s', exec (.keyRevoke t h body) s = .next s' ∧ Took s s' h' ∧ s'.out = s.out ∧ s'.otp = s.otp ∧
        s'.dcp.keyOp = some ⟨false, bits (b.getD 0 0) 2 0, 0, answer op h' .ok⟩) ∧
    -- where no master could administer the unit after it, it is refused
    (∀ op h h' body b, rowRequest (.keyRevoke t h body) = some (t, op, h', b) → Passes (s.advance t) op h' b →
      s.dcp.keyOp = none →
      adminIn (fun n => s.rd (HP_MST_CFG n)) (fun i => if i = bits (b.getD 0 0) 2 0 then 2 else s.keyState i) = false →
      ∃ s', exec (.keyRevoke t h body) s = .next s' ∧ Answered s s' op h' (.of stBadState 0) ∧ s'.otp = s.otp ∧
        s'.dcp.keyOp = none) ∧
    -- a second key command while one runs is refused with BUSY
    (∀ op h h' body b k, rowRequest (.keyProgram t h body) = some (t, op, h', b) → Passes (s.advance t) op h' b →
      s.dcp.keyOp = some k →
      ∃ s', exec (.keyProgram t h body) s = .next s' ∧ Answered s s' op h' (.of stBusy 0) ∧ s'.otp = s.otp ∧
        s'.dcp.keyOp = some k) ∧
    (∀ op h h' body b k, rowRequest (.keyRevoke t h body) = some (t, op, h', b) → Passes (s.advance t) op h' b →
      s.dcp.keyOp = some k →
      ∃ s', exec (.keyRevoke t h body) s = .next s' ∧ Answered s s' op h' (.of stBusy 0) ∧ s'.otp = s.otp ∧
        s'.dcp.keyOp = some k) ∧
    (∀ k, s.dcp.keyOp = some k → k.slot < 8 → s.otp.keys.length = 8 → s.otp.keyState.length = 8 →
      s.is HP_MP_STAT_LINK = true →
      (∃ s', exec (.keyOpDone t true) s = .next s' ∧ s'.dcp.keyOp = none ∧
        s'.keyState k.slot = (if k.program then 1 else 2) ∧
        s'.otp.keyState = s.otp.keyState.set k.slot (if k.program then 1 else 2) ∧
        s'.otp.keys = (if k.program then s.otp.keys.set k.slot k.key else s.otp.keys) ∧
        Reports (s.advance t) s' (if k.program then 0x7105 else 0x7106) k.resp.master 0 0 ∧
        (∃ mac, s'.out = s.out ++ [.dcp k.resp mac]) ∧ WordsKept s s' [HP_KEY_STAT]) ∧
      ∃ s', exec (.keyOpDone t false) s = .next s' ∧ s'.dcp.keyOp = none ∧ s'.otp = s.otp ∧
        (∃ mac, s'.out = s.out ++ [.dcp { k.resp with status := stBadState } mac]) ∧ WordsKept s s' [])

/-- IMAGE_WRITE starts an erase, or a PROGRAM whose RAW_LEN, key slot and CHECK pass, on the slot that does not run;
it is refused where one of them does not, BAD_STATE on the running slot and BUSY during another operation; a strip of
the body that ENCODER_VERIFY finds equal is programmed behind the last, one that differs twice fails the stream;
IMAGE_WRITE_DONE ends the operation with its RESULT and event 0x1809, an erase clearing exactly the slot's 16 MiB, a
whole body with its header, a failure leaving the flash as it is. That the stream runs on encoder 0 is the model's
choice (log 24). (R99, R100, R103, R447, R448, R455) -/
def Obligations.ImageSlots : Prop := ∀ (t : Nat) (s : State), s.core = .running →
    (∀ op h h' body b, rowRequest (.imageWrite t h body) = some (t, op, h', b) → Passes (s.advance t) op h' b →
      s.get BT_BOOT_STAT_SLOT ≠ bits (b.getD 0 0) 8 8 → s.dcp.imgOp = none → bits (b.getD 0 0) 1 0 = 1 →
      ∃ s', exec (.imageWrite t h body) s = .next s' ∧ Took s s' h' ∧ Answered s s' op h' .ok ∧
        s'.dcp.imgOp = some (imgOpOf b) ∧ s'.get BT_IMG_WR_STAT_BUSY = 1 ∧
        s'.get BT_IMG_WR_STAT_SLOT = bits (b.getD 0 0) 8 8 ∧ s'.get BT_IMG_WR_STAT_PHASE = 1 ∧
        WordsKept s s' [HP_MST_CTR_LO h'.master, HP_MST_CTR_HI h'.master, HP_DCP_STAT, BT_IMG_WR_STAT]) ∧
    -- a PROGRAM whose length, slots and CHECK pass begins with its header sector erased
    (∀ op h h' body b o, rowRequest (.imageWrite t h body) = some (t, op, h', b) → Passes (s.advance t) op h' b →
      s.get BT_BOOT_STAT_SLOT ≠ bits (b.getD 0 0) 8 8 → s.dcp.imgOp = none → bits (b.getD 0 0) 1 0 = 0 → o = imgOpOf b →
      (b.getD 2 0 % 4096 = 0 ∧ 4096 ≤ b.getD 2 0 ∧ b.getD 2 0 ≤ 15728640 →
        (b.getD 1 0 + cdiv (b.getD 2 0) 0x100000 ≤ s.imgSlots →
          -- its CHECK verifies against the staged body, whose records an unkeyed image need not keep
          (∀ r, r = s.checkReason o.head o.keySlot o.unkeyed o.check (s.staged o) → r = 0 ∨ (r = 6 ∧ o.unkeyed = true) →
            ∃ s', exec (.imageWrite t h body) s = .next s' ∧ Took s s' h' ∧ Answered s s' op h' .ok ∧
              s'.dcp.imgOp = some o ∧ s'.get BT_IMG_WR_STAT_BUSY = 1 ∧ s'.get BT_IMG_WR_STAT_SLOT = bits (b.getD 0 0) 8 8 ∧
              s'.get BT_IMG_WR_STAT_PHASE = 1 ∧
              s'.flash = skeep (fun a => a < slotBase o.slot || decide (slotBase o.slot + 0x10000 ≤ a)) s.flash ∧
              WordsKept s s' [HP_MST_CTR_LO h'.master, HP_MST_CTR_HI h'.master, HP_DCP_STAT, BT_IMG_WR_STAT]) ∧
          (∀ r, r = s.checkReason o.head o.keySlot o.unkeyed o.check (s.staged o) → r ≠ 0 → r ≠ 6 ∨ o.unkeyed = false →
            ∃ s', exec (.imageWrite t h body) s = .next s' ∧ Answered s s' op h' (.value 6) ∧ s'.flash = s.flash ∧
              s'.dcp.imgOp = none)) ∧
        (s.imgSlots < b.getD 1 0 + cdiv (b.getD 2 0) 0x100000 →
          ∃ s', exec (.imageWrite t h body) s = .next s' ∧ Answered s s' op h' (.value 1) ∧ s'.flash = s.flash ∧
            s'.dcp.imgOp = none)) ∧
      (¬(b.getD 2 0 % 4096 = 0 ∧ 4096 ≤ b.getD 2 0 ∧ b.getD 2 0 ≤ 15728640) →
        ∃ s', exec (.imageWrite t h body) s = .next s' ∧ Answered s s' op h' (.value 2) ∧ s'.flash = s.flash ∧
          s'.dcp.imgOp = none)) ∧
    -- the running slot, and a second operation, are refused
    (∀ op h h' body b, rowRequest (.imageWrite t h body) = some (t, op, h', b) → Passes (s.advance t) op h' b →
      s.get BT_BOOT_STAT_SLOT = bits (b.getD 0 0) 8 8 →
      ∃ s', exec (.imageWrite t h body) s = .next s' ∧ Answered s s' op h' (.of stBadState 0) ∧ s'.flash = s.flash ∧
        s'.dcp.imgOp = s.dcp.imgOp) ∧
    (∀ op h h' body b o, rowRequest (.imageWrite t h body) = some (t, op, h', b) → Passes (s.advance t) op h' b →
      s.get BT_BOOT_STAT_SLOT ≠ bits (b.getD 0 0) 8 8 → s.dcp.imgOp = some o →
      ∃ s', exec (.imageWrite t h body) s = .next s' ∧ Answered s s' op h' (.of stBusy 0) ∧ s'.flash = s.flash ∧
        s'.dcp.imgOp = s.dcp.imgOp) ∧
    (∀ o, s.dcp.imgOp = some o → o.slot < 2 → s.c3Shed = false →
      -- an erase ends with the whole slot clear
      (o.erase = true → o.failed = false →
        ∃ s', exec (.imageWriteDone t .ok) s = .next s' ∧ s'.dcp.imgOp = none ∧
          s'.flash = skeep (fun a => a < slotBase o.slot || decide (slotBase o.slot + 0x1000000 ≤ a)) s.flash ∧
          s'.get BT_IMG_WR_STAT_BUSY = 0 ∧ s'.get BT_IMG_WR_STAT_RESULT = 1 ∧
          Reports (s.advance t) s' 0x1809 o.slot 1 0 ∧ WordsKept s s' [BT_IMG_WR_STAT, CS_ENC_STAT 0]) ∧
      -- a write whose body is whole ends with its header, and its result says whether the slot then reads back
      (o.erase = false → o.failed = false → o.strips ≤ o.next →
        ∃ s' n, exec (.imageWriteDone t .ok) s = .next s' ∧ s'.dcp.imgOp = none ∧ s'.flash = (s.imgHeader o).flash ∧
          n = (if (s'.imgHdr o.slot).reason = 0 ∧ (s'.slotRead o.slot (s'.imgHdr o.slot)).1 = 0 then 1 else 4) ∧
          s'.get BT_IMG_WR_STAT_BUSY = 0 ∧ s'.get BT_IMG_WR_STAT_RESULT = n ∧
          Reports (s.advance t) s' 0x1809 o.slot n 0 ∧ WordsKept s s' [BT_IMG_WR_STAT, CS_ENC_STAT 0]) ∧
      -- one that can end in a failure leaves the flash as it is
      (∀ r, r ≠ .ok → o.ends r = true →
        ∃ s' n, exec (.imageWriteDone t r) s = .next s' ∧ s'.dcp.imgOp = none ∧ s'.flash = s.flash ∧
          n = (if r = .encodeFailed then 2 else if r = .flashError then 3 else 4) ∧
          s'.get BT_IMG_WR_STAT_BUSY = 0 ∧ s'.get BT_IMG_WR_STAT_RESULT = n ∧
          Reports (s.advance t) s' 0x1809 o.slot n 0 ∧ WordsKept s s' [BT_IMG_WR_STAT, CS_ENC_STAT 0]) ∧
      -- a strip of the body whose self-verify finds it equal is programmed behind the last, on a 4-byte boundary
      (o.encodes = true → s.screen.streams = [] →
        ∃ s', exec (.encoderVerify t 0 .equal) s = .next s' ∧
          s'.flash = sputs flashReset
            (if o.next = 0 then skeep (fun a => a < slotBase o.slot || decide (slotBase o.slot + 0x1000000 ≤ a)) s.flash else s.flash)
            (slotBase o.slot + 128 + o.len) (List.replicate ((4 - o.len % 4) % 4) 0 ++
              encodeStrip (imgGeom o.rawLen o.next) (s.get (CS_ENC_CFG_MODE_EN 0))
                ((slice (s.staged o) (o.next * 131072) 131072).map BitVec.toNat)) ∧
          s'.dcp.imgOp.map (·.next) = some (o.next + 1) ∧
          s'.get (CS_ENC_STAT_STRIPS 0) = (s.get (CS_ENC_STAT_STRIPS 0) + 1) % 2 ^ 16 ∧ s'.out = s.out) ∧
      -- one that differs twice fails the stream
      (o.encodes = true → s.screen.streams = [] →
        ∃ s', exec (.encoderVerify t 0 .rawDiffers) s = .next s' ∧ Reports (s.advance t) s' 0x3202 0 2 0 ∧
          s'.dcp.imgOp.map (·.failed) = some true ∧ s'.get (CS_ENC_STAT_FAILED 0) = 1 ∧ s'.get (CS_ENC_STAT_BUSY 0) = 0))

/-- As they commit: SAFE_INHIBIT sets SAFE with cause INH_CMD and disables every bar; SAFE_CLEAR clears it when no
cause stands and is BAD_STATE otherwise; FS_WD_CLR clears the watchdogs of bars whose strobes are low or is BAD_STATE;
BAR_GATE gates idle bars and is BUSY for others. (R300, R302, R304, R465) -/
def Obligations.FireAndGateCommits : Prop := ∀ s : State,
    (s.get FS_SAFE_STAT_SAFE = 0 →
      ∃ s', s.commitGo 0x02 [FS_SAFE_CTRL, 1, 1] = (.ok, s') ∧ s'.get FS_SAFE_CTRL_INHIBIT = 1 ∧
        s'.get FS_SAFE_STAT_SAFE = 1 ∧ s'.get FS_SAFE_STAT_INH_CMD = 1 ∧ (∀ b, s'.barEn b = false) ∧
        Reports s s' 0x4203 0 (s'.get ⟨FS_SAFE_STAT, 4, 0⟩) 0 ∧
        WordsKept s s' (FS_SAFE_CTRL :: FS_SAFE_STAT :: (List.range 96).map JL_STAT)) ∧
    -- a line whose record has left is withdrawn by a VOID while 50 µs remain
    (∀ ch x f, s.get FS_SAFE_STAT_SAFE = 0 → ch < 96 → s.chanLines ch = [x] → (∀ k < 96, k ≠ ch → s.chanLines k = []) →
      x.stamp = some f → x.voided = false → x.unsent = false → s.flowing ch = true → s.sendsLines = true →
      s.now + 50000 ≤ f →
      ∃ s', s.commitGo 0x02 [FS_SAFE_CTRL, 1, 1] = (.ok, s') ∧
        s'.out = s.out ++ [.joend ch (x.record s.claim (max x.pred (s.now + 50000)) true)] ∧
        s'.get (JL_STAT_VOIDCNT ch) = (s.get (JL_STAT_VOIDCNT ch) + 1) % 2 ^ 16) ∧
    (s.fire.inhPin = true → s.get FS_SAFE_CTRL_INHIBIT = 0 → s.get WP_SRC_STAT_LOST = 0 → s.get TB_REF_STAT_LOST = 0 →
      s.get FS_SAFE_STAT_GARNET = 0 → s.pair.clash = false → s.get FS_SAFE_STAT_SAFE = 1 →
      ∃ s', s.commitGo 0x02 [FS_SAFE_CTRL, 2, 2] = (.ok, s') ∧ s'.get FS_SAFE_STAT_SAFE = 0 ∧
        s'.get ⟨FS_SAFE_STAT, 4, 0⟩ = 0 ∧ s'.get PW_SHUT_STAT_LATCHED = 0 ∧ Reports s s' 0x4204 0 0 0 ∧
        (∀ ch, ∀ x ∈ s'.chanLines ch, x.stamp = none → x.void = true) ∧
        WordsKept s s' [FS_SAFE_STAT, PW_SHUT_STAT]) ∧
    (s.fire.inhPin = false ∨ s.get FS_SAFE_CTRL_INHIBIT = 1 ∨ s.get WP_SRC_STAT_LOST = 1 ∨ s.get TB_REF_STAT_LOST = 1 ∨
        s.get FS_SAFE_STAT_GARNET = 1 →
      s.commitGo 0x02 [FS_SAFE_CTRL, 2, 2] = (.of stBadState 0, s)) ∧
    (∀ bars < 256, (∀ b < 8, bit bars b = true → bit s.fire.stbSense b = false ∧
        ∀ ch ∈ barLanes b, s.get (JL_HDM_FLAGS_STB_NOW ch) = 0) →
      ∃ s', s.commitGo 0x02 [FS_WD_CLR, 0xFF, bars] = (.ok, s') ∧
        (∀ b < 8, bit bars b = true → s'.get (FS_BAR_WD_TRIPPED b) = 0 ∧ s'.get (FS_BAR_WD_SRC_PIN b) = 0 ∧
          s'.get (FS_BAR_WD_SRC_LANE b) = 0 ∧ s'.get (FS_BAR_WD_TRIPS b) = s.get (FS_BAR_WD_TRIPS b)) ∧
        (∀ b < 8, bit bars b = false → s'.rd (FS_BAR_WD b) = s.rd (FS_BAR_WD b)) ∧
        WordsKept s s' ((List.range 8).map FS_BAR_WD)) ∧
    (∀ bars < 256, (∃ b < 8, bit bars b = true ∧ bit s.fire.stbSense b = true) →
      s.commitGo 0x02 [FS_WD_CLR, 0xFF, bars] = (.of stBadState 0, s)) ∧
    (∀ bars < 256, (∀ b < 8, bit bars b = true → s.bitOf PW_GATE_BARS b = false → s.barIdle b = true) →
      ∃ s', s.commitGo 0x02 [PW_GATE, 0xFF, bars] = (.ok, s') ∧ s'.get PW_GATE_BARS = bars ∧
        (∀ b < 8, bit bars b = true → s'.barEn b = false) ∧ WordsKept s s' [PW_GATE]) ∧
    (∀ bars < 256, (∃ b < 8, bit bars b = true ∧ s.bitOf PW_GATE_BARS b = false ∧ s.barIdle b = false) →
      s.commitGo 0x02 [PW_GATE, 0xFF, bars] = (.of stBusy 0, s))

/-- Enabling a lane begins its first attempt, disabling it ends it; a strobe setting within limits stands; an
adjustment waits for the tick's end, where it is a step of device time with 0x2206, or, in a running job, is slewed
with no step; one beyond 1 ms in a running job is BUSY for each command that writes a word of it. (R207, R235, R237,
R294) -/
def Obligations.LaneAndTimeCommits : Prop := ∀ s : State,
    (∀ l < 96, s.get (LANE_CFG_EN l) = 0 → s.itemLimit ⟨LANE_CFG l, 1, 1⟩ = none → s.mayTrain l = true →
      ∃ s', s.commitGo 0x02 [LANE_CFG l, 1, 1] = (.ok, s') ∧ s'.tstate l = tsDetect ∧ s'.get (LANE_STAT_FAST l) = 0 ∧
        s'.out = s.out ++ [.lane l .ts1 false none]) ∧
    (∀ l < 96, s.get (LANE_CFG_EN l) = 1 → s.itemLimit ⟨LANE_CFG l, 1, 0⟩ = none →
      ∃ s', s.commitGo 0x02 [LANE_CFG l, 1, 0] = (.ok, s') ∧ s'.tstate l = tsDisabled ∧ s'.pstate l = 3 ∧ s'.out = s.out) ∧
    (∀ b w l, b < 8 → 50 ≤ w → w ≤ 1500 → 100 ≤ l → l ≤ 2000 → w + 100 ≤ l → (∀ ch ∈ barLanes b, s.ready ch = false) →
      ∃ s', s.commitGo 0x02 [FS_BAR_STB b, 0xFFFFFFFF, w + l * 2 ^ 16] = (.ok, s') ∧ s'.get (FS_BAR_STB_WIDTH b) = w ∧
        s'.get (FS_BAR_STB_LIMIT b) = l ∧ s'.out = s.out ∧ WordsKept s s' [FS_BAR_STB b]) ∧
    (∀ v < 2 ^ 64, s.tb.adj = none → s.dcp.adjBusy = false →
      ∃ s', s.commitGo 0x02 [TB_OFS_ADJ_LO, 0xFFFFFFFF, v % 2 ^ 32, TB_OFS_ADJ_HI, 0xFFFFFFFF, v / 2 ^ 32] = (.ok, s') ∧
        s'.tb = { s.tb with adj := some v } ∧ WordsKept s s' []) ∧
    -- the tick's words form one adjustment; where it may not stand, each command that writes one draws BUSY
    (∀ a, s.tb.adj = some a → (s.adjOk = true ↔
      s.get PG_JOB_STAT_RUNNING = 0 ∨ (s.adjNs * nsU + s.remNow).natAbs ≤ 1000000 * nsU)) ∧
    (∀ v < 2 ^ 64, s.dcp.adjBusy = true →
      s.commitGo 0x02 [TB_OFS_ADJ_LO, 0xFFFFFFFF, v % 2 ^ 32, TB_OFS_ADJ_HI, 0xFFFFFFFF, v / 2 ^ 32] =
        (⟨stBusy, 0, 1, []⟩, s)) ∧
    -- at the end of the tick: the adjustment as a step, or slewed in a running job
    (∀ a, s.tb.adj = some a → s.tb.newIncr = none → s.get PG_JOB_STAT_RUNNING = 0 → s.tb.remain = 0 →
      (s.timeCommit.now : Int) = ((s.now : Int) + s.adjNs) % 2 ^ 64 ∧ s.timeCommit.tb.remain = 0 ∧
        Reports { s with tb := s.timeCommit.tb } s.timeCommit 0x2206 0 0 0) ∧
    (∀ a, s.tb.adj = some a → s.tb.newIncr = none → s.get PG_JOB_STAT_RUNNING = 1 →
      (s.adjNs * nsU + s.remNow).natAbs ≤ 1000000 * nsU →
      s.timeCommit.now = s.now ∧ s.timeCommit.tb.remain = s.remNow + s.adjNs * nsU ∧ s.timeCommit.words = s.words)

/-- SURFACE_DEFINE takes the first free entry; a live generation defined again is OK if equal and BAD_STATE if not;
SURFACE_RELEASE marks it released; PAGE_DEFINE and PAGE_CLOSE are refused or repeated as R423 and R528 say; MASTER_SET
is refused where no master could administer the unit. (R50, R135, R421, R423, R528) -/
def Obligations.ObjectCommits : Prop := ∀ s : State,
    -- SURFACE_DEFINE: a new generation takes the first free entry; a re-issue of a live one changes nothing
    (∀ body e, s.surf (body.getD 0 0 / 65536) (body.getD 0 0 % 65536) = none →
      freeIndex (s.ingest.surfs.map (·.entry)) 4096 = some e → (∀ w ∈ body, w < 2 ^ 32) →
      ∃ s', s.commitGo 0x10 body = (.ok, s') ∧
        s'.ingest.surfs = s.ingest.surfs ++
          [⟨e, body.getD 0 0 / 65536, body.getD 0 0 % 65536, surfBody body, [], false, false, []⟩] ∧
        (∀ k < 6, s'.rd (surfWin e + 4 * k) = (surfBody body).getD k 0) ∧ s'.rd (surfWin e + 24) = 1) ∧
    (∀ body f, s.surf (body.getD 0 0 / 65536) (body.getD 0 0 % 65536) = some f → f.released = false →
      s.commitGo 0x10 body = ((if f.body = surfBody body then .ok else .of stBadState 0), s)) ∧
    -- SURFACE_RELEASE of an unknown or already released generation
    (∀ body, s.surf (body.getD 0 0 / 65536) (body.getD 0 0 % 65536) = none →
      s.commitGo 0x11 body = (.value 0, s)) ∧
    (∀ body f, s.surf (body.getD 0 0 / 65536) (body.getD 0 0 % 65536) = some f → f.released = true →
      s.commitGo 0x11 body = (.ok, s)) ∧
    (∀ body (f : Surface) (tail : List Nat), s.ingest.surfs = [f] → f.body = packGen f.id f.gen :: tail → tail.length = 5 →
      f.id < 2 ^ 16 → f.gen < 2 ^ 16 → f.released = false → s.ingest.windows = [] → body.getD 0 0 = packGen f.id f.gen →
      ∃ s', s.commitGo 0x11 body = (.ok, s') ∧ s'.ingest.surfs = [{ f with released := true }] ∧
        s'.rd (surfWin f.entry + 24) = 3) ∧
    -- PAGE_DEFINE: a page beyond the job's count, and one of a closed job; the same entry again after its close
    (∀ body j, s.jobOf (body.getD 0 0) = some j → j.pageCount ≠ 0 → j.pageCount ≤ body.getD 1 0 % 2 ^ 24 →
      s.commitGo 0x12 body = (.value 1, s)) ∧
    (∀ body j p, s.jobOf (body.getD 0 0) = some j → j.pageCount = 0 → j.page (body.getD 1 0 % 2 ^ 24) = some p →
      p.closed = true → p.refs = (List.range 8).map (fun n => body.getD (2 + n) 0) →
      s.commitGo 0x12 body = (.ok, s)) ∧
    -- PAGE_CLOSE of a page not defined
    (∀ body j, s.jobOf (body.getD 0 0) = some j → j.pageCount = 0 → j.page (body.getD 1 0 % 2 ^ 24) = none →
      s.commitGo 0x13 body = (.of stBadState 0, s)) ∧
    -- MASTER_SET: refused where no master could administer the unit after it
    (∀ body, s.masterCheck body = none →
      adminIn (fun k => if k = bits (body.getD 0 0) 1 0 then masterWord (body.getD 0 0) else s.rd (HP_MST_CFG k))
        s.keyNext = false → s.commitGo 0x32 body = (.of stBadState 0, s)) ∧
    (∀ body, s.masterCheck body = none →
      adminIn (fun k => if k = bits (body.getD 0 0) 1 0 then masterWord (body.getD 0 0) else s.rd (HP_MST_CFG k))
        s.keyNext = true →
      ∃ s', s.commitGo 0x32 body = (.ok, s') ∧ s'.rd (HP_MST_CFG (bits (body.getD 0 0) 1 0)) = masterWord (body.getD 0 0) ∧
        Reports s s' 0x7107 (bits (body.getD 0 0) 1 0) 0 0 ∧ WordsKept s s' [HP_MST_CFG (bits (body.getD 0 0) 1 0)])

/-- JOB_DEFINE takes the first free entry and returns its slot, BUSY at the 65th; JOB_START, JOB_CLOSE and JOB_CANCEL
have their effect or their refusal; PAGE_DEFINE appends a page and PAGE_CLOSE leaves it awaiting, admitted or refused
with its count. (R48, R49, R69, R108, R110, R121, R147, R527, R528) -/
def Obligations.JobCommits : Prop :=
    (∀ s : State,
    (∀ body slot, s.jobOf (body.getD 0 0) = none → freeIndex (s.scan.jobs.map (·.slot)) 64 = some slot →
      body.getD 0 0 < 2 ^ 32 →
      ∃ s', s.commitGo 0x14 body = (.okBody [slot], s') ∧
        s'.scan = { s.scan with jobs := s.scan.jobs ++ [⟨slot, body.getD 0 0, (jobWords body).1, (jobWords body).2.1,
          (jobWords body).2.2, false, false, false, [], 0⟩] } ∧
        s'.rd (jobWin slot) = body.getD 0 0 ∧ s'.rd (jobWin slot + 16) = 1) ∧
    (∀ body, s.jobOf (body.getD 0 0) = none → freeIndex (s.scan.jobs.map (·.slot)) 64 = none →
      s.commitGo 0x14 body = (.of stBusy 0, s)) ∧
    (∀ body j, s.jobOf (body.getD 0 0) = some j → j.cancelled = true → s.commitGo 0x15 body = (.of stBadState 0, s)) ∧
    (∀ body j, s.jobOf (body.getD 0 0) = some j → j.cancelled = false → j.started = true → s.commitGo 0x15 body = (.ok, s)) ∧
    (∀ body j, s.jobOf (body.getD 0 0) = some j → j.cancelled = false → j.started = false →
      s.get MC_STAT_PRINT_RATE = 0 ∨ s.get PG_PAGE_LINES_PAGE_LINES = 0 ∨ (∃ b ∈ barsOf j.bars, s.bitOf PW_GATE_BARS b = true) →
      s.commitGo 0x15 body = (.of stBadState 0, s)) ∧
    (∀ body j b cause seg, s.jobOf (body.getD 0 0) = some j → j.cancelled = false → j.started = false →
      s.is MC_STAT_PRINT_RATE = true → s.is PG_PAGE_LINES_PAGE_LINES = true → s.fedElsewhere = false →
      (∀ b ∈ barsOf j.bars, s.bitOf PW_GATE_BARS b = false) → barsOf j.bars = [b] → s.geomCheck b = some (cause, seg) →
      ∃ s', s.commitGo 0x15 body = (.value 0, s') ∧ s'.scan = s.scan ∧ Reports s s' 0x3406 b 0 0) ∧
    (∀ body j, s.jobOf (body.getD 0 0) = some j → j.cancelled = true ∨ j.pageCount ≠ 0 →
      s.commitGo 0x16 body = (.of stBadState 0, s)) ∧
    (∀ body, s.jobOf (body.getD 0 0) = none → s.commitGo 0x16 body = (.value 0, s) ∧ s.commitGo 0x17 body = (.value 0, s)) ∧
    (∀ body j, s.jobOf (body.getD 0 0) = some j → j.cancelled = true → s.commitGo 0x17 body = (.ok, s))) ∧
    (∀ (s : State) (j : Job) (body : List Nat), s.scan.jobs = [j] → j.slot < 64 →
    j.id < 2 ^ 32 → j.w1 < 2 ^ 32 → j.w2 < 2 ^ 32 → j.w3 < 2 ^ 32 → j.cancelled = false → body.getD 0 0 = j.id →
    (j.started = false → s.is MC_STAT_PRINT_RATE = true → s.is PG_PAGE_LINES_PAGE_LINES = true → s.fedElsewhere = false →
      (∀ b ∈ barsOf j.bars, s.bitOf PW_GATE_BARS b = false ∧ s.geomCheck b = none) →
      ∃ s', s.commitGo 0x15 body = (.ok, s') ∧ s'.scan.jobs = [{ j with started := true, order := s.scan.starts }] ∧
        s'.scan.starts = s.scan.starts + 1 ∧ bit (s'.rd (jobWin j.slot + 16)) 1 = true) ∧
    (j.started = false → j.pageCount = 0 → j.closed = false → s.scan.nextPage = none →
      ∃ s', s.commitGo 0x16 body = (.ok, s') ∧ s'.scan.jobs = [{ j with closed := true }] ∧
        bit (s'.rd (jobWin j.slot + 16)) 2 = true) ∧
    (s.scan.runs = [] →
      ∃ s', s.commitGo 0x17 body = (.ok, s') ∧ s'.scan.jobs = [] ∧ s'.rd (jobWin j.slot + 16) = 0 ∧
        ∀ n, s'.scan.nextPage = some n → n.job ≠ j.slot) ∧
    (∀ num refs, num = body.getD 1 0 % 2 ^ 24 → refs = (List.range 8).map (fun n => body.getD (2 + n) 0) →
      (∀ r ∈ refs, r < 2 ^ 32) → j.pageCount = 0 → j.closed = false → j.page num = none →
      (∀ n < 8, s.refCheck (layerOf (s.gapFor j num) n) j (refs.getD n noRef) = none) →
      ∃ s', s.commitGo 0x12 body = (.ok, s') ∧
        s'.scan.jobs = [{ j with pages := j.pages ++ [⟨num, refs, .open, false, false, false⟩] }]) ∧
    (∀ num p, num = body.getD 1 0 % 2 ^ 24 → j.pageCount = 0 → j.page num = some p → p.adm = .open → p.closed = false →
      p.checked = false → p.refs.length = 8 → (∀ r ∈ p.refs, r < 2 ^ 32) →
      ∃ a s' k q, s.commitGo 0x13 body = (a, s') ∧ s'.scan.jobs = [k] ∧ k.page num = some q ∧ q.refs = p.refs ∧ q.closed = true ∧
        ((a = .ok ∧ q.adm = .awaiting ∧ WordsKept s s' ((List.range 11).map fun i => portWin j.slot + 4 * i)) ∨
          (a = .ok ∧ q.adm = .admitted ∧ s'.get PG_ADM_CNT_ADMITTED = (s.get PG_ADM_CNT_ADMITTED + 1) % 2 ^ 16) ∨
          (a = .of stBandwidth 0 ∧ q.adm = .refused ∧ s'.get PG_ADM_CNT_REFUSED = (s.get PG_ADM_CNT_REFUSED + 1) % 2 ^ 16))) ∧
    -- a page its readiness check has admitted or refused closes with that result; a page not closed takes a new definition
    (∀ num p, num = body.getD 1 0 % 2 ^ 24 → j.pageCount = 0 → j.page num = some p → p.adm = .admitted ∨ p.adm = .refused →
      p.closed = false → p.refs.length = 8 → (∀ r ∈ p.refs, r < 2 ^ 32) →
      ∃ s', s.commitGo 0x13 body = (if p.adm = .refused then .of stBandwidth 0 else .ok, s') ∧
        s'.scan.jobs = [j.modPage num fun p => { p with closed := true }] ∧
        WordsKept s s' ((List.range 11).map fun i => portWin j.slot + 4 * i)) ∧
    (∀ num refs p, num = body.getD 1 0 % 2 ^ 24 → refs = (List.range 8).map (fun n => body.getD (2 + n) 0) →
      (∀ r ∈ refs, r < 2 ^ 32) → j.pageCount = 0 → j.page num = some p → p.closed = false → p.checked = false →
      (∀ n < 8, s.refCheck (layerOf (s.gapFor j num) n) j (refs.getD n noRef) = none) →
      ∃ s', s.commitGo 0x12 body = (.ok, s') ∧
        s'.scan.jobs = [j.modPage num fun p => { p with refs := refs, adm := .open }]))

/-- A GAP commit is BUSY while one waits, REJECTED with cause and layer latched and 0x3307's bit set where a check
fails, waits for its apply-at page where one is named, and else is live at once; a TICK commit makes every TICK-domain
register live; one whose camera set fails R313's checks is REJECTED as a whole, with port and cause latched,
REJECTED_COMMIT set and 0x5105 raised. (R116, R117, R118, R119, R120, R313, R523) -/
def Obligations.DomainCommits : Prop := ∀ s : State,
    (s.scan.pendingGap ≠ none →
      ∃ s', s.commitGo 0x02 [GL_CMT_CTRL, 1, 1] = (.of stBusy 0, s') ∧ s'.get GL_CMT_STAT_GAP_LAST = stBusy ∧
        s'.scan = s.scan ∧ WordsKept s s' [GL_CMT_STAT]) ∧
    -- a failing check latches its cause and layer, raises 0x3307 and changes no set
    (∀ cause layer, s.scan.pendingGap = none → s.get PG_CMT_STAT_GAP_PENDING = 0 → s.scan.gapTick ≠ some s.tick →
      s.gapReject s.shadowGap s.applyAt = some (cause, layer) →
      ∃ s', s.commitGo 0x02 [GL_CMT_CTRL, 1, 1] = (.of stRejected 0, s') ∧ s'.get GL_CMT_STAT_GAP_LAST = stRejected ∧
        s'.get PG_CMT_STAT_REJ_CAUSE = cause % 16 ∧ s'.get PG_CMT_STAT_REJ_LAYER = layer % 8 ∧ s'.get PG_EVT_STAT_COMMIT_REJ = 1 ∧
        s'.get PG_CMT_TARGET_EN = 0 ∧ s'.scan = s.scan ∧
        WordsKept s s' [GL_CMT_STAT, PG_CMT_STAT, PG_EVT_STAT, PG_CMT_TARGET]) ∧
    -- with an apply-at page the set waits for it
    (∀ slot page, s.scan.pendingGap = none → s.get PG_CMT_STAT_GAP_PENDING = 0 → s.scan.gapTick ≠ some s.tick →
      s.applyAt = some (slot, page) → s.gapReject s.shadowGap s.applyAt = none →
      ∃ s', s.commitGo 0x02 [GL_CMT_CTRL, 1, 1] = (.ok, s') ∧ s'.get GL_CMT_STAT_GAP_LAST = stOk ∧
        s'.scan = { s.scan with pendingGap := some ⟨s.shadowGap, slot, s.idAt slot, page⟩, gapTick := some s.tick } ∧
        s'.get PG_CMT_STAT_GAP_PENDING = 1 ∧ s'.get GL_CMT_STAT_GAP_PENDING = 1 ∧ s'.get PG_CMT_TARGET_EN = 0 ∧
        WordsKept s s' [GL_CMT_STAT, PG_CMT_STAT, PG_CMT_APPLY, PG_CMT_TARGET]) ∧
    -- with none it is live at once
    (s.scan.pendingGap = none → s.get PG_CMT_STAT_GAP_PENDING = 0 → s.scan.gapTick ≠ some s.tick →
      s.applyAt = none → s.gapReject s.shadowGap s.applyAt = none →
      ∃ s', s.commitGo 0x02 [GL_CMT_CTRL, 1, 1] = (.ok, s') ∧ (∀ a ∈ gapAddrs, s'.rd a = s.rdSh a) ∧ s'.shadow = s.shadow) ∧
    -- TICK: every TICK-domain register takes its shadow's value
    (s.camReject = none →
      ∃ s', s.commitGo 0x02 [GL_CMT_CTRL, 2, 2] = (.ok, s') ∧ s'.get GL_CMT_STAT_TICK_LAST = stOk ∧
        (∀ a ∈ tickAddrs, s'.rd a = s.rdSh a) ∧ s'.shadow = s.shadow ∧ s'.scan = s.scan) ∧
    -- a camera set that fails its checks is refused as a whole (R313): its port and cause are latched, 0x5105 is raised
    (∀ port cause, s.camReject = some (port, cause) →
      ∃ s', s.commitGo 0x02 [GL_CMT_CTRL, 2, 2] = (.of stRejected 0, s') ∧ s'.get GL_CMT_STAT_TICK_LAST = stRejected ∧
        s'.get CM_CFG_STAT_PORT = port ∧ s'.get CM_CFG_STAT_CAUSE = cause ∧ s'.shadow = s.shadow ∧
        Reports s s' 0x5105 port 0 0 ∧ WordsKept s s' [GL_CMT_STAT, CM_CFG_STAT])

/-- A WRITE whose items do not all complete leaves the state exactly as it was. Writes of GL_CMT_CTRL and of a bar's
APPLY_CTRL, whose refusals latch status by R116 and R161, are stated apart. (R428) -/
def Obligations.WritesAllOrNothing : Prop := ∀ (s : State) (crit : Bool) (items : List WriteItem),
    (∀ x ∈ items, x.addr ≠ GL_CMT_CTRL ∧ ∀ b, scBar x.addr ≠ some (b, 0x14)) →
    (s.writeGo crit items).1.status ≠ stOk → (s.writeGo crit items).2 = s

/-- CSI_FRAME_START opens a frame with the registers and trigger edge of its stamp, counts one that cannot be placed
and is ignored by a disabled context; CSI_FRAME_END counts it and the short one; CAM_SILENT reports a context that 2 ×
LINES × DIV edges passed by. (R317, R319, R321, R322) -/
def Obligations.CameraFrames : Prop := ∀ (t port vc n : Nat) (s : State), s.core = .running → s.portOn port = true →
    vc < 4 → n = 4 * port + vc → n < s.cam.ctxs.length →
    -- a Frame Start opens a frame with the registers and the trigger edge of its stamp
    (∀ ago (e : EncoEdge), (s.camCtx n).frame = none → s.get (CM_CTX_CFG_EN n) = 1 →
      (s.advance t).triggerAt ((camCtxAddrs n).map s.rd) ((((s.advance t).now - ago : Nat) : Int) - s.rd (CM_CTX_LAT n)) = some e →
      ∃ s', exec (.csiFrameStart t port ⟨vc, 0⟩ ago) s = .next s' ∧
        s'.camCtx n = { s.camCtx n with
          adopted := (camCtxAddrs n).map s.rd, edges := 0, silent := false, errSeen := false
          frame := some ⟨(s.camCtx n).count, (s.advance t).now - ago, some e, (camCtxAddrs n).map s.rd, 0,
            false, false, false⟩ } ∧
        (∀ m, m ≠ n → s'.camCtx m = s.camCtx m) ∧ s'.get (CM_CTX_STAT_RECEIVING n) = 1 ∧ s'.get BY_STAT_NOCAM = 0 ∧
        WordsKept s s' [CM_CTX_STAT n, BY_STAT]) ∧
    -- a frame with no trigger edge cannot be placed
    (∀ ago, (s.camCtx n).frame = none → s.get (CM_CTX_CFG_EN n) = 1 →
      (s.advance t).triggerAt ((camCtxAddrs n).map s.rd) ((((s.advance t).now - ago : Nat) : Int) - s.rd (CM_CTX_LAT n)) = none →
      ∃ s', exec (.csiFrameStart t port ⟨vc, 0⟩ ago) s = .next s' ∧ Reports (s.advance t) s' 0x5104 n 0 0 ∧
        s'.get (CM_CTX_DROP3_LOW n) = (s.get (CM_CTX_DROP3_LOW n) + 1) % 2 ^ 16 ∧ s'.get (CM_CTX_STAT_RECEIVING n) = 1) ∧
    -- a disabled context opens none
    (∀ ago, (s.camCtx n).frame = none → s.get (CM_CTX_CFG_EN n) = 0 →
      ∃ s', exec (.csiFrameStart t port ⟨vc, 0⟩ ago) s = .next s' ∧ (s'.camCtx n).frame = none ∧
        s'.get (CM_CTX_STAT_RECEIVING n) = 0 ∧ WordsKept s s' [CM_CTX_STAT n]) ∧
    -- one still open is closed as short, however many lines it has
    (∀ ago f, (s.camCtx n).frame = some f → f.tooLong = false → f.flagged = false →
      ∃ s', exec (.csiFrameStart t port ⟨vc, 0⟩ ago) s = .next s' ∧ Reports (s.advance t) s' 0x5103 n 0 0 ∧
        (s'.camCtx n).count = (s.camCtx n).count + 1 ∧
        s'.get (CM_CTX_STAT_FRAMES n) = (s.get (CM_CTX_STAT_FRAMES n) + 1) % 2 ^ 16 ∧
        s'.get (CM_CTX_DROP1_LOW n) = (s.get (CM_CTX_DROP1_LOW n) + 1) % 2 ^ 16) ∧
    -- a header with one wrong bit is corrected and counted; one with more loses its packet; 0x5101 comes once a frame
    ((s.camCtx n).errSeen = false →
      (∃ s', exec (.csiFrameEnd t port ⟨vc, 1⟩) s = .next s' ∧ (s'.camCtx n).frame = none ∧ Raises s s' 0x5101 port ∧
        (s'.camCtx n).errSeen = true ∧
        s'.get (CM_PORT_ERR2_HIGH port) = (s.get (CM_PORT_ERR2_HIGH port) + 1) % 2 ^ 16) ∧
      (∀ ago, ∃ s', exec (.csiFrameStart t port ⟨vc, 1⟩ ago) s = .next s' ∧ Raises s s' 0x5101 port ∧
        (s'.camCtx n).errSeen = true ∧
        s'.get (CM_PORT_ERR2_HIGH port) = (s.get (CM_PORT_ERR2_HIGH port) + 1) % 2 ^ 16) ∧
      ∀ c ago, c = Instr.csiFrameEnd t port ⟨vc, 2⟩ ∨ c = .csiFrameStart t port ⟨vc, 2⟩ ago →
        ∃ s', exec c s = .next s' ∧ s'.camCtx n = { s.camCtx n with errSeen := true } ∧
          Reports (s.advance t) s' 0x5101 port 0 0 ∧
          s'.get (CM_PORT_ERR_LOW port) = (s.get (CM_PORT_ERR_LOW port) + 1) % 2 ^ 16 ∧ WordsKept s s' [CM_PORT_ERR port]) ∧
    ((s.camCtx n).errSeen = true → ∀ ago, ∃ s', exec (.csiFrameStart t port ⟨vc, 2⟩ ago) s = .next s' ∧
      Rest ((s.advance t).put (CM_PORT_ERR_LOW port) (s.get (CM_PORT_ERR_LOW port) + 1)) s') ∧
    -- a Frame End counts the frame; one with too few lines is short
    (∀ f, (s.camCtx n).frame = some f → f.tooLong = false → cfgLines f.cfg ≤ f.lines →
      ∃ s', exec (.csiFrameEnd t port ⟨vc, 0⟩) s = .next s' ∧ (s'.camCtx n).frame = none ∧
        (s'.camCtx n).count = (s.camCtx n).count + 1 ∧
        s'.get (CM_CTX_STAT_FRAMES n) = (s.get (CM_CTX_STAT_FRAMES n) + 1) % 2 ^ 16 ∧ WordsKept s s' [CM_CTX_STAT n]) ∧
    (∀ f, (s.camCtx n).frame = some f → f.tooLong = false → f.lines < cfgLines f.cfg → f.flagged = false →
      ∃ s', exec (.csiFrameEnd t port ⟨vc, 0⟩) s = .next s' ∧ (s'.camCtx n).frame = none ∧ Reports (s.advance t) s' 0x5103 n 0 0 ∧
        s'.get (CM_CTX_STAT_FRAMES n) = (s.get (CM_CTX_STAT_FRAMES n) + 1) % 2 ^ 16 ∧
        s'.get (CM_CTX_DROP1_LOW n) = (s.get (CM_CTX_DROP1_LOW n) + 1) % 2 ^ 16 ∧
        WordsKept s s' [CM_CTX_STAT n, CM_CTX_DROP1 n]) ∧
    -- a context that 2 × LINES × DIV edges have passed without a Frame Start, of the values it has adopted or, before its
    -- first frame, of the live ones: an enabled one is reported once until frames have resumed
    (s.inRole = true → ∀ c, c = (if cfgEn (s.camCtx n).adopted then (s.camCtx n).adopted else (camCtxAddrs n).map s.rd) → n < 16 →
      2 * cfgLines c * cfgDiv c ≤ (s.camCtx n).edges →
      (s.get (CM_CTX_CFG_EN n) = 1 → (s.camCtx n).silent = false →
        ∃ s', exec (.camSilent t n) s = .next s' ∧ Reports (s.advance t) s' 0x5109 n 0 0 ∧
          Rest (((s.advance t).put (CM_CTX_STAT_RECEIVING n) 0).modCtx n fun x => { x with silent := true }) s') ∧
      (s.get (CM_CTX_CFG_EN n) = 0 ∨ (s.camCtx n).silent = true →
        ∃ s', exec (.camSilent t n) s = .next s' ∧ Rest ((s.advance t).put (CM_CTX_STAT_RECEIVING n) 0) s'))

/-- CSI_LINE: a good line is buffered with its edge; one of the wrong length or a failed CRC is discarded and counted;
one that finds the port's buffer full truncates its frame; an uncorrectable header, embedded data and an unknown type
are treated as R311 and R312 say. (R311, R312, R318, R319) -/
def Obligations.CameraLines : Prop := ∀ (t port vc n dtype words : Nat) (raw : List Byte) (s : State),
    s.core = .running → s.portOn port = true → vc < 4 → n = 4 * port + vc → n < s.cam.ctxs.length →
    (∀ f, (s.camCtx n).frame = some f → f.tooLong = false → f.lines < cfgLines f.cfg →
      -- a good line of a placed frame is buffered where its port has room
      (∀ e, f.edge = some e → words = camWords (cfgFmt f.cfg) (cfgPixels f.cfg) → s.portBytes port + words ≤ 524288 →
        ∃ s', exec (.csiLine t port vc 0 (0x2B + cfgFmt f.cfg) words true raw) s = .next s' ∧
          Rest { (s.advance t).modCtx n (fun x => { x with frame := some { f with lines := f.lines + 1 } }) with
            cam := { ((s.advance t).modCtx n (fun x => { x with frame := some { f with lines := f.lines + 1 } })).cam with
              queue := s.cam.queue ++ [⟨n, f.no, f.lines, words, (s.advance t).now, e, f.cfg,
                if cfgFmt f.cfg = 1 then raw12 raw else raw10 raw⟩] } } s') ∧
      -- one of the wrong length or type, or that fails its CRC, is discarded
      (words ≠ camWords (cfgFmt f.cfg) (cfgPixels f.cfg) → f.flagged = false →
        ∃ s', exec (.csiLine t port vc 0 (0x2B + cfgFmt f.cfg) words true raw) s = .next s' ∧ s'.cam.queue = s.cam.queue ∧
          Reports (s.advance t) s' 0x5103 n 0 0 ∧
          s'.get (CM_CTX_DROP2_HIGH n) = (s.get (CM_CTX_DROP2_HIGH n) + 1) % 2 ^ 16 ∧ WordsKept s s' [CM_CTX_DROP2 n]) ∧
      ((s.camCtx n).errSeen = false →
        ∃ s', exec (.csiLine t port vc 0 (0x2B + cfgFmt f.cfg) words false raw) s = .next s' ∧ s'.cam.queue = s.cam.queue ∧
          Reports (s.advance t) s' 0x5101 port 0 0 ∧
          s'.get (CM_PORT_ERR_HIGH port) = (s.get (CM_PORT_ERR_HIGH port) + 1) % 2 ^ 16 ∧
          s'.get (CM_CTX_DROP2_HIGH n) = (s.get (CM_CTX_DROP2_HIGH n) + 1) % 2 ^ 16 ∧
          WordsKept s s' [CM_PORT_ERR port, CM_CTX_DROP2 n]) ∧
      -- a full buffer truncates the frame
      (∀ e, f.edge = some e → words = camWords (cfgFmt f.cfg) (cfgPixels f.cfg) → 524288 < s.portBytes port + words →
        ∃ s', exec (.csiLine t port vc 0 (0x2B + cfgFmt f.cfg) words true raw) s = .next s' ∧ s'.cam.queue = s.cam.queue ∧
          Reports (s.advance t) s' 0x5102 n 0 0 ∧ (∃ g, (s'.camCtx n).frame = some g ∧ g.tooLong = true) ∧
          s'.get (CM_CTX_DROP2_LOW n) = (s.get (CM_CTX_DROP2_LOW n) + 1) % 2 ^ 16)) ∧
    -- a header that cannot be corrected; embedded data, Line Start and Line End; a type that is none of these
    ((s.camCtx n).errSeen = false → ∀ crcOk,
      ∃ s', exec (.csiLine t port vc 2 dtype words crcOk raw) s = .next s' ∧ Reports (s.advance t) s' 0x5101 port 0 0 ∧
        s'.get (CM_PORT_ERR_LOW port) = (s.get (CM_PORT_ERR_LOW port) + 1) % 2 ^ 16 ∧ s'.cam.queue = s.cam.queue ∧
        WordsKept s s' [CM_PORT_ERR port]) ∧
    (∀ crcOk, dtype = 0x12 ∨ dtype = 0x02 ∨ dtype = 0x03 →
      ∃ s', exec (.csiLine t port vc 0 dtype words crcOk raw) s = .next s' ∧ Rest (s.advance t) s') ∧
    (∀ crcOk, dtype ≠ 0x12 → dtype ≠ 0x02 → dtype ≠ 0x03 → dtype ≠ 0x2B → dtype ≠ 0x2C →
      ∃ s', exec (.csiLine t port vc 0 dtype words crcOk raw) s = .next s' ∧
        Rest ((s.advance t).put (CM_PORT_ERR2_LOW port) (s.get (CM_PORT_ERR2_LOW port) + 1)) s')

/-- PIPE_SWITCH takes the context whose line has waited longest; LINE_PROCESSED places, corrects and maps the line and
takes it from the buffer; PROOF_RESULT counts a page not observed whole, passed or failed, with its event. (R320,
R323, R324, R326, R330) -/
def Obligations.PipelineServes : Prop := ∀ (t : Nat) (s : State), s.core = .running →
    -- with no C2 tokens the pipeline rests; a switch takes the context of the line that has waited longest, the lower context where two are equal
    (s.c2Shed = true →
      (∃ s', exec (.pipeSwitch t) s = .next s' ∧ Rest (s.advance t) s') ∧
      (∃ s', exec (.lineProcessed t) s = .next s' ∧ Rest (s.advance t) s') ∧
      ∀ slot page, ∃ s', exec (.proofResult t slot page) s = .next s' ∧ Rest (s.advance t) s') ∧
    -- and so it does outside ACTIVE, STANDBY and SINGLE
    (s.inRole = false → ∃ s', exec (.pipeSwitch t) s = .next s' ∧ Rest (s.advance t) s') ∧
    (s.inRole = true → s.c2Shed = false → s.get CM_PIPE_STAT_BUSY = 0 → s.cam.queue = [] →
      ∃ s', exec (.pipeSwitch t) s = .next s' ∧ Rest ((s.advance t).put CM_PIPE_STAT_BUSY 0) s') ∧
    (s.inRole = true → s.c2Shed = false → s.get CM_PIPE_STAT_BUSY = 0 → s.cam.queue ≠ [] → (∀ l ∈ s.cam.queue, l.ctx < 16) →
      ∃ s', exec (.pipeSwitch t) s = .next s' ∧ s'.get CM_PIPE_STAT_BUSY = 1 ∧
        s'.get CM_PIPE_STAT_SWITCHES = (s.get CM_PIPE_STAT_SWITCHES + 1) % 2 ^ 16 ∧ s'.cam.queue = s.cam.queue ∧
        s'.cam.unitLines = 0 ∧ WordsKept s s' [CM_PIPE_STAT] ∧
        ∃ l ∈ s.cam.queue, s'.get CM_PIPE_STAT_CTX = l.ctx ∧ s'.cam.unitFrame = some l.frame ∧
          ∀ k ∈ s.cam.queue, l.arrived < k.arrived ∨ (l.arrived = k.arrived ∧ l.ctx ≤ k.ctx)) ∧
    -- a line is placed at its trigger edge, corrected and mapped; it leaves the buffer; where its frame's edge has left
    -- the history, the line's own is found by its number
    (∀ l (e : EncoEdge), s.inRole = true → s.c2Shed = false → s.get CM_PIPE_STAT_BUSY = 1 → s.unitOver = false → s.get CM_PIPE_STAT_CTX < s.cam.ctxs.length →
      s.cam.queue.find? (fun l => l.ctx == s.get CM_PIPE_STAT_CTX) = some l →
      (l.edge ∈ s.edgesOf l.cfg ∧ s.triggerAfter l.cfg l.edge l.idx = some e) ∨ (l.edge ∉ s.edgesOf l.cfg ∧
        (s.edgesOf l.cfg).find? (fun x => x.k == l.edge.k + l.idx * cfgDiv l.cfg && decide (l.edge.time ≤ x.time)) = some e) →
      s.beryl.taps = [] → s.get CM_MARK_CFG_CTX ≠ s.get CM_PIPE_STAT_CTX →
      ∃ s', exec (.lineProcessed t) s = .next s' ∧ s'.cam.queue = s.cam.queue.erase l ∧
        s'.cam.unitLines = s.cam.unitLines + 1 ∧
        (s'.camCtx (s.get CM_PIPE_STAT_CTX)).prev = some ⟨e.pos + s.halfSpacing l.cfg - cfgOfs l.cfg, cfgX0 l.cfg,
          s.mapLine (s.get CM_PIPE_STAT_CTX) l.cfg l.raw, cfgFmt l.cfg == 1, l.frame, l.idx⟩ ∧
        s'.cam.obs = s.cam.obs ∧ WordsKept s s' []) ∧
    -- a page's proof result: not observed whole, passed, or failed
    (∀ slot page r, s.inRole = true → s.c2Shed = false →
      s.scan.runs.find? (fun r => r.job == slot && r.page == page && !r.compared && gapGet r.set PG_PROOF_MODE == 2) = some r →
      (s.advance t).proofDue r ≤ (s.advance t).qPu →
      (r.proofBad = true →
        ∃ s', exec (.proofResult t slot page) s = .next s' ∧ Reports (s.advance t) s' 0x5108 0 0 0 ∧
          s'.get CM_PROOF_STAT2_LOW = (s.get CM_PROOF_STAT2_LOW + 1) % 2 ^ 16 ∧ WordsKept s s' [CM_PROOF_STAT2]) ∧
      (r.proofBad = false → r.proofLayers = [] →
        ∃ s', exec (.proofResult t slot page) s = .next s' ∧
          s'.get CM_PROOF_STAT_LOW = (s.get CM_PROOF_STAT_LOW + 1) % 2 ^ 16 ∧ WordsKept s s' [CM_PROOF_STAT]) ∧
      (∀ n q o, r.proofBad = false → r.proofLayers = [n] → s.cam.rects.find? (·.isOf r n) = some q → s.rectSeen q = true →
        s.cam.lastRects.find? (·.layer == q.layer) = some o → o.ord = q.ord → (o.x, o.w, o.y, o.h) = (q.x, q.w, q.y, q.h) →
        changedTiles (s.get CM_PROOF_CFG_DELTA) q o < s.get CM_PROOF_CFG_MIN_TILES → s.get CM_PROOF_CFG_FAIL_WASTE = 0 →
        ∃ s', exec (.proofResult t slot page) s = .next s' ∧ Reports (s.advance t) s' 0x5107 0 0 0 ∧
          s'.get CM_PROOF_STAT_HIGH = (s.get CM_PROOF_STAT_HIGH + 1) % 2 ^ 16 ∧
          s'.get CM_PROOF_STAT_LOW = s.get CM_PROOF_STAT_LOW ∧ WordsKept s s' [CM_PROOF_STAT]))

/-- OBS_MATCH, ACC_WINDOW_TIMEOUT, COLUMN_SOLVE, CONF_DECAY, WHITE_STALE and APPLY_CYCLE have the effect of their
rules; after a window every column that has reached EXC_MIN stands in the queue. CONF_DECAY has the invariants of
CanonicalKept as premises. (R333, R335, R340, R342, R345, R358) -/
def Obligations.BerylSteps : Prop := ∀ (t : Nat) (s : State), s.core = .running →
    -- an observed line with no tap line is counted and freed; a matched one joins the window
    (∀ o rest, s.cam.obs = o :: rest → s.inRole = true → s.c2Shed = false →
      (s.beryl.taps.find? (fun t => t.jobId == o.jobId && t.first == o.first) = none →
        ∃ s', exec (.obsMatch t) s = .next s' ∧
          Rest (({ s.advance t with cam := { s.cam with obs := rest } }).put BY_OBS_STAT_UNMATCHED
            (s.get BY_OBS_STAT_UNMATCHED + 1)) s') ∧
      -- the latest tap line of the job's number is taken; it counts once, at its first observed line
      (∀ e r, s.beryl.taps.reverse.find? (fun t => t.jobId == o.jobId && t.first == o.first) = some e →
        s.runOf e.ord e.page = some r → e.unfit = false → r.spanStrip e ≠ some none → s.beryl.winTaps = 0 → e.matched = false →
        ∃ s', exec (.obsMatch t) s = .next s' ∧ s'.cam = { s.cam with obs := rest } ∧
          s'.get BY_OBS_STAT_TAPLINES = (s.get BY_OBS_STAT_TAPLINES + 1) % 2 ^ 16 ∧
          s'.get BY_OBS_STAT_UNMATCHED = s.get BY_OBS_STAT_UNMATCHED ∧ s'.get BY_STAT_ACCUMULATING = 1 ∧
          s'.beryl.winTaps = 1 ∧ s'.beryl.winOrd = r.ord ∧ s'.beryl.winBars = r.barMask ∧
          s'.beryl.winAt = (s.advance t).now ∧ s'.beryl.winGen = r.sensGen ∧
          s'.beryl.taps = s.beryl.taps.map (fun x => if x = e then { x with matched := true } else x) ∧
          (r.spanStrip e = none → WordsKept s s' [BY_OBS_STAT, BY_OBS_STAT2, BY_STAT])) ∧
      (∀ e r, s.beryl.taps.reverse.find? (fun t => t.jobId == o.jobId && t.first == o.first) = some e →
        s.runOf e.ord e.page = some r → e.unfit = false → r.spanStrip e ≠ some none → s.beryl.winTaps ≠ 0 → e.matched = true →
        s.beryl.winOrd = r.ord → s.beryl.winGen = r.sensGen →
        ∃ s', exec (.obsMatch t) s = .next s' ∧ s'.cam = { s.cam with obs := rest } ∧
          s'.get BY_OBS_STAT_TAPLINES = s.get BY_OBS_STAT_TAPLINES ∧ s'.beryl.winTaps = s.beryl.winTaps ∧
          s'.beryl.winAt = (s.advance t).now ∧
          (r.spanStrip e = none → WordsKept s s' [BY_OBS_STAT, BY_OBS_STAT2, BY_STAT]))) ∧
    -- 20 ms without a matched tap line close the window; sums of older sensitivities are dropped, and every column
    -- whose excitation has reached EXC_MIN then stands in the queue
    (s.beryl.winTaps ≠ 0 → (s.advance t).past s.beryl.winAt 20000000 = true → s.inRole = true → s.c2Shed = false →
      (∃ s', exec (.accWindowTimeout t) s = .next s' ∧ s'.beryl.win = [] ∧ s'.beryl.winTaps = 0 ∧
        ∀ x ∈ s'.accCols, (s'.colAcc x).gen = s'.beryl.gen % 256 → (s'.get BY_EXC_MIN_EXC_MIN : Nat) ≤ (s'.colAcc x).peak →
          s'.beryl.queue.any (·.1 == x) = true) ∧
      (s.beryl.winGen ≠ s.beryl.gen →
        (∀ x ∈ s.accCols, (s.colAcc x).gen = s.beryl.gen % 256 → (s.colAcc x).peak < (s.get BY_EXC_MIN_EXC_MIN : Nat)) →
        ∃ s', exec (.accWindowTimeout t) s = .next s' ∧
          Rest (({ s.advance t with beryl := { s.beryl with win := [], winTaps := 0 } }).put
            BY_STAT_ACCUMULATING 0) s') ∧
      (∀ w a, s.beryl.winGen = s.beryl.gen → s.beryl.win = [w] → (s.colAcc w.col).gen = s.beryl.gen % 256 →
        (s.colAcc w.col).add w 17 = some a → a.peak < (s.get BY_EXC_MIN_EXC_MIN : Nat) →
        (∀ x ∈ s.accCols, x ≠ w.col → (s.colAcc x).gen = s.beryl.gen % 256 →
          (s.colAcc x).peak < (s.get BY_EXC_MIN_EXC_MIN : Nat)) →
        ∃ s', exec (.accWindowTimeout t) s = .next s' ∧
          Rest ((({ s.advance t with beryl := { s.beryl with win := [], winTaps := 0 } }).putAcc w.col a).put
            BY_STAT_ACCUMULATING 0) s')) ∧
    -- the oldest queued solve: of an older generation it is dropped, else it counts once, accepted or not
    (∀ x bars rest, s.beryl.queue = (x, bars) :: rest → s.authoritative = true → s.get BY_STAT_NOCAM = 0 → s.c2Shed = false →
      x < 2 ^ 20 →
      ((s.colAcc x).gen ≠ s.beryl.gen % 256 →
        ∃ s', exec (.columnSolve t) s = .next s' ∧
          Rest { s.advance t with beryl := { s.beryl with queue := rest } } s') ∧
      ((s.colAcc x).gen = s.beryl.gen % 256 →
        ∃ s', exec (.columnSolve t) s = .next s' ∧ s'.beryl.queue = rest ∧ s'.shadow = s.shadow ∧ s'.scan = s.scan ∧
          ((s'.get BY_SOLVE_STAT_SOLVES = (s.get BY_SOLVE_STAT_SOLVES + 1) % 2 ^ 16 ∧
              s'.get BY_SOLVE_STAT_NONE_ACCEPTED = s.get BY_SOLVE_STAT_NONE_ACCEPTED) ∨
            (s'.get BY_SOLVE_STAT_SOLVES = s.get BY_SOLVE_STAT_SOLVES ∧
              s'.get BY_SOLVE_STAT_NONE_ACCEPTED = (s.get BY_SOLVE_STAT_NONE_ACCEPTED + 1) % 2 ^ 16 ∧
              WordsKept s s' [BY_SOLVE_STAT])))) ∧
    -- confidence decays by 1 every 10 s where no solve was accepted
    (s.authoritative = true → (s.advance t).past s.beryl.decayAt 10000000000 = true → s.canonical = true →
      (∀ p ∈ s.words, p.1 % 4 = 0) →
      ∃ s', exec (.confDecay t) s = .next s' ∧ s'.beryl.solved = [] ∧ s'.beryl.decayAt = (s.advance t).now ∧
        (∀ b < 8, ∀ c < 0x18000, s'.slotRec b c = setBits (s.slotRec b c) 23 16 (recConf (s.slotRec b c) -
          (if s.beryl.solved.contains (b, c) then 0 else 1))) ∧
        ∀ a, a ∉ shown → ¬(0x1800000 ≤ a ∧ a < 0x1B00000) → s'.rd a = s.rd a) ∧
    -- an unprinted-web value that has aged out
    (∀ x w, s.white x = some w → w.stale = false → s.inRole = true →
      (s.advance t).past w.at_ (s.get BY_WHITE_CFG_MAX_S * 1000000000) = true →
      ∃ s', exec (.whiteStale t x) s = .next s' ∧
        Rest (({ s.advance t with beryl := { s.beryl with
          whites := s.beryl.whites.map fun (w : WhiteCol) => if w.col = x then { w with stale := true } else w } }).put
            BY_OBS_STAT2_STALE_COLS (s.get BY_OBS_STAT2_STALE_COLS + 1)) s' ∧
        (s.get BY_OBS_STAT2_STALE_COLS = 0 → Reports (s.advance t) s' 0x5206 0 0 0)) ∧
    -- an apply cycle falls due: its changes go into the shadow bank only
    (∀ b, b < 8 → b < s.beryl.bars.length → s.authoritative = true → s.berylOn b = true → s.bitOf BY_STAT_CYCLE b = false →
      s.get (SC_BAR_APPLY_CTRL_PENDING b) = 0 → s.get (SC_BAR_APPLY_CTRL_COPY_BUSY b) = 0 →
      (s.advance t).past (s.byBar b).cycleAt (s.get BY_APPLY_CFG_APPLY_MS * 1000000) = true →
      ∃ s', exec (.applyCycle t b) s = .next s' ∧ (s'.byBar b).cycleAt = (s.advance t).now ∧
        (s'.byBar b).touched = (if s'.bitOf BY_STAT_CYCLE b then [] else (s.byBar b).touched) ∧
        (s'.byBar b).revive = false ∧ (s'.byBar b).resetSegs = [] ∧
        (∀ k < 0x18000, s'.rd (liveWin b + 4 * k) = s.rd (liveWin b + 4 * k)) ∧
        (∀ m, m ≠ b → s'.byBar m = s.byBar m))

/-- For each kind of received Ecnal frame: one cut is counted in PR_LINK_CNT, one that fails its check in PR_LINK_ERR,
one with the link down is ignored, and a reliable frame out of order is counted and otherwise shows only the partner's
claim. (R376) -/
def Obligations.FramesRefused : Prop := ∀ (t ago : Nat) (c : Nat → RelHdr → Instr) (s : State), s.core = .running →
    ((∃ hb : HbFrame, c = fun t h => .ecnalHb t ago h.arrival hb) ∨ (∃ x : HelloFrame, c = fun t h => .hello t h.arrival x) ∨
      (∃ k : AckFrame, c = fun t h => .ecnalAck t h.arrival k) ∨
      (∃ tick part parts entries, c = fun t h => .tsFrame t h tick part parts entries) ∨
      (∃ items, c = fun t h => .digestFrame t h items) ∨ (∃ tick obj, c = fun t h => .resyncFrame t h tick obj)) →
    ∀ h : RelHdr,
    (h.arrival = .cut →
      ∃ s', exec (c t h) s = .next s' ∧ Rest ((s.advance t).put PR_LINK_CNT_LOW (s.get PR_LINK_CNT_LOW + 1)) s') ∧
    (h.arrival = .bad →
      ∃ s', exec (c t h) s = .next s' ∧ Rest ((s.advance t).put PR_LINK_ERR_LOW (s.get PR_LINK_ERR_LOW + 1)) s') ∧
    (h.arrival = .good → s.linkUp = false → ∃ s', exec (c t h) s = .next s' ∧ Rest (s.advance t) s') ∧
    (h.arrival = .good → s.linkUp = true → h.fseq ≠ s.pair.fseqRx →
      ((∃ tick part parts entries, c = fun t h => .tsFrame t h tick part parts entries) ∨
        (∃ items, c = fun t h => .digestFrame t h items) ∨ (∃ tick obj, c = fun t h => .resyncFrame t h tick obj)) →
      ∃ s', exec (c t h) s = .next s' ∧ s'.pair = { s.pair with partnerEpoch := h.claim / 256, entries := s'.pair.entries } ∧ s'.out = s.out ∧
        s'.get PR_LINK_ERR_HIGH = (s.get PR_LINK_ERR_HIGH + 1) % 2 ^ 16 ∧ WordsKept s s' [PR_LINK_ERR, PR_PARTNER_CLAIM])

/-- A reliable frame in order is acknowledged; a joining unit keeps each object of a snapshot, begins it anew at
another tick, takes it whole with its last object and takes the position from the motion object; a standby applies a
whole copy and names its tick; a digest makes a STORED slot HELD or MISMATCH; an ACK releases what it acknowledges and
lets the first waiting frame go, frames waiting in R377's order; after 20 µs without one every unacknowledged frame
leaves again. A snapshot's object is cut into frames of at most 2,048 bytes, which carry it whole (its layout: log 32,
the model's choice). (R66, R375, R376, R377, R383, R400, R401, R402, R432, log 32) -/
def Obligations.ReliableFrames : Prop := ∀ (t : Nat) (s : State), s.core = .running → s.linkUp = true →
    (∀ h : RelHdr, h.arrival = .good → h.fseq = s.pair.fseqRx →
      -- a unit that follows nothing only acknowledges
      (∀ tick part parts entries, s.goodStandby = false → s.joining = false →
        ∃ s', exec (.tsFrame t h tick part parts entries) s = .next s' ∧
          s'.pair = { s.pair with
            partnerEpoch := h.claim / 256, fseqRx := (h.fseq + 1) % 2 ^ 32, entries := s'.pair.entries } ∧
          s'.out = s.out ++ [.ecnal (.ack ⟨s.claim, (h.fseq + 1) % 2 ^ 32, if s.base = .standby then s.pair.appliedTick else 0,
            s.get (JL_READY_CH 0), s.get (JL_READY_CH 1), s.get (JL_READY_CH 2)⟩)] ∧ WordsKept s s' [PR_PARTNER_CLAIM]) ∧
      (∀ tick obj, s.joining = false →
        ∃ s', exec (.resyncFrame t h tick obj) s = .next s' ∧
          s'.pair = { s.pair with
            partnerEpoch := h.claim / 256, fseqRx := (h.fseq + 1) % 2 ^ 32, entries := s'.pair.entries } ∧
          s'.out = s.out ++ [.ecnal (.ack ⟨s.claim, (h.fseq + 1) % 2 ^ 32, if s.base = .standby then s.pair.appliedTick else 0,
            s.get (JL_READY_CH 0), s.get (JL_READY_CH 1), s.get (JL_READY_CH 2)⟩)] ∧ WordsKept s s' [PR_PARTNER_CLAIM]) ∧
      -- a joining unit keeps each object of the snapshot, of one sent in parts once its last frame is there; the first
      -- frame of another snapshot begins it anew
      (∀ tick c, s.joining = true → s.joined = false → s.pair.t0 = some ((s.advance t).tickOf tick) →
        ∃ s', exec (.resyncFrame t h tick (.part c)) s = .next s' ∧ s'.pair.objs = s.pair.objs ∧
          s'.pair.framesRx = s.pair.framesRx + 1 ∧ WordsKept s s' [PR_PARTNER_CLAIM]) ∧
      (∀ tick obj, s.joining = true → s.joined = false → (∀ k, obj ≠ .last k) → (∀ c, obj ≠ .part c) →
        (s.pair.t0 = some ((s.advance t).tickOf tick) →
          ∃ s', exec (.resyncFrame t h tick obj) s = .next s' ∧
            s'.pair = { s.pair with
              partnerEpoch := h.claim / 256, fseqRx := (h.fseq + 1) % 2 ^ 32, entries := s'.pair.entries
              objs := s.pair.objs ++ [obj], framesRx := s.pair.framesRx + 1 } ∧
            s'.out = s.out ++ [.ecnal (.ack ⟨s.claim, (h.fseq + 1) % 2 ^ 32, if s.base = .standby then s.pair.appliedTick else 0,
              s.get (JL_READY_CH 0), s.get (JL_READY_CH 1), s.get (JL_READY_CH 2)⟩)] ∧ WordsKept s s' [PR_PARTNER_CLAIM]) ∧
        (s.pair.t0 ≠ some ((s.advance t).tickOf tick) →
          ∃ s', exec (.resyncFrame t h tick obj) s = .next s' ∧
            s'.pair = { s.pair with
              partnerEpoch := h.claim / 256, fseqRx := (h.fseq + 1) % 2 ^ 32, entries := s'.pair.entries
              t0 := some ((s.advance t).tickOf tick), copies := [], ended := false, objs := [obj], framesRx := 1 } ∧
            WordsKept s s' [PR_PARTNER_CLAIM])) ∧
      -- with its last object the snapshot is whole and taken: here a bar's banks, word for word
      (∀ tick b vals, s.joining = true → s.joined = false → s.pair.t0 = some ((s.advance t).tickOf tick) →
        s.pair.objs = [.banks b vals] → s.pair.framesRx = 1 → s.pair.copies = [] → s.canonical = true → b < 8 →
        (vals.map (·.1)).Nodup → (∀ v ∈ vals, v.2 < 2 ^ 32 ∧ ∃ w ∈ bankWins b, w.1 ≤ v.1 ∧ v.1 < w.1 + w.2) →
        ∃ s', exec (.resyncFrame t h tick (.last 2)) s = .next s' ∧ s'.pair.ended = true ∧ s'.pair.objs = [] ∧
          s'.get PR_STAT_RESYNC_PHASE = 4 ∧ (∀ v ∈ vals, s'.rd v.1 = v.2) ∧
          (∀ a, (∃ w ∈ bankWins b, w.1 ≤ a ∧ a < w.1 + w.2) → (∀ v ∈ vals, v.1 ≠ a) → s'.rd a = 0) ∧
          ∀ a, a ∉ shown → a ≠ PR_PARTNER_CLAIM → a ≠ PR_STAT → (∀ w ∈ bankWins b, a < w.1 ∨ w.1 + w.2 ≤ a) →
            s'.rd a = s.rd a) ∧
      -- the motion object gives it the active's position, whose encoder has had no edge for 1 ms
      (∀ tick m, s.joining = true → s.joined = true → s.pair.anchored = false → m.edgeAt = none → m.lost = false →
        ∃ s', exec (.resyncFrame t h tick (.motion m)) s = .next s' ∧ s'.web.p = m.edgeP ∧ s'.web.q = max m.q m.edgeP ∧
          s'.web.onSec = m.onSec ∧ s'.pair.anchored = true ∧ s'.get PR_STAT_RESYNC_PHASE = 5) ∧
      -- a standby applies a whole copy: a COUNTER entry raises a floor, the ACK names the tick
      (∀ tick m hi lo, s.goodStandby = true → s.joining = false → s.pair.copies = [] → s.tb.newIncr = none → s.tb.adj = none →
        (∀ l < 96, (s.laneSt l).ctl.any (·.copies == 0) = false) → m < 4 → hi < 2 ^ 32 → lo < 2 ^ 32 → 
        ∃ s', exec (.tsFrame t h tick 0 1 [⟨2, [m, hi, lo]⟩]) s = .next s' ∧
          s'.floor m = max (s.floor m) (hi * 2 ^ 32 + lo) ∧ s'.pair.appliedTick = (s.advance t).tickOf tick ∧
          s'.pair.copies = [] ∧ s'.get PR_TS_STAT_COPIES = (s.get PR_TS_STAT_COPIES + 1) % 2 ^ 16 ∧
          s'.out = s.out ++ [.ecnal (.ack ⟨s.claim, (h.fseq + 1) % 2 ^ 32, (s.advance t).tickOf tick,
            s.get (JL_READY_CH 0), s.get (JL_READY_CH 1), s.get (JL_READY_CH 2)⟩)] ∧
          WordsKept s s' [PR_PARTNER_CLAIM, PR_TS_STAT, HP_MST_CTR_LO m, HP_MST_CTR_HI m]) ∧
      -- the partner's digest of a STORED slot: equal, the slot is HELD; different, MISMATCH
      (∀ d : DigestItem, (s.surf d.surf d.gen).isSome = true → (s.slotOf d.surf d.gen d.slot).state = stStored →
        (d.len = (s.slotOf d.surf d.gen d.slot).len → d.digest = (s.slotOf d.surf d.gen d.slot).digest →
          ∃ s', exec (.digestFrame t h [d]) s = .next s' ∧ (s'.slotOf d.surf d.gen d.slot).state = stHeld ∧
            s'.pair.fseqRx = (h.fseq + 1) % 2 ^ 32 ∧ WordsKept s s' [PR_PARTNER_CLAIM]) ∧
        (d.digest ≠ (s.slotOf d.surf d.gen d.slot).digest →
          ∃ s', exec (.digestFrame t h [d]) s = .next s' ∧ (s'.slotOf d.surf d.gen d.slot).state = stMismatch ∧
            Reports (s.advance t) s' 0x3102 0 (packGen d.surf d.gen) d.slot ∧ s'.pair.fseqRx = (h.fseq + 1) % 2 ^ 32))) ∧
    -- an ACK lets go what it acknowledges and shows the partner's READY channels
    (∀ k : AckFrame, s.pair.waiting = [] → s.base ≠ .active →
      ∃ s', exec (.ecnalAck t .good k) s = .next s' ∧ s'.out = s.out ∧
        s'.pair.unacked = s.pair.unacked.drop (s.pair.unacked.filter fun f => later 32 k.nextFseq f.fseq).length ∧
        s'.rd (PR_PARTNER_READY 0) = k.ready0 % 2 ^ 32 ∧ s'.rd (PR_PARTNER_READY 1) = k.ready1 % 2 ^ 32 ∧
        s'.rd (PR_PARTNER_READY 2) = k.ready2 % 2 ^ 32 ∧
        WordsKept s s' [PR_PARTNER_CLAIM, PR_PARTNER_READY 0, PR_PARTNER_READY 1, PR_PARTNER_READY 2]) ∧
    -- and the first frame that waits takes the room; among those that wait R377's order holds
    (∀ (k : AckFrame) (r : Nat) (b : RelBody), s.pair.waiting = [(r, b)] → s.base ≠ .active → s.pair.unacked.length = 129 →
      s.pair.unacked.any (fun f => later 32 k.nextFseq f.fseq) = true →
      ∃ s', exec (.ecnalAck t .good k) s = .next s' ∧ s'.pair.waiting = [] ∧
        s'.out = s.out ++ [.ecnal ((⟨s.pair.fseqTx, b⟩ : RelFrame).frame s.claim)] ∧
        s'.pair.fseqTx = (s.pair.fseqTx + 1) % 2 ^ 32) ∧
    (∀ (d : Bool) (b : RelBody), (s.pair.waiting.map (·.1)).Pairwise (· ≤ ·) → 128 < s.pair.unacked.length →
      ((s.relPut d b).pair.waiting.map (·.1)).Pairwise (· ≤ ·) ∧ (s.relPut d b).out = s.out ∧
        (s.relPut d b).pair.waiting.Perm ((b.rank d, b) :: s.pair.waiting)) ∧
    -- 20 µs without an ACK that advances: every unacknowledged frame leaves again, from the oldest
    (s.pair.unacked ≠ [] → (s.advance t).past s.pair.ackAdvAt 20000 = true →
      ∃ s', exec (.ecnalResend t) s = .next s' ∧
        s'.out = s.out ++ s.pair.unacked.map (fun f => .ecnal (f.frame s.claim)) ∧
        s'.pair = { s.pair with ackAdvAt := (s.advance t).now, entries := s'.pair.entries } ∧
        s'.get PR_LINK_CNT_HIGH = (s.get PR_LINK_CNT_HIGH + 1) % 2 ^ 16 ∧ WordsKept s s' [PR_LINK_CNT]) ∧
    -- a snapshot's object is cut into frames of at most 2,048 bytes, which carry it whole
    (∀ (o : ResyncObj) (claim fseq t0 index : Nat),
      (o.pieces.flatMap (·.2)) = o.words ∧
      ∀ p ∈ o.pieces, (EFrame.bytes (.resync claim fseq t0 o.code index p.1 p.2)).length ≤ 2048)

/-- ECNAL_HB_SEND sends the HB of a 10 µs slot and the ELSYNC frames due on lanes in TIMELOCK; ECNAL_HB shows the
partner, MISSED counting on while none comes, and a standby that says it is STALE is no longer waited for; HELLO_SEND
and HELLO exchange claims and the second decides the roles; ELSYNC's sixteenth exchange takes an Ecnal lane to READY
or fails it. The point at which the second HELLO decides is the model's reading of R385 (DEDUCED, logged). (R378,
R379, R380, R383, R385) -/
def Obligations.HeartbeatsAndHellos : Prop := ∀ (t : Nat) (s : State), s.core = .running → s.linkUp = true →
    -- the HB of a 10 µs slot
    (s.inPair = true → s.pair.yieldUntil = none → s.pair.hbAt ≤ (s.advance t).now / 10000 →
      (∀ el < 4, s.tstate (96 + el) ≠ tsTimelock) →
      ∃ s', exec (.ecnalHbSend t) s = .next s' ∧
        Rest { s.advance t with
          pair := { s.pair with
            hbSeq := (s.pair.hbSeq + 1) % 2 ^ 32, hbAt := (s.advance t).now / 10000 + 1, items := (hbPick s.pair.items).2
            hbTx := ((s.pair.hbSeq + 1) % 2 ^ 32, (s.advance t).now) :: s.pair.hbTx.take 7 }
          out := s.out ++ [.ecnal (.hb ⟨s.claim, (s.pair.hbSeq + 1) % 2 ^ 32, (s.advance t).now, s.pair.rxSeq, s.pair.rxAt,
            s.hbFlags, s.hbTick % 2 ^ 32, (hbPick s.pair.items).1⟩)] } s') ∧
    -- an EL lane in TIMELOCK sends its sixteen ELSYNC frames of itself, at 10 µs intervals from its entry
    (∀ el, el < 4 → 96 + el < s.lanes.length → s.tstate (96 + el) = tsTimelock → s.pair.yieldUntil = none →
      ∃ s', exec (.ecnalHbSend t) s = .next s' ∧ s'.tstate (96 + el) = tsTimelock ∧
        (s'.laneSt (96 + el)).elsTx = max (s.laneSt (96 + el)).elsTx
          (min 16 (((s.advance t).now - (s.laneSt (96 + el)).since) / 10000 + 1)) ∧
        ∀ k, (s.laneSt (96 + el)).elsTx ≤ k → k < 16 → (s.laneSt (96 + el)).since + 10000 * k ≤ (s.advance t).now →
          Sent.ecnal (.elsync el s.claim ((s.laneSt (96 + el)).since + 10000 * k)) ∈ s'.out) ∧
    -- MISSED counts on while no HB comes, before the loss and after it
    (s.inPair = true → s.pair.lastHb ≠ 0 → s.pair.partnerUp = false → s.pair.missed ≤ (s.now - s.pair.lastHb) / 10000 →
      bits s.hbCntView 31 16 = (s.get PR_HB_CNT_MISSED + ((s.now - s.pair.lastHb) / 10000 - s.pair.missed)) % 2 ^ 16) ∧
    -- an HB received from a partner that is neither lost to it nor yields
    (∀ ago (h : HbFrame), bit h.flags 9 = false → bit h.flags 10 = false → bit h.flags 11 = false → h.items = [] →
      s.pair.partnerJoining = false → s.pair.lastHb = 0 → (bit h.flags 4 = true → s.followed = false) →
      ∃ s', exec (.ecnalHb t ago .good h) s = .next s' ∧ s'.get PR_HB_CNT_RECEIVED = (s.get PR_HB_CNT_RECEIVED + 1) % 2 ^ 16 ∧
        s'.get PR_HB_CNT_MISSED = s.get PR_HB_CNT_MISSED ∧ s'.get PR_STAT_PARTNER_UP = 1 ∧
        s'.get PR_STAT_PARTNER_ROLE = bits h.flags 3 0 ∧ s'.rd PR_PARTNER_CLAIM = h.claim % 2 ^ 32 ∧
        -- its stamp is that of its first symbol, less the skew of the lane that carries word 0
        s'.pair.lastHb = ((((s.advance t).now - ago : Nat) : Int) - (s.laneSt (96 + s.pair.linkSet.headD 0)).skew).toNat ∧
        s'.pair.rxAt = s'.pair.lastHb ∧ s'.pair.rxSeq = h.hbSeq ∧ s'.pair.partnerUp = true ∧
        s'.pair.missed = 0 ∧ s'.base = s.base ∧ s'.out = s.out ∧ WordsKept s s' [PR_HB_CNT, PR_STAT, PR_PARTNER_CLAIM]) ∧
    -- a standby that says it is STALE no longer follows: held responses leave
    (∀ ago (h : HbFrame), bit h.flags 4 = true → bit h.flags 9 = false → bit h.flags 10 = false → bit h.flags 11 = false →
      h.items = [] → s.followed = true → s.is PR_STAT_CONTEST = false → s.pair.partnerJoining = false →
      ∃ s', exec (.ecnalHb t ago .good h) s = .next s' ∧ s'.pair.partnerStale = true ∧ s'.get PR_STAT_PARTNER_STALE = 1 ∧
        s'.base = .active ∧ s'.dcp.await = [] ∧ s'.pair.staleYou = s.pair.staleYou) ∧
    -- a HELLO falls due
    (s.pair.helloOn = true → s.pair.helloAt ≤ (s.advance t).now →
      ∃ s', exec (.helloSend t) s = .next s' ∧
        Rest ({ s.advance t with pair := { s.pair with helloAt := (s.advance t).now + 100000 } }.emit
          (.ecnal (.hello ⟨s.claim, b2n s.unitId, s.get PR_STAT_ROLE, s.is PR_STAT_STALE, s.is PR_STAT_DEMOTED,
            s.pair.epoch⟩))) s') ∧
    -- the first HELLO is answered and decides nothing
    (∀ h : HelloFrame, s.pair.helloRx = 0 →
      ∃ s', exec (.hello t .good h) s = .next s' ∧
        Rest ((({ s.advance t with pair := { s.pair with
          helloRx := 1, helloMet := s.pair.helloMet + 1, partnerEpoch := max (h.claim / 256) h.epoch } }).wr
          PR_PARTNER_CLAIM h.claim).emit (.ecnal (.hello ⟨s.claim, b2n s.unitId, s.get PR_STAT_ROLE,
            s.is PR_STAT_STALE, s.is PR_STAT_DEMOTED, s.pair.epoch⟩))) s') ∧
    -- the second decides by the table: two PAIRING units, which a clash of identities before it does not hold back, and
    -- two units of one identity
    (∀ h : HelloFrame, s.pair.helloRx = 1 → s.base = .pairing → s.joining = false → h.role = 0 →
      (h.unit = 1 → s.unitId = false →
        ∃ s', exec (.hello t .good h) s = .next s' ∧ s'.base = .active ∧ s'.pair.clash = false ∧ s'.rd PR_CLAIM = 320 ∧ s'.pair.partnerStale = true ∧
          s'.pair.helloOn = false ∧ s'.pair.holdsSeq = true) ∧
      (h.unit = 0 → s.unitId = true →
        ∃ s', exec (.hello t .good h) s = .next s' ∧ s'.base = .pairing ∧ s'.rd PR_CLAIM = 1 ∧ s'.pair.clash = false ∧
          s'.get PR_STAT_RESYNC_PHASE = 1 ∧ s'.get TB_PAIR_STAT_STATE = 1 ∧ Reports (s.advance t) s' 0x610E 0 0 0) ∧
      (h.unit = b2n s.unitId → s.pair.clash = false →
        ∃ s', exec (.hello t .good h) s = .next s' ∧ s'.base = .pairing ∧ s'.get FS_SAFE_STAT_SAFE = 1 ∧
          s'.pair.clash = true ∧ Reports (s.advance t) s' 0x6106 0 0 0)) ∧
    -- an EL lane's ELSYNC frames: the sixteenth is judged, an earlier one kept
    (∀ el rtt skew, el < 4 → 96 + el < s.lanes.length → s.tstate (96 + el) = tsTimelock →
      ((s.laneSt (96 + el)).els.length ≠ 15 →
        (∀ k < 4, s.tstate (96 + k) = tsTimelock →
          min 16 (((s.advance t).now - (s.laneSt (96 + k)).since) / 10000 + 1) ≤ (s.laneSt (96 + k)).elsTx) →
        ∃ s', exec (.elsync t el rtt skew) s = .next s' ∧
          Rest ((s.advance t).modLane (96 + el) fun x => { x with els := x.els ++ [rtt] }) s') ∧
      (∀ v, (s.laneSt (96 + el)).els = List.replicate 15 v → rtt = v → skew.natAbs ≤ 64 →
        ∃ s', exec (.elsync t el rtt skew) s = .next s' ∧ s'.tstate (96 + el) = tsReady ∧
          (s'.laneSt (96 + el)).skew = skew ∧ Reports (s.advance t) s' 0x4101 (96 + el) 0 0) ∧
      ((s.laneSt (96 + el)).els.length = 15 → 64 < skew.natAbs → 
        ∃ s', exec (.elsync t el rtt skew) s = .next s' ∧ s'.tstate (96 + el) = tsBackoff ∧
          s'.get (LANE_STAT_FAIL_CAUSE (96 + el)) = 5))

/-- PARTNER_LOST after 30 µs: a good standby takes over and the active goes on alone, each raising its epoch and
contesting. COPY_DEADLINE makes a late standby STALE, or the active declares it so. PAIR_TIMEOUT enters SINGLE with
the claim of epoch 0. CONTEST_TIMEOUT ends a contest. SWITCH_HANDOVER swaps the roles at its instant or abandons the
switchover. (R383, R384, R386, R387, R389, R390, R398, R399) -/
def Obligations.RolesChange : Prop := ∀ (t : Nat) (s : State), s.core = .running →
    -- 30 µs without a valid HB: a good standby takes over, the active goes on alone; both raise the epoch and contest
    (s.pair.partnerUp = true → (s.advance t).past s.pair.lastHb 30000 = true →
      (s.goodStandby = true → s.joining = false →
        ∃ s', exec (.partnerLost t) s = .next s' ∧ s'.base = .single ∧ s'.get PR_STAT_PARTNER_UP = 0 ∧
          s'.get PR_STAT_CONTEST = 1 ∧ s'.rd PR_CLAIM = s.epochRaised * 256 + 64 + b2n s.unitId ∧
          s'.get PR_TAKEOVER_COUNT = (s.get PR_TAKEOVER_COUNT + 1) % 2 ^ 16 ∧ s'.get PR_TAKEOVER_CAUSE = 1 ∧
          Reports (s.advance t) s' 0x6102 0 0 0) ∧
      (s.base = .active →
        ∃ s', exec (.partnerLost t) s = .next s' ∧ s'.base = .single ∧ s'.get PR_STAT_PARTNER_UP = 0 ∧
          s'.get PR_STAT_CONTEST = 1 ∧ s'.rd PR_CLAIM = s.epochRaised * 256 + 64 + b2n s.unitId ∧
          s'.get PR_TAKEOVER_COUNT = s.get PR_TAKEOVER_COUNT ∧ Reports (s.advance t) s' 0x6102 0 0 0)) ∧
    -- a copy 200 µs late: the standby is STALE, or the active holds it so
    (s.goodStandby = true → s.joining = false → (s.advance t).past ((s.advance t).tick * 250000) 200000 = true →
      s.pair.appliedTick < (s.advance t).tick →
      ∃ s', exec (.copyDeadline t) s = .next s' ∧ s'.base = .standby ∧ s'.get PR_STAT_STALE = 1 ∧ s'.pair.copies = []) ∧
    (s.base = .active → s.pair.partnerUp = true → s.pair.partnerJoining = false → s.pair.staleYou = false →
      s.pair.acked = false → (s.advance t).past s.pair.sentAt 200000 = true →
      ∃ s', exec (.copyDeadline t) s = .next s' ∧ s'.base = .active ∧ s'.pair.staleYou = true ∧
        s'.get PR_STAT_PARTNER_STALE = 1 ∧ Reports (s.advance t) s' 0x6104 0 0 0) ∧
    -- a pairing without a partner
    (s.base = .pairing → s.joining = false → s.pair.clash = false → s.pair.helloMet < 2 →
      (s.advance t).past s.pair.pairAt (s.get PR_CFG_PAIR_TMO_MS * 1000000) = true →
      ∃ s', exec (.pairTimeout t) s = .next s' ∧ s'.base = .single ∧ s'.rd PR_CLAIM = b2n s.unitId ∧
        s'.pair.holdsSeq = false ∧ s'.pair.rank = 0 ∧ s'.pair.epoch = 0 ∧ Reports (s.advance t) s' 0x6108 0 0 0) ∧
    -- a contest with no job and no READY head lane ends after 1 ms
    (s.is PR_STAT_CONTEST = true → s.running = none → (∀ l < 96, s.ready l = false) →
      (s.advance t).past s.pair.contestAt 1000000 = true → s.dcp.await = [] →
      ∃ s', exec (.contestTimeout t) s = .next s' ∧ Rest ((s.advance t).put PR_STAT_CONTEST 0) s') ∧
    -- the handover instant of a planned switchover
    (∀ t0, s.pair.switchAt = some t0 → (s.advance t).past t0 460000 = true →
      (s.base = .active → s.pair.acked = true → s.pair.sentTick = t0 / 250000 + 1 → s.dcp.held = [] →
        ∃ s', exec (.switchHandover t) s = .next s' ∧ s'.base = .standby ∧ s'.get PR_STAT_SWITCH_PENDING = 0 ∧
          s'.rd PR_CLAIM = (epochUp s.pair.epoch % 2 ^ 24) * 256 + 2 + b2n s.unitId ∧ s'.pair.switchAt = none ∧
          -- the raised claim goes out on every lane
          (∃ sent, s'.out = s.out ++ sent ∧ (∀ l < 96, s.flowing l = true →
            ∃ n safe, Sent.joend l (.hb s'.claim n safe) ∈ sent) ∧ ((∀ l < 96, s.flowing l = false) → sent = [])) ∧
          s'.get TB_PAIR_STAT_STATE = 2 ∧ Reports (s.advance t) s' 0x610C 0 0 0) ∧
      (s.goodStandby = true → t0 / 250000 + 1 ≤ s.pair.appliedTick →
        ∃ s', exec (.switchHandover t) s = .next s' ∧ s'.base = .active ∧ s'.get PR_STAT_SWITCH_PENDING = 0 ∧
          -- its outputs it drives 10 µs later
          s'.pair.driveAt = t0 + 470000 ∧ s'.get PR_TAKEOVER_CAUSE = 6 ∧ s'.get PR_TAKEOVER_COUNT = (s.get PR_TAKEOVER_COUNT + 1) % 2 ^ 16 ∧
          s'.rd PR_CLAIM = (epochUp s.pair.epoch % 2 ^ 24) * 256 + 64 + b2n s.unitId) ∧
      (s.base = .active → s.pair.acked = false →
        ∃ s', exec (.switchHandover t) s = .next s' ∧ s'.base = .active ∧ s'.rd PR_CLAIM = s.rd PR_CLAIM ∧
          s'.get PR_STAT_SWITCH_PENDING = 0 ∧ Reports (s.advance t) s' 0x610D 0 0 0))

/-- GARNET_CHECK counts; a first miscompare opens a focus of 16 lines with 0x6109; a second within it is a confirmed
failure with 0x610A, which enters SAFE in SINGLE, demotes the standby, or demotes the active whose standby follows; a
first one in a focus that a head's mismatch began attributes that mismatch. GARNET_FOCUS_END ends a focus, and one
that the standby's mismatch opened counts as unattributed. (R393, R394, R395, R396) -/
def Obligations.GarnetChecks : Prop := ∀ (t ch : Nat) (s : State), s.core = .running →
    (∀ (seq pchk : Nat) (x : ChanLine), (s.chanLines ch).find? (·.seq == seq) = some x → s.garnetDue ch x.line = true →
      -- an equal check, the first miscompare, and the second within its focus
      (pchk = x.pchk →
        ∃ s', exec (.garnetCheck t ch seq pchk) s = .next s' ∧
          s'.get PR_GARNET_CHECKS_COUNT = (s.get PR_GARNET_CHECKS_COUNT + 1) % 2 ^ 32 ∧ s'.base = s.base ∧
          WordsKept s s' [PR_GARNET_CHECKS]) ∧
      (pchk ≠ x.pchk → s.pair.focus = [] → ch < 128 → seq < 2 ^ 24 →
        ∃ s', exec (.garnetCheck t ch seq pchk) s = .next s' ∧ s'.pair.focus = [⟨ch, 16, false⟩] ∧
          s'.get PR_GARNET_STAT_MISCOMPARES = (s.get PR_GARNET_STAT_MISCOMPARES + 1) % 2 ^ 16 ∧
          s'.get PR_GARNET_LAST_SEQ = seq ∧ s'.get PR_GARNET_LAST_CH = ch ∧ s'.get PR_GARNET_STAT_FAILS = s.get PR_GARNET_STAT_FAILS ∧
          Reports (s.advance t) s' 0x6109 ch seq 0 ∧ s'.base = s.base ∧
          WordsKept s s' [PR_GARNET_CHECKS, PR_GARNET_STAT, PR_GARNET_LAST]) ∧
      (∀ f, pchk ≠ x.pchk → s.pair.focus = [f] → f.ch = ch → f.fromMm = false → s.pair.focusWait = [] →
        (s.base = .single → s.get AG_RP_STAT_MODE = 0 →
          ∃ s', exec (.garnetCheck t ch seq pchk) s = .next s' ∧ s'.pair.focus = [] ∧
            s'.get PR_GARNET_STAT_FAILS = (s.get PR_GARNET_STAT_FAILS + 1) % 2 ^ 16 ∧ s'.get PR_GARNET_LAST_FAILED = 1 ∧
            s'.get FS_SAFE_STAT_SAFE = 1 ∧ s'.get FS_SAFE_STAT_GARNET = 1 ∧ s'.base = .single ∧
            Reports (s.advance t) s' 0x6109 ch seq 0 ∧ Raises (s.advance t) s' 0x610A ch) ∧
        (s.base = .standby →
          ∃ s', exec (.garnetCheck t ch seq pchk) s = .next s' ∧ s'.base = .standby ∧ s'.get PR_STAT_DEMOTED = 1 ∧
            s'.get PR_GARNET_STAT_FAILS = (s.get PR_GARNET_STAT_FAILS + 1) % 2 ^ 16 ∧ s'.pair.rank = 0 ∧ s'.pair.copies = [] ∧
            Reports (s.advance t) s' 0x6109 ch seq 0 ∧ Raises (s.advance t) s' 0x610A ch) ∧
        (s.followed = true →
          ∃ s', exec (.garnetCheck t ch seq pchk) s = .next s' ∧ s'.base = .standby ∧ s'.get PR_STAT_DEMOTED = 1 ∧
            s'.get PR_GARNET_STAT_FAILS = (s.get PR_GARNET_STAT_FAILS + 1) % 2 ^ 16 ∧ s'.pair.yieldCause = 1 ∧
            s'.pair.rank = 0 ∧ Raises (s.advance t) s' 0x610A ch)) ∧
      -- the first within a focus that a head's mismatch began attributes that mismatch
      (∀ f, pchk ≠ x.pchk → s.pair.focus = [f] → f.ch = ch → f.fromMm = true → s.authoritative = true →
        ∃ s', exec (.garnetCheck t ch seq pchk) s = .next s' ∧ s'.pair.focus = [⟨ch, 16, false⟩] ∧ s'.base = s.base ∧
          s'.get PR_MM_STAT_ATTRIBUTED = (s.get PR_MM_STAT_ATTRIBUTED + 1) % 2 ^ 16 ∧
          s'.get PR_GARNET_STAT_FAILS = s.get PR_GARNET_STAT_FAILS ∧ Reports (s.advance t) s' 0x6109 ch seq 0)) ∧
    -- 16 checked lines with no second miscompare end the focus
    (∀ f, s.pair.focus = [f] → f.ch = ch → f.left = 0 → f.fromMm = false → s.pair.focusWait = [] →
      ∃ s', exec (.garnetFocusEnd t ch) s = .next s' ∧
        Rest { s.advance t with pair := { s.pair with focus := [] } } s') ∧
    (∀ f, s.pair.focus = [f] → f.ch = ch → f.left = 0 → f.fromMm = true → s.pair.focusWait = [] → s.base = .standby →
      s.pair.mms = [] → s.is PR_CFG_MM_LIMIT = true →
      ∃ s', exec (.garnetFocusEnd t ch) s = .next s' ∧ s'.pair.focus = [] ∧ s'.pair.mms = [(ch, (s.advance t).now)] ∧
        s'.get PR_MM_STAT_UNATTRIBUTED = (s.get PR_MM_STAT_UNATTRIBUTED + 1) % 2 ^ 16 ∧ s'.base = .standby ∧
        Reports (s.advance t) s' 0x610B ch 0 0)

/-- WATCHDOG_TRIP on a strobe longer than LIMIT trips the bar, counts it, disables it and raises 0x4202; a shorter one
does not. FIRE_INHIBIT enters SAFE with INH_PIN; INHIBIT_RELEASE clears it under AUTO only. (R298, R299, R301, R302,
R303, R304) -/
def Obligations.FiringInputs : Prop := ∀ (t : Nat) (s : State), s.core = .running →
    -- a strobe high for longer than LIMIT trips its bar's watchdog; one within it does not
    (∀ b high, b < 8 → s.get (FS_BAR_STB_LIMIT b) < high → s.get (FS_BAR_WD_TRIPPED b) = 0 →
      ∃ s', exec (.watchdogTrip t b high) s = .next s' ∧ s'.get (FS_BAR_WD_TRIPPED b) = 1 ∧ s'.get (FS_BAR_WD_SRC_PIN b) = 1 ∧
        s'.get (FS_BAR_WD_TRIPS b) = (s.get (FS_BAR_WD_TRIPS b) + 1) % 2 ^ 16 ∧
        s'.rd (FS_BAR_WD_TIME b) = (s.advance t).now % 2 ^ 32 ∧ s'.barEn b = false ∧ bit s'.fire.stbSense b = true ∧
        Reports (s.advance t) s' 0x4202 b 0 0 ∧ WordsKept s s' [FS_BAR_WD b, FS_BAR_WD_TIME b]) ∧
    (∀ b high, b < 8 → high ≤ s.get (FS_BAR_STB_LIMIT b) →
      ∃ s', exec (.watchdogTrip t b high) s = .next s' ∧ bit s'.fire.stbSense b = false ∧ WordsKept s s' []) ∧
    -- FIRE_INH_N low: SAFE with its cause, every bar disabled
    (s.fire.inhPin = true →
      ∃ s', exec (.fireInhibit t) s = .next s' ∧ s'.fire.inhPin = false ∧ s'.get FS_SAFE_STAT_INH_PIN = 1 ∧
        s'.get FS_SAFE_STAT_SAFE = 1 ∧ (∀ b, s'.barEn b = false) ∧ Reports (s.advance t) s' 0x4205 0 0 0 ∧
        WordsKept s s' (FS_SAFE_STAT :: (List.range 96).map JL_STAT)) ∧
    -- released: with AUTO the cause clears, and SAFE with it where no other remains; without AUTO nothing clears
    (∀ high, s.get FS_INH_CFG_AUTO = 1 → s.get FS_INH_CFG_REL_MS * 1000000 ≤ high → s.get ⟨FS_SAFE_STAT, 4, 0⟩ = 1 →
      s.pair.clash = false → s.get FS_SAFE_STAT_SAFE = 1 →
      ∃ s', exec (.inhibitRelease t high) s = .next s' ∧ s'.fire.inhPin = true ∧ s'.get ⟨FS_SAFE_STAT, 4, 0⟩ = 0 ∧
        s'.get FS_SAFE_STAT_SAFE = 0 ∧ Reports (s.advance t) s' 0x4204 0 0 0 ∧ WordsKept s s' [FS_SAFE_STAT]) ∧
    (∀ high, s.get FS_INH_CFG_AUTO = 0 →
      ∃ s', exec (.inhibitRelease t high) s = .next s' ∧
        Rest { s.advance t with fire := { s.fire with inhPin := true } } s')

/-- IDRS_RECEIVED: a sound record of a one-head channel stands, with depth, revision, head count and the 64 bytes of
the record shown, and a further head is asked for. (R286, R288) -/
def Obligations.IdentityJudged : Prop := ∀ (t l : Nat) (r : IdrsRec) (s : State), s.core = .running → l < 96 →
    l < s.lanes.length → s.tstate l = tsEstablish → (s.laneSt l).identOk = false → (s.laneSt l).idents = [] →
    1 ≤ r.heads → r.heads ≤ 4 → 256 ≤ r.depth → r.nohead = false → s.identCheck r.slotBase r.ident = 0 →
    -- one head whose record is sound: the channel's identity stands
    (r.heads = 1 → r.head = 0 → identNozzles r.ident ≤ 8192 → r.depth < 2 ^ 16 → r.hdmRev < 2 ^ 16 →
      (beAt (s.ident l 0) 0 2 = 0x1D5E → identSerial (s.ident l 0) = identSerial r.ident) →
      ∃ s', exec (.idrsReceived t l r) s = .next s' ∧ (s'.laneSt l).identOk = true ∧ (s'.laneSt l).depth = r.depth ∧
        s'.get (JL_HDM_DEPTH l) = r.depth ∧ s'.get (JL_HDM_HDM_REV l) = r.hdmRev ∧ s'.get (JL_BAND_HEADS l) = 1 ∧
        (∀ k < 16, s'.rd (identAddr l 0 + 4 * k) = leAt r.ident (4 * k) 4) ∧
        s'.tstate l = (if (s.laneSt l).eqMine && (s.laneSt l).eqFar && (s.laneSt l).eyeOk then tsTimelock else tsEstablish)) ∧
    -- a further head is asked for
    (r.heads = 2 → r.head = 0 →
      ∃ s', exec (.idrsReceived t l r) s = .next s' ∧ (s'.laneSt l).identOk = false ∧
        s'.out = s.out ++ [.joend l (.idrq s.claim 1)] ∧ s'.tstate l = tsEstablish)

/-- TEMP_SAMPLE: a reading within range and close to the model is the temperature, and at 118 °C the unit enters
SHUTDOWN. THROTTLE_EVAL raises and lowers the step. PMBUS_POLL and PMB_ALERT read every enabled rail and show its
power, or its maximum where it is silent. DRAM_MR4_POLL takes the higher refresh rate. FATAL enters SHUTDOWN. (R466,
R467, R468, R469, R470, R473, R476, R478) -/
def Obligations.ThermalSteps : Prop := ∀ (t : Nat) (s : State), s.core = .running → s.trimmed = true →
    -- a reading within range and close to the model is the temperature
    (∀ (d : Int) (mv : Nat), s.get PW_TEMP_DIODE_FAIL = 0 → -500 ≤ d → d ≤ 1500 → s.pwr.track = [] → s.pwr.farSince = none →
      (d - tenths (s.towards s.pwr.tm (s.pwr.tamb + s.rise))).natAbs ≤ 200 →
      (d < 1180 →
        ∃ s', exec (.tempSample t d mv) s = .next s' ∧ s'.sget PW_TEMP_T = d ∧ s'.sget PW_SENSE_DIODE = d ∧
          s'.sget PW_SENSE_MODEL = d ∧ s'.get PW_SUP_STAT_VDD_MV = min mv 1023 ∧ s'.get PW_TEMP_DIODE_FAIL = 0 ∧
          s'.shutdown = false) ∧
      (1180 ≤ d →
        ∃ s', exec (.tempSample t d mv) s = .next s' ∧ s'.sget PW_TEMP_T = d ∧ s'.shutdown = true ∧ s'.base = .configured ∧
          s'.ao.thermTrip = true ∧ s'.pwr.shutAt = some (s.advance t).now ∧ (∀ b, s'.barEn b = false) ∧
          -- PWR_EN is to fall 1 ms later, whatever happens to the core meanwhile
          s'.ao.fallAt = some (max s.clk t + 1000000))) ∧
    -- the throttle step rises every STEP_MS and falls every RELAX_MS
    (s.pwr.hot = true → s.get PW_TEMP_STEP < 7 →
      (s.advance t).past s.pwr.stepAt (s.get PW_THR_CFG_STEP_MS * 1000000) = true →
      ∃ s', exec (.throttleEval t) s = .next s' ∧ s'.get PW_TEMP_STEP = s.get PW_TEMP_STEP + 1 ∧
        s'.get PW_STEP_STAT_CHANGES = (s.get PW_STEP_STAT_CHANGES + 1) % 2 ^ 16 ∧
        s'.get PW_STEP_STAT_MAX_STEP = max (s.get PW_TEMP_STEP + 1) (s.get PW_STEP_STAT_MAX_STEP) ∧
        Reports (s.advance t) s' 0x1102 0 (s.get PW_TEMP_STEP + 1) 0) ∧
    (∀ a, s.pwr.hot = false → s.pwr.lowSince = some a → s.get PW_TEMP_STEP ≠ 0 → s.get PW_TEMP_DIODE_FAIL = 0 →
      (s.advance t).past a (s.get PW_THR_CFG_RELAX_MS * 1000000) = true →
      (s.advance t).past s.pwr.stepAt (s.get PW_THR_CFG_RELAX_MS * 1000000) = true →
      ∃ s', exec (.throttleEval t) s = .next s' ∧ s'.get PW_TEMP_STEP = s.get PW_TEMP_STEP - 1 ∧
        Reports (s.advance t) s' 0x1102 0 (s.get PW_TEMP_STEP - 1) 0) ∧
    -- an enabled rail that answers, and one silent for 10 ms
    (∀ (answers : List (Option PmbAnswer)) (n : Nat), n < 8 → s.get (PW_PMB_CFG_EN n) = 1 →
      ∀ c, c = Instr.pmbusPoll t answers ∨ c = Instr.pmbAlert t answers →
      (∀ r, answers.getD n none = some r →
        ∃ s', exec c s = .next s' ∧ s'.get (PW_RAIL_POWER n) = pmbPower r ∧ s'.get (PW_RAIL_STALE n) = 0 ∧
          Sent.pmbRead n (s.get (PW_PMB_CFG_ADDR n)) (s.get (PW_PMB_CFG_PAGE n)) ∈ s'.out ∧
          WordsKept s s' ((List.range 8).map PW_RAIL)) ∧
      (answers.getD n none = none → s.get (PW_RAIL_STALE n) = 0 → (s.advance t).past (s.pwr.railAt.getD n 0) 10000000 = true →
        ∃ s', exec c s = .next s' ∧ s'.get (PW_RAIL_POWER n) = railMax.getD n 0 ∧ s'.get (PW_RAIL_STALE n) = 1 ∧
          WordsKept s s' ((List.range 8).map PW_RAIL))) ∧
    -- the higher refresh rate of the band and MR4
    (∀ rate, ∃ s', exec (.dramMr4Poll t rate) s = .next s' ∧
      Rest { s.advance t with pwr := { s.pwr with
        mr4 := rate, refresh := max (if 3 ≤ s.get PW_TEMP_BAND then 2 else 1) rate } } s') ∧
    -- an uncorrectable error of critical SRAM: SHUTDOWN
    (∃ s', exec (.fatal t) s = .next s' ∧ s'.shutdown = true ∧ s'.base = .configured ∧ s'.ao.thermTrip = true ∧
      s'.pwr.shutAt = some (s.advance t).now ∧ s'.pwr.shutEntry = some ((s.advance t).storeWords 0x110F false) ∧
      s'.ao.fallAt = some (max s.clk t + 1000000) ∧
      s'.dcp.held = [] ∧ s'.pair.yieldCause = 2 ∧ ∀ b, s'.barEn b = false)

/-- RESET_RELEASE on a powered core, 1 ms after RESET_N and PWR_GOOD were last low (counted as log 41 says), samples
the straps, starts FRC at 0, records the nonce and the wake cause and enters BOOT; sooner it is not obeyed.
CONFIGURED_ENTRY under the MODE strap makes a service start, without it a normal boot: the image chosen as R452 says,
with its slot, SEQ and BUILD shown, or the fall-back; then trim, CONFIGURED, and with an image and a trained store
PAIRING or SINGLE. An image's records are applied as R453 says. A latched unit whose diode fails does not start.
VAO_REMOVE keeps the event store only. TAP_INSTRUCTION answers IDCODE with GL_DEV_ID, and SAMPLE and EXTEST with the
pins' levels (which cells there are: log 42). (R415, R439, R443, R452, R453, R454, R459, R480, R512, log 41, log 42)
-/
def Obligations.StartUp : Prop := ∀ (t : Nat) (s : State),
    -- RESET_N released on a powered core, 1 ms after it and PWR_GOOD were last low
    (∀ pairEn unitId mode nonce, s.core ≠ .running → s.ao.vao = true → s.ao.pwrEn = true → s.ao.fallAt = none →
      max s.ao.riseAt s.ao.lowAt + 1000000 ≤ max s.clk t → s.pwr.shutAt = none → nonce % 2 ^ 64 ≠ 0 →
      ∃ s', exec (.resetRelease t pairEn unitId mode nonce) s = .next s' ∧ s'.core = .running ∧ s'.base = .boot ∧
        s'.frc = 0 ∧ s'.pairEn = pairEn ∧ s'.unitId = unitId ∧ s'.modeStrap = mode ∧
        s'.rd HP_BOOT_NONCE_LO = nonce % 2 ^ 32 ∧ s'.rd HP_BOOT_NONCE_HI = nonce / 2 ^ 32 % 2 ^ 32 ∧
        s'.get BT_BOOT_STAT_PAIR_EN = b2n pairEn ∧ s'.get BT_BOOT_STAT_UNIT_ID = b2n unitId ∧
        s'.get BT_BOOT_STAT_MODE = b2n mode ∧
        s'.get BT_AO_STAT_WAKE_CAUSE = (if s.ao.rose then s.ao.cause else 2) % 2 ^ 3 ∧ s'.flash = s.flash ∧ s'.otp = s.otp) ∧
    -- sooner it is not obeyed
    (∀ pairEn unitId mode nonce, max s.clk t < max s.ao.riseAt s.ao.lowAt + 1000000 →
      exec (.resetRelease t pairEn unitId mode nonce) s = .next (s.advance t)) ∧
    -- the strap asks for no image: the service configuration, then trim, then CONFIGURED
    (∀ b : BootInputs, s.core = .running → s.base = .boot → s.modeStrap = true → s.get PW_SHUT_STAT_LATCHED = 0 →
      ∃ s', exec (.configuredEntry t b) s = .next s' ∧ s'.core = .running ∧ s'.base = .configured ∧
        s'.get GL_ROLE_STAT_SERVICE = 1 ∧ s'.get BT_BOOT_STAT_SERVICE = 1 ∧ s'.get BT_BOOT_STAT_SLOT = 2 ∧
        s'.get BT_TRIM_STAT_DONE = 1 ∧ s'.get BT_TRIM_CNT_COUNT = (s.get BT_TRIM_CNT_COUNT + 1) % 2 ^ 32 ∧
        s'.ao.thermTrip = false) ∧
    -- a normal boot: the image chosen of the flash, or without one the fall-back; then trim and CONFIGURED, and with an image
    -- and a trained store on to PAIRING or SINGLE
    (∀ b : BootInputs, s.core = .running → s.base = .boot → s.modeStrap = false → s.get PW_SHUT_STAT_LATCHED = 0 →
      b.flashOk = true → s.get GL_ROLE_STAT_SERVICE = 0 →
      ∃ s', exec (.configuredEntry t b) s = .next s' ∧ s'.core = .running ∧ s'.get BT_TRIM_STAT_DONE = 1 ∧
        s'.ao.thermTrip = false ∧ s'.get BT_BOOT_STAT_A_REASON = (s.otpRead b.keyFaults).imgChoose.1 % 16 ∧
        s'.get BT_BOOT_STAT_B_REASON = (s.otpRead b.keyFaults).imgChoose.2.1 % 16 ∧
        ((s.otpRead b.keyFaults).imgChoose.2.2 = none →
          s'.base = .configured ∧ s'.get GL_ROLE_STAT_SERVICE = 1 ∧ s'.get BT_BOOT_STAT_FALLBACK = 1 ∧
            s'.get BT_BOOT_STAT_SLOT = 2) ∧
        ∀ k l, (s.otpRead b.keyFaults).imgChoose.2.2 = some (k, l) →
          s'.get BT_BOOT_STAT_SLOT = k ∧ s'.get GL_ROLE_STAT_SERVICE = 0 ∧
            s'.rd BT_IMG_SEQ = (s.imgHdr k).seq % 2 ^ 32 ∧ s'.rd BT_IMG_BUILD = (s.imgHdr k).build % 2 ^ 32 ∧
            (b.ddrOk = false → s'.base = .configured) ∧
            (b.ddrOk = true → s.pairEn = true → s'.base = .pairing) ∧
            (b.ddrOk = true → s.pairEn = false → s'.base = .single ∧ s'.pair.holdsSeq = true ∧
              s'.rd PR_CLAIM = 320 + b2n s.unitId)) ∧
    -- the image chosen is sound, and no sound one is preferred to it: of the higher SEQ, slot A where both are equal
    ((s.imgChoose.2.2 = none → ∀ k < 2, (s.imgHdr k).reason = 0 → (s.slotRead k (s.imgHdr k)).1 ≠ 0) ∧
      ∀ k l, s.imgChoose.2.2 = some (k, l) → k < 2 ∧ (s.imgHdr k).reason = 0 ∧ s.slotRead k (s.imgHdr k) = (0, l) ∧
        ∀ m < 2, m ≠ k → (s.imgHdr m).reason = 0 → (s.slotRead m (s.imgHdr m)).1 = 0 →
          (s.imgHdr m).seq < (s.imgHdr k).seq ∨ ((s.imgHdr m).seq = (s.imgHdr k).seq ∧ k = 0)) ∧
    -- its records: a REG pair writes every writable field, an RWS field at once
    (∀ a v r, v < 2 ^ 32 → a % 4 = 0 → a < 0x120000 → regSpecAt a = some r → r.writable ≠ 0 → r.w1c = 0 → r.rwl = 0 →
      macReg a = false → instOf (MC_RGN_SIZE 0) 8 7 a = none →
      s.limitReg a (mixBits (s.held r a) v r.writable) r.writable = none →
      (s.imgRecord (1, [a, v])).rd a = mixBits (s.rd a) v r.writable % 2 ^ 32 ∧ WordsKept s (s.imgRecord (1, [a, v])) [a] ∧
        (s.imgRecord (1, [a, v])).out = s.out) ∧
    -- a field whose limit refuses the value stays as it is, and its register's other fields take theirs
    (∀ v < 2 ^ 32, bits v 15 8 = 0 →
      (s.imgRecord (1, [BY_GAIN_CFG, v])).get BY_GAIN_CFG_STEP = s.get BY_GAIN_CFG_STEP ∧
      (s.get BY_GAIN_CFG_STEP ≠ 0 → (s.imgRecord (1, [BY_GAIN_CFG, v])).get BY_GAIN_CFG_GMIN = bits v 27 16 ∧
        (s.imgRecord (1, [BY_GAIN_CFG, v])).get BY_GAIN_CFG_DEADBAND = bits v 7 0) ∧
      (s.imgRecord (1, [BY_GAIN_CFG, v])).get BT_IMG_REFUSED_COUNT = min (s.get BT_IMG_REFUSED_COUNT + 1) 65535 ∧
      Raises s (s.imgRecord (1, [BY_GAIN_CFG, v])) 0x1804 0) ∧
    -- a pair for no register is refused, one for a register without a writable field is ignored
    (∀ a v, a % 4 ≠ 0 ∨ 0x120000 ≤ a ∨ regSpecAt a = none →
      (s.imgRecord (1, [a, v])).get BT_IMG_REFUSED_COUNT = min (s.get BT_IMG_REFUSED_COUNT + 1) 65535 ∧
        Raises s (s.imgRecord (1, [a, v])) 0x1804 0 ∧ WordsKept s (s.imgRecord (1, [a, v])) [BT_IMG_REFUSED]) ∧
    (∀ a v r, a % 4 = 0 → a < 0x120000 → regSpecAt a = some r → r.writable = 0 → s.imgRecord (1, [a, v]) = s) ∧
    -- a WIN record is taken whole or not at all; a MASTER record sets the master table
    (∀ base v, base % 4 = 0 → rwWindow base = true → s.limitTable base v 0xFFFFFFFF = none → s.limitCamTable base = none →
      (s.imgRecord (2, [base, v])).rd base = mixBits (s.rd base) v (tableMask base) % 2 ^ 32 ∧
        WordsKept s (s.imgRecord (2, [base, v])) [base]) ∧
    (∀ base v w, base % 4 ≠ 0 ∨ rwWindow base = false ∨ (s.limitTable base v 0xFFFFFFFF).isSome = true ∨
        (s.limitCamTable base).isSome = true →
      (s.imgRecord (2, [base, v, w])).get BT_IMG_REFUSED_COUNT = min (s.get BT_IMG_REFUSED_COUNT + 1) 65535 ∧
        Raises s (s.imgRecord (2, [base, v, w])) 0x1804 0 ∧ WordsKept s (s.imgRecord (2, [base, v, w])) [BT_IMG_REFUSED]) ∧
    (∀ w0 w1 w2 w3, ∀ n < 4, (s.imgRecord (3, [w0, w1, w2, w3])).rd (HP_MST_CFG n) = masterWord ([w0, w1, w2, w3].getD n 0)) ∧
    -- a latched unit whose diode fails does not start
    (∀ b : BootInputs, s.core = .running → s.base = .boot → s.modeStrap = true → s.get PW_SHUT_STAT_LATCHED = 1 →
      b.diodeOk = false → s.pwr.shutAt = none →
      ∃ s', exec (.configuredEntry t b) s = .next s' ∧ s'.core = .unpowered ∧ s'.base = .off ∧ s'.ao.pwrEn = false) ∧
    -- VAO removed: what it keeps goes, the event store stays
    (s.pwr.shutAt = none →
      ∃ s', exec (.vaoRemove t) s = .next s' ∧ s'.core = .unpowered ∧ s'.base = .off ∧
        s'.ao = { AlwaysOn.reset with vao := false, pwrEn := false, nvReported := s.ao.nvReported } ∧
        s'.get PW_SHUT_STAT_LATCHED = 0 ∧ s'.get PW_SHUT_STAT_NV_COUNT = s.get PW_SHUT_STAT_NV_COUNT ∧
        s'.get BT_TRIM_CNT_COUNT = 0 ∧ (∀ n < 1024, ∀ k < 4, s'.rd (storeWin n + 4 * k) = s.rd (storeWin n + 4 * k)) ∧
        s'.flash = s.flash ∧ s'.otp = s.otp) ∧
    -- the TAP: IDCODE gives the device's identity; SAMPLE and EXTEST shift the pins' levels out and the cells' values in
    (∀ i, exec (.tapInstruction t i) s = .next { s.advance t with
      tap := i
      cells := match i with
        | .sample c | .extest c => c
        | .bypass | .idcode | .highz | .clamp => s.cells
      out := match i with
        | .idcode => s.out ++ [.tapId (s.rd GL_DEV_ID)]
        | .sample _ | .extest _ => s.out ++ [.tapScan (pinsOf.map (s.advance t).pin)]
        | .bypass | .highz | .clamp => s.out }) ∧
    -- while it holds the pins, no bar is enabled
    (s.tapPins = true → ∀ b, s.pin (.barEn b) = some false)

/-- Requests to the unit's own address are answered and others are not; frames that MP drops are counted; a DCP
message on a DP port changes nothing, has no answer and raises 0x7103; MP_LINK_DOWN discards what has not committed
without an answer; EVENT_PUSH sends at most 48 records. (R24) -/
def Obligations.NetworkServices : Prop := ∀ (t : Nat) (s : State), s.core = .running →
    (∀ port src target, port < 3 → s.netUp port = true → target ≠ 0 →
      (target = s.ip4 port → ∃ s', exec (.arpRequest t port src target) s = .next s' ∧
        Rest ((s.advance t).emit (.arp port src)) s') ∧
      (target = s.ip6 port → ∃ s', exec (.neighborSolicitation t port src target) s = .next s' ∧
        Rest ((s.advance t).emit (.neighbor port src)) s') ∧
      (∀ v6, target = (if v6 then s.ip6 port else s.ip4 port) → ∃ s', exec (.echoRequest t port src target v6) s = .next s' ∧
        Rest ((s.advance t).emit (.echo port src)) s')) ∧
    -- what is not addressed to the unit gets no answer
    (∀ port src target, target ≠ s.ip4 port → ∃ s', exec (.arpRequest t port src target) s = .next s' ∧ Rest (s.advance t) s') ∧
    -- frames that MP drops, and a DCP message on a DP port
    (∀ k, s.get HP_MP_STAT_LINK = 1 → s.base ≠ .boot → s.base ≠ .trim →
      (k = .tagged ∨ k = .fragment ∨ k = .other → ∃ s', exec (.mpFrameDropped t k) s = .next s' ∧
        Rest ((s.advance t).put HP_RX_DROP_MP (s.get HP_RX_DROP_MP + 1)) s') ∧
      (k = .oversize ∨ k = .malformed → ∃ s', exec (.mpFrameDropped t k) s = .next s' ∧
        Rest ((s.advance t).put HP_DCP_STAT_DROPPED (s.get HP_DCP_STAT_DROPPED + 1)) s')) ∧
    (∀ port, port < 2 → ∃ s', exec (.dcpOnDp t port) s = .next s' ∧ Rest (s.advance t) s' ∧
      Reports (s.advance t) s' 0x7103 port 0 0) ∧
    -- MP's link: what has not committed goes, without an answer
    (s.get HP_MP_STAT_LINK = 1 →
      ∃ s', exec (.mpLinkDown t) s = .next s' ∧ Reports (s.advance t) s' 0x7108 0 0 0 ∧
        Rest (({ s.advance t with dcp := { s.dcp with held := [], await := [], mpLost := true } }.put HP_MP_STAT_LINK 0).put HP_MP_STAT_LOSSES
          (s.get HP_MP_STAT_LOSSES + 1)) s') ∧
    (s.get HP_MP_STAT_LINK = 0 →
      ∃ s', exec (.mpLinkUp t) s = .next s' ∧ Rest ((s.advance t).put HP_MP_STAT_LINK 1) s' ∧
        (s.dcp.mpLost = true → Reports (s.advance t) s' 0x7108 0 1 0) ∧ (s.dcp.mpLost = false → s'.events = s.events)) ∧
    -- an EVENT message: at most 48 records, once 48 are gathered or 1 ms after the first
    (∀ m p dst, s.hostUp = true → m < 4 → s.dcp.push[m]? = some p → p.dst = some dst → s.get HP_MP_STAT_LINK = 1 → p.recs ≠ [] →
      48 ≤ p.recs.length ∨ (s.advance t).past p.since 1000000 = true →
      ∃ s' mac, exec (.eventPush t m) s = .next s' ∧ s'.out = s.out ++ [.event m dst (p.count + 1) (p.recs.take 48) mac] ∧
        WordsKept s s' [])

/-- REC_POST_DONE freezes after the post-trigger share; SNAPSHOT sets when the next is due; REC_ARM, REC_TRIGGER and
REC_FREEZE act as they commit; REPLAY_ENTER needs an idle unpaired SINGLE unit; REPLAY_RUN starts at the start entry
with its time and script, and is BAD_STATE where a slot that the recording names is not held with its digest. (R492,
R493, R494, R495, R496) -/
def Obligations.RecorderSteps : Prop :=
    (∀ (t : Nat) (s : State), s.core = .running →
      (s.get AG_STAT_STATE = 2 → s.rgnSize 6 * s.get AG_TRIG_CFG_POST_PCT ≤ s.agate.postBytes * 100 →
        ∃ s', exec (.recPostDone t) s = .next s' ∧ s'.get AG_STAT_STATE = 3 ∧ Reports (s.advance t) s' 0x8102 0 0 0 ∧
          Rest (s.advance t) s') ∧
      (∀ d, s.agate.snapDue = some d → s.recording = true → d ≤ (s.advance t).now →
        ∃ s', exec (.snapshot t) s = .next s' ∧ Rest (s.advance t) s' ∧
          s'.agate.snapDue = (if s.get AG_CFG_SNAP_S = 0 then none
            else some ((s.advance t).now + s.get AG_CFG_SNAP_S * 1000000000)))) ∧
    -- ARM, TRIGGER and FREEZE as they commit; ARM is BUSY while an RDREQ on the ring is being answered
    (∀ s : State, s.rgnSize 6 = 0 ∨ s.get AG_RP_STAT_MODE ≠ 0 →
      s.commitGo 0x02 [AG_CTRL, 1, 1] = (.of stBadState 0, s)) ∧
    (∀ s : State, s.rgnSize 6 ≠ 0 → s.get AG_RP_STAT_MODE = 0 → s.ringReads ≠ [] →
      s.commitGo 0x02 [AG_CTRL, 1, 1] = (.of stBusy 0, s)) ∧
    (∀ s : State, s.rgnSize 6 ≠ 0 → s.get AG_RP_STAT_MODE = 0 → s.ringReads = [] → s.recording = false →
      ∃ s', s.commitGo 0x02 [AG_CTRL, 1, 1] = (.ok, s') ∧ s'.get AG_STAT_STATE = 1 ∧ s'.agate.whole = [] ∧
        s'.agate.next = 64 ∧ s'.agate.snapDue = some s.now ∧ Rest s s') ∧
    (∀ s : State, ∃ s', s.commitGo 0x02 [AG_CTRL, 2, 2] = (.ok, s') ∧ Rest s s' ∧
      (s.get AG_STAT_STATE ≠ 3 → ∃ e ∈ s'.events, e.code = 0x8101 ∧ e.arg1 = 2) ∧
      (s.get AG_STAT_STATE = 3 → s'.events = s.events)) ∧
    (∀ s : State, s.recording = true → ∃ s', s.commitGo 0x02 [AG_CTRL, 4, 4] = (.ok, s') ∧ s'.get AG_STAT_STATE = 3 ∧
      Reports s s' 0x8102 0 0 0 ∧ Rest s s') ∧
    -- the way into replay, and where it is barred
    (∀ s : State, s.base = .single → s.pairEn = false → s.get PG_JOB_STAT_RUNNING = 0 →
      (∀ l < 96, s.get (LANE_STAT_TSTATE l) = 0) →
      ∃ s', s.commitGo 0x02 [AG_RP_CTRL, 1, 1] = (.ok, s') ∧ s'.get AG_RP_STAT_MODE = 1 ∧ s'.get GL_ROLE_STAT_REPLAY = 1 ∧
        s'.get AG_STAT_STATE = 0 ∧ (∀ b, s'.barEn b = false)) ∧
    (∀ s : State, s.base ≠ .single ∨ s.pairEn = true ∨ s.get PG_JOB_STAT_RUNNING = 1 →
      s.commitGo 0x02 [AG_RP_CTRL, 1, 1] = (.of stBadState 0, s)) ∧
    (∀ s : State, s.get AG_RP_STAT_MODE = 0 ∨ s.get AG_RP_STAT_MODE = 2 →
      s.commitGo 0x02 [AG_RP_CTRL, 2, 2] = (.of stBadState 0, s)) ∧
    (∀ (s : State) e tail stop later_, s.get AG_RP_STAT_MODE = 1 →
      s.recorded.dropWhile (·.seq != s.get AG_RP_START_SEQ) = e :: tail → e.kind = 0x0D → e.obj = 1 →
      (e :: tail).takeWhile (!·.isEnd) = [e] → tail = stop :: later_ →
      -- no slot named, or every one of them held with its digest
      ((later_.filter fun d => d.kind != 0 && d.kind != 0x0B).takeWhile fun d => d.kind == 6 && d.time == e.time).all (fun d =>
        let x := s.slotOf (leAt d.payload 0 4 / 65536) (leAt d.payload 0 4 % 65536) (leAt d.payload 4 4)
        (x.state == stStored || x.state == stHeld) && x.digest == leAt d.payload 12 4) = true →
      ∃ s', s.commitGo 0x02 [AG_RP_CTRL, 2, 2] = (.ok, s') ∧ s'.get AG_RP_STAT_MODE = 2 ∧ s'.now = e.time % 2 ^ 64 ∧
        -- the copy of the snapshot's own tick stands in it already
        s'.agate.script = later_.filter fun d =>
          !later 32 d.seq (s'.get AG_RP_END_SEQ) && !(d.kind == 3 && decide (d.time ≤ e.time))) ∧
    (∀ (s : State) e tail stop later_ d rest, s.get AG_RP_STAT_MODE = 1 →
      s.recorded.dropWhile (·.seq != s.get AG_RP_START_SEQ) = e :: tail → e.kind = 0x0D → e.obj = 1 →
      (e :: tail).takeWhile (!·.isEnd) = [e] → tail = stop :: later_ →
      (later_.filter fun d => d.kind != 0 && d.kind != 0x0B) = d :: rest → d.kind = 6 → d.time = e.time →
      (s.slotOf (leAt d.payload 0 4 / 65536) (leAt d.payload 0 4 % 65536) (leAt d.payload 4 4)).digest ≠ leAt d.payload 12 4 →
      s.commitGo 0x02 [AG_RP_CTRL, 2, 2] = (.of stBadState 0, s))

/-- Each has the effect of its rule or its refusal: the encoder source, a pair re-formed, a planned switchover,
REVIVE, RESET_EST, FORCE and REG_CLR, a strip closed early or, with C3 shed, once it has tokens, an ARM at once on an
idle bar and BUSY while one is pending, a table loaded whole or not at all. (R29, R98, R161, R182, R353, R354, R361,
R398, R423, R530) -/
def Obligations.RegisterCommits : Prop := ∀ s : State,
    (s.selFailed = false → s.trkFailed = false →
      ∃ s', s.commitGo 0x02 [WP_SRC_CTRL, 1, 1] = (.ok, s') ∧ s'.web.onSec = (!s.web.onSec) ∧
        s'.web.p = (s.posAt s.now * 65536).floor ∧ s'.get WP_SRC_STAT_SELECTED = s.trkEnc ∧ s'.web.encs = s.web.encs) ∧
    (s.selFailed = true ∨ s.trkFailed = true → s.commitGo 0x02 [WP_SRC_CTRL, 1, 1] = (.of stBadState 0, s)) ∧
    (∀ on, s.web.onSec = on → s.restorable on = true →
      ∃ s', s.commitGo 0x02 [WP_SRC_CTRL, 2, 2] = (.ok, s') ∧ s'.get (failedFld on) = 0 ∧ s'.get WP_SRC_STAT_LOST = 0) ∧
    (s.restorable false = false → s.restorable true = false →
      s.commitGo 0x02 [WP_SRC_CTRL, 2, 2] = (.of stBadState 0, s)) ∧
    -- a pair re-formed
    (∀ v < 16, bits v 1 0 ≠ bits v 3 2 → s.get PG_JOB_STAT_RUNNING = 0 → bits (s.rd WP_ENC_CFG) 15 8 ≠ 0 →
      bits (s.rd WP_ENC_CFG) 3 0 ≠ v →
      ∃ s', s.commitGo 0x02 [WP_ENC_CFG, 0xF, v] = (.ok, s') ∧ bits (s'.rd WP_ENC_CFG) 3 0 = v ∧ s'.web.onSec = false ∧
        s'.web.p = s.web.p ∧ s'.web.ps = s.web.p ∧ s'.get WP_SRC_STAT_PRI_FAILED = 0 ∧ s'.get WP_SRC_STAT_SEC_FAILED = 0 ∧
        s'.get WP_SRC_STAT_LOST = 0) ∧
    (∀ v < 16, bits v 1 0 ≠ bits v 3 2 → bits (s.rd WP_ENC_CFG) 15 8 ≠ 0 → s.get PG_JOB_STAT_RUNNING = 1 →
      s.commitGo 0x02 [WP_ENC_CFG, 0xF, v] = (.of stBusy 0, s)) ∧
    -- a planned switchover begins, or is refused
    (s.base = .active → s.followed = true → bits s.pair.partnerFlags 3 0 = 2 → bit s.pair.partnerFlags 5 = false →
      s.pair.partnerLocked = true → s.partnerCovers = true → s.pair.switchAt = none → s.pair.epoch < 0xFFFFFF →
      ∃ s', s.commitGo 0x02 [PR_CTRL, 1, 1] = (.ok, s') ∧ s'.pair.switchAt = some (s.tick * 250000) ∧
        s'.get PR_STAT_SWITCH_PENDING = 1 ∧ s'.base = .active ∧ WordsKept s s' [PR_STAT]) ∧
    (s.base ≠ .active ∨ s.followed = false ∨ s.partnerCovers = false →
      s.commitGo 0x02 [PR_CTRL, 1, 1] = (.of stBadState 0, s)) ∧
    -- Beryl's bars
    (∀ b < 8, b < s.beryl.bars.length →
      (∃ s', s.commitGo 0x02 [BY_BAR_CTRL b, 1, 1] = (.ok, s') ∧ s'.byBar b = { s.byBar b with revive := true } ∧
        (∀ m, m ≠ b → s'.byBar m = s.byBar m) ∧ WordsKept s s' []) ∧
      (∃ s', s.commitGo 0x02 [BY_BAR_CTRL b, 2, 2] = (.ok, s') ∧ (∀ m < 12, m ∈ (s'.byBar b).resetSegs) ∧
        (∀ m, m ≠ b → s'.byBar m = s.byBar m) ∧ Reports s s' 0x5209 b 0 0) ∧
      ∃ s', s.commitGo 0x02 [BY_STRIP_CTRL, 0xFF, 2 ^ b] = (.ok, s') ∧ (s'.byBar b).forced = true ∧
        (∀ m, m ≠ b → s'.byBar m = s.byBar m) ∧ WordsKept s s' []) ∧
    (s.authoritative = true →
      ∃ s', s.commitGo 0x02 [BY_CTRL, 0x400, 0x400] = (.ok, s') ∧ ∀ b < 8, s'.get (WP_BAR_REG_AUTO_REG b) = 0) ∧
    -- a strip of an encoder closed at once, or, while C3 has no tokens, as soon as it has
    (∀ n < 4, s.screen.streams.find? (fun x => x.enc == n && !x.rows.isEmpty) = none →
      ∃ s', s.commitGo 0x02 [CS_ENC_CTRL n, 1, 1] = (.ok, s') ∧ s'.screen = s.screen ∧ WordsKept s s' []) ∧
    (∀ n x, n < 4 → s.screen.streams = [x] → x.enc = n → x.rows ≠ [] → s.c3Shed = true →
      ∃ s', s.commitGo 0x02 [CS_ENC_CTRL n, 1, 1] = (.ok, s') ∧ s'.screen.streams = [{ x with closing := true }]) ∧
    (∀ n x, n < 4 → s.screen.streams = [x] → x.enc = n → x.rows ≠ [] → s.c3Shed = false →
      ∃ s' y, s.commitGo 0x02 [CS_ENC_CTRL n, 1, 1] = (.ok, s') ∧ s'.screen.streams = [y] ∧ y.rows = [] ∧ y.enc = n ∧
        s'.get (CS_ENC_STAT_LINES_PENDING n) = 0) ∧
    (∀ n < 4, s.c3Shed = false → ∃ s', s.commitGo 0x02 [CS_ENC_CTRL n, 1, 1] = (.ok, s') ∧ s'.get (CS_ENC_STAT_LINES_PENDING n) = 0 ∧
      (∀ x ∈ s'.screen.streams, x.enc = n → x.rows = [])) ∧
    -- ARM: one change pending at a time; on an idle bar it takes effect at once
    (∀ b < 8, s.get (SC_BAR_APPLY_CTRL_PENDING b) = 1 →
      s.commitGo 0x02 [SC_BAR_APPLY_CTRL b, 0x200, 0x200] = (.of stBusy 0, s)) ∧
    (∀ b < 8, s.get (SC_BAR_APPLY_CTRL_PENDING b) = 0 → s.barIdle b = true → s.get (SC_BAR_APPLY_CTRL_SWAP b) = 0 →
      s.get (SC_BAR_APPLY_CTRL_SET_TONE b) = 1 →
      ∃ s', s.commitGo 0x02 [SC_BAR_APPLY_CTRL b, 0x200, 0x200] = (.ok, s') ∧ Reports s s' 0x3404 b 0 0 ∧
        s'.get (SC_BAR_APPLY_CTRL_LIVE_SET b) = s.get (SC_BAR_APPLY_CTRL_TONE_SET b) ∧
        s'.get (SC_BAR_APPLY_CTRL_PENDING b) = 0 ∧
        s'.get (SC_BAR_APPLY_CNT_APPLIED b) = (s.get (SC_BAR_APPLY_CNT_APPLIED b) + 1) % 2 ^ 16 ∧
        WordsKept s s' [SC_BAR_APPLY_CTRL b, SC_BAR_APPLY_CNT b, SC_BAR_MISSING b, SC_BAR_WEAK b]) ∧
    -- TABLE_LOAD: every word of the table takes the image's value, or none does
    (∀ body, s.loadCheck body = none →
      (∀ w ∈ s.loadWords body, s.limitTable w.1 w.2 0xFFFFFFFF = none ∧ s.limitCamTable w.1 = none) →
      ∃ s', s.commitGo 0x18 body = (.ok, s') ∧
        (∀ w ∈ s.loadWords body, s'.rd w.1 = mixBits (s.rd w.1) w.2 (tableMask w.1) % 2 ^ 32) ∧
        (∀ a, (∀ w ∈ s.loadWords body, w.1 ≠ a) → s'.rd a = s.rd a) ∧ s'.mem = s.mem) ∧
    (∀ body, s.loadCheck body = none →
      (∃ w ∈ s.loadWords body, ((s.limitTable w.1 w.2 0xFFFFFFFF).orElse' (s.limitCamTable w.1)).isSome = true) →
      ∃ st d, st ≠ stOk ∧ s.commitGo 0x18 body = (.of st d, s))

/-- A count n ≥ 1 is coded as floor(log2 n) zero bits and n in one bit more, and reads back as n with the rest left,
for every count up to 2^18 − 1; more than 17 leading zero bits are a code error. A valid SOLID strip decodes to FILL
in every sample whatever bytes follow its header. (R84, R85) -/
def Obligations.CasserCountsAndSolid : Prop :=
    (∀ (n : Nat) (rest : List Bool), 1 ≤ n → n < 2 ^ 18 →
      countBits n = List.replicate n.log2 false ++ natBits (n.log2 + 1) n ∧
      readCount (List.replicate n.log2 false ++ natBits (n.log2 + 1) n ++ rest) = .ok (n, rest)) ∧
    (∀ bs : List Bool, 17 < bs.length → (∀ i < 18, bs[i]? = some false) → readCount bs = .error 3) ∧
    ∀ (g : StripGeom) (head tail : List Byte) (h : StripHdr), head.length = 16 → StripHdr.parse head = h →
      h.valid = true → h.fits g = true → h.mode = 3 →
      h.crc = crc32c (rawForm g.bps g.widthM1 g.linesM1 (List.replicate g.count h.fill)) →
      decodeStrip g (head ++ tail) = ⟨List.replicate g.count h.fill, 0⟩

/-- For every strip geometry, every MODE_EN and every list of samples of its size and width, the strip the encoder
writes decodes without error to exactly those samples, and is at most RAWLEN + 16 bytes long; with every coded mode
excluded it is the RAW strip. (R81, R82, R83, R87, R89, R92, R96, R97) -/
def Obligations.EncodedStripsDecode : Prop :=
    ∀ (g : StripGeom) (modeEn : Nat) (ss : List Nat), g.bps < 4 → g.widthM1 < 4096 → g.linesM1 < 32 →
      (g.flushed = true → g.last = true) → ss.length = g.count → (∀ v ∈ ss, v < 2 ^ bpsBits g.bps) →
      decodeStrip g (encodeStrip g modeEn ss) = ⟨ss, 0⟩ ∧
      (encodeStrip g modeEn ss).length ≤ g.rawLen + 16 ∧
      (modeEn % 8 = 0 → encodeStrip g modeEn ss =
        (StripHdr.mk 0xCA55 1 0 g.bps g.linesM1 g.last g.flushed g.widthM1 g.rawLen
          (crc32c (rawForm g.bps g.widthM1 g.linesM1 ss)) 0 0).bytes ++ rawForm g.bps g.widthM1 g.linesM1 ss)
end

