-- ==== Sys2Proof/Laws/Sparse.lean ====
section
/-! SUPPORT. Laws of sparse memories: a read after a write, and that every operation keeps the canonical form. -/

namespace Sys2Proof.Machine

variable {β : Type} [DecidableEq β] (d : Nat → β)

theorem sget_sdrop_same (m : List (Nat × β)) (a : Nat) : sget d (sdrop a m) a = d a := by
  induction m with
  | nil => rfl
  | cons p m ih =>
    simp only [sdrop]
    split
    · exact ih
    · rename_i h
      simp only [sget, if_neg (Ne.symm h), ih]

theorem sget_sdrop_ne (m : List (Nat × β)) {a b : Nat} (h : b ≠ a) : sget d (sdrop a m) b = sget d m b := by
  induction m with
  | nil => rfl
  | cons p m ih =>
    simp only [sdrop]
    split
    · subst_vars; rw [ih]; simp only [sget, if_neg h]
    · simp only [sget, ih]

theorem sget_sins_same (m : List (Nat × β)) (a : Nat) (v : β) (h : ∀ p ∈ m, p.1 ≠ a) :
    sget d (sins a v m) a = v := by
  induction m with
  | nil => simp [sins, sget]
  | cons p m ih =>
    simp only [sins]
    split
    · simp [sget]
    · simp only [sget]
      rw [if_neg (Ne.symm (h p (by simp)))]
      exact ih fun q hq => h q (by simp [hq])

theorem sget_sins_ne (m : List (Nat × β)) {a b : Nat} (v : β) (h : b ≠ a) :
    sget d (sins a v m) b = sget d m b := by
  induction m with
  | nil => simp [sins, sget, h]
  | cons p m ih =>
    simp only [sins]
    split
    · simp [sget, h]
    · simp only [sget, ih]

theorem ne_of_mem_sdrop {m : List (Nat × β)} {a : Nat} : ∀ p ∈ sdrop a m, p.1 ≠ a := by
  induction m with
  | nil => simp [sdrop]
  | cons q m ih =>
    simp only [sdrop]
    split
    · exact ih
    · intro p hp
      rcases List.mem_cons.1 hp with rfl | hp
      · assumption
      · exact ih p hp

/-- A read after a write to the same address gives the value written. -/
@[simp] theorem sget_sput_same (m : List (Nat × β)) (a : Nat) (v : β) : sget d (sput d m a v) a = v := by
  simp only [sput]
  split
  · rw [sget_sdrop_same]; exact (‹v = d a›).symm
  · exact sget_sins_same d _ a v ne_of_mem_sdrop

/-- A write leaves every other address alone. -/
theorem sget_sput_ne (m : List (Nat × β)) {a b : Nat} (v : β) (h : b ≠ a) :
    sget d (sput d m a v) b = sget d m b := by
  simp only [sput]
  split
  · exact sget_sdrop_ne d m h
  · rw [sget_sins_ne d _ v h, sget_sdrop_ne d m h]

theorem swfFrom_mono {m : List (Nat × β)} {lo hi : Nat} (h : lo ≤ hi) (hm : swfFrom d hi m = true) :
    swfFrom d lo m = true := by
  cases m with
  | nil => rfl
  | cons p m =>
    simp only [swfFrom, Bool.and_eq_true, decide_eq_true_eq] at hm ⊢
    exact ⟨⟨by omega, hm.1.2⟩, hm.2⟩

theorem swfFrom_sdrop {m : List (Nat × β)} {lo : Nat} (a : Nat) (hm : swfFrom d lo m = true) :
    swfFrom d lo (sdrop a m) = true := by
  induction m generalizing lo with
  | nil => rfl
  | cons p m ih =>
    simp only [swfFrom, Bool.and_eq_true, decide_eq_true_eq] at hm
    simp only [sdrop]
    split
    · exact swfFrom_mono d (by omega) (ih hm.2)
    · simp only [swfFrom, Bool.and_eq_true, decide_eq_true_eq]
      exact ⟨hm.1, ih hm.2⟩

theorem swfFrom_sins {m : List (Nat × β)} {lo a : Nat} {v : β} (hv : v ≠ d a) (ha : lo ≤ a)
    (hn : ∀ p ∈ m, p.1 ≠ a) (hm : swfFrom d lo m = true) : swfFrom d lo (sins a v m) = true := by
  induction m generalizing lo with
  | nil => simp [sins, swfFrom, hv, ha]
  | cons p m ih =>
    have hm' := hm
    simp only [swfFrom, Bool.and_eq_true, decide_eq_true_eq] at hm
    simp only [sins]
    split
    · simp only [swfFrom, Bool.and_eq_true, decide_eq_true_eq]
      exact ⟨⟨ha, by simpa using hv⟩, ⟨by omega, hm.1.2⟩, hm.2⟩
    · simp only [swfFrom, Bool.and_eq_true, decide_eq_true_eq]
      have hp := hn p (by simp)
      exact ⟨hm.1, ih (by omega) (fun q hq => hn q (by simp [hq])) hm.2⟩

theorem swf_nil : swf d ([] : List (Nat × β)) = true := rfl

/-- A write keeps the canonical form. -/
theorem swf_sput {m : List (Nat × β)} (a : Nat) (v : β) (hm : swf d m = true) : swf d (sput d m a v) = true := by
  simp only [sput]
  split
  · exact swfFrom_sdrop d a hm
  · exact swfFrom_sins d ‹_› (Nat.zero_le a) ne_of_mem_sdrop (swfFrom_sdrop d a hm)

theorem swfFrom_skeep (keep : Nat → Bool) {m : List (Nat × β)} {lo : Nat} (hm : swfFrom d lo m = true) :
    swfFrom d lo (skeep keep m) = true := by
  induction m generalizing lo with
  | nil => rfl
  | cons p m ih =>
    simp only [swfFrom, Bool.and_eq_true, decide_eq_true_eq] at hm
    have := ih hm.2
    simp only [skeep, List.filter_cons] at this ⊢
    split
    · simp only [swfFrom, Bool.and_eq_true, decide_eq_true_eq]
      exact ⟨hm.1, this⟩
    · exact swfFrom_mono d (by omega) this

theorem swf_skeep (keep : Nat → Bool) {m : List (Nat × β)} (hm : swf d m = true) : swf d (skeep keep m) = true :=
  swfFrom_skeep d keep hm

/-- Lists in canonical form, the second beyond the first, join into one. -/
theorem swfFrom_append {m k : List (Nat × β)} {lo hi : Nat} (hm : swfFrom d lo m = true) (hk : swfFrom d hi k = true)
    (hlo : lo ≤ hi) (hb : ∀ p ∈ m, p.1 < hi) : swfFrom d lo (m ++ k) = true := by
  induction m generalizing lo with
  | nil => exact swfFrom_mono d hlo hk
  | cons p m ih =>
    simp only [swfFrom, Bool.and_eq_true, decide_eq_true_eq] at hm
    simp only [List.cons_append, swfFrom, Bool.and_eq_true, decide_eq_true_eq]
    exact ⟨hm.1, ih hm.2 (hb p (by simp)) fun q hq => hb q (by simp [hq])⟩

theorem srun_bounds {a : Nat} {vs : List β} : ∀ p ∈ srun d a vs, a ≤ p.1 ∧ p.1 < a + vs.length := by
  induction vs generalizing a with
  | nil => simp [srun]
  | cons v vs ih =>
    intro p hp
    simp only [srun] at hp
    split at hp
    · have := ih p hp; simp only [List.length_cons]; omega
    · rcases List.mem_cons.1 hp with rfl | hp
      · simp
      · have := ih p hp; simp only [List.length_cons]; omega

theorem swfFrom_srun (a : Nat) (vs : List β) : swfFrom d a (srun d a vs) = true := by
  induction vs generalizing a with
  | nil => rfl
  | cons v vs ih =>
    simp only [srun]
    split
    · exact swfFrom_mono d (by omega) (ih (a + 1))
    · simp only [swfFrom, Bool.and_eq_true, decide_eq_true_eq]
      exact ⟨⟨by omega, by simpa using ‹¬v = d a›⟩, ih (a + 1)⟩

theorem swfFrom_raise {m : List (Nat × β)} {lo hi : Nat} (hm : swfFrom d lo m = true) (h : ∀ p ∈ m, hi ≤ p.1) :
    swfFrom d hi m = true := by
  cases m with
  | nil => rfl
  | cons p m =>
    simp only [swfFrom, Bool.and_eq_true, decide_eq_true_eq] at hm ⊢
    exact ⟨⟨h p (by simp), hm.1.2⟩, hm.2⟩

theorem mem_skeep {keep : Nat → Bool} {m : List (Nat × β)} {p : Nat × β} (h : p ∈ skeep keep m) : keep p.1 = true :=
  (List.mem_filter.1 h).2

/-- Writing consecutive values keeps the canonical form. -/
theorem swf_sputs {m : List (Nat × β)} (a : Nat) (vs : List β) (hm : swf d m = true) :
    swf d (sputs d m a vs) = true := by
  unfold swf sputs
  rw [List.append_assoc]
  have high : swfFrom d (a + vs.length) (skeep (fun b => decide (a + vs.length ≤ b)) m) = true :=
    swfFrom_raise d (swfFrom_skeep d _ hm) fun p hp => by simpa using mem_skeep hp
  refine swfFrom_append d (hi := a) (swfFrom_skeep d _ hm) ?_ (Nat.zero_le a) fun p hp => by simpa using mem_skeep hp
  exact swfFrom_append d (swfFrom_srun d a vs) high (by omega) fun p hp => (srun_bounds d p hp).2

theorem sget_append_left {m k : List (Nat × β)} {b : Nat} (h : ∀ p ∈ k, p.1 ≠ b) : sget d (m ++ k) b = sget d m b := by
  induction m with
  | nil =>
    induction k with
    | nil => rfl
    | cons p k ih =>
      simp only [List.nil_append, sget] at ih ⊢
      rw [if_neg (Ne.symm (h p (by simp)))]
      exact ih fun q hq => h q (by simp [hq])
  | cons p m ih => simp only [List.cons_append, sget, ih]

theorem sget_append_right {m k : List (Nat × β)} {b : Nat} (h : ∀ p ∈ m, p.1 ≠ b) : sget d (m ++ k) b = sget d k b := by
  induction m with
  | nil => rfl
  | cons p m ih =>
    simp only [List.cons_append, sget]
    rw [if_neg (Ne.symm (h p (by simp)))]
    exact ih fun q hq => h q (by simp [hq])

theorem sget_skeep {keep : Nat → Bool} {m : List (Nat × β)} {b : Nat} (h : keep b = true) :
    sget d (skeep keep m) b = sget d m b := by
  induction m with
  | nil => rfl
  | cons p m ih =>
    simp only [skeep, List.filter_cons] at ih ⊢
    split
    · simp only [sget, ih]
    · rename_i hk
      rw [ih]
      simp only [sget]
      rw [if_neg]
      rintro rfl
      exact hk h

theorem sget_skeep_off {keep : Nat → Bool} {m : List (Nat × β)} {b : Nat} (h : keep b = false) :
    sget d (skeep keep m) b = d b := by
  induction m with
  | nil => rfl
  | cons p m ih =>
    simp only [skeep, List.filter_cons] at ih ⊢
    split
    · rename_i hk
      simp only [sget]
      rw [if_neg (by rintro rfl; simp [h] at hk), ih]
    · exact ih

/-- A write of consecutive values leaves every other address alone. -/
theorem sget_sputs_ne (m : List (Nat × β)) (a : Nat) (vs : List β) {b : Nat} (h : b < a ∨ a + vs.length ≤ b) :
    sget d (sputs d m a vs) b = sget d m b := by
  unfold sputs
  rcases h with h | h
  · rw [List.append_assoc, sget_append_left, sget_skeep d (by simpa using h)]
    intro p hp
    rcases List.mem_append.1 hp with hp | hp
    · have := srun_bounds d p hp; omega
    · have : a + vs.length ≤ p.1 := by simpa using mem_skeep hp
      omega
  · rw [sget_append_right, sget_skeep d (by simpa using h)]
    intro p hp
    rcases List.mem_append.1 hp with hp | hp
    · have : p.1 < a := by simpa using mem_skeep hp
      omega
    · have := srun_bounds d p hp; omega

theorem length_sread (m : List (Nat × β)) (a n : Nat) : (sread d m a n).length = n := by
  induction n generalizing a m with
  | zero => cases m <;> simp [sread]
  | succ n ih =>
    cases m with
    | nil => simp [sread, ih]
    | cons p m => simp only [sread]; split <;> simp [ih]

theorem length_sgets (m : List (Nat × β)) (a n : Nat) : (sgets d m a n).length = n := length_sread d _ a n

end Sys2Proof.Machine
end

