-- ==== Sys2Proof/Laws/Words.lean ====
section
/-! SUPPORT. Laws of reading and writing registers and fields: each read after each write. -/

namespace Sys2Proof.Machine

variable {s : State} {a b v : Nat}

theorem rd_lt (s : State) (a : Nat) : s.rd a < 2 ^ 32 := (sget wordReset s.words a).isLt

@[simp] theorem rd_wr_same (s : State) (a v : Nat) : (s.wr a v).rd a = v % 2 ^ 32 := by
  simp [State.rd, State.wr]

theorem rd_wr_ne (s : State) (v : Nat) (h : b ≠ a) : (s.wr a v).rd b = s.rd b := by
  simp [State.rd, State.wr, sget_sput_ne _ _ _ h]

theorem rd_put_ne (s : State) (f : Fld) (v : Nat) (h : b ≠ f.addr) : (s.put f v).rd b = s.rd b := rd_wr_ne s _ h

theorem rd_put_same (s : State) (f : Fld) (v : Nat) (h : f.lo ≤ f.hi + 1) (hh : f.hi < 32) :
    (s.put f v).rd f.addr = setBits (s.rd f.addr) f.hi f.lo v := by
  rw [State.put, rd_wr_same, Nat.mod_eq_of_lt (setBits_lt h hh (rd_lt s _))]

/-- A field reads back what was written to it. -/
theorem get_put_same (s : State) (f : Fld) (v : Nat) (h : f.lo ≤ f.hi + 1) (hh : f.hi < 32) :
    (s.put f v).get f = v % 2 ^ (f.hi + 1 - f.lo) := by
  rw [State.get, rd_put_same s f v h hh, bits_setBits_same _ _ _ _ h]

/-- A field of another register is left alone. -/
theorem get_put_ne (s : State) (f g : Fld) (v : Nat) (h : g.addr ≠ f.addr) : (s.put f v).get g = s.get g := by
  rw [State.get, State.get, rd_put_ne s f v h]

/-- Another field of the same register is left alone. -/
theorem get_put_apart (s : State) (f g : Fld) (v : Nat) (h : f.lo ≤ f.hi + 1) (hh : f.hi < 32)
    (hd : f.hi < g.lo ∨ g.hi < f.lo) : (s.put f v).get g = s.get g := by
  by_cases e : g.addr = f.addr
  · rw [State.get, State.get, e, rd_put_same s f v h hh, bits_setBits_ne _ _ _ _ _ _ h hd]
  · exact get_put_ne s f g v e

theorem get_lt (s : State) (f : Fld) : s.get f < 2 ^ (f.hi + 1 - f.lo) := bits_lt _ _ _

@[simp] theorem advance_words (t : Nat) (s : State) : (s.advance t).words = s.words := rfl
@[simp] theorem rd_advance (t : Nat) (s : State) (a : Nat) : (s.advance t).rd a = s.rd a := rfl
@[simp] theorem get_advance (t : Nat) (s : State) (f : Fld) : (s.advance t).get f = s.get f := rfl
@[simp] theorem advance_core (t : Nat) (s : State) : (s.advance t).core = s.core := rfl
@[simp] theorem advance_events (t : Nat) (s : State) : (s.advance t).events = s.events := rfl

/-! The fields that writing a word leaves alone -/

@[simp] theorem wr_core (s : State) (a v : Nat) : (s.wr a v).core = s.core := rfl
@[simp] theorem wr_base (s : State) (a v : Nat) : (s.wr a v).base = s.base := rfl
@[simp] theorem wr_mem (s : State) (a v : Nat) : (s.wr a v).mem = s.mem := rfl
@[simp] theorem wr_events (s : State) (a v : Nat) : (s.wr a v).events = s.events := rfl
@[simp] theorem wr_agate (s : State) (a v : Nat) : (s.wr a v).agate = s.agate := rfl
@[simp] theorem wr_clk (s : State) (a v : Nat) : (s.wr a v).clk = s.clk := rfl
@[simp] theorem wr_bare (s : State) (a v : Nat) : (s.wr a v).bare = s.bare := rfl
@[simp] theorem put_core (s : State) (f : Fld) (v : Nat) : (s.put f v).core = s.core := rfl
@[simp] theorem put_base (s : State) (f : Fld) (v : Nat) : (s.put f v).base = s.base := rfl
@[simp] theorem put_mem (s : State) (f : Fld) (v : Nat) : (s.put f v).mem = s.mem := rfl
@[simp] theorem put_events (s : State) (f : Fld) (v : Nat) : (s.put f v).events = s.events := rfl
@[simp] theorem put_agate (s : State) (f : Fld) (v : Nat) : (s.put f v).agate = s.agate := rfl
@[simp] theorem put_bare (s : State) (f : Fld) (v : Nat) : (s.put f v).bare = s.bare := rfl
@[simp] theorem wr_now (s : State) (a v : Nat) (h : TB_OFS_CFG ≠ a) : (s.wr a v).now = s.now := by
  have e : (s.wr a v).get TB_OFS_CFG_SLEW_PPM = s.get TB_OFS_CFG_SLEW_PPM := by
    rw [State.get, State.get, rd_wr_ne s v h]
  simp only [State.now, State.devU, State.slewGain, e]; rfl

/-! Reading the whole of the ring's region -/

theorem rgnBase_congr {x y : State} {i : Nat} (h : x.rd (MC_RGN_BASE i) = y.rd (MC_RGN_BASE i)) :
    x.rgnBase i = y.rgnBase i := by simp [State.rgnBase, State.get, h]

theorem rgnSize_congr {x y : State} {i : Nat} (h : x.rd (MC_RGN_BASE i + 4) = y.rd (MC_RGN_BASE i + 4)) :
    x.rgnSize i = y.rgnSize i := by simp [State.rgnSize, h]

end Sys2Proof.Machine
end

