-- ==== Sys2Proof/Laws/Rest.lean ====
section
/-! SUPPORT. What raising an event, recording and marking waste leave alone, said once per operation with `Rest`. -/

namespace Sys2Proof.Machine

variable {s x y z : State}

theorem Rest.refl (s : State) : Rest s s := ⟨rfl, fun _ _ => rfl, rfl, rfl, rfl, fun _ _ => rfl⟩

theorem shown_rgnBase : MC_RGN_BASE 6 ∉ shown := by decide
theorem shown_rgnSize : MC_RGN_BASE 6 + 4 ∉ shown := by decide

theorem inRing_congr (h : ∀ a, a ∉ shown → y.rd a = x.rd a) (a : Nat) : y.inRing a = x.inRing a := by
  simp [State.inRing, rgnBase_congr (h _ shown_rgnBase), rgnSize_congr (h _ shown_rgnSize)]

theorem Rest.trans (h : Rest x y) (k : Rest y z) : Rest x z :=
  ⟨k.bare.trans h.bare, fun a ha => (k.words a ha).trans (h.words a ha), k.state.trans h.state,
    k.straps.trans h.straps, k.trim.trans h.trim,
    fun a ha => (k.mem a (by rw [inRing_congr h.words, ha])).trans (h.mem a ha)⟩

/-- Two states that differ in no word and no byte, and agree but for what `bare` drops. -/
theorem Rest.of_same (hb : y.bare = x.bare) (hw : y.words = x.words) (hm : y.mem = x.mem) : Rest x y := by
  have hr (a : Nat) : y.rd a = x.rd a := by simp [State.rd, hw]
  have hg (f : Fld) : y.get f = x.get f := by simp [State.get, hr]
  exact ⟨hb, fun a _ => hr a, hg _, hg _, hg _, fun a _ => by simp [State.byte, hm]⟩

theorem Rest.core (h : Rest x y) : y.core = x.core :=
  have e := congrArg State.core h.bare; e
theorem Rest.base (h : Rest x y) : y.base = x.base :=
  have e := congrArg State.base h.bare; e
theorem Rest.out (h : Rest x y) : y.out = x.out :=
  have e := congrArg State.out h.bare; e
theorem Rest.pending (h : Rest x y) : y.pending = x.pending :=
  have e := congrArg State.pending h.bare; e
theorem Rest.clk (h : Rest x y) : y.clk = x.clk :=
  have e := congrArg State.clk h.bare; e

/-- A field of a register outside `shown` reads the same. -/
theorem Rest.get (h : Rest x y) (f : Fld) (hf : f.addr ∉ shown) : y.get f = x.get f := by
  simp [State.get, h.words _ hf]

/-- Two states alike but for what is reported stay so when the same field of another register is written in both. -/
theorem Rest.put (h : Rest x y) (f : Fld) (v : Nat) (hl : f.lo ≤ f.hi + 1) (hh : f.hi < 32) (hs : f.addr ∉ shown)
    (hb : f.addr ≠ MC_RGN_BASE 6) (hz : f.addr ≠ MC_RGN_BASE 6 + 4) : Rest (x.put f v) (y.put f v) := by
  have g (k : Fld) (hk : k.addr ∈ shown) (e : y.get k = x.get k) : (y.put f v).get k = (x.put f v).get k := by
    have : k.addr ≠ f.addr := fun e => hs (e ▸ hk)
    rw [get_put_ne _ _ _ _ this, get_put_ne _ _ _ _ this, e]
  refine ⟨h.bare, fun a ha => ?_, g _ (by decide) h.state, g _ (by decide) h.straps, g _ (by decide) h.trim,
    fun a ha => h.mem a ?_⟩
  · by_cases e : a = f.addr
    · rw [e, rd_put_same _ _ _ hl hh, rd_put_same _ _ _ hl hh, h.words _ hs]
    · rw [rd_put_ne _ _ _ e, rd_put_ne _ _ _ e, h.words a ha]
  · rw [← ha]
    simp [State.inRing, rgnBase_congr (rd_put_ne x f v (Ne.symm hb)), rgnSize_congr (rd_put_ne x f v (Ne.symm hz))]

/-- The same, for what is sent. -/
theorem Rest.emit (h : Rest x y) (o : Sent) : Rest (x.emit o) (y.emit o) := by
  refine ⟨?_, h.words, h.state, h.straps, h.trim, h.mem⟩
  have e := h.bare
  have e' : ({ y.bare with out := y.bare.out ++ [o] } : State) = { x.bare with out := x.bare.out ++ [o] } := by rw [e]
  exact e'

/-- A field written in a register that shows what follows from any effect. -/
theorem rest_put (s : State) (f : Fld) (v : Nat) (hl : f.lo ≤ f.hi + 1) (hh : f.hi < 32) (hs : f.addr ∈ shown)
    (hr : f.addr = GL_ROLE_STAT → (3 < f.lo ∧ f.hi < 11) ∨ 15 < f.lo) (hd : f.addr = GL_DEGRADED → f.hi < 6) :
    Rest s (s.put f v) := by
  have role (g : Fld) (hg : g.addr = GL_ROLE_STAT) (hd : f.addr = GL_ROLE_STAT → f.hi < g.lo ∨ g.hi < f.lo) :
      (s.put f v).get g = s.get g := by
    by_cases e : f.addr = GL_ROLE_STAT
    · exact get_put_apart s f g v hl hh (hd e)
    · exact get_put_ne s f g v (by rw [hg]; exact Ne.symm e)
  refine ⟨rfl, fun a ha => rd_put_ne s f v (fun e => ha (e ▸ hs)), role _ rfl fun e => ?_, role _ rfl fun e => ?_, ?_,
    fun _ _ => rfl⟩
  · have := hr e; simp; omega
  · have := hr e; simp; omega
  · by_cases e : f.addr = GL_DEGRADED
    · exact get_put_apart s f _ v hl hh (by have := hd e; simp; omega)
    · exact get_put_ne s f _ v (by simpa using Ne.symm e)

/-- Bytes written inside the recorder's ring. -/
theorem rest_wrMem (s : State) (a : Nat) (bs : List Byte) (h : s.rgnBase 6 ≤ a)
    (h' : a + bs.length ≤ s.rgnBase 6 + s.rgnSize 6) : Rest s (s.wrMem a bs) := by
  refine ⟨rfl, fun _ _ => rfl, rfl, rfl, rfl, fun b hb => ?_⟩
  simp only [State.byte, State.wrMem]
  apply sget_sputs_ne
  simp [State.inRing] at hb
  omega

theorem rest_agate (s : State) (a : Recorder) : Rest s { s with agate := a } := Rest.of_same rfl rfl rfl

theorem rest_fire (s : State) (r : List WasteRange) (o : List OpenCause) (w v : Bool) :
    Rest s { s with fire := { s.fire with ranges := r, opens := o, waste0 := w, waste1 := v } } := Rest.of_same rfl rfl rfl

theorem rest_entries (s : State) (l : List TsEntry) : Rest s { s with pair := { s.pair with entries := l } } :=
  Rest.of_same rfl rfl rfl

theorem rest_pendingRanges (s : State) (v : Nat) : Rest s (s.put FS_WM_STAT_PENDING v) :=
  rest_put _ _ _ (by decide) (by decide) (by decide) (by decide) (by decide)

theorem rest_events (s : State) (es : List EventRec) (p : List Push) :
    Rest s { s with events := es, dcp := { s.dcp with push := p } } := Rest.of_same rfl rfl rfl

/-! Events -/

theorem rest_raiseBase (s : State) (code a0 a1 a2 : Nat) : Rest s (s.raiseBase code a0 a1 a2) := by
  simp only [State.raiseBase, State.inc, State.add, State.setBitOf]
  refine Rest.trans ?_ (rest_put _ _ _ (by decide) (by decide) (by decide) (by decide) (by decide))
  refine Rest.trans ?_ (rest_put _ _ _ (by decide) (by decide) (by decide) (by decide) (by decide))
  refine Rest.trans ?_ (rest_put _ _ _ (by decide) (by decide) (by decide) (by decide) (by decide))
  refine Rest.trans ?_ (rest_events _ _ _)
  split
  · exact rest_put _ _ _ (by decide) (by decide) (by decide) (by decide) (by decide)
  · exact Rest.refl s

/-! The recorder's ring -/

theorem ringBytes_length (type : Nat) (cont : Bool) (seq time : Nat) (p : List Byte) :
    (ringBytes type cont seq time p).length = 16 + (p.length + 7) / 8 * 8 := by
  have h (n v : Nat) : (leBytes n v).length = n := by induction n generalizing v with
    | zero => rfl
    | succ n ih => simp [leBytes, ih]
  simp [ringBytes, h]
  omega

theorem ringHeader_length (s : State) : (ringHeader s).length = 64 := by
  have h (n v : Nat) : (leBytes n v).length = n := by induction n generalizing v with
    | zero => rfl
    | succ n ih => simp [leBytes, ih]
  simp [ringHeader, h]

/-- A ring with any bytes has at least a mebibyte (R46). -/
theorem rgnSize_pos (s : State) (i : Nat) (h : (s.rgnSize i == 0) = false) : 0x100000 ≤ s.rgnSize i := by
  simp [State.rgnSize] at h ⊢
  omega

theorem rest_ringSync (s : State) : Rest s s.ringSync := by
  simp only [State.ringSync]
  split
  · exact Rest.refl s
  · next h =>
    have := rgnSize_pos s 6 (by simpa using h)
    exact rest_wrMem s _ _ (Nat.le_refl _) (by rw [ringHeader_length]; omega)

theorem rest_ringPlace (s : State) (type : Nat) (cont : Bool) (time : Nat) (p : List Byte)
    (h : s.agate.next + (16 + (p.length + 7) / 8 * 8) ≤ s.rgnSize 6) : Rest s (s.ringPlace type cont time p) := by
  simp only [State.ringPlace]
  refine Rest.trans (y := s.wrMem (s.rgnBase 6 + s.agate.next) (ringBytes type cont s.agate.nextSeq time p)) ?_
    (rest_agate _ _)
  exact rest_wrMem s _ _ (by omega) (by rw [ringBytes_length]; omega)

theorem rest_ringPad (s : State) (to_ on : Nat) (h : to_ ≤ s.rgnSize 6) : Rest s (s.ringPad to_ on) := by
  simp only [State.ringPad, State.ringGo]
  refine Rest.trans ?_ (rest_agate _ _)
  simp only [State.ringFill]
  split
  · exact rest_ringPlace s _ _ _ _ (by simp; omega)
  · exact Rest.refl s

/-- The writer comes to where the entry fits, whatever it skips. -/
theorem rest_ringSeek (k : Nat) : ∀ (s : State) (len : Nat), (s.rgnSize 6 == 0) = false → len ≤ 4096 →
    Rest s (State.ringSeek k s len) ∧ (State.ringSeek k s len).agate.next + len ≤ s.rgnSize 6 := by
  induction k with
  | zero =>
    intro s len hz hl
    have := rgnSize_pos s 6 hz
    exact ⟨rest_agate s _, by simp only [State.ringSeek]; omega⟩
  | succ k ih =>
    intro s len hz hl
    have on (y : State) (r : Rest s y) : Rest s (State.ringSeek k y len) ∧
        (State.ringSeek k y len).agate.next + len ≤ s.rgnSize 6 := by
      have e : y.rgnSize 6 = s.rgnSize 6 := rgnSize_congr (r.words _ shown_rgnSize)
      obtain ⟨r', h⟩ := ih y len (by rw [e]; exact hz) hl
      exact ⟨r.trans r', e ▸ h⟩
    simp only [State.ringSeek]
    split
    · exact on _ (rest_ringPad s _ _ (Nat.le_refl _))
    · next h =>
      split
      · next b hb =>
        have := List.find?_some hb
        simp at this
        exact on _ (rest_ringPad s _ _ (by omega))
      · exact ⟨Rest.refl s, by omega⟩

theorem rest_ringOne (s : State) (type : Nat) (cont : Bool) (time : Nat) (p : List Byte) (hp : p.length ≤ 4080)
    (hz : (s.rgnSize 6 == 0) = false) : Rest s (s.ringOne type cont time p) := by
  obtain ⟨r, hn⟩ := rest_ringSeek 20 s (16 + (p.length + 7) / 8 * 8) hz (by omega)
  simp only [State.ringOne]
  refine Rest.trans (r.trans (rest_ringPlace _ _ _ _ _ ?_)) (rest_ringSync _)
  rwa [rgnSize_congr (r.words _ shown_rgnSize)]

theorem rest_ringMany (k : Nat) : ∀ (s : State) (type : Nat) (cont : Bool) (time : Nat) (p : List Byte),
    (s.rgnSize 6 == 0) = false → Rest s (State.ringMany k s type cont time p) := by
  induction k with
  | zero => intro s _ _ _ _ _; exact Rest.refl s
  | succ k ih =>
    intro s type cont time p hz
    have one := rest_ringOne s type cont time (p.take 4080) (by simp) hz
    simp only [State.ringMany]
    split
    · exact one
    · exact one.trans (ih _ _ _ _ _ (by rw [rgnSize_congr (one.words _ shown_rgnSize)]; exact hz))

theorem rest_lose (s : State) (n : Nat) : Rest s (s.lose n) :=
  (rest_agate s _).trans (rest_put _ _ _ (by decide) (by decide) (by decide) (by decide) (by decide))

theorem rest_raiseLost (s : State) (code a1 : Nat) : Rest s (s.raiseLost code a1) :=
  (rest_raiseBase s _ _ _ _).trans (rest_lose _ _)

theorem rest_postBegin (s : State) : Rest s s.postBegin := by
  simp only [State.postBegin]
  split
  · exact (rest_agate s _).trans (rest_put _ _ _ (by decide) (by decide) (by decide) (by decide) (by decide))
  · exact Rest.refl s

theorem rest_recLose (s : State) (n : Nat) : Rest s (s.recLose n) := by
  simp only [State.recLose]
  have h := (rest_lose s n).trans (rest_raiseLost _ 0x8103 0)
  split
  · exact rest_lose s n
  · split
    · refine h.trans (Rest.trans ?_ (rest_raiseLost _ _ _))
      refine Rest.trans ?_ (rest_ringSync _)
      refine Rest.trans ?_ (rest_postBegin _)
      exact Rest.trans (rest_put _ _ _ (by decide) (by decide) (by decide) (by decide) (by decide)) (rest_lose _ _)
    · exact h

theorem rest_gapRecord (s : State) : Rest s s.gapRecord := by
  simp only [State.gapRecord]
  split
  · exact Rest.refl s
  · next h =>
    have hz : (s.rgnSize 6 == 0) = false := by simpa using fun e => h (by simp [e])
    have h8 (v : Nat) : (leBytes 4 v).length = 4 := rfl
    have h9 (v : Nat) : (leBytes 8 v).length = 8 := rfl
    exact (rest_ringOne s 0x0B false s.now (leBytes 4 s.agate.lostRun ++ leBytes 8 s.agate.lostSince)
      (by simp [h8, h9]) hz).trans (rest_agate _ _)

theorem rest_record (s : State) (type time : Nat) (p : List Byte) : Rest s (s.record type time p) := by
  simp only [State.record]
  split
  · exact Rest.refl s
  · next h =>
    split
    · exact rest_recLose s _
    · have hz : (s.rgnSize 6 == 0) = false := by simpa using fun e => h (by simp [e])
      have g := rest_gapRecord s
      exact g.trans (rest_ringMany _ _ _ _ _ _ (by rw [rgnSize_congr (g.words _ shown_rgnSize)]; exact hz))

theorem rest_recEvent (s : State) (code : Nat) : Rest s (s.recEvent code) := by
  simp only [State.recEvent]
  split
  · exact Rest.refl s
  · split
    · exact rest_record _ _ _ _
    · exact Rest.refl s

theorem rest_trigMark (s : State) : Rest s s.trigMark := by
  simp only [State.trigMark]
  split
  · exact ((rest_agate s _).trans (rest_postBegin _)).trans (rest_ringSync _)
  · exact Rest.refl s

theorem rest_trigTake (s : State) (source code : Nat) : Rest s (s.trigTake source code) := by
  simp only [State.trigTake]
  split
  · exact Rest.refl s
  · exact (((rest_record _ _ _ _).trans (rest_trigMark _)).trans (rest_raiseBase _ _ _ _ _)).trans (rest_recEvent _ _)

theorem rest_trigger (s : State) (source code : Nat) : Rest s (s.trigger source code) :=
  Rest.trans (rest_put _ _ _ (by decide) (by decide) (by decide) (by decide) (by decide)) (rest_trigTake _ _ _)

theorem rest_raise (s : State) (code a0 a1 a2 : Nat) : Rest s (s.raise code a0 a1 a2) := by
  simp only [State.raise]
  have h := (rest_raiseBase s code a0 a1 a2).trans (rest_recEvent _ code)
  split
  · exact h.trans (rest_trigger _ _ _)
  · exact h

/-! Waste marking -/

theorem rest_copy (s : State) (kind : Nat) (ws : List Nat) : Rest s (s.copy kind ws) := by
  simp only [State.copy]
  split
  · exact Rest.of_same rfl rfl rfl
  · exact Rest.refl s

theorem rest_waste (s : State) (causes : Nat) (lo hi : Int) : Rest s (s.waste causes lo hi) := by
  simp only [State.waste]
  exact (rest_fire s _ _ _ _).trans (rest_pendingRanges _ _)

theorem rest_wasteCopy (s : State) (causes : Nat) (lo hi : Int) : Rest s (s.wasteCopy causes lo hi) :=
  (rest_waste s causes lo hi).trans (rest_copy _ _ _)

theorem rest_wasteOpen (s : State) (b bars : Nat) : Rest s (s.wasteOpen b bars) := by
  simp only [State.wasteOpen]
  split
  · exact rest_fire s _ _ _ _
  · split <;> exact rest_fire s _ _ _ _

theorem rest_wasteClose (s : State) (b bars : Nat) : Rest s (s.wasteClose b bars) := by
  simp only [State.wasteClose]
  split
  · exact Rest.refl s
  · exact (rest_fire s _ _ _ _).trans (rest_wasteCopy _ _ _ _)

theorem rest_each {α : Type} (l : List α) (f : State → α → State) (hf : ∀ y a, Rest y (f y a)) :
    ∀ s : State, Rest s (s.each l f) := by
  induction l with
  | nil => exact fun s => Rest.refl s
  | cons a l ih => exact fun s => (hf s a).trans (ih _)

theorem rest_wasteSettle (s : State) : Rest s s.wasteSettle := by
  simp only [State.wasteSettle]
  refine Rest.trans (Rest.trans (rest_fire s _ _ _ _) (rest_each _ _ (fun y r => ?_) _)) (rest_pendingRanges _ _)
  · simp only [State.inc, State.add]
    exact (rest_put _ _ _ (by decide) (by decide) (by decide) (by decide) (by decide)).trans (rest_raise _ _ _ _ _)

theorem rest_safeWaste (s : State) : Rest s s.safeWaste := by
  simp only [State.safeWaste]
  split
  · exact Rest.refl s
  · split
    · exact rest_wasteClose _ _ _
    · exact (rest_wasteClose _ _ _).trans (rest_wasteOpen _ _ _)

theorem rest_watchdogSettle (s : State) : Rest s s.watchdogSettle :=
  rest_each _ _ (fun y _ => rest_wasteClose y _ _) s

theorem rest_pins (s : State) (l : List (Bool × Bool × Bool)) : Rest s { s with web := { s.web with pins := l } } :=
  Rest.of_same rfl rfl rfl

theorem rest_encoSettle (s : State) : Rest s s.encoSettle := rest_pins s _

theorem rest_degSettle (s : State) : Rest s s.degSettle :=
  rest_put _ _ _ (by decide) (by decide) (by decide) (by decide) (by decide)

theorem rest_roleSettle (s : State) : Rest s s.roleSettle := by
  simp only [State.roleSettle, State.inc, State.add]
  split
  · exact Rest.refl s
  · exact (rest_put _ _ _ (by decide) (by decide) (by decide) (by decide) (by decide)).trans
      (rest_put _ _ _ (by decide) (by decide) (by decide) (by decide) (by decide))

/-- What follows every command leaves everything but what it derives and reports. -/
theorem rest_settle (s : State) : Rest s (settle s) :=
  (((((rest_safeWaste s).trans (rest_watchdogSettle _)).trans (rest_wasteSettle _)).trans (rest_encoSettle _)).trans
    (rest_degSettle _)).trans (rest_roleSettle _)

end Sys2Proof.Machine
end

