-- ==== Sys2Proof/Laws/Events.lean ====
section
/-! SUPPORT. The event ring only grows: what raising, recording and marking waste put in it, said once per operation. -/

namespace Sys2Proof.Machine

variable {s x y z : State}

/-- From `x` to `y` events were put in the ring, and nothing else happened to it. -/
def Grows (x y : State) : Prop := ∃ more, y.events = ringAll x.events more

theorem Grows.refl (s : State) : Grows s s := ⟨[], rfl⟩
theorem Grows.of_eq (h : y.events = x.events) : Grows x y := ⟨[], h⟩
theorem Grows.trans (h : Grows x y) (k : Grows y z) : Grows x z := by
  obtain ⟨m, hm⟩ := h
  obtain ⟨n, hn⟩ := k
  exact ⟨m ++ n, by rw [hn, hm, ringAll, ringAll, ringAll, List.foldl_append]⟩

/-- What grows after an event was reported leaves it reported. -/
theorem Reports.grows {code a0 a1 a2 : Nat} (h : Reports x y code a0 a1 a2) (k : Grows y z) : Reports x z code a0 a1 a2 := by
  obtain ⟨m, hm⟩ := h
  obtain ⟨n, hn⟩ := k
  exact ⟨m ++ n, by rw [hn, hm, ringAll, ringAll, ringAll, ← List.foldl_append]; rfl⟩

/-- An event reported from a state with the same ring, sequence number and device time. -/
theorem Reports.congr {code a0 a1 a2 : Nat} (h : Reports x y code a0 a1 a2) (he : x.events = z.events)
    (hn : x.now = z.now) (hs : x.get EV_NEXT_SEQ_SEQ = z.get EV_NEXT_SEQ_SEQ) : Reports z y code a0 a1 a2 := by
  obtain ⟨m, hm⟩ := h
  exact ⟨m, by rw [hm, he]; simp [State.eventNext, hn, hs]⟩

theorem raiseBase_reports (s : State) (code a0 a1 a2 : Nat) : Reports s (s.raiseBase code a0 a1 a2) code a0 a1 a2 := by
  refine ⟨[], ?_⟩
  simp only [State.raiseBase, State.setBitOf, put_events]
  rfl

theorem grows_raiseBase (s : State) (code a0 a1 a2 : Nat) : Grows s (s.raiseBase code a0 a1 a2) := by
  obtain ⟨m, hm⟩ := raiseBase_reports s code a0 a1 a2
  exact ⟨_, hm⟩

theorem ringSync_events (s : State) : s.ringSync.events = s.events := by
  simp only [State.ringSync]; split <;> rfl

theorem agate_events (s : State) (a : Recorder) : ({ s with agate := a } : State).events = s.events := rfl

theorem ringPlace_events (s : State) (type : Nat) (cont : Bool) (time : Nat) (p : List Byte) :
    (s.ringPlace type cont time p).events = s.events := by
  rw [State.ringPlace, agate_events]; rfl

theorem ringGo_events (s : State) (a b : Nat) : (s.ringGo a b).events = s.events := by rw [State.ringGo]

theorem ringPad_events (s : State) (to_ on : Nat) : (s.ringPad to_ on).events = s.events := by
  rw [State.ringPad, ringGo_events, State.ringFill]
  split
  · exact ringPlace_events _ _ _ _ _
  · rfl

theorem ringSeek_events (k : Nat) : ∀ (s : State) (len : Nat), (State.ringSeek k s len).events = s.events := by
  induction k with
  | zero => intros; rfl
  | succ k ih =>
    intros
    simp only [State.ringSeek]
    split
    · rw [ih, ringPad_events]
    · split
      · rw [ih, ringPad_events]
      · rfl

theorem ringOne_events (s : State) (type : Nat) (cont : Bool) (time : Nat) (p : List Byte) :
    (s.ringOne type cont time p).events = s.events := by
  rw [State.ringOne, ringSync_events, ringPlace_events, ringSeek_events]

theorem ringMany_events (k : Nat) : ∀ (s : State) (type : Nat) (cont : Bool) (time : Nat) (p : List Byte),
    (State.ringMany k s type cont time p).events = s.events := by
  induction k with
  | zero => intros; rfl
  | succ k ih =>
    intros
    simp only [State.ringMany]
    split
    · exact ringOne_events _ _ _ _ _
    · rw [ih, ringOne_events]

theorem grows_agate (s : State) (a : Recorder) : Grows s { s with agate := a } := Grows.of_eq rfl
theorem grows_put (s : State) (f : Fld) (v : Nat) : Grows s (s.put f v) := Grows.of_eq rfl

theorem lose_events (s : State) (n : Nat) : (s.lose n).events = s.events := by
  rw [State.lose, State.addSat, put_events, agate_events]

theorem grows_lose (s : State) (n : Nat) : Grows s (s.lose n) := Grows.of_eq (lose_events s n)

theorem grows_raiseLost (s : State) (code a1 : Nat) : Grows s (s.raiseLost code a1) :=
  (grows_raiseBase s _ _ _ _).trans (grows_lose _ _)

theorem postBegin_events (s : State) : s.postBegin.events = s.events := by
  simp only [State.postBegin]
  split
  · rw [put_events, agate_events]
  · rfl

theorem grows_recLose (s : State) (n : Nat) : Grows s (s.recLose n) := by
  simp only [State.recLose]
  have h := (grows_lose s n).trans (grows_raiseLost _ 0x8103 0)
  split
  · exact grows_lose s n
  · split
    · exact h.trans (Grows.trans (Grows.of_eq (by rw [ringSync_events, postBegin_events, lose_events, State.inc, State.add, put_events])) (grows_raiseLost _ _ _))
    · exact h

theorem gapRecord_events (s : State) : s.gapRecord.events = s.events := by
  simp only [State.gapRecord]
  split
  · rfl
  · rw [agate_events, ringOne_events]

theorem grows_record (s : State) (type time : Nat) (p : List Byte) : Grows s (s.record type time p) := by
  simp only [State.record]
  split
  · exact Grows.refl s
  · split
    · exact grows_recLose s _
    · exact Grows.of_eq (by rw [ringMany_events, gapRecord_events])

theorem grows_recEvent (s : State) (code : Nat) : Grows s (s.recEvent code) := by
  simp only [State.recEvent]
  split
  · exact Grows.refl s
  · split
    · exact grows_record _ _ _ _
    · exact Grows.refl s

theorem trigMark_events (s : State) : s.trigMark.events = s.events := by
  simp only [State.trigMark]
  split
  · rw [ringSync_events, postBegin_events]
  · rfl

theorem grows_trigTake (s : State) (source code : Nat) : Grows s (s.trigTake source code) := by
  simp only [State.trigTake]
  split
  · exact Grows.refl s
  · exact (((grows_record _ _ _ _).trans (Grows.of_eq (trigMark_events _))).trans (grows_raiseBase _ _ _ _ _)).trans
      (grows_recEvent _ _)

theorem grows_trigger (s : State) (source code : Nat) : Grows s (s.trigger source code) :=
  Grows.trans (y := s.inc AG_STAT_TRIGGERS) (Grows.of_eq rfl) (grows_trigTake _ _ _)

/-- Raising an event puts it in the ring first; what its record and its trigger raise follows it. -/
theorem raise_reports (s : State) (code a0 a1 a2 : Nat) : Reports s (s.raise code a0 a1 a2) code a0 a1 a2 := by
  simp only [State.raise]
  have h := (raiseBase_reports s code a0 a1 a2).grows (grows_recEvent _ code)
  split
  · exact h.grows (grows_trigger _ _ _)
  · exact h

theorem grows_raise (s : State) (code a0 a1 a2 : Nat) : Grows s (s.raise code a0 a1 a2) := by
  obtain ⟨m, hm⟩ := raise_reports s code a0 a1 a2
  exact ⟨_, hm⟩

theorem copy_events (s : State) (kind : Nat) (ws : List Nat) : (s.copy kind ws).events = s.events := by
  simp only [State.copy]; split <;> rfl

theorem wasteOpen_events (s : State) (b bars : Nat) : (s.wasteOpen b bars).events = s.events := by
  simp only [State.wasteOpen]
  split
  · rfl
  · split <;> rfl

theorem wasteClose_events (s : State) (b bars : Nat) : (s.wasteClose b bars).events = s.events := by
  simp only [State.wasteClose]
  split
  · rfl
  · rw [State.wasteCopy, copy_events]; rfl

theorem grows_each {α : Type} (l : List α) (f : State → α → State) (hf : ∀ y a, Grows y (f y a)) :
    ∀ s : State, Grows s (s.each l f) := by
  induction l with
  | nil => exact fun s => Grows.refl s
  | cons a l ih => exact fun s => (hf s a).trans (ih _)

theorem grows_wasteSettle (s : State) : Grows s s.wasteSettle := by
  simp only [State.wasteSettle]
  refine Grows.trans ?_ (grows_put _ _ _)
  refine Grows.trans ?_ (grows_each _ _ (fun y r => ?_) _)
  · exact Grows.of_eq rfl
  · exact Grows.trans (y := y.inc FS_WM_STAT_RANGES) (Grows.of_eq rfl) (grows_raise _ _ _ _ _)

theorem grows_roleSettle (s : State) : Grows s s.roleSettle := by
  simp only [State.roleSettle]
  split
  · exact Grows.refl s
  · exact Grows.trans (y := s.inc GL_ROLE_STAT_CHANGES) (grows_put _ _ _) (grows_put _ _ _)

theorem grows_safeWaste (s : State) : Grows s s.safeWaste := by
  simp only [State.safeWaste]
  split
  · exact Grows.refl s
  · split
    · exact Grows.of_eq (wasteClose_events _ _ _)
    · exact Grows.of_eq ((wasteOpen_events _ _ _).trans (wasteClose_events _ _ _))

theorem encoSettle_events (s : State) : s.encoSettle.events = s.events := by rw [State.encoSettle]

theorem grows_watchdogSettle (s : State) : Grows s s.watchdogSettle :=
  grows_each _ _ (fun y _ => Grows.of_eq (wasteClose_events y _ _)) s

/-- What follows every command only adds events. -/
theorem grows_settle (s : State) : Grows s (settle s) :=
  (((((grows_safeWaste s).trans (grows_watchdogSettle _)).trans (grows_wasteSettle _)).trans (Grows.of_eq (encoSettle_events _))).trans
    (grows_put _ _ _)).trans (grows_roleSettle _)

end Sys2Proof.Machine
end

