-- ==== Sys2Proof/Laws/Settle.lean ====
section
/-! SUPPORT. What every command's meaning does around its own effect: the clock, a core that does not run, and what
`settle` leaves in agreement. -/

namespace Sys2Proof.Machine

variable {s x : State} {t : Nat} {f : State → State}

theorem whenRunning_on (f : State → State) (h : s.core = .running) : s.whenRunning f = f s := by simp [State.whenRunning, h]
theorem whenRunning_off (f : State → State) (h : s.core ≠ .running) : s.whenRunning f = s := by simp [State.whenRunning, h]

/-- A core that does not run keeps everything but the clock. -/
theorem run_off (h : s.core ≠ .running) : run t f s = .next (s.advance t) := by
  rw [run, whenRunning_off _ (by simpa using h)]

/-- A running core has the effect, then what follows it. -/
theorem run_on (h : s.core = .running) : run t f s = .next ((f (s.advance t)).whenRunning settle) := by
  rw [run, whenRunning_on _ (by simpa using h)]

theorem rest_whenRunning (s : State) : Rest s (s.whenRunning settle) := by
  by_cases h : s.core = .running
  · rw [whenRunning_on _ h]; exact rest_settle s
  · rw [whenRunning_off _ h]; exact Rest.refl s

theorem grows_whenRunning (s : State) : Grows s (s.whenRunning settle) := by
  by_cases h : s.core = .running
  · rw [whenRunning_on _ h]; exact grows_settle s
  · rw [whenRunning_off _ h]; exact Grows.refl s

/-- A command whose effect is `x` but for what is reported and derived answers such a state. -/
theorem run_rest (h : s.core = .running) (hx : Rest x (f (s.advance t))) : ∃ s', run t f s = .next s' ∧ Rest x s' :=
  ⟨_, run_on h, hx.trans (rest_whenRunning _)⟩

/-- The same, with the first event the effect reports. -/
theorem run_reports {code a0 a1 a2 : Nat} (h : s.core = .running) (hx : Rest x (f (s.advance t)))
    (hr : Reports (s.advance t) (f (s.advance t)) code a0 a1 a2) :
    ∃ s', run t f s = .next s' ∧ Rest x s' ∧ Reports (s.advance t) s' code a0 a1 a2 :=
  ⟨_, run_on h, hx.trans (rest_whenRunning _), hr.grows (grows_whenRunning _)⟩

/-! GL_ROLE_STAT in agreement (R522) -/

theorem overlays_put_role (s : State) (f : Fld) (v : Nat) (h : f.addr = GL_ROLE_STAT) :
    (s.put f v).overlays = s.overlays := by
  have e (g : Fld) (hg : g.addr ≠ GL_ROLE_STAT) : (s.put f v).get g = s.get g := get_put_ne s f g v (by rw [h]; exact hg)
  simp only [State.overlays, State.is]
  rw [e _ (by decide), e _ (by decide), e _ (by decide), e _ (by decide), e _ (by decide), e _ (by decide)]

theorem overlays_lt (s : State) : s.overlays < 128 := by
  have h (b : Bool) : b2n b ≤ 1 := by cases b <;> decide
  have h1 := h (s.is ⟨GL_DEGRADED, 6, 0⟩)
  have h2 := h (s.is FS_SAFE_STAT_SAFE)
  have h3 := h (s.is PR_STAT_STALE)
  have h4 := h (s.is PR_STAT_DEMOTED)
  have h5 := h (s.is PR_STAT_CONTEST)
  have h6 := h (s.is PR_STAT_RESYNC_PHASE)
  simp only [State.overlays]
  omega

/-- GL_ROLE_STAT agrees once it has been brought into agreement. -/
theorem roleSettle_agrees (s : State) : s.roleSettle.get ⟨GL_ROLE_STAT, 10, 4⟩ = s.roleSettle.overlays := by
  simp only [State.roleSettle]
  split
  · next h => simpa using h
  · rw [get_put_same _ _ _ (by decide) (by decide), overlays_put_role _ _ _ rfl, State.inc, State.add,
      overlays_put_role _ _ _ rfl]
    exact Nat.mod_eq_of_lt (overlays_lt s)

theorem settle_agrees (s : State) : (settle s).rolesAgree := fun _ => roleSettle_agrees _

/-- Whatever a command's effect, its meaning leaves the derived words in agreement. -/
theorem run_agrees (t : Nat) (f : State → State) (s : State) (h : s.rolesAgree) :
    ∃ s', run t f s = .next s' ∧ s'.rolesAgree := by
  by_cases hc : s.core = .running
  · refine ⟨_, run_on hc, ?_⟩
    by_cases hf : (f (s.advance t)).core = .running
    · rw [whenRunning_on _ hf]; exact settle_agrees _
    · rw [whenRunning_off _ hf]; exact fun h => absurd h hf
  · exact ⟨_, run_off hc, fun h => absurd h hc⟩

end Sys2Proof.Machine
end

