-- ==== Sys2Proof/Laws/Halt.lean ====
section
/-! SUPPORT. What a core that stops leaves. -/

namespace Sys2Proof.Machine

/-- The core stopped while no shutdown's entry waits. -/
theorem halted_coreDown (s : State) (core : CoreRun) (b : Base) (h : s.pwr.shutAt = none) :
    Halted s core b s.ao (s.coreDown core b) := by
  have hl : s.shutLate = s := by simp [State.shutLate, h]
  unfold State.coreDown
  rw [hl]
  refine ⟨rfl, fun a ha => ?_, fun a ha hn => ?_, ?_, ?_, ?_⟩
  · have hne : a ≠ PW_SHUT_STAT := by rintro rfl; exact absurd ha (by decide)
    rw [rd_put_ne _ _ _ hne]
    simp [State.rd, sget_skeep_off _ ha]
  · rw [rd_put_ne _ _ _ hn]
    simp [State.rd, sget_skeep _ ha]
  · rw [get_put_apart _ _ _ _ (by decide) (by decide) (by decide)]
    simp [State.get, State.rd, sget_skeep _ (show keptWord PW_SHUT_STAT = true by decide)]
  · rw [get_put_apart _ _ _ _ (by decide) (by decide) (by decide)]
    simp [State.get, State.rd, sget_skeep _ (show keptWord PW_SHUT_STAT = true by decide)]
  · exact get_put_same _ _ _ (by decide) (by decide)

end Sys2Proof.Machine
end

