-- ==== Sys2Proof/Laws/Requests.lean ====
section
/-! SUPPORT. What a command of the host port runs: one lemma for every row that carries a request, and what appending a
store record leaves alone. -/

namespace Sys2Proof.Machine

/-- A request of a host port that is up, whatever row carries it, is checked and answered with its fields normed. -/
theorem request_up {s : State} {t op : Nat} {h : DcpHdr} {body : List Nat} {r : Nat × Nat × DcpHdr × List Nat}
    (hr : Sys2Proof.Machine.request t op h body = some r) (hl : s.is HP_MP_STAT_LINK = true) (hu : s.hostUp = true)
    (hp : s.takes r.2.2.1 = true) :
    r.1 = t ∧ s.request op h body = s.checked r.2.1 r.2.2.1 r.2.2.2 := by
  simp only [Sys2Proof.Machine.request, Option.some.injEq] at hr
  subst hr
  refine ⟨rfl, ?_⟩
  have hb : (s.base == .boot || s.base == .trim) = false := by
    simp only [State.hostUp] at hu
    cases hs : s.base <;> simp [hs] at hu ⊢
  have hp' : s.takes h = true := hp
  simp [State.request, hl, hu, hb, hp']

/-- Every row that carries a request runs it in the one shape: with MP up and the unit answering, its meaning checks and
answers the request that `rowRequest` names. -/
theorem exec_request {i : Instr} {s : State} {t op : Nat} {h : DcpHdr} {body : List Nat}
    (hr : rowRequest i = some (t, op, h, body)) :
    ∃ f, exec i s = run t f s ∧
      ∀ y : State, y.is HP_MP_STAT_LINK = true → y.hostUp = true → y.takes h = true → f y = y.checked op h body := by
  cases i <;> simp only [rowRequest, writeRow, reduceCtorEq] at hr <;> try split at hr
  all_goals first
    | exact ⟨_, by rw [show t = _ from (Prod.mk.inj (Option.some.inj hr)).1.symm]; rfl, fun y hl hu hp => (request_up hr hl hu hp).2⟩
    | (cases hr; done)
    | (rename_i hc
       refine ⟨_, by rw [show t = _ from (Prod.mk.inj (Option.some.inj hr)).1.symm]; rfl, fun y hl hu hp => ?_⟩
       simp only [hc, if_true]
       exact (request_up hr hl hu hp).2)

/-- Appending a record to the event store leaves the power state and the always-on domain as they are. -/
theorem storeAppend_pwr (s : State) (w : List Nat) : (s.storeAppend w).pwr = s.pwr ∧ (s.storeAppend w).ao = s.ao := by
  have he (f : Nat × Nat → Nat) (l : List (Nat × Nat)) :
      ∀ s : State, (s.each l fun s x => s.wr (f x) x.1).pwr = s.pwr ∧ (s.each l fun s x => s.wr (f x) x.1).ao = s.ao := by
    induction l with
    | nil => exact fun _ => ⟨rfl, rfl⟩
    | cons a l ih => exact fun s => ih _
  have k (s : State) f := he f w.zipIdx s
  simp only [State.storeAppend]
  split <;> split
  · exact ⟨rfl, rfl⟩
  · exact k _ _
  · exact ⟨rfl, rfl⟩
  · exact k _ _

end Sys2Proof.Machine
end

