-- ==== Sys2Proof/Laws/State.lean ====
section
/-! SUPPORT. One lemma per field of the state and named update of it, each true by rfl: what the update leaves alone, and
what it sets. Those about `wr`, `put` and `advance` that Laws/Words.lean already holds stand there. -/

namespace Sys2Proof.Machine

/-! advance -/

@[simp] theorem advance_pending (t : Nat) (s : State) : (s.advance t).pending = s.pending := rfl
@[simp] theorem advance_clk (t : Nat) (s : State) : (s.advance t).clk = max s.clk t := rfl
@[simp] theorem advance_frc0 (t : Nat) (s : State) : (s.advance t).frc0 = s.frc0 := rfl
@[simp] theorem advance_free (t : Nat) (s : State) : (s.advance t).free = s.free := rfl
@[simp] theorem advance_out (t : Nat) (s : State) : (s.advance t).out = s.out := rfl
@[simp] theorem advance_base (t : Nat) (s : State) : (s.advance t).base = s.base := rfl
@[simp] theorem advance_pairEn (t : Nat) (s : State) : (s.advance t).pairEn = s.pairEn := rfl
@[simp] theorem advance_unitId (t : Nat) (s : State) : (s.advance t).unitId = s.unitId := rfl
@[simp] theorem advance_modeStrap (t : Nat) (s : State) : (s.advance t).modeStrap = s.modeStrap := rfl
@[simp] theorem advance_shutdown (t : Nat) (s : State) : (s.advance t).shutdown = s.shutdown := rfl
@[simp] theorem advance_shadow (t : Nat) (s : State) : (s.advance t).shadow = s.shadow := rfl
@[simp] theorem advance_rwlDone (t : Nat) (s : State) : (s.advance t).rwlDone = s.rwlDone := rfl
@[simp] theorem advance_mem (t : Nat) (s : State) : (s.advance t).mem = s.mem := rfl
@[simp] theorem advance_flash (t : Nat) (s : State) : (s.advance t).flash = s.flash := rfl
@[simp] theorem advance_otp (t : Nat) (s : State) : (s.advance t).otp = s.otp := rfl
@[simp] theorem advance_ao (t : Nat) (s : State) : (s.advance t).ao = s.ao := rfl
@[simp] theorem advance_tap (t : Nat) (s : State) : (s.advance t).tap = s.tap := rfl
@[simp] theorem advance_tb (t : Nat) (s : State) : (s.advance t).tb = s.tb := rfl
@[simp] theorem advance_refs (t : Nat) (s : State) : (s.advance t).refs = s.refs := rfl
@[simp] theorem advance_dcp (t : Nat) (s : State) : (s.advance t).dcp = s.dcp := rfl
@[simp] theorem advance_ptp (t : Nat) (s : State) : (s.advance t).ptp = s.ptp := rfl
@[simp] theorem advance_agate (t : Nat) (s : State) : (s.advance t).agate = s.agate := rfl
@[simp] theorem advance_pwr (t : Nat) (s : State) : (s.advance t).pwr = s.pwr := rfl
@[simp] theorem advance_ingest (t : Nat) (s : State) : (s.advance t).ingest = s.ingest := rfl
@[simp] theorem advance_scan (t : Nat) (s : State) : (s.advance t).scan = s.scan := rfl
@[simp] theorem advance_web (t : Nat) (s : State) : (s.advance t).web = s.web := rfl
@[simp] theorem advance_screen (t : Nat) (s : State) : (s.advance t).screen = s.screen := rfl
@[simp] theorem advance_lanes (t : Nat) (s : State) : (s.advance t).lanes = s.lanes := rfl
@[simp] theorem advance_lines (t : Nat) (s : State) : (s.advance t).lines = s.lines := rfl
@[simp] theorem advance_fire (t : Nat) (s : State) : (s.advance t).fire = s.fire := rfl
@[simp] theorem advance_cam (t : Nat) (s : State) : (s.advance t).cam = s.cam := rfl
@[simp] theorem advance_beryl (t : Nat) (s : State) : (s.advance t).beryl = s.beryl := rfl
@[simp] theorem advance_pair (t : Nat) (s : State) : (s.advance t).pair = s.pair := rfl

/-! wr -/

@[simp] theorem wr_pending (s : State) (a v : Nat) : (s.wr a v).pending = s.pending := rfl
@[simp] theorem wr_frc0 (s : State) (a v : Nat) : (s.wr a v).frc0 = s.frc0 := rfl
@[simp] theorem wr_free (s : State) (a v : Nat) : (s.wr a v).free = s.free := rfl
@[simp] theorem wr_out (s : State) (a v : Nat) : (s.wr a v).out = s.out := rfl
@[simp] theorem wr_pairEn (s : State) (a v : Nat) : (s.wr a v).pairEn = s.pairEn := rfl
@[simp] theorem wr_unitId (s : State) (a v : Nat) : (s.wr a v).unitId = s.unitId := rfl
@[simp] theorem wr_modeStrap (s : State) (a v : Nat) : (s.wr a v).modeStrap = s.modeStrap := rfl
@[simp] theorem wr_shutdown (s : State) (a v : Nat) : (s.wr a v).shutdown = s.shutdown := rfl
@[simp] theorem wr_words (s : State) (a v : Nat) :
    (s.wr a v).words = sput wordReset s.words a (BitVec.ofNat 32 v) := rfl
@[simp] theorem wr_shadow (s : State) (a v : Nat) : (s.wr a v).shadow = s.shadow := rfl
@[simp] theorem wr_rwlDone (s : State) (a v : Nat) : (s.wr a v).rwlDone = s.rwlDone := rfl
@[simp] theorem wr_flash (s : State) (a v : Nat) : (s.wr a v).flash = s.flash := rfl
@[simp] theorem wr_otp (s : State) (a v : Nat) : (s.wr a v).otp = s.otp := rfl
@[simp] theorem wr_ao (s : State) (a v : Nat) : (s.wr a v).ao = s.ao := rfl
@[simp] theorem wr_tap (s : State) (a v : Nat) : (s.wr a v).tap = s.tap := rfl
@[simp] theorem wr_tb (s : State) (a v : Nat) : (s.wr a v).tb = s.tb := rfl
@[simp] theorem wr_refs (s : State) (a v : Nat) : (s.wr a v).refs = s.refs := rfl
@[simp] theorem wr_dcp (s : State) (a v : Nat) : (s.wr a v).dcp = s.dcp := rfl
@[simp] theorem wr_ptp (s : State) (a v : Nat) : (s.wr a v).ptp = s.ptp := rfl
@[simp] theorem wr_pwr (s : State) (a v : Nat) : (s.wr a v).pwr = s.pwr := rfl
@[simp] theorem wr_ingest (s : State) (a v : Nat) : (s.wr a v).ingest = s.ingest := rfl
@[simp] theorem wr_scan (s : State) (a v : Nat) : (s.wr a v).scan = s.scan := rfl
@[simp] theorem wr_web (s : State) (a v : Nat) : (s.wr a v).web = s.web := rfl
@[simp] theorem wr_screen (s : State) (a v : Nat) : (s.wr a v).screen = s.screen := rfl
@[simp] theorem wr_lanes (s : State) (a v : Nat) : (s.wr a v).lanes = s.lanes := rfl
@[simp] theorem wr_lines (s : State) (a v : Nat) : (s.wr a v).lines = s.lines := rfl
@[simp] theorem wr_fire (s : State) (a v : Nat) : (s.wr a v).fire = s.fire := rfl
@[simp] theorem wr_cam (s : State) (a v : Nat) : (s.wr a v).cam = s.cam := rfl
@[simp] theorem wr_beryl (s : State) (a v : Nat) : (s.wr a v).beryl = s.beryl := rfl
@[simp] theorem wr_pair (s : State) (a v : Nat) : (s.wr a v).pair = s.pair := rfl

/-! put -/

@[simp] theorem put_pending (s : State) (f : Fld) (v : Nat) : (s.put f v).pending = s.pending := rfl
@[simp] theorem put_clk (s : State) (f : Fld) (v : Nat) : (s.put f v).clk = s.clk := rfl
@[simp] theorem put_frc0 (s : State) (f : Fld) (v : Nat) : (s.put f v).frc0 = s.frc0 := rfl
@[simp] theorem put_free (s : State) (f : Fld) (v : Nat) : (s.put f v).free = s.free := rfl
@[simp] theorem put_out (s : State) (f : Fld) (v : Nat) : (s.put f v).out = s.out := rfl
@[simp] theorem put_pairEn (s : State) (f : Fld) (v : Nat) : (s.put f v).pairEn = s.pairEn := rfl
@[simp] theorem put_unitId (s : State) (f : Fld) (v : Nat) : (s.put f v).unitId = s.unitId := rfl
@[simp] theorem put_modeStrap (s : State) (f : Fld) (v : Nat) : (s.put f v).modeStrap = s.modeStrap := rfl
@[simp] theorem put_shutdown (s : State) (f : Fld) (v : Nat) : (s.put f v).shutdown = s.shutdown := rfl
@[simp] theorem put_words (s : State) (f : Fld) (v : Nat) :
    (s.put f v).words = (s.wr f.addr (setBits (s.rd f.addr) f.hi f.lo v)).words := rfl
@[simp] theorem put_shadow (s : State) (f : Fld) (v : Nat) : (s.put f v).shadow = s.shadow := rfl
@[simp] theorem put_rwlDone (s : State) (f : Fld) (v : Nat) : (s.put f v).rwlDone = s.rwlDone := rfl
@[simp] theorem put_flash (s : State) (f : Fld) (v : Nat) : (s.put f v).flash = s.flash := rfl
@[simp] theorem put_otp (s : State) (f : Fld) (v : Nat) : (s.put f v).otp = s.otp := rfl
@[simp] theorem put_ao (s : State) (f : Fld) (v : Nat) : (s.put f v).ao = s.ao := rfl
@[simp] theorem put_tap (s : State) (f : Fld) (v : Nat) : (s.put f v).tap = s.tap := rfl
@[simp] theorem put_tb (s : State) (f : Fld) (v : Nat) : (s.put f v).tb = s.tb := rfl
@[simp] theorem put_refs (s : State) (f : Fld) (v : Nat) : (s.put f v).refs = s.refs := rfl
@[simp] theorem put_dcp (s : State) (f : Fld) (v : Nat) : (s.put f v).dcp = s.dcp := rfl
@[simp] theorem put_ptp (s : State) (f : Fld) (v : Nat) : (s.put f v).ptp = s.ptp := rfl
@[simp] theorem put_pwr (s : State) (f : Fld) (v : Nat) : (s.put f v).pwr = s.pwr := rfl
@[simp] theorem put_ingest (s : State) (f : Fld) (v : Nat) : (s.put f v).ingest = s.ingest := rfl
@[simp] theorem put_scan (s : State) (f : Fld) (v : Nat) : (s.put f v).scan = s.scan := rfl
@[simp] theorem put_web (s : State) (f : Fld) (v : Nat) : (s.put f v).web = s.web := rfl
@[simp] theorem put_screen (s : State) (f : Fld) (v : Nat) : (s.put f v).screen = s.screen := rfl
@[simp] theorem put_lanes (s : State) (f : Fld) (v : Nat) : (s.put f v).lanes = s.lanes := rfl
@[simp] theorem put_lines (s : State) (f : Fld) (v : Nat) : (s.put f v).lines = s.lines := rfl
@[simp] theorem put_fire (s : State) (f : Fld) (v : Nat) : (s.put f v).fire = s.fire := rfl
@[simp] theorem put_cam (s : State) (f : Fld) (v : Nat) : (s.put f v).cam = s.cam := rfl
@[simp] theorem put_beryl (s : State) (f : Fld) (v : Nat) : (s.put f v).beryl = s.beryl := rfl
@[simp] theorem put_pair (s : State) (f : Fld) (v : Nat) : (s.put f v).pair = s.pair := rfl

/-! wrSh -/

@[simp] theorem wrSh_pending (s : State) (a v : Nat) : (s.wrSh a v).pending = s.pending := rfl
@[simp] theorem wrSh_clk (s : State) (a v : Nat) : (s.wrSh a v).clk = s.clk := rfl
@[simp] theorem wrSh_frc0 (s : State) (a v : Nat) : (s.wrSh a v).frc0 = s.frc0 := rfl
@[simp] theorem wrSh_free (s : State) (a v : Nat) : (s.wrSh a v).free = s.free := rfl
@[simp] theorem wrSh_out (s : State) (a v : Nat) : (s.wrSh a v).out = s.out := rfl
@[simp] theorem wrSh_core (s : State) (a v : Nat) : (s.wrSh a v).core = s.core := rfl
@[simp] theorem wrSh_base (s : State) (a v : Nat) : (s.wrSh a v).base = s.base := rfl
@[simp] theorem wrSh_pairEn (s : State) (a v : Nat) : (s.wrSh a v).pairEn = s.pairEn := rfl
@[simp] theorem wrSh_unitId (s : State) (a v : Nat) : (s.wrSh a v).unitId = s.unitId := rfl
@[simp] theorem wrSh_modeStrap (s : State) (a v : Nat) : (s.wrSh a v).modeStrap = s.modeStrap := rfl
@[simp] theorem wrSh_shutdown (s : State) (a v : Nat) : (s.wrSh a v).shutdown = s.shutdown := rfl
@[simp] theorem wrSh_words (s : State) (a v : Nat) : (s.wrSh a v).words = s.words := rfl
@[simp] theorem wrSh_shadow (s : State) (a v : Nat) :
    (s.wrSh a v).shadow = sput wordReset s.shadow a (BitVec.ofNat 32 v) := rfl
@[simp] theorem wrSh_rwlDone (s : State) (a v : Nat) : (s.wrSh a v).rwlDone = s.rwlDone := rfl
@[simp] theorem wrSh_mem (s : State) (a v : Nat) : (s.wrSh a v).mem = s.mem := rfl
@[simp] theorem wrSh_flash (s : State) (a v : Nat) : (s.wrSh a v).flash = s.flash := rfl
@[simp] theorem wrSh_otp (s : State) (a v : Nat) : (s.wrSh a v).otp = s.otp := rfl
@[simp] theorem wrSh_ao (s : State) (a v : Nat) : (s.wrSh a v).ao = s.ao := rfl
@[simp] theorem wrSh_tap (s : State) (a v : Nat) : (s.wrSh a v).tap = s.tap := rfl
@[simp] theorem wrSh_tb (s : State) (a v : Nat) : (s.wrSh a v).tb = s.tb := rfl
@[simp] theorem wrSh_refs (s : State) (a v : Nat) : (s.wrSh a v).refs = s.refs := rfl
@[simp] theorem wrSh_events (s : State) (a v : Nat) : (s.wrSh a v).events = s.events := rfl
@[simp] theorem wrSh_dcp (s : State) (a v : Nat) : (s.wrSh a v).dcp = s.dcp := rfl
@[simp] theorem wrSh_ptp (s : State) (a v : Nat) : (s.wrSh a v).ptp = s.ptp := rfl
@[simp] theorem wrSh_agate (s : State) (a v : Nat) : (s.wrSh a v).agate = s.agate := rfl
@[simp] theorem wrSh_pwr (s : State) (a v : Nat) : (s.wrSh a v).pwr = s.pwr := rfl
@[simp] theorem wrSh_ingest (s : State) (a v : Nat) : (s.wrSh a v).ingest = s.ingest := rfl
@[simp] theorem wrSh_scan (s : State) (a v : Nat) : (s.wrSh a v).scan = s.scan := rfl
@[simp] theorem wrSh_web (s : State) (a v : Nat) : (s.wrSh a v).web = s.web := rfl
@[simp] theorem wrSh_screen (s : State) (a v : Nat) : (s.wrSh a v).screen = s.screen := rfl
@[simp] theorem wrSh_lanes (s : State) (a v : Nat) : (s.wrSh a v).lanes = s.lanes := rfl
@[simp] theorem wrSh_lines (s : State) (a v : Nat) : (s.wrSh a v).lines = s.lines := rfl
@[simp] theorem wrSh_fire (s : State) (a v : Nat) : (s.wrSh a v).fire = s.fire := rfl
@[simp] theorem wrSh_cam (s : State) (a v : Nat) : (s.wrSh a v).cam = s.cam := rfl
@[simp] theorem wrSh_beryl (s : State) (a v : Nat) : (s.wrSh a v).beryl = s.beryl := rfl
@[simp] theorem wrSh_pair (s : State) (a v : Nat) : (s.wrSh a v).pair = s.pair := rfl

/-! wrMem -/

@[simp] theorem wrMem_pending (s : State) (a : Nat) (bs : List Byte) : (s.wrMem a bs).pending = s.pending := rfl
@[simp] theorem wrMem_clk (s : State) (a : Nat) (bs : List Byte) : (s.wrMem a bs).clk = s.clk := rfl
@[simp] theorem wrMem_frc0 (s : State) (a : Nat) (bs : List Byte) : (s.wrMem a bs).frc0 = s.frc0 := rfl
@[simp] theorem wrMem_free (s : State) (a : Nat) (bs : List Byte) : (s.wrMem a bs).free = s.free := rfl
@[simp] theorem wrMem_out (s : State) (a : Nat) (bs : List Byte) : (s.wrMem a bs).out = s.out := rfl
@[simp] theorem wrMem_core (s : State) (a : Nat) (bs : List Byte) : (s.wrMem a bs).core = s.core := rfl
@[simp] theorem wrMem_base (s : State) (a : Nat) (bs : List Byte) : (s.wrMem a bs).base = s.base := rfl
@[simp] theorem wrMem_pairEn (s : State) (a : Nat) (bs : List Byte) : (s.wrMem a bs).pairEn = s.pairEn := rfl
@[simp] theorem wrMem_unitId (s : State) (a : Nat) (bs : List Byte) : (s.wrMem a bs).unitId = s.unitId := rfl
@[simp] theorem wrMem_modeStrap (s : State) (a : Nat) (bs : List Byte) : (s.wrMem a bs).modeStrap = s.modeStrap := rfl
@[simp] theorem wrMem_shutdown (s : State) (a : Nat) (bs : List Byte) : (s.wrMem a bs).shutdown = s.shutdown := rfl
@[simp] theorem wrMem_words (s : State) (a : Nat) (bs : List Byte) : (s.wrMem a bs).words = s.words := rfl
@[simp] theorem wrMem_shadow (s : State) (a : Nat) (bs : List Byte) : (s.wrMem a bs).shadow = s.shadow := rfl
@[simp] theorem wrMem_rwlDone (s : State) (a : Nat) (bs : List Byte) : (s.wrMem a bs).rwlDone = s.rwlDone := rfl
@[simp] theorem wrMem_mem (s : State) (a : Nat) (bs : List Byte) : (s.wrMem a bs).mem = sputs memReset s.mem a bs := rfl
@[simp] theorem wrMem_flash (s : State) (a : Nat) (bs : List Byte) : (s.wrMem a bs).flash = s.flash := rfl
@[simp] theorem wrMem_otp (s : State) (a : Nat) (bs : List Byte) : (s.wrMem a bs).otp = s.otp := rfl
@[simp] theorem wrMem_ao (s : State) (a : Nat) (bs : List Byte) : (s.wrMem a bs).ao = s.ao := rfl
@[simp] theorem wrMem_tap (s : State) (a : Nat) (bs : List Byte) : (s.wrMem a bs).tap = s.tap := rfl
@[simp] theorem wrMem_tb (s : State) (a : Nat) (bs : List Byte) : (s.wrMem a bs).tb = s.tb := rfl
@[simp] theorem wrMem_refs (s : State) (a : Nat) (bs : List Byte) : (s.wrMem a bs).refs = s.refs := rfl
@[simp] theorem wrMem_events (s : State) (a : Nat) (bs : List Byte) : (s.wrMem a bs).events = s.events := rfl
@[simp] theorem wrMem_dcp (s : State) (a : Nat) (bs : List Byte) : (s.wrMem a bs).dcp = s.dcp := rfl
@[simp] theorem wrMem_ptp (s : State) (a : Nat) (bs : List Byte) : (s.wrMem a bs).ptp = s.ptp := rfl
@[simp] theorem wrMem_agate (s : State) (a : Nat) (bs : List Byte) : (s.wrMem a bs).agate = s.agate := rfl
@[simp] theorem wrMem_pwr (s : State) (a : Nat) (bs : List Byte) : (s.wrMem a bs).pwr = s.pwr := rfl
@[simp] theorem wrMem_ingest (s : State) (a : Nat) (bs : List Byte) : (s.wrMem a bs).ingest = s.ingest := rfl
@[simp] theorem wrMem_scan (s : State) (a : Nat) (bs : List Byte) : (s.wrMem a bs).scan = s.scan := rfl
@[simp] theorem wrMem_web (s : State) (a : Nat) (bs : List Byte) : (s.wrMem a bs).web = s.web := rfl
@[simp] theorem wrMem_screen (s : State) (a : Nat) (bs : List Byte) : (s.wrMem a bs).screen = s.screen := rfl
@[simp] theorem wrMem_lanes (s : State) (a : Nat) (bs : List Byte) : (s.wrMem a bs).lanes = s.lanes := rfl
@[simp] theorem wrMem_lines (s : State) (a : Nat) (bs : List Byte) : (s.wrMem a bs).lines = s.lines := rfl
@[simp] theorem wrMem_fire (s : State) (a : Nat) (bs : List Byte) : (s.wrMem a bs).fire = s.fire := rfl
@[simp] theorem wrMem_cam (s : State) (a : Nat) (bs : List Byte) : (s.wrMem a bs).cam = s.cam := rfl
@[simp] theorem wrMem_beryl (s : State) (a : Nat) (bs : List Byte) : (s.wrMem a bs).beryl = s.beryl := rfl
@[simp] theorem wrMem_pair (s : State) (a : Nat) (bs : List Byte) : (s.wrMem a bs).pair = s.pair := rfl

/-! clrMem -/

@[simp] theorem clrMem_pending (s : State) (a n : Nat) : (s.clrMem a n).pending = s.pending := rfl
@[simp] theorem clrMem_clk (s : State) (a n : Nat) : (s.clrMem a n).clk = s.clk := rfl
@[simp] theorem clrMem_frc0 (s : State) (a n : Nat) : (s.clrMem a n).frc0 = s.frc0 := rfl
@[simp] theorem clrMem_free (s : State) (a n : Nat) : (s.clrMem a n).free = s.free := rfl
@[simp] theorem clrMem_out (s : State) (a n : Nat) : (s.clrMem a n).out = s.out := rfl
@[simp] theorem clrMem_core (s : State) (a n : Nat) : (s.clrMem a n).core = s.core := rfl
@[simp] theorem clrMem_base (s : State) (a n : Nat) : (s.clrMem a n).base = s.base := rfl
@[simp] theorem clrMem_pairEn (s : State) (a n : Nat) : (s.clrMem a n).pairEn = s.pairEn := rfl
@[simp] theorem clrMem_unitId (s : State) (a n : Nat) : (s.clrMem a n).unitId = s.unitId := rfl
@[simp] theorem clrMem_modeStrap (s : State) (a n : Nat) : (s.clrMem a n).modeStrap = s.modeStrap := rfl
@[simp] theorem clrMem_shutdown (s : State) (a n : Nat) : (s.clrMem a n).shutdown = s.shutdown := rfl
@[simp] theorem clrMem_words (s : State) (a n : Nat) : (s.clrMem a n).words = s.words := rfl
@[simp] theorem clrMem_shadow (s : State) (a n : Nat) : (s.clrMem a n).shadow = s.shadow := rfl
@[simp] theorem clrMem_rwlDone (s : State) (a n : Nat) : (s.clrMem a n).rwlDone = s.rwlDone := rfl
@[simp] theorem clrMem_mem (s : State) (a n : Nat) :
    (s.clrMem a n).mem = skeep (fun b => b < a || decide (a + n ≤ b)) s.mem := rfl
@[simp] theorem clrMem_flash (s : State) (a n : Nat) : (s.clrMem a n).flash = s.flash := rfl
@[simp] theorem clrMem_otp (s : State) (a n : Nat) : (s.clrMem a n).otp = s.otp := rfl
@[simp] theorem clrMem_ao (s : State) (a n : Nat) : (s.clrMem a n).ao = s.ao := rfl
@[simp] theorem clrMem_tap (s : State) (a n : Nat) : (s.clrMem a n).tap = s.tap := rfl
@[simp] theorem clrMem_tb (s : State) (a n : Nat) : (s.clrMem a n).tb = s.tb := rfl
@[simp] theorem clrMem_refs (s : State) (a n : Nat) : (s.clrMem a n).refs = s.refs := rfl
@[simp] theorem clrMem_events (s : State) (a n : Nat) : (s.clrMem a n).events = s.events := rfl
@[simp] theorem clrMem_dcp (s : State) (a n : Nat) : (s.clrMem a n).dcp = s.dcp := rfl
@[simp] theorem clrMem_ptp (s : State) (a n : Nat) : (s.clrMem a n).ptp = s.ptp := rfl
@[simp] theorem clrMem_agate (s : State) (a n : Nat) : (s.clrMem a n).agate = s.agate := rfl
@[simp] theorem clrMem_pwr (s : State) (a n : Nat) : (s.clrMem a n).pwr = s.pwr := rfl
@[simp] theorem clrMem_ingest (s : State) (a n : Nat) : (s.clrMem a n).ingest = s.ingest := rfl
@[simp] theorem clrMem_scan (s : State) (a n : Nat) : (s.clrMem a n).scan = s.scan := rfl
@[simp] theorem clrMem_web (s : State) (a n : Nat) : (s.clrMem a n).web = s.web := rfl
@[simp] theorem clrMem_screen (s : State) (a n : Nat) : (s.clrMem a n).screen = s.screen := rfl
@[simp] theorem clrMem_lanes (s : State) (a n : Nat) : (s.clrMem a n).lanes = s.lanes := rfl
@[simp] theorem clrMem_lines (s : State) (a n : Nat) : (s.clrMem a n).lines = s.lines := rfl
@[simp] theorem clrMem_fire (s : State) (a n : Nat) : (s.clrMem a n).fire = s.fire := rfl
@[simp] theorem clrMem_cam (s : State) (a n : Nat) : (s.clrMem a n).cam = s.cam := rfl
@[simp] theorem clrMem_beryl (s : State) (a n : Nat) : (s.clrMem a n).beryl = s.beryl := rfl
@[simp] theorem clrMem_pair (s : State) (a n : Nat) : (s.clrMem a n).pair = s.pair := rfl

/-! flashErase -/

@[simp] theorem flashErase_pending (s : State) (a n : Nat) : (s.flashErase a n).pending = s.pending := rfl
@[simp] theorem flashErase_clk (s : State) (a n : Nat) : (s.flashErase a n).clk = s.clk := rfl
@[simp] theorem flashErase_frc0 (s : State) (a n : Nat) : (s.flashErase a n).frc0 = s.frc0 := rfl
@[simp] theorem flashErase_free (s : State) (a n : Nat) : (s.flashErase a n).free = s.free := rfl
@[simp] theorem flashErase_out (s : State) (a n : Nat) : (s.flashErase a n).out = s.out := rfl
@[simp] theorem flashErase_core (s : State) (a n : Nat) : (s.flashErase a n).core = s.core := rfl
@[simp] theorem flashErase_base (s : State) (a n : Nat) : (s.flashErase a n).base = s.base := rfl
@[simp] theorem flashErase_pairEn (s : State) (a n : Nat) : (s.flashErase a n).pairEn = s.pairEn := rfl
@[simp] theorem flashErase_unitId (s : State) (a n : Nat) : (s.flashErase a n).unitId = s.unitId := rfl
@[simp] theorem flashErase_modeStrap (s : State) (a n : Nat) : (s.flashErase a n).modeStrap = s.modeStrap := rfl
@[simp] theorem flashErase_shutdown (s : State) (a n : Nat) : (s.flashErase a n).shutdown = s.shutdown := rfl
@[simp] theorem flashErase_words (s : State) (a n : Nat) : (s.flashErase a n).words = s.words := rfl
@[simp] theorem flashErase_shadow (s : State) (a n : Nat) : (s.flashErase a n).shadow = s.shadow := rfl
@[simp] theorem flashErase_rwlDone (s : State) (a n : Nat) : (s.flashErase a n).rwlDone = s.rwlDone := rfl
@[simp] theorem flashErase_mem (s : State) (a n : Nat) : (s.flashErase a n).mem = s.mem := rfl
@[simp] theorem flashErase_flash (s : State) (a n : Nat) :
    (s.flashErase a n).flash = skeep (fun b => b < a || decide (a + n ≤ b)) s.flash := rfl
@[simp] theorem flashErase_otp (s : State) (a n : Nat) : (s.flashErase a n).otp = s.otp := rfl
@[simp] theorem flashErase_ao (s : State) (a n : Nat) : (s.flashErase a n).ao = s.ao := rfl
@[simp] theorem flashErase_tap (s : State) (a n : Nat) : (s.flashErase a n).tap = s.tap := rfl
@[simp] theorem flashErase_tb (s : State) (a n : Nat) : (s.flashErase a n).tb = s.tb := rfl
@[simp] theorem flashErase_refs (s : State) (a n : Nat) : (s.flashErase a n).refs = s.refs := rfl
@[simp] theorem flashErase_events (s : State) (a n : Nat) : (s.flashErase a n).events = s.events := rfl
@[simp] theorem flashErase_dcp (s : State) (a n : Nat) : (s.flashErase a n).dcp = s.dcp := rfl
@[simp] theorem flashErase_ptp (s : State) (a n : Nat) : (s.flashErase a n).ptp = s.ptp := rfl
@[simp] theorem flashErase_agate (s : State) (a n : Nat) : (s.flashErase a n).agate = s.agate := rfl
@[simp] theorem flashErase_pwr (s : State) (a n : Nat) : (s.flashErase a n).pwr = s.pwr := rfl
@[simp] theorem flashErase_ingest (s : State) (a n : Nat) : (s.flashErase a n).ingest = s.ingest := rfl
@[simp] theorem flashErase_scan (s : State) (a n : Nat) : (s.flashErase a n).scan = s.scan := rfl
@[simp] theorem flashErase_web (s : State) (a n : Nat) : (s.flashErase a n).web = s.web := rfl
@[simp] theorem flashErase_screen (s : State) (a n : Nat) : (s.flashErase a n).screen = s.screen := rfl
@[simp] theorem flashErase_lanes (s : State) (a n : Nat) : (s.flashErase a n).lanes = s.lanes := rfl
@[simp] theorem flashErase_lines (s : State) (a n : Nat) : (s.flashErase a n).lines = s.lines := rfl
@[simp] theorem flashErase_fire (s : State) (a n : Nat) : (s.flashErase a n).fire = s.fire := rfl
@[simp] theorem flashErase_cam (s : State) (a n : Nat) : (s.flashErase a n).cam = s.cam := rfl
@[simp] theorem flashErase_beryl (s : State) (a n : Nat) : (s.flashErase a n).beryl = s.beryl := rfl
@[simp] theorem flashErase_pair (s : State) (a n : Nat) : (s.flashErase a n).pair = s.pair := rfl

/-! reanchor -/

@[simp] theorem reanchor_pending (s : State) : (s.reanchor).pending = s.pending := rfl
@[simp] theorem reanchor_clk (s : State) : (s.reanchor).clk = s.clk := rfl
@[simp] theorem reanchor_frc0 (s : State) : (s.reanchor).frc0 = s.frc0 := rfl
@[simp] theorem reanchor_free (s : State) : (s.reanchor).free = s.free := rfl
@[simp] theorem reanchor_out (s : State) : (s.reanchor).out = s.out := rfl
@[simp] theorem reanchor_core (s : State) : (s.reanchor).core = s.core := rfl
@[simp] theorem reanchor_base (s : State) : (s.reanchor).base = s.base := rfl
@[simp] theorem reanchor_pairEn (s : State) : (s.reanchor).pairEn = s.pairEn := rfl
@[simp] theorem reanchor_unitId (s : State) : (s.reanchor).unitId = s.unitId := rfl
@[simp] theorem reanchor_modeStrap (s : State) : (s.reanchor).modeStrap = s.modeStrap := rfl
@[simp] theorem reanchor_shutdown (s : State) : (s.reanchor).shutdown = s.shutdown := rfl
@[simp] theorem reanchor_words (s : State) : (s.reanchor).words = s.words := rfl
@[simp] theorem reanchor_shadow (s : State) : (s.reanchor).shadow = s.shadow := rfl
@[simp] theorem reanchor_rwlDone (s : State) : (s.reanchor).rwlDone = s.rwlDone := rfl
@[simp] theorem reanchor_mem (s : State) : (s.reanchor).mem = s.mem := rfl
@[simp] theorem reanchor_flash (s : State) : (s.reanchor).flash = s.flash := rfl
@[simp] theorem reanchor_otp (s : State) : (s.reanchor).otp = s.otp := rfl
@[simp] theorem reanchor_ao (s : State) : (s.reanchor).ao = s.ao := rfl
@[simp] theorem reanchor_tap (s : State) : (s.reanchor).tap = s.tap := rfl
@[simp] theorem reanchor_tb (s : State) :
    (s.reanchor).tb = { s.tb with baseT := s.devU / 1000000 * 1000000, baseF := s.frc, remain := s.remNow } := rfl
@[simp] theorem reanchor_refs (s : State) : (s.reanchor).refs = s.refs := rfl
@[simp] theorem reanchor_events (s : State) : (s.reanchor).events = s.events := rfl
@[simp] theorem reanchor_dcp (s : State) : (s.reanchor).dcp = s.dcp := rfl
@[simp] theorem reanchor_ptp (s : State) : (s.reanchor).ptp = s.ptp := rfl
@[simp] theorem reanchor_agate (s : State) : (s.reanchor).agate = s.agate := rfl
@[simp] theorem reanchor_pwr (s : State) : (s.reanchor).pwr = s.pwr := rfl
@[simp] theorem reanchor_ingest (s : State) : (s.reanchor).ingest = s.ingest := rfl
@[simp] theorem reanchor_scan (s : State) : (s.reanchor).scan = s.scan := rfl
@[simp] theorem reanchor_web (s : State) : (s.reanchor).web = s.web := rfl
@[simp] theorem reanchor_screen (s : State) : (s.reanchor).screen = s.screen := rfl
@[simp] theorem reanchor_lanes (s : State) : (s.reanchor).lanes = s.lanes := rfl
@[simp] theorem reanchor_lines (s : State) : (s.reanchor).lines = s.lines := rfl
@[simp] theorem reanchor_fire (s : State) : (s.reanchor).fire = s.fire := rfl
@[simp] theorem reanchor_cam (s : State) : (s.reanchor).cam = s.cam := rfl
@[simp] theorem reanchor_beryl (s : State) : (s.reanchor).beryl = s.beryl := rfl
@[simp] theorem reanchor_pair (s : State) : (s.reanchor).pair = s.pair := rfl

/-! emit -/

@[simp] theorem emit_pending (s : State) (o : Sent) : (s.emit o).pending = s.pending := rfl
@[simp] theorem emit_clk (s : State) (o : Sent) : (s.emit o).clk = s.clk := rfl
@[simp] theorem emit_frc0 (s : State) (o : Sent) : (s.emit o).frc0 = s.frc0 := rfl
@[simp] theorem emit_free (s : State) (o : Sent) : (s.emit o).free = s.free := rfl
@[simp] theorem emit_out (s : State) (o : Sent) : (s.emit o).out = s.out ++ [o] := rfl
@[simp] theorem emit_core (s : State) (o : Sent) : (s.emit o).core = s.core := rfl
@[simp] theorem emit_base (s : State) (o : Sent) : (s.emit o).base = s.base := rfl
@[simp] theorem emit_pairEn (s : State) (o : Sent) : (s.emit o).pairEn = s.pairEn := rfl
@[simp] theorem emit_unitId (s : State) (o : Sent) : (s.emit o).unitId = s.unitId := rfl
@[simp] theorem emit_modeStrap (s : State) (o : Sent) : (s.emit o).modeStrap = s.modeStrap := rfl
@[simp] theorem emit_shutdown (s : State) (o : Sent) : (s.emit o).shutdown = s.shutdown := rfl
@[simp] theorem emit_words (s : State) (o : Sent) : (s.emit o).words = s.words := rfl
@[simp] theorem emit_shadow (s : State) (o : Sent) : (s.emit o).shadow = s.shadow := rfl
@[simp] theorem emit_rwlDone (s : State) (o : Sent) : (s.emit o).rwlDone = s.rwlDone := rfl
@[simp] theorem emit_mem (s : State) (o : Sent) : (s.emit o).mem = s.mem := rfl
@[simp] theorem emit_flash (s : State) (o : Sent) : (s.emit o).flash = s.flash := rfl
@[simp] theorem emit_otp (s : State) (o : Sent) : (s.emit o).otp = s.otp := rfl
@[simp] theorem emit_ao (s : State) (o : Sent) : (s.emit o).ao = s.ao := rfl
@[simp] theorem emit_tap (s : State) (o : Sent) : (s.emit o).tap = s.tap := rfl
@[simp] theorem emit_tb (s : State) (o : Sent) : (s.emit o).tb = s.tb := rfl
@[simp] theorem emit_refs (s : State) (o : Sent) : (s.emit o).refs = s.refs := rfl
@[simp] theorem emit_events (s : State) (o : Sent) : (s.emit o).events = s.events := rfl
@[simp] theorem emit_dcp (s : State) (o : Sent) : (s.emit o).dcp = s.dcp := rfl
@[simp] theorem emit_ptp (s : State) (o : Sent) : (s.emit o).ptp = s.ptp := rfl
@[simp] theorem emit_agate (s : State) (o : Sent) : (s.emit o).agate = s.agate := rfl
@[simp] theorem emit_pwr (s : State) (o : Sent) : (s.emit o).pwr = s.pwr := rfl
@[simp] theorem emit_ingest (s : State) (o : Sent) : (s.emit o).ingest = s.ingest := rfl
@[simp] theorem emit_scan (s : State) (o : Sent) : (s.emit o).scan = s.scan := rfl
@[simp] theorem emit_web (s : State) (o : Sent) : (s.emit o).web = s.web := rfl
@[simp] theorem emit_screen (s : State) (o : Sent) : (s.emit o).screen = s.screen := rfl
@[simp] theorem emit_lanes (s : State) (o : Sent) : (s.emit o).lanes = s.lanes := rfl
@[simp] theorem emit_lines (s : State) (o : Sent) : (s.emit o).lines = s.lines := rfl
@[simp] theorem emit_fire (s : State) (o : Sent) : (s.emit o).fire = s.fire := rfl
@[simp] theorem emit_cam (s : State) (o : Sent) : (s.emit o).cam = s.cam := rfl
@[simp] theorem emit_beryl (s : State) (o : Sent) : (s.emit o).beryl = s.beryl := rfl
@[simp] theorem emit_pair (s : State) (o : Sent) : (s.emit o).pair = s.pair := rfl

/-! setJob -/

@[simp] theorem setJob_pending (s : State) (j : Job) : (s.setJob j).pending = s.pending := rfl
@[simp] theorem setJob_clk (s : State) (j : Job) : (s.setJob j).clk = s.clk := rfl
@[simp] theorem setJob_frc0 (s : State) (j : Job) : (s.setJob j).frc0 = s.frc0 := rfl
@[simp] theorem setJob_free (s : State) (j : Job) : (s.setJob j).free = s.free := rfl
@[simp] theorem setJob_out (s : State) (j : Job) : (s.setJob j).out = s.out := rfl
@[simp] theorem setJob_core (s : State) (j : Job) : (s.setJob j).core = s.core := rfl
@[simp] theorem setJob_base (s : State) (j : Job) : (s.setJob j).base = s.base := rfl
@[simp] theorem setJob_pairEn (s : State) (j : Job) : (s.setJob j).pairEn = s.pairEn := rfl
@[simp] theorem setJob_unitId (s : State) (j : Job) : (s.setJob j).unitId = s.unitId := rfl
@[simp] theorem setJob_modeStrap (s : State) (j : Job) : (s.setJob j).modeStrap = s.modeStrap := rfl
@[simp] theorem setJob_shutdown (s : State) (j : Job) : (s.setJob j).shutdown = s.shutdown := rfl
@[simp] theorem setJob_words (s : State) (j : Job) : (s.setJob j).words = s.words := rfl
@[simp] theorem setJob_shadow (s : State) (j : Job) : (s.setJob j).shadow = s.shadow := rfl
@[simp] theorem setJob_rwlDone (s : State) (j : Job) : (s.setJob j).rwlDone = s.rwlDone := rfl
@[simp] theorem setJob_mem (s : State) (j : Job) : (s.setJob j).mem = s.mem := rfl
@[simp] theorem setJob_flash (s : State) (j : Job) : (s.setJob j).flash = s.flash := rfl
@[simp] theorem setJob_otp (s : State) (j : Job) : (s.setJob j).otp = s.otp := rfl
@[simp] theorem setJob_ao (s : State) (j : Job) : (s.setJob j).ao = s.ao := rfl
@[simp] theorem setJob_tap (s : State) (j : Job) : (s.setJob j).tap = s.tap := rfl
@[simp] theorem setJob_tb (s : State) (j : Job) : (s.setJob j).tb = s.tb := rfl
@[simp] theorem setJob_refs (s : State) (j : Job) : (s.setJob j).refs = s.refs := rfl
@[simp] theorem setJob_events (s : State) (j : Job) : (s.setJob j).events = s.events := rfl
@[simp] theorem setJob_dcp (s : State) (j : Job) : (s.setJob j).dcp = s.dcp := rfl
@[simp] theorem setJob_ptp (s : State) (j : Job) : (s.setJob j).ptp = s.ptp := rfl
@[simp] theorem setJob_agate (s : State) (j : Job) : (s.setJob j).agate = s.agate := rfl
@[simp] theorem setJob_pwr (s : State) (j : Job) : (s.setJob j).pwr = s.pwr := rfl
@[simp] theorem setJob_ingest (s : State) (j : Job) : (s.setJob j).ingest = s.ingest := rfl
@[simp] theorem setJob_web (s : State) (j : Job) : (s.setJob j).web = s.web := rfl
@[simp] theorem setJob_screen (s : State) (j : Job) : (s.setJob j).screen = s.screen := rfl
@[simp] theorem setJob_lanes (s : State) (j : Job) : (s.setJob j).lanes = s.lanes := rfl
@[simp] theorem setJob_lines (s : State) (j : Job) : (s.setJob j).lines = s.lines := rfl
@[simp] theorem setJob_fire (s : State) (j : Job) : (s.setJob j).fire = s.fire := rfl
@[simp] theorem setJob_cam (s : State) (j : Job) : (s.setJob j).cam = s.cam := rfl
@[simp] theorem setJob_beryl (s : State) (j : Job) : (s.setJob j).beryl = s.beryl := rfl
@[simp] theorem setJob_pair (s : State) (j : Job) : (s.setJob j).pair = s.pair := rfl

/-! modRun -/

@[simp] theorem modRun_pending (s : State) (ord page : Nat) (f : PageRun → PageRun) :
    (s.modRun ord page f).pending = s.pending := rfl
@[simp] theorem modRun_clk (s : State) (ord page : Nat) (f : PageRun → PageRun) :
    (s.modRun ord page f).clk = s.clk := rfl
@[simp] theorem modRun_frc0 (s : State) (ord page : Nat) (f : PageRun → PageRun) :
    (s.modRun ord page f).frc0 = s.frc0 := rfl
@[simp] theorem modRun_free (s : State) (ord page : Nat) (f : PageRun → PageRun) :
    (s.modRun ord page f).free = s.free := rfl
@[simp] theorem modRun_out (s : State) (ord page : Nat) (f : PageRun → PageRun) :
    (s.modRun ord page f).out = s.out := rfl
@[simp] theorem modRun_core (s : State) (ord page : Nat) (f : PageRun → PageRun) :
    (s.modRun ord page f).core = s.core := rfl
@[simp] theorem modRun_base (s : State) (ord page : Nat) (f : PageRun → PageRun) :
    (s.modRun ord page f).base = s.base := rfl
@[simp] theorem modRun_pairEn (s : State) (ord page : Nat) (f : PageRun → PageRun) :
    (s.modRun ord page f).pairEn = s.pairEn := rfl
@[simp] theorem modRun_unitId (s : State) (ord page : Nat) (f : PageRun → PageRun) :
    (s.modRun ord page f).unitId = s.unitId := rfl
@[simp] theorem modRun_modeStrap (s : State) (ord page : Nat) (f : PageRun → PageRun) :
    (s.modRun ord page f).modeStrap = s.modeStrap := rfl
@[simp] theorem modRun_shutdown (s : State) (ord page : Nat) (f : PageRun → PageRun) :
    (s.modRun ord page f).shutdown = s.shutdown := rfl
@[simp] theorem modRun_words (s : State) (ord page : Nat) (f : PageRun → PageRun) :
    (s.modRun ord page f).words = s.words := rfl
@[simp] theorem modRun_shadow (s : State) (ord page : Nat) (f : PageRun → PageRun) :
    (s.modRun ord page f).shadow = s.shadow := rfl
@[simp] theorem modRun_rwlDone (s : State) (ord page : Nat) (f : PageRun → PageRun) :
    (s.modRun ord page f).rwlDone = s.rwlDone := rfl
@[simp] theorem modRun_mem (s : State) (ord page : Nat) (f : PageRun → PageRun) :
    (s.modRun ord page f).mem = s.mem := rfl
@[simp] theorem modRun_flash (s : State) (ord page : Nat) (f : PageRun → PageRun) :
    (s.modRun ord page f).flash = s.flash := rfl
@[simp] theorem modRun_otp (s : State) (ord page : Nat) (f : PageRun → PageRun) :
    (s.modRun ord page f).otp = s.otp := rfl
@[simp] theorem modRun_ao (s : State) (ord page : Nat) (f : PageRun → PageRun) : (s.modRun ord page f).ao = s.ao := rfl
@[simp] theorem modRun_tap (s : State) (ord page : Nat) (f : PageRun → PageRun) :
    (s.modRun ord page f).tap = s.tap := rfl
@[simp] theorem modRun_tb (s : State) (ord page : Nat) (f : PageRun → PageRun) : (s.modRun ord page f).tb = s.tb := rfl
@[simp] theorem modRun_refs (s : State) (ord page : Nat) (f : PageRun → PageRun) :
    (s.modRun ord page f).refs = s.refs := rfl
@[simp] theorem modRun_events (s : State) (ord page : Nat) (f : PageRun → PageRun) :
    (s.modRun ord page f).events = s.events := rfl
@[simp] theorem modRun_dcp (s : State) (ord page : Nat) (f : PageRun → PageRun) :
    (s.modRun ord page f).dcp = s.dcp := rfl
@[simp] theorem modRun_ptp (s : State) (ord page : Nat) (f : PageRun → PageRun) :
    (s.modRun ord page f).ptp = s.ptp := rfl
@[simp] theorem modRun_agate (s : State) (ord page : Nat) (f : PageRun → PageRun) :
    (s.modRun ord page f).agate = s.agate := rfl
@[simp] theorem modRun_pwr (s : State) (ord page : Nat) (f : PageRun → PageRun) :
    (s.modRun ord page f).pwr = s.pwr := rfl
@[simp] theorem modRun_ingest (s : State) (ord page : Nat) (f : PageRun → PageRun) :
    (s.modRun ord page f).ingest = s.ingest := rfl
@[simp] theorem modRun_web (s : State) (ord page : Nat) (f : PageRun → PageRun) :
    (s.modRun ord page f).web = s.web := rfl
@[simp] theorem modRun_screen (s : State) (ord page : Nat) (f : PageRun → PageRun) :
    (s.modRun ord page f).screen = s.screen := rfl
@[simp] theorem modRun_lanes (s : State) (ord page : Nat) (f : PageRun → PageRun) :
    (s.modRun ord page f).lanes = s.lanes := rfl
@[simp] theorem modRun_lines (s : State) (ord page : Nat) (f : PageRun → PageRun) :
    (s.modRun ord page f).lines = s.lines := rfl
@[simp] theorem modRun_fire (s : State) (ord page : Nat) (f : PageRun → PageRun) :
    (s.modRun ord page f).fire = s.fire := rfl
@[simp] theorem modRun_cam (s : State) (ord page : Nat) (f : PageRun → PageRun) :
    (s.modRun ord page f).cam = s.cam := rfl
@[simp] theorem modRun_beryl (s : State) (ord page : Nat) (f : PageRun → PageRun) :
    (s.modRun ord page f).beryl = s.beryl := rfl
@[simp] theorem modRun_pair (s : State) (ord page : Nat) (f : PageRun → PageRun) :
    (s.modRun ord page f).pair = s.pair := rfl

/-! modSurf -/

@[simp] theorem modSurf_pending (s : State) (id gen : Nat) (f : Surface → Surface) :
    (s.modSurf id gen f).pending = s.pending := rfl
@[simp] theorem modSurf_clk (s : State) (id gen : Nat) (f : Surface → Surface) : (s.modSurf id gen f).clk = s.clk := rfl
@[simp] theorem modSurf_frc0 (s : State) (id gen : Nat) (f : Surface → Surface) :
    (s.modSurf id gen f).frc0 = s.frc0 := rfl
@[simp] theorem modSurf_free (s : State) (id gen : Nat) (f : Surface → Surface) :
    (s.modSurf id gen f).free = s.free := rfl
@[simp] theorem modSurf_out (s : State) (id gen : Nat) (f : Surface → Surface) : (s.modSurf id gen f).out = s.out := rfl
@[simp] theorem modSurf_core (s : State) (id gen : Nat) (f : Surface → Surface) :
    (s.modSurf id gen f).core = s.core := rfl
@[simp] theorem modSurf_base (s : State) (id gen : Nat) (f : Surface → Surface) :
    (s.modSurf id gen f).base = s.base := rfl
@[simp] theorem modSurf_pairEn (s : State) (id gen : Nat) (f : Surface → Surface) :
    (s.modSurf id gen f).pairEn = s.pairEn := rfl
@[simp] theorem modSurf_unitId (s : State) (id gen : Nat) (f : Surface → Surface) :
    (s.modSurf id gen f).unitId = s.unitId := rfl
@[simp] theorem modSurf_modeStrap (s : State) (id gen : Nat) (f : Surface → Surface) :
    (s.modSurf id gen f).modeStrap = s.modeStrap := rfl
@[simp] theorem modSurf_shutdown (s : State) (id gen : Nat) (f : Surface → Surface) :
    (s.modSurf id gen f).shutdown = s.shutdown := rfl
@[simp] theorem modSurf_words (s : State) (id gen : Nat) (f : Surface → Surface) :
    (s.modSurf id gen f).words = s.words := rfl
@[simp] theorem modSurf_shadow (s : State) (id gen : Nat) (f : Surface → Surface) :
    (s.modSurf id gen f).shadow = s.shadow := rfl
@[simp] theorem modSurf_rwlDone (s : State) (id gen : Nat) (f : Surface → Surface) :
    (s.modSurf id gen f).rwlDone = s.rwlDone := rfl
@[simp] theorem modSurf_mem (s : State) (id gen : Nat) (f : Surface → Surface) : (s.modSurf id gen f).mem = s.mem := rfl
@[simp] theorem modSurf_flash (s : State) (id gen : Nat) (f : Surface → Surface) :
    (s.modSurf id gen f).flash = s.flash := rfl
@[simp] theorem modSurf_otp (s : State) (id gen : Nat) (f : Surface → Surface) : (s.modSurf id gen f).otp = s.otp := rfl
@[simp] theorem modSurf_ao (s : State) (id gen : Nat) (f : Surface → Surface) : (s.modSurf id gen f).ao = s.ao := rfl
@[simp] theorem modSurf_tap (s : State) (id gen : Nat) (f : Surface → Surface) : (s.modSurf id gen f).tap = s.tap := rfl
@[simp] theorem modSurf_tb (s : State) (id gen : Nat) (f : Surface → Surface) : (s.modSurf id gen f).tb = s.tb := rfl
@[simp] theorem modSurf_refs (s : State) (id gen : Nat) (f : Surface → Surface) :
    (s.modSurf id gen f).refs = s.refs := rfl
@[simp] theorem modSurf_events (s : State) (id gen : Nat) (f : Surface → Surface) :
    (s.modSurf id gen f).events = s.events := rfl
@[simp] theorem modSurf_dcp (s : State) (id gen : Nat) (f : Surface → Surface) : (s.modSurf id gen f).dcp = s.dcp := rfl
@[simp] theorem modSurf_ptp (s : State) (id gen : Nat) (f : Surface → Surface) : (s.modSurf id gen f).ptp = s.ptp := rfl
@[simp] theorem modSurf_agate (s : State) (id gen : Nat) (f : Surface → Surface) :
    (s.modSurf id gen f).agate = s.agate := rfl
@[simp] theorem modSurf_pwr (s : State) (id gen : Nat) (f : Surface → Surface) : (s.modSurf id gen f).pwr = s.pwr := rfl
@[simp] theorem modSurf_scan (s : State) (id gen : Nat) (f : Surface → Surface) :
    (s.modSurf id gen f).scan = s.scan := rfl
@[simp] theorem modSurf_web (s : State) (id gen : Nat) (f : Surface → Surface) : (s.modSurf id gen f).web = s.web := rfl
@[simp] theorem modSurf_screen (s : State) (id gen : Nat) (f : Surface → Surface) :
    (s.modSurf id gen f).screen = s.screen := rfl
@[simp] theorem modSurf_lanes (s : State) (id gen : Nat) (f : Surface → Surface) :
    (s.modSurf id gen f).lanes = s.lanes := rfl
@[simp] theorem modSurf_lines (s : State) (id gen : Nat) (f : Surface → Surface) :
    (s.modSurf id gen f).lines = s.lines := rfl
@[simp] theorem modSurf_fire (s : State) (id gen : Nat) (f : Surface → Surface) :
    (s.modSurf id gen f).fire = s.fire := rfl
@[simp] theorem modSurf_cam (s : State) (id gen : Nat) (f : Surface → Surface) : (s.modSurf id gen f).cam = s.cam := rfl
@[simp] theorem modSurf_beryl (s : State) (id gen : Nat) (f : Surface → Surface) :
    (s.modSurf id gen f).beryl = s.beryl := rfl
@[simp] theorem modSurf_pair (s : State) (id gen : Nat) (f : Surface → Surface) :
    (s.modSurf id gen f).pair = s.pair := rfl

/-! modLane -/

@[simp] theorem modLane_pending (s : State) (l : Nat) (f : LaneSt → LaneSt) : (s.modLane l f).pending = s.pending := rfl
@[simp] theorem modLane_clk (s : State) (l : Nat) (f : LaneSt → LaneSt) : (s.modLane l f).clk = s.clk := rfl
@[simp] theorem modLane_frc0 (s : State) (l : Nat) (f : LaneSt → LaneSt) : (s.modLane l f).frc0 = s.frc0 := rfl
@[simp] theorem modLane_free (s : State) (l : Nat) (f : LaneSt → LaneSt) : (s.modLane l f).free = s.free := rfl
@[simp] theorem modLane_out (s : State) (l : Nat) (f : LaneSt → LaneSt) : (s.modLane l f).out = s.out := rfl
@[simp] theorem modLane_core (s : State) (l : Nat) (f : LaneSt → LaneSt) : (s.modLane l f).core = s.core := rfl
@[simp] theorem modLane_base (s : State) (l : Nat) (f : LaneSt → LaneSt) : (s.modLane l f).base = s.base := rfl
@[simp] theorem modLane_pairEn (s : State) (l : Nat) (f : LaneSt → LaneSt) : (s.modLane l f).pairEn = s.pairEn := rfl
@[simp] theorem modLane_unitId (s : State) (l : Nat) (f : LaneSt → LaneSt) : (s.modLane l f).unitId = s.unitId := rfl
@[simp] theorem modLane_modeStrap (s : State) (l : Nat) (f : LaneSt → LaneSt) :
    (s.modLane l f).modeStrap = s.modeStrap := rfl
@[simp] theorem modLane_shutdown (s : State) (l : Nat) (f : LaneSt → LaneSt) :
    (s.modLane l f).shutdown = s.shutdown := rfl
@[simp] theorem modLane_words (s : State) (l : Nat) (f : LaneSt → LaneSt) : (s.modLane l f).words = s.words := rfl
@[simp] theorem modLane_shadow (s : State) (l : Nat) (f : LaneSt → LaneSt) : (s.modLane l f).shadow = s.shadow := rfl
@[simp] theorem modLane_rwlDone (s : State) (l : Nat) (f : LaneSt → LaneSt) : (s.modLane l f).rwlDone = s.rwlDone := rfl
@[simp] theorem modLane_mem (s : State) (l : Nat) (f : LaneSt → LaneSt) : (s.modLane l f).mem = s.mem := rfl
@[simp] theorem modLane_flash (s : State) (l : Nat) (f : LaneSt → LaneSt) : (s.modLane l f).flash = s.flash := rfl
@[simp] theorem modLane_otp (s : State) (l : Nat) (f : LaneSt → LaneSt) : (s.modLane l f).otp = s.otp := rfl
@[simp] theorem modLane_ao (s : State) (l : Nat) (f : LaneSt → LaneSt) : (s.modLane l f).ao = s.ao := rfl
@[simp] theorem modLane_tap (s : State) (l : Nat) (f : LaneSt → LaneSt) : (s.modLane l f).tap = s.tap := rfl
@[simp] theorem modLane_tb (s : State) (l : Nat) (f : LaneSt → LaneSt) : (s.modLane l f).tb = s.tb := rfl
@[simp] theorem modLane_refs (s : State) (l : Nat) (f : LaneSt → LaneSt) : (s.modLane l f).refs = s.refs := rfl
@[simp] theorem modLane_events (s : State) (l : Nat) (f : LaneSt → LaneSt) : (s.modLane l f).events = s.events := rfl
@[simp] theorem modLane_dcp (s : State) (l : Nat) (f : LaneSt → LaneSt) : (s.modLane l f).dcp = s.dcp := rfl
@[simp] theorem modLane_ptp (s : State) (l : Nat) (f : LaneSt → LaneSt) : (s.modLane l f).ptp = s.ptp := rfl
@[simp] theorem modLane_agate (s : State) (l : Nat) (f : LaneSt → LaneSt) : (s.modLane l f).agate = s.agate := rfl
@[simp] theorem modLane_pwr (s : State) (l : Nat) (f : LaneSt → LaneSt) : (s.modLane l f).pwr = s.pwr := rfl
@[simp] theorem modLane_ingest (s : State) (l : Nat) (f : LaneSt → LaneSt) : (s.modLane l f).ingest = s.ingest := rfl
@[simp] theorem modLane_scan (s : State) (l : Nat) (f : LaneSt → LaneSt) : (s.modLane l f).scan = s.scan := rfl
@[simp] theorem modLane_web (s : State) (l : Nat) (f : LaneSt → LaneSt) : (s.modLane l f).web = s.web := rfl
@[simp] theorem modLane_screen (s : State) (l : Nat) (f : LaneSt → LaneSt) : (s.modLane l f).screen = s.screen := rfl
@[simp] theorem modLane_lanes (s : State) (l : Nat) (f : LaneSt → LaneSt) :
    (s.modLane l f).lanes = modAt s.lanes l f := rfl
@[simp] theorem modLane_lines (s : State) (l : Nat) (f : LaneSt → LaneSt) : (s.modLane l f).lines = s.lines := rfl
@[simp] theorem modLane_fire (s : State) (l : Nat) (f : LaneSt → LaneSt) : (s.modLane l f).fire = s.fire := rfl
@[simp] theorem modLane_cam (s : State) (l : Nat) (f : LaneSt → LaneSt) : (s.modLane l f).cam = s.cam := rfl
@[simp] theorem modLane_beryl (s : State) (l : Nat) (f : LaneSt → LaneSt) : (s.modLane l f).beryl = s.beryl := rfl
@[simp] theorem modLane_pair (s : State) (l : Nat) (f : LaneSt → LaneSt) : (s.modLane l f).pair = s.pair := rfl

/-! modLines -/

@[simp] theorem modLines_pending (s : State) (ch : Nat) (f : List ChanLine → List ChanLine) :
    (s.modLines ch f).pending = s.pending := rfl
@[simp] theorem modLines_clk (s : State) (ch : Nat) (f : List ChanLine → List ChanLine) :
    (s.modLines ch f).clk = s.clk := rfl
@[simp] theorem modLines_frc0 (s : State) (ch : Nat) (f : List ChanLine → List ChanLine) :
    (s.modLines ch f).frc0 = s.frc0 := rfl
@[simp] theorem modLines_free (s : State) (ch : Nat) (f : List ChanLine → List ChanLine) :
    (s.modLines ch f).free = s.free := rfl
@[simp] theorem modLines_out (s : State) (ch : Nat) (f : List ChanLine → List ChanLine) :
    (s.modLines ch f).out = s.out := rfl
@[simp] theorem modLines_core (s : State) (ch : Nat) (f : List ChanLine → List ChanLine) :
    (s.modLines ch f).core = s.core := rfl
@[simp] theorem modLines_base (s : State) (ch : Nat) (f : List ChanLine → List ChanLine) :
    (s.modLines ch f).base = s.base := rfl
@[simp] theorem modLines_pairEn (s : State) (ch : Nat) (f : List ChanLine → List ChanLine) :
    (s.modLines ch f).pairEn = s.pairEn := rfl
@[simp] theorem modLines_unitId (s : State) (ch : Nat) (f : List ChanLine → List ChanLine) :
    (s.modLines ch f).unitId = s.unitId := rfl
@[simp] theorem modLines_modeStrap (s : State) (ch : Nat) (f : List ChanLine → List ChanLine) :
    (s.modLines ch f).modeStrap = s.modeStrap := rfl
@[simp] theorem modLines_shutdown (s : State) (ch : Nat) (f : List ChanLine → List ChanLine) :
    (s.modLines ch f).shutdown = s.shutdown := rfl
@[simp] theorem modLines_words (s : State) (ch : Nat) (f : List ChanLine → List ChanLine) :
    (s.modLines ch f).words = s.words := rfl
@[simp] theorem modLines_shadow (s : State) (ch : Nat) (f : List ChanLine → List ChanLine) :
    (s.modLines ch f).shadow = s.shadow := rfl
@[simp] theorem modLines_rwlDone (s : State) (ch : Nat) (f : List ChanLine → List ChanLine) :
    (s.modLines ch f).rwlDone = s.rwlDone := rfl
@[simp] theorem modLines_mem (s : State) (ch : Nat) (f : List ChanLine → List ChanLine) :
    (s.modLines ch f).mem = s.mem := rfl
@[simp] theorem modLines_flash (s : State) (ch : Nat) (f : List ChanLine → List ChanLine) :
    (s.modLines ch f).flash = s.flash := rfl
@[simp] theorem modLines_otp (s : State) (ch : Nat) (f : List ChanLine → List ChanLine) :
    (s.modLines ch f).otp = s.otp := rfl
@[simp] theorem modLines_ao (s : State) (ch : Nat) (f : List ChanLine → List ChanLine) :
    (s.modLines ch f).ao = s.ao := rfl
@[simp] theorem modLines_tap (s : State) (ch : Nat) (f : List ChanLine → List ChanLine) :
    (s.modLines ch f).tap = s.tap := rfl
@[simp] theorem modLines_tb (s : State) (ch : Nat) (f : List ChanLine → List ChanLine) :
    (s.modLines ch f).tb = s.tb := rfl
@[simp] theorem modLines_refs (s : State) (ch : Nat) (f : List ChanLine → List ChanLine) :
    (s.modLines ch f).refs = s.refs := rfl
@[simp] theorem modLines_events (s : State) (ch : Nat) (f : List ChanLine → List ChanLine) :
    (s.modLines ch f).events = s.events := rfl
@[simp] theorem modLines_dcp (s : State) (ch : Nat) (f : List ChanLine → List ChanLine) :
    (s.modLines ch f).dcp = s.dcp := rfl
@[simp] theorem modLines_ptp (s : State) (ch : Nat) (f : List ChanLine → List ChanLine) :
    (s.modLines ch f).ptp = s.ptp := rfl
@[simp] theorem modLines_agate (s : State) (ch : Nat) (f : List ChanLine → List ChanLine) :
    (s.modLines ch f).agate = s.agate := rfl
@[simp] theorem modLines_pwr (s : State) (ch : Nat) (f : List ChanLine → List ChanLine) :
    (s.modLines ch f).pwr = s.pwr := rfl
@[simp] theorem modLines_ingest (s : State) (ch : Nat) (f : List ChanLine → List ChanLine) :
    (s.modLines ch f).ingest = s.ingest := rfl
@[simp] theorem modLines_scan (s : State) (ch : Nat) (f : List ChanLine → List ChanLine) :
    (s.modLines ch f).scan = s.scan := rfl
@[simp] theorem modLines_web (s : State) (ch : Nat) (f : List ChanLine → List ChanLine) :
    (s.modLines ch f).web = s.web := rfl
@[simp] theorem modLines_screen (s : State) (ch : Nat) (f : List ChanLine → List ChanLine) :
    (s.modLines ch f).screen = s.screen := rfl
@[simp] theorem modLines_lanes (s : State) (ch : Nat) (f : List ChanLine → List ChanLine) :
    (s.modLines ch f).lanes = s.lanes := rfl
@[simp] theorem modLines_lines (s : State) (ch : Nat) (f : List ChanLine → List ChanLine) :
    (s.modLines ch f).lines = modAt s.lines ch f := rfl
@[simp] theorem modLines_fire (s : State) (ch : Nat) (f : List ChanLine → List ChanLine) :
    (s.modLines ch f).fire = s.fire := rfl
@[simp] theorem modLines_cam (s : State) (ch : Nat) (f : List ChanLine → List ChanLine) :
    (s.modLines ch f).cam = s.cam := rfl
@[simp] theorem modLines_beryl (s : State) (ch : Nat) (f : List ChanLine → List ChanLine) :
    (s.modLines ch f).beryl = s.beryl := rfl
@[simp] theorem modLines_pair (s : State) (ch : Nat) (f : List ChanLine → List ChanLine) :
    (s.modLines ch f).pair = s.pair := rfl

/-! modEnc -/

@[simp] theorem modEnc_pending (s : State) (n : Nat) (f : Enc → Enc) : (s.modEnc n f).pending = s.pending := rfl
@[simp] theorem modEnc_clk (s : State) (n : Nat) (f : Enc → Enc) : (s.modEnc n f).clk = s.clk := rfl
@[simp] theorem modEnc_frc0 (s : State) (n : Nat) (f : Enc → Enc) : (s.modEnc n f).frc0 = s.frc0 := rfl
@[simp] theorem modEnc_free (s : State) (n : Nat) (f : Enc → Enc) : (s.modEnc n f).free = s.free := rfl
@[simp] theorem modEnc_out (s : State) (n : Nat) (f : Enc → Enc) : (s.modEnc n f).out = s.out := rfl
@[simp] theorem modEnc_core (s : State) (n : Nat) (f : Enc → Enc) : (s.modEnc n f).core = s.core := rfl
@[simp] theorem modEnc_base (s : State) (n : Nat) (f : Enc → Enc) : (s.modEnc n f).base = s.base := rfl
@[simp] theorem modEnc_pairEn (s : State) (n : Nat) (f : Enc → Enc) : (s.modEnc n f).pairEn = s.pairEn := rfl
@[simp] theorem modEnc_unitId (s : State) (n : Nat) (f : Enc → Enc) : (s.modEnc n f).unitId = s.unitId := rfl
@[simp] theorem modEnc_modeStrap (s : State) (n : Nat) (f : Enc → Enc) : (s.modEnc n f).modeStrap = s.modeStrap := rfl
@[simp] theorem modEnc_shutdown (s : State) (n : Nat) (f : Enc → Enc) : (s.modEnc n f).shutdown = s.shutdown := rfl
@[simp] theorem modEnc_words (s : State) (n : Nat) (f : Enc → Enc) : (s.modEnc n f).words = s.words := rfl
@[simp] theorem modEnc_shadow (s : State) (n : Nat) (f : Enc → Enc) : (s.modEnc n f).shadow = s.shadow := rfl
@[simp] theorem modEnc_rwlDone (s : State) (n : Nat) (f : Enc → Enc) : (s.modEnc n f).rwlDone = s.rwlDone := rfl
@[simp] theorem modEnc_mem (s : State) (n : Nat) (f : Enc → Enc) : (s.modEnc n f).mem = s.mem := rfl
@[simp] theorem modEnc_flash (s : State) (n : Nat) (f : Enc → Enc) : (s.modEnc n f).flash = s.flash := rfl
@[simp] theorem modEnc_otp (s : State) (n : Nat) (f : Enc → Enc) : (s.modEnc n f).otp = s.otp := rfl
@[simp] theorem modEnc_ao (s : State) (n : Nat) (f : Enc → Enc) : (s.modEnc n f).ao = s.ao := rfl
@[simp] theorem modEnc_tap (s : State) (n : Nat) (f : Enc → Enc) : (s.modEnc n f).tap = s.tap := rfl
@[simp] theorem modEnc_tb (s : State) (n : Nat) (f : Enc → Enc) : (s.modEnc n f).tb = s.tb := rfl
@[simp] theorem modEnc_refs (s : State) (n : Nat) (f : Enc → Enc) : (s.modEnc n f).refs = s.refs := rfl
@[simp] theorem modEnc_events (s : State) (n : Nat) (f : Enc → Enc) : (s.modEnc n f).events = s.events := rfl
@[simp] theorem modEnc_dcp (s : State) (n : Nat) (f : Enc → Enc) : (s.modEnc n f).dcp = s.dcp := rfl
@[simp] theorem modEnc_ptp (s : State) (n : Nat) (f : Enc → Enc) : (s.modEnc n f).ptp = s.ptp := rfl
@[simp] theorem modEnc_agate (s : State) (n : Nat) (f : Enc → Enc) : (s.modEnc n f).agate = s.agate := rfl
@[simp] theorem modEnc_pwr (s : State) (n : Nat) (f : Enc → Enc) : (s.modEnc n f).pwr = s.pwr := rfl
@[simp] theorem modEnc_ingest (s : State) (n : Nat) (f : Enc → Enc) : (s.modEnc n f).ingest = s.ingest := rfl
@[simp] theorem modEnc_scan (s : State) (n : Nat) (f : Enc → Enc) : (s.modEnc n f).scan = s.scan := rfl
@[simp] theorem modEnc_web (s : State) (n : Nat) (f : Enc → Enc) :
    (s.modEnc n f).web = { s.web with encs := modAt s.web.encs n f } := rfl
@[simp] theorem modEnc_screen (s : State) (n : Nat) (f : Enc → Enc) : (s.modEnc n f).screen = s.screen := rfl
@[simp] theorem modEnc_lanes (s : State) (n : Nat) (f : Enc → Enc) : (s.modEnc n f).lanes = s.lanes := rfl
@[simp] theorem modEnc_lines (s : State) (n : Nat) (f : Enc → Enc) : (s.modEnc n f).lines = s.lines := rfl
@[simp] theorem modEnc_fire (s : State) (n : Nat) (f : Enc → Enc) : (s.modEnc n f).fire = s.fire := rfl
@[simp] theorem modEnc_cam (s : State) (n : Nat) (f : Enc → Enc) : (s.modEnc n f).cam = s.cam := rfl
@[simp] theorem modEnc_beryl (s : State) (n : Nat) (f : Enc → Enc) : (s.modEnc n f).beryl = s.beryl := rfl
@[simp] theorem modEnc_pair (s : State) (n : Nat) (f : Enc → Enc) : (s.modEnc n f).pair = s.pair := rfl

/-! modProbe -/

@[simp] theorem modProbe_pending (s : State) (n : Nat) (f : Probe → Probe) : (s.modProbe n f).pending = s.pending := rfl
@[simp] theorem modProbe_clk (s : State) (n : Nat) (f : Probe → Probe) : (s.modProbe n f).clk = s.clk := rfl
@[simp] theorem modProbe_frc0 (s : State) (n : Nat) (f : Probe → Probe) : (s.modProbe n f).frc0 = s.frc0 := rfl
@[simp] theorem modProbe_free (s : State) (n : Nat) (f : Probe → Probe) : (s.modProbe n f).free = s.free := rfl
@[simp] theorem modProbe_out (s : State) (n : Nat) (f : Probe → Probe) : (s.modProbe n f).out = s.out := rfl
@[simp] theorem modProbe_core (s : State) (n : Nat) (f : Probe → Probe) : (s.modProbe n f).core = s.core := rfl
@[simp] theorem modProbe_base (s : State) (n : Nat) (f : Probe → Probe) : (s.modProbe n f).base = s.base := rfl
@[simp] theorem modProbe_pairEn (s : State) (n : Nat) (f : Probe → Probe) : (s.modProbe n f).pairEn = s.pairEn := rfl
@[simp] theorem modProbe_unitId (s : State) (n : Nat) (f : Probe → Probe) : (s.modProbe n f).unitId = s.unitId := rfl
@[simp] theorem modProbe_modeStrap (s : State) (n : Nat) (f : Probe → Probe) :
    (s.modProbe n f).modeStrap = s.modeStrap := rfl
@[simp] theorem modProbe_shutdown (s : State) (n : Nat) (f : Probe → Probe) :
    (s.modProbe n f).shutdown = s.shutdown := rfl
@[simp] theorem modProbe_words (s : State) (n : Nat) (f : Probe → Probe) : (s.modProbe n f).words = s.words := rfl
@[simp] theorem modProbe_shadow (s : State) (n : Nat) (f : Probe → Probe) : (s.modProbe n f).shadow = s.shadow := rfl
@[simp] theorem modProbe_rwlDone (s : State) (n : Nat) (f : Probe → Probe) : (s.modProbe n f).rwlDone = s.rwlDone := rfl
@[simp] theorem modProbe_mem (s : State) (n : Nat) (f : Probe → Probe) : (s.modProbe n f).mem = s.mem := rfl
@[simp] theorem modProbe_flash (s : State) (n : Nat) (f : Probe → Probe) : (s.modProbe n f).flash = s.flash := rfl
@[simp] theorem modProbe_otp (s : State) (n : Nat) (f : Probe → Probe) : (s.modProbe n f).otp = s.otp := rfl
@[simp] theorem modProbe_ao (s : State) (n : Nat) (f : Probe → Probe) : (s.modProbe n f).ao = s.ao := rfl
@[simp] theorem modProbe_tap (s : State) (n : Nat) (f : Probe → Probe) : (s.modProbe n f).tap = s.tap := rfl
@[simp] theorem modProbe_tb (s : State) (n : Nat) (f : Probe → Probe) : (s.modProbe n f).tb = s.tb := rfl
@[simp] theorem modProbe_refs (s : State) (n : Nat) (f : Probe → Probe) : (s.modProbe n f).refs = s.refs := rfl
@[simp] theorem modProbe_events (s : State) (n : Nat) (f : Probe → Probe) : (s.modProbe n f).events = s.events := rfl
@[simp] theorem modProbe_dcp (s : State) (n : Nat) (f : Probe → Probe) : (s.modProbe n f).dcp = s.dcp := rfl
@[simp] theorem modProbe_ptp (s : State) (n : Nat) (f : Probe → Probe) : (s.modProbe n f).ptp = s.ptp := rfl
@[simp] theorem modProbe_agate (s : State) (n : Nat) (f : Probe → Probe) : (s.modProbe n f).agate = s.agate := rfl
@[simp] theorem modProbe_pwr (s : State) (n : Nat) (f : Probe → Probe) : (s.modProbe n f).pwr = s.pwr := rfl
@[simp] theorem modProbe_ingest (s : State) (n : Nat) (f : Probe → Probe) : (s.modProbe n f).ingest = s.ingest := rfl
@[simp] theorem modProbe_scan (s : State) (n : Nat) (f : Probe → Probe) : (s.modProbe n f).scan = s.scan := rfl
@[simp] theorem modProbe_web (s : State) (n : Nat) (f : Probe → Probe) :
    (s.modProbe n f).web = { s.web with probes := modAt s.web.probes n f } := rfl
@[simp] theorem modProbe_screen (s : State) (n : Nat) (f : Probe → Probe) : (s.modProbe n f).screen = s.screen := rfl
@[simp] theorem modProbe_lanes (s : State) (n : Nat) (f : Probe → Probe) : (s.modProbe n f).lanes = s.lanes := rfl
@[simp] theorem modProbe_lines (s : State) (n : Nat) (f : Probe → Probe) : (s.modProbe n f).lines = s.lines := rfl
@[simp] theorem modProbe_fire (s : State) (n : Nat) (f : Probe → Probe) : (s.modProbe n f).fire = s.fire := rfl
@[simp] theorem modProbe_cam (s : State) (n : Nat) (f : Probe → Probe) : (s.modProbe n f).cam = s.cam := rfl
@[simp] theorem modProbe_beryl (s : State) (n : Nat) (f : Probe → Probe) : (s.modProbe n f).beryl = s.beryl := rfl
@[simp] theorem modProbe_pair (s : State) (n : Nat) (f : Probe → Probe) : (s.modProbe n f).pair = s.pair := rfl

/-! modEnco -/

@[simp] theorem modEnco_pending (s : State) (n : Nat) (f : Enco → Enco) : (s.modEnco n f).pending = s.pending := rfl
@[simp] theorem modEnco_clk (s : State) (n : Nat) (f : Enco → Enco) : (s.modEnco n f).clk = s.clk := rfl
@[simp] theorem modEnco_frc0 (s : State) (n : Nat) (f : Enco → Enco) : (s.modEnco n f).frc0 = s.frc0 := rfl
@[simp] theorem modEnco_free (s : State) (n : Nat) (f : Enco → Enco) : (s.modEnco n f).free = s.free := rfl
@[simp] theorem modEnco_out (s : State) (n : Nat) (f : Enco → Enco) : (s.modEnco n f).out = s.out := rfl
@[simp] theorem modEnco_core (s : State) (n : Nat) (f : Enco → Enco) : (s.modEnco n f).core = s.core := rfl
@[simp] theorem modEnco_base (s : State) (n : Nat) (f : Enco → Enco) : (s.modEnco n f).base = s.base := rfl
@[simp] theorem modEnco_pairEn (s : State) (n : Nat) (f : Enco → Enco) : (s.modEnco n f).pairEn = s.pairEn := rfl
@[simp] theorem modEnco_unitId (s : State) (n : Nat) (f : Enco → Enco) : (s.modEnco n f).unitId = s.unitId := rfl
@[simp] theorem modEnco_modeStrap (s : State) (n : Nat) (f : Enco → Enco) :
    (s.modEnco n f).modeStrap = s.modeStrap := rfl
@[simp] theorem modEnco_shutdown (s : State) (n : Nat) (f : Enco → Enco) : (s.modEnco n f).shutdown = s.shutdown := rfl
@[simp] theorem modEnco_words (s : State) (n : Nat) (f : Enco → Enco) : (s.modEnco n f).words = s.words := rfl
@[simp] theorem modEnco_shadow (s : State) (n : Nat) (f : Enco → Enco) : (s.modEnco n f).shadow = s.shadow := rfl
@[simp] theorem modEnco_rwlDone (s : State) (n : Nat) (f : Enco → Enco) : (s.modEnco n f).rwlDone = s.rwlDone := rfl
@[simp] theorem modEnco_mem (s : State) (n : Nat) (f : Enco → Enco) : (s.modEnco n f).mem = s.mem := rfl
@[simp] theorem modEnco_flash (s : State) (n : Nat) (f : Enco → Enco) : (s.modEnco n f).flash = s.flash := rfl
@[simp] theorem modEnco_otp (s : State) (n : Nat) (f : Enco → Enco) : (s.modEnco n f).otp = s.otp := rfl
@[simp] theorem modEnco_ao (s : State) (n : Nat) (f : Enco → Enco) : (s.modEnco n f).ao = s.ao := rfl
@[simp] theorem modEnco_tap (s : State) (n : Nat) (f : Enco → Enco) : (s.modEnco n f).tap = s.tap := rfl
@[simp] theorem modEnco_tb (s : State) (n : Nat) (f : Enco → Enco) : (s.modEnco n f).tb = s.tb := rfl
@[simp] theorem modEnco_refs (s : State) (n : Nat) (f : Enco → Enco) : (s.modEnco n f).refs = s.refs := rfl
@[simp] theorem modEnco_events (s : State) (n : Nat) (f : Enco → Enco) : (s.modEnco n f).events = s.events := rfl
@[simp] theorem modEnco_dcp (s : State) (n : Nat) (f : Enco → Enco) : (s.modEnco n f).dcp = s.dcp := rfl
@[simp] theorem modEnco_ptp (s : State) (n : Nat) (f : Enco → Enco) : (s.modEnco n f).ptp = s.ptp := rfl
@[simp] theorem modEnco_agate (s : State) (n : Nat) (f : Enco → Enco) : (s.modEnco n f).agate = s.agate := rfl
@[simp] theorem modEnco_pwr (s : State) (n : Nat) (f : Enco → Enco) : (s.modEnco n f).pwr = s.pwr := rfl
@[simp] theorem modEnco_ingest (s : State) (n : Nat) (f : Enco → Enco) : (s.modEnco n f).ingest = s.ingest := rfl
@[simp] theorem modEnco_scan (s : State) (n : Nat) (f : Enco → Enco) : (s.modEnco n f).scan = s.scan := rfl
@[simp] theorem modEnco_web (s : State) (n : Nat) (f : Enco → Enco) :
    (s.modEnco n f).web = { s.web with encos := modAt s.web.encos n f } := rfl
@[simp] theorem modEnco_screen (s : State) (n : Nat) (f : Enco → Enco) : (s.modEnco n f).screen = s.screen := rfl
@[simp] theorem modEnco_lanes (s : State) (n : Nat) (f : Enco → Enco) : (s.modEnco n f).lanes = s.lanes := rfl
@[simp] theorem modEnco_lines (s : State) (n : Nat) (f : Enco → Enco) : (s.modEnco n f).lines = s.lines := rfl
@[simp] theorem modEnco_fire (s : State) (n : Nat) (f : Enco → Enco) : (s.modEnco n f).fire = s.fire := rfl
@[simp] theorem modEnco_cam (s : State) (n : Nat) (f : Enco → Enco) : (s.modEnco n f).cam = s.cam := rfl
@[simp] theorem modEnco_beryl (s : State) (n : Nat) (f : Enco → Enco) : (s.modEnco n f).beryl = s.beryl := rfl
@[simp] theorem modEnco_pair (s : State) (n : Nat) (f : Enco → Enco) : (s.modEnco n f).pair = s.pair := rfl

/-! modBar -/

@[simp] theorem modBar_pending (s : State) (b : Nat) (f : ScreenBar → ScreenBar) :
    (s.modBar b f).pending = s.pending := rfl
@[simp] theorem modBar_clk (s : State) (b : Nat) (f : ScreenBar → ScreenBar) : (s.modBar b f).clk = s.clk := rfl
@[simp] theorem modBar_frc0 (s : State) (b : Nat) (f : ScreenBar → ScreenBar) : (s.modBar b f).frc0 = s.frc0 := rfl
@[simp] theorem modBar_free (s : State) (b : Nat) (f : ScreenBar → ScreenBar) : (s.modBar b f).free = s.free := rfl
@[simp] theorem modBar_out (s : State) (b : Nat) (f : ScreenBar → ScreenBar) : (s.modBar b f).out = s.out := rfl
@[simp] theorem modBar_core (s : State) (b : Nat) (f : ScreenBar → ScreenBar) : (s.modBar b f).core = s.core := rfl
@[simp] theorem modBar_base (s : State) (b : Nat) (f : ScreenBar → ScreenBar) : (s.modBar b f).base = s.base := rfl
@[simp] theorem modBar_pairEn (s : State) (b : Nat) (f : ScreenBar → ScreenBar) :
    (s.modBar b f).pairEn = s.pairEn := rfl
@[simp] theorem modBar_unitId (s : State) (b : Nat) (f : ScreenBar → ScreenBar) :
    (s.modBar b f).unitId = s.unitId := rfl
@[simp] theorem modBar_modeStrap (s : State) (b : Nat) (f : ScreenBar → ScreenBar) :
    (s.modBar b f).modeStrap = s.modeStrap := rfl
@[simp] theorem modBar_shutdown (s : State) (b : Nat) (f : ScreenBar → ScreenBar) :
    (s.modBar b f).shutdown = s.shutdown := rfl
@[simp] theorem modBar_words (s : State) (b : Nat) (f : ScreenBar → ScreenBar) : (s.modBar b f).words = s.words := rfl
@[simp] theorem modBar_shadow (s : State) (b : Nat) (f : ScreenBar → ScreenBar) :
    (s.modBar b f).shadow = s.shadow := rfl
@[simp] theorem modBar_rwlDone (s : State) (b : Nat) (f : ScreenBar → ScreenBar) :
    (s.modBar b f).rwlDone = s.rwlDone := rfl
@[simp] theorem modBar_mem (s : State) (b : Nat) (f : ScreenBar → ScreenBar) : (s.modBar b f).mem = s.mem := rfl
@[simp] theorem modBar_flash (s : State) (b : Nat) (f : ScreenBar → ScreenBar) : (s.modBar b f).flash = s.flash := rfl
@[simp] theorem modBar_otp (s : State) (b : Nat) (f : ScreenBar → ScreenBar) : (s.modBar b f).otp = s.otp := rfl
@[simp] theorem modBar_ao (s : State) (b : Nat) (f : ScreenBar → ScreenBar) : (s.modBar b f).ao = s.ao := rfl
@[simp] theorem modBar_tap (s : State) (b : Nat) (f : ScreenBar → ScreenBar) : (s.modBar b f).tap = s.tap := rfl
@[simp] theorem modBar_tb (s : State) (b : Nat) (f : ScreenBar → ScreenBar) : (s.modBar b f).tb = s.tb := rfl
@[simp] theorem modBar_refs (s : State) (b : Nat) (f : ScreenBar → ScreenBar) : (s.modBar b f).refs = s.refs := rfl
@[simp] theorem modBar_events (s : State) (b : Nat) (f : ScreenBar → ScreenBar) :
    (s.modBar b f).events = s.events := rfl
@[simp] theorem modBar_dcp (s : State) (b : Nat) (f : ScreenBar → ScreenBar) : (s.modBar b f).dcp = s.dcp := rfl
@[simp] theorem modBar_ptp (s : State) (b : Nat) (f : ScreenBar → ScreenBar) : (s.modBar b f).ptp = s.ptp := rfl
@[simp] theorem modBar_agate (s : State) (b : Nat) (f : ScreenBar → ScreenBar) : (s.modBar b f).agate = s.agate := rfl
@[simp] theorem modBar_pwr (s : State) (b : Nat) (f : ScreenBar → ScreenBar) : (s.modBar b f).pwr = s.pwr := rfl
@[simp] theorem modBar_ingest (s : State) (b : Nat) (f : ScreenBar → ScreenBar) :
    (s.modBar b f).ingest = s.ingest := rfl
@[simp] theorem modBar_scan (s : State) (b : Nat) (f : ScreenBar → ScreenBar) : (s.modBar b f).scan = s.scan := rfl
@[simp] theorem modBar_web (s : State) (b : Nat) (f : ScreenBar → ScreenBar) : (s.modBar b f).web = s.web := rfl
@[simp] theorem modBar_screen (s : State) (b : Nat) (f : ScreenBar → ScreenBar) :
    (s.modBar b f).screen = { s.screen with bars := modAt s.screen.bars b f } := rfl
@[simp] theorem modBar_lanes (s : State) (b : Nat) (f : ScreenBar → ScreenBar) : (s.modBar b f).lanes = s.lanes := rfl
@[simp] theorem modBar_lines (s : State) (b : Nat) (f : ScreenBar → ScreenBar) : (s.modBar b f).lines = s.lines := rfl
@[simp] theorem modBar_fire (s : State) (b : Nat) (f : ScreenBar → ScreenBar) : (s.modBar b f).fire = s.fire := rfl
@[simp] theorem modBar_cam (s : State) (b : Nat) (f : ScreenBar → ScreenBar) : (s.modBar b f).cam = s.cam := rfl
@[simp] theorem modBar_beryl (s : State) (b : Nat) (f : ScreenBar → ScreenBar) : (s.modBar b f).beryl = s.beryl := rfl
@[simp] theorem modBar_pair (s : State) (b : Nat) (f : ScreenBar → ScreenBar) : (s.modBar b f).pair = s.pair := rfl

/-! modStream -/

@[simp] theorem modStream_pending (s : State) (x : ProofStream) (f : ProofStream → ProofStream) :
    (s.modStream x f).pending = s.pending := rfl
@[simp] theorem modStream_clk (s : State) (x : ProofStream) (f : ProofStream → ProofStream) :
    (s.modStream x f).clk = s.clk := rfl
@[simp] theorem modStream_frc0 (s : State) (x : ProofStream) (f : ProofStream → ProofStream) :
    (s.modStream x f).frc0 = s.frc0 := rfl
@[simp] theorem modStream_free (s : State) (x : ProofStream) (f : ProofStream → ProofStream) :
    (s.modStream x f).free = s.free := rfl
@[simp] theorem modStream_out (s : State) (x : ProofStream) (f : ProofStream → ProofStream) :
    (s.modStream x f).out = s.out := rfl
@[simp] theorem modStream_core (s : State) (x : ProofStream) (f : ProofStream → ProofStream) :
    (s.modStream x f).core = s.core := rfl
@[simp] theorem modStream_base (s : State) (x : ProofStream) (f : ProofStream → ProofStream) :
    (s.modStream x f).base = s.base := rfl
@[simp] theorem modStream_pairEn (s : State) (x : ProofStream) (f : ProofStream → ProofStream) :
    (s.modStream x f).pairEn = s.pairEn := rfl
@[simp] theorem modStream_unitId (s : State) (x : ProofStream) (f : ProofStream → ProofStream) :
    (s.modStream x f).unitId = s.unitId := rfl
@[simp] theorem modStream_modeStrap (s : State) (x : ProofStream) (f : ProofStream → ProofStream) :
    (s.modStream x f).modeStrap = s.modeStrap := rfl
@[simp] theorem modStream_shutdown (s : State) (x : ProofStream) (f : ProofStream → ProofStream) :
    (s.modStream x f).shutdown = s.shutdown := rfl
@[simp] theorem modStream_words (s : State) (x : ProofStream) (f : ProofStream → ProofStream) :
    (s.modStream x f).words = s.words := rfl
@[simp] theorem modStream_shadow (s : State) (x : ProofStream) (f : ProofStream → ProofStream) :
    (s.modStream x f).shadow = s.shadow := rfl
@[simp] theorem modStream_rwlDone (s : State) (x : ProofStream) (f : ProofStream → ProofStream) :
    (s.modStream x f).rwlDone = s.rwlDone := rfl
@[simp] theorem modStream_mem (s : State) (x : ProofStream) (f : ProofStream → ProofStream) :
    (s.modStream x f).mem = s.mem := rfl
@[simp] theorem modStream_flash (s : State) (x : ProofStream) (f : ProofStream → ProofStream) :
    (s.modStream x f).flash = s.flash := rfl
@[simp] theorem modStream_otp (s : State) (x : ProofStream) (f : ProofStream → ProofStream) :
    (s.modStream x f).otp = s.otp := rfl
@[simp] theorem modStream_ao (s : State) (x : ProofStream) (f : ProofStream → ProofStream) :
    (s.modStream x f).ao = s.ao := rfl
@[simp] theorem modStream_tap (s : State) (x : ProofStream) (f : ProofStream → ProofStream) :
    (s.modStream x f).tap = s.tap := rfl
@[simp] theorem modStream_tb (s : State) (x : ProofStream) (f : ProofStream → ProofStream) :
    (s.modStream x f).tb = s.tb := rfl
@[simp] theorem modStream_refs (s : State) (x : ProofStream) (f : ProofStream → ProofStream) :
    (s.modStream x f).refs = s.refs := rfl
@[simp] theorem modStream_events (s : State) (x : ProofStream) (f : ProofStream → ProofStream) :
    (s.modStream x f).events = s.events := rfl
@[simp] theorem modStream_dcp (s : State) (x : ProofStream) (f : ProofStream → ProofStream) :
    (s.modStream x f).dcp = s.dcp := rfl
@[simp] theorem modStream_ptp (s : State) (x : ProofStream) (f : ProofStream → ProofStream) :
    (s.modStream x f).ptp = s.ptp := rfl
@[simp] theorem modStream_agate (s : State) (x : ProofStream) (f : ProofStream → ProofStream) :
    (s.modStream x f).agate = s.agate := rfl
@[simp] theorem modStream_pwr (s : State) (x : ProofStream) (f : ProofStream → ProofStream) :
    (s.modStream x f).pwr = s.pwr := rfl
@[simp] theorem modStream_ingest (s : State) (x : ProofStream) (f : ProofStream → ProofStream) :
    (s.modStream x f).ingest = s.ingest := rfl
@[simp] theorem modStream_scan (s : State) (x : ProofStream) (f : ProofStream → ProofStream) :
    (s.modStream x f).scan = s.scan := rfl
@[simp] theorem modStream_web (s : State) (x : ProofStream) (f : ProofStream → ProofStream) :
    (s.modStream x f).web = s.web := rfl
@[simp] theorem modStream_lanes (s : State) (x : ProofStream) (f : ProofStream → ProofStream) :
    (s.modStream x f).lanes = s.lanes := rfl
@[simp] theorem modStream_lines (s : State) (x : ProofStream) (f : ProofStream → ProofStream) :
    (s.modStream x f).lines = s.lines := rfl
@[simp] theorem modStream_fire (s : State) (x : ProofStream) (f : ProofStream → ProofStream) :
    (s.modStream x f).fire = s.fire := rfl
@[simp] theorem modStream_cam (s : State) (x : ProofStream) (f : ProofStream → ProofStream) :
    (s.modStream x f).cam = s.cam := rfl
@[simp] theorem modStream_beryl (s : State) (x : ProofStream) (f : ProofStream → ProofStream) :
    (s.modStream x f).beryl = s.beryl := rfl
@[simp] theorem modStream_pair (s : State) (x : ProofStream) (f : ProofStream → ProofStream) :
    (s.modStream x f).pair = s.pair := rfl

/-! modCtx -/

@[simp] theorem modCtx_pending (s : State) (n : Nat) (f : CamCtx → CamCtx) : (s.modCtx n f).pending = s.pending := rfl
@[simp] theorem modCtx_clk (s : State) (n : Nat) (f : CamCtx → CamCtx) : (s.modCtx n f).clk = s.clk := rfl
@[simp] theorem modCtx_frc0 (s : State) (n : Nat) (f : CamCtx → CamCtx) : (s.modCtx n f).frc0 = s.frc0 := rfl
@[simp] theorem modCtx_free (s : State) (n : Nat) (f : CamCtx → CamCtx) : (s.modCtx n f).free = s.free := rfl
@[simp] theorem modCtx_out (s : State) (n : Nat) (f : CamCtx → CamCtx) : (s.modCtx n f).out = s.out := rfl
@[simp] theorem modCtx_core (s : State) (n : Nat) (f : CamCtx → CamCtx) : (s.modCtx n f).core = s.core := rfl
@[simp] theorem modCtx_base (s : State) (n : Nat) (f : CamCtx → CamCtx) : (s.modCtx n f).base = s.base := rfl
@[simp] theorem modCtx_pairEn (s : State) (n : Nat) (f : CamCtx → CamCtx) : (s.modCtx n f).pairEn = s.pairEn := rfl
@[simp] theorem modCtx_unitId (s : State) (n : Nat) (f : CamCtx → CamCtx) : (s.modCtx n f).unitId = s.unitId := rfl
@[simp] theorem modCtx_modeStrap (s : State) (n : Nat) (f : CamCtx → CamCtx) :
    (s.modCtx n f).modeStrap = s.modeStrap := rfl
@[simp] theorem modCtx_shutdown (s : State) (n : Nat) (f : CamCtx → CamCtx) :
    (s.modCtx n f).shutdown = s.shutdown := rfl
@[simp] theorem modCtx_words (s : State) (n : Nat) (f : CamCtx → CamCtx) : (s.modCtx n f).words = s.words := rfl
@[simp] theorem modCtx_shadow (s : State) (n : Nat) (f : CamCtx → CamCtx) : (s.modCtx n f).shadow = s.shadow := rfl
@[simp] theorem modCtx_rwlDone (s : State) (n : Nat) (f : CamCtx → CamCtx) : (s.modCtx n f).rwlDone = s.rwlDone := rfl
@[simp] theorem modCtx_mem (s : State) (n : Nat) (f : CamCtx → CamCtx) : (s.modCtx n f).mem = s.mem := rfl
@[simp] theorem modCtx_flash (s : State) (n : Nat) (f : CamCtx → CamCtx) : (s.modCtx n f).flash = s.flash := rfl
@[simp] theorem modCtx_otp (s : State) (n : Nat) (f : CamCtx → CamCtx) : (s.modCtx n f).otp = s.otp := rfl
@[simp] theorem modCtx_ao (s : State) (n : Nat) (f : CamCtx → CamCtx) : (s.modCtx n f).ao = s.ao := rfl
@[simp] theorem modCtx_tap (s : State) (n : Nat) (f : CamCtx → CamCtx) : (s.modCtx n f).tap = s.tap := rfl
@[simp] theorem modCtx_tb (s : State) (n : Nat) (f : CamCtx → CamCtx) : (s.modCtx n f).tb = s.tb := rfl
@[simp] theorem modCtx_refs (s : State) (n : Nat) (f : CamCtx → CamCtx) : (s.modCtx n f).refs = s.refs := rfl
@[simp] theorem modCtx_events (s : State) (n : Nat) (f : CamCtx → CamCtx) : (s.modCtx n f).events = s.events := rfl
@[simp] theorem modCtx_dcp (s : State) (n : Nat) (f : CamCtx → CamCtx) : (s.modCtx n f).dcp = s.dcp := rfl
@[simp] theorem modCtx_ptp (s : State) (n : Nat) (f : CamCtx → CamCtx) : (s.modCtx n f).ptp = s.ptp := rfl
@[simp] theorem modCtx_agate (s : State) (n : Nat) (f : CamCtx → CamCtx) : (s.modCtx n f).agate = s.agate := rfl
@[simp] theorem modCtx_pwr (s : State) (n : Nat) (f : CamCtx → CamCtx) : (s.modCtx n f).pwr = s.pwr := rfl
@[simp] theorem modCtx_ingest (s : State) (n : Nat) (f : CamCtx → CamCtx) : (s.modCtx n f).ingest = s.ingest := rfl
@[simp] theorem modCtx_scan (s : State) (n : Nat) (f : CamCtx → CamCtx) : (s.modCtx n f).scan = s.scan := rfl
@[simp] theorem modCtx_web (s : State) (n : Nat) (f : CamCtx → CamCtx) : (s.modCtx n f).web = s.web := rfl
@[simp] theorem modCtx_screen (s : State) (n : Nat) (f : CamCtx → CamCtx) : (s.modCtx n f).screen = s.screen := rfl
@[simp] theorem modCtx_lanes (s : State) (n : Nat) (f : CamCtx → CamCtx) : (s.modCtx n f).lanes = s.lanes := rfl
@[simp] theorem modCtx_lines (s : State) (n : Nat) (f : CamCtx → CamCtx) : (s.modCtx n f).lines = s.lines := rfl
@[simp] theorem modCtx_fire (s : State) (n : Nat) (f : CamCtx → CamCtx) : (s.modCtx n f).fire = s.fire := rfl
@[simp] theorem modCtx_cam (s : State) (n : Nat) (f : CamCtx → CamCtx) :
    (s.modCtx n f).cam = { s.cam with ctxs := modAt s.cam.ctxs n f } := rfl
@[simp] theorem modCtx_beryl (s : State) (n : Nat) (f : CamCtx → CamCtx) : (s.modCtx n f).beryl = s.beryl := rfl
@[simp] theorem modCtx_pair (s : State) (n : Nat) (f : CamCtx → CamCtx) : (s.modCtx n f).pair = s.pair := rfl

/-! trimsTrain -/

@[simp] theorem trimsTrain_pending (s : State) (l : Nat) : (s.trimsTrain l).pending = s.pending := rfl
@[simp] theorem trimsTrain_clk (s : State) (l : Nat) : (s.trimsTrain l).clk = s.clk := rfl
@[simp] theorem trimsTrain_frc0 (s : State) (l : Nat) : (s.trimsTrain l).frc0 = s.frc0 := rfl
@[simp] theorem trimsTrain_free (s : State) (l : Nat) : (s.trimsTrain l).free = s.free := rfl
@[simp] theorem trimsTrain_out (s : State) (l : Nat) : (s.trimsTrain l).out = s.out := rfl
@[simp] theorem trimsTrain_core (s : State) (l : Nat) : (s.trimsTrain l).core = s.core := rfl
@[simp] theorem trimsTrain_base (s : State) (l : Nat) : (s.trimsTrain l).base = s.base := rfl
@[simp] theorem trimsTrain_pairEn (s : State) (l : Nat) : (s.trimsTrain l).pairEn = s.pairEn := rfl
@[simp] theorem trimsTrain_unitId (s : State) (l : Nat) : (s.trimsTrain l).unitId = s.unitId := rfl
@[simp] theorem trimsTrain_modeStrap (s : State) (l : Nat) : (s.trimsTrain l).modeStrap = s.modeStrap := rfl
@[simp] theorem trimsTrain_shutdown (s : State) (l : Nat) : (s.trimsTrain l).shutdown = s.shutdown := rfl
@[simp] theorem trimsTrain_words (s : State) (l : Nat) : (s.trimsTrain l).words = s.words := rfl
@[simp] theorem trimsTrain_shadow (s : State) (l : Nat) : (s.trimsTrain l).shadow = s.shadow := rfl
@[simp] theorem trimsTrain_rwlDone (s : State) (l : Nat) : (s.trimsTrain l).rwlDone = s.rwlDone := rfl
@[simp] theorem trimsTrain_mem (s : State) (l : Nat) : (s.trimsTrain l).mem = s.mem := rfl
@[simp] theorem trimsTrain_flash (s : State) (l : Nat) : (s.trimsTrain l).flash = s.flash := rfl
@[simp] theorem trimsTrain_otp (s : State) (l : Nat) : (s.trimsTrain l).otp = s.otp := rfl
@[simp] theorem trimsTrain_ao (s : State) (l : Nat) : (s.trimsTrain l).ao = s.ao := rfl
@[simp] theorem trimsTrain_tap (s : State) (l : Nat) : (s.trimsTrain l).tap = s.tap := rfl
@[simp] theorem trimsTrain_tb (s : State) (l : Nat) : (s.trimsTrain l).tb = s.tb := rfl
@[simp] theorem trimsTrain_refs (s : State) (l : Nat) : (s.trimsTrain l).refs = s.refs := rfl
@[simp] theorem trimsTrain_events (s : State) (l : Nat) : (s.trimsTrain l).events = s.events := rfl
@[simp] theorem trimsTrain_dcp (s : State) (l : Nat) : (s.trimsTrain l).dcp = s.dcp := rfl
@[simp] theorem trimsTrain_ptp (s : State) (l : Nat) : (s.trimsTrain l).ptp = s.ptp := rfl
@[simp] theorem trimsTrain_agate (s : State) (l : Nat) : (s.trimsTrain l).agate = s.agate := rfl
@[simp] theorem trimsTrain_ingest (s : State) (l : Nat) : (s.trimsTrain l).ingest = s.ingest := rfl
@[simp] theorem trimsTrain_scan (s : State) (l : Nat) : (s.trimsTrain l).scan = s.scan := rfl
@[simp] theorem trimsTrain_web (s : State) (l : Nat) : (s.trimsTrain l).web = s.web := rfl
@[simp] theorem trimsTrain_screen (s : State) (l : Nat) : (s.trimsTrain l).screen = s.screen := rfl
@[simp] theorem trimsTrain_lanes (s : State) (l : Nat) : (s.trimsTrain l).lanes = s.lanes := rfl
@[simp] theorem trimsTrain_lines (s : State) (l : Nat) : (s.trimsTrain l).lines = s.lines := rfl
@[simp] theorem trimsTrain_fire (s : State) (l : Nat) : (s.trimsTrain l).fire = s.fire := rfl
@[simp] theorem trimsTrain_cam (s : State) (l : Nat) : (s.trimsTrain l).cam = s.cam := rfl
@[simp] theorem trimsTrain_beryl (s : State) (l : Nat) : (s.trimsTrain l).beryl = s.beryl := rfl
@[simp] theorem trimsTrain_pair (s : State) (l : Nat) : (s.trimsTrain l).pair = s.pair := rfl

/-! modBy -/

@[simp] theorem modBy_pending (s : State) (b : Nat) (f : BerylBar → BerylBar) : (s.modBy b f).pending = s.pending := rfl
@[simp] theorem modBy_clk (s : State) (b : Nat) (f : BerylBar → BerylBar) : (s.modBy b f).clk = s.clk := rfl
@[simp] theorem modBy_frc0 (s : State) (b : Nat) (f : BerylBar → BerylBar) : (s.modBy b f).frc0 = s.frc0 := rfl
@[simp] theorem modBy_free (s : State) (b : Nat) (f : BerylBar → BerylBar) : (s.modBy b f).free = s.free := rfl
@[simp] theorem modBy_out (s : State) (b : Nat) (f : BerylBar → BerylBar) : (s.modBy b f).out = s.out := rfl
@[simp] theorem modBy_core (s : State) (b : Nat) (f : BerylBar → BerylBar) : (s.modBy b f).core = s.core := rfl
@[simp] theorem modBy_base (s : State) (b : Nat) (f : BerylBar → BerylBar) : (s.modBy b f).base = s.base := rfl
@[simp] theorem modBy_pairEn (s : State) (b : Nat) (f : BerylBar → BerylBar) : (s.modBy b f).pairEn = s.pairEn := rfl
@[simp] theorem modBy_unitId (s : State) (b : Nat) (f : BerylBar → BerylBar) : (s.modBy b f).unitId = s.unitId := rfl
@[simp] theorem modBy_modeStrap (s : State) (b : Nat) (f : BerylBar → BerylBar) :
    (s.modBy b f).modeStrap = s.modeStrap := rfl
@[simp] theorem modBy_shutdown (s : State) (b : Nat) (f : BerylBar → BerylBar) :
    (s.modBy b f).shutdown = s.shutdown := rfl
@[simp] theorem modBy_words (s : State) (b : Nat) (f : BerylBar → BerylBar) : (s.modBy b f).words = s.words := rfl
@[simp] theorem modBy_shadow (s : State) (b : Nat) (f : BerylBar → BerylBar) : (s.modBy b f).shadow = s.shadow := rfl
@[simp] theorem modBy_rwlDone (s : State) (b : Nat) (f : BerylBar → BerylBar) : (s.modBy b f).rwlDone = s.rwlDone := rfl
@[simp] theorem modBy_mem (s : State) (b : Nat) (f : BerylBar → BerylBar) : (s.modBy b f).mem = s.mem := rfl
@[simp] theorem modBy_flash (s : State) (b : Nat) (f : BerylBar → BerylBar) : (s.modBy b f).flash = s.flash := rfl
@[simp] theorem modBy_otp (s : State) (b : Nat) (f : BerylBar → BerylBar) : (s.modBy b f).otp = s.otp := rfl
@[simp] theorem modBy_ao (s : State) (b : Nat) (f : BerylBar → BerylBar) : (s.modBy b f).ao = s.ao := rfl
@[simp] theorem modBy_tap (s : State) (b : Nat) (f : BerylBar → BerylBar) : (s.modBy b f).tap = s.tap := rfl
@[simp] theorem modBy_tb (s : State) (b : Nat) (f : BerylBar → BerylBar) : (s.modBy b f).tb = s.tb := rfl
@[simp] theorem modBy_refs (s : State) (b : Nat) (f : BerylBar → BerylBar) : (s.modBy b f).refs = s.refs := rfl
@[simp] theorem modBy_events (s : State) (b : Nat) (f : BerylBar → BerylBar) : (s.modBy b f).events = s.events := rfl
@[simp] theorem modBy_dcp (s : State) (b : Nat) (f : BerylBar → BerylBar) : (s.modBy b f).dcp = s.dcp := rfl
@[simp] theorem modBy_ptp (s : State) (b : Nat) (f : BerylBar → BerylBar) : (s.modBy b f).ptp = s.ptp := rfl
@[simp] theorem modBy_agate (s : State) (b : Nat) (f : BerylBar → BerylBar) : (s.modBy b f).agate = s.agate := rfl
@[simp] theorem modBy_pwr (s : State) (b : Nat) (f : BerylBar → BerylBar) : (s.modBy b f).pwr = s.pwr := rfl
@[simp] theorem modBy_ingest (s : State) (b : Nat) (f : BerylBar → BerylBar) : (s.modBy b f).ingest = s.ingest := rfl
@[simp] theorem modBy_scan (s : State) (b : Nat) (f : BerylBar → BerylBar) : (s.modBy b f).scan = s.scan := rfl
@[simp] theorem modBy_web (s : State) (b : Nat) (f : BerylBar → BerylBar) : (s.modBy b f).web = s.web := rfl
@[simp] theorem modBy_screen (s : State) (b : Nat) (f : BerylBar → BerylBar) : (s.modBy b f).screen = s.screen := rfl
@[simp] theorem modBy_lanes (s : State) (b : Nat) (f : BerylBar → BerylBar) : (s.modBy b f).lanes = s.lanes := rfl
@[simp] theorem modBy_lines (s : State) (b : Nat) (f : BerylBar → BerylBar) : (s.modBy b f).lines = s.lines := rfl
@[simp] theorem modBy_fire (s : State) (b : Nat) (f : BerylBar → BerylBar) : (s.modBy b f).fire = s.fire := rfl
@[simp] theorem modBy_cam (s : State) (b : Nat) (f : BerylBar → BerylBar) : (s.modBy b f).cam = s.cam := rfl
@[simp] theorem modBy_beryl (s : State) (b : Nat) (f : BerylBar → BerylBar) :
    (s.modBy b f).beryl = { s.beryl with bars := modAt s.beryl.bars b f } := rfl
@[simp] theorem modBy_pair (s : State) (b : Nat) (f : BerylBar → BerylBar) : (s.modBy b f).pair = s.pair := rfl

end Sys2Proof.Machine
end

