-- ==== Sys2Proof/WellFormed.lean ====
section
/-! DEFINITION. Well-formed commands: every operand within the width or the range its field has in the spec. -/

namespace Sys2Proof

/-- Words of 32 bits. -/
def wordsOk (l : List Nat) : Bool := l.all fun w => decide (w < 2 ^ 32)

/-- A WRITE item's words (R423). -/
def itemOk (x : WriteItem) : Bool := decide (x.addr < 2 ^ 32) && decide (x.mask < 2 ^ 32) && decide (x.value < 2 ^ 32)

/-- A DCP header's fields (R413). -/
def hdrOk (h : DcpHdr) : Bool :=
  decide (h.word0 < 2 ^ 32) && decide (h.resv1 < 64) && decide (h.resv5 < 2 ^ 96) && decide (h.bodyLen < 65536) &&
    decide (h.master < 4) && decide (h.counter < 2 ^ 64) && decide (h.tag < 2 ^ 32) && decide (h.mac < 2 ^ 128) && decide (h.dport < 2 ^ 16)

/-- What a trimmed value belongs to (R456): a lane that exists, and one of a lane's five DFE taps. -/
def partOk : TrimPart → Bool
  | .offset l | .serdes l | .ctle l => decide (l < 100)
  | .tap l k => decide (l < 100) && decide (k < 5)
  | .ddr | .core => true

/-- What a start brings (R442): key slots, lanes and calibration balls that exist. -/
def bootOk (b : BootInputs) : Bool :=
  b.keyFaults.all (fun k => decide (k < 8)) && b.laneFails.all (fun l => decide (l < 100)) &&
    b.calMissing.all (fun c => decide (c < 7)) && b.values.all fun v => partOk v.part

/-- An ordered set's fields (R235). -/
def setOk (o : OrdSet) : Bool := decide (o.rates < 8) && decide (o.lane < 256) && decide (o.ffeReq < 8) && decide (o.unit < 2)

/-- A STAT's fields (R284). -/
def statOk (r : StatRec) : Bool :=
  decide (r.accClaim < 2 ^ 32) && decide (r.lastSeq < 2 ^ 24) && decide (r.lastMm < 2 ^ 24)

/-- A CSI-2 short packet's header (R311). -/
def csiHeadOk (h : CsiHead) : Bool := decide (h.vc < 4) && decide (h.ecc < 3)

/-- An upstream TSYNC's fields (R266). -/
def tsyncOk (r : TsyncReply) : Bool := decide (r.tsId < 65536)

/-- An identity record of 64 bytes (R286, R287). -/
def idrsOk (r : IdrsRec) : Bool := decide (r.head < 4) && decide (r.ident.length = 64)

/-- An ACK record's fields (R281). -/
def ackOk (a : AckRec) : Bool := decide (a.appliedSeq < 2 ^ 24)

/-- What every reliable frame carries (R375). -/
def relOk (h : RelHdr) : Bool := decide (h.claim < 2 ^ 32) && decide (h.fseq < 2 ^ 32)

/-- A DBT header's fields (R57). -/
def dbtOk (h : DbtHdr) : Bool :=
  decide (h.session < 2 ^ 32) && decide (h.window < 256) && decide (h.xferId < 2 ^ 32) && decide (h.objIndex < 2 ^ 32)

/-- A HELLO's fields (R385). -/
def helloOk (h : HelloFrame) : Bool := decide (h.claim < 2 ^ 32) && decide (h.unit < 2) && decide (h.epoch < 2 ^ 24)

/-- An HB's fields (R378): at most eight items. -/
def hbOk (h : HbFrame) : Bool := decide (h.claim < 2 ^ 32) && decide (h.items.length ≤ 8)

/-- An Ecnal ACK's fields (R376). -/
def eackOk (k : AckFrame) : Bool := decide (k.claim < 2 ^ 32) && decide (k.nextFseq < 2 ^ 32)

/-- Entries of at most 255 words of 32 bits (R381). -/
def entriesOk (l : List Machine.TsEntry) : Bool := l.all fun e => decide (e.words.length < 256) && wordsOk e.words

/-- A bridged frame holds something. -/
def bridgeOk (f : BridgeFrame) : Bool := decide (0 < f.len)

/-- Whether a command is well-formed. -/
def Instr.wf (i : Instr) : Bool :=
  match i with
  | .resetRelease _ _ _ _ nonce => decide (nonce < 2 ^ 64)
  | .configuredEntry _ b => bootOk b
  | .vaoApply _ => true
  | .wake _ => true
  | .pwrGoodFall _ => true
  | .testEnHigh _ => true
  | .sleep _ h pre post => hdrOk h && pre.all itemOk && post.all itemOk
  | .sleepPwrEnFall _ => true
  | .dcpOnDp _ port => decide (port < 2)
  | .identify _ h body => hdrOk h && wordsOk body
  | .read _ h body => hdrOk h && wordsOk body
  | .write _ h body => hdrOk h && wordsOk body
  | .eventRead _ h body => hdrOk h && wordsOk body
  | .sessionOpen _ h body => hdrOk h && wordsOk body
  | .sessionClose _ h body => hdrOk h && wordsOk body
  | .windowOpen _ h body => hdrOk h && wordsOk body
  | .windowClose _ h body => hdrOk h && wordsOk body
  | .surfaceDefine _ h body => hdrOk h && wordsOk body
  | .surfaceRelease _ h body => hdrOk h && wordsOk body
  | .pageDefine _ h body => hdrOk h && wordsOk body
  | .pageClose _ h body => hdrOk h && wordsOk body
  | .jobDefine _ h body => hdrOk h && wordsOk body
  | .jobStart _ h body => hdrOk h && wordsOk body
  | .jobDrainDone _ => true
  | .jobClose _ h body => hdrOk h && wordsOk body
  | .jobCancel _ h body => hdrOk h && wordsOk body
  | .tableLoad _ h body => hdrOk h && wordsOk body
  | .imageWrite _ h body => hdrOk h && wordsOk body
  | .imageWriteDone _ _ => true
  | .keyProgram _ h body => hdrOk h && wordsOk body
  | .keyRevoke _ h body => hdrOk h && wordsOk body
  | .keyOpDone _ _ => true
  | .masterSet _ h body => hdrOk h && wordsOk body
  | .arpRequest _ port _ target => decide (port < 3) && decide (target < 2 ^ 128)
  | .neighborSolicitation _ port _ target => decide (port < 3) && decide (target < 2 ^ 128)
  | .echoRequest _ port _ target _ => decide (port < 3) && decide (target < 2 ^ 128)
  | .mpLinkDown _ => true
  | .mpLinkUp _ => true
  | .eventPush _ master => decide (master < 4)
  | .gapCommit _ h pre post => hdrOk h && pre.all itemOk && post.all itemOk
  | .tickCommit _ h pre post => hdrOk h && pre.all itemOk && post.all itemOk
  | .arm _ h pre post b mask value => hdrOk h && pre.all itemOk && post.all itemOk && decide (b < 8) && decide (mask < 2 ^ 32) && decide (value < 2 ^ 32)
  | .swap _ h pre post => hdrOk h && pre.all itemOk && post.all itemOk
  | .restore _ h pre post => hdrOk h && pre.all itemOk && post.all itemOk
  | .encCfgWrite _ h pre post mask value => hdrOk h && pre.all itemOk && post.all itemOk && decide (mask < 2 ^ 32) && decide (value < 2 ^ 32)
  | .tbIncrWrite _ h pre post incr => hdrOk h && pre.all itemOk && post.all itemOk && decide (incr < 2 ^ 48)
  | .tbOfsAdj _ h pre post adj => hdrOk h && pre.all itemOk && post.all itemOk && decide (-(2 : Int) ^ 63 ≤ adj) && decide (adj < (2 : Int) ^ 63)
  | .ofsSlewEnd _ => true
  | .laneCfgWrite _ h pre post l mask value => hdrOk h && pre.all itemOk && post.all itemOk && decide (l < 100) && decide (mask < 2 ^ 32) && decide (value < 2 ^ 32)
  | .strobeWrite _ h pre post b mask value => hdrOk h && pre.all itemOk && post.all itemOk && decide (b < 8) && decide (mask < 2 ^ 32) && decide (value < 2 ^ 32)
  | .fsWdClr _ h pre post bars => hdrOk h && pre.all itemOk && post.all itemOk && decide (bars < 256)
  | .safeInhibit _ h pre post => hdrOk h && pre.all itemOk && post.all itemOk
  | .safeClear _ h pre post mask value => hdrOk h && pre.all itemOk && post.all itemOk && decide (mask < 2 ^ 32) && decide (value < 2 ^ 32)
  | .barGate _ h pre post mask value => hdrOk h && pre.all itemOk && post.all itemOk && decide (mask < 2 ^ 32) && decide (value < 2 ^ 32)
  | .switch _ h pre post => hdrOk h && pre.all itemOk && post.all itemOk
  | .switchHandover _ => true
  | .leave _ h pre post => hdrOk h && pre.all itemOk && post.all itemOk
  | .clrDemote _ h pre post => hdrOk h && pre.all itemOk && post.all itemOk
  | .revive _ h pre post b => hdrOk h && pre.all itemOk && post.all itemOk && decide (b < 8)
  | .resetEst _ h pre post b => hdrOk h && pre.all itemOk && post.all itemOk && decide (b < 8)
  | .regClr _ h pre post => hdrOk h && pre.all itemOk && post.all itemOk
  | .stripForce _ h pre post bars => hdrOk h && pre.all itemOk && post.all itemOk && decide (bars < 256)
  | .flush _ h pre post n => hdrOk h && pre.all itemOk && post.all itemOk && decide (n < 4)
  | .laneScanMap _ h pre post l => hdrOk h && pre.all itemOk && post.all itemOk && decide (l < 100)
  | .eyeMapDone _ l _ => decide (l < 100)
  | .probePop _ h pre post n => hdrOk h && pre.all itemOk && post.all itemOk && decide (n < 4)
  | .ptpRxqPop _ h pre post => hdrOk h && pre.all itemOk && post.all itemOk
  | .ptpSend _ h pre post mask value => hdrOk h && pre.all itemOk && post.all itemOk && decide (mask < 2 ^ 32) && decide (value < 2 ^ 32)
  | .ptpTxDone _ => true
  | .recArm _ h pre post => hdrOk h && pre.all itemOk && post.all itemOk
  | .recTrigger _ h pre post => hdrOk h && pre.all itemOk && post.all itemOk
  | .recFreeze _ h pre post => hdrOk h && pre.all itemOk && post.all itemOk
  | .recPostDone _ => true
  | .snapshot _ => true
  | .replayEnter _ h pre post => hdrOk h && pre.all itemOk && post.all itemOk
  | .replayRun _ h pre post mask value => hdrOk h && pre.all itemOk && post.all itemOk && decide (mask < 2 ^ 32) && decide (value < 2 ^ 32)
  | .tickEnd _ => true
  | .generationFreed _ id gen => decide (id < 65536) && decide (gen < 65536)
  | .lineComposeStart _ b => decide (b < 8)
  | .bankCopyDone _ b => decide (b < 8)
  | .lineSend _ ch => decide (ch < 96)
  | .lineDeadline _ ch => decide (ch < 96)
  | .retimeCycle _ ch => decide (ch < 96)
  | .gapStart _ slot page => decide (slot < 64) && decide (page < 2 ^ 24)
  | .lineMatch _ slot page => decide (slot < 64) && decide (page < 2 ^ 24)
  | .pageDone _ slot page => decide (slot < 64) && decide (page < 2 ^ 24)
  | .hdmHbSend _ l => decide (l < 96)
  | .tsyncSend _ l => decide (l < 96)
  | .controlResend _ l => decide (l < 96)
  | .encEdge _ n _ _ _ _ => decide (n < 4)
  | .probeEdge _ n _ _ => decide (n < 4)
  | .standstill _ n => decide (n < 4)
  | .estimateUpdate _ => true
  | .speedReqRelease _ => true
  | .encoEdge _ n => decide (n < 2)
  | .refInputBad _ input => decide (input < 2)
  | .refInputGood _ input => decide (input < 2)
  | .refDiffWindow _ _ => true
  | .bridgeFrame _ port f => decide (port < 2) && bridgeOk f
  | .orderedSet _ l o => decide (l < 100) && setOk o
  | .signalDetect _ l => decide (l < 100)
  | .trainTimeout _ e => decide (e.lane < 100)
  | .backoffExpiry _ l => decide (l < 100)
  | .absentTimeout _ l => decide (l < 100)
  | .laneLost _ l _ _ _ => decide (l < 100)
  | .l1Entry _ l => decide (l < 96)
  | .l2Entry _ l => decide (l < 96)
  | .hdmIdleExit _ l => decide (l < 96)
  | .pwrExitTimeout _ l => decide (l < 100)
  | .eyeScan _ l _ _ => decide (l < 100)
  | .statReceived _ l r => decide (l < 96) && statOk r
  | .statLost _ l => decide (l < 96)
  | .tsyncReply _ l r => decide (l < 96) && tsyncOk r
  | .idrsReceived _ l r => decide (l < 96) && idrsOk r
  | .ackReceived _ l a => decide (l < 96) && ackOk a
  | .recordDiscard _ l => decide (l < 96)
  | .watchdogTrip _ bar _ => decide (bar < 8)
  | .fireInhibit _ => true
  | .inhibitRelease _ _ => true
  | .csiFrameStart _ port hdr _ => decide (port < 4) && csiHeadOk hdr
  | .csiLine _ port vc hdr dtype words _ raw =>
    decide (port < 4) && decide (vc < 4) && decide (hdr < 3) && decide (dtype < 64) && decide (raw.length = words)
  | .csiFrameEnd _ port hdr => decide (port < 4) && csiHeadOk hdr
  | .pipeSwitch _ => true
  | .lineProcessed _ => true
  | .camSilent _ n => decide (n < 16)
  | .proofResult _ slot page => decide (slot < 64) && decide (page < 2 ^ 24)
  | .obsMatch _ => true
  | .accWindowTimeout _ => true
  | .columnSolve _ => true
  | .applyCycle _ b => decide (b < 8)
  | .confDecay _ => true
  | .whiteStale _ x => decide (x < 94488)
  | .hello _ _ h => helloOk h
  | .helloSend _ => true
  | .ecnalHb _ _ _ h => hbOk h
  | .ecnalHbSend _ => true
  | .tsFrame _ h _ part parts entries => relOk h && decide (part < 65536) && decide (parts < 65536) && entriesOk entries
  | .digestFrame _ h items => relOk h && decide (items.length ≤ 127)
  | .resyncFrame _ h _ _ => relOk h
  | .ecnalAck _ _ k => eackOk k
  | .ecnalResend _ => true
  | .elsync _ el _ _ => decide (el < 4)
  | .partnerLost _ => true
  | .copyDeadline _ => true
  | .pairTimeout _ => true
  | .contestTimeout _ => true
  | .garnetCheck _ ch _ _ => decide (ch < 96)
  | .garnetFocusEnd _ ch => decide (ch < 96)
  | .tempSample _ _ _ => true
  | .shutdownPwrEnFall _ => true
  | .throttleEval _ => true
  | .pmbusPoll _ answers => decide (answers.length = 8)
  | .pmbAlert _ answers => decide (answers.length = 8)
  | .supplyDip _ _ => true
  | .supplyRecovered _ _ => true
  | .supplyReset _ _ => true
  | .fatal _ => true
  | .storeUe _ _ _ => true
  | .storeCe _ => true
  | .patrolScrub _ _ => true
  | .dbtFragment _ port a h _ => decide (port < 2) && decide (a.dport < 2 ^ 16) && dbtOk h
  | .dbtVerifyDone _ _ window _ => decide (window < 64)
  | .dbtTimeout _ _ window _ => decide (window < 64)
  | .rdreq _ port a h => decide (port < 2) && decide (a.dport < 2 ^ 16) && dbtOk h
  | .dpLinkLoss _ port => decide (port < 2)
  | .stripFetch _ id gen _ => decide (id < 65536) && decide (gen < 65536)
  | .stripDecodeEnd _ n => decide (n < 16)
  | .encoderVerify _ n _ => decide (n < 4)
  | .resetNLow _ => true
  | .vaoRemove _ => true
  | .tapInstruction _ _ => true
  | .mpFrameDropped _ _ => true
  | .unknownOpcode _ op h body => decide (op < 256) && hdrOk h && wordsOk body
  | .eiAnswerTimeout _ l => decide (l < 96)
  | .equalisationDone _ l _ _ _ _ _ => decide (l < 100)
  | .ts2Sent _ l => decide (l < 100)
  | .exitToL0Done _ l => decide (l < 100)
  | .dramMr4Poll _ _ => true

end Sys2Proof
end

