-- ==== Sys2Proof/Tests/Slice0.lean ====
section
/-! SUPPORT. Tests: small states; a command that each check of well-formedness refuses; values of the spec's worked
examples; and, for each statement, states and operands that meet the hypotheses of each of its clauses. -/

namespace Sys2Proof.Tests
open Sys2Proof Sys2Proof.Machine

-- The checks below run one at a time: each holds much memory.
set_option Elab.async false

/-! States -/

/-- A running unit of an unpaired build, with MP up. -/
def up : State := ((({ State.reset with core := .running }).setBase .single).put HP_MP_STAT_LINK 1).wr HP_MP_IP4 5
def onDp : State := up.wr HP_DP_IP4 6
/-- A running unit of a pair in a base state. -/
def paired (b : Base) : State := ({ up with pairEn := true }).setBase b
/-- Head lane 3 in a training state. -/
def lane (st : Nat) : State := up.put (LANE_STAT_TSTATE 3) st
/-- Head lane 3 READY in L0 with a LaneSt. -/
def ready (x : LaneSt) : State := ((lane tsReady).put (LANE_STAT_PSTATE 3) 0).modLane 3 fun _ => x
/-- A unit without VAO, and one asleep. -/
def dark : State := { State.reset with ao := { AlwaysOn.reset with vao := false } }
def asleep : State := { State.reset with core := .unpowered, ao := { AlwaysOn.reset with pwrEn := false } }
/-- A unit with its power logic in a given condition. -/
def power (p : Power) : State := { up with pwr := p }
def sleeping : State := power { Power.reset with sleepAt := some 5 }
def shutting : State :=
  { power { Power.reset with shutAt := some 5, shutEntry := some [0x1106, 0, 1, 2] } with ao := { AlwaysOn.reset with fallAt := some 1000005 } }
def dipped : State := power { Power.reset with dip := true }
def slewing : State := { up with tb := { TimeBase.reset with remain := 1 } }
def frame (down : Bool) (p : Option PtpMsg) : BridgeFrame := ⟨9, .other, 9216, false, down, 77, p⟩
def sync : PtpMsg := ⟨2, 0, 0, 2, true, false, 0, List.replicate 14 0, List.replicate 44 0, []⟩
def trained (x : LaneSt) (st : Nat) : State := (lane st).modLane 3 fun _ => x
def control (copies : Nat) : Ctl := ⟨false, 1, 0, 0, 0, [(0x10, 5)], 7, 0, copies⟩
def line3 : ChanLine :=
  ⟨4, 0, 0, 1, 2, 0, 0, 9000000, 1000, none, 0, 0, false, false, false, false, false, 8, 0x55, [1], false, false, []⟩
def queuedAt (n m : Nat) (x : ChanLine) : State :=
  { (ready { LaneSt.reset with tsyncAt := n, retimeAt := m }).put (JL_OUT_WINDOW 3) 4 with lines := up.lines.set 3 [x], pair := { Pair.reset with holdsSeq := true } }
def queued (x : ChanLine) : State := queuedAt 0 0 x
/-- An Ecnal lane READY. -/
def linked : State := ((paired .active).put (LANE_STAT_TSTATE 98) tsReady).put (LANE_STAT_PSTATE 98) 0
/-- Encoder 0 with given state. -/
def encoder (e : Enc) : State := { up with web := { Web.reset with encs := e :: Web.reset.encs.tail } }
def moving : State :=
  encoder { Enc.reset with state := 2, fwd := true, counts := (List.range 500).map fun k => 50000 - 100 * k }
def probed (p : Probe) : State := { up with web := { Web.reset with probes := Web.reset.probes.take 3 ++ [p] } }
def latch : ProbeEntry := ⟨1, 2, true, false, false⟩
def emulating : State :=
  { (((up.put (WP_ENCO_CFG_EN 1) 1).put (WP_ENCO_CPM_CPM 1) 1000).put WP_MOTION_SPEED_STATE 2) with
  web := { Web.reset with speed := 1, p := 2 ^ 40, ps := 2 ^ 40, q := 2 ^ 40 } }
def run0 : PageRun :=
  ⟨2, 0, 5, 0x0900, 1, [], 10, 0, 4, 0, List.replicate 8 noRef, List.replicate 8 0, List.replicate 8 noRef, none, [], false,
  false, false, none, 0, [], none, false, false, 0⟩
/-- Surface 3, generation 2: one plane of 10 × 2 samples of 8 bits, in one strip at the start of the pool. -/
def body0 : List Nat := [packGen 3 2, 8, 10, 2, 32, 0]
def runs : List Byte := encodeStrip (slotGeom body0 0) 2 (List.replicate 15 0 ++ List.replicate 5 5)
def printing : State := { up with
  scan := { Scan.reset with runs := [run0], jobs := [⟨2, 5, 0x0900, 0, 0, true, false, false, [], 0⟩], starts := 1 }
  web := { Web.reset with p := 2 ^ 60, ps := 2 ^ 60, q := 2 ^ 60 } }
def calm : State := { ((up.put PG_SPDREQ_STAT_PIN 1).put PG_SPDREQ_STAT_SLACK 1) with scan := { Scan.reset with calm := some 5 } }
def job3 : Job := ⟨3, 6, 0x0900, 0, 0, true, false, false, [⟨0, List.replicate 8 noRef, .admitted, true, false, false⟩], 1⟩
def draining : State := { printing.put PG_JOB_STAT_DRAINING 1 with
  scan := { printing.scan with
    runs := [{ run0 with done := true, endLine := some 20 }]
    jobs := [job3], starts := 2 } }
def solid : List Byte := encodeStrip (slotGeom body0 0) 7 (List.replicate 20 9)
def pool : State := onDp.wr (MC_RGN_BASE 7 + 4) 256
def dbtPort : Nat := up.get HP_DBT_PORT_PORT
def surf0 (st mode : Nat) (bs : List Byte) : Surface :=
  ⟨9, 3, 2, body0, [(0, ⟨pool.rgnBase 7, bs.length, st, mode, crc32c bs, 20, none, false⟩)], true, false, []⟩
def stored (st mode : Nat) (bs : List Byte) : State := { pool.wrMem (pool.rgnBase 7) bs with
  ingest := { Ingest.reset with surfs := [surf0 st mode bs] }
  scan := { Scan.reset with runs := [{ run0 with uses := packGen 3 2 :: List.replicate 7 noRef }] } }
def decoding (bs : List Byte) : State := { (stored stHeld 2 bs) with
  ingest := { Ingest.reset with surfs := [surf0 stHeld 2 bs], decoding := [(15, 3, 2, 0)] } }
def decodingNext (bs : List Byte) : State := { (stored stHeld 2 bs) with
  ingest := { Ingest.reset with
    surfs := [{ (surf0 stHeld 2 bs) with slots := (surf0 stHeld 2 bs).slots ++ (surf0 stHeld 2 bs).slots.map fun p => (1, p.2) }]
    decoding := [(15, 3, 2, 0)], waiting := [(3, 2, 1)] } }
/-- A session of 1,408-byte fragments with a window on surface 3. -/
def session : Session := ⟨77, 1408⟩
def window : Window := ⟨5, 77, .stripWrite, 0, 3, 2, 0, false⟩
def loading (w : Window) (xs : List Xfer) (st : Nat) : State := { pool.wrMem (pool.rgnBase 7) solid with
  ingest := { Ingest.reset with
    sessions := [session], windows := [w], xfers := xs
    surfs := [{ (surf0 st 0 solid) with slots := if st = stEmpty then [] else (surf0 st 0 solid).slots, inUse := false }] } }
/-- The same unit with no C3 tokens. -/
def starved (s : State) : State := s.put PW_TEMP_STEP 7
def dbt (kind : Nat) (bs : List Byte) : DbtHdr :=
  ⟨0xDB70, 1, kind, 0, 77, 5, 0, 1, 0, 0xABC, 0, bs.length, 0, bs.length, crc32c bs⟩
def xfer (got : List Nat) (crc : Nat) : Xfer := ⟨77, 5, 0xABC, 0, 1, 16, crc, got, pool.rgnBase 7, 0, 4, 1, [1]⟩
/-- The web moves and job 5's page 1 is to be composed at bar 0, whose channels are lanes 0 to 11. -/
def composing : State := { ((printing.put WP_MOTION_SPEED_STATE 2).put (SC_BAR_SEG_SLOTS_SLOTS 0 1) 100) with
  scan := { printing.scan with runs := [{ run0 with page := 0 }] }
  web := { printing.web with speed := 1 } }
def copying : State :=
  (((up.wr (liveWin 7) 5).wr (liveWin 7 + 0x5FFFC) 6).wr (shadowWin 7 + 8) 7).put (SC_BAR_APPLY_CTRL_COPY_BUSY 7) 1
def stream (rows : List (List Nat)) : ProofStream :=
  ⟨3, 0, 1, 8, 0, 10, 3, 0, rows, [], [(true, 10, List.replicate 20 9)], false, false⟩
def encoding (rows : List (List Nat)) : State := { up with screen := { Screen.reset with streams := [stream rows] } }
def released : State :=
  { (pool.wr (surfWin 9 + 24) 3) with ingest := { Ingest.reset with surfs := [{ surf0 stHeld 0 solid with released := true }] } }
/-- A critical command held: EV_IRQ... is unit-local; this one sets the strobe of bar 0. -/
def held0 (op : Nat) (body : List Nat) (m auth ctr at_ : Nat) : Held := ⟨op, m, auth, ctr, 7, 99, body, at_⟩
def holding (l : List Held) : State := { up with clk := 50000, dcp := { Dcp.reset with held := l } }
/-- Key slot 0 VALID with a key. -/
def keyed : State := { (up.put HP_KEY_STAT_STATE 1) with otp := { Otp.blank with keys := 12345 :: List.replicate 7 0 } }
/-- A request of master 0 with counter 5, signed. -/
def hdr (s : State) (op : Nat) (body : List Nat) : DcpHdr :=
  let h : DcpHdr := ⟨dcpWord0 0, 0, 0, 4 * body.length, 0, 5, 0x1234, 0, 99, false, s.get HP_DCP_CFG_PORT⟩
  { h with mac := s.macOf 0 (hdrMsg h op body) }
def atTick := holding [held0 0x02 [FS_BAR_STB 0, 0xFFFFFFFF, 0x12C0064] 1 3 9 30000, held0 0x02 [FS_BAR_STB 0, 0xFFFFFFFF, 0x12C0065] 0 3 9 30000]
def keyedStandby := { keyed with base := .standby }
def withEvents := (keyed.raise 0x1101 1 2 3).raise 0x1102 1 2 3
def sessionsFull : State :=
  { keyed with ingest := { Ingest.reset with sessions := (List.range 16).map fun k => ⟨k + 1, 1408⟩ } }
def sessionOne : State := { keyed with ingest := { Ingest.reset with sessions := [⟨77, 1408⟩] } }
def sessionWindow : State :=
  { keyed with ingest := { Ingest.reset with sessions := [⟨77, 1408⟩], windows := [window] } }
def sessionSurface : State :=
  { sessionOne with ingest := { sessionOne.ingest with surfs := [{ (surf0 0 0 solid) with inUse := true }] } }
def wreq (s : State) (l : List WriteItem) : DcpHdr := hdr s 2 (around [] [] l)
def wbody (l : List WriteItem) : List Nat := around [] [] l
def withProbe : State :=
  { keyed with web := { Web.reset with probes := Web.reset.probes.take 3 ++ [{ Probe.reset with fifo := [latch, latch] }] } }
def withPtp : State := { keyed with ptp := { keyed.ptp with ovfRun := true } }
def ptpOn : State := (keyed.wr HP_PTP_CFG 0x1F)
def keyedReady : State := ((keyed.put (LANE_STAT_TSTATE 3) tsReady).put (LANE_STAT_PSTATE 3) 0)
def keyedConfigured : State := (keyedReady.put (FS_BAR_EN_EN) 1).setBase .configured
def keyedActive : State := { keyed with pairEn := true }.setBase .active
def keyedStandbyUnit : State := { keyed with pairEn := true }.setBase .standby
def keyedDemoted : State := (((keyed.put PR_STAT_DEMOTED 1).put FS_SAFE_STAT_GARNET 1)).setBase .configured
def keyBody (n : Nat) : List Nat := n :: List.replicate 8 7
def keyed2 : State := { keyed with otp := { keyed.otp with keyState := [1, 1, 0, 0, 0, 0, 0, 0] }}.wr HP_KEY_STAT 0x5
def keyOp (p : Bool) : State :=
  { keyed2 with dcp := { Dcp.reset with keyOp := some ⟨p, 7, 55, answer 0x30 (hdr keyed2 0x30 []) .ok⟩ } }
def slot0 := keyed.put BT_BOOT_STAT_SLOT 0
def imaging (e : Bool) : State :=
  { keyed with dcp := { Dcp.reset with imgOp := some { imgOpOf [0x101] with erase := e } }, flash := [(0x800000, 1), (0x1000000, 1), (0x2000000, 5)] }
def bodyOp : ImgOp := { imgOpOf [0x101] with erase := false, rawLen := 8 }
def encodingImage : State := { keyed with dcp := { Dcp.reset with imgOp := some bodyOp } }
def inSafe : State := ((up.put FS_SAFE_STAT_SAFE 1).put PW_SHUT_STAT_LATCHED 1)
def safeHigh : State := { inSafe with fire := { inSafe.fire with inhPin := true } }
def tripped : State :=
  (((up.put (FS_BAR_WD_TRIPPED 7) 1).put (FS_BAR_WD_SRC_PIN 7) 1).put (FS_BAR_WD_TRIPS 7) 3).put (FS_BAR_WD_TRIPPED 6) 1
def sensed : State := { tripped with fire := { tripped.fire with stbSense := 0x80 } }
def firing : State := printing.put FS_BAR_EN_EN 0xFF
def idleLane : State := up.put (LANE_CFG_EN 95) 0
def inJob : State := up.put PG_JOB_STAT_RUNNING 1
def adjusted (s : State) : State := { s with tb := { s.tb with adj := some (2^64 - 5) } }
def defined : State := { pool with ingest := { Ingest.reset with surfs := [surf0 0 0 solid] } }
def jobSix (pc : Nat) (ps : List Page) (st cl ca : Bool) : Job := ⟨3, 6, 0x0900, 0, pc, st, cl, ca, ps, 1⟩
def noRefs : List Nat := List.replicate 8 noRef
def withJob (j : Job) : State := { up with scan := { Scan.reset with jobs := [j] } }
def jobs64 : State :=
  { up with scan := { Scan.reset with jobs := (List.range 64).map fun k => { jobSix 0 [] false false false with slot := k, id := 100 + k } } }
def canPrint (j : Job) : State := ((((withJob j).put MC_STAT_PRINT_RATE 1).put PG_PAGE_LINES_PAGE_LINES 100))
def overlapping : State :=
  ((((canPrint { jobSix 0 [] false false false with w1 := 0x0100 }).put (SC_BAR_SEG_SLOTS_SLOTS 0 0) 400).put (SC_BAR_SEG_SLOTS_SLOTS 0 1) 400).put (SC_BAR_SEG_COL_SEG_COL0 0 1) 100)
def firingJob : State := ((printing.put FS_BAR_EN_EN 0xFF).put PG_JOB_STAT_RUNNING 1).put PG_JOB_STAT_JOB_SLOT 2
def enabled3 : State := (ready LaneSt.reset).put (LANE_CFG_EN 3) 1
def shadowLines : State := up.wrSh PG_PAGE_LINES 100
def waitingGap : State :=
  { shadowLines with scan := { shadowLines.scan with pendingGap := some ⟨shadowLines.shadowGap, 3, none, 0⟩ } }
def shadowBad : State := ((shadowLines.wrSh (LY_CTRL 7) 0xFF0A01)).wrSh (LY_CTRL 6) 0x600
def targetedPage : State :=
  (shadowLines.put PG_CMT_TARGET_EN 1).put PG_CMT_TARGET_JOB_SLOT 3 |>.put PG_CMT_TARGET_PAGE 9
def targetedJob : State := { targetedPage with scan := { Scan.reset with jobs := [job3] } }
def camRegs (s : State) : State :=
  ((((s.put (CM_PORT_CFG_EN 1) 1).put (CM_CTX_CFG_EN 5) 1).put (CM_CTX_CFG_TRIG_DIV 5) 0).wr (CM_CTX_GEOM 5) (8 + 3 * 2 ^ 14)).wr (CM_CTX_MAP_X 5) (100 + 2 ^ 18)
def edge1 : EncoEdge := ⟨1, 640, 90⟩
def cams : State := { (camRegs up) with cam := { up.cam with edges := [[⟨2, 1280, 95⟩, edge1], []] } }
def cams3 : State := { cams with cam := { cams.cam with edges := [[⟨3, 1280, 95⟩, ⟨2, 960, 92⟩, edge1], []] } }
def cfg5 : List Nat := (camCtxAddrs 5).map cams.rd
def frame5 (n : Nat) : CamFrame := ⟨0, 90, some edge1, cfg5, n, false, false, false⟩
def receiving (n : Nat) : State := cams.modCtx 5 fun x => { x with adopted := cfg5, frame := some (frame5 n) }
def silent : State := (cams.put (CM_CTX_STAT_RECEIVING 5) 1).modCtx 5 fun x => { x with adopted := cfg5, edges := 8 }
def bufferFull : State :=
  { receiving 3 with cam := { (receiving 3).cam with queue := [⟨5, 0, 0, 524259, 50, edge1, cfg5, []⟩] } }
def lineAt (c i a : Nat) : CamLine := ⟨c, 4, i, 30, a, edge1, cfg5, List.replicate 48 100⟩
def queue3 : State := { cams with cam := { cams.cam with queue := [lineAt 7 0 50, lineAt 5 0 50, lineAt 2 0 60] } }
def serving : State :=
  { (queue3.put CM_PIPE_STAT_BUSY 1).put CM_PIPE_STAT_CTX 5 with cam := { queue3.cam with queue := [lineAt 7 0 50, lineAt 5 1 50], edges := cams3.cam.edges } }
def page0 : GapSet := [(PG_PROOF, 2)]
def page4 : GapSet := [(PG_PROOF, 2), (LY_CTRL 4, 0x21), (LY_X 4, 100), (LY_W 4, 8), (LY_Y 4, 0), (LY_H 4, 8)]
def inOrder (n : Nat) : RelHdr := ⟨.good, 5 * 256 + 0x40, n⟩
def proofRun (bad : Bool) (inOrder : GapSet) : PageRun := { run0 with set := inOrder, proofBad := bad }
def proofing (bad : Bool) (inOrder : GapSet) : State :=
  { printing with scan := { printing.scan with runs := [proofRun bad inOrder] } }
def rectA (o v : Nat) : ProofRect := ⟨o, 1, 4, 100, 8, 0, 8, [((0, 0), (1, [v, v, v, v]))]⟩
def compared : State :=
  { (((((proofing false page4).put (CM_CTX_CFG_EN 5) 1).wr (CM_CTX_MAP_X 5) (100 + 8 * 2 ^ 17)).put CM_PROOF_CFG_TILE_LINES 8).put CM_PROOF_CFG_MIN_TILES 1).put CM_PROOF_CFG_FAIL_WASTE 0 with
  cam := { up.cam with rects := [rectA 0 9], lastRects := [rectA 0 9] } }
def observed : State := { up with cam := { up.cam with obs := [⟨0, 64, 9, 3⟩, ⟨64, 64, 9, 4⟩] } }
def tap9 : TapEntry := ⟨0, 0, 5, 12, 4, 0, 640, 1, 0x0900, false, false, false⟩
def matching : State := { printing with
  cam := { up.cam with obs := [⟨0, 64, 5, 12⟩] }
  beryl := { up.beryl with taps := [tap9] } }
def tapMatched : TapEntry := { tap9 with matched := true }
def matchingAgain : State := { matching with beryl := { matching.beryl with taps := [tapMatched], winTaps := 3 } }
def winOne : WinSum := ⟨7, (List.replicate 36 1), List.replicate 8 2, 3, 1⟩
def windowing (inOrder : Nat) : State :=
  { pool.put BY_STAT_ACCUMULATING 1 with beryl := { up.beryl with winTaps := 3, winAt := 10, winGen := inOrder, win := [winOne] } }
def colAdded : ColAcc := ((((windowing 0).colAcc 7).add winOne 17).getD (ColAcc.empty 0 0))
def solving (inOrder : Nat) : State :=
  { pool with beryl := { up.beryl with queue := [(7, 1), (9, 1)], gen := inOrder } }
def solvingIn : State :=
  (((solving 0).put (SC_BAR_SEG_SLOTS_SLOTS 0 0) 100).put BY_CTRL_APPLY_EN 1).putAcc 7 { (ColAcc.empty 0 0) with n := (List.replicate 36 0).set 0 (10^9), r := (List.replicate 8 0).set 0 (9*10^8), yy := 82*10^7, rows := 1000 }
def decaying : State :=
  { (up.wr (recAddr 3 5) 0x30FFFF).wr (recAddr 0 0) 0x1FFFF with beryl := { up.beryl with solved := [(0, 0)], decayAt := 5 } }
def agedWhite : State := { up with beryl := { up.beryl with whites := [⟨7, [1,2,3,4], 10, false, false⟩] } }
def cycling : State := (up.wr BY_CTRL 0x1FF).put (SC_BAR_SEG_SLOTS_SLOTS 7 0) 100
def pairLink (b : Base) : State := (paired b).put PR_STAT_WIDTH 1
def joiningNow : State := (pairLink .standby).put PR_STAT_RESYNC_PHASE 2
def gathering : State := { (joiningNow.wr (shadowWin 7) 8) with pair := { joiningNow.pair with
  t0 := some 3, objs := [.banks 7 [(liveWin 7, 5), (shadowWin 7 + 0x5FFFC, 9)]], framesRx := 1 } }
def motion0 : Motion := { up.motionNow with edgeAt := none, edgeP := 2 ^ 50, q := 2 ^ 49, onSec := true, lost := false }
def hb0 : HbFrame := ⟨5 * 256 + 0x40, 33, 1000, 0, 0, 1, 7, []⟩
def hello0 (u : Nat) : HelloFrame := ⟨5 * 256, u, 0, false, false, 4⟩
def ack0 : AckFrame := ⟨5 * 256 + 0x40, 3, 0, 1, 2, 3⟩
def standbySlot : State := { pairLink .standby with ingest := { Ingest.reset with surfs := [surf0 stStored 0 solid] } }
def digest (n : Nat) : DigestItem := ⟨3, 2, 0, solid.length, n⟩
def relf (n : Nat) : RelFrame := ⟨n, .digest []⟩
def unackedS : State := { pairLink .standby with pair := { Pair.reset with unacked := [relf 1, relf 2, relf 3] } }
def helloing : State := { pairLink .pairing with pair := { Pair.reset with helloOn := true } }
def helloTwice (u : Bool) : State :=
  { helloing with unitId := u, pair := { Pair.reset with helloOn := true, helloRx := 1 } }
def syncing (els : List Int) : State :=
  ((pairLink .pairing).put (LANE_STAT_TSTATE 99) tsTimelock).modLane 99 fun x => { x with els := els }
def partnered (b : Base) : State := { paired b with pair := { Pair.reset with partnerUp := true, lastHb := 5 } }
def contest : State := (up.put PR_STAT_CONTEST 1)
def switching (b : Base) (ok : Bool) : State :=
  { (paired b).put PR_STAT_SWITCH_PENDING 1 with pair := { Pair.reset with partnerUp := true, switchAt := some 500000, acked := ok, sentTick := 3, appliedTick := 3 } }
def chanBusy (ch : Nat) : State := { up with lines := up.lines.set ch [line3] }
def focused (b : Base) (mm : Bool) : State :=
  { (paired b) with lines := up.lines.set 5 [line3], pair := { Pair.reset with partnerUp := true, focus := [⟨5, 3, mm⟩] } }
def ending (b : Base) (mm : Bool) : State :=
  { (paired b).put PR_CFG_MM_LIMIT 3 with pair := { Pair.reset with focus := [⟨5, 0, mm⟩] } }
def pinHigh : State := { up with fire := { up.fire with inhPin := true } }
def pinSafe : State :=
  ((({ up with fire := { up.fire with inhPin := false } }.put FS_INH_CFG_AUTO 1).put FS_SAFE_STAT_INH_PIN 1).put FS_SAFE_STAT_SAFE 1)
def ident0 : List Byte :=
  let b := beBytes 2 0x1D5E ++ [1, 0] ++ beBytes 2 7 ++ [0, 0] ++ List.replicate 16 65 ++ beBytes 2 600 ++ beBytes 2 1000 ++ beBytes 4 50000 ++
    List.replicate 2 0 ++ [4] ++ List.replicate 25 0
  b ++ beBytes 4 (crc32c b)
def identRec (n : Nat) : IdrsRec := ⟨false, n, 0, 4096, 3, 0, ident0⟩
def establishing : State := ((lane tsEstablish).put (JL_HC_ID_VALID 2) 1).put (JL_HC_ID_CLASS 2) 7
def warm (p : Power) : State := { up.put BT_TRIM_STAT_DONE 1 with pwr := p }
def powerHotter : Power := { Power.reset with tm := 110, tamb := 110 }
def railOn : State := (warm Power.reset).put (PW_PMB_CFG_EN 7) 1
def ans7 : PmbAnswer := ⟨0x18, 200, 0xF010⟩
def heldCore : State := { State.reset with core := .held }
def booting (l : Nat) : State := { (up.setBase .boot).put PW_SHUT_STAT_LATCHED l with modeStrap := true }
def inputs (ok : Bool) : BootInputs := ⟨[], true, ok, 250, true, [], [], [], true, 5⟩
def network : State := (up.wr HP_DP_IP4 0xC0A80001).wr (HP_DP_IP6 3) 5
def pushed : Push :=
  { up.dcp.push.headD ⟨none, [], 0, 0⟩ with dst := some 9, recs := List.replicate 50 ⟨1, 2, 3, 4, 5, 6⟩ }
def pushing : State := { up with dcp := { Dcp.reset with push := up.dcp.push.set 3 pushed } }
def recStore : State := pool.wr (MC_RGN_BASE 6 + 4) 1
def reading : State := { recStore with ingest := { Ingest.reset with
  windows := [⟨5, 77, .readBack, 3, 0, 0, 0, false⟩], reads := [⟨77, 5, 1, 0, 9, 1, 1408, []⟩] } }
def posting : State := (recStore.put AG_STAT_STATE 2).put AG_TRIG_CFG_POST_PCT 0
def recordingNow : State :=
  { (recStore.put AG_STAT_STATE 1) with agate := { recStore.agate with snapDue := some 7, next := 64 } }
def taped : State :=
  ((((recordingNow.record 0x0D 777 [0, 0, 0, 1, 5, 0, 0, 0]).record 0x0D 777 [0, 0, 0, 0xFF, 1, 0, 0, 0]).record 0x09 800 []).put AG_STAT_STATE 0).put AG_RP_STAT_MODE 1
def tapedEntries : List ReplayEntry := taped.recorded
def failed (a b : Nat) : State := (moving.put WP_SRC_STAT_PRI_FAILED a).put WP_SRC_STAT_SEC_FAILED b
def onSecond : State :=
  { failed 0 1 with web := { (failed 0 1).web with onSec := true, encs := (failed 0 1).web.encs.map fun e => { e with aligned := true } } }
def pairEnc : State := (moving.wr WP_ENC_CFG 0x3204)
def switchable : State :=
  { paired .active with pair := { Pair.reset with partnerUp := true, partnerFlags := 2, partnerLocked := true } }
def badImage : State := up.wrMem (up.rgnBase 0) [1, 0, 0, 0]
def goodImage : State := up.wrMem (up.rgnBase 0) [0, 0, 0, 0, 5, 1]
def newRate := { slewing with tb := { slewing.tb with newIncr := some (2^40 - 2^30) } }
def ptpEvent := { up with ptp := ⟨[], false, some (1, true, 0xFFFF), []⟩ }
def ptpGeneral := { up with ptp := ⟨[], false, some (1, false, 5), []⟩ }
def unit1 := {up with unitId := true}
def laneEi := { LaneSt.reset with eiSent := some 4 }
def readyStandby := { (ready LaneSt.reset) with base := .standby }
def laneAligned := { LaneSt.reset with ts1 := true, ts2 := true, farRates := 1 }
def laneEqFar := { LaneSt.reset with eqFar := true, identOk := true }
def laneNoFar := { LaneSt.reset with eqFar := false, identOk := true }
def lineVoid3 := {line3 with void := true, payload := []}
def lineStamped := { line3 with stamp := some 9020000 }
def readyHolder := { ready LaneSt.reset with pair := { Pair.reset with holdsSeq := true } }
def laneTsLast := { LaneSt.reset with tsId := 65535 }
def laneCtl2 := { LaneSt.reset with ctl := [control 2], tsyncAt := 200000, retimeAt := 200000 }
def laneCtl3 := { LaneSt.reset with ctl := [control 3] }
def laneTs := { LaneSt.reset with tsOut := [(5, 100)] }
def laneCtl1 := { LaneSt.reset with ctl := [control 1] }
def encSlow := { Enc.reset with state := 2, counts := [5] }
def run0Done := { run0 with done := true, endLine := some 20 }
def run0Uses := { run0 with uses := packGen 3 2 :: List.replicate 7 noRef }
def windowBack := { window with kind := .readBack }
def readsFull : State :=
  let s := starved (loading windowBack [] stHeld)
  { s with ingest := { s.ingest with reads := List.replicate 16 ⟨77, 5, 1, 0, 9, 1, 1408, []⟩ } }
def dbtBack := { dbt 3 [] with xferCrc := 0 }
def run0p0 := { run0 with page := 0 }
def holdingIdle := { (holding [held0 0x16 [5] 0 3 9 0]) with base := .configured }
def upStandby := { up with base := .standby }
def hdrMalformed := { (hdr keyed 1 [0, 1]) with word0 := 0 }
def hdrForged := { (hdr keyed 1 [0, 1]) with mac := 1 }
def surfInUse := { (surf0 0 0 solid) with inUse := true }
def eraseOp := { imgOpOf [0x101] with erase := true }
def writeOp := { imgOpOf [0x101] with erase := false }
def safeLow := { inSafe with fire := { inSafe.fire with inhPin := false } }
def surfReleased := { surf0 stHeld 0 solid with released := true }
def jobBar0 := { jobSix 0 [] false false false with w1 := 0x0100 }
def powerHot := { Power.reset with hot := true }
def powerLow := { Power.reset with lowSince := some 5 }
def shutAndReset : State := { shutting with core := .held }
def dropping : State := { shutting with shutdown := true }
def tcSync : State := up.put HP_PTP_CFG_TC_EN 1
def bridgeFull : State := { up with ptp := { up.ptp with fwd := List.replicate 29 (0, 9039, 1000) } }
def tcOff : State := up.put HP_PTP_CFG_TC_EN 0
def freshHolder : State :=
  { ready { LaneSt.reset with tsyncAt := 200000, retimeAt := 200000 } with pair := { Pair.reset with holdsSeq := true } }
def laneExiting : LaneSt := { LaneSt.reset with exitL2 := true, ts2 := true, ts2Sent := 16, retimeAt := 200000000 }
def laneExitNoTs2 : LaneSt := { laneExiting with ts2 := false }
def exiting (x : LaneSt) : State := (ready x).put (LANE_STAT_PSTATE 3) 4
def laneFresh : LaneSt := { LaneSt.reset with tsyncAt := 50000, retimeAt := 50000 }
def atTickNext : State := { atTick with dcp := { atTick.dcp with held := [] } }
def adjBody : List Nat := [TB_OFS_ADJ_LO, 0xFFFFFFFF, 2000000, TB_OFS_ADJ_HI, 0xFFFFFFFF, 0]
def adjHeld : State :=
  { (up.put PG_JOB_STAT_RUNNING 1) with clk := 50000, dcp := { Dcp.reset with held := [held0 0x02 adjBody 0 3 9 30000] } }
def lostEvents : State := { withEvents with events := withEvents.events.tail }
def hdr6 (s : State) : DcpHdr := { hdr s 1 [0, 1] with v6 := true }
def hdrPort (s : State) : DcpHdr := { hdr s 1 [0, 1] with dport := s.get HP_DCP_CFG_PORT + 1 }
def imgHead : List Byte := (imgOpOf [0x100, 0, 4096, 9, 0, 77]).head
def imgKey : List Byte := beBytes 32 (keyed.otp.keys.getD 0 0)
/-- SHA-256's last value over a message. -/
def shaOf (bs : List Byte) : ShaVars :=
  let n := bs.length
  let pad := (119 - n % 64) % 64
  let m := bs ++ [0x80] ++ List.replicate pad 0 ++ beBytes 8 (8 * n)
  shaBlocks (m.length / 64) m shaInit
def imgHash : ShaVars :=
  let k := imgKey ++ List.replicate (64 - imgKey.length) 0
  shaOf (k.map (· ^^^ 0x5C#8) ++ sha256 (k.map (· ^^^ 0x36#8) ++ (imgHead ++ List.replicate 4096 0)))
def imgWords (v : ShaVars) : List Nat :=
  [v.a.toNat, v.b.toNat, v.c.toNat, v.d.toNat, v.e.toNat, v.f.toNat, v.g.toNat, v.h.toNat]
/-- The IMAGE_WRITE of a body of 4,096 zeros to slot B, its CHECK under key slot 0. -/
def imgProgram : List Nat := [0x100, 0, 4096, 9, 0, 77] ++ imgWords imgHash
/-- The same under a BLANK key slot, from a table image slot. -/
def imgBlankKey (k : Nat) : List Nat := [0x100, k, 4096, 9, 1, 77, 0, 0, 0, 0, 0, 0, 0, 0]
def adjLarge : State := { inJob with tb := { inJob.tb with adj := some 1000001 } }
def adjNegative : State := { inJob with tb := { inJob.tb with adj := some (2 ^ 64 - 1000000) } }
def adjBusyNow : State := { inJob with dcp := { inJob.dcp with adjBusy := true } }
def camBad : State := up.wrSh (CM_PORT_CFG 2) 0
def camErred : State := cams.modCtx 5 fun x => { x with errSeen := true }
def silentNew : State := cams.modCtx 5 fun x => { x with edges := 8 }
def upConfigured : State := up.setBase .configured
def servingLate : State := { serving with cam := { serving.cam with edges := [[⟨3, 1280, 95⟩, ⟨2, 960, 92⟩], []] } }
def roomless : State :=
  { pairLink .standby with pair := { Pair.reset with fseqTx := 130, waiting := [(4, .digest [])], unacked := (List.range 129).map relf } }
def roomlessTs : State :=
  { roomless with pair := { roomless.pair with waiting := [(3, .ts 0 0 1 []), (4, .digest []), (6, .resync 0 0xFF 0 0 [])] } }
def missing : State :=
  { pairLink .single with pairEn := true, pair := { Pair.reset with lastHb := 5, missed := 1 }, clk := 45000 }
def followedNow : State := { pairLink .active with pair := { Pair.reset with partnerUp := true, staleYou := false } }
def bootingNormal : State := { (up.setBase .boot) with modeStrap := false }
def gainSet : State := up.put BY_GAIN_CFG_STEP 9
def tapped : State := { (up.setBase .configured).put GL_ROLE_STAT_SERVICE 1 with tap := .extest [] }
def tapedNamed : State :=
  (((((recordingNow.record 0x0D 777 [0, 0, 0, 1, 5, 0, 0, 0]).record 0x0D 777 [0, 0, 0, 0xFF, 1, 0, 0, 0]).record 0x06 777 [0, 2, 0, 3, 0, 0, 0, 0, 0, 0, 0, 16, 1, 2, 3, 4]).record 0x09 800 []).put AG_STAT_STATE 0).put AG_RP_STAT_MODE 1
def tapedNamedEntries : List ReplayEntry := tapedNamed.recorded
def mpDropped : State := { up.put HP_MP_STAT_LINK 0 with dcp := { Dcp.reset with mpLost := true } }


/-- Bar B1 in FLAT as in spec/11's example. -/
def flat : State := (((up.put (BY_BAR_CFG_GBASE 1) 0x800).put (BY_BAR_REF_REF 1) 31457).put BY_GAIN_CFG_DEADBAND 5).put BY_GAIN_CFG_STEP 16

/-! The checks of R417 other than the MAC, as a Bool; `hdr` signs what it makes. -/

def signedB (s : State) (op : Nat) (h : DcpHdr) (body : List Nat) : Bool :=
  s.is HP_MP_STAT_LINK && s.hostUp && s.takes h && decide (48 + 4 * body.length ≤ s.msgLimit) && hdrFormed h body && !s.unsigned op body &&
    s.is (HP_MST_CFG_EN h.master) && decide (s.keyState (s.get (HP_MST_CFG_KEY_SLOT h.master)) = 1) &&
    decide (s.floor h.master < h.counter)

def passesB (s : State) (op : Nat) (h : DcpHdr) (body : List Nat) : Bool :=
  signedB s op h body && opcodes.contains op &&
    decide (authCheck (s.get (HP_MST_CFG_AUTHORITY h.master)) op body = none) && decide ((s.consume h).bodyCheck op body = none)

theorem signed_mac {s : State} {op : Nat} {h : DcpHdr} {body : List Nat} (m : s.macOf h.master (hdrMsg h op body) = h.mac)
    (p : signedB s op h body = true) : Signed s op h body := by
  simp only [signedB, Bool.and_eq_true, decide_eq_true_eq, Bool.not_eq_true'] at p
  obtain ⟨⟨⟨⟨⟨⟨⟨⟨a, b⟩, z⟩, c⟩, d⟩, e⟩, f⟩, g⟩, k⟩ := p
  exact ⟨a, b, z, c, d, e, f, g, m, k⟩

theorem passes_signed {s : State} {op : Nat} {h : DcpHdr} {body : List Nat}
    (m : signedB s op h body = true → Signed s op h body) (p : passesB s op h body = true) : Passes s op h body := by
  simp only [passesB, Bool.and_eq_true, decide_eq_true_eq] at p
  obtain ⟨⟨⟨a, b⟩, c⟩, d⟩ := p
  exact ⟨m a, b, c, d⟩

theorem hdr_mac (s : State) (op : Nat) (body : List Nat) :
    s.macOf (hdr s op body).master (hdrMsg (hdr s op body) op body) = (hdr s op body).mac := by
  simp only [hdr, hdrMsg]

theorem foldl_bytes_lt (l : List Byte) (a : Nat) : l.foldl (fun a b => a * 256 + b.toNat) a < (a + 1) * 256 ^ l.length := by
  induction l generalizing a with
  | nil => simp
  | cons b l ih =>
    have x := ih (a * 256 + b.toNat)
    have y : b.toNat < 256 := b.isLt
    rw [List.foldl_cons, List.length_cons, Nat.pow_succ']
    calc _ < _ := x
      _ ≤ (a + 1) * 256 * 256 ^ l.length := Nat.mul_le_mul_right _ (by omega)
      _ = _ := by rw [Nat.mul_assoc]

theorem hdr_norm (s : State) (op : Nat) (body : List Nat) : hdrNorm (hdr s op body) = hdr s op body := by
  have m : ∀ l : List Byte, beNat (l.take 16) % 2 ^ 128 = beNat (l.take 16) := fun l => by
    refine Nat.mod_eq_of_lt (Nat.lt_of_lt_of_le (foldl_bytes_lt _ 0) ?_)
    have k : (l.take 16).length ≤ 16 := by rw [List.length_take]; omega
    calc (0 + 1) * 256 ^ (l.take 16).length ≤ (0 + 1) * 256 ^ 16 := Nat.mul_le_mul_left _ (Nat.pow_le_pow_right (by decide) k)
      _ = 2 ^ 128 := by decide
  simp only [hdr, hdrNorm, State.macOf, m] <;> rfl

theorem row_hdr {f : DcpHdr → Option (Nat × Nat × DcpHdr × List Nat)} {t o op : Nat} {s : State} {b body : List Nat}
    (r : ∀ h, f h = some (t, o, hdrNorm h, b)) : f (hdr s op body) = some (t, o, hdr s op body, b) := by
  rw [r, hdr_norm]

theorem macOf_advance (s : State) (t m : Nat) (b : List Byte) : (s.advance t).macOf m b = s.macOf m b := by
  have x : (s.advance t).otp = s.otp := rfl
  have y : (s.advance t).nonce = s.nonce := rfl
  have z (f : Fld) : (s.advance t).get f = s.get f := rfl
  simp only [State.macOf, x, y, z]

theorem signed_hdr {s : State} {op : Nat} {body : List Nat} (p : signedB s op (hdr s op body) body = true) :
    Signed s op (hdr s op body) body := signed_mac (hdr_mac s op body) p

theorem signed_adv {s : State} {t op : Nat} {body : List Nat} (p : signedB (s.advance t) op (hdr s op body) body = true) :
    Signed (s.advance t) op (hdr s op body) body := signed_mac ((macOf_advance ..).trans (hdr_mac s op body)) p

theorem passes_hdr {s : State} {op : Nat} {body : List Nat} (p : passesB s op (hdr s op body) body = true) :
    Passes s op (hdr s op body) body := passes_signed signed_hdr p

theorem passes_adv {s : State} {t op : Nat} {body : List Nat} (p : passesB (s.advance t) op (hdr s op body) body = true) :
    Passes (s.advance t) op (hdr s op body) body := passes_signed signed_adv p

/-- Items that no status of R116 or R161 depends on. -/
theorem safe_items (x : WriteItem)
    (h : x ∈ [({ addr := FS_SAFE_CTRL, mask := 1, value := 1 } : WriteItem), { addr := FS_SAFE_CTRL, mask := 2, value := 2 }]) :
    x.addr ≠ GL_CMT_CTRL ∧ ∀ b, scBar x.addr ≠ some (b, 20) := by
  have k : x.addr = FS_SAFE_CTRL := by
    simp only [List.mem_cons, List.not_mem_nil, or_false] at h
    rcases h with h | h <;> rw [h]
  rw [k, show scBar FS_SAFE_CTRL = none from by decide +kernel]
  exact ⟨by decide +kernel, fun b e => by cases e⟩

/-! Well-formedness: a command that each check refuses -/

def hdr0 : DcpHdr := ⟨dcpWord0 0, 0, 0, 0, 0, 0, 0, 0, 0, false, 0⟩
def stat0 : StatRec := ⟨false, 0, 0, false, false, false, false, 0, 0, 0, 0, 0, 0, 0, 0, 0, 0, 0, 0, 0⟩

/-- Refused: an operand wider than its field. -/
theorem test_wf_wide : ([.resetRelease 0 false false false (2 ^ 64), .masterSet 0 hdr0 [2 ^ 32],
    .read 0 { hdr0 with counter := 2 ^ 64 } [0, 1], .read 0 { hdr0 with master := 4 } [0, 1],
    .read 0 { hdr0 with mac := 2 ^ 128 } [0, 1], .read 0 { hdr0 with word0 := 2 ^ 32 } [],
    .read 0 { hdr0 with resv1 := 64 } [], .read 0 { hdr0 with resv5 := 2 ^ 96 } [],
    .read 0 { hdr0 with bodyLen := 65536 } [], .read 0 { hdr0 with tag := 2 ^ 32 } [],
    .read 0 { hdr0 with dport := 65536 } [], .rdreq 0 0 ⟨0, 65536, false⟩ (dbt 3 []), .csiFrameStart 0 0 ⟨0, 3⟩ 0,
    .csiLine 0 0 0 3 0 0 true [], .swap 0 hdr0 [⟨2 ^ 32, 0, 0⟩] [], .swap 0 hdr0 [] [⟨0, 2 ^ 32, 0⟩],
    .swap 0 hdr0 [] [⟨0, 0, 2 ^ 32⟩], .encCfgWrite 0 hdr0 [] [] (2 ^ 32) 0, .encCfgWrite 0 hdr0 [] [] 0 (2 ^ 32),
    .tbIncrWrite 0 hdr0 [] [] (2 ^ 48), .tbOfsAdj 0 hdr0 [] [] (2 ^ 63), .tbOfsAdj 0 hdr0 [] [] (-2 ^ 63 - 1),
    .fsWdClr 0 hdr0 [] [] 256, .stripForce 0 hdr0 [] [] 256, .unknownOpcode 0 256 hdr0 [],
    .arpRequest 0 0 0 (2 ^ 128), .echoRequest 0 0 0 (2 ^ 128) true] : List Instr).all (fun i => !i.wf) = true := by
  decide +kernel

/-- Refused: a number of a unit that does not exist. -/
theorem test_wf_absent : ([.configuredEntry 0 { inputs true with keyFaults := [8] },
    .configuredEntry 0 { inputs true with laneFails := [100] },
    .configuredEntry 0 { inputs true with calMissing := [7] },
    .configuredEntry 0 { inputs true with values := [⟨0, .tap 0 5, 0⟩] }, .trainTimeout 0 ⟨100, false⟩,
    .dcpOnDp 0 2, .neighborSolicitation 0 3 0 0, .eventPush 0 4, .arm 0 hdr0 [] [] 8 0 0,
    .laneCfgWrite 0 hdr0 [] [] 100 0 0, .strobeWrite 0 hdr0 [] [] 8 0 0, .revive 0 hdr0 [] [] 8,
    .resetEst 0 hdr0 [] [] 8, .flush 0 hdr0 [] [] 4, .laneScanMap 0 hdr0 [] [] 100, .probePop 0 hdr0 [] [] 4,
    .eyeMapDone 0 100 [], .lineComposeStart 0 8, .bankCopyDone 0 8, .lineSend 0 96, .gapStart 0 64 0,
    .pageDone 0 0 (2 ^ 24), .generationFreed 0 65536 0, .hdmHbSend 0 96, .encEdge 0 4 false false false 0,
    .probeEdge 0 4 false 0, .encoEdge 0 2, .refInputBad 0 2, .signalDetect 0 100, .l1Entry 0 96,
    .watchdogTrip 0 8 0, .csiFrameStart 0 4 ⟨0, 0⟩ 0, .csiFrameEnd 0 0 ⟨4, 0⟩, .csiLine 0 0 0 0 64 0 true [],
    .camSilent 0 16, .proofResult 0 64 0, .applyCycle 0 8, .whiteStale 0 94488, .elsync 0 4 0 0,
    .garnetCheck 0 96 0 0, .dpLinkLoss 0 2, .stripFetch 0 0 65536 0, .stripDecodeEnd 0 16,
    .encoderVerify 0 4 .equal, .dbtVerifyDone 0 0 64 0] : List Instr).all (fun i => !i.wf) = true := by
  decide +kernel

/-- Refused: a record or frame that no layout holds. -/
theorem test_wf_shape : ([.csiLine 0 0 0 0 0x2B 2 true [5], .orderedSet 0 0 ⟨0, 8, false, 0, 0, false, 0, false, false, 0⟩,
    .orderedSet 0 0 ⟨0, 0, false, 2, 0, false, 0, false, false, 0⟩,
    .orderedSet 0 0 ⟨0, 0, false, 0, 256, false, 0, false, false, 0⟩,
    .orderedSet 0 0 ⟨0, 0, false, 0, 0, false, 8, false, false, 0⟩,
    .statReceived 0 0 { stat0 with accClaim := 2 ^ 32 }, .statReceived 0 0 { stat0 with lastSeq := 2 ^ 24 },
    .statReceived 0 0 { stat0 with lastMm := 2 ^ 24 }, .tsyncReply 0 0 ⟨true, 65536, 0, 0⟩,
    .idrsReceived 0 0 { identRec 1 with head := 4 }, .idrsReceived 0 0 { identRec 1 with ident := [] },
    .ackReceived 0 0 ⟨false, false, 0, 0, 2 ^ 24⟩, .hello 0 .good { hello0 1 with unit := 2 },
    .hello 0 .good { hello0 1 with epoch := 2 ^ 24 }, .hello 0 .good { hello0 1 with claim := 2 ^ 32 },
    .ecnalHb 0 0 .good { hb0 with claim := 2 ^ 32 }, .ecnalAck 0 .good { ack0 with nextFseq := 2 ^ 32 },
    .tsFrame 0 ⟨.good, 2 ^ 32, 0⟩ 0 0 1 [], .tsFrame 0 ⟨.good, 0, 2 ^ 32⟩ 0 0 1 [],
    .tsFrame 0 (inOrder 0) 0 65536 1 [], .tsFrame 0 (inOrder 0) 0 0 65536 [],
    .tsFrame 0 (inOrder 0) 0 0 1 [⟨1, [2 ^ 32]⟩], .tsFrame 0 (inOrder 0) 0 0 1 [⟨1, List.replicate 256 0⟩],
    .digestFrame 0 (inOrder 0) (List.replicate 128 (digest 5)), .pmbusPoll 0 [], .pmbAlert 0 [],
    .dbtFragment 0 0 ⟨0, 0, false⟩ { dbt 0 [] with session := 2 ^ 32 } [],
    .dbtFragment 0 2 ⟨0, 0, false⟩ (dbt 0 []) [], .rdreq 0 0 ⟨0, 0, false⟩ { dbt 0 [] with window := 256 },
    .rdreq 0 0 ⟨0, 0, false⟩ { dbt 0 [] with xferId := 2 ^ 32 },
    .rdreq 0 0 ⟨0, 0, false⟩ { dbt 0 [] with objIndex := 2 ^ 32 },
    .bridgeFrame 0 0 { frame false none with len := 0 }] : List Instr).all (fun i => !i.wf) = true := by
  decide +kernel

/-- A command whose every operand stands at the top of its field is well-formed. -/
theorem test_wf_accepts : ([.arm 0 { hdr0 with counter := 2 ^ 64 - 1, master := 3 } [] [⟨2 ^ 32 - 1, 0, 0⟩] 7 (2 ^ 32 - 1) 0, .laneScanMap 0 hdr0 [] [] 99,
    .tbIncrWrite 0 hdr0 [] [] (2 ^ 48 - 1), .whiteStale 0 94487] : List Instr).all Instr.wf = true := by decide +kernel

/-! Values of the spec's worked examples -/

/-- R8: 0x0000_0010 is 32 ns later than 0xFFFF_FFF0, and sequence number 2 four records later than 0xFF_FFFE. -/
theorem test_later : cdiff 32 0x10 0xFFFFFFF0 = 32 ∧ cdiff 24 2 0xFFFFFE = 4 ∧ later 32 0x10 0xFFFFFFF0 = true := by decide +kernel

/-- R258: eight levels of three bits, padded to a word. -/
theorem test_payload_bits : payloadOf 3 [4, 0, 7, 1, 2, 3, 5, 6] = [0x83, 0x94, 0xEE, 0] := by decide +kernel

/-- spec/03, the ramp: the whole strip in PRED. -/
theorem test_casser_ramp : encodeStrip ⟨3, 31, 0, true, false⟩ 7 (List.range 32) =
    [0xCA, 0x55, 0x17, 0x04, 0x01, 0xF0, 0x00, 0x10, 0x46, 0xDD, 0x79, 0x4E, 0, 0, 0, 0,
     0x1F, 0xFF, 0xFF, 0xF6, 0xDB, 0x6D, 0xB6, 0xDB, 0x6C, 0x36, 0xDB, 0x6D, 0xB6, 0xDB, 0x6D, 0x80] := by decide +kernel

/-- The same bytes read back. -/
theorem test_casser_ramp_back : decodeStrip ⟨3, 31, 0, true, false⟩
    [0xCA, 0x55, 0x17, 0x04, 0x01, 0xF0, 0x00, 0x10, 0x46, 0xDD, 0x79, 0x4E, 0, 0, 0, 0,
     0x1F, 0xFF, 0xFF, 0xF6, 0xDB, 0x6D, 0xB6, 0xDB, 0x6C, 0x36, 0xDB, 0x6D, 0xB6, 0xDB, 0x6D, 0x80] =
    ⟨List.range 32, 0⟩ := by decide +kernel

/-- spec/03, SOLID: one line of 32 samples, all 0xFF. -/
theorem test_casser_solid : encodeStrip ⟨3, 31, 0, true, false⟩ 7 (List.replicate 32 255) =
    [0xCA, 0x55, 0x1F, 0x04, 0x01, 0xF0, 0, 0, 0x62, 0xA8, 0xAB, 0x43, 0xFF, 0, 0, 0] := by decide +kernel

/-- spec/03, RAW after a failed RUN: 72 mask bits. -/
theorem test_casser_raw : encodeStrip ⟨0, 71, 0, false, false⟩ 7
      ((List.range 72).map fun k => (0x31 + k / 8) / 2 ^ (7 - k % 8) % 2) =
    [0xCA, 0x55, 0x10, 0, 0x04, 0x70, 0, 0x09, 0xE3, 0x06, 0x92, 0x83, 0, 0, 0, 0,
     0x31, 0x32, 0x33, 0x34, 0x35, 0x36, 0x37, 0x38, 0x39] := by decide +kernel

/-- R204: 12.5 ppm slow from 5 × 10^12; 10^9 ticks later device time is 5,000,999,987,500 ns. -/
theorem test_device_time : State.now { up with
    clk := 5001000000000, tb := { TimeBase.reset with baseF := 5000000000000, baseT := 5000000000000 * nsU, rate := 0xFFFF2E48E9 } } =
    5000999987500 := by decide +kernel

/-- R196: line 1,500 after a page start lies 2,032,000 pu on at 1200 dpi. -/
theorem test_line_offset : offPu 0 1500 = 2032000 := by decide +kernel

/-- R413: the WRITE request of spec/13's example, bytes 0 to 43. -/
theorem test_dcp_bytes : dcpMsg (dcpWord0 0) 2 2 12 0 100005 0x33 0 0 0 [FS_SAFE_CTRL, 1, 1] =
    [0xDC, 0x70, 0x10, 0, 0x02, 0x80, 0, 0x0C, 0, 0, 0, 0, 0, 0x01, 0x86, 0xA5, 0, 0, 0, 0x33, 0, 0, 0, 0, 0, 0, 0, 0, 0, 0, 0, 0,
     0, 0x0B, 0, 0x08, 0, 0, 0, 1, 0, 0, 0, 1] := by decide +kernel

/-- R258: the VOID record of the example, up to its CRC-32C. -/
theorem test_void_record : (JRec.line 0x540 0x12345 0x3B9ACA00 41500 true true false false 0 0 []).bytes.take 28 =
    [0x01, 0x03, 0x00, 0x20, 0, 0, 0x05, 0x40, 0x01, 0x23, 0x45, 0, 0x3B, 0x9A, 0xCA, 0, 0, 0, 0xA2, 0x1C, 0, 0, 0, 0,
     0, 0, 0, 0] := by decide +kernel

/-- R64: the header of fragment 2 of the example. -/
theorem test_dbt_header : DbtHdr.bytes ⟨0xDB70, 1, 0, 0, 0x5A170C03, 5, 2, 7, 0, 452, 37, 8192, 0, 52396, 0x3E9A71D5⟩ =
    [0xDB, 0x70, 0x10, 0, 0x5A, 0x17, 0x0C, 0x03, 0x05, 0x02, 0x07, 0, 0, 0, 0x01, 0xC4, 0, 0, 0, 0x25, 0x20, 0, 0, 0,
     0, 0, 0xCC, 0xAC, 0x3E, 0x9A, 0x71, 0xD5] := by decide +kernel

/-- R254: an ACK record is read back, and not with a bit turned. -/
theorem test_up_record :
    let b := (⟨false, true, 5, 7, 9⟩ : AckRec).bytes
    b.length = 16 ∧ upParse b = some (.ack ⟨false, true, 5, 7, 9⟩) ∧ upParse (b.set 11 1) = none := by decide +kernel

/-- R128: the line buffer of a layer 47,244 columns wide on the 600 dpi grid, at ×2 linear, ×2 nearest and ×4 linear. -/
theorem test_line_buffer :
    let l (k : Nat) (lin : Bool) : Layer := ⟨0, true, 0, 0, false, 0, false, k, k, lin, 1, 0, 47244, 0, 8, 0, 0⟩
    ((l 2 true).buffer 1, (l 2 false).buffer 1, (l 4 true).buffer 1) = (23622, 11811, 11812) := by decide +kernel

/-- R349: bar B1's gain moves one STEP from 2,176 toward 2,341, and the deadband holds it at 2,336. -/
theorem test_gain_step : flat.gainStep 2176 2341 = 2192 ∧
    flat.gainStep 2336 2341 = 2336 := by decide +kernel

/-- R457: a sampler offset measured as 19 at 38 °C is 24 at 70 °C and 14 at −20 °C. -/
theorem test_trim_code :
    let x := trimItem 0 380 ⟨0, .offset 0, 12 * 256, 18 * 256, 26 * 256⟩ (some (19 * 256))
    ((x.codeAt 700).code, (x.codeAt (-200)).code) = (24, 14) := by decide +kernel

/-- R458: from 19 that offset has moved to 22 after 300 µs, and does not pass 24. -/
theorem test_trim_moves :
    let x := (trimItem 0 380 ⟨0, .offset 0, 12 * 256, 18 * 256, 26 * 256⟩ (some (19 * 256))).codeAt 700
    (x.used, (x.moved 300000 100000).used, (x.moved 900000 100000).used) = (19, 22, 24) := by decide +kernel

/-! Steps -/

/-- The state a command leaves. -/
def after (c : Instr) (s : State) : State := match exec c s with
  | .next t => t
  | _ => s

/-- R441: a core held in reset takes nothing but power, resets and the TAP. -/
theorem test_held_core : after (.fatal 9) heldCore = heldCore.advance 9 := by decide +kernel

/-- The command at the front runs, and the rest waits. -/
theorem test_front_runs :
    (match Machine.step { up with pending := [.storeCe 5, .fatal 9] } with
      | .next t => some (t.pending, t.get MC_ECC_CE_COUNT)
      | _ => none) = some ([.fatal 9], 1) := by decide +kernel

/-- R301: FIRE_INH_N low disables every bar. -/
theorem test_fire_inhibit : (after (.fireInhibit 9) (pinHigh.put FS_BAR_EN_EN 0xFF)).barEn 7 = false ∧
    (pinHigh.put FS_BAR_EN_EN 0xFF).barEn 7 = true := by decide +kernel

/-- R417: a request with a wrong MAC is counted and changes no register the host can write. -/
theorem test_forged : (after (.read 7 hdrForged [0, 1]) keyed).get HP_DCP_ERR_AUTH_FAIL = 1 := by decide +kernel

/-- R426: a critical command changes nothing until its tick ends. -/
theorem test_critical_waits :
    ((after (.safeInhibit 7 (wreq keyed [⟨FS_SAFE_CTRL, 1, 1⟩]) [] []) keyed).dcp.held.length,
      (after (.safeInhibit 7 (wreq keyed [⟨FS_SAFE_CTRL, 1, 1⟩]) [] []) keyed).get FS_SAFE_CTRL_INHIBIT) = (1, 0) := by
  decide +kernel

/-- R172: a change of both lines counts an illegal transition and no movement. -/
theorem test_double_change : (after (.encEdge 9 0 true true false 0) up).get (WP_ENC_ERR_ILLEGAL 0) = 1 ∧
    (after (.encEdge 9 0 true true false 0) up).get (WP_ENC_COUNT_COUNT 0) = up.get (WP_ENC_COUNT_COUNT 0) := by decide +kernel

/-! Hypotheses met: the statements over every state -/

/-- A unit with a command waiting. -/
def waitingFatal : State := { up with pending := [.fatal 9] }

/-- The hypotheses of StepTakesFront are met. -/
theorem meets_StepTakesFront : waitingFatal.pending = [.fatal 9] ∧ up.pending = [] := by decide +kernel

/-- The hypotheses of ResetAndHeldCore are met. -/
theorem meets_ResetAndHeldCore : heldCore.core ≠ .running ∧ State.reset.core ≠ .running := by decide +kernel

/-- The hypotheses of RolesAgreeAlways are met. -/
theorem meets_RolesAgreeAlways : (up.core = .running → up.get ⟨GL_ROLE_STAT, 10, 4⟩ = up.overlays) ∧
    (match Machine.step { up with pending := [.fireInhibit 9] } with
      | .next t => decide (t.get ⟨GL_ROLE_STAT, 10, 4⟩ ≠ up.get ⟨GL_ROLE_STAT, 10, 4⟩)
      | _ => false) = true := by decide +kernel

/-- The hypotheses of CanonicalKept are met. -/
theorem meets_CanonicalKept : goodImage.canonical = true ∧ (∀ p ∈ goodImage.words, p.1 % 4 = 0) ∧ FS_SAFE_CTRL % 4 = 0 := by
  decide +kernel

/-- The hypotheses of CasserCountsAndSolid are met: a count, eighteen zeros, and a SOLID strip. -/
theorem meets_CasserCountsAndSolid :
    (let bs := List.replicate 18 false; 17 < bs.length ∧ (∀ i < 18, bs[i]? = some false)) ∧
    (let g : StripGeom := ⟨3, 31, 0, true, false⟩
     let head : List Byte := encodeStrip g 7 (List.replicate 32 255)
     let h := StripHdr.parse head
     head.length = 16 ∧ h.valid = true ∧ h.fits g = true ∧ h.mode = 3 ∧
      h.crc = crc32c (rawForm g.bps g.widthM1 g.linesM1 (List.replicate g.count h.fill))) := by decide +kernel

/-- The hypotheses of EncodedStripsDecode are met, at the widest sample and the last strip of a plane. -/
theorem meets_EncodedStripsDecode :
    let g : StripGeom := ⟨3, 31, 0, true, true⟩
    g.bps < 4 ∧ g.widthM1 < 4096 ∧ g.linesM1 < 32 ∧ (g.flushed = true → g.last = true) ∧ (List.replicate 32 255).length = g.count ∧
      (∀ v ∈ List.replicate 32 255, v < 2 ^ bpsBits g.bps) := by decide +kernel

/-! Hypotheses met, statement by statement -/

/-- The hypotheses of each clause of PowerAndResetPins are met. -/
theorem meets_PowerAndResetPins :
    (dark.ao.vao = false) ∧
    (asleep.core = CoreRun.unpowered ∧ asleep.ao.vao = true ∧ asleep.ao.pwrEn = false) ∧
    (up.core ≠ CoreRun.unpowered) ∧
    (up.core = CoreRun.running ∧ up.pwr.shutAt = none) ∧
    (up.core = CoreRun.running ∧ up.pwr.shutAt = none) ∧
    (up.core = CoreRun.running ∧ up.pwr.shutAt = none) := by
  repeat' apply And.intro
  all_goals decide +kernel

/-- The hypotheses of each clause of PowerEnds are met. -/
theorem meets_PowerEnds :
    (sleeping.core = CoreRun.running ∧ sleeping.pwr.sleepAt = some 5 ∧ (State.advance 2000000 sleeping).past 5 1000000
      = true ∧ sleeping.pwr.shutAt = none) ∧
    (shutting.ao.fallAt = some 1000005 ∧ 1000005 ≤ max shutting.clk 2000000) ∧
    (shutAndReset.ao.fallAt = some 1000005 ∧ 1000005 ≤ max shutAndReset.clk 2000000) ∧
    (up.core = CoreRun.running ∧ 100 < up.get PW_SUP_CFG_RESET_MV ∧ up.shutdown = false ∧ up.pwr.shutAt = none) ∧
    (dropping.core = CoreRun.running ∧ 100 < dropping.get PW_SUP_CFG_RESET_MV ∧ dropping.shutdown = true ∧
      dropping.pwr.shutEntry = some [4358, 0, 1, 2] ∧ (∀ a ∈ dropping.pwr.shutAt, (State.advance 7 dropping).past a
      500000 = false)) := by
  repeat' apply And.intro
  all_goals decide +kernel

/-- The hypotheses of each clause of SupplyEntries are met. -/
theorem meets_SupplyEntries :
    ([4358, 1, 2, 3].length = 4 ∧ (up.put PW_SHUT_STAT_NV_COUNT 1023).get PW_SHUT_STAT_NV_COUNT < 1024) ∧
    (up.core = CoreRun.running ∧ up.pwr.dip = false ∧ up.get PW_SUP_CFG_WARN_MV - 1 < up.get PW_SUP_CFG_WARN_MV) ∧
    (dipped.core = CoreRun.running ∧ dipped.pwr.dip = true ∧ dipped.get PW_SUP_CFG_WARN_MV + 10 < 1000) := by
  repeat' apply And.intro
  all_goals decide +kernel

/-- The hypotheses of each clause of RateWrites are met. -/
theorem meets_RateWrites :
    (2 ^ 40 + 2 ^ 30 < 2 ^ 48) ∧
    (2 ^ 40 + 2 ^ 30 < 2 ^ 48 ∧ incrOk (2 ^ 40 + 2 ^ 30) = true) ∧
    (2 ^ 40 + 2 ^ 30 + 1 < 2 ^ 48 ∧ incrOk (2 ^ 40 + 2 ^ 30 + 1) = false) ∧
    (0 < 2 ^ 32 ∧ incrOk (newRate.get (⟨TB_INCR_HI, 15, 0⟩ : Fld) * 2 ^ 32 + 0) = true) ∧
    (0 < 2 ^ 32 ∧ incrOk ((up.wr TB_INCR_HI 255).get (⟨TB_INCR_HI, 15, 0⟩ : Fld) * 2 ^ 32 + 0) = false) ∧
    ((State.advance 5 newRate).tb.newIncr = some (2 ^ 40 - 2 ^ 30) ∧ (State.advance 5 newRate).tb.adj = none) := by
  repeat' apply And.intro
  all_goals decide +kernel

/-- The hypotheses of each clause of ReferenceClock are met. -/
theorem meets_ReferenceClock :
    (slewing.core = CoreRun.running ∧ slewing.tb.remain ≠ 0 ∧ (State.advance 2000000000 slewing).remNow = 0) ∧
    ((((up.put TB_REF_STAT_IN0_GOOD 1).put TB_REF_STAT_IN1_GOOD 1).put TB_REF_STAT_SEL 1).core = CoreRun.running ∧ 1 <
      2 ∧ (((up.put TB_REF_STAT_IN0_GOOD 1).put TB_REF_STAT_IN1_GOOD 1).put TB_REF_STAT_SEL 1).get (refGood 1) = 1 ∧
      (((up.put TB_REF_STAT_IN0_GOOD 1).put TB_REF_STAT_IN1_GOOD 1).put TB_REF_STAT_SEL 1).get (refGood (1 - 1)) = 1 ∧
      (((up.put TB_REF_STAT_IN0_GOOD 1).put TB_REF_STAT_IN1_GOOD 1).put TB_REF_STAT_SEL 1).get TB_REF_STAT_SEL = 1) ∧
    ((((up.put TB_REF_STAT_IN0_GOOD 1).put TB_REF_STAT_IN1_GOOD 1).put TB_REF_STAT_SEL 0).core = CoreRun.running ∧ 1 <
      2 ∧ (((up.put TB_REF_STAT_IN0_GOOD 1).put TB_REF_STAT_IN1_GOOD 1).put TB_REF_STAT_SEL 0).get (refGood 1) = 1 ∧
      (((up.put TB_REF_STAT_IN0_GOOD 1).put TB_REF_STAT_IN1_GOOD 1).put TB_REF_STAT_SEL 0).get (refGood (1 - 1)) = 1 ∧
      (((up.put TB_REF_STAT_IN0_GOOD 1).put TB_REF_STAT_IN1_GOOD 1).put TB_REF_STAT_SEL 0).get TB_REF_STAT_SEL = 1 - 1) ∧
    (((up.put TB_REF_STAT_IN0_GOOD 1).put TB_REF_STAT_IN1_GOOD 0).core = CoreRun.running ∧ 0 < 2 ∧ ((up.put
      TB_REF_STAT_IN0_GOOD 1).put TB_REF_STAT_IN1_GOOD 0).get (refGood 0) = 1 ∧ ((up.put TB_REF_STAT_IN0_GOOD 1).put
      TB_REF_STAT_IN1_GOOD 0).get (refGood (1 - 0)) = 0 ∧ ((up.put TB_REF_STAT_IN0_GOOD 1).put TB_REF_STAT_IN1_GOOD
      0).base ≠ Base.active) ∧
    (((up.put TB_REF_STAT_IN0_GOOD 0).put TB_REF_STAT_LOST 1).core = CoreRun.running ∧ 0 < 2 ∧ ((up.put
      TB_REF_STAT_IN0_GOOD 0).put TB_REF_STAT_LOST 1).get (refGood 0) = 0) ∧
    (((up.put TB_REF_STAT_IN0_GOOD 0).put TB_REF_STAT_LOST 0).core = CoreRun.running ∧ 0 < 2 ∧ ((up.put
      TB_REF_STAT_IN0_GOOD 0).put TB_REF_STAT_LOST 0).get (refGood 0) = 0) ∧
    (((up.put TB_REF_STAT_IN0_GOOD 1).put TB_REF_STAT_IN1_GOOD 1).core = CoreRun.running ∧ ((up.put
      TB_REF_STAT_IN0_GOOD 1).put TB_REF_STAT_IN1_GOOD 1).get TB_REF_STAT_IN0_GOOD = 1 ∧ ((up.put TB_REF_STAT_IN0_GOOD
      1).put TB_REF_STAT_IN1_GOOD 1).get TB_REF_STAT_IN1_GOOD = 1) ∧
    (((up.put TB_REF_STAT_IN0_GOOD 1).put TB_REF_STAT_IN1_GOOD 1).core = CoreRun.running ∧ ((up.put
      TB_REF_STAT_IN0_GOOD 1).put TB_REF_STAT_IN1_GOOD 1).get TB_REF_STAT_IN0_GOOD = 1 ∧ ((up.put TB_REF_STAT_IN0_GOOD
      1).put TB_REF_STAT_IN1_GOOD 1).get TB_REF_STAT_IN1_GOOD = 1) := by
  repeat' apply And.intro
  all_goals decide +kernel

/-- The hypotheses of each clause of BridgeAndPtp are met. -/
theorem meets_BridgeAndPtp :
    (up.core = CoreRun.running ∧ up.hostUp = true ∧ 1 < 2 ∧ (frame false none).dst = BridgeDst.other ∧ (frame false
      none).len ≤ 9216 ∧ (frame false none).linkDown = false ∧ (State.advance 7 up).bridgeRoom (1 - 1) (frame false
      none).len = true ∧ (∀ m ∈ (frame false none).ptp, up.get HP_PTP_CFG_TC_EN = 0 ∨ m.ver ≠ 2 ∨ ¬m.mtype ∈ [0, 1])) ∧
    (tcOff.core = CoreRun.running ∧ tcOff.hostUp = true ∧ 1 < 2 ∧ (frame false (some sync)).dst = BridgeDst.other ∧
      (frame false (some sync)).len ≤ 9216 ∧ (frame false (some sync)).linkDown = false ∧ (State.advance 7
      tcOff).bridgeRoom (1 - 1) (frame false (some sync)).len = true ∧ (∀ m ∈ (frame false (some sync)).ptp, tcOff.get
      HP_PTP_CFG_TC_EN = 0 ∨ m.ver ≠ 2 ∨ ¬m.mtype ∈ [0, 1])) ∧
    (tcSync.core = CoreRun.running ∧ tcSync.hostUp = true ∧ 1 < 2 ∧ ((frame false (some (let __src := sync;
      (⟨__src.ver, 8, __src.domain, __src.transport, __src.event, __src.toPtp, __src.tags, __src.head, __src.bytes,
      __src.tail⟩ : PtpMsg)))).dst = BridgeDst.other) ∧ ((frame false (some (let __src := sync; (⟨__src.ver, 8,
      __src.domain, __src.transport, __src.event, __src.toPtp, __src.tags, __src.head, __src.bytes, __src.tail⟩ :
      PtpMsg)))).len ≤ 9216) ∧ ((frame false (some (let __src := sync; (⟨__src.ver, 8, __src.domain, __src.transport,
      __src.event, __src.toPtp, __src.tags, __src.head, __src.bytes, __src.tail⟩ : PtpMsg)))).linkDown = false) ∧
      ((State.advance 7 tcSync).bridgeRoom (1 - 1) (frame false (some (let __src := sync; (⟨__src.ver, 8, __src.domain,
      __src.transport, __src.event, __src.toPtp, __src.tags, __src.head, __src.bytes, __src.tail⟩ : PtpMsg)))).len =
      true) ∧ (∀ m ∈ (frame false (some (let __src := sync; (⟨__src.ver, 8, __src.domain, __src.transport, __src.event,
      __src.toPtp, __src.tags, __src.head, __src.bytes, __src.tail⟩ : PtpMsg)))).ptp, tcSync.get HP_PTP_CFG_TC_EN = 0 ∨
      m.ver ≠ 2 ∨ ¬m.mtype ∈ [0, 1])) ∧
    (tcSync.core = CoreRun.running ∧ tcSync.hostUp = true ∧ 1 < 2 ∧ (frame false (some sync)).dst = BridgeDst.other ∧
      (frame false (some sync)).len ≤ 9216 ∧ (frame false (some sync)).linkDown = false ∧ (State.advance 7
      tcSync).bridgeRoom (1 - 1) (frame false (some sync)).len = true ∧ (frame false (some sync)).ptp = some sync ∧
      tcSync.get HP_PTP_CFG_TC_EN = 1 ∧ tcCorrects sync = true ∧ tcSync.residence 1 (frame false (some sync)) =
      tcSync.residence 1 (frame false (some sync))) ∧
    (up.core = CoreRun.running ∧ up.hostUp = true ∧ 0 < 2 ∧ (frame true none).dst = BridgeDst.other ∧ (frame true
      none).len ≤ 9216 ∧ ((frame true none).linkDown = true ∨ (State.advance 7 up).bridgeRoom (1 - 0) (frame true
      none).len = false)) ∧
    (bridgeFull.core = CoreRun.running ∧ bridgeFull.hostUp = true ∧ 1 < 2 ∧ (frame false none).dst = BridgeDst.other ∧
      (frame false none).len ≤ 9216 ∧ ((frame false none).linkDown = true ∨ (State.advance 7 bridgeFull).bridgeRoom (1 -
      1) (frame false none).len = false)) ∧
    ((ptpEvent.put HP_PTP_TX_CTRL_BUSY 1).core = CoreRun.running ∧ (ptpEvent.put HP_PTP_TX_CTRL_BUSY 1).ptp.tx = some
      (1, true, 65535)) ∧
    ((ptpGeneral.put HP_PTP_TX_CTRL_BUSY 1).core = CoreRun.running ∧ (ptpGeneral.put HP_PTP_TX_CTRL_BUSY 1).ptp.tx =
      some (1, false, 5)) := by
  repeat' apply And.intro
  all_goals decide +kernel

/-- The hypotheses of each clause of LaneAttempts are met. -/
theorem meets_LaneAttempts :
    ((up.put (LANE_STAT_TSTATE 99) tsDetect).core = CoreRun.running ∧ 99 < 100 ∧ (up.put (LANE_STAT_TSTATE 99)
      tsDetect).tstate 99 = tsDetect ∧ (99 < 96 ∨ (up.put (LANE_STAT_TSTATE 99) tsDetect).unitId = false)) ∧
    ((unit1.put (LANE_STAT_TSTATE 95) tsDetect).core = CoreRun.running ∧ 95 < 100 ∧ (unit1.put (LANE_STAT_TSTATE 95)
      tsDetect).tstate 95 = tsDetect ∧ (95 < 96 ∨ (unit1.put (LANE_STAT_TSTATE 95) tsDetect).unitId = false)) ∧
    ((lane tsBackoff).core = CoreRun.running ∧ 3 < 100 ∧ (lane tsBackoff).tstate 3 = tsBackoff ∧ (State.advance
      20000000000 (lane tsBackoff)).past ((lane tsBackoff).laneSt 3).since ((lane tsBackoff).get (LANE_STAT_BACKOFF_MS
      3) * 1000000) = true) ∧
    ((lane tsAbsent).core = CoreRun.running ∧ 3 < 100 ∧ (lane tsAbsent).tstate 3 = tsAbsent ∧ (State.advance
      20000000000 (lane tsAbsent)).past ((lane tsAbsent).laneSt 3).since 1000000000 = true) ∧
    ((lane tsAbsent).core = CoreRun.running ∧ 3 < 100 ∧ (lane tsAbsent).tstate 3 = tsAbsent) := by
  repeat' apply And.intro
  all_goals decide +kernel

/-- The hypotheses of each clause of LaneFailures are met. -/
theorem meets_LaneFailures :
    ((lane tsTimelock).core = CoreRun.running ∧ 3 < 100 ∧ tsAlign ≤ (lane tsTimelock).tstate 3 ∧ (lane
      tsTimelock).tstate 3 ≤ tsTimelock ∧ (State.advance 20000000000 (lane tsTimelock)).past ((lane tsTimelock).laneSt
      3).since 10000000 = true) ∧
    ((lane tsAlign).core = CoreRun.running ∧ 3 < 100 ∧ tsAlign ≤ (lane tsAlign).tstate 3 ∧ (lane tsAlign).tstate 3 ≤
      tsTimelock ∧ (State.advance 20000000000 (lane tsAlign)).past ((lane tsAlign).laneSt 3).since 10000000 = true) ∧
    ((up.put (LANE_STAT_TSTATE 99) tsEstablish).core = CoreRun.running ∧ 99 < 100 ∧ tsAlign ≤ (up.put
      (LANE_STAT_TSTATE 99) tsEstablish).tstate 99 ∧ (up.put (LANE_STAT_TSTATE 99) tsEstablish).tstate 99 ≤ tsTimelock ∧
      (State.advance 20000000000 (up.put (LANE_STAT_TSTATE 99) tsEstablish)).past ((up.put (LANE_STAT_TSTATE 99)
      tsEstablish).laneSt 99).since 10000000 = true) ∧
    ((ready LaneSt.reset).core = CoreRun.running ∧ 3 < 100 ∧ (ready LaneSt.reset).inL0 3 = true) ∧
    (linked.core = CoreRun.running ∧ 98 < 100 ∧ linked.inL0 98 = true) ∧
    ((ready laneEi).core = CoreRun.running ∧ 3 < 100 ∧ 3 < 96 ∧ (ready laneEi).ready 3 = true ∧ ((ready laneEi).laneSt
      3).eiSent = some 4 ∧ (State.advance 20000000 (ready laneEi)).past 4 10000 = true) ∧
    (((ready LaneSt.reset).put (LANE_STAT_PSTATE 3) 4).core = CoreRun.running ∧ 3 < 100 ∧ 3 < 96 ∧ ((ready
      LaneSt.reset).put (LANE_STAT_PSTATE 3) 4).ready 3 = true ∧ ((ready LaneSt.reset).put (LANE_STAT_PSTATE 3)
      4).pstate 3 = 4 ∧ (State.advance 20000000 ((ready LaneSt.reset).put (LANE_STAT_PSTATE 3) 4)).past (((ready
      LaneSt.reset).put (LANE_STAT_PSTATE 3) 4).laneSt 3).exitAt (if (((ready LaneSt.reset).put (LANE_STAT_PSTATE 3)
      4).laneSt 3).exitL2 = true then 200000 else 1000) = true) ∧
    (readyStandby.core = CoreRun.running ∧ 3 < 100 ∧ readyStandby.inL0 3 = true) := by
  repeat' apply And.intro
  all_goals decide +kernel

/-- The hypotheses of each clause of LaneTraining are met. -/
theorem meets_LaneTraining :
    ((trained LaneSt.reset tsAlign).core = CoreRun.running ∧ 3 < 96 ∧ (trained LaneSt.reset tsAlign).tstate 3 =
      tsAlign ∧ (⟨74, 15, false, 0, 3, false, 0, false, false, 0⟩ : OrdSet).resv = 0 ∧ (⟨74, 15, false, 0, 3, false, 0,
      false, false, 0⟩ : OrdSet).lane = 3 ∧ (⟨74, 15, false, 0, 3, false, 0, false, false, 0⟩ : OrdSet).kind = 74 ∧
      ((trained LaneSt.reset tsAlign).laneSt 3).ts1 = false ∧ agreedRate ((trained LaneSt.reset tsAlign).get
      (LANE_CFG_RATE_EN 3)) (⟨74, 15, false, 0, 3, false, 0, false, false, 0⟩ : OrdSet).rates ≠ 0) ∧
    ((trained laneAligned tsAlign).core = CoreRun.running ∧ 3 < 96 ∧ (trained laneAligned tsAlign).tstate 3 = tsAlign
      ∧ ((trained laneAligned tsAlign).laneSt 3).ts1 = true ∧ ((trained laneAligned tsAlign).laneSt 3).ts2 = true) ∧
    ((trained laneEqFar tsEstablish).core = CoreRun.running ∧ 3 < 96 ∧ (trained laneEqFar tsEstablish).tstate 3 =
      tsEstablish ∧ ((trained laneEqFar tsEstablish).laneSt 3).eqMine = false ∧ (trained laneEqFar tsEstablish).is
      (LANE_STAT_FAST 3) = false ∧ (trained laneEqFar tsEstablish).get JL_TRAIN_CFG_MIN_W ≤ 200 ∧ (trained laneEqFar
      tsEstablish).get JL_TRAIN_CFG_MIN_H ≤ 200) ∧
    ((trained laneNoFar tsEstablish).core = CoreRun.running ∧ 3 < 96 ∧ (trained laneNoFar tsEstablish).tstate 3 =
      tsEstablish ∧ ((trained laneNoFar tsEstablish).laneSt 3).eqMine = false ∧ (trained laneNoFar tsEstablish).is
      (LANE_STAT_FAST 3) = false ∧ (trained laneNoFar tsEstablish).get JL_TRAIN_CFG_MIN_W ≤ 200 ∧ (trained laneNoFar
      tsEstablish).get JL_TRAIN_CFG_MIN_H ≤ 200) := by
  repeat' apply And.intro
  all_goals decide +kernel

/-- The hypotheses of each clause of LanePower are met. -/
theorem meets_LanePower :
    (((ready LaneSt.reset).put (LANE_CFG_PWR_ALLOW 3) 1).core = CoreRun.running ∧ 3 < 96 ∧ ((ready LaneSt.reset).put
      (LANE_CFG_PWR_ALLOW 3) 1).ready 3 = true ∧ ((ready LaneSt.reset).put (LANE_CFG_PWR_ALLOW 3) 1).pstate 3 = 0 ∧
      ((ready LaneSt.reset).put (LANE_CFG_PWR_ALLOW 3) 1).is (LANE_CFG_PWR_ALLOW 3) = true ∧ ((ready LaneSt.reset).put
      (LANE_CFG_PWR_ALLOW 3) 1).is JL_PWR_CFG_L1_IDLE_US = true ∧ (State.advance 20000000 ((ready LaneSt.reset).put
      (LANE_CFG_PWR_ALLOW 3) 1)).past (((ready LaneSt.reset).put (LANE_CFG_PWR_ALLOW 3) 1).laneSt 3).lastUse (((ready
      LaneSt.reset).put (LANE_CFG_PWR_ALLOW 3) 1).get JL_PWR_CFG_L1_IDLE_US * 1000) = true ∧ (((ready LaneSt.reset).put
      (LANE_CFG_PWR_ALLOW 3) 1).laneSt 3).ctl = [] ∧ ((ready LaneSt.reset).put (LANE_CFG_PWR_ALLOW 3) 1).barAwaited
      (chanBar 3) = false) ∧
    ((((ready LaneSt.reset).put (LANE_CFG_PWR_ALLOW 3) 1).put (LANE_STAT_PSTATE 3) 1).core = CoreRun.running ∧ 3 < 96
      ∧ (((ready LaneSt.reset).put (LANE_CFG_PWR_ALLOW 3) 1).put (LANE_STAT_PSTATE 3) 1).ready 3 = true ∧ (((ready
      LaneSt.reset).put (LANE_CFG_PWR_ALLOW 3) 1).put (LANE_STAT_PSTATE 3) 1).pstate 3 = 1 ∧ (((ready LaneSt.reset).put
      (LANE_CFG_PWR_ALLOW 3) 1).put (LANE_STAT_PSTATE 3) 1).is (LANE_CFG_PWR_ALLOW 3) = true ∧ (((ready
      LaneSt.reset).put (LANE_CFG_PWR_ALLOW 3) 1).put (LANE_STAT_PSTATE 3) 1).is JL_PWR_CFG_L1_IDLE_US = true ∧ (((ready
      LaneSt.reset).put (LANE_CFG_PWR_ALLOW 3) 1).put (LANE_STAT_PSTATE 3) 1).is JL_PWR_CFG_L2_IDLE_MS = true ∧
      (State.advance 20000000000 (((ready LaneSt.reset).put (LANE_CFG_PWR_ALLOW 3) 1).put (LANE_STAT_PSTATE 3) 1)).past
      ((((ready LaneSt.reset).put (LANE_CFG_PWR_ALLOW 3) 1).put (LANE_STAT_PSTATE 3) 1).laneSt 3).lowAt ((((ready
      LaneSt.reset).put (LANE_CFG_PWR_ALLOW 3) 1).put (LANE_STAT_PSTATE 3) 1).get JL_PWR_CFG_L2_IDLE_MS * 1000000) =
      true) ∧
    (((ready LaneSt.reset).put (LANE_STAT_PSTATE 3) 1).core = CoreRun.running ∧ 3 < 96 ∧ ((ready LaneSt.reset).put
      (LANE_STAT_PSTATE 3) 1).ready 3 = true ∧ ((ready LaneSt.reset).put (LANE_STAT_PSTATE 3) 1).pstate 3 = 1) ∧
    (((ready LaneSt.reset).put (LANE_STAT_PSTATE 3) 2).core = CoreRun.running ∧ 3 < 96 ∧ ((ready LaneSt.reset).put
      (LANE_STAT_PSTATE 3) 2).ready 3 = true ∧ ((ready LaneSt.reset).put (LANE_STAT_PSTATE 3) 2).pstate 3 = 2) ∧
    ((exiting laneFresh).core = CoreRun.running ∧ 3 < 96 ∧ (exiting laneFresh).ready 3 = true ∧ (exiting
      laneFresh).pstate 3 = 4 ∧ ((exiting laneFresh).laneSt 3).exitL2 = false ∧ (State.advance 50000 (exiting
      laneFresh)).laneClear 3 = true) ∧
    ((exiting laneExiting).core = CoreRun.running ∧ 3 < 96 ∧ (exiting laneExiting).ready 3 = true ∧ (exiting
      laneExiting).pstate 3 = 4 ∧ ((exiting laneExiting).laneSt 3).exitL2 = true ∧ ((exiting laneExiting).laneSt 3).ts2
      = true ∧ 16 ≤ ((exiting laneExiting).laneSt 3).ts2Sent ∧ (exiting laneExiting).is TB_HDM_CFG_TSYNC_US = true ∧
      ((exiting laneExiting).laneSt 3).ctl = [] ∧ (State.advance 200000000 (exiting laneExiting)).past ((exiting
      laneExiting).laneSt 3).retimeAt ((exiting laneExiting).get JL_RT_CFG_CYCLE_US * 1000) = false) ∧
    ((exiting laneExitNoTs2).core = CoreRun.running ∧ 3 < 96 ∧ (exiting laneExitNoTs2).ready 3 = true ∧ (exiting
      laneExitNoTs2).pstate 3 = 4 ∧ ((exiting laneExitNoTs2).laneSt 3).exitL2 = true ∧ (((exiting laneExitNoTs2).laneSt
      3).ts2 = false ∨ ((exiting laneExitNoTs2).laneSt 3).ts2Sent < 16)) := by
  repeat' apply And.intro
  all_goals decide +kernel

/-- The hypotheses of each clause of EyeMeasurements are met. -/
theorem meets_EyeMeasurements :
    ((ready LaneSt.reset).core = CoreRun.running ∧ 3 < 100 ∧ (ready LaneSt.reset).inL0 3 = true ∧ (ready
      LaneSt.reset).is JL_SCAN_CFG_PERIOD_MS = true ∧ (ready LaneSt.reset).get (LANE_SCAN_CTRL_MAP_BUSY 3) = 0 ∧ (ready
      LaneSt.reset).get JL_TRAIN_CFG_MIN_W ≤ up.get JL_TRAIN_CFG_MIN_W ∧ (ready LaneSt.reset).get JL_TRAIN_CFG_MIN_H ≤
      up.get JL_TRAIN_CFG_MIN_H) ∧
    ((ready LaneSt.reset).core = CoreRun.running ∧ 3 < 100 ∧ (ready LaneSt.reset).inL0 3 = true ∧ (ready
      LaneSt.reset).is JL_SCAN_CFG_PERIOD_MS = true ∧ (ready LaneSt.reset).get (LANE_SCAN_CTRL_MAP_BUSY 3) = 0 ∧ (up.get
      JL_TRAIN_CFG_MIN_W - 1 < (ready LaneSt.reset).get JL_TRAIN_CFG_MIN_W ∨ 255 < (ready LaneSt.reset).get
      JL_TRAIN_CFG_MIN_H) ∧ ((ready LaneSt.reset).laneSt 3).marginRaised = false) ∧
    (linked.core = CoreRun.running ∧ 98 < 100 ∧ linked.inL0 98 = true ∧ linked.is JL_SCAN_CFG_PERIOD_MS = true ∧
      linked.get (LANE_SCAN_CTRL_MAP_BUSY 98) = 0 ∧ (300 < linked.get JL_TRAIN_CFG_MIN_W ∨ 3 < linked.get
      JL_TRAIN_CFG_MIN_H) ∧ (linked.laneSt 98).marginRaised = false) ∧
    (((ready LaneSt.reset).put (LANE_SCAN_CTRL_MAP_BUSY 3) 1).core = CoreRun.running ∧ 3 < 100 ∧ ((ready
      LaneSt.reset).put (LANE_SCAN_CTRL_MAP_BUSY 3) 1).get (LANE_SCAN_CTRL_MAP_BUSY 3) = 1) := by
  repeat' apply And.intro
  all_goals decide +kernel

/-- The hypotheses of each clause of LinesLeave are met. -/
theorem meets_LinesLeave :
    ((queued line3).core = CoreRun.running ∧ 3 < 96 ∧ (queued line3).chanLines 3 = [line3] ∧ line3.unsent = false ∧
      line3.voided = false ∧ (queued line3).flowing 3 = true ∧ (queued line3).sendsLines = true ∧ line3.stamp = none ∧
      (State.advance 7000 (queued line3)).now + 200000 ≤ line3.pred ∧ line3.doneAt ≤ (State.advance 7000 (queued
      line3)).now ∧ (State.advance 7000 (queued line3)).outstanding 3 < (queued line3).get (JL_OUT_WINDOW 3) ∧
      (State.advance 7000 (queued line3)).laneClear 3 = true) ∧
    ((queued lineVoid3).core = CoreRun.running ∧ 3 < 96 ∧ (queued lineVoid3).chanLines 3 = [lineVoid3] ∧
      lineVoid3.unsent = false ∧ lineVoid3.voided = false ∧ (queued lineVoid3).flowing 3 = true ∧ (queued
      lineVoid3).sendsLines = true ∧ lineVoid3.stamp = none ∧ (State.advance 7000 (queued lineVoid3)).now + 200000 ≤
      lineVoid3.pred ∧ lineVoid3.doneAt ≤ (State.advance 7000 (queued lineVoid3)).now ∧ (State.advance 7000 (queued
      lineVoid3)).outstanding 3 < (queued lineVoid3).get (JL_OUT_WINDOW 3) ∧ (State.advance 7000 (queued
      lineVoid3)).laneClear 3 = true) ∧
    ((queuedAt 0 8000000 line3).core = CoreRun.running ∧ 3 < 96 ∧ (queuedAt 0 8000000 line3).chanLines 3 = [line3] ∧
      line3.unsent = false ∧ line3.voided = false ∧ (queuedAt 0 8000000 line3).flowing 3 = true ∧ (queuedAt 0 8000000
      line3).sendsLines = true ∧ line3.stamp = none ∧ (State.advance 8000000 (queuedAt 0 8000000 line3)).now + 200000 ≤
      line3.pred ∧ line3.doneAt ≤ (State.advance 8000000 (queuedAt 0 8000000 line3)).now ∧ (State.advance 8000000
      (queuedAt 0 8000000 line3)).outstanding 3 < (queuedAt 0 8000000 line3).get (JL_OUT_WINDOW 3) ∧ (((queuedAt 0
      8000000 line3).laneSt 3).ctl.all fun x => x.copies != 0) = true ∧ (State.advance 8000000 (queuedAt 0 8000000
      line3)).past ((queuedAt 0 8000000 line3).laneSt 3).retimeAt ((queuedAt 0 8000000 line3).get JL_RT_CFG_CYCLE_US *
      1000) = false ∧ (State.advance 8000000 (queuedAt 0 8000000 line3)).past ((queuedAt 0 8000000 line3).laneSt
      3).tsyncAt ((queuedAt 0 8000000 line3).get TB_HDM_CFG_TSYNC_US * 1000) = true) ∧
    ((queuedAt 8900000 8900000 line3).core = CoreRun.running ∧ 3 < 96 ∧ (queuedAt 8900000 8900000 line3).chanLines 3 =
      [line3] ∧ line3.unsent = false ∧ line3.voided = false ∧ (queuedAt 8900000 8900000 line3).flowing 3 = true ∧
      (queuedAt 8900000 8900000 line3).sendsLines = true ∧ line3.pred ≤ (State.advance 8900000 (queuedAt 8900000 8900000
      line3)).now + 200000 ∧ line3.stamp = none ∧ (State.advance 8900000 (queuedAt 8900000 8900000 line3)).laneClear 3 =
      true) ∧
    ((queuedAt 8900000 8900000 line3).core = CoreRun.running ∧ 3 < 96 ∧ (queuedAt 8900000 8900000 line3).chanLines 3 =
      [line3] ∧ line3.unsent = false ∧ line3.voided = false ∧ (queuedAt 8900000 8900000 line3).flowing 3 = true ∧
      (queuedAt 8900000 8900000 line3).sendsLines = true ∧ line3.pred < (State.advance 8900000 (queuedAt 8900000 8900000
      line3)).now + 200000 ∧ line3.stamp = none ∧ (State.advance 8900000 (queuedAt 8900000 8900000 line3)).laneClear 3 =
      true) ∧
    ((queuedAt 8000000 0 lineStamped).core = CoreRun.running ∧ 3 < 96 ∧ (queuedAt 8000000 0 lineStamped).chanLines 3 =
      [lineStamped] ∧ lineStamped.unsent = false ∧ lineStamped.voided = false ∧ (queuedAt 8000000 0 lineStamped).flowing
      3 = true ∧ (queuedAt 8000000 0 lineStamped).sendsLines = true ∧ lineStamped.stamp = some 9020000 ∧ (State.advance
      8000000 (queuedAt 8000000 0 lineStamped)).now + 50000 ≤ 9020000 ∧ 9020000 < lineStamped.pred + 32768 ∧
      lineStamped.pred < 9020000 + 32768 ∧ (State.advance 8000000 (queuedAt 8000000 0 lineStamped)).now + 50000 ≤
      lineStamped.pred ∧ (queuedAt 8000000 0 lineStamped).get JL_RT_CFG_THR_NS < ((lineStamped.pred : Int) - (9020000 :
      Int)).natAbs ∧ (State.advance 8000000 (queuedAt 8000000 0 lineStamped)).past ((queuedAt 8000000 0
      lineStamped).laneSt 3).retimeAt ((queuedAt 8000000 0 lineStamped).get JL_RT_CFG_CYCLE_US * 1000) = true ∧
      (State.advance 8000000 (queuedAt 8000000 0 lineStamped)).past ((queuedAt 8000000 0 lineStamped).laneSt 3).tsyncAt
      ((queuedAt 8000000 0 lineStamped).get TB_HDM_CFG_TSYNC_US * 1000) = false) := by
  repeat' apply And.intro
  all_goals decide +kernel

/-- The hypotheses of each clause of LaneRecords are met. -/
theorem meets_LaneRecords :
    (up.core = CoreRun.running ∧ 95 < 96) ∧
    (freshHolder.core = CoreRun.running ∧ 3 < 96 ∧ freshHolder.flowing 3 = true ∧ freshHolder.pair.holdsSeq = true ∧
      (State.advance 200000 freshHolder).past (freshHolder.laneSt 3).lastTx 100000 = true ∧ (State.advance 200000
      freshHolder).laneClear 3 = true ∧ freshHolder.chanLines 3 = []) ∧
    ((ready laneTsLast).core = CoreRun.running ∧ 3 < 96 ∧ (ready laneTsLast).flowing 3 = true ∧ (State.advance 200000
      (ready laneTsLast)).past ((ready laneTsLast).laneSt 3).tsyncAt ((ready laneTsLast).get TB_HDM_CFG_TSYNC_US * 1000)
      = true) ∧
    ((ready laneCtl2).core = CoreRun.running ∧ 3 < 96 ∧ (ready laneCtl2).flowing 3 = true ∧ ((ready laneCtl2).laneSt
      3).ctl = [Tests.control 2] ∧ ((Tests.control 2).copies = 1 ∨ (Tests.control 2).copies = 2) ∧ (State.advance 200000
      (ready laneCtl2)).past (Tests.control 2).sentAt 100000 = true ∧ (State.advance 200000 (ready laneCtl2)).laneClear
      3 = true) ∧
    ((ready laneCtl3).core = CoreRun.running ∧ 3 < 96 ∧ (ready laneCtl3).flowing 3 = true ∧ ((ready laneCtl3).laneSt
      3).ctl = [Tests.control 3] ∧ 3 ≤ (Tests.control 3).copies ∧ (State.advance 200000 (ready laneCtl3)).past
      (Tests.control 3).sentAt 100000 = true) := by
  repeat' apply And.intro
  all_goals decide +kernel

/-- The hypotheses of each clause of HdmAnswers are met. -/
theorem meets_HdmAnswers :
    ((ready laneTs).core = CoreRun.running ∧ 3 < 96 ∧ (ready laneTs).flowing 3 = true ∧ (⟨true, 5, 3, 16⟩ :
      TsyncReply).timeValid = true) ∧
    ((ready laneTs).core = CoreRun.running ∧ 3 < 96 ∧ (ready laneTs).flowing 3 = true ∧ (⟨true, 9, 3, 16⟩ :
      TsyncReply).timeValid = true) ∧
    ((ready laneCtl1).core = CoreRun.running ∧ 3 < 96 ∧ (ready laneCtl1).flowing 3 = true ∧ ((ready laneCtl1).laneSt
      3).ctl = [Tests.control 1] ∧ (Tests.control 1).copies ≠ 0 ∧ (Tests.control 1).recId = (⟨true, false, 5, 7, 9⟩ :
      AckRec).recId ∧ (⟨true, false, 5, 7, 9⟩ : AckRec).ackType = (if (Tests.control 1).wave = true then 4 else 5) ∧
      (⟨true, false, 5, 7, 9⟩ : AckRec).refused = false) ∧
    ((ready LaneSt.reset).core = CoreRun.running ∧ 3 < 96 ∧ (ready LaneSt.reset).flowing 3 = true ∧ (⟨false, 0, 5,
      false, true, false, true, 9, 0, 4, 3, 0, 2, 1, 2, 3, 4, 5, 6, 7⟩ : StatRec).stbLong = false ∧ (ready
      LaneSt.reset).is PR_STAT_CONTEST = false ∧ (⟨false, 0, 5, false, true, false, true, 9, 0, 4, 3, 0, 2, 1, 2, 3, 4,
      5, 6, 7⟩ : StatRec).accClaim ≤ (ready LaneSt.reset).claim ∧ later 16 (⟨false, 0, 5, false, true, false, true, 9,
      0, 4, 3, 0, 2, 1, 2, 3, 4, 5, 6, 7⟩ : StatRec).mismatch ((ready LaneSt.reset).get (JL_HDM_CNT0_LOW 3)) = false ∧
      later 16 (⟨false, 0, 5, false, true, false, true, 9, 0, 4, 3, 0, 2, 1, 2, 3, 4, 5, 6, 7⟩ : StatRec).empty ((ready
      LaneSt.reset).get (JL_HDM_CNT1_LOW 3)) = false) ∧
    ((ready LaneSt.reset).core = CoreRun.running ∧ 3 < 96 ∧ (ready LaneSt.reset).flowing 3 = true ∧ (State.advance
      200000000 (ready LaneSt.reset)).past ((ready LaneSt.reset).laneSt 3).statAt (4 * (ready LaneSt.reset).get
      JL_STAT_CFG_STAT_US * 1000) = true ∧ (ready LaneSt.reset).get (JL_HDM_FLAGS_STAT_LOST 3) = 0) := by
  repeat' apply And.intro
  all_goals decide +kernel

/-- The hypotheses of each clause of EncoderCounts are met. -/
theorem meets_EncoderCounts :
    (up.core = CoreRun.running ∧ 3 < 4 ∧ (true, true, true) ≠ ((up.enc 3).a, (up.enc 3).b, (up.enc 3).z) ∧ 3 <
      up.web.encs.length ∧ up.get AG_RP_STAT_MODE ≠ 2) ∧
    (up.core = CoreRun.running ∧ 0 < 4 ∧ (true, false, false) ≠ ((up.enc 0).a, (up.enc 0).b, (up.enc 0).z) ∧ 0 <
      up.web.encs.length ∧ up.get AG_RP_STAT_MODE ≠ 2) ∧
    ((up.wr WP_ENC_CFG 2047).core = CoreRun.running ∧ 0 < 4 ∧ (false, true, false) ≠ (((up.wr WP_ENC_CFG 2047).enc
      0).a, ((up.wr WP_ENC_CFG 2047).enc 0).b, ((up.wr WP_ENC_CFG 2047).enc 0).z) ∧ 0 < (up.wr WP_ENC_CFG
      2047).web.encs.length ∧ (up.wr WP_ENC_CFG 2047).get AG_RP_STAT_MODE ≠ 2) ∧
    (up.core = CoreRun.running ∧ 0 < 4 ∧ (false, false, true) ≠ ((up.enc 0).a, (up.enc 0).b, (up.enc 0).z) ∧ 0 <
      up.web.encs.length ∧ up.get AG_RP_STAT_MODE ≠ 2) := by
  repeat' apply And.intro
  all_goals decide +kernel

/-- The hypotheses of each clause of ProbesAndEmulation are met. -/
theorem meets_ProbesAndEmulation :
    (((probed (⟨[latch], some 5, false⟩ : Probe)).put (WP_PRB_CFG_EDGE 3) 1).core = CoreRun.running ∧ 3 < 4 ∧ 3 <
      ((probed (⟨[latch], some 5, false⟩ : Probe)).put (WP_PRB_CFG_EDGE 3) 1).web.probes.length ∧ edgeChosen (((probed
      (⟨[latch], some 5, false⟩ : Probe)).put (WP_PRB_CFG_EDGE 3) 1).get (WP_PRB_CFG_EDGE 3)) true = true ∧ ((probed
      (⟨[latch], some 5, false⟩ : Probe)).put (WP_PRB_CFG_EDGE 3) 1).get AG_RP_STAT_MODE ≠ 2 ∧ (((probed (⟨[latch], some
      5, false⟩ : Probe)).put (WP_PRB_CFG_EDGE 3) 1).probe 3).lastPos = some 5 ∧ ((State.advance 50 ((probed (⟨[latch],
      some 5, false⟩ : Probe)).put (WP_PRB_CFG_EDGE 3) 1)).posAt ((State.advance 50 ((probed (⟨[latch], some 5, false⟩ :
      Probe)).put (WP_PRB_CFG_EDGE 3) 1)).now - 4)).floor - 5 < ↑(((probed (⟨[latch], some 5, false⟩ : Probe)).put
      (WP_PRB_CFG_EDGE 3) 1).get (WP_PRB_CFG_BLANK 3) * 64)) ∧
    (((probed Probe.reset).put (WP_PRB_CFG_EDGE 3) 1).core = CoreRun.running ∧ 3 < 4 ∧ 3 < ((probed Probe.reset).put
      (WP_PRB_CFG_EDGE 3) 1).web.probes.length ∧ edgeChosen (((probed Probe.reset).put (WP_PRB_CFG_EDGE 3) 1).get
      (WP_PRB_CFG_EDGE 3)) true = true ∧ ((probed Probe.reset).put (WP_PRB_CFG_EDGE 3) 1).get AG_RP_STAT_MODE ≠ 2 ∧ (∀ p
      ∈ (((probed Probe.reset).put (WP_PRB_CFG_EDGE 3) 1).probe 3).lastPos, ↑(((probed Probe.reset).put (WP_PRB_CFG_EDGE
      3) 1).get (WP_PRB_CFG_BLANK 3) * 64) ≤ ((State.advance 50 ((probed Probe.reset).put (WP_PRB_CFG_EDGE 3) 1)).posAt
      ((State.advance 50 ((probed Probe.reset).put (WP_PRB_CFG_EDGE 3) 1)).now - 4)).floor - p) ∧ (((probed
      Probe.reset).put (WP_PRB_CFG_EDGE 3) 1).probe 3).fifo.length < 16) ∧
    ((((probed (⟨List.replicate 16 latch, some 0, false⟩ : Probe)).put (WP_PRB_CFG_EDGE 3) 1).put (WP_PRB_CFG_BLANK 3)
      0).core = CoreRun.running ∧ 3 < 4 ∧ 3 < (((probed (⟨List.replicate 16 latch, some 0, false⟩ : Probe)).put
      (WP_PRB_CFG_EDGE 3) 1).put (WP_PRB_CFG_BLANK 3) 0).web.probes.length ∧ edgeChosen ((((probed (⟨List.replicate 16
      latch, some 0, false⟩ : Probe)).put (WP_PRB_CFG_EDGE 3) 1).put (WP_PRB_CFG_BLANK 3) 0).get (WP_PRB_CFG_EDGE 3))
      true = true ∧ (((probed (⟨List.replicate 16 latch, some 0, false⟩ : Probe)).put (WP_PRB_CFG_EDGE 3) 1).put
      (WP_PRB_CFG_BLANK 3) 0).get AG_RP_STAT_MODE ≠ 2 ∧ (∀ p ∈ ((((probed (⟨List.replicate 16 latch, some 0, false⟩ :
      Probe)).put (WP_PRB_CFG_EDGE 3) 1).put (WP_PRB_CFG_BLANK 3) 0).probe 3).lastPos, ↑((((probed (⟨List.replicate 16
      latch, some 0, false⟩ : Probe)).put (WP_PRB_CFG_EDGE 3) 1).put (WP_PRB_CFG_BLANK 3) 0).get (WP_PRB_CFG_BLANK 3) *
      64) ≤ ((State.advance 50 (((probed (⟨List.replicate 16 latch, some 0, false⟩ : Probe)).put (WP_PRB_CFG_EDGE 3)
      1).put (WP_PRB_CFG_BLANK 3) 0)).posAt ((State.advance 50 (((probed (⟨List.replicate 16 latch, some 0, false⟩ :
      Probe)).put (WP_PRB_CFG_EDGE 3) 1).put (WP_PRB_CFG_BLANK 3) 0)).now - 4)).floor - p) ∧ 16 ≤ ((((probed
      (⟨List.replicate 16 latch, some 0, false⟩ : Probe)).put (WP_PRB_CFG_EDGE 3) 1).put (WP_PRB_CFG_BLANK 3) 0).probe
      3).fifo.length) ∧
    (emulating.core = CoreRun.running ∧ 1 < 2 ∧ 1 < emulating.web.encos.length ∧ emulating.is (WP_ENCO_CFG_EN 1) =
      true ∧ emulating.encosStand = false ∧ 0 < (State.advance 500 emulating).encoLag 1 ∧ (∀ a ∈ (emulating.enco
      1).lastAt, (State.advance 500 emulating).past a 100 = true)) := by
  repeat' apply And.intro
  all_goals decide +kernel

/-- The hypotheses of each clause of StandstillSpeed are met. -/
theorem meets_StandstillSpeed :
    ((encoder encSlow).core = CoreRun.running ∧ 0 < 4 ∧ 0 < (encoder encSlow).web.encs.length ∧ ((encoder encSlow).enc
      0).state ≠ 0 ∧ (State.advance 20000000000 (encoder encSlow)).past (((encoder encSlow).enc 0).counts.headD 0)
      ((encoder encSlow).get WP_SPD_CFG_STILL_MS * 1000000) = true) ∧
    (up.core = CoreRun.running ∧ (up.enc up.selEnc).state ≠ 2 ∧ up.get AG_RP_STAT_MODE ≠ 2) ∧
    (moving.core = CoreRun.running ∧ moving.get AG_RP_STAT_MODE ≠ 2 ∧ (moving.enc moving.selEnc).state = 2 ∧
      (moving.enc moving.selEnc).fwd = true ∧ (moving.enc moving.selEnc).counts.head? = some 50000 ∧ (List.filter (fun a
      => decide (50000 ≤ a + moving.get WP_SPD_CFG_WIN_US * 1000)) (moving.enc moving.selEnc).counts).getLast? = some
      100 ∧ moving.get WP_SPD_CFG_SW_UP ≤ (List.filter (fun a => decide (50000 ≤ a + moving.get WP_SPD_CFG_WIN_US *
      1000)) (moving.enc moving.selEnc).counts).length ∧ moving.get WP_SPD_CFG_SW_DN ≤ moving.get WP_SPD_CFG_SW_UP ∧ 100
      < 50000 ∧ 50000 < (State.advance 60000 moving).now) := by
  repeat' apply And.intro
  all_goals decide +kernel

/-- The hypotheses of each clause of ScanEvents are met. -/
theorem meets_ScanEvents :
    ((printing.put PG_EVT_CFG_GAP_START_EN 1).core = CoreRun.running ∧ List.find? (fun r => r.job == 2 && r.page == 1
      && !r.gapStarted) (printing.put PG_EVT_CFG_GAP_START_EN 1).scan.runs = some run0 ∧ (State.advance 60000
      (printing.put PG_EVT_CFG_GAP_START_EN 1)).fired run0 (run0.firstLine + run0.lines) ((printing.put
      PG_EVT_CFG_GAP_START_EN 1).refBar run0) = true ∧ (printing.put PG_EVT_CFG_GAP_START_EN 1).is
      PG_EVT_CFG_GAP_START_EN = true) ∧
    (((printing.put PG_EVT_CFG_LINE_MATCH_EN 1).put PG_EVT_CFG_MATCH_LINE 3).core = CoreRun.running ∧ List.find? (fun
      r => r.job == 2 && r.page == 1 && !r.matched) ((printing.put PG_EVT_CFG_LINE_MATCH_EN 1).put PG_EVT_CFG_MATCH_LINE
      3).scan.runs = some run0 ∧ ((printing.put PG_EVT_CFG_LINE_MATCH_EN 1).put PG_EVT_CFG_MATCH_LINE 3).get
      PG_EVT_CFG_MATCH_LINE < run0.lines + run0.gapLines ∧ (State.advance 60000 ((printing.put PG_EVT_CFG_LINE_MATCH_EN
      1).put PG_EVT_CFG_MATCH_LINE 3)).fired run0 (run0.firstLine + ((printing.put PG_EVT_CFG_LINE_MATCH_EN 1).put
      PG_EVT_CFG_MATCH_LINE 3).get PG_EVT_CFG_MATCH_LINE) (((printing.put PG_EVT_CFG_LINE_MATCH_EN 1).put
      PG_EVT_CFG_MATCH_LINE 3).refBar run0) = true ∧ ((printing.put PG_EVT_CFG_LINE_MATCH_EN 1).put
      PG_EVT_CFG_MATCH_LINE 3).is PG_EVT_CFG_LINE_MATCH_EN = true) ∧
    (((printing.put PG_EVT_CFG_LINE_MATCH_EN 1).put PG_EVT_CFG_MATCH_LINE 400000).core = CoreRun.running ∧ List.find?
      (fun r => r.job == 2 && r.page == 1 && !r.matched) ((printing.put PG_EVT_CFG_LINE_MATCH_EN 1).put
      PG_EVT_CFG_MATCH_LINE 400000).scan.runs = some run0 ∧ run0.lines + run0.gapLines ≤ ((printing.put
      PG_EVT_CFG_LINE_MATCH_EN 1).put PG_EVT_CFG_MATCH_LINE 400000).get PG_EVT_CFG_MATCH_LINE) ∧
    ((printing.put PG_EVT_CFG_PAGE_DONE_EN 1).core = CoreRun.running ∧ List.find? (fun r => r.job == 2 && r.page == 1
      && !r.done) (printing.put PG_EVT_CFG_PAGE_DONE_EN 1).scan.runs = some run0 ∧ (printing.put PG_EVT_CFG_PAGE_DONE_EN
      1).farBar run0.bars = some 0 ∧ (State.advance 60000 (printing.put PG_EVT_CFG_PAGE_DONE_EN 1)).fired run0
      (run0.firstLine + run0.lines - 1) 0 = true ∧ (printing.put PG_EVT_CFG_PAGE_DONE_EN 1).is PG_EVT_CFG_PAGE_DONE_EN =
      true) ∧
    (calm.core = CoreRun.running ∧ calm.scan.calm = some 5 ∧ (State.advance 20000000 calm).spdCalm = true ∧
      (State.advance 20000000 calm).past 5 10000000 = true ∧ calm.get PG_SPDREQ_STAT_THERMAL = 0 ∧ calm.get
      PG_SPDREQ_STAT_FORCED = 0 ∧ calm.get PG_SPDREQ_STAT_PIN = 1) ∧
    (draining.core = CoreRun.running ∧ draining.authoritative = true ∧ draining.get PG_JOB_STAT_DRAINING = 1 ∧
      (draining.scan.runs.all fun x => x.done) = true ∧ draining.scan.nextPage = none ∧ draining.nextJob = some job3 ∧
      draining.scan.runs.getLast? = some run0Done ∧ run0Done.ord ≠ job3.order) := by
  repeat' apply And.intro
  all_goals decide +kernel

/-- The hypotheses of each clause of StoreErrorsAndStrips are met. -/
theorem meets_StoreErrorsAndStrips :
    ((up.put MC_ECC_CE_COUNT (2 ^ 32 - 1)).core = CoreRun.running) ∧
    (up.core = CoreRun.running) ∧
    (up.core = CoreRun.running ∧ (true = true → up.slotAt (2 ^ 30 * 64) = none)) ∧
    ((stored stHeld 3 solid).core = CoreRun.running ∧ (stored stHeld 3 solid).slotAt (pool.rgnBase 7 / 64 * 64) = some
      (3, 2, 0)) ∧
    ((stored stHeld 3 solid).core = CoreRun.running ∧ (stored stHeld 3 solid).userOf 3 2 = some run0Uses ∧ ((stored
      stHeld 3 solid).slotOf 3 2 0).readable = true ∧ (stored stHeld 3 solid).ingest.fetched.contains (3, 2, 0) = false
      ∧ (stored stHeld 3 solid).ingest.waiting.contains (3, 2, 0) = false ∧ ((stored stHeld 3 solid).ingest.decoding.any
      fun x => x.snd == (3, 2, 0)) = false ∧ ((stored stHeld 3 solid).stripRead 3 2 0).reason = 0 ∧ (((stored stHeld 3
      solid).slotOf 3 2 0).mode = 0 ∨ ((stored stHeld 3 solid).slotOf 3 2 0).mode = 3)) ∧
    ((stored stHeld 2 runs).core = CoreRun.running ∧ (stored stHeld 2 runs).userOf 3 2 = some run0Uses ∧ ((stored
      stHeld 2 runs).slotOf 3 2 0).readable = true ∧ (stored stHeld 2 runs).ingest.fetched.contains (3, 2, 0) = false ∧
      (stored stHeld 2 runs).ingest.waiting.contains (3, 2, 0) = false ∧ ((stored stHeld 2 runs).ingest.decoding.any fun
      x => x.snd == (3, 2, 0)) = false ∧ ((stored stHeld 2 runs).stripRead 3 2 0).reason ≠ 1 ∧ ((stored stHeld 2
      runs).stripRead 3 2 0).reason ≠ 2 ∧ (((stored stHeld 2 runs).slotOf 3 2 0).mode = 1 ∨ ((stored stHeld 2
      runs).slotOf 3 2 0).mode = 2) ∧ List.find? (fun n => !(stored stHeld 2 runs).bitOf CS_DEC_STAT_BUSY n) (List.range
      16) = some 0) ∧
    (((stored stHeld 2 runs).put CS_DEC_STAT_BUSY 65535).core = CoreRun.running ∧ ((stored stHeld 2 runs).put
      CS_DEC_STAT_BUSY 65535).userOf 3 2 = some run0Uses ∧ (((stored stHeld 2 runs).put CS_DEC_STAT_BUSY 65535).slotOf 3
      2 0).readable = true ∧ ((stored stHeld 2 runs).put CS_DEC_STAT_BUSY 65535).ingest.fetched.contains (3, 2, 0) =
      false ∧ ((stored stHeld 2 runs).put CS_DEC_STAT_BUSY 65535).ingest.waiting.contains (3, 2, 0) = false ∧ (((stored
      stHeld 2 runs).put CS_DEC_STAT_BUSY 65535).ingest.decoding.any fun x => x.snd == (3, 2, 0)) = false ∧ (((stored
      stHeld 2 runs).put CS_DEC_STAT_BUSY 65535).stripRead 3 2 0).reason ≠ 1 ∧ (((stored stHeld 2 runs).put
      CS_DEC_STAT_BUSY 65535).stripRead 3 2 0).reason ≠ 2 ∧ ((((stored stHeld 2 runs).put CS_DEC_STAT_BUSY 65535).slotOf
      3 2 0).mode = 1 ∨ (((stored stHeld 2 runs).put CS_DEC_STAT_BUSY 65535).slotOf 3 2 0).mode = 2) ∧ (∀ (n : Nat), n <
      16 → ((stored stHeld 2 runs).put CS_DEC_STAT_BUSY 65535).bitOf CS_DEC_STAT_BUSY n = true)) ∧
    ((stored stHeld 2 [1, 2, 3]).core = CoreRun.running ∧ (stored stHeld 2 [1, 2, 3]).userOf 3 2 = some run0Uses ∧
      ((stored stHeld 2 [1, 2, 3]).slotOf 3 2 0).readable = true ∧ (stored stHeld 2 [1, 2, 3]).ingest.fetched.contains
      (3, 2, 0) = false ∧ (stored stHeld 2 [1, 2, 3]).ingest.waiting.contains (3, 2, 0) = false ∧ ((stored stHeld 2 [1,
      2, 3]).ingest.decoding.any fun x => x.snd == (3, 2, 0)) = false ∧ (((stored stHeld 2 [1, 2, 3]).stripRead 3 2
      0).reason = 1 ∨ ((stored stHeld 2 [1, 2, 3]).stripRead 3 2 0).reason = 2)) ∧
    ((decoding runs).core = CoreRun.running ∧ (decoding runs).userOf 3 2 = some run0Uses ∧ ((decoding runs).slotOf 3 2
      0).readable = true ∧ (decoding runs).ingest.fetched.contains (3, 2, 0) = false ∧ (decoding
      runs).ingest.waiting.contains (3, 2, 0) = false ∧ List.find? (fun x => x.fst == 15) (decoding
      runs).ingest.decoding = some (15, 3, 2, 0) ∧ 15 < 16 ∧ ((decoding runs).stripRead 3 2 0).reason = 0 ∧ (decoding
      runs).ingest.waiting = []) ∧
    ((decodingNext runs).core = CoreRun.running ∧ (decodingNext runs).userOf 3 2 = some run0Uses ∧ ((decodingNext
      runs).slotOf 3 2 0).readable = true ∧ (decodingNext runs).ingest.fetched.contains (3, 2, 0) = false ∧
      (decodingNext runs).ingest.waiting.contains (3, 2, 0) = false ∧ List.find? (fun x => x.fst == 15) (decodingNext
      runs).ingest.decoding = some (15, 3, 2, 0) ∧ 15 < 16 ∧ ((decodingNext runs).stripRead 3 2 0).reason = 0 ∧
      (decodingNext runs).ingest.waiting = [(3, 2, 1)] ∧ (3, 2, 1) ≠ (3, 2, 0) ∧ (decodingNext runs).stripDue (3, 2,
      1).fst (3, 2, 1).snd.fst (3, 2, 1).snd.snd = true ∧ ((decodingNext runs).userOf (3, 2, 1).fst (3, 2,
      1).snd.fst).isSome = true) ∧
    ((decoding (runs.set 17 255)).core = CoreRun.running ∧ (decoding (runs.set 17 255)).userOf 3 2 = some run0Uses ∧
      ((decoding (runs.set 17 255)).slotOf 3 2 0).readable = true ∧ (decoding (runs.set 17 255)).ingest.fetched.contains
      (3, 2, 0) = false ∧ (decoding (runs.set 17 255)).ingest.waiting.contains (3, 2, 0) = false ∧ List.find? (fun x =>
      x.fst == 15) (decoding (runs.set 17 255)).ingest.decoding = some (15, 3, 2, 0) ∧ 15 < 16 ∧ ((decoding (runs.set 17
      255)).stripRead 3 2 0).reason ≠ 0 ∧ (decoding (runs.set 17 255)).ingest.waiting = []) := by
  repeat' apply And.intro
  all_goals decide +kernel

/-- The hypotheses of each clause of FragmentsPlaced are met. -/
theorem meets_FragmentsPlaced :
    ((loading window [] stEmpty).core = CoreRun.running ∧ (loading window [] stEmpty).hostUp = true ∧ 1 < 2 ∧ (dbtPort
      + 1 ≠ (loading window [] stEmpty).get HP_DBT_PORT_PORT ∨ (loading window [] stEmpty).ipOn 1 false = false)) ∧
    ((loading window [] stEmpty).core = CoreRun.running ∧ (loading window [] stEmpty).hostUp = true ∧ 1 < 2 ∧ (dbtPort
      ≠ (loading window [] stEmpty).get HP_DBT_PORT_PORT ∨ (loading window [] stEmpty).ipOn 1 true = false)) ∧
    ((loading window [] stEmpty).core = CoreRun.running ∧ (loading window [] stEmpty).hostUp = true ∧ 1 < 2 ∧ dbtPort
      = (loading window [] stEmpty).get HP_DBT_PORT_PORT ∧ (loading window [] stEmpty).ipOn 1 false = true ∧ List.find?
      (fun x => x.id == (dbt 1 solid).session) (loading window [] stEmpty).ingest.sessions = some session ∧ (loading
      window [] stEmpty).window (dbt 1 solid).session (dbt 1 solid).window = some window ∧ (fragOk (dbt 1 solid)
      session.frag solid.length = false ∨ (dbt 1 solid).kind ≠ 0 ∨ window.kind = WinKind.readBack)) ∧
    ((starved (loading window [] stEmpty)).core = CoreRun.running ∧ (starved (loading window [] stEmpty)).hostUp =
      true ∧ 1 < 2 ∧ dbtPort = (starved (loading window [] stEmpty)).get HP_DBT_PORT_PORT ∧ (starved (loading window []
      stEmpty)).ipOn 1 false = true ∧ List.find? (fun x => x.id == (dbt 0 solid).session) (starved (loading window []
      stEmpty)).ingest.sessions = some session ∧ (starved (loading window [] stEmpty)).window (dbt 0 solid).session (dbt
      0 solid).window = some window ∧ fragOk (dbt 0 solid) session.frag solid.length = true ∧ (dbt 0 solid).kind = 0 ∧
      window.kind ≠ WinKind.readBack ∧ (starved (loading window [] stEmpty)).c3Shed = true) ∧
    ((loading window [] stEmpty).core = CoreRun.running ∧ (loading window [] stEmpty).hostUp = true ∧ 1 < 2 ∧ dbtPort
      = (loading window [] stEmpty).get HP_DBT_PORT_PORT ∧ (loading window [] stEmpty).ipOn 1 false = true ∧ List.find?
      (fun x => x.id == (dbt 0 solid).session) (loading window [] stEmpty).ingest.sessions = some session ∧ (loading
      window [] stEmpty).window (dbt 0 solid).session (dbt 0 solid).window = some window ∧ fragOk (dbt 0 solid)
      session.frag solid.length = true ∧ (dbt 0 solid).kind = 0 ∧ window.kind ≠ WinKind.readBack ∧ (loading window []
      stEmpty).c3Shed = false ∧ (State.advance 50 (loading window [] stEmpty)).isEnded (dbt 0 solid) = false ∧
      List.find? (fun x => x.isOf (dbt 0 solid)) (loading window [] stEmpty).ingest.xfers = none ∧ window.kind =
      WinKind.stripWrite ∧ (loading window [] stEmpty).firstReason window (dbt 0 solid) = 0 ∧ List.filter ((loading
      window [] stEmpty).writesSame window (dbt 0 solid).objIndex) (loading window [] stEmpty).ingest.xfers = [] ∧
      (List.filter (fun y => y.session == (dbt 0 solid).session && y.window == (dbt 0 solid).window) (loading window []
      stEmpty).ingest.xfers).length < 64 ∧ (loading window [] stEmpty).ingest.xfers.length < 1024 ∧ (loading window []
      stEmpty).poolAlloc (dbt 0 solid).xferLen = some (pool.rgnBase 7)) ∧
    ((loading window [] stEmpty).core = CoreRun.running ∧ (loading window [] stEmpty).hostUp = true ∧ 1 < 2 ∧ dbtPort
      = (loading window [] stEmpty).get HP_DBT_PORT_PORT ∧ (loading window [] stEmpty).ipOn 1 false = true ∧ List.find?
      (fun x => x.id == (dbt 0 (solid ++ solid ++ solid)).session) (loading window [] stEmpty).ingest.sessions = some
      session ∧ (loading window [] stEmpty).window (dbt 0 (solid ++ solid ++ solid)).session (dbt 0 (solid ++ solid ++
      solid)).window = some window ∧ fragOk (dbt 0 (solid ++ solid ++ solid)) session.frag (solid ++ solid ++
      solid).length = true ∧ (dbt 0 (solid ++ solid ++ solid)).kind = 0 ∧ window.kind ≠ WinKind.readBack ∧ (loading
      window [] stEmpty).c3Shed = false ∧ (State.advance 50 (loading window [] stEmpty)).isEnded (dbt 0 (solid ++ solid
      ++ solid)) = false ∧ List.find? (fun x => x.isOf (dbt 0 (solid ++ solid ++ solid))) (loading window []
      stEmpty).ingest.xfers = none ∧ (loading window [] stEmpty).firstReason window (dbt 0 (solid ++ solid ++ solid)) =
      3 ∧ 3 ≠ 0 ∧ 3 ≠ 255) ∧
    ((loading window [xfer [] (crc32c solid)] stLoading).core = CoreRun.running ∧ (loading window [xfer [] (crc32c
      solid)] stLoading).hostUp = true ∧ 1 < 2 ∧ dbtPort = (loading window [xfer [] (crc32c solid)] stLoading).get
      HP_DBT_PORT_PORT ∧ (loading window [xfer [] (crc32c solid)] stLoading).ipOn 1 false = true ∧ List.find? (fun x =>
      x.id == (dbt 0 solid).session) (loading window [xfer [] (crc32c solid)] stLoading).ingest.sessions = some session
      ∧ (loading window [xfer [] (crc32c solid)] stLoading).window (dbt 0 solid).session (dbt 0 solid).window = some
      window ∧ fragOk (dbt 0 solid) session.frag solid.length = true ∧ (dbt 0 solid).kind = 0 ∧ window.kind ≠
      WinKind.readBack ∧ (loading window [xfer [] (crc32c solid)] stLoading).c3Shed = false ∧ (State.advance 50 (loading
      window [xfer [] (crc32c solid)] stLoading)).isEnded (dbt 0 solid) = false ∧ (loading window [xfer [] (crc32c
      solid)] stLoading).ingest.xfers = [xfer [] (crc32c solid)] ∧ (xfer [] (crc32c solid)).isOf (dbt 0 solid) = true ∧
      (xfer [] (crc32c solid)).obj = (dbt 0 solid).objIndex ∧ (xfer [] (crc32c solid)).fragCount = (dbt 0
      solid).fragCount ∧ (xfer [] (crc32c solid)).len = (dbt 0 solid).xferLen ∧ (xfer [] (crc32c solid)).crc = (dbt 0
      solid).xferCrc ∧ ¬(dbt 0 solid).frag ∈ (xfer [] (crc32c solid)).got) ∧
    ((loading window [xfer [] 5] stLoading).core = CoreRun.running ∧ (loading window [xfer [] 5] stLoading).hostUp =
      true ∧ 1 < 2 ∧ dbtPort = (loading window [xfer [] 5] stLoading).get HP_DBT_PORT_PORT ∧ (loading window [xfer [] 5]
      stLoading).ipOn 1 false = true ∧ List.find? (fun x => x.id == (dbt 0 solid).session) (loading window [xfer [] 5]
      stLoading).ingest.sessions = some session ∧ (loading window [xfer [] 5] stLoading).window (dbt 0 solid).session
      (dbt 0 solid).window = some window ∧ fragOk (dbt 0 solid) session.frag solid.length = true ∧ (dbt 0 solid).kind =
      0 ∧ window.kind ≠ WinKind.readBack ∧ (loading window [xfer [] 5] stLoading).c3Shed = false ∧ (State.advance 50
      (loading window [xfer [] 5] stLoading)).isEnded (dbt 0 solid) = false ∧ List.find? (fun x => x.isOf (dbt 0 solid))
      (loading window [xfer [] 5] stLoading).ingest.xfers = some (xfer [] 5) ∧ (xfer [] 5).crc ≠ (dbt 0 solid).xferCrc) := by
  repeat' apply And.intro
  all_goals decide +kernel

/-- The hypotheses of each clause of TransfersEnd are met. -/
theorem meets_TransfersEnd :
    ((loading window [xfer [0] 5] stLoading).core = CoreRun.running ∧ (loading window [xfer [0] 5] stLoading).c3Shed =
      false ∧ (loading window [xfer [0] 5] stLoading).window 77 5 = some window ∧ (loading window [xfer [0] 5]
      stLoading).ingest.xfers = [xfer [0] 5] ∧ (xfer [0] 5).session = 77 ∧ (xfer [0] 5).window = 5 ∧ (xfer [0] 5).id =
      2748 ∧ (xfer [0] 5).got.length = (xfer [0] 5).fragCount ∧ (loading window [xfer [0] 5] stLoading).verifyReason
      window (xfer [0] 5) = 1 ∧ 1 ≠ 0) ∧
    ((loading window [xfer [0] (crc32c solid)] stLoading).core = CoreRun.running ∧ (loading window [xfer [0] (crc32c
      solid)] stLoading).c3Shed = false ∧ (loading window [xfer [0] (crc32c solid)] stLoading).window 77 5 = some window
      ∧ (loading window [xfer [0] (crc32c solid)] stLoading).ingest.xfers = [xfer [0] (crc32c solid)] ∧ (xfer [0]
      (crc32c solid)).session = 77 ∧ (xfer [0] (crc32c solid)).window = 5 ∧ (xfer [0] (crc32c solid)).id = 2748 ∧ (xfer
      [0] (crc32c solid)).got.length = (xfer [0] (crc32c solid)).fragCount ∧ (loading window [xfer [0] (crc32c solid)]
      stLoading).verifyReason window (xfer [0] (crc32c solid)) = 0 ∧ window.kind = WinKind.stripWrite ∧ (loading window
      [xfer [0] (crc32c solid)] stLoading).surf window.surf window.gen = some ((loading window [xfer [0] (crc32c solid)]
      stLoading).ingest.surfs.headD (surf0 0 0 [])) ∧ (loading window [xfer [0] (crc32c solid)] stLoading).heldAlone =
      true) ∧
    ((loading window [xfer [] 5] stLoading).core = CoreRun.running ∧ (loading window [xfer [] 5] stLoading).c3Shed =
      false ∧ (loading window [xfer [] 5] stLoading).ingest.xfers = [xfer [] 5] ∧ (xfer [] 5).session = 77 ∧ (xfer []
      5).window = 5 ∧ (xfer [] 5).id = 2748 ∧ (xfer [] 5).got.length < (xfer [] 5).fragCount ∧ (State.advance 50000000
      (loading window [xfer [] 5] stLoading)).past (xfer [] 5).lastAt 10000000 = true) ∧
    ((loading window [xfer [] 5] stLoading).core = CoreRun.running ∧ (loading window [xfer [] 5] stLoading).c3Shed =
      false) ∧
    ((loading windowBack [] stHeld).core = CoreRun.running ∧ (loading windowBack [] stHeld).hostUp = true ∧ 0 < 2 ∧
      dbtPort = (loading windowBack [] stHeld).get HP_DBT_PORT_PORT ∧ (loading windowBack [] stHeld).ipOn 1 false = true
      ∧ List.find? (fun x => x.id == dbtBack.session) (loading windowBack [] stHeld).ingest.sessions = some session ∧
      (loading windowBack [] stHeld).window dbtBack.session dbtBack.window = some windowBack ∧ windowBack.kind =
      WinKind.readBack ∧ dbtBack.magic = 56176 ∧ dbtBack.ver = 1 ∧ dbtBack.kind = 3 ∧ dbtBack.payloadLen = 0 ∧ (loading
      windowBack [] stHeld).readObj windowBack dbtBack.objIndex = some solid ∧ (loading windowBack [] stHeld).c3Shed =
      false) ∧
    ((starved (loading windowBack [] stHeld)).core = CoreRun.running ∧ (starved (loading windowBack [] stHeld)).hostUp
      = true ∧ 0 < 2 ∧ dbtPort = (starved (loading windowBack [] stHeld)).get HP_DBT_PORT_PORT ∧ (starved (loading
      windowBack [] stHeld)).ipOn 1 false = true ∧ List.find? (fun x => x.id == dbtBack.session) (starved (loading
      windowBack [] stHeld)).ingest.sessions = some session ∧ (starved (loading windowBack [] stHeld)).window
      dbtBack.session dbtBack.window = some windowBack ∧ windowBack.kind = WinKind.readBack ∧ dbtBack.magic = 56176 ∧
      dbtBack.ver = 1 ∧ dbtBack.kind = 3 ∧ dbtBack.payloadLen = 0 ∧ (starved (loading windowBack [] stHeld)).readObj
      windowBack dbtBack.objIndex = some solid ∧ (starved (loading windowBack [] stHeld)).c3Shed = true ∧ (starved
      (loading windowBack [] stHeld)).ingest.reads.length < 16) ∧
    (readsFull.core = CoreRun.running ∧ readsFull.hostUp = true ∧ 0 < 2 ∧ dbtPort = readsFull.get HP_DBT_PORT_PORT ∧
      readsFull.ipOn 1 false = true ∧ List.find? (fun x => x.id == dbtBack.session) readsFull.ingest.sessions = some
      session ∧ readsFull.window dbtBack.session dbtBack.window = some windowBack ∧ windowBack.kind = WinKind.readBack ∧
      dbtBack.magic = 56176 ∧ dbtBack.ver = 1 ∧ dbtBack.kind = 3 ∧ dbtBack.payloadLen = 0 ∧ readsFull.readObj windowBack
      dbtBack.objIndex = some solid ∧ readsFull.c3Shed = true ∧ 16 ≤ readsFull.ingest.reads.length) ∧
    ((loading windowBack [] stEmpty).core = CoreRun.running ∧ (loading windowBack [] stEmpty).hostUp = true ∧ 0 < 2 ∧
      dbtPort = (loading windowBack [] stEmpty).get HP_DBT_PORT_PORT ∧ (loading windowBack [] stEmpty).ipOn 1 false =
      true ∧ List.find? (fun x => x.id == dbtBack.session) (loading windowBack [] stEmpty).ingest.sessions = some
      session ∧ (loading windowBack [] stEmpty).window dbtBack.session dbtBack.window = some windowBack ∧
      windowBack.kind = WinKind.readBack ∧ dbtBack.magic = 56176 ∧ dbtBack.ver = 1 ∧ dbtBack.kind = 3 ∧
      dbtBack.payloadLen = 0 ∧ (loading windowBack [] stEmpty).readObj windowBack dbtBack.objIndex = none ∧ (loading
      windowBack [] stEmpty).c3Shed = false) := by
  repeat' apply And.intro
  all_goals decide +kernel

/-- The hypotheses of each clause of LinesAndBanks are met. -/
theorem meets_LinesAndBanks :
    (composing.core = CoreRun.running ∧ 0 < 8 ∧ 0 < composing.screen.bars.length ∧ composing.lines.length = 96 ∧
      composing.nextLine 0 = some (run0p0, 10) ∧ composing.get AG_RP_STAT_MODE ≠ 2 ∧ (State.advance 600000
      composing).mayCompose 0 run0p0 10 = true) ∧
    (copying.core = CoreRun.running ∧ 7 < 8 ∧ copying.canonical = true ∧ copying.get (SC_BAR_APPLY_CTRL_COPY_BUSY 7) =
      1) ∧
    ((encoding []).core = CoreRun.running ∧ 3 < 4 ∧ (encoding []).c3Shed = false ∧ List.find? (fun x => x.enc == 3 &&
      !x.verify.isEmpty) (encoding []).screen.streams = some (stream []) ∧ (stream []).verify = [(true, 10,
      List.replicate 20 9)]) ∧
    ((encoding []).core = CoreRun.running ∧ 3 < 4 ∧ (encoding []).c3Shed = false ∧ List.find? (fun x => x.enc == 3 &&
      !x.verify.isEmpty) (encoding []).screen.streams = some (stream []) ∧ (stream []).verify = [(true, 10,
      List.replicate 20 9)]) ∧
    ((encoding []).core = CoreRun.running ∧ 3 < 4 ∧ (encoding []).c3Shed = false ∧ List.find? (fun x => x.enc == 3 &&
      !x.verify.isEmpty) (encoding []).screen.streams = some (stream []) ∧ (stream []).verify = [(true, 10,
      List.replicate 20 9)]) ∧
    (released.core = CoreRun.running ∧ released.surf 3 2 = some (released.ingest.surfs.headD (surf0 0 0 [])) ∧
      released.authoritative = true ∧ (State.advance 250000 released).tick ≠ released.tb.seen ∧ released.mayFree
      (released.ingest.surfs.headD (surf0 0 0 [])) = true ∧ (released.ingest.surfs.headD (surf0 0 0 [])).entry < 4096 ∧
      (released.ingest.surfs.headD (surf0 0 0 [])).body.length = 6 ∧ released.surfWindows 3 2 = [] ∧ (∀ (g : Surface), g
      ∈ released.ingest.surfs → g.entry = (released.ingest.surfs.headD (surf0 0 0 [])).entry → g =
      released.ingest.surfs.headD (surf0 0 0 []))) := by
  repeat' apply And.intro
  all_goals decide +kernel

/-- The hypotheses of each clause of TickEnds are met. -/
theorem meets_TickEnds :
    (up.core = CoreRun.running ∧ up.get AG_RP_STAT_MODE = 0 ∧ up.agate.script = [] ∧ up.dcp.held = [] ∧ (State.advance
      250000 up).tick ≠ up.tb.seen) ∧
    (holdingIdle.core = CoreRun.running ∧ holdingIdle.get AG_RP_STAT_MODE = 0 ∧ holdingIdle.agate.script = [] ∧
      (State.advance 250000 holdingIdle).tick ≠ holdingIdle.tb.seen ∧ holdingIdle.base = Base.configured ∧
      holdingIdle.is HP_MP_STAT_LINK = true) ∧
    ((holding [held0 22 [5] 0 3 9 30000]).core = CoreRun.running ∧ (holding [held0 22 [5] 0 3 9 30000]).get
      AG_RP_STAT_MODE = 0 ∧ (holding [held0 22 [5] 0 3 9 30000]).agate.script = [] ∧ (State.advance 250000 (holding
      [held0 22 [5] 0 3 9 30000])).tick ≠ (holding [held0 22 [5] 0 3 9 30000]).tb.seen ∧ (holding [held0 22 [5] 0 3 9
      30000]).authoritative = true ∧ (holding [held0 22 [5] 0 3 9 30000]).pair.higher = false ∧ (holding [held0 22 [5] 0
      3 9 30000]).is HP_MP_STAT_LINK = true ∧ (holding [held0 22 [5] 0 3 9 30000]).dcp.held = [held0 22 [5] 0 3 9 30000]
      ∧ (held0 22 [5] 0 3 9 30000).passedAt + 20000 ≤ (State.advance 250000 (holding [held0 22 [5] 0 3 9 30000])).now) ∧
    (up.core = CoreRun.running ∧ up.get AG_RP_STAT_MODE = 0 ∧ (State.advance 200000 up).tick = up.tb.seen) := by
  repeat' apply And.intro
  all_goals decide +kernel

/-- The hypotheses of each clause of CommitsInOrder are met. -/
theorem meets_CommitsInOrder :
    (upStandby.authoritative = false) ∧
    ((holding [held0 22 [5] 0 3 9 30000]).base = Base.single ∧ (holding [held0 22 [5] 0 3 9 30000]).get
      AG_RP_STAT_MODE = 0 ∧ (holding [held0 22 [5] 0 3 9 30000]).dcp.held = [held0 22 [5] 0 3 9 30000] ∧ (held0 22 [5] 0
      3 9 30000).passedAt + 20000 ≤ (holding [held0 22 [5] 0 3 9 30000]).now ∧ ((⟨(holding [held0 22 [5] 0 3 9
      30000]).pending, (holding [held0 22 [5] 0 3 9 30000]).clk, (holding [held0 22 [5] 0 3 9 30000]).frc0, (holding
      [held0 22 [5] 0 3 9 30000]).free, (holding [held0 22 [5] 0 3 9 30000]).out, (holding [held0 22 [5] 0 3 9
      30000]).core, (holding [held0 22 [5] 0 3 9 30000]).base, (holding [held0 22 [5] 0 3 9 30000]).pairEn, (holding
      [held0 22 [5] 0 3 9 30000]).unitId, (holding [held0 22 [5] 0 3 9 30000]).modeStrap, (holding [held0 22 [5] 0 3 9
      30000]).shutdown, (holding [held0 22 [5] 0 3 9 30000]).words, (holding [held0 22 [5] 0 3 9 30000]).shadow,
      (holding [held0 22 [5] 0 3 9 30000]).rwlDone, (holding [held0 22 [5] 0 3 9 30000]).mem, (holding [held0 22 [5] 0 3
      9 30000]).flash, (holding [held0 22 [5] 0 3 9 30000]).otp, (holding [held0 22 [5] 0 3 9 30000]).ao, (holding
      [held0 22 [5] 0 3 9 30000]).tap, (holding [held0 22 [5] 0 3 9 30000]).cells, (holding [held0 22 [5] 0 3 9
      30000]).tb, (holding [held0 22 [5] 0 3 9 30000]).refs, (holding [held0 22 [5] 0 3 9 30000]).events, have __src :=
      (holding [held0 22 [5] 0 3 9 30000]).dcp; (⟨[], __src.adjBusy, __src.await, __src.keyOp, __src.imgOp,
      __src.authRespAt, __src.authEvtAt, __src.push, __src.readUpTo, __src.mpLost⟩ : Dcp), (holding [held0 22 [5] 0 3 9
      30000]).ptp, (holding [held0 22 [5] 0 3 9 30000]).agate, (holding [held0 22 [5] 0 3 9 30000]).pwr, (holding [held0
      22 [5] 0 3 9 30000]).ingest, (holding [held0 22 [5] 0 3 9 30000]).scan, (holding [held0 22 [5] 0 3 9 30000]).web,
      (holding [held0 22 [5] 0 3 9 30000]).screen, (holding [held0 22 [5] 0 3 9 30000]).lanes, (holding [held0 22 [5] 0
      3 9 30000]).lines, (holding [held0 22 [5] 0 3 9 30000]).fire, (holding [held0 22 [5] 0 3 9 30000]).cam, (holding
      [held0 22 [5] 0 3 9 30000]).beryl, (holding [held0 22 [5] 0 3 9 30000]).pair⟩ : State).commitGo (held0 22 [5] 0 3
      9 30000).opcode (held0 22 [5] 0 3 9 30000).body).snd.adjOk = true) ∧
    ((holding [held0 22 [5] 0 3 9 30001]).authoritative = true ∧ (holding [held0 22 [5] 0 3 9 30001]).adjOk = true ∧
      (holding [held0 22 [5] 0 3 9 30001]).dcp.held = [held0 22 [5] 0 3 9 30001] ∧ (holding [held0 22 [5] 0 3 9
      30001]).now < (held0 22 [5] 0 3 9 30001).passedAt + 20000) ∧
    (adjHeld.base = Base.single ∧ adjHeld.get AG_RP_STAT_MODE = 0 ∧ adjHeld.dcp.held = [held0 2 adjBody 0 3 9 30000] ∧
      (held0 2 adjBody 0 3 9 30000).passedAt + 20000 ≤ adjHeld.now ∧ ((⟨adjHeld.pending, adjHeld.clk, adjHeld.frc0,
      adjHeld.free, adjHeld.out, adjHeld.core, adjHeld.base, adjHeld.pairEn, adjHeld.unitId, adjHeld.modeStrap,
      adjHeld.shutdown, adjHeld.words, adjHeld.shadow, adjHeld.rwlDone, adjHeld.mem, adjHeld.flash, adjHeld.otp,
      adjHeld.ao, adjHeld.tap, adjHeld.cells, adjHeld.tb, adjHeld.refs, adjHeld.events, have __src := adjHeld.dcp; (⟨[],
      __src.adjBusy, __src.await, __src.keyOp, __src.imgOp, __src.authRespAt, __src.authEvtAt, __src.push,
      __src.readUpTo, __src.mpLost⟩ : Dcp), adjHeld.ptp, adjHeld.agate, adjHeld.pwr, adjHeld.ingest, adjHeld.scan,
      adjHeld.web, adjHeld.screen, adjHeld.lanes, adjHeld.lines, adjHeld.fire, adjHeld.cam, adjHeld.beryl, adjHeld.pair⟩
      : State).commitGo (held0 2 adjBody 0 3 9 30000).opcode (held0 2 adjBody 0 3 9 30000).body).snd.adjOk = false) ∧
    (atTick.base = Base.single ∧ atTick.get AG_RP_STAT_MODE = 0 ∧ atTick.dcp.held = [held0 2 [FS_BAR_STB 0,
      4294967295, 19660900] 1 3 9 30000, held0 2 [FS_BAR_STB 0, 4294967295, 19660901] 0 3 9 30000] ∧ (held0 2
      [FS_BAR_STB 0, 4294967295, 19660901] 0 3 9 30000).passedAt + 20000 ≤ atTick.now ∧ (held0 2 [FS_BAR_STB 0,
      4294967295, 19660900] 1 3 9 30000).passedAt + 20000 ≤ atTick.now ∧ (held0 2 [FS_BAR_STB 0, 4294967295, 19660901] 0
      3 9 30000).before (held0 2 [FS_BAR_STB 0, 4294967295, 19660900] 1 3 9 30000) = true ∧ (held0 2 [FS_BAR_STB 0,
      4294967295, 19660901] 0 3 9 30000).master ≠ (held0 2 [FS_BAR_STB 0, 4294967295, 19660900] 1 3 9 30000).master ∧
      atTickNext = (⟨atTick.pending, atTick.clk, atTick.frc0, atTick.free, atTick.out, atTick.core, atTick.base,
      atTick.pairEn, atTick.unitId, atTick.modeStrap, atTick.shutdown, atTick.words, atTick.shadow, atTick.rwlDone,
      atTick.mem, atTick.flash, atTick.otp, atTick.ao, atTick.tap, atTick.cells, atTick.tb, atTick.refs, atTick.events,
      have __src := atTick.dcp; (⟨[], __src.adjBusy, __src.await, __src.keyOp, __src.imgOp, __src.authRespAt,
      __src.authEvtAt, __src.push, __src.readUpTo, __src.mpLost⟩ : Dcp), atTick.ptp, atTick.agate, atTick.pwr,
      atTick.ingest, atTick.scan, atTick.web, atTick.screen, atTick.lanes, atTick.lines, atTick.fire, atTick.cam,
      atTick.beryl, atTick.pair⟩ : State) ∧ (atTickNext.commitGo 2 [FS_BAR_STB 0, 4294967295, 19660901]).fst.status =
      stOk ∧ ((atTickNext.commitClaims (held0 2 [FS_BAR_STB 0, 4294967295, 19660901] 0 3 9 30000).opcode (held0 2
      [FS_BAR_STB 0, 4294967295, 19660901] 0 3 9 30000).body).any fun c => ((atTickNext.commitGo 2 [FS_BAR_STB 0,
      4294967295, 19660901]).snd.commitClaims (held0 2 [FS_BAR_STB 0, 4294967295, 19660900] 1 3 9 30000).opcode (held0 2
      [FS_BAR_STB 0, 4294967295, 19660900] 1 3 9 30000).body).any c.clash) = true ∧ (((atTickNext.commitGo 2 [FS_BAR_STB
      0, 4294967295, 19660901]).snd.inc HP_DCP_CONFLICT_CONFLICTS).raise 28932 1 0 0).adjOk = true) := by
  repeat' apply And.intro
  all_goals decide +kernel

/-- The hypotheses of each clause of RequestOrder are met. -/
theorem meets_RequestOrder :
    ((keyed.core = CoreRun.running ∧ keyed.is HP_MP_STAT_LINK = true ∧ keyed.hostUp = true ∧ (keyed.ipOn 0 (hdr6
      keyed).v6 = false ∨ (hdr6 keyed).dport ≠ keyed.get HP_DCP_CFG_PORT)) ∧ (rowRequest (Instr.read 7 (hdr6 keyed) [0,
      1]) = some (7, 1, hdr6 keyed, [0, 1]))) ∧
    ((keyed.core = CoreRun.running ∧ keyed.is HP_MP_STAT_LINK = true ∧ keyed.hostUp = true ∧ (keyed.ipOn 0 (hdrPort
      keyed).v6 = false ∨ (hdrPort keyed).dport ≠ keyed.get HP_DCP_CFG_PORT)) ∧ (rowRequest (Instr.read 7 (hdrPort
      keyed) [0, 1]) = some (7, 1, hdrPort keyed, [0, 1]))) ∧
    ((keyed.core = CoreRun.running ∧ keyed.is HP_MP_STAT_LINK = true ∧ keyed.hostUp = true ∧ keyed.takes hdrMalformed
      = true ∧ (keyed.msgLimit < 48 + 4 * [0, 1].length ∨ hdrFormed hdrMalformed [0, 1] = false)) ∧ (rowRequest
      (Instr.read 7 hdrMalformed [0, 1]) = some (7, 1, hdrMalformed, [0, 1]))) ∧
    ((keyed.core = CoreRun.running ∧ keyed.is HP_MP_STAT_LINK = true ∧ keyed.hostUp = true ∧ keyed.takes hdrForged =
      true ∧ 48 + 4 * [0, 1].length ≤ keyed.msgLimit ∧ hdrFormed hdrForged [0, 1] = true ∧ keyed.unsigned 1 [0, 1] =
      false ∧ (¬(keyed.is (HP_MST_CFG_EN hdrForged.master) = true ∧ keyed.keyState (keyed.get (HP_MST_CFG_KEY_SLOT
      hdrForged.master)) = 1 ∧ keyed.macOf hdrForged.master (hdrMsg hdrForged 1 [0, 1]) = hdrForged.mac))) ∧ (rowRequest
      (Instr.read 7 hdrForged [0, 1]) = some (7, 1, hdrForged, [0, 1]))) ∧
    (((keyed.put (HP_MST_CTR_LO_FLOOR 0) 5).core = CoreRun.running ∧ (keyed.put (HP_MST_CTR_LO_FLOOR 0) 5).is
      HP_MP_STAT_LINK = true ∧ (keyed.put (HP_MST_CTR_LO_FLOOR 0) 5).hostUp = true ∧ (keyed.put (HP_MST_CTR_LO_FLOOR 0)
      5).takes (hdr keyed 1 [0, 1]) = true ∧ 48 + 4 * [0, 1].length ≤ (keyed.put (HP_MST_CTR_LO_FLOOR 0) 5).msgLimit ∧
      hdrFormed (hdr keyed 1 [0, 1]) [0, 1] = true ∧ (keyed.put (HP_MST_CTR_LO_FLOOR 0) 5).unsigned 1 [0, 1] = false ∧
      (keyed.put (HP_MST_CTR_LO_FLOOR 0) 5).is (HP_MST_CFG_EN (hdr keyed 1 [0, 1]).master) = true ∧ (keyed.put
      (HP_MST_CTR_LO_FLOOR 0) 5).keyState ((keyed.put (HP_MST_CTR_LO_FLOOR 0) 5).get (HP_MST_CFG_KEY_SLOT (hdr keyed 1
      [0, 1]).master)) = 1 ∧ (keyed.put (HP_MST_CTR_LO_FLOOR 0) 5).macOf (hdr keyed 1 [0, 1]).master (hdrMsg (hdr keyed
      1 [0, 1]) 1 [0, 1]) = (hdr keyed 1 [0, 1]).mac ∧ (hdr keyed 1 [0, 1]).counter ≤ (keyed.put (HP_MST_CTR_LO_FLOOR 0)
      5).floor (hdr keyed 1 [0, 1]).master) ∧ (rowRequest (Instr.read 7 (hdr keyed 1 [0, 1]) [0, 1]) = some (7, 1, hdr
      keyed 1 [0, 1], [0, 1]))) ∧
    ((keyed.core = CoreRun.running ∧ keyed.is HP_MP_STAT_LINK = true ∧ keyed.hostUp = true ∧ opcodes.contains 255 =
      false) ∧ (Signed keyed 255 (hdr keyed 255 []) []) ∧ (rowRequest (Instr.unknownOpcode 7 255 (hdr keyed 255 []) [])
      = some (7, 255, hdr keyed 255 [], []))) ∧
    (((keyed.wr (HP_MST_CFG 0) 1).core = CoreRun.running ∧ (keyed.wr (HP_MST_CFG 0) 1).is HP_MP_STAT_LINK = true ∧
      (keyed.wr (HP_MST_CFG 0) 1).hostUp = true ∧ opcodes.contains 49 = true ∧ authCheck ((keyed.wr (HP_MST_CFG 0)
      1).get (HP_MST_CFG_AUTHORITY (hdr (keyed.wr (HP_MST_CFG 0) 1) 49 [0]).master)) 49 [0] = some ((authCheck 0 49
      [0]).getD (Ans.of 0 0))) ∧ (Signed (keyed.wr (HP_MST_CFG 0) 1) 49 (hdr (keyed.wr (HP_MST_CFG 0) 1) 49 [0]) [0]) ∧
      (rowRequest (Instr.keyRevoke 7 (hdr (keyed.wr (HP_MST_CFG 0) 1) 49 [0]) [0]) = some (7, 49, hdr (keyed.wr
      (HP_MST_CFG 0) 1) 49 [0], [0]))) ∧
    ((keyed.core = CoreRun.running ∧ keyed.is HP_MP_STAT_LINK = true ∧ keyed.hostUp = true ∧ opcodes.contains 1 = true
      ∧ authCheck (keyed.get (HP_MST_CFG_AUTHORITY (hdr keyed 1 [2, 1]).master)) 1 [2, 1] = none ∧ ((State.advance 7
      keyed).consume (hdr keyed 1 [2, 1])).bodyCheck 1 [2, 1] = some (Ans.of stRange dtAddress)) ∧ (Signed keyed 1 (hdr
      keyed 1 [2, 1]) [2, 1]) ∧ (rowRequest (Instr.read 7 (hdr keyed 1 [2, 1]) [2, 1]) = some (7, 1, hdr keyed 1 [2, 1],
      [2, 1]))) ∧
    ((keyedStandby.core = CoreRun.running ∧ keyedStandby.is HP_MP_STAT_LINK = true ∧ keyedStandby.hostUp = true ∧
      isCritical 21 [5] = true ∧ keyedStandby.authoritative = false) ∧ (Signed keyedStandby 21 (hdr keyedStandby 21 [5])
      [5]) ∧ (Passes (State.advance 7 keyedStandby) 21 (hdr keyedStandby 21 [5]) [5]) ∧ (rowRequest (Instr.jobStart 7
      (hdr keyedStandby 21 [5]) [5]) = some (7, 21, hdr keyedStandby 21 [5], [5]))) :=
  ⟨⟨by decide +kernel, by decide +kernel⟩, ⟨by decide +kernel, by decide +kernel⟩, ⟨by decide +kernel,
    by decide +kernel⟩, ⟨by decide +kernel, by decide +kernel⟩, ⟨by decide +kernel, row_hdr (f := fun h => rowRequest
    (Instr.read 7 h [0, 1])) fun _ => rfl⟩, ⟨by decide +kernel, signed_hdr (by decide +kernel), row_hdr (f := fun h =>
    rowRequest (Instr.unknownOpcode 7 255 h [])) fun _ => rfl⟩, ⟨by decide +kernel, signed_hdr (by decide +kernel),
    row_hdr (f := fun h => rowRequest (Instr.keyRevoke 7 h [0])) fun _ => rfl⟩, ⟨by decide +kernel, signed_hdr
    (by decide +kernel), row_hdr (f := fun h => rowRequest (Instr.read 7 h [2, 1])) fun _ => rfl⟩, ⟨by decide +kernel,
    signed_hdr (by decide +kernel), passes_adv (by decide +kernel), row_hdr (f := fun h => rowRequest (Instr.jobStart 7
    h [5])) fun _ => rfl⟩⟩

/-- The hypotheses of each clause of CriticalHeld are met. -/
theorem meets_CriticalHeld :
    ((keyed.core = CoreRun.running ∧ isCritical 21 [5] = true ∧ keyed.authoritative = true) ∧ (Passes (State.advance 7
      keyed) 21 (hdr keyed 21 [5]) [5]) ∧ (rowRequest (Instr.jobStart 7 (hdr keyed 21 [5]) [5]) = some (7, 21, hdr keyed
      21 [5], [5]))) ∧
    ((keyed.core = CoreRun.running ∧ isCritical 2 [FS_SAFE_CTRL, 1, 1] = true ∧ keyed.authoritative = true) ∧ (Passes
      (State.advance 7 keyed) 2 (hdr keyed 2 [FS_SAFE_CTRL, 1, 1]) [FS_SAFE_CTRL, 1, 1]) ∧ (rowRequest
      (Instr.safeInhibit 7 (hdr keyed 2 [FS_SAFE_CTRL, 1, 1]) [] []) = some (7, 2, hdr keyed 2 [FS_SAFE_CTRL, 1, 1],
      [FS_SAFE_CTRL, 1, 1]))) :=
  ⟨⟨by decide +kernel, passes_adv (by decide +kernel), row_hdr (f := fun h => rowRequest (Instr.jobStart 7 h [5])) fun
    _ => rfl⟩, ⟨by decide +kernel, passes_adv (by decide +kernel), row_hdr (f := fun h => rowRequest (Instr.safeInhibit
    7 h [] [])) fun _ => rfl⟩⟩

/-- The hypotheses of each clause of ReadsAnswered are met. -/
theorem meets_ReadsAnswered :
    (keyed.core = CoreRun.running ∧ hdrFormed (hdrNorm (hdr keyed 0 [])) [] = true ∧ keyed.is HP_MP_STAT_LINK = true ∧
      keyed.hostUp = true ∧ keyed.takes (hdr keyed 0 []) = true) ∧
    ((keyed.core = CoreRun.running ∧ List.map (fun i => (((State.advance 7 keyed).consume (hdr keyed 1 [0, 3])).accept
      (hdr keyed 1 [0, 3]) true).curShow.view (4 * i)) (List.range 3) = List.map (fun i => (((State.advance 7
      keyed).consume (hdr keyed 1 [0, 3])).accept (hdr keyed 1 [0, 3]) true).curShow.view ([0, 3].getD 0 0 + 4 * i))
      (List.range ([0, 3].getD 1 0))) ∧ (Passes (State.advance 7 keyed) 1 (hdr keyed 1 [0, 3]) [0, 3]) ∧ (rowRequest
      (Instr.read 7 (hdr keyed 1 [0, 3]) [0, 3]) = some (7, 1, hdr keyed 1 [0, 3], [0, 3]))) ∧
    ((keyed.core = CoreRun.running ∧ List.map (fun i => (((State.advance 7 keyed).consume (hdr keyed 1 [65528,
      3])).accept (hdr keyed 1 [65528, 3]) true).curShow.view (65528 + 4 * i)) (List.range 3) = List.map (fun i =>
      (((State.advance 7 keyed).consume (hdr keyed 1 [65528, 3])).accept (hdr keyed 1 [65528, 3]) true).curShow.view
      ([65528, 3].getD 0 0 + 4 * i)) (List.range ([65528, 3].getD 1 0))) ∧ (Passes (State.advance 7 keyed) 1 (hdr keyed
      1 [65528, 3]) [65528, 3]) ∧ (rowRequest (Instr.read 7 (hdr keyed 1 [65528, 3]) [65528, 3]) = some (7, 1, hdr keyed
      1 [65528, 3], [65528, 3]))) ∧
    ((withEvents.core = CoreRun.running ∧ withEvents.events = withEvents.events.headD (⟨0, 0, 0, 0, 0, 0⟩ : EventRec)
      :: withEvents.events.tail ∧ later 32 (withEvents.get EV_NEXT_SEQ_SEQ) ([1, 48].getD 0 0) = true ∧ later 32
      (withEvents.events.headD (⟨0, 0, 0, 0, 0, 0⟩ : EventRec)).seq ([1, 48].getD 0 0) = false ∧
      withEvents.events.length ≤ [1, 48].getD 1 0 ∧ withEvents.events.length ≤ (withEvents.msgLimit - 52) / 24 ∧ (∃ x,
      withEvents.events.getLast? = some x ∧ (x.seq + 1) % 2 ^ 32 = withEvents.get EV_NEXT_SEQ_SEQ ∧ later 32 ([1,
      48].getD 0 0) x.seq = false)) ∧ (Passes (State.advance 7 withEvents) 3 (hdr withEvents 3 [1, 48]) [1, 48]) ∧
      (rowRequest (Instr.eventRead 7 (hdr withEvents 3 [1, 48]) [1, 48]) = some (7, 3, hdr withEvents 3 [1, 48], [1,
      48]))) ∧
    ((withEvents.core = CoreRun.running ∧ withEvents.events = withEvents.events.headD (⟨0, 0, 0, 0, 0, 0⟩ : EventRec)
      :: withEvents.events.tail ∧ later 32 (withEvents.get EV_NEXT_SEQ_SEQ) ([0, 1].getD 0 0) = true ∧ later 32
      (withEvents.events.headD (⟨0, 0, 0, 0, 0, 0⟩ : EventRec)).seq 0 = later 32 (withEvents.events.headD (⟨0, 0, 0, 0,
      0, 0⟩ : EventRec)).seq ([0, 1].getD 0 0) ∧ List.take 1 withEvents.events = List.take (min ([0, 1].getD 1 0)
      ((withEvents.msgLimit - 52) / 24)) (if later 32 (withEvents.events.headD (⟨0, 0, 0, 0, 0, 0⟩ : EventRec)).seq 0 =
      true then withEvents.events else List.filter (fun x => !later 32 ([0, 1].getD 0 0) x.seq) withEvents.events) ∧
      (List.take 1 withEvents.events).getLast? = some (withEvents.events.headD (⟨0, 0, 0, 0, 0, 0⟩ : EventRec))) ∧
      (Passes (State.advance 7 withEvents) 3 (hdr withEvents 3 [0, 1]) [0, 1]) ∧ (rowRequest (Instr.eventRead 7 (hdr
      withEvents 3 [0, 1]) [0, 1]) = some (7, 3, hdr withEvents 3 [0, 1], [0, 1]))) ∧
    ((lostEvents.core = CoreRun.running ∧ lostEvents.events = lostEvents.events.headD (⟨0, 0, 0, 0, 0, 0⟩ : EventRec)
      :: lostEvents.events.tail ∧ later 32 (lostEvents.get EV_NEXT_SEQ_SEQ) ([0, 1].getD 0 0) = true ∧ true = later 32
      (lostEvents.events.headD (⟨0, 0, 0, 0, 0, 0⟩ : EventRec)).seq ([0, 1].getD 0 0) ∧ List.take 1 lostEvents.events =
      List.take (min ([0, 1].getD 1 0) ((lostEvents.msgLimit - 52) / 24)) (if true = true then lostEvents.events else
      List.filter (fun x => !later 32 ([0, 1].getD 0 0) x.seq) lostEvents.events) ∧ (List.take 1
      lostEvents.events).getLast? = some (lostEvents.events.headD (⟨0, 0, 0, 0, 0, 0⟩ : EventRec))) ∧ (Passes
      (State.advance 7 lostEvents) 3 (hdr lostEvents 3 [0, 1]) [0, 1]) ∧ (rowRequest (Instr.eventRead 7 (hdr lostEvents
      3 [0, 1]) [0, 1]) = some (7, 3, hdr lostEvents 3 [0, 1], [0, 1]))) ∧
    ((withEvents.core = CoreRun.running ∧ (withEvents.events = [] ∨ later 32 (withEvents.get EV_NEXT_SEQ_SEQ) ([9,
      48].getD 0 0) = false)) ∧ (Passes (State.advance 7 withEvents) 3 (hdr withEvents 3 [9, 48]) [9, 48]) ∧ (rowRequest
      (Instr.eventRead 7 (hdr withEvents 3 [9, 48]) [9, 48]) = some (7, 3, hdr withEvents 3 [9, 48], [9, 48]))) ∧
    ((keyed.core = CoreRun.running ∧ (keyed.events = [] ∨ later 32 (keyed.get EV_NEXT_SEQ_SEQ) ([0, 48].getD 0 0) =
      false)) ∧ (Passes (State.advance 7 keyed) 3 (hdr keyed 3 [0, 48]) [0, 48]) ∧ (rowRequest (Instr.eventRead 7 (hdr
      keyed 3 [0, 48]) [0, 48]) = some (7, 3, hdr keyed 3 [0, 48], [0, 48]))) :=
  ⟨by decide +kernel, ⟨by decide +kernel, passes_adv (by decide +kernel), row_hdr (f := fun h => rowRequest
    (Instr.read 7 h [0, 3])) fun _ => rfl⟩, ⟨by decide +kernel, passes_adv (by decide +kernel), row_hdr (f := fun h =>
    rowRequest (Instr.read 7 h [65528, 3])) fun _ => rfl⟩, ⟨by decide +kernel, passes_adv (by decide +kernel), row_hdr
    (f := fun h => rowRequest (Instr.eventRead 7 h [1, 48])) fun _ => rfl⟩, ⟨by decide +kernel, passes_adv
    (by decide +kernel), row_hdr (f := fun h => rowRequest (Instr.eventRead 7 h [0, 1])) fun _ => rfl⟩,
    ⟨by decide +kernel, passes_adv (by decide +kernel), row_hdr (f := fun h => rowRequest (Instr.eventRead 7 h [0, 1]))
    fun _ => rfl⟩, ⟨by decide +kernel, passes_adv (by decide +kernel), row_hdr (f := fun h => rowRequest
    (Instr.eventRead 7 h [9, 48])) fun _ => rfl⟩, ⟨by decide +kernel, passes_adv (by decide +kernel), row_hdr (f := fun
    h => rowRequest (Instr.eventRead 7 h [0, 48])) fun _ => rfl⟩⟩

/-- The hypotheses of each clause of SessionsAndWindows are met. -/
theorem meets_SessionsAndWindows :
    ((keyed.core = CoreRun.running ∧ keyed.ingest.sessions.length < 16) ∧ (Passes (State.advance 7 keyed) 8 (hdr keyed
      8 [1]) [1]) ∧ (rowRequest (Instr.sessionOpen 7 (hdr keyed 8 [1]) [1]) = some (7, 8, hdr keyed 8 [1], [1]))) ∧
    ((sessionsFull.core = CoreRun.running ∧ 16 ≤ sessionsFull.ingest.sessions.length) ∧ (Passes (State.advance 7
      sessionsFull) 8 (hdr sessionsFull 8 [1]) [1]) ∧ (rowRequest (Instr.sessionOpen 7 (hdr sessionsFull 8 [1]) [1]) =
      some (7, 8, hdr sessionsFull 8 [1], [1]))) ∧
    ((sessionWindow.core = CoreRun.running ∧ (sessionWindow.ingest.sessions.any fun x => x.id == [77].getD 0 0) =
      true) ∧ (Passes (State.advance 7 sessionWindow) 9 (hdr sessionWindow 9 [77]) [77]) ∧ (rowRequest
      (Instr.sessionClose 7 (hdr sessionWindow 9 [77]) [77]) = some (7, 9, hdr sessionWindow 9 [77], [77]))) ∧
    ((sessionOne.core = CoreRun.running ∧ windowOf [77, 1056964609, 0] = windowOf [77, 1056964609, 0] ∧
      (sessionOne.ingest.sessions.any fun x => x.id == (windowOf [77, 1056964609, 0]).session) = true ∧ (windowOf [77,
      1056964609, 0]).num < 64 ∧ bits ([77, 1056964609, 0].getD 1 0) 1 0 ≠ 3 ∧ ((windowOf [77, 1056964609, 0]).kind =
      WinKind.readBack → (windowOf [77, 1056964609, 0]).target < 5) ∧ ((windowOf [77, 1056964609, 0]).onImg = true →
      (sessionOne.imgBase (windowOf [77, 1056964609, 0])).isSome = true) ∧ ((windowOf [77, 1056964609, 0]).onSurf = true
      → Option.map (fun x => x.released) (sessionOne.surf (windowOf [77, 1056964609, 0]).surf (windowOf [77, 1056964609,
      0]).gen) = some false) ∧ (sessionOne.ingest.windows.any fun x => x.num == (windowOf [77, 1056964609, 0]).num) =
      false ∧ false = ((windowOf [77, 1056964609, 0]).kind == WinKind.stripWrite && (Option.map (fun x => x.inUse)
      (sessionOne.surf (windowOf [77, 1056964609, 0]).surf (windowOf [77, 1056964609, 0]).gen)).getD false)) ∧ (Passes
      (State.advance 7 sessionOne) 10 (hdr sessionOne 10 [77, 1056964609, 0]) [77, 1056964609, 0]) ∧ (rowRequest
      (Instr.windowOpen 7 (hdr sessionOne 10 [77, 1056964609, 0]) [77, 1056964609, 0]) = some (7, 10, hdr sessionOne 10
      [77, 1056964609, 0], [77, 1056964609, 0]))) ∧
    ((sessionSurface.core = CoreRun.running ∧ windowOf [77, 1056964608, packGen 3 2] = windowOf [77, 1056964608,
      packGen 3 2] ∧ (sessionSurface.ingest.sessions.any fun x => x.id == (windowOf [77, 1056964608, packGen 3
      2]).session) = true ∧ (windowOf [77, 1056964608, packGen 3 2]).num < 64 ∧ bits ([77, 1056964608, packGen 3 2].getD
      1 0) 1 0 ≠ 3 ∧ ((windowOf [77, 1056964608, packGen 3 2]).kind = WinKind.readBack → (windowOf [77, 1056964608,
      packGen 3 2]).target < 5) ∧ ((windowOf [77, 1056964608, packGen 3 2]).onImg = true → (sessionSurface.imgBase
      (windowOf [77, 1056964608, packGen 3 2])).isSome = true) ∧ ((windowOf [77, 1056964608, packGen 3 2]).onSurf = true
      → Option.map (fun x => x.released) (sessionSurface.surf (windowOf [77, 1056964608, packGen 3 2]).surf (windowOf
      [77, 1056964608, packGen 3 2]).gen) = some false) ∧ (sessionSurface.ingest.windows.any fun x => x.num == (windowOf
      [77, 1056964608, packGen 3 2]).num) = false ∧ true = ((windowOf [77, 1056964608, packGen 3 2]).kind ==
      WinKind.stripWrite && (Option.map (fun x => x.inUse) (sessionSurface.surf (windowOf [77, 1056964608, packGen 3
      2]).surf (windowOf [77, 1056964608, packGen 3 2]).gen)).getD false)) ∧ (Passes (State.advance 7 sessionSurface) 10
      (hdr sessionSurface 10 [77, 1056964608, packGen 3 2]) [77, 1056964608, packGen 3 2]) ∧ (rowRequest
      (Instr.windowOpen 7 (hdr sessionSurface 10 [77, 1056964608, packGen 3 2]) [77, 1056964608, packGen 3 2]) = some
      (7, 10, hdr sessionSurface 10 [77, 1056964608, packGen 3 2], [77, 1056964608, packGen 3 2]))) ∧
    ((sessionWindow.core = CoreRun.running ∧ windowOf [77, 83886081, 0] = windowOf [77, 83886081, 0] ∧
      (sessionWindow.ingest.sessions.any fun x => x.id == (windowOf [77, 83886081, 0]).session) = true ∧ (windowOf [77,
      83886081, 0]).num < 64 ∧ bits ([77, 83886081, 0].getD 1 0) 1 0 ≠ 3 ∧ ((windowOf [77, 83886081, 0]).kind =
      WinKind.readBack → (windowOf [77, 83886081, 0]).target < 5) ∧ ((windowOf [77, 83886081, 0]).onImg = true →
      (sessionWindow.imgBase (windowOf [77, 83886081, 0])).isSome = true) ∧ ((windowOf [77, 83886081, 0]).onSurf = true
      → (sessionWindow.surf (windowOf [77, 83886081, 0]).surf (windowOf [77, 83886081, 0]).gen).isSome = true) ∧
      ((sessionWindow.ingest.windows.any fun x => x.num == (windowOf [77, 83886081, 0]).num) = true ∨ (windowOf [77,
      83886081, 0]).onSurf = true ∧ Option.map (fun x => x.released) (sessionWindow.surf (windowOf [77, 83886081,
      0]).surf (windowOf [77, 83886081, 0]).gen) = some true)) ∧ (Passes (State.advance 7 sessionWindow) 10 (hdr
      sessionWindow 10 [77, 83886081, 0]) [77, 83886081, 0]) ∧ (rowRequest (Instr.windowOpen 7 (hdr sessionWindow 10
      [77, 83886081, 0]) [77, 83886081, 0]) = some (7, 10, hdr sessionWindow 10 [77, 83886081, 0], [77, 83886081, 0]))) ∧
    ((sessionWindow.core = CoreRun.running ∧ (sessionWindow.ingest.windows.any fun x => x.num == bits ([5 * 2 ^
      24].getD 0 0) 31 24) = true) ∧ (Passes (State.advance 7 sessionWindow) 11 (hdr sessionWindow 11 [5 * 2 ^ 24]) [5 *
      2 ^ 24]) ∧ (rowRequest (Instr.windowClose 7 (hdr sessionWindow 11 [5 * 2 ^ 24]) [5 * 2 ^ 24]) = some (7, 11, hdr
      sessionWindow 11 [5 * 2 ^ 24], [5 * 2 ^ 24]))) :=
  ⟨⟨by decide +kernel, passes_adv (by decide +kernel), row_hdr (f := fun h => rowRequest (Instr.sessionOpen 7 h [1]))
    fun _ => rfl⟩, ⟨by decide +kernel, passes_adv (by decide +kernel), row_hdr (f := fun h => rowRequest
    (Instr.sessionOpen 7 h [1])) fun _ => rfl⟩, ⟨by decide +kernel, passes_adv (by decide +kernel), row_hdr (f := fun h
    => rowRequest (Instr.sessionClose 7 h [77])) fun _ => rfl⟩, ⟨by decide +kernel, passes_adv (by decide +kernel),
    row_hdr (f := fun h => rowRequest (Instr.windowOpen 7 h [77, 1056964609, 0])) fun _ => rfl⟩, ⟨by decide +kernel,
    passes_adv (by decide +kernel), row_hdr (f := fun h => rowRequest (Instr.windowOpen 7 h [77, 1056964608, packGen 3
    2])) fun _ => rfl⟩, ⟨by decide +kernel, passes_adv (by decide +kernel), row_hdr (f := fun h => rowRequest
    (Instr.windowOpen 7 h [77, 83886081, 0])) fun _ => rfl⟩, ⟨by decide +kernel, passes_adv (by decide +kernel), row_hdr
    (f := fun h => rowRequest (Instr.windowClose 7 h [5 * 2 ^ 24])) fun _ => rfl⟩⟩

/-- The hypotheses of each clause of UnitLocalRegisterCommands are met. -/
theorem meets_UnitLocalRegisterCommands :
    ((withProbe.core = CoreRun.running ∧ 3 < 4 ∧ 3 < withProbe.web.probes.length ∧ (withProbe.probe 3).fifo ≠ []) ∧
      (Passes (State.advance 7 withProbe) 2 (wreq withProbe [(⟨WP_PRB_CTRL 3, 1, 1⟩ : WriteItem)]) (wbody [(⟨WP_PRB_CTRL
      3, 1, 1⟩ : WriteItem)])) ∧ (rowRequest (Instr.probePop 7 (wreq withProbe [(⟨WP_PRB_CTRL 3, 1, 1⟩ : WriteItem)]) []
      [] 3) = some (7, 2, wreq withProbe [(⟨WP_PRB_CTRL 3, 1, 1⟩ : WriteItem)], wbody [(⟨WP_PRB_CTRL 3, 1, 1⟩ :
      WriteItem)]))) ∧
    ((withPtp.core = CoreRun.running) ∧ (Passes (State.advance 7 withPtp) 2 (wreq withPtp [(⟨HP_PTP_RXQ_CTRL, 1, 1⟩ :
      WriteItem)]) (wbody [(⟨HP_PTP_RXQ_CTRL, 1, 1⟩ : WriteItem)])) ∧ (rowRequest (Instr.ptpRxqPop 7 (wreq withPtp
      [(⟨HP_PTP_RXQ_CTRL, 1, 1⟩ : WriteItem)]) [] []) = some (7, 2, wreq withPtp [(⟨HP_PTP_RXQ_CTRL, 1, 1⟩ :
      WriteItem)], wbody [(⟨HP_PTP_RXQ_CTRL, 1, 1⟩ : WriteItem)]))) ∧
    ((ptpOn.core = CoreRun.running ∧ ptpOn.get HP_PTP_TX_CTRL_BUSY = 0 ∧ 1 = bits (mixBits (ptpOn.rd HP_PTP_TX_CTRL)
      ((34 * 16 + 2) % 2 ^ 32) (4294967294 % 2 ^ 32 &&& 4294967294)) HP_PTP_TX_CTRL_PORT.hi HP_PTP_TX_CTRL_PORT.lo ∧ 0 =
      bits (mixBits (ptpOn.rd HP_PTP_TX_CTRL) ((34 * 16 + 2) % 2 ^ 32) (4294967294 % 2 ^ 32 &&& 4294967294))
      HP_PTP_TX_CTRL_TRANSPORT.hi HP_PTP_TX_CTRL_TRANSPORT.lo ∧ 34 = bits (mixBits (ptpOn.rd HP_PTP_TX_CTRL) ((34 * 16 +
      2) % 2 ^ 32) (4294967294 % 2 ^ 32 &&& 4294967294)) HP_PTP_TX_CTRL_LEN.hi HP_PTP_TX_CTRL_LEN.lo ∧ 0 ≠ 3 ∧
      ptpOn.bitOf HP_PTP_CFG_TRANSPORT 0 = true ∧ 34 ≤ 34 ∧ 34 ≤ 64) ∧ (Passes (State.advance 7 ptpOn) 2 (wreq ptpOn
      [setting HP_PTP_TX_CTRL 1 4294967294 (34 * 16 + 2)]) (wbody [setting HP_PTP_TX_CTRL 1 4294967294 (34 * 16 + 2)]))
      ∧ (rowRequest (Instr.ptpSend 7 (wreq ptpOn [setting HP_PTP_TX_CTRL 1 4294967294 (34 * 16 + 2)]) [] [] 4294967294
      (34 * 16 + 2)) = some (7, 2, wreq ptpOn [setting HP_PTP_TX_CTRL 1 4294967294 (34 * 16 + 2)], wbody [setting
      HP_PTP_TX_CTRL 1 4294967294 (34 * 16 + 2)]))) ∧
    ((keyed.core = CoreRun.running) ∧ (Passes (State.advance 7 keyed) 2 (hdr keyed 2 [EV_IRQ_MASK, 4294967295, 511])
      [EV_IRQ_MASK, 4294967295, 511]) ∧ (rowRequest (Instr.write 7 (hdr keyed 2 [EV_IRQ_MASK, 4294967295, 511])
      [EV_IRQ_MASK, 4294967295, 511]) = some (7, 2, hdr keyed 2 [EV_IRQ_MASK, 4294967295, 511], [EV_IRQ_MASK,
      4294967295, 511]))) ∧
    ((keyedReady.core = CoreRun.running ∧ 3 < 100 ∧ keyedReady.inL0 3 = true) ∧ (Passes (State.advance 7 keyedReady) 2
      (wreq keyedReady [(⟨LANE_SCAN_CTRL 3, 1, 1⟩ : WriteItem)]) (wbody [(⟨LANE_SCAN_CTRL 3, 1, 1⟩ : WriteItem)])) ∧
      (rowRequest (Instr.laneScanMap 7 (wreq keyedReady [(⟨LANE_SCAN_CTRL 3, 1, 1⟩ : WriteItem)]) [] [] 3) = some (7, 2,
      wreq keyedReady [(⟨LANE_SCAN_CTRL 3, 1, 1⟩ : WriteItem)], wbody [(⟨LANE_SCAN_CTRL 3, 1, 1⟩ : WriteItem)]))) ∧
    ((keyed.core = CoreRun.running ∧ 99 < 100 ∧ keyed.inL0 99 = false) ∧ (Passes (State.advance 7 keyed) 2 (wreq keyed
      [(⟨LANE_SCAN_CTRL 99, 1, 1⟩ : WriteItem)]) (wbody [(⟨LANE_SCAN_CTRL 99, 1, 1⟩ : WriteItem)])) ∧ (rowRequest
      (Instr.laneScanMap 7 (wreq keyed [(⟨LANE_SCAN_CTRL 99, 1, 1⟩ : WriteItem)]) [] [] 99) = some (7, 2, wreq keyed
      [(⟨LANE_SCAN_CTRL 99, 1, 1⟩ : WriteItem)], wbody [(⟨LANE_SCAN_CTRL 99, 1, 1⟩ : WriteItem)]))) :=
  ⟨⟨by decide +kernel, passes_adv (by decide +kernel), row_hdr (f := fun h => rowRequest (Instr.probePop 7 h [] [] 3))
    fun _ => rfl⟩, ⟨by decide +kernel, passes_adv (by decide +kernel), row_hdr (f := fun h => rowRequest
    (Instr.ptpRxqPop 7 h [] [])) fun _ => rfl⟩, ⟨by decide +kernel, passes_adv (by decide +kernel), row_hdr (f := fun h
    => rowRequest (Instr.ptpSend 7 h [] [] 4294967294 (34 * 16 + 2))) fun _ => rfl⟩, ⟨by decide +kernel, passes_adv
    (by decide +kernel), row_hdr (f := fun h => rowRequest (Instr.write 7 h [EV_IRQ_MASK, 4294967295, 511])) fun _ =>
    rfl⟩, ⟨by decide +kernel, passes_adv (by decide +kernel), row_hdr (f := fun h => rowRequest (Instr.laneScanMap 7 h
    [] [] 3)) fun _ => rfl⟩, ⟨by decide +kernel, passes_adv (by decide +kernel), row_hdr (f := fun h => rowRequest
    (Instr.laneScanMap 7 h [] [] 99)) fun _ => rfl⟩⟩

/-- The hypotheses of each clause of UnitLocalRoleCommands are met. -/
theorem meets_UnitLocalRoleCommands :
    ((keyedConfigured.core = CoreRun.running ∧ keyedConfigured.base ≠ Base.active ∧ keyedConfigured.base ≠
      Base.standby ∧ (keyedConfigured.base = Base.single → keyedConfigured.get PG_JOB_STAT_RUNNING = 0)) ∧ (Passes
      (State.advance 7 keyedConfigured) 2 (wreq keyedConfigured [(⟨BT_PWR_CTRL, 1, 1⟩ : WriteItem)]) (wbody
      [(⟨BT_PWR_CTRL, 1, 1⟩ : WriteItem)])) ∧ (rowRequest (Instr.sleep 7 (wreq keyedConfigured [(⟨BT_PWR_CTRL, 1, 1⟩ :
      WriteItem)]) [] []) = some (7, 2, wreq keyedConfigured [(⟨BT_PWR_CTRL, 1, 1⟩ : WriteItem)], wbody [(⟨BT_PWR_CTRL,
      1, 1⟩ : WriteItem)]))) ∧
    ((keyed.core = CoreRun.running ∧ keyed.base ≠ Base.active ∧ keyed.base ≠ Base.standby ∧ (keyed.base = Base.single
      → keyed.get PG_JOB_STAT_RUNNING = 0)) ∧ (Passes (State.advance 7 keyed) 2 (wreq keyed [(⟨BT_PWR_CTRL, 1, 1⟩ :
      WriteItem)]) (wbody [(⟨BT_PWR_CTRL, 1, 1⟩ : WriteItem)])) ∧ (rowRequest (Instr.sleep 7 (wreq keyed [(⟨BT_PWR_CTRL,
      1, 1⟩ : WriteItem)]) [] []) = some (7, 2, wreq keyed [(⟨BT_PWR_CTRL, 1, 1⟩ : WriteItem)], wbody [(⟨BT_PWR_CTRL, 1,
      1⟩ : WriteItem)]))) ∧
    ((keyedActive.core = CoreRun.running ∧ (keyedActive.base = Base.active ∨ keyedActive.base = Base.standby)) ∧
      (Passes (State.advance 7 keyedActive) 2 (wreq keyedActive [(⟨BT_PWR_CTRL, 1, 1⟩ : WriteItem)]) (wbody
      [(⟨BT_PWR_CTRL, 1, 1⟩ : WriteItem)])) ∧ (rowRequest (Instr.sleep 7 (wreq keyedActive [(⟨BT_PWR_CTRL, 1, 1⟩ :
      WriteItem)]) [] []) = some (7, 2, wreq keyedActive [(⟨BT_PWR_CTRL, 1, 1⟩ : WriteItem)], wbody [(⟨BT_PWR_CTRL, 1,
      1⟩ : WriteItem)]))) ∧
    ((keyedStandbyUnit.core = CoreRun.running ∧ keyedStandbyUnit.base ≠ Base.active ∧ keyedStandbyUnit.base ≠
      Base.single) ∧ (Passes (State.advance 7 keyedStandbyUnit) 2 (wreq keyedStandbyUnit [(⟨PR_CTRL, 2, 2⟩ :
      WriteItem)]) (wbody [(⟨PR_CTRL, 2, 2⟩ : WriteItem)])) ∧ (rowRequest (Instr.leave 7 (wreq keyedStandbyUnit
      [(⟨PR_CTRL, 2, 2⟩ : WriteItem)]) [] []) = some (7, 2, wreq keyedStandbyUnit [(⟨PR_CTRL, 2, 2⟩ : WriteItem)], wbody
      [(⟨PR_CTRL, 2, 2⟩ : WriteItem)]))) ∧
    ((keyedActive.core = CoreRun.running ∧ (keyedActive.base = Base.active ∨ keyedActive.base = Base.single)) ∧
      (Passes (State.advance 7 keyedActive) 2 (wreq keyedActive [(⟨PR_CTRL, 2, 2⟩ : WriteItem)]) (wbody [(⟨PR_CTRL, 2,
      2⟩ : WriteItem)])) ∧ (rowRequest (Instr.leave 7 (wreq keyedActive [(⟨PR_CTRL, 2, 2⟩ : WriteItem)]) [] []) = some
      (7, 2, wreq keyedActive [(⟨PR_CTRL, 2, 2⟩ : WriteItem)], wbody [(⟨PR_CTRL, 2, 2⟩ : WriteItem)]))) ∧
    ((keyedDemoted.core = CoreRun.running) ∧ (Passes (State.advance 7 keyedDemoted) 2 (wreq keyedDemoted [(⟨PR_CTRL,
      4, 4⟩ : WriteItem)]) (wbody [(⟨PR_CTRL, 4, 4⟩ : WriteItem)])) ∧ (rowRequest (Instr.clrDemote 7 (wreq keyedDemoted
      [(⟨PR_CTRL, 4, 4⟩ : WriteItem)]) [] []) = some (7, 2, wreq keyedDemoted [(⟨PR_CTRL, 4, 4⟩ : WriteItem)], wbody
      [(⟨PR_CTRL, 4, 4⟩ : WriteItem)]))) ∧
    ((keyed.core = CoreRun.running) ∧ (Passes (State.advance 7 keyed) 2 (wreq keyed [(⟨PR_CTRL, 4, 4⟩ : WriteItem)])
      (wbody [(⟨PR_CTRL, 4, 4⟩ : WriteItem)])) ∧ (rowRequest (Instr.clrDemote 7 (wreq keyed [(⟨PR_CTRL, 4, 4⟩ :
      WriteItem)]) [] []) = some (7, 2, wreq keyed [(⟨PR_CTRL, 4, 4⟩ : WriteItem)], wbody [(⟨PR_CTRL, 4, 4⟩ :
      WriteItem)]))) :=
  ⟨⟨by decide +kernel, passes_adv (by decide +kernel), row_hdr (f := fun h => rowRequest (Instr.sleep 7 h [] [])) fun
    _ => rfl⟩, ⟨by decide +kernel, passes_adv (by decide +kernel), row_hdr (f := fun h => rowRequest (Instr.sleep 7 h []
    [])) fun _ => rfl⟩, ⟨by decide +kernel, passes_adv (by decide +kernel), row_hdr (f := fun h => rowRequest
    (Instr.sleep 7 h [] [])) fun _ => rfl⟩, ⟨by decide +kernel, passes_adv (by decide +kernel), row_hdr (f := fun h =>
    rowRequest (Instr.leave 7 h [] [])) fun _ => rfl⟩, ⟨by decide +kernel, passes_adv (by decide +kernel), row_hdr (f :=
    fun h => rowRequest (Instr.leave 7 h [] [])) fun _ => rfl⟩, ⟨by decide +kernel, passes_adv (by decide +kernel),
    row_hdr (f := fun h => rowRequest (Instr.clrDemote 7 h [] [])) fun _ => rfl⟩, ⟨by decide +kernel, passes_adv
    (by decide +kernel), row_hdr (f := fun h => rowRequest (Instr.clrDemote 7 h [] [])) fun _ => rfl⟩⟩

/-- The hypotheses of each clause of KeysChange are met. -/
theorem meets_KeysChange :
    ((keyed.core = CoreRun.running ∧ keyed.dcp.keyOp = none ∧ keyed.keyState (bits ((keyBody 7).getD 0 0) 2 0) = 0) ∧
      (Passes (State.advance 7 keyed) 48 (hdr keyed 48 (keyBody 7)) (keyBody 7)) ∧ (rowRequest (Instr.keyProgram 7 (hdr
      keyed 48 (keyBody 7)) (keyBody 7)) = some (7, 48, hdr keyed 48 (keyBody 7), keyBody 7))) ∧
    (up.core = CoreRun.running ∧ up.is HP_MP_STAT_LINK = true ∧ up.hostUp = true ∧ up.takes (hdr up 48 (keyBody 0)) =
      true ∧ (keyBody 0).length = 9 ∧ (∀ (w : Nat), w ∈ keyBody 0 → w < 2 ^ 32) ∧ hdrFormed (hdrNorm (hdr up 48 (keyBody
      0))) (keyBody 0) = true ∧ up.get HP_KEY_STAT_STATE = 0 ∧ bits ((keyBody 0).getD 0 0) 2 0 = 0 ∧ up.dcp.keyOp =
      none) ∧
    ((keyed.core = CoreRun.running ∧ keyed.dcp.keyOp = none ∧ keyed.keyState (bits ((keyBody 0).getD 0 0) 2 0) ≠ 0) ∧
      (Passes (State.advance 7 keyed) 48 (hdr keyed 48 (keyBody 0)) (keyBody 0)) ∧ (rowRequest (Instr.keyProgram 7 (hdr
      keyed 48 (keyBody 0)) (keyBody 0)) = some (7, 48, hdr keyed 48 (keyBody 0), keyBody 0))) ∧
    ((keyed2.core = CoreRun.running ∧ keyed2.dcp.keyOp = none ∧ (adminIn (fun n => keyed2.rd (HP_MST_CFG n)) fun i =>
      if i = bits ([1].getD 0 0) 2 0 then 2 else keyed2.keyState i) = true) ∧ (Passes (State.advance 7 keyed2) 49 (hdr
      keyed2 49 [1]) [1]) ∧ (rowRequest (Instr.keyRevoke 7 (hdr keyed2 49 [1]) [1]) = some (7, 49, hdr keyed2 49 [1],
      [1]))) ∧
    ((keyed2.core = CoreRun.running ∧ keyed2.dcp.keyOp = none ∧ (adminIn (fun n => keyed2.rd (HP_MST_CFG n)) fun i =>
      if i = bits ([0].getD 0 0) 2 0 then 2 else keyed2.keyState i) = false) ∧ (Passes (State.advance 7 keyed2) 49 (hdr
      keyed2 49 [0]) [0]) ∧ (rowRequest (Instr.keyRevoke 7 (hdr keyed2 49 [0]) [0]) = some (7, 49, hdr keyed2 49 [0],
      [0]))) ∧
    (((keyOp true).core = CoreRun.running ∧ (keyOp true).dcp.keyOp = some (⟨true, 7, 55, answer 48 (hdr keyed2 48 [])
      Ans.ok⟩ : KeyOp)) ∧ (Passes (State.advance 7 (keyOp true)) 48 (hdr (keyOp true) 48 (keyBody 6)) (keyBody 6)) ∧
      (rowRequest (Instr.keyProgram 7 (hdr (keyOp true) 48 (keyBody 6)) (keyBody 6)) = some (7, 48, hdr (keyOp true) 48
      (keyBody 6), keyBody 6))) ∧
    (((keyOp true).core = CoreRun.running ∧ (keyOp true).dcp.keyOp = some (⟨true, 7, 55, answer 48 (hdr keyed2 48 [])
      Ans.ok⟩ : KeyOp)) ∧ (Passes (State.advance 7 (keyOp true)) 49 (hdr (keyOp true) 49 [1]) [1]) ∧ (rowRequest
      (Instr.keyRevoke 7 (hdr (keyOp true) 49 [1]) [1]) = some (7, 49, hdr (keyOp true) 49 [1], [1]))) ∧
    ((keyOp true).core = CoreRun.running ∧ (keyOp true).dcp.keyOp = some (⟨true, 7, 55, answer 48 (hdr keyed2 48 [])
      Ans.ok⟩ : KeyOp) ∧ (⟨true, 7, 55, answer 48 (hdr keyed2 48 []) Ans.ok⟩ : KeyOp).slot < 8 ∧ (keyOp
      true).otp.keys.length = 8 ∧ (keyOp true).otp.keyState.length = 8 ∧ (keyOp true).is HP_MP_STAT_LINK = true) ∧
    ((keyOp false).core = CoreRun.running ∧ (keyOp false).dcp.keyOp = some (⟨false, 7, 55, answer 48 (hdr keyed2 48
      []) Ans.ok⟩ : KeyOp) ∧ (⟨false, 7, 55, answer 48 (hdr keyed2 48 []) Ans.ok⟩ : KeyOp).slot < 8 ∧ (keyOp
      false).otp.keys.length = 8 ∧ (keyOp false).otp.keyState.length = 8 ∧ (keyOp false).is HP_MP_STAT_LINK = true) ∧
    ((keyOp true).core = CoreRun.running ∧ (keyOp true).dcp.keyOp = some (⟨true, 7, 55, answer 48 (hdr keyed2 48 [])
      Ans.ok⟩ : KeyOp) ∧ (⟨true, 7, 55, answer 48 (hdr keyed2 48 []) Ans.ok⟩ : KeyOp).slot < 8 ∧ (keyOp
      true).otp.keys.length = 8 ∧ (keyOp true).otp.keyState.length = 8 ∧ (keyOp true).is HP_MP_STAT_LINK = true) :=
  ⟨⟨by decide +kernel, passes_adv (by decide +kernel), row_hdr (f := fun h => rowRequest (Instr.keyProgram 7 h
    (keyBody 7))) fun _ => rfl⟩, by decide +kernel, ⟨by decide +kernel, passes_adv (by decide +kernel), row_hdr (f :=
    fun h => rowRequest (Instr.keyProgram 7 h (keyBody 0))) fun _ => rfl⟩, ⟨by decide +kernel, passes_adv
    (by decide +kernel), row_hdr (f := fun h => rowRequest (Instr.keyRevoke 7 h [1])) fun _ => rfl⟩, ⟨by decide +kernel,
    passes_adv (by decide +kernel), row_hdr (f := fun h => rowRequest (Instr.keyRevoke 7 h [0])) fun _ => rfl⟩,
    ⟨by decide +kernel, passes_adv (by decide +kernel), row_hdr (f := fun h => rowRequest (Instr.keyProgram 7 h (keyBody
    6))) fun _ => rfl⟩, ⟨by decide +kernel, passes_adv (by decide +kernel), row_hdr (f := fun h => rowRequest
    (Instr.keyRevoke 7 h [1])) fun _ => rfl⟩, by decide +kernel, by decide +kernel, by decide +kernel⟩

/-- The hypotheses of each clause of ImageSlots are met. -/
theorem meets_ImageSlots :
    ((keyed.core = CoreRun.running ∧ keyed.get BT_BOOT_STAT_SLOT ≠ bits ([257].getD 0 0) 8 8 ∧ keyed.dcp.imgOp = none
      ∧ bits ([257].getD 0 0) 1 0 = 1) ∧ (Passes (State.advance 7 keyed) 32 (hdr keyed 32 [257]) [257]) ∧ (rowRequest
      (Instr.imageWrite 7 (hdr keyed 32 [257]) [257]) = some (7, 32, hdr keyed 32 [257], [257]))) ∧
    ((keyed.core = CoreRun.running ∧ keyed.get BT_BOOT_STAT_SLOT ≠ bits ((imgBlankKey 0).getD 0 0) 8 8 ∧
      keyed.dcp.imgOp = none ∧ bits ((imgBlankKey 0).getD 0 0) 1 0 = 0 ∧ imgOpOf (imgBlankKey 0) = imgOpOf (imgBlankKey
      0) ∧ ((imgBlankKey 0).getD 2 0 % 4096 = 0 ∧ 4096 ≤ (imgBlankKey 0).getD 2 0 ∧ (imgBlankKey 0).getD 2 0 ≤ 15728640)
      ∧ (imgBlankKey 0).getD 1 0 + cdiv ((imgBlankKey 0).getD 2 0) 1048576 ≤ keyed.imgSlots ∧ keyed.checkReason (imgOpOf
      (imgBlankKey 0)).head (imgOpOf (imgBlankKey 0)).keySlot (imgOpOf (imgBlankKey 0)).unkeyed (imgOpOf (imgBlankKey
      0)).check (keyed.staged (imgOpOf (imgBlankKey 0))) ≠ 0 ∧ (keyed.checkReason (imgOpOf (imgBlankKey 0)).head
      (imgOpOf (imgBlankKey 0)).keySlot (imgOpOf (imgBlankKey 0)).unkeyed (imgOpOf (imgBlankKey 0)).check (keyed.staged
      (imgOpOf (imgBlankKey 0))) ≠ 6 ∨ (imgOpOf (imgBlankKey 0)).unkeyed = false)) ∧ (Passes (State.advance 7 keyed) 32
      (hdr keyed 32 (imgBlankKey 0)) (imgBlankKey 0)) ∧ (rowRequest (Instr.imageWrite 7 (hdr keyed 32 (imgBlankKey 0))
      (imgBlankKey 0)) = some (7, 32, hdr keyed 32 (imgBlankKey 0), imgBlankKey 0))) ∧
    ((keyed.core = CoreRun.running ∧ keyed.get BT_BOOT_STAT_SLOT ≠ bits ((imgBlankKey 256).getD 0 0) 8 8 ∧
      keyed.dcp.imgOp = none ∧ bits ((imgBlankKey 256).getD 0 0) 1 0 = 0 ∧ imgOpOf (imgBlankKey 256) = imgOpOf
      (imgBlankKey 256) ∧ ((imgBlankKey 256).getD 2 0 % 4096 = 0 ∧ 4096 ≤ (imgBlankKey 256).getD 2 0 ∧ (imgBlankKey
      256).getD 2 0 ≤ 15728640) ∧ keyed.imgSlots < (imgBlankKey 256).getD 1 0 + cdiv ((imgBlankKey 256).getD 2 0)
      1048576) ∧ (Passes (State.advance 7 keyed) 32 (hdr keyed 32 (imgBlankKey 256)) (imgBlankKey 256)) ∧ (rowRequest
      (Instr.imageWrite 7 (hdr keyed 32 (imgBlankKey 256)) (imgBlankKey 256)) = some (7, 32, hdr keyed 32 (imgBlankKey
      256), imgBlankKey 256))) ∧
    ((keyed.core = CoreRun.running ∧ keyed.get BT_BOOT_STAT_SLOT ≠ bits ([256, 0, 4097, 9, 0, 77, 0, 0, 0, 0, 0, 0, 0,
      0].getD 0 0) 8 8 ∧ keyed.dcp.imgOp = none ∧ bits ([256, 0, 4097, 9, 0, 77, 0, 0, 0, 0, 0, 0, 0, 0].getD 0 0) 1 0 =
      0 ∧ imgOpOf [256, 0, 4097, 9, 0, 77, 0, 0, 0, 0, 0, 0, 0, 0] = imgOpOf [256, 0, 4097, 9, 0, 77, 0, 0, 0, 0, 0, 0,
      0, 0] ∧ (¬([256, 0, 4097, 9, 0, 77, 0, 0, 0, 0, 0, 0, 0, 0].getD 2 0 % 4096 = 0 ∧ 4096 ≤ [256, 0, 4097, 9, 0, 77,
      0, 0, 0, 0, 0, 0, 0, 0].getD 2 0 ∧ [256, 0, 4097, 9, 0, 77, 0, 0, 0, 0, 0, 0, 0, 0].getD 2 0 ≤ 15728640))) ∧
      (Passes (State.advance 7 keyed) 32 (hdr keyed 32 [256, 0, 4097, 9, 0, 77, 0, 0, 0, 0, 0, 0, 0, 0]) [256, 0, 4097,
      9, 0, 77, 0, 0, 0, 0, 0, 0, 0, 0]) ∧ (rowRequest (Instr.imageWrite 7 (hdr keyed 32 [256, 0, 4097, 9, 0, 77, 0, 0,
      0, 0, 0, 0, 0, 0]) [256, 0, 4097, 9, 0, 77, 0, 0, 0, 0, 0, 0, 0, 0]) = some (7, 32, hdr keyed 32 [256, 0, 4097, 9,
      0, 77, 0, 0, 0, 0, 0, 0, 0, 0], [256, 0, 4097, 9, 0, 77, 0, 0, 0, 0, 0, 0, 0, 0]))) ∧
    ((slot0.core = CoreRun.running ∧ slot0.get BT_BOOT_STAT_SLOT = bits ([1].getD 0 0) 8 8) ∧ (Passes (State.advance 7
      slot0) 32 (hdr slot0 32 [1]) [1]) ∧ (rowRequest (Instr.imageWrite 7 (hdr slot0 32 [1]) [1]) = some (7, 32, hdr
      slot0 32 [1], [1]))) ∧
    (((imaging true).core = CoreRun.running ∧ (imaging true).get BT_BOOT_STAT_SLOT ≠ bits ([257].getD 0 0) 8 8 ∧
      (imaging true).dcp.imgOp = some eraseOp) ∧ (Passes (State.advance 7 (imaging true)) 32 (hdr (imaging true) 32
      [257]) [257]) ∧ (rowRequest (Instr.imageWrite 7 (hdr (imaging true) 32 [257]) [257]) = some (7, 32, hdr (imaging
      true) 32 [257], [257]))) ∧
    ((imaging true).core = CoreRun.running ∧ (imaging true).dcp.imgOp = some eraseOp ∧ eraseOp.slot < 2 ∧ (imaging
      true).c3Shed = false ∧ eraseOp.erase = true ∧ eraseOp.failed = false) ∧
    ((imaging false).core = CoreRun.running ∧ (imaging false).dcp.imgOp = some writeOp ∧ writeOp.slot < 2 ∧ (imaging
      false).c3Shed = false ∧ writeOp.erase = false ∧ writeOp.failed = false ∧ writeOp.strips ≤ writeOp.next) ∧
    ((imaging false).core = CoreRun.running ∧ (imaging false).dcp.imgOp = some writeOp ∧ writeOp.slot < 2 ∧ (imaging
      false).c3Shed = false ∧ WriteOutcome.flashError ≠ WriteOutcome.ok ∧ writeOp.ends WriteOutcome.flashError = true) ∧
    (encodingImage.core = CoreRun.running ∧ encodingImage.dcp.imgOp = some bodyOp ∧ bodyOp.slot < 2 ∧
      encodingImage.c3Shed = false ∧ bodyOp.encodes = true ∧ encodingImage.screen.streams = []) ∧
    (encodingImage.core = CoreRun.running ∧ encodingImage.dcp.imgOp = some bodyOp ∧ bodyOp.slot < 2 ∧
      encodingImage.c3Shed = false ∧ bodyOp.encodes = true ∧ encodingImage.screen.streams = []) :=
  ⟨⟨by decide +kernel, passes_adv (by decide +kernel), row_hdr (f := fun h => rowRequest (Instr.imageWrite 7 h [257]))
    fun _ => rfl⟩, ⟨by decide +kernel, passes_adv (by decide +kernel), row_hdr (f := fun h => rowRequest
    (Instr.imageWrite 7 h (imgBlankKey 0))) fun _ => rfl⟩, ⟨by decide +kernel, passes_adv (by decide +kernel), row_hdr
    (f := fun h => rowRequest (Instr.imageWrite 7 h (imgBlankKey 256))) fun _ => rfl⟩, ⟨by decide +kernel, passes_adv
    (by decide +kernel), row_hdr (f := fun h => rowRequest (Instr.imageWrite 7 h [256, 0, 4097, 9, 0, 77, 0, 0, 0, 0, 0,
    0, 0, 0])) fun _ => rfl⟩, ⟨by decide +kernel, passes_adv (by decide +kernel), row_hdr (f := fun h => rowRequest
    (Instr.imageWrite 7 h [1])) fun _ => rfl⟩, ⟨by decide +kernel, passes_adv (by decide +kernel), row_hdr (f := fun h
    => rowRequest (Instr.imageWrite 7 h [257])) fun _ => rfl⟩, by decide +kernel, by decide +kernel, by decide +kernel,
    by decide +kernel, by decide +kernel⟩

/-- The hypotheses of each clause of FireAndGateCommits are met. -/
theorem meets_FireAndGateCommits :
    (up.get FS_SAFE_STAT_SAFE = 0) ∧
    ((queued lineStamped).get FS_SAFE_STAT_SAFE = 0 ∧ 3 < 96 ∧ (queued lineStamped).chanLines 3 = [lineStamped] ∧ (∀
      (k : Nat), k < 96 → k ≠ 3 → (queued lineStamped).chanLines k = []) ∧ lineStamped.stamp = some 9020000 ∧
      lineStamped.voided = false ∧ lineStamped.unsent = false ∧ (queued lineStamped).flowing 3 = true ∧ (queued
      lineStamped).sendsLines = true ∧ (queued lineStamped).now + 50000 ≤ 9020000) ∧
    (safeHigh.fire.inhPin = true ∧ safeHigh.get FS_SAFE_CTRL_INHIBIT = 0 ∧ safeHigh.get WP_SRC_STAT_LOST = 0 ∧
      safeHigh.get TB_REF_STAT_LOST = 0 ∧ safeHigh.get FS_SAFE_STAT_GARNET = 0 ∧ safeHigh.pair.clash = false ∧
      safeHigh.get FS_SAFE_STAT_SAFE = 1) ∧
    ((safeLow.fire.inhPin = false ∨ safeLow.get FS_SAFE_CTRL_INHIBIT = 1 ∨ safeLow.get WP_SRC_STAT_LOST = 1 ∨
      safeLow.get TB_REF_STAT_LOST = 1 ∨ safeLow.get FS_SAFE_STAT_GARNET = 1)) ∧
    (128 < 256 ∧ (∀ (b : Nat), b < 8 → bit 128 b = true → bit tripped.fire.stbSense b = false ∧ ∀ (ch : Nat), ch ∈
      barLanes b → tripped.get (JL_HDM_FLAGS_STB_NOW ch) = 0)) ∧
    (255 < 256 ∧ (∀ (b : Nat), b < 8 → bit 255 b = true → bit tripped.fire.stbSense b = false ∧ ∀ (ch : Nat), ch ∈
      barLanes b → tripped.get (JL_HDM_FLAGS_STB_NOW ch) = 0)) ∧
    (192 < 256 ∧ (∃ b, b < 8 ∧ bit 192 b = true ∧ bit sensed.fire.stbSense b = true)) ∧
    (128 < 256 ∧ (∀ (b : Nat), b < 8 → bit 128 b = true → firing.bitOf PW_GATE_BARS b = false → firing.barIdle b =
      true)) ∧
    (1 < 256 ∧ (∀ (b : Nat), b < 8 → bit 1 b = true → (firing.put PW_GATE_BARS 1).bitOf PW_GATE_BARS b = false →
      (firing.put PW_GATE_BARS 1).barIdle b = true)) ∧
    (1 < 256 ∧ (∃ b, b < 8 ∧ bit 1 b = true ∧ firingJob.bitOf PW_GATE_BARS b = false ∧ firingJob.barIdle b = false)) := by
  repeat' apply And.intro
  all_goals decide +kernel

/-- The hypotheses of each clause of LaneAndTimeCommits are met. -/
theorem meets_LaneAndTimeCommits :
    (95 < 96 ∧ idleLane.get (LANE_CFG_EN 95) = 0 ∧ idleLane.itemLimit (⟨LANE_CFG 95, 1, 1⟩ : WriteItem) = none ∧
      idleLane.mayTrain 95 = true) ∧
    (3 < 96 ∧ enabled3.get (LANE_CFG_EN 3) = 1 ∧ enabled3.itemLimit (⟨LANE_CFG 3, 1, 0⟩ : WriteItem) = none) ∧
    (7 < 8 ∧ 50 ≤ 1500 ∧ 1500 ≤ 1500 ∧ 100 ≤ 2000 ∧ 2000 ≤ 2000 ∧ 1500 + 100 ≤ 2000 ∧ (∀ (ch : Nat), ch ∈ barLanes 7 →
      up.ready ch = false)) ∧
    (0 < 8 ∧ 50 ≤ 50 ∧ 50 ≤ 1500 ∧ 100 ≤ 150 ∧ 150 ≤ 2000 ∧ 50 + 100 ≤ 150 ∧ (∀ (ch : Nat), ch ∈ barLanes 0 → up.ready
      ch = false)) ∧
    (2 ^ 64 - 1 < 2 ^ 64 ∧ up.tb.adj = none ∧ up.dcp.adjBusy = false) ∧
    (adjLarge.tb.adj = some 1000001) ∧
    (adjNegative.tb.adj = some (2 ^ 64 - 1000000)) ∧
    (1000001 < 2 ^ 64 ∧ adjBusyNow.dcp.adjBusy = true) ∧
    ((adjusted up).tb.adj = some (2 ^ 64 - 5) ∧ (adjusted up).tb.newIncr = none ∧ (adjusted up).get
      PG_JOB_STAT_RUNNING = 0 ∧ (adjusted up).tb.remain = 0) ∧
    ((adjusted inJob).tb.adj = some (2 ^ 64 - 5) ∧ (adjusted inJob).tb.newIncr = none ∧ (adjusted inJob).get
      PG_JOB_STAT_RUNNING = 1 ∧ ((adjusted inJob).adjNs * (nsU : Int) + (adjusted inJob).remNow).natAbs ≤ 1000000 * nsU) := by
  repeat' apply And.intro
  all_goals decide +kernel

/-- The hypotheses of each clause of ObjectCommits are met. -/
theorem meets_ObjectCommits :
    (pool.surf (body0.getD 0 0 / 65536) (body0.getD 0 0 % 65536) = none ∧ freeIndex (List.map (fun x => x.entry)
      pool.ingest.surfs) 4096 = some 0 ∧ (∀ (w : Nat), w ∈ body0 → w < 2 ^ 32)) ∧
    (defined.surf (body0.getD 0 0 / 65536) (body0.getD 0 0 % 65536) = some (surf0 0 0 solid) ∧ (surf0 0 0
      solid).released = false) ∧
    (defined.surf ((body0.set 1 16).getD 0 0 / 65536) ((body0.set 1 16).getD 0 0 % 65536) = some (surf0 0 0 solid) ∧
      (surf0 0 0 solid).released = false) ∧
    (up.surf ([packGen 3 2].getD 0 0 / 65536) ([packGen 3 2].getD 0 0 % 65536) = none) ∧
    (released.surf ([packGen 3 2].getD 0 0 / 65536) ([packGen 3 2].getD 0 0 % 65536) = some surfReleased ∧
      surfReleased.released = true) ∧
    (defined.ingest.surfs = [surf0 0 0 solid] ∧ (surf0 0 0 solid).body = packGen (surf0 0 0 solid).id (surf0 0 0
      solid).gen :: body0.tail ∧ body0.tail.length = 5 ∧ (surf0 0 0 solid).id < 2 ^ 16 ∧ (surf0 0 0 solid).gen < 2 ^ 16
      ∧ (surf0 0 0 solid).released = false ∧ defined.ingest.windows = [] ∧ [packGen 3 2].getD 0 0 = packGen (surf0 0 0
      solid).id (surf0 0 0 solid).gen) ∧
    ((withJob (jobSix 2 [] false false false)).jobOf ([6, 2].getD 0 0) = some (jobSix 2 [] false false false) ∧
      (jobSix 2 [] false false false).pageCount ≠ 0 ∧ (jobSix 2 [] false false false).pageCount ≤ [6, 2].getD 1 0 % 2 ^
      24) ∧
    ((withJob (jobSix 0 [(⟨0, noRefs, Admission.awaiting, true, false, false⟩ : Page)] false false false)).jobOf (([6,
      0] ++ noRefs).getD 0 0) = some (jobSix 0 [(⟨0, noRefs, Admission.awaiting, true, false, false⟩ : Page)] false
      false false) ∧ (jobSix 0 [(⟨0, noRefs, Admission.awaiting, true, false, false⟩ : Page)] false false
      false).pageCount = 0 ∧ (jobSix 0 [(⟨0, noRefs, Admission.awaiting, true, false, false⟩ : Page)] false false
      false).page (([6, 0] ++ noRefs).getD 1 0 % 2 ^ 24) = some (⟨0, noRefs, Admission.awaiting, true, false, false⟩ :
      Page) ∧ (⟨0, noRefs, Admission.awaiting, true, false, false⟩ : Page).closed = true ∧ (⟨0, noRefs,
      Admission.awaiting, true, false, false⟩ : Page).refs = List.map (fun n => ([6, 0] ++ noRefs).getD (2 + n) 0)
      (List.range 8)) ∧
    ((withJob (jobSix 0 [] false false false)).jobOf ([6, 0].getD 0 0) = some (jobSix 0 [] false false false) ∧
      (jobSix 0 [] false false false).pageCount = 0 ∧ (jobSix 0 [] false false false).page ([6, 0].getD 1 0 % 2 ^ 24) =
      none) ∧
    (keyed.masterCheck [0] = none ∧ adminIn (fun k => if k = bits ([0].getD 0 0) 1 0 then masterWord ([0].getD 0 0)
      else keyed.rd (HP_MST_CFG k)) keyed.keyNext = false) ∧
    (keyed.masterCheck [3] = none ∧ adminIn (fun k => if k = bits ([3].getD 0 0) 1 0 then masterWord ([3].getD 0 0)
      else keyed.rd (HP_MST_CFG k)) keyed.keyNext = true) := by
  repeat' apply And.intro
  all_goals decide +kernel

/-- The hypotheses of each clause of JobCommits are met. -/
theorem meets_JobCommits :
    (up.jobOf ([6, 2304, 100, 0].getD 0 0) = none ∧ freeIndex (List.map (fun x => x.slot) up.scan.jobs) 64 = some 0 ∧
      [6, 2304, 100, 0].getD 0 0 < 2 ^ 32) ∧
    (jobs64.jobOf ([6, 2304, 100, 0].getD 0 0) = none ∧ freeIndex (List.map (fun x => x.slot) jobs64.scan.jobs) 64 =
      none) ∧
    ((withJob (jobSix 0 [] true false true)).jobOf ([6].getD 0 0) = some (jobSix 0 [] true false true) ∧ (jobSix 0 []
      true false true).cancelled = true) ∧
    ((withJob (jobSix 0 [] true false false)).jobOf ([6].getD 0 0) = some (jobSix 0 [] true false false) ∧ (jobSix 0
      [] true false false).cancelled = false ∧ (jobSix 0 [] true false false).started = true) ∧
    ((withJob (jobSix 0 [] false false false)).jobOf ([6].getD 0 0) = some (jobSix 0 [] false false false) ∧ (jobSix 0
      [] false false false).cancelled = false ∧ (jobSix 0 [] false false false).started = false ∧ ((withJob (jobSix 0 []
      false false false)).get MC_STAT_PRINT_RATE = 0 ∨ (withJob (jobSix 0 [] false false false)).get
      PG_PAGE_LINES_PAGE_LINES = 0 ∨ ∃ b, b ∈ barsOf (jobSix 0 [] false false false).bars ∧ (withJob (jobSix 0 [] false
      false false)).bitOf PW_GATE_BARS b = true)) ∧
    (overlapping.jobOf ([6].getD 0 0) = some jobBar0 ∧ jobBar0.cancelled = false ∧ jobBar0.started = false ∧
      overlapping.is MC_STAT_PRINT_RATE = true ∧ overlapping.is PG_PAGE_LINES_PAGE_LINES = true ∧
      overlapping.fedElsewhere = false ∧ (∀ (b : Nat), b ∈ barsOf jobBar0.bars → overlapping.bitOf PW_GATE_BARS b =
      false) ∧ barsOf jobBar0.bars = [0] ∧ overlapping.geomCheck 0 = some (2, 0)) ∧
    ((withJob (jobSix 5 [] false false false)).jobOf ([6].getD 0 0) = some (jobSix 5 [] false false false) ∧ ((jobSix
      5 [] false false false).cancelled = true ∨ (jobSix 5 [] false false false).pageCount ≠ 0)) ∧
    (up.jobOf ([6].getD 0 0) = none) ∧
    ((withJob (jobSix 0 [] true false true)).jobOf ([6].getD 0 0) = some (jobSix 0 [] true false true) ∧ (jobSix 0 []
      true false true).cancelled = true) ∧
    ((canPrint (jobSix 0 [] false false false)).scan.jobs = [jobSix 0 [] false false false] ∧ (jobSix 0 [] false false
      false).slot < 64 ∧ (jobSix 0 [] false false false).id < 2 ^ 32 ∧ (jobSix 0 [] false false false).w1 < 2 ^ 32 ∧
      (jobSix 0 [] false false false).w2 < 2 ^ 32 ∧ (jobSix 0 [] false false false).w3 < 2 ^ 32 ∧ (jobSix 0 [] false
      false false).cancelled = false ∧ [6].getD 0 0 = (jobSix 0 [] false false false).id ∧ (jobSix 0 [] false false
      false).started = false ∧ (canPrint (jobSix 0 [] false false false)).is MC_STAT_PRINT_RATE = true ∧ (canPrint
      (jobSix 0 [] false false false)).is PG_PAGE_LINES_PAGE_LINES = true ∧ (canPrint (jobSix 0 [] false false
      false)).fedElsewhere = false ∧ (∀ (b : Nat), b ∈ barsOf (jobSix 0 [] false false false).bars → (canPrint (jobSix 0
      [] false false false)).bitOf PW_GATE_BARS b = false ∧ (canPrint (jobSix 0 [] false false false)).geomCheck b =
      none)) ∧
    ((withJob (jobSix 0 [] false false false)).scan.jobs = [jobSix 0 [] false false false] ∧ (jobSix 0 [] false false
      false).slot < 64 ∧ (jobSix 0 [] false false false).id < 2 ^ 32 ∧ (jobSix 0 [] false false false).w1 < 2 ^ 32 ∧
      (jobSix 0 [] false false false).w2 < 2 ^ 32 ∧ (jobSix 0 [] false false false).w3 < 2 ^ 32 ∧ (jobSix 0 [] false
      false false).cancelled = false ∧ [6].getD 0 0 = (jobSix 0 [] false false false).id ∧ (jobSix 0 [] false false
      false).started = false ∧ (jobSix 0 [] false false false).pageCount = 0 ∧ (jobSix 0 [] false false false).closed =
      false ∧ (withJob (jobSix 0 [] false false false)).scan.nextPage = none) ∧
    ((withJob (jobSix 0 [] true false false)).scan.jobs = [jobSix 0 [] true false false] ∧ (jobSix 0 [] true false
      false).slot < 64 ∧ (jobSix 0 [] true false false).id < 2 ^ 32 ∧ (jobSix 0 [] true false false).w1 < 2 ^ 32 ∧
      (jobSix 0 [] true false false).w2 < 2 ^ 32 ∧ (jobSix 0 [] true false false).w3 < 2 ^ 32 ∧ (jobSix 0 [] true false
      false).cancelled = false ∧ [6].getD 0 0 = (jobSix 0 [] true false false).id ∧ (withJob (jobSix 0 [] true false
      false)).scan.runs = []) ∧
    ((withJob (jobSix 0 [] true false false)).scan.jobs = [jobSix 0 [] true false false] ∧ (jobSix 0 [] true false
      false).slot < 64 ∧ (jobSix 0 [] true false false).id < 2 ^ 32 ∧ (jobSix 0 [] true false false).w1 < 2 ^ 32 ∧
      (jobSix 0 [] true false false).w2 < 2 ^ 32 ∧ (jobSix 0 [] true false false).w3 < 2 ^ 32 ∧ (jobSix 0 [] true false
      false).cancelled = false ∧ ([6, 0] ++ noRefs).getD 0 0 = (jobSix 0 [] true false false).id ∧ 0 = ([6, 0] ++
      noRefs).getD 1 0 % 2 ^ 24 ∧ noRefs = List.map (fun n => ([6, 0] ++ noRefs).getD (2 + n) 0) (List.range 8) ∧ (∀ (r
      : Nat), r ∈ noRefs → r < 2 ^ 32) ∧ (jobSix 0 [] true false false).pageCount = 0 ∧ (jobSix 0 [] true false
      false).closed = false ∧ (jobSix 0 [] true false false).page 0 = none ∧ (∀ (n : Nat), n < 8 → (withJob (jobSix 0 []
      true false false)).refCheck (layerOf ((withJob (jobSix 0 [] true false false)).gapFor (jobSix 0 [] true false
      false) 0) n) (jobSix 0 [] true false false) (noRefs.getD n noRef) = none)) ∧
    ((withJob (jobSix 0 [(⟨0, noRefs, Admission.open, false, false, false⟩ : Page)] true false false)).scan.jobs =
      [jobSix 0 [(⟨0, noRefs, Admission.open, false, false, false⟩ : Page)] true false false] ∧ (jobSix 0 [(⟨0, noRefs,
      Admission.open, false, false, false⟩ : Page)] true false false).slot < 64 ∧ (jobSix 0 [(⟨0, noRefs,
      Admission.open, false, false, false⟩ : Page)] true false false).id < 2 ^ 32 ∧ (jobSix 0 [(⟨0, noRefs,
      Admission.open, false, false, false⟩ : Page)] true false false).w1 < 2 ^ 32 ∧ (jobSix 0 [(⟨0, noRefs,
      Admission.open, false, false, false⟩ : Page)] true false false).w2 < 2 ^ 32 ∧ (jobSix 0 [(⟨0, noRefs,
      Admission.open, false, false, false⟩ : Page)] true false false).w3 < 2 ^ 32 ∧ (jobSix 0 [(⟨0, noRefs,
      Admission.open, false, false, false⟩ : Page)] true false false).cancelled = false ∧ [6, 0].getD 0 0 = (jobSix 0
      [(⟨0, noRefs, Admission.open, false, false, false⟩ : Page)] true false false).id ∧ 0 = [6, 0].getD 1 0 % 2 ^ 24 ∧
      (jobSix 0 [(⟨0, noRefs, Admission.open, false, false, false⟩ : Page)] true false false).pageCount = 0 ∧ (jobSix 0
      [(⟨0, noRefs, Admission.open, false, false, false⟩ : Page)] true false false).page 0 = some (⟨0, noRefs,
      Admission.open, false, false, false⟩ : Page) ∧ (⟨0, noRefs, Admission.open, false, false, false⟩ : Page).adm =
      Admission.open ∧ (⟨0, noRefs, Admission.open, false, false, false⟩ : Page).closed = false ∧ (⟨0, noRefs,
      Admission.open, false, false, false⟩ : Page).checked = false ∧ (⟨0, noRefs, Admission.open, false, false, false⟩ :
      Page).refs.length = 8 ∧ (∀ (r : Nat), r ∈ (⟨0, noRefs, Admission.open, false, false, false⟩ : Page).refs → r < 2 ^
      32)) ∧
    ((withJob (jobSix 0 [(⟨0, noRefs, Admission.open, false, false, false⟩ : Page)] false false false)).scan.jobs =
      [jobSix 0 [(⟨0, noRefs, Admission.open, false, false, false⟩ : Page)] false false false] ∧ (jobSix 0 [(⟨0, noRefs,
      Admission.open, false, false, false⟩ : Page)] false false false).slot < 64 ∧ (jobSix 0 [(⟨0, noRefs,
      Admission.open, false, false, false⟩ : Page)] false false false).id < 2 ^ 32 ∧ (jobSix 0 [(⟨0, noRefs,
      Admission.open, false, false, false⟩ : Page)] false false false).w1 < 2 ^ 32 ∧ (jobSix 0 [(⟨0, noRefs,
      Admission.open, false, false, false⟩ : Page)] false false false).w2 < 2 ^ 32 ∧ (jobSix 0 [(⟨0, noRefs,
      Admission.open, false, false, false⟩ : Page)] false false false).w3 < 2 ^ 32 ∧ (jobSix 0 [(⟨0, noRefs,
      Admission.open, false, false, false⟩ : Page)] false false false).cancelled = false ∧ [6, 0].getD 0 0 = (jobSix 0
      [(⟨0, noRefs, Admission.open, false, false, false⟩ : Page)] false false false).id ∧ 0 = [6, 0].getD 1 0 % 2 ^ 24 ∧
      (jobSix 0 [(⟨0, noRefs, Admission.open, false, false, false⟩ : Page)] false false false).pageCount = 0 ∧ (jobSix 0
      [(⟨0, noRefs, Admission.open, false, false, false⟩ : Page)] false false false).page 0 = some (⟨0, noRefs,
      Admission.open, false, false, false⟩ : Page) ∧ (⟨0, noRefs, Admission.open, false, false, false⟩ : Page).adm =
      Admission.open ∧ (⟨0, noRefs, Admission.open, false, false, false⟩ : Page).closed = false ∧ (⟨0, noRefs,
      Admission.open, false, false, false⟩ : Page).checked = false ∧ (⟨0, noRefs, Admission.open, false, false, false⟩ :
      Page).refs.length = 8 ∧ (∀ (r : Nat), r ∈ (⟨0, noRefs, Admission.open, false, false, false⟩ : Page).refs → r < 2 ^
      32)) ∧
    ((withJob (jobSix 0 [(⟨0, noRefs, Admission.refused, false, false, false⟩ : Page)] true false false)).scan.jobs =
      [jobSix 0 [(⟨0, noRefs, Admission.refused, false, false, false⟩ : Page)] true false false] ∧ (jobSix 0 [(⟨0,
      noRefs, Admission.refused, false, false, false⟩ : Page)] true false false).slot < 64 ∧ (jobSix 0 [(⟨0, noRefs,
      Admission.refused, false, false, false⟩ : Page)] true false false).id < 2 ^ 32 ∧ (jobSix 0 [(⟨0, noRefs,
      Admission.refused, false, false, false⟩ : Page)] true false false).w1 < 2 ^ 32 ∧ (jobSix 0 [(⟨0, noRefs,
      Admission.refused, false, false, false⟩ : Page)] true false false).w2 < 2 ^ 32 ∧ (jobSix 0 [(⟨0, noRefs,
      Admission.refused, false, false, false⟩ : Page)] true false false).w3 < 2 ^ 32 ∧ (jobSix 0 [(⟨0, noRefs,
      Admission.refused, false, false, false⟩ : Page)] true false false).cancelled = false ∧ [6, 0].getD 0 0 = (jobSix 0
      [(⟨0, noRefs, Admission.refused, false, false, false⟩ : Page)] true false false).id ∧ 0 = [6, 0].getD 1 0 % 2 ^ 24
      ∧ (jobSix 0 [(⟨0, noRefs, Admission.refused, false, false, false⟩ : Page)] true false false).pageCount = 0 ∧
      (jobSix 0 [(⟨0, noRefs, Admission.refused, false, false, false⟩ : Page)] true false false).page 0 = some (⟨0,
      noRefs, Admission.refused, false, false, false⟩ : Page) ∧ ((⟨0, noRefs, Admission.refused, false, false, false⟩ :
      Page).adm = Admission.admitted ∨ (⟨0, noRefs, Admission.refused, false, false, false⟩ : Page).adm =
      Admission.refused) ∧ (⟨0, noRefs, Admission.refused, false, false, false⟩ : Page).closed = false ∧ (⟨0, noRefs,
      Admission.refused, false, false, false⟩ : Page).refs.length = 8 ∧ (∀ (r : Nat), r ∈ (⟨0, noRefs,
      Admission.refused, false, false, false⟩ : Page).refs → r < 2 ^ 32)) ∧
    ((withJob (jobSix 0 [(⟨0, noRefs, Admission.admitted, false, false, false⟩ : Page)] true false false)).scan.jobs =
      [jobSix 0 [(⟨0, noRefs, Admission.admitted, false, false, false⟩ : Page)] true false false] ∧ (jobSix 0 [(⟨0,
      noRefs, Admission.admitted, false, false, false⟩ : Page)] true false false).slot < 64 ∧ (jobSix 0 [(⟨0, noRefs,
      Admission.admitted, false, false, false⟩ : Page)] true false false).id < 2 ^ 32 ∧ (jobSix 0 [(⟨0, noRefs,
      Admission.admitted, false, false, false⟩ : Page)] true false false).w1 < 2 ^ 32 ∧ (jobSix 0 [(⟨0, noRefs,
      Admission.admitted, false, false, false⟩ : Page)] true false false).w2 < 2 ^ 32 ∧ (jobSix 0 [(⟨0, noRefs,
      Admission.admitted, false, false, false⟩ : Page)] true false false).w3 < 2 ^ 32 ∧ (jobSix 0 [(⟨0, noRefs,
      Admission.admitted, false, false, false⟩ : Page)] true false false).cancelled = false ∧ [6, 0].getD 0 0 = (jobSix
      0 [(⟨0, noRefs, Admission.admitted, false, false, false⟩ : Page)] true false false).id ∧ 0 = [6, 0].getD 1 0 % 2 ^
      24 ∧ (jobSix 0 [(⟨0, noRefs, Admission.admitted, false, false, false⟩ : Page)] true false false).pageCount = 0 ∧
      (jobSix 0 [(⟨0, noRefs, Admission.admitted, false, false, false⟩ : Page)] true false false).page 0 = some (⟨0,
      noRefs, Admission.admitted, false, false, false⟩ : Page) ∧ ((⟨0, noRefs, Admission.admitted, false, false, false⟩
      : Page).adm = Admission.admitted ∨ (⟨0, noRefs, Admission.admitted, false, false, false⟩ : Page).adm =
      Admission.refused) ∧ (⟨0, noRefs, Admission.admitted, false, false, false⟩ : Page).closed = false ∧ (⟨0, noRefs,
      Admission.admitted, false, false, false⟩ : Page).refs.length = 8 ∧ (∀ (r : Nat), r ∈ (⟨0, noRefs,
      Admission.admitted, false, false, false⟩ : Page).refs → r < 2 ^ 32)) ∧
    ((withJob (jobSix 0 [(⟨0, noRefs, Admission.admitted, false, false, false⟩ : Page)] true false false)).scan.jobs =
      [jobSix 0 [(⟨0, noRefs, Admission.admitted, false, false, false⟩ : Page)] true false false] ∧ (jobSix 0 [(⟨0,
      noRefs, Admission.admitted, false, false, false⟩ : Page)] true false false).slot < 64 ∧ (jobSix 0 [(⟨0, noRefs,
      Admission.admitted, false, false, false⟩ : Page)] true false false).id < 2 ^ 32 ∧ (jobSix 0 [(⟨0, noRefs,
      Admission.admitted, false, false, false⟩ : Page)] true false false).w1 < 2 ^ 32 ∧ (jobSix 0 [(⟨0, noRefs,
      Admission.admitted, false, false, false⟩ : Page)] true false false).w2 < 2 ^ 32 ∧ (jobSix 0 [(⟨0, noRefs,
      Admission.admitted, false, false, false⟩ : Page)] true false false).w3 < 2 ^ 32 ∧ (jobSix 0 [(⟨0, noRefs,
      Admission.admitted, false, false, false⟩ : Page)] true false false).cancelled = false ∧ ([6, 0] ++ noRefs).getD 0
      0 = (jobSix 0 [(⟨0, noRefs, Admission.admitted, false, false, false⟩ : Page)] true false false).id ∧ 0 = ([6, 0]
      ++ noRefs).getD 1 0 % 2 ^ 24 ∧ noRefs = List.map (fun n => ([6, 0] ++ noRefs).getD (2 + n) 0) (List.range 8) ∧ (∀
      (r : Nat), r ∈ noRefs → r < 2 ^ 32) ∧ (jobSix 0 [(⟨0, noRefs, Admission.admitted, false, false, false⟩ : Page)]
      true false false).pageCount = 0 ∧ (jobSix 0 [(⟨0, noRefs, Admission.admitted, false, false, false⟩ : Page)] true
      false false).page 0 = some (⟨0, noRefs, Admission.admitted, false, false, false⟩ : Page) ∧ (⟨0, noRefs,
      Admission.admitted, false, false, false⟩ : Page).closed = false ∧ (⟨0, noRefs, Admission.admitted, false, false,
      false⟩ : Page).checked = false ∧ (∀ (n : Nat), n < 8 → (withJob (jobSix 0 [(⟨0, noRefs, Admission.admitted, false,
      false, false⟩ : Page)] true false false)).refCheck (layerOf ((withJob (jobSix 0 [(⟨0, noRefs, Admission.admitted,
      false, false, false⟩ : Page)] true false false)).gapFor (jobSix 0 [(⟨0, noRefs, Admission.admitted, false, false,
      false⟩ : Page)] true false false) 0) n) (jobSix 0 [(⟨0, noRefs, Admission.admitted, false, false, false⟩ : Page)]
      true false false) (noRefs.getD n noRef) = none)) := by
  repeat' apply And.intro
  all_goals decide +kernel

/-- The hypotheses of each clause of DomainCommits are met. -/
theorem meets_DomainCommits :
    (waitingGap.scan.pendingGap ≠ none) ∧
    (up.scan.pendingGap = none ∧ up.get PG_CMT_STAT_GAP_PENDING = 0 ∧ up.scan.gapTick ≠ some up.tick ∧ up.gapReject
      up.shadowGap up.applyAt = some (1, 0)) ∧
    (shadowBad.scan.pendingGap = none ∧ shadowBad.get PG_CMT_STAT_GAP_PENDING = 0 ∧ shadowBad.scan.gapTick ≠ some
      shadowBad.tick ∧ shadowBad.gapReject shadowBad.shadowGap shadowBad.applyAt = some (1, 7)) ∧
    (targetedJob.scan.pendingGap = none ∧ targetedJob.get PG_CMT_STAT_GAP_PENDING = 0 ∧ targetedJob.scan.gapTick ≠
      some targetedJob.tick ∧ targetedJob.applyAt = some (3, 9) ∧ targetedJob.gapReject targetedJob.shadowGap
      targetedJob.applyAt = none) ∧
    (shadowLines.scan.pendingGap = none ∧ shadowLines.get PG_CMT_STAT_GAP_PENDING = 0 ∧ shadowLines.scan.gapTick ≠
      some shadowLines.tick ∧ shadowLines.applyAt = none ∧ shadowLines.gapReject shadowLines.shadowGap
      shadowLines.applyAt = none) ∧
    ((up.wrSh WP_PRED 3).camReject = none) ∧
    (camBad.camReject = some (2, 2)) := by
  repeat' apply And.intro
  all_goals decide +kernel

/-- The hypotheses of each clause of WritesAllOrNothing are met. -/
theorem meets_WritesAllOrNothing :
    ((up.writeGo true [(⟨FS_SAFE_CTRL, 1, 1⟩ : WriteItem), (⟨FS_SAFE_CTRL, 2, 2⟩ : WriteItem)]).fst.status ≠ stOk) ∧
      (∀ (x : WriteItem), x ∈ [(⟨FS_SAFE_CTRL, 1, 1⟩ : WriteItem), (⟨FS_SAFE_CTRL, 2, 2⟩ : WriteItem)] → x.addr ≠
      GL_CMT_CTRL ∧ ∀ (b : Nat), scBar x.addr ≠ some (b, 20)) :=
  ⟨by decide +kernel, safe_items⟩

/-- The hypotheses of each clause of CameraFrames are met. -/
theorem meets_CameraFrames :
    (cams.core = CoreRun.running ∧ cams.portOn 1 = true ∧ 1 < 4 ∧ 5 = 4 * 1 + 1 ∧ 5 < cams.cam.ctxs.length ∧
      (cams.camCtx 5).frame = none ∧ cams.get (CM_CTX_CFG_EN 5) = 1 ∧ (State.advance 100 cams).triggerAt (List.map
      cams.rd (camCtxAddrs 5)) (↑((State.advance 100 cams).now - 6) - ↑(cams.rd (CM_CTX_LAT 5))) = some edge1) ∧
    (cams3.core = CoreRun.running ∧ cams3.portOn 1 = true ∧ 1 < 4 ∧ 5 = 4 * 1 + 1 ∧ 5 < cams3.cam.ctxs.length ∧
      (cams3.camCtx 5).frame = none ∧ cams3.get (CM_CTX_CFG_EN 5) = 1 ∧ (State.advance 100 cams3).triggerAt (List.map
      cams3.rd (camCtxAddrs 5)) (↑((State.advance 100 cams3).now - 5) - ↑(cams3.rd (CM_CTX_LAT 5))) = some (⟨3, 1280,
      95⟩ : EncoEdge)) ∧
    (cams.core = CoreRun.running ∧ cams.portOn 1 = true ∧ 1 < 4 ∧ 5 = 4 * 1 + 1 ∧ 5 < cams.cam.ctxs.length ∧
      (cams.camCtx 5).frame = none ∧ cams.get (CM_CTX_CFG_EN 5) = 1 ∧ (State.advance 100 cams).triggerAt (List.map
      cams.rd (camCtxAddrs 5)) (↑((State.advance 100 cams).now - 50) - ↑(cams.rd (CM_CTX_LAT 5))) = none) ∧
    ((cams.put (CM_CTX_CFG_EN 5) 0).core = CoreRun.running ∧ (cams.put (CM_CTX_CFG_EN 5) 0).portOn 1 = true ∧ 1 < 4 ∧
      5 = 4 * 1 + 1 ∧ 5 < (cams.put (CM_CTX_CFG_EN 5) 0).cam.ctxs.length ∧ ((cams.put (CM_CTX_CFG_EN 5) 0).camCtx
      5).frame = none ∧ (cams.put (CM_CTX_CFG_EN 5) 0).get (CM_CTX_CFG_EN 5) = 0) ∧
    ((receiving 4).core = CoreRun.running ∧ (receiving 4).portOn 1 = true ∧ 1 < 4 ∧ 5 = 4 * 1 + 1 ∧ 5 < (receiving
      4).cam.ctxs.length ∧ ((receiving 4).camCtx 5).frame = some (frame5 4) ∧ (frame5 4).tooLong = false ∧ (frame5
      4).flagged = false) ∧
    ((receiving 4).core = CoreRun.running ∧ (receiving 4).portOn 1 = true ∧ 1 < 4 ∧ 5 = 4 * 1 + 1 ∧ 5 < (receiving
      4).cam.ctxs.length ∧ ((receiving 4).camCtx 5).errSeen = false) ∧
    ((receiving 4).core = CoreRun.running ∧ (receiving 4).portOn 1 = true ∧ 1 < 4 ∧ 5 = 4 * 1 + 1 ∧ 5 < (receiving
      4).cam.ctxs.length ∧ ((receiving 4).camCtx 5).errSeen = false) ∧
    ((receiving 4).core = CoreRun.running ∧ (receiving 4).portOn 1 = true ∧ 1 < 4 ∧ 5 = 4 * 1 + 1 ∧ 5 < (receiving
      4).cam.ctxs.length ∧ ((receiving 4).camCtx 5).errSeen = false) ∧
    (cams.core = CoreRun.running ∧ cams.portOn 1 = true ∧ 1 < 4 ∧ 5 = 4 * 1 + 1 ∧ 5 < cams.cam.ctxs.length ∧
      (cams.camCtx 5).errSeen = false) ∧
    (camErred.core = CoreRun.running ∧ camErred.portOn 1 = true ∧ 1 < 4 ∧ 5 = 4 * 1 + 1 ∧ 5 < camErred.cam.ctxs.length
      ∧ (camErred.camCtx 5).errSeen = true) ∧
    ((receiving 4).core = CoreRun.running ∧ (receiving 4).portOn 1 = true ∧ 1 < 4 ∧ 5 = 4 * 1 + 1 ∧ 5 < (receiving
      4).cam.ctxs.length ∧ ((receiving 4).camCtx 5).frame = some (frame5 4) ∧ (frame5 4).tooLong = false ∧ cfgLines
      (frame5 4).cfg ≤ (frame5 4).lines) ∧
    ((receiving 3).core = CoreRun.running ∧ (receiving 3).portOn 1 = true ∧ 1 < 4 ∧ 5 = 4 * 1 + 1 ∧ 5 < (receiving
      3).cam.ctxs.length ∧ ((receiving 3).camCtx 5).frame = some (frame5 3) ∧ (frame5 3).tooLong = false ∧ (frame5
      3).lines < cfgLines (frame5 3).cfg ∧ (frame5 3).flagged = false) ∧
    (silent.core = CoreRun.running ∧ silent.portOn 1 = true ∧ 1 < 4 ∧ 5 = 4 * 1 + 1 ∧ 5 < silent.cam.ctxs.length ∧
      silent.inRole = true ∧ (silent.camCtx 5).adopted = (if cfgEn (silent.camCtx 5).adopted = true then (silent.camCtx
      5).adopted else List.map silent.rd (camCtxAddrs 5)) ∧ 5 < 16 ∧ 2 * cfgLines (silent.camCtx 5).adopted * cfgDiv
      (silent.camCtx 5).adopted ≤ (silent.camCtx 5).edges ∧ silent.get (CM_CTX_CFG_EN 5) = 1 ∧ (silent.camCtx 5).silent
      = false) ∧
    (silentNew.core = CoreRun.running ∧ silentNew.portOn 1 = true ∧ 1 < 4 ∧ 5 = 4 * 1 + 1 ∧ 5 <
      silentNew.cam.ctxs.length ∧ silentNew.inRole = true ∧ List.map silentNew.rd (camCtxAddrs 5) = (if cfgEn
      (silentNew.camCtx 5).adopted = true then (silentNew.camCtx 5).adopted else List.map silentNew.rd (camCtxAddrs 5))
      ∧ 5 < 16 ∧ 2 * cfgLines (List.map silentNew.rd (camCtxAddrs 5)) * cfgDiv (List.map silentNew.rd (camCtxAddrs 5)) ≤
      (silentNew.camCtx 5).edges ∧ silentNew.get (CM_CTX_CFG_EN 5) = 1 ∧ (silentNew.camCtx 5).silent = false) ∧
    ((silent.put (CM_CTX_CFG_EN 5) 0).core = CoreRun.running ∧ (silent.put (CM_CTX_CFG_EN 5) 0).portOn 1 = true ∧ 1 <
      4 ∧ 5 = 4 * 1 + 1 ∧ 5 < (silent.put (CM_CTX_CFG_EN 5) 0).cam.ctxs.length ∧ (silent.put (CM_CTX_CFG_EN 5) 0).inRole
      = true ∧ ((silent.put (CM_CTX_CFG_EN 5) 0).camCtx 5).adopted = (if cfgEn ((silent.put (CM_CTX_CFG_EN 5) 0).camCtx
      5).adopted = true then ((silent.put (CM_CTX_CFG_EN 5) 0).camCtx 5).adopted else List.map (silent.put
      (CM_CTX_CFG_EN 5) 0).rd (camCtxAddrs 5)) ∧ 5 < 16 ∧ 2 * cfgLines ((silent.put (CM_CTX_CFG_EN 5) 0).camCtx
      5).adopted * cfgDiv ((silent.put (CM_CTX_CFG_EN 5) 0).camCtx 5).adopted ≤ ((silent.put (CM_CTX_CFG_EN 5) 0).camCtx
      5).edges ∧ ((silent.put (CM_CTX_CFG_EN 5) 0).get (CM_CTX_CFG_EN 5) = 0 ∨ ((silent.put (CM_CTX_CFG_EN 5) 0).camCtx
      5).silent = true)) := by
  repeat' apply And.intro
  all_goals decide +kernel

/-- The hypotheses of each clause of CameraLines are met. -/
theorem meets_CameraLines :
    ((receiving 3).core = CoreRun.running ∧ (receiving 3).portOn 1 = true ∧ 1 < 4 ∧ 5 = 4 * 1 + 1 ∧ 5 < (receiving
      3).cam.ctxs.length ∧ ((receiving 3).camCtx 5).frame = some (frame5 3) ∧ (frame5 3).tooLong = false ∧ (frame5
      3).lines < cfgLines (frame5 3).cfg ∧ (frame5 3).edge = some edge1 ∧ 30 = camWords (cfgFmt (frame5 3).cfg)
      (cfgPixels (frame5 3).cfg) ∧ (receiving 3).portBytes 1 + 30 ≤ 524288) ∧
    ((receiving 3).core = CoreRun.running ∧ (receiving 3).portOn 1 = true ∧ 1 < 4 ∧ 5 = 4 * 1 + 1 ∧ 5 < (receiving
      3).cam.ctxs.length ∧ ((receiving 3).camCtx 5).frame = some (frame5 3) ∧ (frame5 3).tooLong = false ∧ (frame5
      3).lines < cfgLines (frame5 3).cfg ∧ 31 ≠ camWords (cfgFmt (frame5 3).cfg) (cfgPixels (frame5 3).cfg) ∧ (frame5
      3).flagged = false) ∧
    ((receiving 3).core = CoreRun.running ∧ (receiving 3).portOn 1 = true ∧ 1 < 4 ∧ 5 = 4 * 1 + 1 ∧ 5 < (receiving
      3).cam.ctxs.length ∧ ((receiving 3).camCtx 5).frame = some (frame5 3) ∧ (frame5 3).tooLong = false ∧ (frame5
      3).lines < cfgLines (frame5 3).cfg ∧ ((receiving 3).camCtx 5).errSeen = false) ∧
    (bufferFull.core = CoreRun.running ∧ bufferFull.portOn 1 = true ∧ 1 < 4 ∧ 5 = 4 * 1 + 1 ∧ 5 <
      bufferFull.cam.ctxs.length ∧ (bufferFull.camCtx 5).frame = some (frame5 3) ∧ (frame5 3).tooLong = false ∧ (frame5
      3).lines < cfgLines (frame5 3).cfg ∧ (frame5 3).edge = some edge1 ∧ 30 = camWords (cfgFmt (frame5 3).cfg)
      (cfgPixels (frame5 3).cfg) ∧ 524288 < bufferFull.portBytes 1 + 30) ∧
    ((receiving 3).core = CoreRun.running ∧ (receiving 3).portOn 1 = true ∧ 1 < 4 ∧ 5 = 4 * 1 + 1 ∧ 5 < (receiving
      3).cam.ctxs.length ∧ ((receiving 3).camCtx 5).errSeen = false) ∧
    ((receiving 3).core = CoreRun.running ∧ (receiving 3).portOn 1 = true ∧ 1 < 4 ∧ 5 = 4 * 1 + 1 ∧ 5 < (receiving
      3).cam.ctxs.length ∧ (18 = 18 ∨ 18 = 2 ∨ 18 = 3)) ∧
    ((receiving 3).core = CoreRun.running ∧ (receiving 3).portOn 1 = true ∧ 1 < 4 ∧ 5 = 4 * 1 + 1 ∧ 5 < (receiving
      3).cam.ctxs.length ∧ (3 = 18 ∨ 3 = 2 ∨ 3 = 3)) ∧
    ((receiving 3).core = CoreRun.running ∧ (receiving 3).portOn 1 = true ∧ 1 < 4 ∧ 5 = 4 * 1 + 1 ∧ 5 < (receiving
      3).cam.ctxs.length ∧ 45 ≠ 18 ∧ 45 ≠ 2 ∧ 45 ≠ 3 ∧ 45 ≠ 43 ∧ 45 ≠ 44) := by
  repeat' apply And.intro
  all_goals decide +kernel

/-- The hypotheses of each clause of PipelineServes are met. -/
theorem meets_PipelineServes :
    ((starved queue3).core = CoreRun.running ∧ (starved queue3).c2Shed = true) ∧
    (upConfigured.core = CoreRun.running ∧ upConfigured.inRole = false) ∧
    (up.core = CoreRun.running ∧ up.inRole = true ∧ up.c2Shed = false ∧ up.get CM_PIPE_STAT_BUSY = 0 ∧ up.cam.queue =
      []) ∧
    (queue3.core = CoreRun.running ∧ queue3.inRole = true ∧ queue3.c2Shed = false ∧ queue3.get CM_PIPE_STAT_BUSY = 0 ∧
      queue3.cam.queue ≠ [] ∧ (∀ (l : CamLine), l ∈ queue3.cam.queue → l.ctx < 16)) ∧
    (serving.core = CoreRun.running ∧ serving.inRole = true ∧ serving.c2Shed = false ∧ serving.get CM_PIPE_STAT_BUSY =
      1 ∧ serving.unitOver = false ∧ serving.get CM_PIPE_STAT_CTX < serving.cam.ctxs.length ∧ List.find? (fun l => l.ctx
      == serving.get CM_PIPE_STAT_CTX) serving.cam.queue = some (Tests.lineAt 5 1 50) ∧ ((Tests.lineAt 5 1 50).edge ∈
      serving.edgesOf (Tests.lineAt 5 1 50).cfg ∧ serving.triggerAfter (Tests.lineAt 5 1 50).cfg (Tests.lineAt 5 1
      50).edge (Tests.lineAt 5 1 50).idx = some (⟨2, 960, 92⟩ : EncoEdge) ∨ ¬(Tests.lineAt 5 1 50).edge ∈
      serving.edgesOf (Tests.lineAt 5 1 50).cfg ∧ List.find? (fun x => x.k == (Tests.lineAt 5 1 50).edge.k +
      (Tests.lineAt 5 1 50).idx * cfgDiv (Tests.lineAt 5 1 50).cfg && decide ((Tests.lineAt 5 1 50).edge.time ≤ x.time))
      (serving.edgesOf (Tests.lineAt 5 1 50).cfg) = some (⟨2, 960, 92⟩ : EncoEdge)) ∧ serving.beryl.taps = [] ∧
      serving.get CM_MARK_CFG_CTX ≠ serving.get CM_PIPE_STAT_CTX) ∧
    (servingLate.core = CoreRun.running ∧ servingLate.inRole = true ∧ servingLate.c2Shed = false ∧ servingLate.get
      CM_PIPE_STAT_BUSY = 1 ∧ servingLate.unitOver = false ∧ servingLate.get CM_PIPE_STAT_CTX <
      servingLate.cam.ctxs.length ∧ List.find? (fun l => l.ctx == servingLate.get CM_PIPE_STAT_CTX)
      servingLate.cam.queue = some (Tests.lineAt 5 1 50) ∧ ((Tests.lineAt 5 1 50).edge ∈ servingLate.edgesOf
      (Tests.lineAt 5 1 50).cfg ∧ servingLate.triggerAfter (Tests.lineAt 5 1 50).cfg (Tests.lineAt 5 1 50).edge
      (Tests.lineAt 5 1 50).idx = some (⟨2, 960, 92⟩ : EncoEdge) ∨ ¬(Tests.lineAt 5 1 50).edge ∈ servingLate.edgesOf
      (Tests.lineAt 5 1 50).cfg ∧ List.find? (fun x => x.k == (Tests.lineAt 5 1 50).edge.k + (Tests.lineAt 5 1 50).idx *
      cfgDiv (Tests.lineAt 5 1 50).cfg && decide ((Tests.lineAt 5 1 50).edge.time ≤ x.time)) (servingLate.edgesOf
      (Tests.lineAt 5 1 50).cfg) = some (⟨2, 960, 92⟩ : EncoEdge)) ∧ servingLate.beryl.taps = [] ∧ servingLate.get
      CM_MARK_CFG_CTX ≠ servingLate.get CM_PIPE_STAT_CTX) ∧
    ((proofing true page0).core = CoreRun.running ∧ (proofing true page0).inRole = true ∧ (proofing true page0).c2Shed
      = false ∧ List.find? (fun r => r.job == 2 && r.page == 1 && !r.compared && gapGet r.set PG_PROOF_MODE == 2)
      (proofing true page0).scan.runs = some (proofRun true page0) ∧ (State.advance 100 (proofing true page0)).proofDue
      (proofRun true page0) ≤ (State.advance 100 (proofing true page0)).qPu ∧ (proofRun true page0).proofBad = true) ∧
    ((proofing false page0).core = CoreRun.running ∧ (proofing false page0).inRole = true ∧ (proofing false
      page0).c2Shed = false ∧ List.find? (fun r => r.job == 2 && r.page == 1 && !r.compared && gapGet r.set
      PG_PROOF_MODE == 2) (proofing false page0).scan.runs = some (proofRun false page0) ∧ (State.advance 100 (proofing
      false page0)).proofDue (proofRun false page0) ≤ (State.advance 100 (proofing false page0)).qPu ∧ (proofRun false
      page0).proofBad = false ∧ (proofRun false page0).proofLayers = []) ∧
    (compared.core = CoreRun.running ∧ compared.inRole = true ∧ compared.c2Shed = false ∧ List.find? (fun r => r.job
      == 2 && r.page == 1 && !r.compared && gapGet r.set PG_PROOF_MODE == 2) compared.scan.runs = some (proofRun false
      page4) ∧ (State.advance 100 compared).proofDue (proofRun false page4) ≤ (State.advance 100 compared).qPu ∧
      (proofRun false page4).proofBad = false ∧ (proofRun false page4).proofLayers = [4] ∧ List.find? (fun x => x.isOf
      (proofRun false page4) 4) compared.cam.rects = some (rectA 0 9) ∧ compared.rectSeen (rectA 0 9) = true ∧
      List.find? (fun x => x.layer == (rectA 0 9).layer) compared.cam.lastRects = some (rectA 0 9) ∧ (rectA 0 9).ord =
      (rectA 0 9).ord ∧ ((rectA 0 9).x, (rectA 0 9).w, (rectA 0 9).y, (rectA 0 9).h) = ((rectA 0 9).x, (rectA 0 9).w,
      (rectA 0 9).y, (rectA 0 9).h) ∧ changedTiles (compared.get CM_PROOF_CFG_DELTA) (rectA 0 9) (rectA 0 9) <
      compared.get CM_PROOF_CFG_MIN_TILES ∧ compared.get CM_PROOF_CFG_FAIL_WASTE = 0) := by
  repeat' apply And.intro
  all_goals decide +kernel

/-- The hypotheses of each clause of BerylSteps are met. -/
theorem meets_BerylSteps :
    (observed.core = CoreRun.running ∧ observed.cam.obs = [(⟨0, 64, 9, 3⟩ : ObsLine), (⟨64, 64, 9, 4⟩ : ObsLine)] ∧
      observed.inRole = true ∧ observed.c2Shed = false ∧ List.find? (fun t => t.jobId == (⟨0, 64, 9, 3⟩ : ObsLine).jobId
      && t.first == (⟨0, 64, 9, 3⟩ : ObsLine).first) observed.beryl.taps = none) ∧
    (matching.core = CoreRun.running ∧ matching.cam.obs = [(⟨0, 64, 5, 12⟩ : ObsLine)] ∧ matching.inRole = true ∧
      matching.c2Shed = false ∧ List.find? (fun t => t.jobId == (⟨0, 64, 5, 12⟩ : ObsLine).jobId && t.first == (⟨0, 64,
      5, 12⟩ : ObsLine).first) matching.beryl.taps.reverse = some tap9 ∧ matching.runOf tap9.ord tap9.page = some run0 ∧
      tap9.unfit = false ∧ run0.spanStrip tap9 ≠ some none ∧ matching.beryl.winTaps = 0 ∧ tap9.matched = false) ∧
    (matchingAgain.core = CoreRun.running ∧ matchingAgain.cam.obs = [(⟨0, 64, 5, 12⟩ : ObsLine)] ∧
      matchingAgain.inRole = true ∧ matchingAgain.c2Shed = false ∧ List.find? (fun t => t.jobId == (⟨0, 64, 5, 12⟩ :
      ObsLine).jobId && t.first == (⟨0, 64, 5, 12⟩ : ObsLine).first) matchingAgain.beryl.taps.reverse = some tapMatched
      ∧ matchingAgain.runOf tapMatched.ord tapMatched.page = some run0 ∧ tapMatched.unfit = false ∧ run0.spanStrip
      tapMatched ≠ some none ∧ matchingAgain.beryl.winTaps ≠ 0 ∧ tapMatched.matched = true ∧ matchingAgain.beryl.winOrd
      = run0.ord ∧ matchingAgain.beryl.winGen = run0.sensGen) ∧
    ((windowing 1).core = CoreRun.running ∧ (windowing 1).beryl.winTaps ≠ 0 ∧ (State.advance 30000000 (windowing
      1)).past (windowing 1).beryl.winAt 20000000 = true ∧ (windowing 1).inRole = true ∧ (windowing 1).c2Shed = false) ∧
    ((windowing 1).core = CoreRun.running ∧ (windowing 1).beryl.winTaps ≠ 0 ∧ (State.advance 30000000 (windowing
      1)).past (windowing 1).beryl.winAt 20000000 = true ∧ (windowing 1).inRole = true ∧ (windowing 1).c2Shed = false ∧
      (windowing 1).beryl.winGen ≠ (windowing 1).beryl.gen ∧ (∀ (x : Nat), x ∈ (windowing 1).accCols → ((windowing
      1).colAcc x).gen = (windowing 1).beryl.gen % 256 → ((windowing 1).colAcc x).peak < ↑((windowing 1).get
      BY_EXC_MIN_EXC_MIN))) ∧
    ((windowing 0).core = CoreRun.running ∧ (windowing 0).beryl.winTaps ≠ 0 ∧ (State.advance 30000000 (windowing
      0)).past (windowing 0).beryl.winAt 20000000 = true ∧ (windowing 0).inRole = true ∧ (windowing 0).c2Shed = false ∧
      (windowing 0).beryl.winGen = (windowing 0).beryl.gen ∧ (windowing 0).beryl.win = [winOne] ∧ ((windowing 0).colAcc
      winOne.col).gen = (windowing 0).beryl.gen % 256 ∧ ((windowing 0).colAcc winOne.col).add winOne 17 = some colAdded
      ∧ colAdded.peak < ↑((windowing 0).get BY_EXC_MIN_EXC_MIN) ∧ (∀ (x : Nat), x ∈ (windowing 0).accCols → x ≠
      winOne.col → ((windowing 0).colAcc x).gen = (windowing 0).beryl.gen % 256 → ((windowing 0).colAcc x).peak <
      ↑((windowing 0).get BY_EXC_MIN_EXC_MIN))) ∧
    ((solving 1).core = CoreRun.running ∧ (solving 1).beryl.queue = [(7, 1), (9, 1)] ∧ (solving 1).authoritative =
      true ∧ (solving 1).get BY_STAT_NOCAM = 0 ∧ (solving 1).c2Shed = false ∧ 7 < 2 ^ 20 ∧ ((solving 1).colAcc 7).gen ≠
      (solving 1).beryl.gen % 256) ∧
    ((solving 0).core = CoreRun.running ∧ (solving 0).beryl.queue = [(7, 1), (9, 1)] ∧ (solving 0).authoritative =
      true ∧ (solving 0).get BY_STAT_NOCAM = 0 ∧ (solving 0).c2Shed = false ∧ 7 < 2 ^ 20 ∧ ((solving 0).colAcc 7).gen =
      (solving 0).beryl.gen % 256) ∧
    (solvingIn.core = CoreRun.running ∧ solvingIn.beryl.queue = [(7, 1), (9, 1)] ∧ solvingIn.authoritative = true ∧
      solvingIn.get BY_STAT_NOCAM = 0 ∧ solvingIn.c2Shed = false ∧ 7 < 2 ^ 20 ∧ (solvingIn.colAcc 7).gen =
      solvingIn.beryl.gen % 256) ∧
    (decaying.core = CoreRun.running ∧ decaying.authoritative = true ∧ (State.advance 10000000005 decaying).past
      decaying.beryl.decayAt 10000000000 = true ∧ decaying.canonical = true ∧ (∀ (p : Nat × Word), p ∈ decaying.words →
      p.fst % 4 = 0)) ∧
    (agedWhite.core = CoreRun.running ∧ agedWhite.white 7 = some (⟨7, [1, 2, 3, 4], 10, false, false⟩ : WhiteCol) ∧
      (⟨7, [1, 2, 3, 4], 10, false, false⟩ : WhiteCol).stale = false ∧ agedWhite.inRole = true ∧ (State.advance (10 ^
      12) agedWhite).past (⟨7, [1, 2, 3, 4], 10, false, false⟩ : WhiteCol).at_ (agedWhite.get BY_WHITE_CFG_MAX_S *
      1000000000) = true) ∧
    (cycling.core = CoreRun.running ∧ 7 < 8 ∧ 7 < cycling.beryl.bars.length ∧ cycling.authoritative = true ∧
      cycling.berylOn 7 = true ∧ cycling.bitOf BY_STAT_CYCLE 7 = false ∧ cycling.get (SC_BAR_APPLY_CTRL_PENDING 7) = 0 ∧
      cycling.get (SC_BAR_APPLY_CTRL_COPY_BUSY 7) = 0 ∧ (State.advance (10 ^ 12) cycling).past (cycling.byBar 7).cycleAt
      (cycling.get BY_APPLY_CFG_APPLY_MS * 1000000) = true) := by
  repeat' apply And.intro
  all_goals decide +kernel

/-- The hypotheses of each clause of FramesRefused are met. -/
theorem meets_FramesRefused :
    ((pairLink Base.active).core = CoreRun.running ∧ (⟨Arrival.cut, 1, 2⟩ : RelHdr).arrival = Arrival.cut) ∧
    ((pairLink Base.active).core = CoreRun.running ∧ (⟨Arrival.bad, 1, 2⟩ : RelHdr).arrival = Arrival.bad) ∧
    ((paired Base.active).core = CoreRun.running ∧ (⟨Arrival.good, 1, 2⟩ : RelHdr).arrival = Arrival.good ∧ (paired
      Base.active).linkUp = false) ∧
    ((pairLink Base.active).core = CoreRun.running ∧ (⟨Arrival.good, 1, 2⟩ : RelHdr).arrival = Arrival.good ∧
      (pairLink Base.active).linkUp = true ∧ (⟨Arrival.good, 1, 2⟩ : RelHdr).fseq ≠ (pairLink Base.active).pair.fseqRx) ∧
    ((pairLink Base.standby).core = CoreRun.running ∧ (⟨Arrival.good, 1, 2⟩ : RelHdr).arrival = Arrival.good ∧
      (pairLink Base.standby).linkUp = true ∧ (⟨Arrival.good, 1, 2⟩ : RelHdr).fseq ≠ (pairLink
      Base.standby).pair.fseqRx) ∧
    ((pairLink Base.standby).core = CoreRun.running ∧ (⟨Arrival.good, 1, 2⟩ : RelHdr).arrival = Arrival.good ∧
      (pairLink Base.standby).linkUp = true ∧ (⟨Arrival.good, 1, 2⟩ : RelHdr).fseq ≠ (pairLink
      Base.standby).pair.fseqRx) ∧
    ((∃ hb, (fun (t : Nat) (h : RelHdr) => Instr.ecnalHb t 5 h.arrival hb0) = fun t h => .ecnalHb t 5 h.arrival hb) ∧
      (∃ x, (fun (t : Nat) (h : RelHdr) => Instr.hello t h.arrival (hello0 1)) = fun t h => .hello t h.arrival x) ∧ (∃
      k, (fun (t : Nat) (h : RelHdr) => Instr.ecnalAck t h.arrival ack0) = fun t h => .ecnalAck t h.arrival k) ∧ (∃ tick
      part parts entries, (fun (t : Nat) (h : RelHdr) => Instr.tsFrame t h 3 0 1 []) = fun t h => .tsFrame t h tick part
      parts entries) ∧ (∃ items, (fun (t : Nat) (h : RelHdr) => Instr.digestFrame t h []) = fun t h => .digestFrame t h
      items) ∧ ∃ tick obj, (fun (t : Nat) (h : RelHdr) => Instr.resyncFrame t h 3 (.last 9)) = fun t h => .resyncFrame t
      h tick obj) :=
  ⟨by decide +kernel, by decide +kernel, by decide +kernel, by decide +kernel, by decide +kernel, by decide +kernel,
    ⟨⟨hb0, rfl⟩, ⟨hello0 1, rfl⟩, ⟨ack0, rfl⟩, ⟨3, 0, 1, [], rfl⟩, ⟨[], rfl⟩, ⟨3, .last 9, rfl⟩⟩⟩

/-- The hypotheses of each clause of ReliableFrames are met. -/
theorem meets_ReliableFrames :
    ((pairLink Base.active).core = CoreRun.running ∧ (pairLink Base.active).linkUp = true ∧ (inOrder 0).arrival =
      Arrival.good ∧ (inOrder 0).fseq = (pairLink Base.active).pair.fseqRx ∧ (pairLink Base.active).goodStandby = false
      ∧ (pairLink Base.active).joining = false) ∧
    ((pairLink Base.active).core = CoreRun.running ∧ (pairLink Base.active).linkUp = true ∧ (inOrder 0).arrival =
      Arrival.good ∧ (inOrder 0).fseq = (pairLink Base.active).pair.fseqRx ∧ (pairLink Base.active).joining = false) ∧
    (gathering.core = CoreRun.running ∧ gathering.linkUp = true ∧ (inOrder 0).arrival = Arrival.good ∧ (inOrder
      0).fseq = gathering.pair.fseqRx ∧ gathering.joining = true ∧ gathering.joined = false ∧ gathering.pair.t0 = some
      ((State.advance 100 gathering).tickOf 3)) ∧
    (joiningNow.core = CoreRun.running ∧ joiningNow.linkUp = true ∧ (inOrder 0).arrival = Arrival.good ∧ (inOrder
      0).fseq = joiningNow.pair.fseqRx ∧ joiningNow.joining = true ∧ joiningNow.joined = false ∧ (∀ (k : Nat),
      ResyncObj.waste [] [] ≠ ResyncObj.last k) ∧ (∀ (c : Nat), ResyncObj.waste [] [] ≠ ResyncObj.part c) ∧
      joiningNow.pair.t0 ≠ some ((State.advance 100 joiningNow).tickOf 3)) ∧
    (gathering.core = CoreRun.running ∧ gathering.linkUp = true ∧ (inOrder 0).arrival = Arrival.good ∧ (inOrder
      0).fseq = gathering.pair.fseqRx ∧ gathering.joining = true ∧ gathering.joined = false ∧ (∀ (k : Nat),
      ResyncObj.waste [] [] ≠ ResyncObj.last k) ∧ (∀ (c : Nat), ResyncObj.waste [] [] ≠ ResyncObj.part c) ∧
      gathering.pair.t0 = some ((State.advance 100 gathering).tickOf 3)) ∧
    (gathering.core = CoreRun.running ∧ gathering.linkUp = true ∧ (inOrder 0).arrival = Arrival.good ∧ (inOrder
      0).fseq = gathering.pair.fseqRx ∧ gathering.joining = true ∧ gathering.joined = false ∧ gathering.pair.t0 = some
      ((State.advance 100 gathering).tickOf 3) ∧ gathering.pair.objs = [ResyncObj.banks 7 [(liveWin 7, 5), (shadowWin 7
      + 393212, 9)]] ∧ gathering.pair.framesRx = 1 ∧ gathering.pair.copies = [] ∧ gathering.canonical = true ∧ 7 < 8 ∧
      (List.map (fun x => x.fst) [(liveWin 7, 5), (shadowWin 7 + 393212, 9)]).Nodup ∧ (∀ (v : Nat × Nat), v ∈ [(liveWin
      7, 5), (shadowWin 7 + 393212, 9)] → v.snd < 2 ^ 32 ∧ ∃ w, w ∈ bankWins 7 ∧ w.fst ≤ v.fst ∧ v.fst < w.fst + w.snd)) ∧
    ((joiningNow.put PR_STAT_RESYNC_PHASE 4).core = CoreRun.running ∧ (joiningNow.put PR_STAT_RESYNC_PHASE 4).linkUp =
      true ∧ (inOrder 0).arrival = Arrival.good ∧ (inOrder 0).fseq = (joiningNow.put PR_STAT_RESYNC_PHASE 4).pair.fseqRx
      ∧ (joiningNow.put PR_STAT_RESYNC_PHASE 4).joining = true ∧ (joiningNow.put PR_STAT_RESYNC_PHASE 4).joined = true ∧
      (joiningNow.put PR_STAT_RESYNC_PHASE 4).pair.anchored = false ∧ motion0.edgeAt = none ∧ motion0.lost = false) ∧
    ((pairLink Base.standby).core = CoreRun.running ∧ (pairLink Base.standby).linkUp = true ∧ (inOrder 0).arrival =
      Arrival.good ∧ (inOrder 0).fseq = (pairLink Base.standby).pair.fseqRx ∧ (pairLink Base.standby).goodStandby = true
      ∧ (pairLink Base.standby).joining = false ∧ (pairLink Base.standby).pair.copies = [] ∧ (pairLink
      Base.standby).tb.newIncr = none ∧ (pairLink Base.standby).tb.adj = none ∧ (∀ (l : Nat), l < 96 → (((pairLink
      Base.standby).laneSt l).ctl.any fun x => x.copies == 0) = false) ∧ 3 < 4 ∧ 2 ^ 32 - 1 < 2 ^ 32 ∧ 5 < 2 ^ 32) ∧
    (((pairLink Base.standby).floorRaise 3 (2 ^ 64 - 1)).core = CoreRun.running ∧ ((pairLink Base.standby).floorRaise
      3 (2 ^ 64 - 1)).linkUp = true ∧ (inOrder 0).arrival = Arrival.good ∧ (inOrder 0).fseq = ((pairLink
      Base.standby).floorRaise 3 (2 ^ 64 - 1)).pair.fseqRx ∧ ((pairLink Base.standby).floorRaise 3 (2 ^ 64 -
      1)).goodStandby = true ∧ ((pairLink Base.standby).floorRaise 3 (2 ^ 64 - 1)).joining = false ∧ ((pairLink
      Base.standby).floorRaise 3 (2 ^ 64 - 1)).pair.copies = [] ∧ ((pairLink Base.standby).floorRaise 3 (2 ^ 64 -
      1)).tb.newIncr = none ∧ ((pairLink Base.standby).floorRaise 3 (2 ^ 64 - 1)).tb.adj = none ∧ (∀ (l : Nat), l < 96 →
      ((((pairLink Base.standby).floorRaise 3 (2 ^ 64 - 1)).laneSt l).ctl.any fun x => x.copies == 0) = false) ∧ 3 < 4 ∧
      2 ^ 32 - 1 < 2 ^ 32 ∧ 5 < 2 ^ 32) ∧
    (standbySlot.core = CoreRun.running ∧ standbySlot.linkUp = true ∧ (inOrder 0).arrival = Arrival.good ∧ (inOrder
      0).fseq = standbySlot.pair.fseqRx ∧ (standbySlot.surf (digest (crc32c solid)).surf (digest (crc32c
      solid)).gen).isSome = true ∧ (standbySlot.slotOf (digest (crc32c solid)).surf (digest (crc32c solid)).gen (digest
      (crc32c solid)).slot).state = stStored ∧ (digest (crc32c solid)).len = (standbySlot.slotOf (digest (crc32c
      solid)).surf (digest (crc32c solid)).gen (digest (crc32c solid)).slot).len ∧ (digest (crc32c solid)).digest =
      (standbySlot.slotOf (digest (crc32c solid)).surf (digest (crc32c solid)).gen (digest (crc32c solid)).slot).digest) ∧
    (standbySlot.core = CoreRun.running ∧ standbySlot.linkUp = true ∧ (inOrder 0).arrival = Arrival.good ∧ (inOrder
      0).fseq = standbySlot.pair.fseqRx ∧ (standbySlot.surf (digest 5).surf (digest 5).gen).isSome = true ∧
      (standbySlot.slotOf (digest 5).surf (digest 5).gen (digest 5).slot).state = stStored ∧ (digest 5).digest ≠
      (standbySlot.slotOf (digest 5).surf (digest 5).gen (digest 5).slot).digest) ∧
    (unackedS.core = CoreRun.running ∧ unackedS.linkUp = true ∧ unackedS.pair.waiting = [] ∧ unackedS.base ≠
      Base.active) ∧
    (roomless.core = CoreRun.running ∧ roomless.linkUp = true ∧ roomless.pair.waiting = [(4, RelBody.digest [])] ∧
      roomless.base ≠ Base.active ∧ roomless.pair.unacked.length = 129 ∧ (roomless.pair.unacked.any fun f => later 32
      ack0.nextFseq f.fseq) = true) ∧
    (roomlessTs.core = CoreRun.running ∧ roomlessTs.linkUp = true ∧ List.Pairwise (fun x1 x2 => x1 ≤ x2) (List.map
      (fun x => x.fst) roomlessTs.pair.waiting) ∧ 128 < roomlessTs.pair.unacked.length) ∧
    (roomlessTs.core = CoreRun.running ∧ roomlessTs.linkUp = true ∧ List.Pairwise (fun x1 x2 => x1 ≤ x2) (List.map
      (fun x => x.fst) roomlessTs.pair.waiting) ∧ 128 < roomlessTs.pair.unacked.length) ∧
    (unackedS.core = CoreRun.running ∧ unackedS.linkUp = true ∧ unackedS.pair.unacked ≠ [] ∧ (State.advance 20000
      unackedS).past unackedS.pair.ackAdvAt 20000 = true) := by
  repeat' apply And.intro
  all_goals first | decide +kernel | (intro _ h; cases h)

/-- The hypotheses of each clause of HeartbeatsAndHellos are met. -/
theorem meets_HeartbeatsAndHellos :
    ((pairLink Base.active).core = CoreRun.running ∧ (pairLink Base.active).linkUp = true ∧ (pairLink
      Base.active).inPair = true ∧ (pairLink Base.active).pair.yieldUntil = none ∧ (pairLink Base.active).pair.hbAt ≤
      (State.advance 20000 (pairLink Base.active)).now / 10000 ∧ (∀ (el : Nat), el < 4 → (pairLink Base.active).tstate
      (96 + el) ≠ tsTimelock)) ∧
    ((syncing []).core = CoreRun.running ∧ (syncing []).linkUp = true ∧ 3 < 4 ∧ 96 + 3 < (syncing []).lanes.length ∧
      (syncing []).tstate (96 + 3) = tsTimelock ∧ (syncing []).pair.yieldUntil = none) ∧
    (missing.core = CoreRun.running ∧ missing.linkUp = true ∧ missing.inPair = true ∧ missing.pair.lastHb ≠ 0 ∧
      missing.pair.partnerUp = false ∧ missing.pair.missed ≤ (missing.now - missing.pair.lastHb) / 10000) ∧
    ((pairLink Base.active).core = CoreRun.running ∧ (pairLink Base.active).linkUp = true ∧ bit hb0.flags 9 = false ∧
      bit hb0.flags 10 = false ∧ bit hb0.flags 11 = false ∧ hb0.items = [] ∧ (pairLink Base.active).pair.partnerJoining
      = false ∧ (pairLink Base.active).pair.lastHb = 0 ∧ (bit hb0.flags 4 = true → (pairLink Base.active).followed =
      false)) ∧
    (followedNow.core = CoreRun.running ∧ followedNow.linkUp = true ∧ (bit (let __src := hb0; (⟨__src.claim,
      __src.hbSeq, __src.tTx, __src.rxSeq, __src.tRx, hb0.flags + 16, __src.tick, __src.items⟩ : HbFrame)).flags 4 =
      true) ∧ (bit (let __src := hb0; (⟨__src.claim, __src.hbSeq, __src.tTx, __src.rxSeq, __src.tRx, hb0.flags + 16,
      __src.tick, __src.items⟩ : HbFrame)).flags 9 = false) ∧ (bit (let __src := hb0; (⟨__src.claim, __src.hbSeq,
      __src.tTx, __src.rxSeq, __src.tRx, hb0.flags + 16, __src.tick, __src.items⟩ : HbFrame)).flags 10 = false) ∧ (bit
      (let __src := hb0; (⟨__src.claim, __src.hbSeq, __src.tTx, __src.rxSeq, __src.tRx, hb0.flags + 16, __src.tick,
      __src.items⟩ : HbFrame)).flags 11 = false) ∧ ((let __src := hb0; (⟨__src.claim, __src.hbSeq, __src.tTx,
      __src.rxSeq, __src.tRx, hb0.flags + 16, __src.tick, __src.items⟩ : HbFrame)).items = []) ∧ followedNow.followed =
      true ∧ followedNow.is PR_STAT_CONTEST = false ∧ followedNow.pair.partnerJoining = false) ∧
    (helloing.core = CoreRun.running ∧ helloing.linkUp = true ∧ helloing.pair.helloOn = true ∧ helloing.pair.helloAt ≤
      (State.advance 20000 helloing).now) ∧
    (helloing.core = CoreRun.running ∧ helloing.linkUp = true ∧ helloing.pair.helloRx = 0) ∧
    ((helloTwice false).core = CoreRun.running ∧ (helloTwice false).linkUp = true ∧ (helloTwice false).pair.helloRx =
      1 ∧ (helloTwice false).base = Base.pairing ∧ (helloTwice false).joining = false ∧ (hello0 1).role = 0 ∧ (hello0
      1).unit = 1 ∧ (helloTwice false).unitId = false) ∧
    ((helloTwice true).core = CoreRun.running ∧ (helloTwice true).linkUp = true ∧ (helloTwice true).pair.helloRx = 1 ∧
      (helloTwice true).base = Base.pairing ∧ (helloTwice true).joining = false ∧ (hello0 0).role = 0 ∧ (hello0 0).unit
      = 0 ∧ (helloTwice true).unitId = true) ∧
    ((helloTwice true).core = CoreRun.running ∧ (helloTwice true).linkUp = true ∧ (helloTwice true).pair.helloRx = 1 ∧
      (helloTwice true).base = Base.pairing ∧ (helloTwice true).joining = false ∧ (hello0 1).role = 0 ∧ (hello0 1).unit
      = b2n (helloTwice true).unitId ∧ (helloTwice true).pair.clash = false) ∧
    (((syncing [5, 6]).modLane 99 fun x => (⟨x.since, x.ts1, x.ts2, x.ts2Sent, x.farRates, x.farPreset, x.eqMine,
      x.eqFar, x.eyeOk, x.identOk, x.sawSignal, x.lock, x.failRun, x.silentRun, x.backoff, x.fromAbsent, x.readyAt,
      x.lastTx, x.lastUse, x.lowAt, x.exitAt, x.exitL2, x.eiSent, x.heads, x.depth, x.idents, x.tsId, x.tsOut, x.rtts,
      x.tsyncAt, x.terrRun, x.ctl, x.statAt, x.statGot, x.bufFill, x.tempSeen, x.emptyPage, x.marginRaised, x.els, 3,
      x.skew, x.retimeAt⟩ : LaneSt)).core = CoreRun.running ∧ ((syncing [5, 6]).modLane 99 fun x => (⟨x.since, x.ts1,
      x.ts2, x.ts2Sent, x.farRates, x.farPreset, x.eqMine, x.eqFar, x.eyeOk, x.identOk, x.sawSignal, x.lock, x.failRun,
      x.silentRun, x.backoff, x.fromAbsent, x.readyAt, x.lastTx, x.lastUse, x.lowAt, x.exitAt, x.exitL2, x.eiSent,
      x.heads, x.depth, x.idents, x.tsId, x.tsOut, x.rtts, x.tsyncAt, x.terrRun, x.ctl, x.statAt, x.statGot, x.bufFill,
      x.tempSeen, x.emptyPage, x.marginRaised, x.els, 3, x.skew, x.retimeAt⟩ : LaneSt)).linkUp = true ∧ 3 < 4 ∧ 96 + 3 <
      ((syncing [5, 6]).modLane 99 fun x => (⟨x.since, x.ts1, x.ts2, x.ts2Sent, x.farRates, x.farPreset, x.eqMine,
      x.eqFar, x.eyeOk, x.identOk, x.sawSignal, x.lock, x.failRun, x.silentRun, x.backoff, x.fromAbsent, x.readyAt,
      x.lastTx, x.lastUse, x.lowAt, x.exitAt, x.exitL2, x.eiSent, x.heads, x.depth, x.idents, x.tsId, x.tsOut, x.rtts,
      x.tsyncAt, x.terrRun, x.ctl, x.statAt, x.statGot, x.bufFill, x.tempSeen, x.emptyPage, x.marginRaised, x.els, 3,
      x.skew, x.retimeAt⟩ : LaneSt)).lanes.length ∧ ((syncing [5, 6]).modLane 99 fun x => (⟨x.since, x.ts1, x.ts2,
      x.ts2Sent, x.farRates, x.farPreset, x.eqMine, x.eqFar, x.eyeOk, x.identOk, x.sawSignal, x.lock, x.failRun,
      x.silentRun, x.backoff, x.fromAbsent, x.readyAt, x.lastTx, x.lastUse, x.lowAt, x.exitAt, x.exitL2, x.eiSent,
      x.heads, x.depth, x.idents, x.tsId, x.tsOut, x.rtts, x.tsyncAt, x.terrRun, x.ctl, x.statAt, x.statGot, x.bufFill,
      x.tempSeen, x.emptyPage, x.marginRaised, x.els, 3, x.skew, x.retimeAt⟩ : LaneSt)).tstate (96 + 3) = tsTimelock ∧
      (((syncing [5, 6]).modLane 99 fun x => (⟨x.since, x.ts1, x.ts2, x.ts2Sent, x.farRates, x.farPreset, x.eqMine,
      x.eqFar, x.eyeOk, x.identOk, x.sawSignal, x.lock, x.failRun, x.silentRun, x.backoff, x.fromAbsent, x.readyAt,
      x.lastTx, x.lastUse, x.lowAt, x.exitAt, x.exitL2, x.eiSent, x.heads, x.depth, x.idents, x.tsId, x.tsOut, x.rtts,
      x.tsyncAt, x.terrRun, x.ctl, x.statAt, x.statGot, x.bufFill, x.tempSeen, x.emptyPage, x.marginRaised, x.els, 3,
      x.skew, x.retimeAt⟩ : LaneSt)).laneSt (96 + 3)).els.length ≠ 15 ∧ (∀ (k : Nat), k < 4 → ((syncing [5, 6]).modLane
      99 fun x => (⟨x.since, x.ts1, x.ts2, x.ts2Sent, x.farRates, x.farPreset, x.eqMine, x.eqFar, x.eyeOk, x.identOk,
      x.sawSignal, x.lock, x.failRun, x.silentRun, x.backoff, x.fromAbsent, x.readyAt, x.lastTx, x.lastUse, x.lowAt,
      x.exitAt, x.exitL2, x.eiSent, x.heads, x.depth, x.idents, x.tsId, x.tsOut, x.rtts, x.tsyncAt, x.terrRun, x.ctl,
      x.statAt, x.statGot, x.bufFill, x.tempSeen, x.emptyPage, x.marginRaised, x.els, 3, x.skew, x.retimeAt⟩ :
      LaneSt)).tstate (96 + k) = tsTimelock → min 16 (((State.advance 20000 ((syncing [5, 6]).modLane 99 fun x =>
      (⟨x.since, x.ts1, x.ts2, x.ts2Sent, x.farRates, x.farPreset, x.eqMine, x.eqFar, x.eyeOk, x.identOk, x.sawSignal,
      x.lock, x.failRun, x.silentRun, x.backoff, x.fromAbsent, x.readyAt, x.lastTx, x.lastUse, x.lowAt, x.exitAt,
      x.exitL2, x.eiSent, x.heads, x.depth, x.idents, x.tsId, x.tsOut, x.rtts, x.tsyncAt, x.terrRun, x.ctl, x.statAt,
      x.statGot, x.bufFill, x.tempSeen, x.emptyPage, x.marginRaised, x.els, 3, x.skew, x.retimeAt⟩ : LaneSt))).now -
      (((syncing [5, 6]).modLane 99 fun x => (⟨x.since, x.ts1, x.ts2, x.ts2Sent, x.farRates, x.farPreset, x.eqMine,
      x.eqFar, x.eyeOk, x.identOk, x.sawSignal, x.lock, x.failRun, x.silentRun, x.backoff, x.fromAbsent, x.readyAt,
      x.lastTx, x.lastUse, x.lowAt, x.exitAt, x.exitL2, x.eiSent, x.heads, x.depth, x.idents, x.tsId, x.tsOut, x.rtts,
      x.tsyncAt, x.terrRun, x.ctl, x.statAt, x.statGot, x.bufFill, x.tempSeen, x.emptyPage, x.marginRaised, x.els, 3,
      x.skew, x.retimeAt⟩ : LaneSt)).laneSt (96 + k)).since) / 10000 + 1) ≤ (((syncing [5, 6]).modLane 99 fun x =>
      (⟨x.since, x.ts1, x.ts2, x.ts2Sent, x.farRates, x.farPreset, x.eqMine, x.eqFar, x.eyeOk, x.identOk, x.sawSignal,
      x.lock, x.failRun, x.silentRun, x.backoff, x.fromAbsent, x.readyAt, x.lastTx, x.lastUse, x.lowAt, x.exitAt,
      x.exitL2, x.eiSent, x.heads, x.depth, x.idents, x.tsId, x.tsOut, x.rtts, x.tsyncAt, x.terrRun, x.ctl, x.statAt,
      x.statGot, x.bufFill, x.tempSeen, x.emptyPage, x.marginRaised, x.els, 3, x.skew, x.retimeAt⟩ : LaneSt)).laneSt (96
      + k)).elsTx)) ∧
    ((syncing (List.replicate 15 7)).core = CoreRun.running ∧ (syncing (List.replicate 15 7)).linkUp = true ∧ 3 < 4 ∧
      96 + 3 < (syncing (List.replicate 15 7)).lanes.length ∧ (syncing (List.replicate 15 7)).tstate (96 + 3) =
      tsTimelock ∧ ((syncing (List.replicate 15 7)).laneSt (96 + 3)).els = List.replicate 15 7 ∧ 7 = 7 ∧ (-64).natAbs ≤
      64) ∧
    ((syncing (List.replicate 15 7)).core = CoreRun.running ∧ (syncing (List.replicate 15 7)).linkUp = true ∧ 3 < 4 ∧
      96 + 3 < (syncing (List.replicate 15 7)).lanes.length ∧ (syncing (List.replicate 15 7)).tstate (96 + 3) =
      tsTimelock ∧ ((syncing (List.replicate 15 7)).laneSt (96 + 3)).els.length = 15 ∧ 64 < (-65).natAbs) := by
  repeat' apply And.intro
  all_goals decide +kernel

/-- The hypotheses of each clause of RolesChange are met. -/
theorem meets_RolesChange :
    ((partnered Base.standby).core = CoreRun.running ∧ (partnered Base.standby).pair.partnerUp = true ∧ (State.advance
      30005 (partnered Base.standby)).past (partnered Base.standby).pair.lastHb 30000 = true ∧ (partnered
      Base.standby).goodStandby = true ∧ (partnered Base.standby).joining = false) ∧
    ((partnered Base.active).core = CoreRun.running ∧ (partnered Base.active).pair.partnerUp = true ∧ (State.advance
      30005 (partnered Base.active)).past (partnered Base.active).pair.lastHb 30000 = true ∧ (partnered
      Base.active).base = Base.active) ∧
    ((paired Base.standby).core = CoreRun.running ∧ (paired Base.standby).goodStandby = true ∧ (paired
      Base.standby).joining = false ∧ (State.advance 450000 (paired Base.standby)).past ((State.advance 450000 (paired
      Base.standby)).tick * 250000) 200000 = true ∧ (paired Base.standby).pair.appliedTick < (State.advance 450000
      (paired Base.standby)).tick) ∧
    ((partnered Base.active).core = CoreRun.running ∧ (partnered Base.active).base = Base.active ∧ (partnered
      Base.active).pair.partnerUp = true ∧ (partnered Base.active).pair.partnerJoining = false ∧ (partnered
      Base.active).pair.staleYou = false ∧ (partnered Base.active).pair.acked = false ∧ (State.advance 450000 (partnered
      Base.active)).past (partnered Base.active).pair.sentAt 200000 = true) ∧
    ((paired Base.pairing).core = CoreRun.running ∧ (paired Base.pairing).base = Base.pairing ∧ (paired
      Base.pairing).joining = false ∧ (paired Base.pairing).pair.clash = false ∧ (paired Base.pairing).pair.helloMet < 2
      ∧ (State.advance 100000000000 (paired Base.pairing)).past (paired Base.pairing).pair.pairAt ((paired
      Base.pairing).get PR_CFG_PAIR_TMO_MS * 1000000) = true) ∧
    (contest.core = CoreRun.running ∧ contest.is PR_STAT_CONTEST = true ∧ contest.running = none ∧ (∀ (l : Nat), l <
      96 → contest.ready l = false) ∧ (State.advance 1000000 contest).past contest.pair.contestAt 1000000 = true ∧
      contest.dcp.await = []) ∧
    ((switching Base.active true).core = CoreRun.running ∧ (switching Base.active true).pair.switchAt = some 500000 ∧
      (State.advance 960000 (switching Base.active true)).past 500000 460000 = true ∧ (switching Base.active true).base
      = Base.active ∧ (switching Base.active true).pair.acked = true ∧ (switching Base.active true).pair.sentTick =
      500000 / 250000 + 1 ∧ (switching Base.active true).dcp.held = []) ∧
    ((switching Base.standby true).core = CoreRun.running ∧ (switching Base.standby true).pair.switchAt = some 500000
      ∧ (State.advance 960000 (switching Base.standby true)).past 500000 460000 = true ∧ (switching Base.standby
      true).goodStandby = true ∧ 500000 / 250000 + 1 ≤ (switching Base.standby true).pair.appliedTick) ∧
    ((switching Base.active false).core = CoreRun.running ∧ (switching Base.active false).pair.switchAt = some 500000
      ∧ (State.advance 960000 (switching Base.active false)).past 500000 460000 = true ∧ (switching Base.active
      false).base = Base.active ∧ (switching Base.active false).pair.acked = false) := by
  repeat' apply And.intro
  all_goals decide +kernel

/-- The hypotheses of each clause of GarnetChecks are met. -/
theorem meets_GarnetChecks :
    ((chanBusy 17).core = CoreRun.running ∧ List.find? (fun x => x.seq == 4) ((chanBusy 17).chanLines 17) = some line3
      ∧ (chanBusy 17).garnetDue 17 line3.line = true ∧ line3.pchk = line3.pchk) ∧
    ((chanBusy 17).core = CoreRun.running ∧ List.find? (fun x => x.seq == 4) ((chanBusy 17).chanLines 17) = some line3
      ∧ (chanBusy 17).garnetDue 17 line3.line = true ∧ 1 ≠ line3.pchk ∧ (chanBusy 17).pair.focus = [] ∧ 17 < 128 ∧ 4 < 2
      ^ 24) ∧
    ((focused Base.single false).core = CoreRun.running ∧ List.find? (fun x => x.seq == 4) ((focused Base.single
      false).chanLines 5) = some line3 ∧ (focused Base.single false).garnetDue 5 line3.line = true ∧ 1 ≠ line3.pchk ∧
      (focused Base.single false).pair.focus = [(⟨5, 3, false⟩ : Focus)] ∧ (⟨5, 3, false⟩ : Focus).ch = 5 ∧ (⟨5, 3,
      false⟩ : Focus).fromMm = false ∧ (focused Base.single false).pair.focusWait = [] ∧ (focused Base.single
      false).base = Base.single ∧ (focused Base.single false).get AG_RP_STAT_MODE = 0) ∧
    ((focused Base.standby false).core = CoreRun.running ∧ List.find? (fun x => x.seq == 4) ((focused Base.standby
      false).chanLines 5) = some line3 ∧ (focused Base.standby false).garnetDue 5 line3.line = true ∧ 1 ≠ line3.pchk ∧
      (focused Base.standby false).pair.focus = [(⟨5, 3, false⟩ : Focus)] ∧ (⟨5, 3, false⟩ : Focus).ch = 5 ∧ (⟨5, 3,
      false⟩ : Focus).fromMm = false ∧ (focused Base.standby false).pair.focusWait = [] ∧ (focused Base.standby
      false).base = Base.standby) ∧
    ((focused Base.active false).core = CoreRun.running ∧ List.find? (fun x => x.seq == 4) ((focused Base.active
      false).chanLines 5) = some line3 ∧ (focused Base.active false).garnetDue 5 line3.line = true ∧ 1 ≠ line3.pchk ∧
      (focused Base.active false).pair.focus = [(⟨5, 3, false⟩ : Focus)] ∧ (⟨5, 3, false⟩ : Focus).ch = 5 ∧ (⟨5, 3,
      false⟩ : Focus).fromMm = false ∧ (focused Base.active false).pair.focusWait = [] ∧ (focused Base.active
      false).followed = true) ∧
    ((focused Base.active true).core = CoreRun.running ∧ List.find? (fun x => x.seq == 4) ((focused Base.active
      true).chanLines 5) = some line3 ∧ (focused Base.active true).garnetDue 5 line3.line = true ∧ 1 ≠ line3.pchk ∧
      (focused Base.active true).pair.focus = [(⟨5, 3, true⟩ : Focus)] ∧ (⟨5, 3, true⟩ : Focus).ch = 5 ∧ (⟨5, 3, true⟩ :
      Focus).fromMm = true ∧ (focused Base.active true).authoritative = true) ∧
    ((ending Base.active false).core = CoreRun.running ∧ (ending Base.active false).pair.focus = [(⟨5, 0, false⟩ :
      Focus)] ∧ (⟨5, 0, false⟩ : Focus).ch = 5 ∧ (⟨5, 0, false⟩ : Focus).left = 0 ∧ (⟨5, 0, false⟩ : Focus).fromMm =
      false ∧ (ending Base.active false).pair.focusWait = []) ∧
    ((ending Base.standby true).core = CoreRun.running ∧ (ending Base.standby true).pair.focus = [(⟨5, 0, true⟩ :
      Focus)] ∧ (⟨5, 0, true⟩ : Focus).ch = 5 ∧ (⟨5, 0, true⟩ : Focus).left = 0 ∧ (⟨5, 0, true⟩ : Focus).fromMm = true ∧
      (ending Base.standby true).pair.focusWait = [] ∧ (ending Base.standby true).base = Base.standby ∧ (ending
      Base.standby true).pair.mms = [] ∧ (ending Base.standby true).is PR_CFG_MM_LIMIT = true) := by
  repeat' apply And.intro
  all_goals decide +kernel

/-- The hypotheses of each clause of FiringInputs are met. -/
theorem meets_FiringInputs :
    ((up.put FS_BAR_EN_EN 255).core = CoreRun.running ∧ 7 < 8 ∧ (up.put FS_BAR_EN_EN 255).get (FS_BAR_STB_LIMIT 7) <
      2001 ∧ (up.put FS_BAR_EN_EN 255).get (FS_BAR_WD_TRIPPED 7) = 0) ∧
    ((up.put FS_BAR_EN_EN 255).core = CoreRun.running ∧ 7 < 8 ∧ 50 ≤ (up.put FS_BAR_EN_EN 255).get (FS_BAR_STB_LIMIT
      7)) ∧
    (pinHigh.core = CoreRun.running ∧ pinHigh.fire.inhPin = true) ∧
    (pinSafe.core = CoreRun.running ∧ pinSafe.get FS_INH_CFG_AUTO = 1 ∧ pinSafe.get FS_INH_CFG_REL_MS * 1000000 ≤
      1000000000 ∧ pinSafe.get (⟨FS_SAFE_STAT, 4, 0⟩ : Fld) = 1 ∧ pinSafe.pair.clash = false ∧ pinSafe.get
      FS_SAFE_STAT_SAFE = 1) ∧
    ((pinSafe.put FS_INH_CFG_AUTO 0).core = CoreRun.running ∧ (pinSafe.put FS_INH_CFG_AUTO 0).get FS_INH_CFG_AUTO = 0) := by
  repeat' apply And.intro
  all_goals decide +kernel

/-- The hypotheses of each clause of IdentityJudged are met. -/
theorem meets_IdentityJudged :
    (establishing.core = CoreRun.running ∧ 3 < 96 ∧ 3 < establishing.lanes.length ∧ establishing.tstate 3 =
      tsEstablish ∧ (establishing.laneSt 3).identOk = false ∧ (establishing.laneSt 3).idents = [] ∧ 1 ≤ (identRec
      1).heads ∧ (identRec 1).heads ≤ 4 ∧ 256 ≤ (identRec 1).depth ∧ (identRec 1).nohead = false ∧
      establishing.identCheck (identRec 1).slotBase (identRec 1).ident = 0 ∧ (identRec 1).heads = 1 ∧ (identRec 1).head
      = 0 ∧ identNozzles (identRec 1).ident ≤ 8192 ∧ (identRec 1).depth < 2 ^ 16 ∧ (identRec 1).hdmRev < 2 ^ 16 ∧ (beAt
      (establishing.ident 3 0) 0 2 = 7518 → identSerial (establishing.ident 3 0) = identSerial (identRec 1).ident)) ∧
    (establishing.core = CoreRun.running ∧ 3 < 96 ∧ 3 < establishing.lanes.length ∧ establishing.tstate 3 =
      tsEstablish ∧ (establishing.laneSt 3).identOk = false ∧ (establishing.laneSt 3).idents = [] ∧ 1 ≤ (identRec
      2).heads ∧ (identRec 2).heads ≤ 4 ∧ 256 ≤ (identRec 2).depth ∧ (identRec 2).nohead = false ∧
      establishing.identCheck (identRec 2).slotBase (identRec 2).ident = 0 ∧ (identRec 2).heads = 2 ∧ (identRec 2).head
      = 0) := by
  repeat' apply And.intro
  all_goals decide +kernel

/-- The hypotheses of each clause of ThermalSteps are met. -/
theorem meets_ThermalSteps :
    ((warm Power.reset).core = CoreRun.running ∧ (warm Power.reset).trimmed = true ∧ (warm Power.reset).get
      PW_TEMP_DIODE_FAIL = 0 ∧ -500 ≤ 250 ∧ 250 ≤ 1500 ∧ (warm Power.reset).pwr.track = [] ∧ (warm
      Power.reset).pwr.farSince = none ∧ (250 - tenths ((warm Power.reset).towards (warm Power.reset).pwr.tm ((warm
      Power.reset).pwr.tamb + (warm Power.reset).rise))).natAbs ≤ 200 ∧ 250 < 1180) ∧
    ((warm powerHotter).core = CoreRun.running ∧ (warm powerHotter).trimmed = true ∧ (warm powerHotter).get
      PW_TEMP_DIODE_FAIL = 0 ∧ -500 ≤ 1180 ∧ 1180 ≤ 1500 ∧ (warm powerHotter).pwr.track = [] ∧ (warm
      powerHotter).pwr.farSince = none ∧ (1180 - tenths ((warm powerHotter).towards (warm powerHotter).pwr.tm ((warm
      powerHotter).pwr.tamb + (warm powerHotter).rise))).natAbs ≤ 200 ∧ 1180 ≤ 1180) ∧
    ((warm powerHot).core = CoreRun.running ∧ (warm powerHot).trimmed = true ∧ (warm powerHot).pwr.hot = true ∧ (warm
      powerHot).get PW_TEMP_STEP < 7 ∧ (State.advance 100000000 (warm powerHot)).past (warm powerHot).pwr.stepAt ((warm
      powerHot).get PW_THR_CFG_STEP_MS * 1000000) = true) ∧
    (((warm powerLow).put PW_TEMP_STEP 7).core = CoreRun.running ∧ ((warm powerLow).put PW_TEMP_STEP 7).trimmed = true
      ∧ ((warm powerLow).put PW_TEMP_STEP 7).pwr.hot = false ∧ ((warm powerLow).put PW_TEMP_STEP 7).pwr.lowSince = some
      5 ∧ ((warm powerLow).put PW_TEMP_STEP 7).get PW_TEMP_STEP ≠ 0 ∧ ((warm powerLow).put PW_TEMP_STEP 7).get
      PW_TEMP_DIODE_FAIL = 0 ∧ (State.advance (10 ^ 12) ((warm powerLow).put PW_TEMP_STEP 7)).past 5 (((warm
      powerLow).put PW_TEMP_STEP 7).get PW_THR_CFG_RELAX_MS * 1000000) = true ∧ (State.advance (10 ^ 12) ((warm
      powerLow).put PW_TEMP_STEP 7)).past ((warm powerLow).put PW_TEMP_STEP 7).pwr.stepAt (((warm powerLow).put
      PW_TEMP_STEP 7).get PW_THR_CFG_RELAX_MS * 1000000) = true) ∧
    (railOn.core = CoreRun.running ∧ railOn.trimmed = true ∧ 7 < 8 ∧ railOn.get (PW_PMB_CFG_EN 7) = 1 ∧
      (Instr.pmbAlert 100000000 (List.replicate 7 none ++ [some ans7]) = Instr.pmbusPoll 100000000 (List.replicate 7
      none ++ [some ans7]) ∨ Instr.pmbAlert 100000000 (List.replicate 7 none ++ [some ans7]) = Instr.pmbAlert 100000000
      (List.replicate 7 none ++ [some ans7])) ∧ (List.replicate 7 none ++ [some ans7]).getD 7 none = some ans7) ∧
    (railOn.core = CoreRun.running ∧ railOn.trimmed = true ∧ 7 < 8 ∧ railOn.get (PW_PMB_CFG_EN 7) = 1 ∧
      (Instr.pmbusPoll 100000000 [] = Instr.pmbusPoll 100000000 [] ∨ Instr.pmbusPoll 100000000 [] = Instr.pmbAlert
      100000000 []) ∧ ([] : List (Option PmbAnswer)).getD 7 none = none ∧ railOn.get (PW_RAIL_STALE 7) = 0 ∧
      (State.advance 100000000 railOn).past (railOn.pwr.railAt.getD 7 0) 10000000 = true) ∧
    ((warm Power.reset).core = CoreRun.running ∧ (warm Power.reset).trimmed = true) ∧
    ((warm Power.reset).core = CoreRun.running ∧ (warm Power.reset).trimmed = true) := by
  repeat' apply And.intro
  all_goals decide +kernel

/-- The hypotheses of each clause of StartUp are met. -/
theorem meets_StartUp :
    (heldCore.core ≠ CoreRun.running ∧ heldCore.ao.vao = true ∧ heldCore.ao.pwrEn = true ∧ heldCore.ao.fallAt = none ∧
      max heldCore.ao.riseAt heldCore.ao.lowAt + 1000000 ≤ max heldCore.clk 1000000 ∧ heldCore.pwr.shutAt = none ∧ (2 ^
      64 - 1) % 2 ^ 64 ≠ 0) ∧
    (max heldCore.clk 999999 < max heldCore.ao.riseAt heldCore.ao.lowAt + 1000000) ∧
    ((booting 0).core = CoreRun.running ∧ (booting 0).base = Base.boot ∧ (booting 0).modeStrap = true ∧ (booting
      0).get PW_SHUT_STAT_LATCHED = 0) ∧
    (bootingNormal.core = CoreRun.running ∧ bootingNormal.base = Base.boot ∧ bootingNormal.modeStrap = false ∧
      bootingNormal.get PW_SHUT_STAT_LATCHED = 0 ∧ (inputs true).flashOk = true ∧ bootingNormal.get GL_ROLE_STAT_SERVICE
      = 0) ∧
    (19660901 < 2 ^ 32 ∧ FS_BAR_STB 3 % 4 = 0 ∧ FS_BAR_STB 3 < 1179648 ∧ regSpecAt (FS_BAR_STB 3) = some ((regSpecAt
      (FS_BAR_STB 3)).getD (⟨0, 0, 0, 0, 0, Dom.none, 0, 0, 0, 0, 0, 0, 0⟩ : RegSpec)) ∧ ((regSpecAt (FS_BAR_STB
      3)).getD (⟨0, 0, 0, 0, 0, Dom.none, 0, 0, 0, 0, 0, 0, 0⟩ : RegSpec)).writable ≠ 0 ∧ ((regSpecAt (FS_BAR_STB
      3)).getD (⟨0, 0, 0, 0, 0, Dom.none, 0, 0, 0, 0, 0, 0, 0⟩ : RegSpec)).w1c = 0 ∧ ((regSpecAt (FS_BAR_STB 3)).getD
      (⟨0, 0, 0, 0, 0, Dom.none, 0, 0, 0, 0, 0, 0, 0⟩ : RegSpec)).rwl = 0 ∧ macReg (FS_BAR_STB 3) = false ∧ instOf
      (MC_RGN_SIZE 0) 8 7 (FS_BAR_STB 3) = none ∧ bootingNormal.limitReg (FS_BAR_STB 3) (mixBits (bootingNormal.held
      ((regSpecAt (FS_BAR_STB 3)).getD (⟨0, 0, 0, 0, 0, Dom.none, 0, 0, 0, 0, 0, 0, 0⟩ : RegSpec)) (FS_BAR_STB 3))
      19660901 ((regSpecAt (FS_BAR_STB 3)).getD (⟨0, 0, 0, 0, 0, Dom.none, 0, 0, 0, 0, 0, 0, 0⟩ : RegSpec)).writable)
      ((regSpecAt (FS_BAR_STB 3)).getD (⟨0, 0, 0, 0, 0, Dom.none, 0, 0, 0, 0, 0, 0, 0⟩ : RegSpec)).writable = none) ∧
    (536870997 < 2 ^ 32 ∧ bits 536870997 15 8 = 0) ∧
    ((1179648 % 4 ≠ 0 ∨ 1179648 ≤ 1179648 ∨ regSpecAt 1179648 = none)) ∧
    (GL_DEV_ID % 4 = 0 ∧ GL_DEV_ID < 1179648 ∧ regSpecAt GL_DEV_ID = some ((regSpecAt GL_DEV_ID).getD (⟨0, 0, 0, 0, 0,
      Dom.none, 0, 0, 0, 0, 0, 0, 0⟩ : RegSpec)) ∧ ((regSpecAt GL_DEV_ID).getD (⟨0, 0, 0, 0, 0, Dom.none, 0, 0, 0, 0, 0,
      0, 0⟩ : RegSpec)).writable = 0) ∧
    (5242880 % 4 = 0 ∧ rwWindow 5242880 = true ∧ bootingNormal.limitTable 5242880 5 4294967295 = none ∧
      bootingNormal.limitCamTable 5242880 = none) ∧
    ((2 % 4 ≠ 0 ∨ rwWindow 2 = false ∨ Option.isSome (bootingNormal.limitTable 2 5 4294967295) = true ∨ Option.isSome
      (bootingNormal.limitCamTable 2) = true)) ∧
    (3 < 4) ∧
    ((booting 1).core = CoreRun.running ∧ (booting 1).base = Base.boot ∧ (booting 1).modeStrap = true ∧ (booting
      1).get PW_SHUT_STAT_LATCHED = 1 ∧ (inputs false).diodeOk = false ∧ (booting 1).pwr.shutAt = none) ∧
    ((up.put PW_SHUT_STAT_LATCHED 1).pwr.shutAt = none) ∧
    (tapped.tapPins = true) := by
  repeat' apply And.intro
  all_goals decide +kernel

/-- The hypotheses of each clause of NetworkServices are met. -/
theorem meets_NetworkServices :
    (network.core = CoreRun.running ∧ 2 < 3 ∧ network.netUp 2 = true ∧ 3232235521 ≠ 0 ∧ 3232235521 = network.ip4 2) ∧
    (network.core = CoreRun.running ∧ 2 < 3 ∧ network.netUp 2 = true ∧ 5 ≠ 0 ∧ 5 = network.ip6 2) ∧
    (network.core = CoreRun.running ∧ 2 < 3 ∧ network.netUp 2 = true ∧ 5 ≠ 0 ∧ 5 = (if true = true then network.ip6 2
      else network.ip4 2)) ∧
    (network.core = CoreRun.running ∧ 6 ≠ network.ip4 2) ∧
    (up.core = CoreRun.running ∧ up.get HP_MP_STAT_LINK = 1 ∧ up.base ≠ Base.boot ∧ up.base ≠ Base.trim ∧
      (MpDrop.tagged = MpDrop.tagged ∨ MpDrop.tagged = MpDrop.fragment ∨ MpDrop.tagged = MpDrop.other)) ∧
    (up.core = CoreRun.running ∧ up.get HP_MP_STAT_LINK = 1 ∧ up.base ≠ Base.boot ∧ up.base ≠ Base.trim ∧
      (MpDrop.oversize = MpDrop.oversize ∨ MpDrop.oversize = MpDrop.malformed)) ∧
    (up.core = CoreRun.running ∧ 1 < 2) ∧
    ((holding [held0 22 [5] 0 3 9 30000]).core = CoreRun.running ∧ (holding [held0 22 [5] 0 3 9 30000]).get
      HP_MP_STAT_LINK = 1) ∧
    (mpDropped.core = CoreRun.running ∧ mpDropped.get HP_MP_STAT_LINK = 0) ∧
    ((up.put HP_MP_STAT_LINK 0).core = CoreRun.running ∧ (up.put HP_MP_STAT_LINK 0).get HP_MP_STAT_LINK = 0) ∧
    (pushing.core = CoreRun.running ∧ pushing.hostUp = true ∧ 3 < 4 ∧ pushing.dcp.push[3]? = some pushed ∧ pushed.dst
      = some 9 ∧ pushing.get HP_MP_STAT_LINK = 1 ∧ pushed.recs ≠ [] ∧ (48 ≤ pushed.recs.length ∨ (State.advance 100
      pushing).past pushed.since 1000000 = true)) := by
  repeat' apply And.intro
  all_goals decide +kernel

/-- The hypotheses of each clause of RecorderSteps are met. -/
theorem meets_RecorderSteps :
    (posting.core = CoreRun.running ∧ posting.get AG_STAT_STATE = 2 ∧ posting.rgnSize 6 * posting.get
      AG_TRIG_CFG_POST_PCT ≤ posting.agate.postBytes * 100) ∧
    (recordingNow.core = CoreRun.running ∧ recordingNow.agate.snapDue = some 7 ∧ recordingNow.recording = true ∧ 7 ≤
      (State.advance 100 recordingNow).now) ∧
    (((up.put AG_RP_STAT_MODE 1).rgnSize 6 = 0 ∨ (up.put AG_RP_STAT_MODE 1).get AG_RP_STAT_MODE ≠ 0)) ∧
    (reading.rgnSize 6 ≠ 0 ∧ reading.get AG_RP_STAT_MODE = 0 ∧ reading.ringReads ≠ []) ∧
    (recStore.rgnSize 6 ≠ 0 ∧ recStore.get AG_RP_STAT_MODE = 0 ∧ recStore.ringReads = [] ∧ recStore.recording = false) ∧
    (recordingNow.recording = true) ∧
    ((up.put FS_BAR_EN_EN 255).base = Base.single ∧ (up.put FS_BAR_EN_EN 255).pairEn = false ∧ (up.put FS_BAR_EN_EN
      255).get PG_JOB_STAT_RUNNING = 0 ∧ (∀ (l : Nat), l < 96 → (up.put FS_BAR_EN_EN 255).get (LANE_STAT_TSTATE l) = 0)) ∧
    (((paired Base.active).base ≠ Base.single ∨ (paired Base.active).pairEn = true ∨ (paired Base.active).get
      PG_JOB_STAT_RUNNING = 1)) ∧
    ((up.get AG_RP_STAT_MODE = 0 ∨ up.get AG_RP_STAT_MODE = 2)) ∧
    (taped.get AG_RP_STAT_MODE = 1 ∧ List.dropWhile (fun x => x.seq != taped.get AG_RP_START_SEQ) taped.recorded =
      tapedEntries.headD (⟨0, 0, 0, []⟩ : ReplayEntry) :: List.drop 1 tapedEntries ∧ (tapedEntries.headD (⟨0, 0, 0, []⟩
      : ReplayEntry)).kind = 13 ∧ (tapedEntries.headD (⟨0, 0, 0, []⟩ : ReplayEntry)).obj = 1 ∧ List.takeWhile (fun x =>
      !x.isEnd) (tapedEntries.headD (⟨0, 0, 0, []⟩ : ReplayEntry) :: List.drop 1 tapedEntries) = [tapedEntries.headD
      (⟨0, 0, 0, []⟩ : ReplayEntry)] ∧ List.drop 1 tapedEntries = (List.drop 1 tapedEntries).headD (⟨0, 0, 0, []⟩ :
      ReplayEntry) :: List.drop 2 tapedEntries ∧ ((List.takeWhile (fun d => d.kind == 6 && d.time == (tapedEntries.headD
      (⟨0, 0, 0, []⟩ : ReplayEntry)).time) (List.filter (fun d => d.kind != 0 && d.kind != 11) (List.drop 2
      tapedEntries))).all fun d => ((taped.slotOf (leAt d.payload 0 4 / 65536) (leAt d.payload 0 4 % 65536) (leAt
      d.payload 4 4)).state == stStored || (taped.slotOf (leAt d.payload 0 4 / 65536) (leAt d.payload 0 4 % 65536) (leAt
      d.payload 4 4)).state == stHeld) && (taped.slotOf (leAt d.payload 0 4 / 65536) (leAt d.payload 0 4 % 65536) (leAt
      d.payload 4 4)).digest == leAt d.payload 12 4) = true) ∧
    (tapedNamed.get AG_RP_STAT_MODE = 1 ∧ List.dropWhile (fun x => x.seq != tapedNamed.get AG_RP_START_SEQ)
      tapedNamed.recorded = tapedNamedEntries.headD (⟨0, 0, 0, []⟩ : ReplayEntry) :: List.drop 1 tapedNamedEntries ∧
      (tapedNamedEntries.headD (⟨0, 0, 0, []⟩ : ReplayEntry)).kind = 13 ∧ (tapedNamedEntries.headD (⟨0, 0, 0, []⟩ :
      ReplayEntry)).obj = 1 ∧ List.takeWhile (fun x => !x.isEnd) (tapedNamedEntries.headD (⟨0, 0, 0, []⟩ : ReplayEntry)
      :: List.drop 1 tapedNamedEntries) = [tapedNamedEntries.headD (⟨0, 0, 0, []⟩ : ReplayEntry)] ∧ List.drop 1
      tapedNamedEntries = (List.drop 1 tapedNamedEntries).headD (⟨0, 0, 0, []⟩ : ReplayEntry) :: List.drop 2
      tapedNamedEntries ∧ List.filter (fun d => d.kind != 0 && d.kind != 11) (List.drop 2 tapedNamedEntries) =
      (List.drop 2 tapedNamedEntries).headD (⟨0, 0, 0, []⟩ : ReplayEntry) :: List.drop 1 (List.filter (fun d => d.kind
      != 0 && d.kind != 11) (List.drop 2 tapedNamedEntries)) ∧ ((List.drop 2 tapedNamedEntries).headD (⟨0, 0, 0, []⟩ :
      ReplayEntry)).kind = 6 ∧ ((List.drop 2 tapedNamedEntries).headD (⟨0, 0, 0, []⟩ : ReplayEntry)).time =
      (tapedNamedEntries.headD (⟨0, 0, 0, []⟩ : ReplayEntry)).time ∧ (tapedNamed.slotOf (leAt ((List.drop 2
      tapedNamedEntries).headD (⟨0, 0, 0, []⟩ : ReplayEntry)).payload 0 4 / 65536) (leAt ((List.drop 2
      tapedNamedEntries).headD (⟨0, 0, 0, []⟩ : ReplayEntry)).payload 0 4 % 65536) (leAt ((List.drop 2
      tapedNamedEntries).headD (⟨0, 0, 0, []⟩ : ReplayEntry)).payload 4 4)).digest ≠ leAt ((List.drop 2
      tapedNamedEntries).headD (⟨0, 0, 0, []⟩ : ReplayEntry)).payload 12 4) := by
  repeat' apply And.intro
  all_goals decide +kernel

/-- The hypotheses of each clause of RegisterCommits are met. -/
theorem meets_RegisterCommits :
    (moving.selFailed = false ∧ moving.trkFailed = false) ∧
    (((failed 0 1).selFailed = true ∨ (failed 0 1).trkFailed = true)) ∧
    (onSecond.web.onSec = true ∧ onSecond.restorable true = true) ∧
    (up.restorable false = false ∧ up.restorable true = false) ∧
    (9 < 16 ∧ bits 9 1 0 ≠ bits 9 3 2 ∧ pairEnc.get PG_JOB_STAT_RUNNING = 0 ∧ bits (pairEnc.rd WP_ENC_CFG) 15 8 ≠ 0 ∧
      bits (pairEnc.rd WP_ENC_CFG) 3 0 ≠ 9) ∧
    (9 < 16 ∧ bits 9 1 0 ≠ bits 9 3 2 ∧ bits ((pairEnc.put PG_JOB_STAT_RUNNING 1).rd WP_ENC_CFG) 15 8 ≠ 0 ∧
      (pairEnc.put PG_JOB_STAT_RUNNING 1).get PG_JOB_STAT_RUNNING = 1) ∧
    (switchable.base = Base.active ∧ switchable.followed = true ∧ bits switchable.pair.partnerFlags 3 0 = 2 ∧ bit
      switchable.pair.partnerFlags 5 = false ∧ switchable.pair.partnerLocked = true ∧ switchable.partnerCovers = true ∧
      switchable.pair.switchAt = none ∧ switchable.pair.epoch < 16777215) ∧
    ((up.base ≠ Base.active ∨ up.followed = false ∨ up.partnerCovers = false)) ∧
    (7 < 8 ∧ 7 < up.beryl.bars.length) ∧
    (7 < 8 ∧ 7 < up.beryl.bars.length) ∧
    (7 < 8 ∧ 7 < up.beryl.bars.length) ∧
    (0 < 8 ∧ 0 < up.beryl.bars.length) ∧
    (((up.wr (WP_BAR_REG_AUTO 3) 5).wr BY_CTRL 512).authoritative = true) ∧
    (3 < 4 ∧ List.find? (fun x => x.enc == 3 && !x.rows.isEmpty) up.screen.streams = none) ∧
    (3 < 4 ∧ (starved (encoding [List.replicate 8 3])).screen.streams = [stream [List.replicate 8 3]] ∧ (stream
      [List.replicate 8 3]).enc = 3 ∧ (stream [List.replicate 8 3]).rows ≠ [] ∧ (starved (encoding [List.replicate 8
      3])).c3Shed = true) ∧
    (3 < 4 ∧ (encoding [List.replicate 8 3]).screen.streams = [stream [List.replicate 8 3]] ∧ (stream [List.replicate
      8 3]).enc = 3 ∧ (stream [List.replicate 8 3]).rows ≠ [] ∧ (encoding [List.replicate 8 3]).c3Shed = false) ∧
    (3 < 4 ∧ (encoding [List.replicate 8 3]).c3Shed = false) ∧
    (7 < 8 ∧ (up.put (SC_BAR_APPLY_CTRL_PENDING 7) 1).get (SC_BAR_APPLY_CTRL_PENDING 7) = 1) ∧
    (7 < 8 ∧ ((up.put (SC_BAR_APPLY_CTRL_SET_TONE 7) 1).put (SC_BAR_APPLY_CTRL_TONE_SET 7) 3).get
      (SC_BAR_APPLY_CTRL_PENDING 7) = 0 ∧ ((up.put (SC_BAR_APPLY_CTRL_SET_TONE 7) 1).put (SC_BAR_APPLY_CTRL_TONE_SET 7)
      3).barIdle 7 = true ∧ ((up.put (SC_BAR_APPLY_CTRL_SET_TONE 7) 1).put (SC_BAR_APPLY_CTRL_TONE_SET 7) 3).get
      (SC_BAR_APPLY_CTRL_SWAP 7) = 0 ∧ ((up.put (SC_BAR_APPLY_CTRL_SET_TONE 7) 1).put (SC_BAR_APPLY_CTRL_TONE_SET 7)
      3).get (SC_BAR_APPLY_CTRL_SET_TONE 7) = 1) ∧
    (up.loadCheck [1, 0] = none ∧ (∀ (w : Nat × Nat), w ∈ up.loadWords [1, 0] → up.limitTable w.fst w.snd 4294967295 =
      none ∧ up.limitCamTable w.fst = none)) ∧
    (badImage.loadCheck [1793, 0] = none ∧ (∃ w, w ∈ badImage.loadWords [1793, 0] ∧ Option.isSome
      ((badImage.limitTable w.fst w.snd 4294967295).orElse' (badImage.limitCamTable w.fst)) = true)) ∧
    (goodImage.loadCheck [1793, 0] = none ∧ (∀ (w : Nat × Nat), w ∈ goodImage.loadWords [1793, 0] →
      goodImage.limitTable w.fst w.snd 4294967295 = none ∧ goodImage.limitCamTable w.fst = none)) := by
  repeat' apply And.intro
  all_goals decide +kernel

/-! The IMAGE_WRITE of a sound image -/

/-- The words of a hash are in their width already. -/
theorem prog_words (v : ShaVars) : ([0x100, 0, 4096, 9, 0, 77] ++ imgWords v).map (· % 2 ^ 32) =
    [0x100, 0, 4096, 9, 0, 77] ++ imgWords v := by
  have k (x : BitVec 32) : x.toNat % 2 ^ 32 = x.toNat := Nat.mod_eq_of_lt x.isLt
  simp only [imgWords, List.map_append, List.map_cons, List.map_nil, k] <;> rfl

theorem sread_nil (n a : Nat) : sread memReset [] a n = List.replicate n 0 := by
  induction n generalizing a with
  | zero => rfl
  | succ n ih => rw [sread, ih]; rfl

theorem prog_row : rowRequest (.imageWrite 7 (hdr keyed 32 imgProgram) imgProgram) =
    some (7, 32, hdr keyed 32 imgProgram, imgProgram) := by
  have k : imgProgram.map (· % 2 ^ 32) = imgProgram := prog_words imgHash
  exact row_hdr (f := fun h => rowRequest (.imageWrite 7 h imgProgram)) fun h => by
    rw [rowRequest, request, k]

theorem prog_staged : keyed.staged (imgOpOf imgProgram) = List.replicate 4096 0 := sread_nil 4096 _

theorem check_of (v : ShaVars) : (imgOpOf ([0x100, 0, 4096, 9, 0, 77] ++ imgWords v)).check =
    [v.a, v.b, v.c, v.d, v.e, v.f, v.g, v.h].flatMap fun x => beBytes 4 x.toNat := rfl

theorem sha_of (l : List Byte) : sha256 l = [(shaOf l).a, (shaOf l).b, (shaOf l).c, (shaOf l).d, (shaOf l).e, (shaOf l).f,
    (shaOf l).g, (shaOf l).h].flatMap fun x => beBytes 4 x.toNat := rfl

theorem hash_of (l : List Byte) : hmacSha256 imgKey l =
    sha256 ((imgKey ++ List.replicate (64 - imgKey.length) 0).map (· ^^^ 0x5C#8) ++
      sha256 ((imgKey ++ List.replicate (64 - imgKey.length) 0).map (· ^^^ 0x36#8) ++ l)) := rfl

theorem prog_check : (imgOpOf imgProgram).check =
    hmacSha256 imgKey ((imgOpOf imgProgram).head ++ List.replicate 4096 0) := by
  rw [show (imgOpOf imgProgram).head = imgHead from rfl, imgProgram, check_of, hash_of, sha_of, imgHash]

theorem prog_reason : keyed.checkReason (imgOpOf imgProgram).head (imgOpOf imgProgram).keySlot (imgOpOf imgProgram).unkeyed
      (imgOpOf imgProgram).check (keyed.staged (imgOpOf imgProgram)) = 0 := by
  have p : imgParse (List.replicate 4096 0) = some [] := by decide +kernel
  rw [prog_staged, State.checkReason, prog_check, p]
  have a : (imgOpOf imgProgram).unkeyed = false := rfl
  have b : (imgOpOf imgProgram).keySlot = 0 := rfl
  have c : keyed.keyState 0 == 1 := by decide +kernel
  have d : beBytes 32 (keyed.otp.keys.getD 0 0) = imgKey := rfl
  simp only [a, b, c, d, beq_self_eq_true]
  decide

/-- The hypotheses of ImageSlots' PROGRAM clause are met: a body of 4,096 zeros for slot B, its CHECK under key slot 0. -/
theorem meets_ImageSlots_program :
    (rowRequest (.imageWrite 7 (hdr keyed 32 imgProgram) imgProgram) = some (7, 32, hdr keyed 32 imgProgram, imgProgram) ∧
      Passes (keyed.advance 7) 32 (hdr keyed 32 imgProgram) imgProgram) ∧
    (keyed.core = .running ∧ keyed.get BT_BOOT_STAT_SLOT ≠ bits (imgProgram.getD 0 0) 8 8 ∧ keyed.dcp.imgOp = none ∧
      bits (imgProgram.getD 0 0) 1 0 = 0 ∧ imgProgram.getD 2 0 = 4096 ∧
      imgProgram.getD 1 0 + cdiv (imgProgram.getD 2 0) 0x100000 ≤ keyed.imgSlots) ∧
    keyed.checkReason (imgOpOf imgProgram).head (imgOpOf imgProgram).keySlot (imgOpOf imgProgram).unkeyed
      (imgOpOf imgProgram).check (keyed.staged (imgOpOf imgProgram)) = 0 :=
  ⟨⟨prog_row, passes_adv (by decide +kernel)⟩, by decide +kernel, prog_reason⟩

end Sys2Proof.Tests
end

section
open Sys2Proof Sys2Proof.Machine

namespace Sys2Proof.Proofs

/-! What every proof about a command starts from: the state a running core answers. -/

/-- A running core answers what its effect makes, settled; nothing else. -/
theorem next_of_run {t : Nat} {f : State → State} {s s' : State} (hc : s.core = .running) (h : run t f s = .next s') :
    s' = (f (s.advance t)).whenRunning settle := by
  rw [run_on hc, Host.Outcome.next.injEq] at h
  exact h.symm

theorem rest_tb {x y : State} (h : Rest x y) : y.tb = x.tb :=
  have e := congrArg State.tb h.bare
  e

theorem rest_ingest {x y : State} (h : Rest x y) : y.ingest = x.ingest :=
  have e := congrArg State.ingest h.bare
  e

/-- A counter that wraps reads one more. -/
theorem get_inc (s : State) (f : Fld) (h : f.lo ≤ f.hi + 1) (hh : f.hi < 32) :
    (s.inc f).get f = (s.get f + 1) % 2 ^ (f.hi + 1 - f.lo) := get_put_same s f _ h hh


/-! The commits of a tick end (O28). -/

/-- `Held.before` puts its three keys in lexicographic order. -/
theorem held_before_iff (a b : Held) : a.before b = true ↔
    b.authority < a.authority ∨ (a.authority = b.authority ∧
      (a.master < b.master ∨ (a.master = b.master ∧ a.counter < b.counter))) := by
  simp [Held.before]

/-- Two commands may stand in this order: the second does not come before the first. -/
abbrev Held.upTo (a b : Held) : Prop := b.before a = false

theorem upTo_iff_not_before (a b : Held) : Held.upTo a b ↔ ¬ b.before a = true := by
  simp [Held.upTo]

theorem upTo_total (a b : Held) : Held.upTo a b ∨ Held.upTo b a := by
  rw [upTo_iff_not_before, upTo_iff_not_before, held_before_iff, held_before_iff]
  omega

theorem upTo_trans (a b c : Held) (hab : Held.upTo a b) (hbc : Held.upTo b c) : Held.upTo a c := by
  rw [upTo_iff_not_before, held_before_iff] at *
  omega

theorem upTo_of_before {a b : Held} (h : a.before b = true) : Held.upTo a b := by
  rw [upTo_iff_not_before]
  rw [held_before_iff] at *
  omega

theorem heldInsert_eq_orderedInsert (a : Held) (l : List Held) : heldInsert a l = l.orderedInsert Held.upTo a := by
  induction l with
  | nil => rfl
  | cons b l ih => by_cases h : b.before a = true <;> simp [heldInsert, Held.upTo, h, ih]

/-- The model's sort is Mathlib's insertion sort by the order of R430. -/
theorem heldSort_eq_insertionSort (l : List Held) : heldSort l = l.insertionSort Held.upTo := by
  induction l with
  | nil => rfl
  | cons a l ih => rw [heldSort, ih, heldInsert_eq_orderedInsert, List.insertionSort_cons]

theorem heldSort_perm (l : List Held) : (heldSort l).Perm l := by
  rw [heldSort_eq_insertionSort]
  exact List.perm_insertionSort _ l

theorem heldSort_pairwise (l : List Held) : (heldSort l).Pairwise Held.upTo := by
  have : Std.Total Held.upTo := ⟨upTo_total⟩
  have : IsTrans Held Held.upTo := ⟨upTo_trans⟩
  rw [heldSort_eq_insertionSort]
  exact List.pairwise_insertionSort _ l

theorem heldSort_pair {a b : Held} (h : a.before b = true) : heldSort [b, a] = [a, b] := by
  simp [heldSort, heldInsert, h]

/-- A unit in SINGLE and in no replay takes authoritative decisions. -/
theorem authoritative_of_single {s : State} (hb : s.base = .single) (hm : s.get AG_RP_STAT_MODE = 0) :
    s.authoritative = true := by
  simp [State.authoritative, hb, hm]

/-- The state that the due commands find when all are due. -/
def unheld (s : State) : State := { s with dcp := { s.dcp with held := [] } }

/-- What commits when everything held is due: the commands in their order, and nothing stays held. -/
theorem commits_of_all_due {s : State} (ha : s.authoritative = true)
    (hd : ∀ h ∈ s.dcp.held, h.passedAt + 20000 ≤ s.now) :
    s.commits = (((unheld s).commitAll (heldSort s.dcp.held)).s, ((unheld s).commitAll (heldSort s.dcp.held)).resps) := by
  have due : s.dcp.held.filter (fun h => decide (h.passedAt + 20000 ≤ s.now)) = s.dcp.held := by simpa using hd
  have waits : s.dcp.held.filter (fun h => !decide (h.passedAt + 20000 ≤ s.now)) = [] := by simpa using hd
  simp only [State.commits, ha, due, waits]
  rfl

/-- Until 20 µs have passed for each command held nothing commits. -/
theorem commits_of_none_due {s : State} (ha : s.authoritative = true) (hd : ∀ h ∈ s.dcp.held, s.now < h.passedAt + 20000)
    (hadj : s.adjOk = true) : s.commits = (s, []) := by
  have due : s.dcp.held.filter (fun h => decide (h.passedAt + 20000 ≤ s.now)) = [] := by simpa using hd
  have waits : s.dcp.held.filter (fun h => !decide (h.passedAt + 20000 ≤ s.now)) = s.dcp.held := by simpa using hd
  simp only [State.commits, ha, due, waits]
  simp [State.commitAll, heldSort, hadj]

/-- The first command of a tick end commits as it would alone; in SINGLE no copy can be full. -/
theorem commits_one_first {tick : Nat} {s : State} {h : Held} (hb : s.base = .single) :
    Commits.one tick ⟨s, [], []⟩ h = ⟨(s.commitGo h.opcode h.body).2,
      if (s.commitGo h.opcode h.body).1.status = stOk then [(h.master, s.commitClaims h.opcode h.body)] else [],
      [h.answer tick (s.commitGo h.opcode h.body).1]⟩ := by
  simp [Commits.one, hb]

/-- A command that contradicts the one command committed before it, of another master, loses. -/
theorem commits_one_conflict {tick m : Nat} {s : State} {cs : List Claim} {rs : List Resp} {h : Held} (hm : m ≠ h.master)
    (hx : (cs.any fun c => (s.commitClaims h.opcode h.body).any c.clash) = true) :
    Commits.one tick ⟨s, [(m, cs)], rs⟩ h =
      ⟨(s.inc HP_DCP_CONFLICT_CONFLICTS).raise 0x7104 h.master m 0, [(m, cs)],
        rs ++ [h.answer tick (.of stConflict 0)]⟩ := by
  have found : (m != h.master && cs.any fun c => (s.commitClaims h.opcode h.body).any c.clash) = true := by simp [hm, hx]
  simp only [Commits.one, List.find?_cons, found]
  rfl

/-- A tick's commands that leave an adjustment that may stand have committed. -/
theorem commitAll_of_adjOk {s : State} {l : List Held} {c : Commits} (hc : l.foldl (Commits.one s.tick) ⟨s, [], []⟩ = c)
    (ha : c.s.adjOk = true) : s.commitAll l = c := by
  simp [State.commitAll, hc, ha]

/-- A tick's commands that leave an adjustment that may not stand are decided anew, BUSY for those that write it (R207). -/
theorem commitAll_of_not_adjOk {s : State} {l : List Held} {c r : Commits}
    (hc : l.foldl (Commits.one s.tick) ⟨s, [], []⟩ = c) (ha : c.s.adjOk = false)
    (hr : l.foldl (Commits.one s.tick) ⟨{ s with dcp := { s.dcp with adjBusy := true } }, [], []⟩ = r) :
    s.commitAll l = { r with s := { r.s with dcp := { r.s.dcp with adjBusy := false } } } := by
  simp [State.commitAll, hc, ha, hr]

/-- Settles O28: the commit order is Mathlib's insertion sort by a total order, and one or two due commands commit by the
rule for the first of a tick end, for one that loses to it, and for the tick's adjustment. -/
theorem commitsInOrder : Obligations.CommitsInOrder := by
  unfold Obligations.CommitsInOrder
  refine ⟨fun l => ⟨heldSort_perm l, heldSort_pairwise l⟩, ?discards, ?alone, ?busy, ?waits, ?conflict⟩
  case discards =>
    intro s ha
    simp [State.commits, ha]
  case alone =>
    intro s h hb hm hh hd r hr hadj
    rw [commits_of_all_due (authoritative_of_single hb hm) (by simpa [hh] using hd), hh]
    have one := commits_one_first (tick := s.tick) (s := unheld s) (h := h) hb
    rw [show (unheld s).commitGo h.opcode h.body = r from hr.symm] at one
    rw [show heldSort [h] = [h] from rfl, commitAll_of_adjOk (l := [h]) one hadj]
  case busy =>
    intro s h hb hm hh hd hadj r hr
    rw [commits_of_all_due (authoritative_of_single hb hm) (by simpa [hh] using hd), hh]
    have one := commits_one_first (tick := s.tick) (s := unheld s) (h := h) hb
    have again := commits_one_first (tick := s.tick)
      (s := { unheld s with dcp := { (unheld s).dcp with adjBusy := true } }) (h := h) hb
    rw [show State.commitGo { unheld s with dcp := { (unheld s).dcp with adjBusy := true } } h.opcode h.body = r
      from hr.symm] at again
    rw [show heldSort [h] = [h] from rfl, commitAll_of_not_adjOk (l := [h]) one hadj again]
  case waits =>
    intro s h ha hadj hh hd
    exact commits_of_none_due ha (by simpa [hh] using hd) hadj
  case conflict =>
    intro s a b hb hm hh hda hdb hab hne x r c hx hr hok hclash hc hadj
    rw [commits_of_all_due (authoritative_of_single hb hm) (by simp [hh, hda, hdb]), hh, heldSort_pair hab,
      show unheld s = x from hx.symm]
    have first := commits_one_first (tick := x.tick) (s := x) (h := a) (by simp [hx, hb])
    rw [← hr, if_pos hok] at first
    have both : [a, b].foldl (Commits.one x.tick) ⟨x, [], []⟩ = ⟨c, [(a.master, x.commitClaims a.opcode a.body)],
        [a.answer x.tick r.1, b.answer x.tick (.of stConflict 0)]⟩ := by
      rw [List.foldl_cons, List.foldl_cons, List.foldl_nil, first, commits_one_conflict hne hclash, hc]
      rfl
    rw [commitAll_of_adjOk both hadj]
    subst hx
    rfl

/-! The store where a run of bytes was written. -/

/-- A read inside a run of values gives the value of its place. -/
theorem sget_srun {β : Type} [DecidableEq β] (d : Nat → β) (vs : List β) (a i : Nat) (h : i < vs.length) :
    sget d (srun d a vs) (a + i) = vs[i] := by
  induction vs generalizing a i with
  | nil => simp at h
  | cons v vs ih =>
    have later : ∀ p ∈ srun d (a + 1) vs, p.1 ≠ a := fun p hp => by have := srun_bounds d p hp; omega
    cases i with
    | zero =>
      by_cases hv : v = d a
      · have none_there := sget_append_left d (m := []) later
        simpa [srun, hv, sget] using none_there
      · simp [srun, hv, sget]
    | succ i =>
      have inside := ih (a + 1) i (by simpa using h)
      rw [show a + 1 + i = a + (i + 1) by omega] at inside
      by_cases hv : v = d a <;> simpa [srun, hv, sget] using inside

/-- A read inside values written at consecutive addresses gives the value of its place. -/
theorem sget_sputs_inside {β : Type} [DecidableEq β] (d : Nat → β) (m : List (Nat × β)) (a : Nat) (vs : List β)
    (i : Nat) (h : i < vs.length) : sget d (sputs d m a vs) (a + i) = vs[i] := by
  have above : ∀ p ∈ skeep (fun b => decide (a + vs.length ≤ b)) m, p.1 ≠ a + i := fun p hp => by
    have : a + vs.length ≤ p.1 := by simpa using mem_skeep hp
    omega
  have below : ∀ p ∈ skeep (fun b => decide (b < a)) m, p.1 ≠ a + i := fun p hp => by
    have : p.1 < a := by simpa using mem_skeep hp
    omega
  rw [sputs, sget_append_left d above, sget_append_right d below, sget_srun d vs a i h]

theorem byte_wrMem_inside (s : State) (a : Nat) (bs : List Byte) (i : Nat) (h : i < bs.length) :
    (s.wrMem a bs).byte (a + i) = bs[i] := sget_sputs_inside _ _ _ _ _ h

theorem byte_wrMem_outside (s : State) (a : Nat) (bs : List Byte) {b : Nat} (h : b < a ∨ a + bs.length ≤ b) :
    (s.wrMem a bs).byte b = s.byte b := sget_sputs_ne _ _ _ _ h

/-- Where the recorder's ring lies is left alone by a write to a register that is not of its region. -/
theorem inRing_put (s : State) (f : Fld) (v b : Nat) (hb : MC_RGN_BASE 6 ≠ f.addr) (hz : MC_RGN_BASE 6 + 4 ≠ f.addr) :
    (s.put f v).inRing b = s.inRing b := by
  simp [State.inRing, rgnBase_congr (rd_put_ne s f v hb), rgnSize_congr (rd_put_ne s f v hz)]

/-! Slots. -/

theorem slotOf_congr {x y : State} (h : y.ingest.surfs = x.ingest.surfs) (id gen k : Nat) :
    y.slotOf id gen k = x.slotOf id gen k := by
  simp [State.slotOf, State.surf, h]

/-- Changing what a predicate holds of, where it holds of the change too, changes what it finds. -/
theorem find?_map_where {α : Type} (p : α → Bool) (g : α → α) (h : ∀ a, p a = true → p (g a) = true)
    (l : List α) : (l.map fun a => if p a then g a else a).find? p = (l.find? p).map g := by
  induction l with
  | nil => rfl
  | cons a l ih =>
    by_cases e : p a = true
    · simp [e, h a e]
    · simp [e, ih]

/-- A slot of a surface reads as it was set. -/
theorem slot_setSlot (f : Surface) (k : Nat) (x : Slot) : (f.setSlot k x).slot k = x := by
  by_cases h : f.slots.any (·.1 == k) = true
  · obtain ⟨p, hp⟩ := Option.isSome_iff_exists.1 (List.find?_isSome.2 (List.any_eq_true.1 h))
    have found := find?_map_where (fun p : Nat × Slot => p.1 == k) (fun _ => (k, x)) (by simp) f.slots
    simp only [Surface.slot, Surface.setSlot, if_pos h, found, hp, Option.map_some, Option.getD_some]
  · have free : f.slots.find? (·.1 == k) = none := List.find?_eq_none.2 fun p hp e => h (List.any_eq_true.2 ⟨p, hp, e⟩)
    simp only [Surface.slot, Surface.setSlot, if_neg h, List.find?_append, free]
    simp

/-- A slot of a generation that the unit holds reads as it was made. -/
theorem slotOf_modSlot (s : State) (id gen k : Nat) (g : Slot → Slot) {f : Surface} (h : s.surf id gen = some f) :
    (s.modSlot id gen k g).slotOf id gen k = g (s.slotOf id gen k) := by
  have found : (s.modSlot id gen k g).surf id gen = (s.surf id gen).map fun f => f.setSlot k (g (f.slot k)) :=
    find?_map_where (fun f : Surface => f.id == id && f.gen == gen) (fun f => f.setSlot k (g (f.slot k))) (fun _ e => e)
      s.ingest.surfs
  simp [State.slotOf, found, h, slot_setSlot]

/-! A fragment as it arrives: what is noted of it changes no register, no byte and no transfer. -/

/-- The state with another count of retransmissions and another list of ended transfers. -/
def noted (s : State) (retx : Nat) (ended : List EndedXfer) : State :=
  { s with ingest := { s.ingest with retx := retx, ended := ended } }

theorem retxSeen_eq_noted (s : State) (h : DbtHdr) : ∃ r, s.retxSeen h = noted s r s.ingest.ended := by
  by_cases e : bit h.flags 0 = true
  · exact ⟨s.ingest.retx + 1, by rw [State.retxSeen, if_pos e]; rfl⟩
  · exact ⟨s.ingest.retx, by rw [State.retxSeen, if_neg e]; rfl⟩

theorem endedTouch_retxSeen_eq_noted (s : State) (h : DbtHdr) : ∃ r e, (s.retxSeen h).endedTouch h = noted s r e := by
  obtain ⟨r, hr⟩ := retxSeen_eq_noted s h
  exact ⟨r, _, by rw [hr]; rfl⟩

theorem isEnded_retxSeen (s : State) (h k : DbtHdr) : (s.retxSeen h).isEnded k = s.isEnded k := by
  obtain ⟨r, hr⟩ := retxSeen_eq_noted s h
  rw [hr]
  rfl

/-- While the host is up a datagram of DP0 or DP1 arrives at DBT. -/
theorem exec_dbtFragment {t port : Nat} {k : DbtFrom} {h : DbtHdr} {bs : List Byte} {s : State}
    (hc : s.core = .running) (hu : s.hostUp = true) (hp : port < 2) :
    exec (.dbtFragment t port k h bs) s =
      .next (((s.advance t).dbtArrives k h fun s => s.dbtFragment port k.src h bs).whenRunning settle) := by
  have up : ((s.advance t).hostUp && decide (port < 2)) = true := by
    rw [show (s.advance t).hostUp = true from hu]
    simp [hp]
  show execDbtFragment t port k h bs s = _
  rw [execDbtFragment, run_on hc, if_pos up]

/-- One to another port, or over an IP version that is off, is a frame not answered. -/
theorem dbtArrives_foreign {s : State} {k : DbtFrom} {h : DbtHdr} {f : State → State}
    (hk : k.dport ≠ s.get HP_DBT_PORT_PORT ∨ s.ipOn 1 k.v6 = false) : s.dbtArrives k h f = s.inc HP_RX_DROP_DP := by
  rw [State.dbtArrives, if_pos]
  rcases hk with hk | hk <;> simp [hk]

/-- One to DBT's port over an IP version that is on is judged, its RETX mark counted. -/
theorem dbtArrives_own {s : State} {k : DbtFrom} {h : DbtHdr} {f : State → State}
    (hd : k.dport = s.get HP_DBT_PORT_PORT) (hi : s.ipOn 1 k.v6 = true) : s.dbtArrives k h f = f (s.retxSeen h) := by
  rw [State.dbtArrives, if_neg]
  simp [hd, hi]

section Judged
variable {s : State} {port src : Nat} {h : DbtHdr} {bs : List Byte} {e : Session} {w : Window}
  (he : s.ingest.sessions.find? (·.id == h.session) = some e) (hw : s.window h.session h.window = some w)
include he hw

/-- A datagram that fails the checks of R57 and R58 is dropped and counted. -/
theorem dbtFragment_bad (hbad : fragOk h e.frag bs.length = false ∨ h.kind ≠ 0 ∨ w.kind = .readBack) :
    s.dbtFragment port src h bs = s.dbtDrop := by
  have fails : (h.kind == 0 && w.kind != .readBack && fragOk h e.frag bs.length) = false := by
    rcases hbad with hb | hb | hb <;> simp [hb]
  simp only [State.dbtFragment, he, hw, fails]
  rfl

/-- One that keeps them is lost while C3 is shed, and taken otherwise. -/
theorem dbtFragment_good (hok : fragOk h e.frag bs.length = true) (hk : h.kind = 0) (hr : w.kind ≠ .readBack) :
    s.dbtFragment port src h bs = if s.c3Shed then s else s.fragTake w e.frag h src port bs := by
  have keeps : (h.kind == 0 && w.kind != .readBack && fragOk h e.frag bs.length) = true := by simp [hok, hk, hr]
  simp only [State.dbtFragment, he, hw, keeps]
  rfl

end Judged

section Taken
variable {s z y : State} {w : Window} {x : Xfer} {f src port : Nat} {h : DbtHdr} {bs : List Byte}
  (hn : s.isEnded h = false) (hz : s.endedTouch h = z)
include hn hz

/-- A further fragment of the same transfer is placed. -/
theorem fragTake_same (hx : z.ingest.xfers.find? (·.isOf h) = some x) (ho : x.obj = h.objIndex)
    (hf : x.fragCount = h.fragCount) (hl : x.len = h.xferLen) (hc : x.crc = h.xferCrc) :
    s.fragTake w f h src port bs = z.fragPlace x h f src port bs := by
  simp [State.fragTake, hn, hz, hx, ho, hf, hl, hc]

/-- One that differs from its transfer in the CRC is dropped. -/
theorem fragTake_differs (hx : z.ingest.xfers.find? (·.isOf h) = some x) (hc : x.crc ≠ h.xferCrc) :
    s.fragTake w f h src port bs = z.dbtDrop := by
  simp [State.fragTake, hn, hz, hx, hc]

/-- A first fragment whose transfer begins is placed. -/
theorem fragTake_begun (hx : z.ingest.xfers.find? (·.isOf h) = none) (hb : z.xferBegin w h src port = y)
    (hy : y.ingest.xfers.find? (·.isOf h) = some x) : s.fragTake w f h src port bs = y.fragPlace x h f src port bs := by
  simp [State.fragTake, hn, hz, hx, hb, hy]

/-- One whose transfer does not begin leaves what refusing it made. -/
theorem fragTake_refused (hx : z.ingest.xfers.find? (·.isOf h) = none) (hb : z.xferBegin w h src port = y)
    (hy : y.ingest.xfers.find? (·.isOf h) = none) : s.fragTake w f h src port bs = y := by
  simp [State.fragTake, hn, hz, hx, hb, hy]

end Taken

/-! Transfers begun, refused and added to. -/

/-- The state in which a transfer of a strip has begun: its slot LOADING, itself the last in flight, its number shown. -/
def begun (s : State) (w : Window) (h : DbtHdr) (x : Xfer) : State :=
  let s := s.modSlot w.surf w.gen h.objIndex fun z => { z.clear with state := stLoading }
  ({ s with ingest := { s.ingest with xfers := s.ingest.xfers ++ [x] } } : State).xfersShow

/-- A strip's first fragment that nothing refuses begins its transfer. -/
theorem xferBegin_begun {s : State} {w : Window} {h : DbtHdr} {src port a : Nat} (hw : w.kind = .stripWrite)
    (hr : s.firstReason w h = 0) (ho : s.ingest.xfers.filter (s.writesSame w h.objIndex) = [])
    (hm : (s.ingest.xfers.filter fun y => y.session == h.session && y.window == h.window).length < 64)
    (hl : s.ingest.xfers.length < 1024) (ha : s.poolAlloc h.xferLen = some a) :
    s.xferBegin w h src port = begun s w h (xferOf h a s.now src port) := by
  have room : ¬ (64 ≤ (s.ingest.xfers.filter fun y => y.session == h.session && y.window == h.window).length ∨
      1024 ≤ s.ingest.xfers.length) := by omega
  simp only [State.xferBegin, hr, ho, State.each, List.foldl_nil, if_neg room, hw]
  simp [ha, begun, xferOf]

theorem begun_xfers (s : State) (w : Window) (h : DbtHdr) (x : Xfer) :
    (begun s w h x).ingest.xfers = s.ingest.xfers ++ [x] := rfl

theorem begun_inflight {s : State} (w : Window) (h : DbtHdr) (x : Xfer) (hl : s.ingest.xfers.length < 1024) :
    (begun s w h x).get HP_DBT_INFLIGHT_XFERS = s.ingest.xfers.length + 1 := by
  have shows : (begun s w h x).get HP_DBT_INFLIGHT_XFERS = (s.ingest.xfers ++ [x]).length % 2 ^ 11 :=
    get_put_same _ _ _ (by decide) (by decide)
  rw [shows, List.length_append, List.length_singleton, Nat.mod_eq_of_lt (by omega)]

theorem begun_slot {s : State} {w : Window} {h : DbtHdr} (x : Xfer) {f : Surface} (hf : s.surf w.surf w.gen = some f) :
    ((begun s w h x).slotOf w.surf w.gen h.objIndex).state = stLoading := by
  have slot := slotOf_modSlot s w.surf w.gen h.objIndex (fun z => { z.clear with state := stLoading }) hf
  exact congrArg Slot.state slot

theorem begun_inRing (s : State) (w : Window) (h : DbtHdr) (x : Xfer) (b : Nat) :
    (begun s w h x).inRing b = s.inRing b := inRing_put _ _ _ _ (by decide) (by decide)

/-- Only the transfer appended is the fragment's. -/
theorem begun_find {s : State} {w : Window} {h : DbtHdr} {x : Xfer} (hn : s.ingest.xfers.find? (·.isOf h) = none)
    (hx : x.isOf h = true) : (begun s w h x).ingest.xfers.find? (·.isOf h) = some x := by
  rw [begun_xfers, List.find?_append, hn]
  simp [hx]

theorem xferOf_isOf (h : DbtHdr) (a now src port : Nat) : (xferOf h a now src port).isOf h = true := by
  simp [Xfer.isOf, xferOf]

/-- A transfer with a fragment placed. -/
def grown (x : Xfer) (h : DbtHdr) (now src port : Nat) : Xfer :=
  { x with
    got := if x.got.contains h.frag then x.got else h.frag :: x.got
    lastAt := now
    src := if x.got.length = x.fragCount then x.src else src
    port := if x.got.length = x.fragCount then x.port else port
    ports := if x.ports.contains port then x.ports else port :: x.ports }

/-- A fragment not placed before is among those placed. -/
theorem grown_new {x : Xfer} {h : DbtHdr} {now src port : Nat} (hn : h.frag ∉ x.got) : grown x h now src port =
    { x with
      got := h.frag :: x.got, lastAt := now
      src := if x.got.length = x.fragCount then x.src else src
      port := if x.got.length = x.fragCount then x.port else port
      ports := if x.ports.contains port then x.ports else port :: x.ports } := by
  simp [grown, hn]

theorem grown_xferOf (h : DbtHdr) (a now src port : Nat) :
    grown (xferOf h a now src port) h now src port = { xferOf h a now src port with got := [h.frag] } := by
  by_cases e : 0 = h.fragCount <;> simp [grown, xferOf, e]

/-- The transfers of the key of a fragment's transfer are those the fragment belongs to. -/
theorem same_key_eq_isOf {x : Xfer} {h : DbtHdr} (hx : x.isOf h = true) (z : Xfer) :
    (z.session == x.session && z.window == x.window && z.id == x.id) = z.isOf h := by
  obtain ⟨hs, hw, hi⟩ : x.session = h.session ∧ x.window = h.window ∧ x.id = h.xferId := by
    simpa [Xfer.isOf, and_assoc] using hx
  rw [hs, hw, hi, Xfer.isOf]

/-- Placing a fragment of the last transfer in flight changes that transfer alone. -/
theorem fragPlace_xfers {s : State} {l : List Xfer} {x : Xfer} {h : DbtHdr} {f src port : Nat} {bs : List Byte}
    (hs : s.ingest.xfers = l ++ [x]) (hl : l.find? (·.isOf h) = none) (hx : x.isOf h = true) :
    (s.fragPlace x h f src port bs).ingest.xfers = l ++ [grown x h s.now src port] := by
  have all : (s.fragPlace x h f src port bs).ingest.xfers =
      s.ingest.xfers.map fun z => if z.isOf h then grown x h s.now src port else z := by
    simp only [← same_key_eq_isOf hx]
    rfl
  have kept : (l.map fun z => if z.isOf h then grown x h s.now src port else z) = l := by
    rw [List.map_congr_left fun z hz => if_neg (List.find?_eq_none.1 hl z hz), List.map_id']
  rw [all, hs, List.map_append, kept]
  simp [hx]

/-- The state in which a transfer that ended with a NAK has been answered. -/
theorem xferBegin_refused {s : State} {w : Window} {h : DbtHdr} {src port r : Nat} (hr : s.firstReason w h = r)
    (h0 : r ≠ 0) (h1 : r ≠ 0xFF) : s.xferBegin w h src port = s.xferAnswer (xferOf h 0 s.now src port) r := by
  simp [State.xferBegin, hr, h0, h1]

theorem c3Shed_xferEnd (s : State) (x : Xfer) : (s.xferEnd x).c3Shed = s.c3Shed := by
  have temp : (s.xferEnd x).get PW_TEMP_STEP = s.get PW_TEMP_STEP := get_put_ne _ _ _ _ (by decide)
  have dip : (s.xferEnd x).pwr = s.pwr := rfl
  simp only [State.c3Shed, State.c3Tokens, State.step, temp, dip]

/-- While C3 has tokens a NAK leaves at once and is counted. -/
theorem xferAnswer_nak {s : State} {x : Xfer} {r : Nat} (hc : s.c3Shed = false) (hr : r ≠ 0) :
    s.xferAnswer x r = ((s.xferEnd x).emit (.dbt ⟨x.session, x.window, x.id, x.obj, x.fragCount, x.len, x.crc, r, x.src,
      x.port, x.ports⟩)).inc HP_DBT_NAKS_COUNT := by
  simp [State.xferAnswer, State.dbtReply, State.dbtSend, c3Shed_xferEnd, hc, hr]

/-- A transfer refused before it began ends no other. -/
theorem xferEnd_xfers {s : State} {h : DbtHdr} {x : Xfer} (hn : s.ingest.xfers.find? (·.isOf h) = none)
    (hx : x.isOf h = true) : (s.xferEnd x).ingest.xfers = s.ingest.xfers := by
  have all : (s.xferEnd x).ingest.xfers = s.ingest.xfers.filter fun y => !y.isOf h := by
    simp only [← same_key_eq_isOf hx]
    rfl
  rw [all, List.filter_eq_self]
  intro y hy
  simpa using List.find?_eq_none.1 hn y hy

/-! What each kind of fragment leaves, over the state `s` and what `noted` changes of it. -/

/-- A transfer's first fragment begins it: its slot LOADING, its bytes in the store and nowhere else. -/
theorem begins_first {s y s' : State} {w : Window} {h : DbtHdr} {x : Xfer} {fr src port a : Nat} {bs : List Byte}
    {f : Surface} (hx : x = xferOf h a s.now src port) (hy : y = (begun s w h x).fragPlace x h fr src port bs)
    (R : Rest y s')
    (hn : s.ingest.xfers.find? (·.isOf h) = none) (hl : s.ingest.xfers.length < 1024) (hf : s.surf w.surf w.gen = some f) :
    s'.ingest.xfers = s.ingest.xfers ++ [{ x with got := [h.frag] }] ∧
      s'.get HP_DBT_INFLIGHT_XFERS = s.ingest.xfers.length + 1 ∧
      (s'.slotOf w.surf w.gen h.objIndex).state = stLoading ∧ s'.out = s.out ∧
      (∀ i (hi : i < bs.length), s.inRing (a + h.frag * fr + i) = false → s'.byte (a + h.frag * fr + i) = bs[i]) ∧
      (∀ b, s.inRing b = false → b < a + h.frag * fr ∨ a + h.frag * fr + bs.length ≤ b →
        s'.byte b = s.byte b) := by
  have addr : x.addr = a := by rw [hx]; rfl
  have same_now : (begun s w h x).now = s.now := wr_now _ _ _ (by decide)
  have ring (b : Nat) (hb : s.inRing b = false) : y.inRing b = false := by
    rw [hy, ← hb, ← begun_inRing s w h x b]
    rfl
  have bytes (b : Nat) (hb : s.inRing b = false) : s'.byte b = (s.wrMem (a + h.frag * fr) bs).byte b := by
    rw [R.mem b (ring b hb), hy, ← addr]
    rfl
  refine ⟨?xfers, ?inflight, ?slot, ?out, ?inside, ?outside⟩
  case xfers =>
    rw [rest_ingest R, hy, fragPlace_xfers (begun_xfers s w h x) hn (by rw [hx]; exact xferOf_isOf ..), same_now, hx,
      grown_xferOf]
  case inflight =>
    rw [R.get _ (by decide), hy]
    exact begun_inflight w h x hl
  case slot =>
    have surfs : s'.ingest.surfs = (begun s w h x).ingest.surfs := by rw [rest_ingest R, hy]; rfl
    rw [slotOf_congr surfs]
    exact begun_slot x hf
  case out => rw [R.out, hy]; rfl
  case inside =>
    intro i hi hb
    rw [bytes _ hb, byte_wrMem_inside _ _ _ _ hi]
  case outside =>
    intro b hb hout
    rw [bytes _ hb, byte_wrMem_outside _ _ _ hout]

theorem refused_xfers {s : State} {h : DbtHdr} {x : Xfer} {r : Nat} (hc : s.c3Shed = false) (hr : r ≠ 0)
    (hn : s.ingest.xfers.find? (·.isOf h) = none) (hx : x.isOf h = true) :
    (s.xferAnswer x r).ingest.xfers = s.ingest.xfers := by
  rw [xferAnswer_nak hc hr]
  exact xferEnd_xfers hn hx

/-- A first fragment that the window, its object or a live strip refuses is answered with a NAK. -/
theorem fragTake_nak {s z : State} {w : Window} {fr src port r : Nat} {h : DbtHdr} {bs : List Byte}
    (hn : s.isEnded h = false) (hz : s.endedTouch h = z) (hx : z.ingest.xfers.find? (·.isOf h) = none)
    (hr : z.firstReason w h = r) (h0 : r ≠ 0) (h1 : r ≠ 0xFF) (hc : z.c3Shed = false) :
    s.fragTake w fr h src port bs = z.xferAnswer (xferOf h 0 z.now src port) r := by
  refine fragTake_refused hn hz hx (xferBegin_refused hr h0 h1) ?_
  rw [refused_xfers hc h0 hx (xferOf_isOf ..), hx]

/-- A first fragment refused with a NAK changes no transfer and no byte. -/
theorem refuses_first {s s' : State} {h : DbtHdr} {x : Xfer} {r : Nat}
    (R : Rest (s.xferAnswer x r) s') (hn : s.ingest.xfers.find? (·.isOf h) = none) (hx : x.isOf h = true)
    (hc : s.c3Shed = false) (hr : r ≠ 0) :
    s'.ingest.xfers = s.ingest.xfers ∧
      s'.out = s.out ++ [.dbt ⟨x.session, x.window, x.id, x.obj, x.fragCount, x.len, x.crc, r, x.src,
        x.port, x.ports⟩] ∧
      s'.get HP_DBT_NAKS_COUNT = (s.get HP_DBT_NAKS_COUNT + 1) % 2 ^ 32 ∧
      (∀ b, s.inRing b = false → s'.byte b = s.byte b) := by
  have same := (congrArg Ingest.xfers (rest_ingest R)).trans (refused_xfers hc hr hn hx)
  rw [xferAnswer_nak hc hr] at R
  refine ⟨same, R.out, ?_, fun b hb => R.mem b ?_⟩
  · rw [R.get _ (by decide), get_inc _ _ (by decide) (by decide)]
    have naks : (s.xferEnd x).get HP_DBT_NAKS_COUNT = s.get HP_DBT_NAKS_COUNT := get_put_ne _ _ _ _ (by decide)
    exact congrArg (fun n => (n + 1) % 2 ^ 32) naks
  · have ended : (s.xferEnd x).inRing b = s.inRing b := inRing_put _ _ _ _ (by decide) (by decide)
    rw [← hb, ← ended]
    exact inRing_put _ _ _ _ (by decide) (by decide)

/-- A further fragment of the one transfer in flight is added to it, its bytes in the store. -/
theorem places_further {s s' : State} {h : DbtHdr} {x : Xfer} {fr src port : Nat} {bs : List Byte}
    (R : Rest (s.fragPlace x h fr src port bs) s') (hs : s.ingest.xfers = [x]) (hx : x.isOf h = true) :
    s'.ingest.xfers = [grown x h s.now src port] ∧
      (∀ i (hi : i < bs.length), s.inRing (x.addr + h.frag * fr + i) = false →
        s'.byte (x.addr + h.frag * fr + i) = bs[i]) ∧ s'.out = s.out := by
  refine ⟨?_, fun i hi hb => ?_, R.out⟩
  · rw [rest_ingest R]
    exact fragPlace_xfers (l := []) hs rfl hx
  · rw [R.mem _ hb]
    exact byte_wrMem_inside s _ bs i hi

theorem firstReason_surf {s : State} {w : Window} {h : DbtHdr} (hw : w.kind = .stripWrite) (hr : s.firstReason w h = 0) :
    ∃ f, s.surf w.surf w.gen = some f := by
  cases hf : s.surf w.surf w.gen with
  | some f => exact ⟨f, rfl⟩
  | none => simp [State.firstReason, hw, hf] at hr

/-- Settles O24: what a fragment's arrival notes changes nothing else, and each kind of fragment then has the effect that the
lemma for it states. -/
theorem fragmentsPlaced : Obligations.FragmentsPlaced := by
  unfold Obligations.FragmentsPlaced
  intro t port src dport v6 h bs e w s hc hu hp
  rw [exec_dbtFragment hc hu hp]
  refine ⟨fun hoff => ?other, fun hd hi he hw => ?_⟩
  case other =>
    rw [dbtArrives_foreign hoff]
    exact ⟨_, rfl, rest_whenRunning _⟩
  obtain ⟨r, hr⟩ := retxSeen_eq_noted (s.advance t) h
  obtain ⟨r', ended, hz⟩ := endedTouch_retxSeen_eq_noted (s.advance t) h
  rw [dbtArrives_own hd hi]
  have he' : ((s.advance t).retxSeen h).ingest.sessions.find? (·.id == h.session) = some e := by rw [hr]; exact he
  have hw' : ((s.advance t).retxSeen h).window h.session h.window = some w := by rw [hr]; exact hw
  have shed : ((s.advance t).retxSeen h).c3Shed = s.c3Shed := by rw [hr]; rfl
  refine ⟨fun hbad => ?bad, fun hok hk hrb hs => ?shed, fun hok hk hrb hs hn => ?taken⟩
  case bad =>
    rw [dbtFragment_bad he' hw' hbad, hr]
    exact ⟨_, rfl, rest_whenRunning _⟩
  case shed =>
    rw [dbtFragment_good he' hw' hok hk hrb, shed, if_pos hs]
    exact ⟨_, rfl, rest_whenRunning _⟩
  rw [dbtFragment_good he' hw' hok hk hrb, shed, hs, if_neg Bool.false_ne_true]
  have live : ((s.advance t).retxSeen h).isEnded h = false := by rw [isEnded_retxSeen, hn]
  refine ⟨fun a hx hwk hfr hsame hmine hlen hpool => ?begins, fun reason hx hfr h0 h1 => ?refuses,
    fun x hxs hx ho hf hl hcrc hgot => ?further, fun x hx hcrc => ?differs⟩
  case begins =>
    obtain ⟨f, surf⟩ := firstReason_surf hwk hfr
    have begin_ := xferBegin_begun (s := noted (s.advance t) r' ended) (src := src) (port := port) hwk hfr hsame hmine hlen
      hpool
    rw [fragTake_begun live hz hx begin_ (begun_find hx (xferOf_isOf ..))]
    have effect := begins_first (s := noted (s.advance t) r' ended) (src := src) (port := port) (fr := e.frag) (a := a)
      (bs := bs) rfl rfl (rest_whenRunning _) hx hlen surf
    exact ⟨_, rfl, effect⟩
  case refuses =>
    have shed' : (noted (s.advance t) r' ended).c3Shed = false := hs
    rw [fragTake_nak live hz hx hfr h0 h1 shed']
    have effect := refuses_first (s := noted (s.advance t) r' ended) (rest_whenRunning _) hx
      (xferOf_isOf h 0 (noted (s.advance t) r' ended).now src port) shed' h0
    exact ⟨_, rfl, effect⟩
  case further =>
    have found : (noted (s.advance t) r' ended).ingest.xfers.find? (·.isOf h) = some x := by
      rw [show (noted (s.advance t) r' ended).ingest.xfers = [x] from hxs]
      simp [hx]
    rw [fragTake_same live hz found ho hf hl hcrc]
    have effect := places_further (s := noted (s.advance t) r' ended) (src := src) (port := port) (fr := e.frag)
      (bs := bs) (rest_whenRunning _) hxs hx
    rw [grown_new hgot] at effect
    exact ⟨_, rfl, effect⟩
  case differs =>
    rw [fragTake_differs live hz hx hcrc]
    have R := rest_whenRunning (noted (s.advance t) r' ended).dbtDrop
    have xfers := congrArg Ingest.xfers (rest_ingest R)
    refine ⟨_, rfl, xfers, R.out, ?_⟩
    rw [R.get _ (by decide)]
    exact get_inc (noted (s.advance t) r' ended) HP_DBT_DROP_COUNT (by decide) (by decide)

/-! What an effect leaves of what is sent and of the registers. -/

/-- What has been sent and every register outside `shown` are as they were. -/
structure Quiet (x y : State) : Prop where
  out : y.out = x.out
  words : ∀ a, a ∉ shown → y.rd a = x.rd a

theorem quiet_of_rest {x y : State} (h : Rest x y) : Quiet x y := ⟨h.out, h.words⟩

theorem quiet_of_same {x y : State} (ho : y.out = x.out) (hw : y.words = x.words) : Quiet x y :=
  ⟨ho, fun a _ => by simp [State.rd, hw]⟩

theorem quiet_trans {x y z : State} (h : Quiet x y) (k : Quiet y z) : Quiet x z :=
  ⟨k.out.trans h.out, fun a ha => (k.words a ha).trans (h.words a ha)⟩

theorem quiet_get {x y : State} (h : Quiet x y) (f : Fld) (hf : f.addr ∉ shown) : y.get f = x.get f := by
  rw [State.get, State.get, h.words _ hf]

theorem quiet_wastePair (s : State) (ord line : Nat) : Quiet s (s.wastePair ord line) := by
  unfold State.wastePair
  split
  · exact quiet_of_rest (rest_wasteCopy ..)
  · exact quiet_of_same rfl rfl

theorem quiet_hbItem (s : State) (a b c d : Nat) : Quiet s (s.hbItem a b c d) := by
  have recorded : Quiet s (if bits a 31 24 == 4 then s else
      s.record 0x04 s.now (([a, b, c, d].map (· % 2 ^ 32)).flatMap (leBytes 4))) := by
    split
    · exact quiet_of_same rfl rfl
    · exact quiet_of_rest (rest_record ..)
  have queued (y : State) (l : List HbItem) : Quiet y (if y.base == .active || y.base == .standby then
      { y with pair := { y.pair with items := y.pair.items ++ l } } else y) := by
    split
    · exact quiet_of_same rfl rfl
    · exact quiet_of_same rfl rfl
  exact quiet_trans recorded (queued _ _)

/-- A line reported as not sent whole sends nothing, and shows in no register but those of waste marking and events. -/
theorem quiet_unsentLine (s : State) (ch : Nat) (x : ChanLine) (cause kind : Nat) :
    Quiet s (s.unsentLine ch x cause kind) := by
  cases hb : s.base <;> simp only [State.unsentLine, hb]
  case single =>
    split
    · exact quiet_of_rest (rest_waste ..)
    · exact quiet_of_same rfl rfl
  case active =>
    split
    · exact quiet_wastePair ..
    · exact quiet_of_same rfl rfl
  case standby => exact quiet_hbItem ..
  all_goals exact quiet_of_same rfl rfl


theorem quiet_voidSeen (s : State) (x : ChanLine) : Quiet s (s.voidSeen x) := quiet_of_same rfl rfl

theorem quiet_linesPrune (s : State) (ch : Nat) : Quiet s (s.linesPrune ch) := quiet_of_same rfl rfl

/-! The registers of a head lane lie apart from those that `shown` lists, those of underruns and the ring's region. -/

theorem jl_stat_not_shown {ch : Nat} (h : ch < 96) : JL_STAT ch ∉ shown := by
  simp only [shown, JL_STAT, laneBase, if_pos h, List.mem_cons, List.not_mem_nil, or_false]
  simp only [EV_NEXT_SEQ, EV_OLDEST_SEQ, EV_IRQ_STAT, EV_PUSH_STAT, AG_STAT, FS_WM_STAT, GL_DEGRADED, GL_ROLE_STAT]
  omega

theorem jl_rt_cnt_not_shown {ch : Nat} (h : ch < 96) : JL_RT_CNT ch ∉ shown := by
  simp only [shown, JL_RT_CNT, laneBase, if_pos h, List.mem_cons, List.not_mem_nil, or_false]
  simp only [EV_NEXT_SEQ, EV_OLDEST_SEQ, EV_IRQ_STAT, EV_PUSH_STAT, AG_STAT, FS_WM_STAT, GL_DEGRADED, GL_ROLE_STAT]
  omega

theorem pg_underrun_not_shown {n : Nat} (h : n < 3) : PG_UNDERRUN n ∉ shown := by
  simp only [shown, PG_UNDERRUN, List.mem_cons, List.not_mem_nil, or_false]
  simp only [EV_NEXT_SEQ, EV_OLDEST_SEQ, EV_IRQ_STAT, EV_PUSH_STAT, AG_STAT, FS_WM_STAT, GL_DEGRADED, GL_ROLE_STAT]
  omega

theorem jl_stat_ne_pg_evt_stat {ch : Nat} (h : ch < 96) : JL_STAT ch ≠ PG_EVT_STAT := by
  simp only [JL_STAT, laneBase, if_pos h, PG_EVT_STAT]
  omega

theorem jl_stat_ne_pg_underrun {ch n : Nat} (h : ch < 96) (hn : n < 3) : JL_STAT ch ≠ PG_UNDERRUN n := by
  simp only [JL_STAT, laneBase, if_pos h, PG_UNDERRUN]
  omega

theorem pg_evt_stat_ne_pg_underrun (n : Nat) : PG_EVT_STAT ≠ PG_UNDERRUN n := by
  simp only [PG_EVT_STAT, PG_UNDERRUN]
  omega

/-! Lines that wait. -/

/-- A channel's lines after a change that leaves none where there were none. -/
theorem chanLines_modLines (s : State) (ch : Nat) {f : List ChanLine → List ChanLine} (hf : f [] = []) :
    (s.modLines ch f).chanLines ch = f (s.chanLines ch) := by
  simp only [State.chanLines, State.modLines, modAt, List.getD_eq_getElem?_getD, List.getElem?_modify_eq]
  cases s.lines[ch]? with
  | none => simp [hf]
  | some l => simp

theorem chanLines_linesPrune (s : State) (ch : Nat) :
    (s.linesPrune ch).chanLines ch = (s.chanLines ch).filter fun x => !x.past s.now :=
  chanLines_modLines s ch rfl

/-- Letting lines go takes none from those outstanding. -/
theorem outstanding_linesPrune_le (s : State) (ch : Nat) : (s.linesPrune ch).outstanding ch ≤ s.outstanding ch := by
  unfold State.outstanding
  rw [chanLines_linesPrune]
  exact (List.filter_sublist.filter _).length_le

section Waiting
variable {s : State} {ch : Nat} {x : ChanLine} {rest : List ChanLine} (hl : s.chanLines ch = x :: rest)
  (hu : x.unsent = false) (hv : x.voided = false) (hs : x.stamp = none)
include hl hu hv hs

/-- The first line of a channel that waits is due. -/
theorem lineDue_first : s.lineDue ch = some x := by
  simp [State.lineDue, hl, hu, hv, hs]

/-- It is not let go. -/
theorem lineDue_linesPrune : (s.linesPrune ch).lineDue ch = some x := by
  simp [State.lineDue, chanLines_linesPrune, hl, hu, hv, hs, ChanLine.past]

end Waiting

/-! What R255 puts before a LINE record. -/

/-- Where no WAVE or SET waits none is sent. -/
theorem ctlFlush_of_none_waits {s : State} {l : Nat} (h : (s.laneSt l).ctl.all (·.copies != 0) = true) :
    s.ctlFlush l = s := by
  have none_waits (wave : Bool) : idxs (s.laneSt l).ctl.length (fun i =>
      ((s.laneSt l).ctl[i]?).any fun c => c.copies == 0 && c.wave == wave) = [] := by
    rw [idxs, List.filter_eq_nil_iff]
    intro i _
    cases hc : (s.laneSt l).ctl[i]? with
    | none => simp
    | some c =>
      have sent : c.copies ≠ 0 := by simpa using List.all_eq_true.1 h c (List.mem_of_getElem? hc)
      simp [sent]
  simp only [State.ctlFlush, none_waits]
  rfl

theorem retimeCycle_not_due {s : State} {l : Nat}
    (h : s.past (s.laneSt l).retimeAt (s.get JL_RT_CFG_CYCLE_US * 1000) = false) : s.retimeCycle l = s := by
  simp [State.retimeCycle, h]

theorem tsyncGo_not_due {s : State} {l : Nat}
    (h : s.past (s.laneSt l).tsyncAt (s.get TB_HDM_CFG_TSYNC_US * 1000) = false) : s.tsyncGo l = s := by
  simp [State.tsyncGo, h]

/-- A lane where no TSYNC, no retime cycle and no WAVE or SET is ready sends nothing before a LINE record. -/
theorem recordsFirst_of_clear {s : State} {l : Nat} (h : s.laneClear l = true) : s.recordsFirst l = s := by
  obtain ⟨⟨ts, rt⟩, ctl⟩ : ((s.past (s.laneSt l).tsyncAt (s.get TB_HDM_CFG_TSYNC_US * 1000) = false ∧
      s.past (s.laneSt l).retimeAt (s.get JL_RT_CFG_CYCLE_US * 1000) = false) ∧
      (s.laneSt l).ctl.all (·.copies != 0) = true) := by
    simpa [State.laneClear] using h
  simp [State.recordsFirst, tsyncGo_not_due ts, retimeCycle_not_due rt, ctlFlush_of_none_waits ctl]

/-! A record that leaves. -/

/-- A VOID that leaves is counted; a record that leaves with its payload changes no register. -/
theorem quiet_lineLeaves (s : State) (ch : Nat) (x : ChanLine) (void : Bool) :
    Quiet ((if void then s.inc (JL_STAT_VOIDCNT ch) else s).emit
      (.joend ch (x.record s.claim (max x.pred (s.now + 50000)) void))) (s.lineLeaves ch x void) := by
  cases void
  · exact quiet_of_same rfl rfl
  · exact quiet_of_same rfl rfl

/-- A record leaves, and is reported, with its waste cause, where it is VOID. -/
def lineGone (s : State) (ch : Nat) (x : ChanLine) (void : Bool) (cause : Nat) : State :=
  if void then (s.lineLeaves ch x void).unsentLine ch x cause 0 else s.lineLeaves ch x void

theorem quiet_lineGone (s : State) (ch : Nat) (x : ChanLine) (void : Bool) (cause : Nat) :
    Quiet ((if void then s.inc (JL_STAT_VOIDCNT ch) else s).emit
      (.joend ch (x.record s.claim (max x.pred (s.now + 50000)) void))) (lineGone s ch x void cause) := by
  refine quiet_trans (quiet_lineLeaves s ch x void) ?_
  cases void
  · exact quiet_of_same rfl rfl
  · exact quiet_unsentLine ..

/-- What LINE_SEND leaves of the lane's registers, over the state the record leaves from. -/
theorem lineGone_shows {s z : State} {ch : Nat} {x : ChanLine} {void : Bool} {cause : Nat} (hch : ch < 96)
    (Q : Quiet (lineGone s ch x void cause) z) :
    z.out = s.out ++ [.joend ch (x.record s.claim (max x.pred (s.now + 50000)) void)] ∧
      z.get (JL_STAT_VOIDCNT ch) = (s.get (JL_STAT_VOIDCNT ch) + b2n void) % 2 ^ 16 ∧
      z.get (JL_STAT_RXERR ch) = s.get (JL_STAT_RXERR ch) ∧ (void = false → ∀ a, a ∉ shown → z.rd a = s.rd a) := by
  have all := quiet_trans (quiet_lineGone s ch x void cause) Q
  have small : s.get (JL_STAT_VOIDCNT ch) < 2 ^ 16 := get_lt s _
  cases void
  · refine ⟨all.out, ?_, quiet_get all _ (jl_stat_not_shown hch), fun _ => all.words⟩
    exact (quiet_get all _ (jl_stat_not_shown hch)).trans (Nat.mod_eq_of_lt small).symm
  · refine ⟨all.out, ?_, ?_, fun h => nomatch h⟩
    · have counted : (s.inc (JL_STAT_VOIDCNT ch)).get (JL_STAT_VOIDCNT ch) = _ :=
        get_inc s (JL_STAT_VOIDCNT ch) (by simp) (by simp)
      exact (quiet_get all _ (jl_stat_not_shown hch)).trans counted
    · have errors : (s.inc (JL_STAT_VOIDCNT ch)).get (JL_STAT_RXERR ch) = s.get (JL_STAT_RXERR ch) :=
        get_put_apart s (JL_STAT_VOIDCNT ch) (JL_STAT_RXERR ch) _ (by simp) (by simp) (by simp)
      exact (quiet_get all _ (jl_stat_not_shown hch)).trans errors

/-- The event bit and the channel's bit of an UNDERRUN. -/
def underrunBits (s : State) (ch : Nat) : State :=
  (s.flag PG_EVT_STAT_UNDERRUN true).chanBit PG_UNDERRUN_CH ch true

theorem quiet_modRun (s : State) (ord page : Nat) (f : PageRun → PageRun) : Quiet s (s.modRun ord page f) :=
  quiet_of_same rfl rfl

theorem quiet_underrun (s : State) (ch : Nat) (x : ChanLine) : Quiet (underrunBits s ch) (s.underrun ch x) := by
  rw [State.underrun]
  simp only [show (s.flag PG_EVT_STAT_UNDERRUN true).chanBit PG_UNDERRUN_CH ch true = underrunBits s ch from rfl]
  generalize underrunBits s ch = u
  cases u.runAt x.ord x.line with
  | none => exact quiet_of_same rfl rfl
  | some r =>
    dsimp only
    split
    · exact quiet_of_same rfl rfl
    · refine quiet_trans (quiet_modRun u r.ord r.page fun r => { r with underruns := ch :: r.underruns }) ?_
      split
      · exact quiet_of_rest (rest_raise ..)
      · exact quiet_of_same rfl rfl

theorem underrunBits_event (s : State) (ch : Nat) : (underrunBits s ch).get PG_EVT_STAT_UNDERRUN = 1 := by
  rw [underrunBits, State.chanBit, State.setBitOf, get_put_ne _ _ _ _ (pg_evt_stat_ne_pg_underrun _), State.flag,
    get_put_same s _ _ (by decide) (by decide)]
  rfl

theorem underrunBits_channel (s : State) (ch : Nat) :
    (underrunBits s ch).bitOf (PG_UNDERRUN_CH (ch / 32)) (ch % 32) = true := by
  have low : ch % 32 < 32 := Nat.mod_lt _ (by decide)
  have field : (underrunBits s ch).get (PG_UNDERRUN_CH (ch / 32)) =
      setBit ((s.flag PG_EVT_STAT_UNDERRUN true).get (PG_UNDERRUN_CH (ch / 32))) (ch % 32) true % 2 ^ 32 :=
    get_put_same _ _ _ (by simp) (by simp)
  rw [State.bitOf, bit, field, Nat.testBit_mod_two_pow, setBit, testBit_setBits _ _ _ _ _ (by omega)]
  simp [low]

theorem underrunBits_voidcnt {s : State} {ch : Nat} (h : ch < 96) :
    (underrunBits s ch).get (JL_STAT_VOIDCNT ch) = s.get (JL_STAT_VOIDCNT ch) := by
  rw [underrunBits, State.chanBit, State.setBitOf, get_put_ne _ _ _ _ (jl_stat_ne_pg_underrun h (by omega)), State.flag,
    get_put_ne s _ _ _ (jl_stat_ne_pg_evt_stat h)]

/-- A line that is late leaves VOID, counted and reported as UNDERRUN. -/
theorem lineLate_shows {s z : State} {ch : Nat} {x : ChanLine} (hch : ch < 96) (Q : Quiet (s.lineLate ch x) z) :
    z.out = s.out ++ [.joend ch (x.record s.claim (max x.pred (s.now + 50000)) true)] ∧
      z.get (JL_STAT_VOIDCNT ch) = (s.get (JL_STAT_VOIDCNT ch) + 1) % 2 ^ 16 ∧
      z.get PG_EVT_STAT_UNDERRUN = 1 ∧ z.bitOf (PG_UNDERRUN_CH (ch / 32)) (ch % 32) = true := by
  have all := quiet_trans (quiet_underrun (lineGone s ch x true (s.voidCause x)) ch x) Q
  obtain ⟨out, voids, -, -⟩ := lineGone_shows hch (quiet_of_rest (Rest.refl (lineGone s ch x true (s.voidCause x))))
  refine ⟨all.out.trans out, ?_, ?_, ?_⟩
  · rw [quiet_get all _ (jl_stat_not_shown hch), underrunBits_voidcnt hch, voids]
    rfl
  · rw [quiet_get all _ (by decide), underrunBits_event]
  · rw [State.bitOf, quiet_get all _ (pg_underrun_not_shown (by omega))]
    exact underrunBits_channel ..

theorem ready_of_flowing {s : State} {l : Nat} (h : s.flowing l = true) : s.ready l = true := by
  simp only [State.flowing, State.inL0, Bool.and_eq_true] at h
  exact h.1.1

section Sends
variable {s y : State} {ch : Nat} {x : ChanLine} {rest : List ChanLine} (hl : y.chanLines ch = x :: rest)
  (hu : x.unsent = false) (hv : x.voided = false) (hs : x.stamp = none) (hf : y.flowing ch = true)
  (hsl : y.sendsLines = true)
include hl hu hv hs hf hsl

/-- A complete record leaves where the window has room (R260). -/
theorem lineSend_in_window (hy : s.recordsFirst ch = y) (hp : y.now + 200000 ≤ x.pred) (hd : x.doneAt ≤ y.now)
    (hw : y.outstanding ch < y.get (JL_OUT_WINDOW ch)) :
    ∃ cause, s.lineSend ch = lineGone (y.linesPrune ch) ch x (x.void || y.voidAll) cause := by
  have sends : (y.linesPrune ch).sendsLines = true := hsl
  have flows : (y.linesPrune ch).flowing ch = true := hf
  have intime : ¬ x.pred < (y.linesPrune ch).now + 200000 := Nat.not_lt.2 hp
  have room : (decide (x.doneAt ≤ (y.linesPrune ch).now) &&
      decide ((y.linesPrune ch).outstanding ch < (y.linesPrune ch).get (JL_OUT_WINDOW ch))) = true := by
    rw [Bool.and_eq_true, decide_eq_true_eq, decide_eq_true_eq]
    exact ⟨hd, Nat.lt_of_le_of_lt (outstanding_linesPrune_le y ch) hw⟩
  simp only [State.lineSend, hy, sends, if_true, lineDue_linesPrune hl hu hv hs, ready_of_flowing flows, flows,
    Bool.not_true, Bool.false_eq_true, if_false, if_neg intime, if_pos room]
  exact ⟨_, rfl⟩

/-- A line that LINE_SEND finds late leaves VOID (R32). -/
theorem lineSend_late (hy : s.recordsFirst ch = y) (hp : x.pred < y.now + 200000) :
    s.lineSend ch = (y.linesPrune ch).lineLate ch x := by
  have sends : (y.linesPrune ch).sendsLines = true := hsl
  have flows : (y.linesPrune ch).flowing ch = true := hf
  have late : x.pred < (y.linesPrune ch).now + 200000 := hp
  simp only [State.lineSend, hy, sends, if_true, lineDue_linesPrune hl hu hv hs, ready_of_flowing flows, flows,
    Bool.not_true, Bool.false_eq_true, if_false, if_pos late]

/-- So does one at its deadline. -/
theorem lineDeadline_late (hy : y.recordsFirst ch = y) (hp : x.pred ≤ y.now + 200000) :
    y.lineDeadline ch = y.lineLate ch x := by
  simp [State.lineDeadline, hsl, lineDue_first hl hu hv hs, hf, hp, hy]

end Sends

/-! A TSYNC that leaves first. -/

/-- What a change of a lane keeps of every lane state it keeps of that lane's. -/
theorem laneSt_modLane_keeps {β : Type} (g : LaneSt → β) (s : State) (l : Nat) {f : LaneSt → LaneSt}
    (h : ∀ x, g (f x) = g x) : g ((s.modLane l f).laneSt l) = g (s.laneSt l) := by
  simp only [State.laneSt, State.modLane, modAt, List.getD_eq_getElem?_getD, List.getElem?_modify_eq]
  cases s.lanes[l]? with
  | none => rfl
  | some x => exact h x

theorem sendTsync_keeps {β : Type} (g : LaneSt → β) (s : State) (l : Nat)
    (ht : ∀ x id out at_, g { x with tsId := id, tsOut := out, tsyncAt := at_ } = g x)
    (hx : ∀ x at_, g { x with lastTx := at_ } = g x) : g ((s.sendTsync l).laneSt l) = g (s.laneSt l) := by
  exact (laneSt_modLane_keeps g _ l fun x => hx x _).trans (laneSt_modLane_keeps g s l fun x => ht x _ _ _)

/-- A TSYNC that is due leaves before a LINE record, alone where nothing else is ready. -/
theorem recordsFirst_of_tsync {s : State} {l : Nat} (hf : s.flowing l = true)
    (ht : s.past (s.laneSt l).tsyncAt (s.get TB_HDM_CFG_TSYNC_US * 1000) = true)
    (hr : s.past (s.laneSt l).retimeAt (s.get JL_RT_CFG_CYCLE_US * 1000) = false)
    (hc : (s.laneSt l).ctl.all (·.copies != 0) = true) : s.recordsFirst l = s.sendTsync l := by
  have tsync : s.tsyncGo l = s.sendTsync l := by simp [State.tsyncGo, hf, ht]
  have retimeAt := sendTsync_keeps LaneSt.retimeAt s l (fun _ _ _ _ => rfl) (fun _ _ => rfl)
  have ctl := sendTsync_keeps LaneSt.ctl s l (fun _ _ _ _ => rfl) (fun _ _ => rfl)
  have no_cycle : (s.sendTsync l).retimeCycle l = s.sendTsync l := retimeCycle_not_due (by rw [retimeAt]; exact hr)
  have no_ctl : (s.sendTsync l).ctlFlush l = s.sendTsync l := ctlFlush_of_none_waits (by rw [ctl]; exact hc)
  simp [State.recordsFirst, hf, tsync, no_cycle, no_ctl]

/-! RETIME of one line. -/

/-- A line retimed in a delta: the record, the line's new stamp, the count. -/
def retimedOne (s : State) (ch : Nat) (x : ChanLine) (f : Nat) : State :=
  ((s.sendUse ch (.retime s.claim x.seq true [(x.pred : Int) - f])).modLine ch x.seq fun y =>
    { y with stamp := some x.pred }).inc (JL_RT_CNT_RETIMES ch)

section Retime
variable {s : State} {ch f : Nat} {x : ChanLine} (hs : x.stamp = some f) (hn : s.now + 50000 ≤ x.pred)
include hs hn

theorem sendRetime_one (hup : f < x.pred + 32768) (hdown : x.pred < f + 32768) :
    s.sendRetime ch [x] = retimedOne s ch x f := by
  have new : max x.pred (s.now + 50000) = x.pred := Nat.max_eq_left hn
  have small : ((x.pred : Int) - f).natAbs ≤ 32767 := by omega
  simp only [State.sendRetime, State.each, List.map_cons, List.map_nil, List.all_cons, List.all_nil, List.foldl_cons,
    List.foldl_nil, new, hs, Option.getD_some, small, decide_true, Bool.and_true, if_true, List.headD_cons]
  rfl

/-- A cycle that is due retimes the one line whose prediction has moved beyond THR_NS (R262). -/
theorem retimeCycle_one (hl : s.chanLines ch = [x]) (hf : s.flowing ch = true) (hsl : s.sendsLines = true)
    (hstamp : s.now + 50000 ≤ f) (hup : f < x.pred + 32768) (hdown : x.pred < f + 32768)
    (hthr : s.get JL_RT_CFG_THR_NS < ((x.pred : Int) - f).natAbs)
    (hdue : s.past (s.laneSt ch).retimeAt (s.get JL_RT_CFG_CYCLE_US * 1000) = true) :
    s.retimeCycle ch =
      (retimedOne (s.modLane ch fun y => { y with retimeAt := s.now }) ch x f).linesPrune ch := by
  let z := s.modLane ch fun y => { y with retimeAt := s.now }
  have moves : z.moves x = true := by
    have frozen : z.now + 50000 ≤ f := hstamp
    have far : z.get JL_RT_CFG_THR_NS < ((x.pred : Int) - f).natAbs := hthr
    simp [State.moves, hs, frozen, far]
  have lines : z.chanLines ch = [x] := hl
  have runs : seqRuns ((z.chanLines ch).filter z.moves) = [[x]] := by simp [lines, moves, seqRuns]
  have flows : z.flowing ch = true := hf
  have sends : z.sendsLines = true := hsl
  have retimes : z.retime ch = z.sendRetime ch [x] := by
    simp only [State.retime, runs, sends, flows]
    rfl
  rw [State.retimeCycle, if_pos hdue]
  show (z.retime ch).linesPrune ch = _
  rw [retimes, sendRetime_one (s := z) hs hn hup hdown]

end Retime

theorem jl_rt_cnt_ne_tb_ofs_cfg {ch : Nat} (h : ch < 96) : TB_OFS_CFG ≠ JL_RT_CNT ch := by
  simp only [TB_OFS_CFG, JL_RT_CNT, laneBase, if_pos h]
  omega

/-- The line stays, with its new stamp. -/
theorem chanLines_retimedOne {s : State} {ch f : Nat} {x : ChanLine} (hch : ch < 96) (hl : s.chanLines ch = [x])
    (hn : s.now + 50000 ≤ x.pred) :
    ((retimedOne s ch x f).linesPrune ch).chanLines ch = [{ x with stamp := some x.pred }] := by
  have now : (retimedOne s ch x f).now = s.now := wr_now _ _ _ (jl_rt_cnt_ne_tb_ofs_cfg hch)
  have stamped : (retimedOne s ch x f).chanLines ch = [{ x with stamp := some x.pred }] := by
    refine (chanLines_modLines _ ch rfl).trans ?_
    rw [show (s.sendUse ch (.retime s.claim x.seq true [(x.pred : Int) - f])).chanLines ch = [x] from hl]
    simp
  have ahead : ¬ x.pred ≤ s.now := by omega
  rw [chanLines_linesPrune, stamped, now]
  simp [ChanLine.past, ahead]

/-- A retime is sent and counted, and changes no other register. -/
theorem retimedOne_shows {s z : State} {ch f : Nat} {x : ChanLine} (hch : ch < 96) (Q : Quiet (retimedOne s ch x f) z) :
    z.out = s.out ++ [.joend ch (.retime s.claim x.seq true [(x.pred : Int) - f])] ∧
      z.get (JL_RT_CNT_RETIMES ch) = (s.get (JL_RT_CNT_RETIMES ch) + 1) % 2 ^ 16 ∧
      ∀ a, a ∉ shown → a ≠ JL_RT_CNT ch → z.rd a = s.rd a := by
  refine ⟨Q.out, ?_, fun a ha hne => ?_⟩
  · rw [quiet_get Q _ (jl_rt_cnt_not_shown hch), retimedOne, get_inc _ _ (by simp) (by simp)]
    rfl
  · rw [Q.words a ha, retimedOne]
    exact rd_put_ne _ _ _ hne

theorem rest_chanLines {x y : State} (h : Rest x y) (ch : Nat) : y.chanLines ch = x.chanLines ch :=
  have e := congrArg (fun s : State => s.chanLines ch) h.bare
  e

/-- A command for a head lane has its effect there. -/
theorem exec_lane {t ch : Nat} {s : State} (hc : s.core = .running) (hch : ch < 96) :
    exec (.lineSend t ch) s = .next (((s.advance t).lineSend ch).whenRunning settle) ∧
      exec (.lineDeadline t ch) s = .next (((s.advance t).lineDeadline ch).whenRunning settle) ∧
      exec (.retimeCycle t ch) s = .next ((((s.advance t).tsyncGo ch).retimeCycle ch).whenRunning settle) := by
  refine ⟨?_, ?_, ?_⟩
  · show execLineSend t ch s = _
    rw [execLineSend, run_on hc, if_pos hch]
  · show execLineDeadline t ch s = _
    rw [execLineDeadline, run_on hc, if_pos hch]
  · show execRetimeCycle t ch s = _
    rw [execRetimeCycle, run_on hc, if_pos hch]

/-- Settles O16: with nothing ready before it, or a TSYNC alone, the first line that waits leaves by the lemma for a
record that leaves in time, or for one that is late; a stamped line goes by the lemma for one that is retimed. -/
theorem linesLeave : Obligations.LinesLeave := by
  unfold Obligations.LinesLeave
  intro t ch x rest s hc hch hl hu hv hf hsl
  obtain ⟨sendEq, deadlineEq, retimeEq⟩ := exec_lane (t := t) hc hch
  refine ⟨fun hs hp hd hw hclear => ?send, fun hs hp hd hw hctl hrt hts => ?tsync, fun c hcmd hs hclear => ?late,
    fun f hs hrest hfz hup hdown hpn hthr hrt hts => ?retime⟩
  case send =>
    obtain ⟨cause, effect⟩ := lineSend_in_window (y := s.advance t) hl hu hv hs hf hsl (recordsFirst_of_clear hclear)
      hp hd hw
    rw [sendEq, effect]
    obtain ⟨out, voids, errors, words⟩ := lineGone_shows hch (quiet_of_rest (rest_whenRunning (lineGone
      ((s.advance t).linesPrune ch) ch x (x.void || s.voidAll) cause)))
    exact ⟨_, rfl, out, voids, errors, fun hx hall => words (by rw [hx, hall]; rfl)⟩
  case tsync =>
    obtain ⟨cause, effect⟩ := lineSend_in_window (s := s.advance t) (y := (s.advance t).sendTsync ch) hl hu hv hs hf hsl
      (recordsFirst_of_tsync hf hts hrt hctl) hp hd hw
    rw [sendEq, effect]
    obtain ⟨out, -⟩ := lineGone_shows hch (quiet_of_rest (rest_whenRunning (lineGone
      (((s.advance t).sendTsync ch).linesPrune ch) ch x (x.void || s.voidAll) cause)))
    refine ⟨_, rfl, out.trans ?_⟩
    exact List.append_assoc s.out [_] [_]
  case late =>
    rcases hcmd with ⟨rfl, hp⟩ | ⟨rfl, hp⟩
    · have effect := lineDeadline_late (y := s.advance t) hl hu hv hs hf hsl (recordsFirst_of_clear hclear) hp
      rw [deadlineEq, effect]
      exact ⟨_, rfl, lineLate_shows (s := s.advance t) hch (quiet_of_rest (rest_whenRunning _))⟩
    · have effect := lineSend_late (y := s.advance t) hl hu hv hs hf hsl (recordsFirst_of_clear hclear) hp
      rw [sendEq, effect]
      exact ⟨_, rfl, lineLate_shows (s := (s.advance t).linesPrune ch) hch (quiet_of_rest (rest_whenRunning _))⟩
  case retime =>
    subst hrest
    have effect := retimeCycle_one (s := s.advance t) hs hpn hl hf hsl hfz hup hdown hthr hrt
    rw [retimeEq, tsyncGo_not_due hts, effect]
    obtain ⟨out, retimes, words⟩ := retimedOne_shows
      (s := (s.advance t).modLane ch fun y => { y with retimeAt := (s.advance t).now }) (x := x) (f := f) hch
      (quiet_trans (quiet_linesPrune _ ch) (quiet_of_rest (rest_whenRunning _)))
    refine ⟨_, rfl, out, ?_, retimes, words⟩
    rw [rest_chanLines (rest_whenRunning _)]
    exact chanLines_retimedOne hch hl hpn


/-! MP_LINK_UP and what follows every command (O56). -/

/-- A running unit whose MP is down, with a waste range that its markers have both passed and that has not been told. -/
def passedRange : State :=
  { State.reset with core := .running, fire := { Fire.reset with ranges := [⟨1, -2000, -1000, false⟩] } }

/-- Once MP is up, settling reports the range with event 0x4201 (R306). -/
theorem passedRange_told :
    ((({ passedRange with clk := 0 } : State).flag HP_MP_STAT_LINK true).whenRunning settle).events ≠ [] := by
  decide +kernel

/-- Refutes O56: MP_LINK_UP after no loss need not leave the events as they were. What follows every command settles the
waste ranges too, and reports one whose end has become known with event 0x4201 (R306). -/
theorem not_networkServices : ¬ Obligations.NetworkServices := by
  unfold Obligations.NetworkServices
  intro h
  obtain ⟨-, -, -, -, -, linkUp, -⟩ := h 0 passedRange rfl
  obtain ⟨s', hs, -, -, quiet⟩ := linkUp (by decide)
  rw [next_of_run rfl hs] at quiet
  exact passedRange_told (quiet rfl)

/-! A tick end whose one command enters replay and runs it (O27). -/

/-- What a ring holds: a TIME record of tick 5 and another record, each framed with its sequence number. -/
def tape : List Byte :=
  ringBytes 0x0D false 0 1250000 [0, 0, 0, 1, 0, 0, 0, 0] ++ ringBytes 0x0D false 1 1250000 [0, 0, 0, 0xFF, 0, 0, 0, 0]

/-- A critical WRITE that sets ENTER and RUN of AG_RP_CTRL in one word. -/
def replayWrite : Held := ⟨0x02, 0, 3, 1, 0, 0, [AG_RP_CTRL, 3, 3], 0⟩

/-- A unit in SINGLE with MP up, `tape` in its recorder's ring, and `replayWrite` held and due at tick 0. -/
def bench : State :=
  let s := ({ State.reset with
    core := .running, base := .single, clk := 20000, tb := { TimeBase.reset with seen := 1 }
    agate := { Recorder.reset with next := 112, nextSeq := 2, whole := [⟨64, 24, 0⟩, ⟨88, 24, 1⟩] }
    dcp := { Dcp.reset with held := [replayWrite] } }).put HP_MP_STAT_LINK 1
  s.wrMem (s.rgnBase 6 + 64) tape

/-- What TICK_END does before settling: the replay's next step, and the tick's end where the tick is new. -/
def tickEffect (s : State) : State :=
  let s := s.replayStep
  if s.tick != s.tb.seen then s.tickEnd else s

/-- The replay that the commit starts puts the tick of the recorded TIME in place of the tick that ended. -/
theorem bench_seen : (tickEffect (bench.advance 0)).tb.seen = 5 := by decide +kernel

/-- Refutes O27: the tick that TICK_END took need not stand in `tb.seen` after it. Where the one command held is a WRITE
of ENTER and RUN, its commit runs the recorder's ring from the first TIME of it, and the replay takes that TIME's tick. -/
theorem not_tickEnds : ¬ Obligations.TickEnds := by
  unfold Obligations.TickEnds
  intro h
  obtain ⟨-, -, commit, -⟩ := h 0 bench rfl (by decide +kernel)
  obtain ⟨s', a, hs, hseen, -⟩ := commit replayWrite rfl (by decide +kernel) (by decide +kernel) rfl (by decide +kernel)
    rfl (by decide +kernel)
  have e : s' = (tickEffect (bench.advance 0)).whenRunning settle := next_of_run rfl hs
  have here : (bench.advance 0).tick = 0 := by decide +kernel
  rw [e, rest_tb (rest_whenRunning _), bench_seen, here] at hseen
  contradiction

/-! FLUSH of an encoder that gathers no strip (O58). -/

/-- A unit with no stream of the screen, whose register still shows five lines of encoder 0 pending. -/
def pendingLines : State := State.reset.put (CS_ENC_STAT_LINES_PENDING 0) 5

theorem pendingLines_flush :
    (pendingLines.commitGo 0x02 [CS_ENC_CTRL 0, 1, 1]).2.get (CS_ENC_STAT_LINES_PENDING 0) = 5 := by decide +kernel

/-- Refutes O58: FLUSH closes the strips that gather lines, and clears LINES_PENDING of an encoder only with one of them.
Where no stream of the encoder holds a row the register stays as it was, whatever it shows. -/
theorem not_registerCommits : ¬ Obligations.RegisterCommits := by
  unfold Obligations.RegisterCommits
  intro h
  obtain ⟨-, -, -, -, -, -, -, -, -, -, -, -, -, flush, -⟩ := h pendingLines
  obtain ⟨s', hs, hget, -⟩ := flush 0 (by omega) (by decide +kernel)
  have five := pendingLines_flush
  rw [hs] at five
  exact absurd (hget.symm.trans five) (by decide)

end Sys2Proof.Proofs
end

section
open Sys2Proof Sys2Proof.Machine
namespace Sys2Proof.Proofs
/-! The canonical form of the four sparse files, kept by every operation of the model (O4). A lemma `canon_f` for each
operation `f`: its proof term follows `f`'s body, one lemma for each operation that `f` is made of. -/

/-- Every sparse file of the state is in its canonical form. -/
structure Canon (s : State) : Prop where
  words : swf wordReset s.words = true
  shadow : swf wordReset s.shadow = true
  mem : swf memReset s.mem = true
  flash : swf flashReset s.flash = true

/-- Whatever state a command answers has its files in canonical form. -/
def CanonNext (o : Host.Outcome State Fault Refusal) : Prop := ∀ s', o = .next s' → Canon s'

section
variable {s : State}

/-- A state made of files in canonical form. -/
theorem canon_of {words shadow : Words} {mem flash : List Host.Cell} (hw : swf wordReset words = true)
    (hs : swf wordReset shadow = true) (hm : swf memReset mem = true) (hf : swf flashReset flash = true)
    {pending clk frc0 free out core base pairEn unitId modeStrap shutdown rwlDone otp ao tap cells tb refs events dcp ptp
      agate pwr ingest scan web screen lanes lines fire cam beryl pair} :
    Canon ⟨pending, clk, frc0, free, out, core, base, pairEn, unitId, modeStrap, shutdown, words, shadow, rwlDone, mem,
      flash, otp, ao, tap, cells, tb, refs, events, dcp, ptp, agate, pwr, ingest, scan, web, screen, lanes, lines, fire,
      cam, beryl, pair⟩ := ⟨hw, hs, hm, hf⟩

/-- A state with any other fields but the same files. -/
theorem canon_keep {pending clk frc0 free out core base pairEn unitId modeStrap shutdown rwlDone otp ao tap cells tb refs
      events dcp ptp agate pwr ingest scan web screen lanes lines fire cam beryl pair} (h : Canon s) :
    Canon ⟨pending, clk, frc0, free, out, core, base, pairEn, unitId, modeStrap, shutdown, s.words, s.shadow, rwlDone,
      s.mem, s.flash, otp, ao, tap, cells, tb, refs, events, dcp, ptp, agate, pwr, ingest, scan, web, screen, lanes,
      lines, fire, cam, beryl, pair⟩ := canon_of h.words h.shadow h.mem h.flash

/-- A state made on the way, shown canonical once and used wherever it occurs. -/
theorem canon_cut {y : State} {P : Prop} (hP : Canon y → P) (hy : Canon y) : P := hP hy

/-! What a definition is made of beside operations: pairs, choices and folds. -/

theorem canon_pair_snd {α : Type} {a : α} (h : Canon s) : Canon (a, s).2 := h
theorem canon_pair_fst {α : Type} {a : α} (h : Canon s) : Canon (s, a).1 := h
theorem canon_pair_snd_snd {α β : Type} {a : α} {b : β} (h : Canon s) : Canon (a, b, s).2.2 := h

section
variable {c : Prop} {i : Decidable c}

theorem canon_ite {x y : State} (hx : Canon x) (hy : Canon y) : Canon (if c then x else y) := by
  split <;> assumption

theorem canon_ite_snd {α : Type} {x y : α × State} (hx : Canon x.2) (hy : Canon y.2) : Canon (if c then x else y).2 := by
  split <;> assumption

theorem canon_ite_snd_snd {α β : Type} {x y : α × β × State} (hx : Canon x.2.2) (hy : Canon y.2.2) :
    Canon (if c then x else y).2.2 := by
  split <;> assumption

theorem canon_ite_fst {α : Type} {x y : State × α} (hx : Canon x.1) (hy : Canon y.1) : Canon (if c then x else y).1 := by
  split <;> assumption

theorem canon_ite_s {x y : Commits} (hx : Canon x.s) (hy : Canon y.s) : Canon (if c then x else y).s := by
  split <;> assumption

theorem canon_ite_out {x y : Host.Outcome State Fault Refusal} (hx : CanonNext x) (hy : CanonNext y) :
    CanonNext (if c then x else y) := by
  split <;> assumption

end

/-- What every step of a fold keeps, the fold keeps. -/
theorem foldl_keeps {α β : Type} {P : β → Prop} {l : List α} {f : β → α → β} {b : β} (h : P b)
    (hf : ∀ {y a}, P y → P (f y a)) : P (l.foldl f b) := by
  induction l generalizing b with
  | nil => exact h
  | cons a l ih => exact ih (hf h)

theorem canon_foldl {α : Type} {l : List α} {f : State → α → State} (h : Canon s)
    (hf : ∀ {y a}, Canon y → Canon (f y a)) : Canon (l.foldl f s) := foldl_keeps h hf

theorem canon_each {α : Type} {l : List α} {f : State → α → State} (h : Canon s)
    (hf : ∀ {y a}, Canon y → Canon (f y a)) : Canon (s.each l f) := foldl_keeps h hf

theorem canon_foldl_snd {α β : Type} {l : List α} {p : β × State} {f : β × State → α → β × State} (h : Canon p.2)
    (hf : ∀ {y a}, Canon y.2 → Canon (f y a).2) : Canon (l.foldl f p).2 :=
  foldl_keeps (P := fun p : β × State => Canon p.2) h hf

theorem canon_foldl_s {α : Type} {l : List α} {p : Commits} {f : Commits → α → Commits} (h : Canon p.s)
    (hf : ∀ {y a}, Canon y.s → Canon (f y a).s) : Canon (l.foldl f p).s :=
  foldl_keeps (P := fun p : Commits => Canon p.s) h hf

theorem canon_next (h : Canon s) : CanonNext (.next s) := fun _ e => Host.Outcome.next.inj e ▸ h

/-! Machine/Ops.lean -/

theorem canon_wr {a v} (h : Canon s) : Canon (s.wr a v) := ⟨swf_sput _ _ _ h.words, h.shadow, h.mem, h.flash⟩

theorem canon_put {f v} (h : Canon s) : Canon (s.put f v) := canon_wr h

theorem canon_flag {f b} (h : Canon s) : Canon (s.flag f b) := canon_put h

theorem canon_add {f n} (h : Canon s) : Canon (s.add f n) := canon_put h

theorem canon_inc {f} (h : Canon s) : Canon (s.inc f) := canon_add h

theorem canon_addSat {f n} (h : Canon s) : Canon (s.addSat f n) := canon_put h

theorem canon_setBitOf {f i b} (h : Canon s) : Canon (s.setBitOf f i b) := canon_put h

theorem canon_sput {f v} (h : Canon s) : Canon (s.sput f v) := canon_put h

theorem canon_wrSh {a v} (h : Canon s) : Canon (s.wrSh a v) := ⟨h.words, swf_sput _ _ _ h.shadow, h.mem, h.flash⟩

theorem canon_wrMem {a bs} (h : Canon s) : Canon (s.wrMem a bs) := ⟨h.words, h.shadow, swf_sputs _ _ _ h.mem, h.flash⟩

theorem canon_reanchor (h : Canon s) : Canon s.reanchor := canon_keep h

theorem canon_advance {t} (h : Canon s) : Canon (s.advance t) := canon_keep h

theorem canon_emit {o} (h : Canon s) : Canon (s.emit o) := canon_keep h

theorem canon_raiseBase {code a0 a1 a2} (h : Canon s) : Canon (s.raiseBase code a0 a1 a2) :=
  canon_setBitOf (canon_put (canon_put (canon_keep (canon_ite (canon_inc h) h))))

theorem canon_ringSync (h : Canon s) : Canon s.ringSync := canon_ite h (canon_wrMem h)

theorem canon_ringPlace {type cont time payload} (h : Canon s) : Canon (s.ringPlace type cont time payload) :=
  canon_keep (canon_wrMem h)

theorem canon_ringFill {to_} (h : Canon s) : Canon (s.ringFill to_) := canon_ite (canon_ringPlace h) h

theorem canon_ringGo {from_ on} (h : Canon s) : Canon (s.ringGo from_ on) := canon_keep h

theorem canon_ringPad {to_ on} (h : Canon s) : Canon (s.ringPad to_ on) := canon_ringGo (canon_ringFill h)

theorem canon_ringSeek {k len} (h : Canon s) : Canon (State.ringSeek k s len) := by
  induction k generalizing s with
  | zero => exact canon_keep h
  | succ k ih =>
    refine canon_ite (ih (canon_ringPad h)) ?_
    split
    · exact ih (canon_ringPad h)
    · exact h

theorem canon_ringOne {type cont time payload} (h : Canon s) : Canon (s.ringOne type cont time payload) :=
  canon_ringSync (canon_ringPlace (canon_ringSeek h))

theorem canon_ringMany {k type cont time p} (h : Canon s) : Canon (State.ringMany k s type cont time p) := by
  induction k generalizing s cont p with
  | zero => exact h
  | succ k ih => exact canon_ite (canon_ringOne h) (ih (canon_ringOne h))

theorem canon_postBegin (h : Canon s) : Canon s.postBegin := canon_ite (canon_put (canon_keep h)) h

theorem canon_lose {n} (h : Canon s) : Canon (s.lose n) := canon_addSat (canon_keep h)

theorem canon_raiseLost {code a1} (h : Canon s) : Canon (s.raiseLost code a1) := canon_lose (canon_raiseBase h)

theorem canon_recLose {n} (h : Canon s) : Canon (s.recLose n) :=
  canon_ite (canon_lose h) (canon_ite (canon_raiseLost (canon_ringSync (canon_postBegin (canon_lose (canon_inc
    (canon_raiseLost (canon_lose h))))))) (canon_raiseLost (canon_lose h)))

theorem canon_gapRecord (h : Canon s) : Canon s.gapRecord := canon_ite h (canon_keep (canon_ringOne h))

theorem canon_record {type time payload} (h : Canon s) : Canon (s.record type time payload) :=
  canon_ite h (canon_ite (canon_recLose h) (canon_ringMany (canon_gapRecord h)))

theorem canon_recStart (h : Canon s) : Canon s.recStart := canon_ringSync (canon_put (canon_keep h))

theorem canon_autoArm (h : Canon s) : Canon s.autoArm := canon_ite (canon_recStart h) h

theorem canon_recEvent {code} (h : Canon s) : Canon (s.recEvent code) := by
  unfold State.recEvent
  split
  · exact h
  · exact canon_ite (canon_record h) h

theorem canon_trigMark (h : Canon s) : Canon s.trigMark :=
  canon_ite (canon_ringSync (canon_postBegin (canon_keep h))) h

theorem canon_trigTake {source code} (h : Canon s) : Canon (s.trigTake source code) :=
  canon_ite h (canon_recEvent (canon_raiseBase (canon_trigMark (canon_record h))))

theorem canon_trigger {source code} (h : Canon s) : Canon (s.trigger source code) := canon_trigTake (canon_inc h)

theorem canon_raise {code a0 a1 a2} (h : Canon s) : Canon (s.raise code a0 a1 a2) :=
  canon_cut (fun h1 => canon_ite (canon_trigger h1) h1) (canon_recEvent (canon_raiseBase h))

/-! Machine/Reg.lean -/

theorem canon_whenRunning {f : State → State} (h : Canon s) (hf : ∀ {y}, Canon y →
    Canon (f y)) : Canon (s.whenRunning f) :=
  canon_ite (hf h) h

/-! Machine/Base.lean -/

theorem canon_setBase {b} (h : Canon s) : Canon (s.setBase b) :=
  canon_put (canon_put (canon_keep (canon_ite (canon_inc h) h)))

theorem canon_setJob {j} (h : Canon s) : Canon (s.setJob j) := canon_keep h

theorem canon_copy {kind words} (h : Canon s) : Canon (s.copy kind words) := canon_ite (canon_keep h) h

theorem canon_wrCopy {a v} (h : Canon s) : Canon (s.wrCopy a v) := canon_copy (canon_wr h)

theorem canon_waste {causes lo hi} (h : Canon s) : Canon (s.waste causes lo hi) := canon_put (canon_keep h)

theorem canon_wasteCopy {causes lo hi} (h : Canon s) : Canon (s.wasteCopy causes lo hi) := canon_copy (canon_waste h)

theorem canon_wasteOpen {bit_ bars} (h : Canon s) : Canon (s.wasteOpen bit_ bars) := by
  refine canon_ite (canon_keep h) ?_
  dsimp only
  split <;> exact canon_keep h

theorem canon_wasteClose {bit_ bars} (h : Canon s) : Canon (s.wasteClose bit_ bars) := by
  unfold State.wasteClose
  split
  · exact h
  · exact canon_wasteCopy (canon_keep h)

theorem canon_wasteSettle (h : Canon s) : Canon s.wasteSettle :=
  canon_put (canon_each (canon_keep h) (fun h2 => canon_raise (canon_inc h2)))

theorem canon_modEnco {n f} (h : Canon s) : Canon (s.modEnco n f) := canon_keep h

theorem canon_encoSettle (h : Canon s) : Canon s.encoSettle := canon_keep h

theorem canon_hbItem {w0 w1 w2 w3} (h : Canon s) : Canon (s.hbItem w0 w1 w2 w3) :=
  canon_cut (fun h1 => canon_ite (canon_keep h1) h1) (canon_ite h (canon_record h))

/-! Machine/Sends.lean -/

theorem canon_modLane {l f} (h : Canon s) : Canon (s.modLane l f) := canon_keep h

theorem canon_sendRec {l r} (h : Canon s) : Canon (s.sendRec l r) := canon_emit (canon_modLane h)

theorem canon_sendUse {l r} (h : Canon s) : Canon (s.sendUse l r) := canon_sendRec (canon_modLane h)

theorem canon_modLines {ch f} (h : Canon s) : Canon (s.modLines ch f) := canon_keep h

theorem canon_modLine {ch seq f} (h : Canon s) : Canon (s.modLine ch seq f) := canon_modLines h

theorem canon_sendHb {l} (h : Canon s) : Canon (s.sendHb l) := canon_sendRec h

theorem canon_sendTsync {l} (h : Canon s) : Canon (s.sendTsync l) := canon_sendRec (canon_modLane h)

theorem canon_ctlFlush {l} (h : Canon s) : Canon (s.ctlFlush l) := by
  refine canon_each h (fun h1 => ?_)
  apply canon_cut
  · intro h3
    dsimp only
    split
    · exact canon_sendUse h3
    · exact h3
  · exact canon_put (canon_flag (canon_put (canon_modLane h1)))

theorem canon_linesPrune {ch} (h : Canon s) : Canon (s.linesPrune ch) := canon_modLines h

theorem canon_sendRetime {ch run} (h : Canon s) : Canon (s.sendRetime ch run) :=
  canon_cut (fun h2 => canon_ite (canon_inc h2) (canon_inc (canon_inc h2))) (canon_each (canon_sendUse h)
    canon_modLine)

theorem canon_retime {ch} (h : Canon s) : Canon (s.retime ch) :=
  canon_ite h (canon_ite (canon_each h canon_sendRetime) (canon_ite h (canon_add h)))

theorem canon_retimeCycle {ch} (h : Canon s) : Canon (s.retimeCycle ch) :=
  canon_ite (canon_linesPrune (canon_retime (canon_modLane h))) h

theorem canon_tsyncGo {l} (h : Canon s) : Canon (s.tsyncGo l) := canon_ite (canon_sendTsync h) h

theorem canon_recordsFirst {l} (h : Canon s) : Canon (s.recordsFirst l) :=
  canon_ite (canon_cut (fun h1 => canon_ite h1 (canon_ctlFlush h1)) (canon_retimeCycle (canon_tsyncGo h))) h

/-! Machine/InFlight.lean -/

theorem canon_modBar {b f} (h : Canon s) : Canon (s.modBar b f) := canon_keep h

theorem canon_wasteOfLine {cause r line} (h : Canon s) : Canon (s.wasteOfLine cause r line) := canon_waste h

theorem canon_wastePair {ord line} (h : Canon s) : Canon (s.wastePair ord line) := by
  unfold State.wastePair
  split
  · exact canon_wasteCopy h
  · exact h

theorem canon_unsentLine {ch x cause kind} (h : Canon s) : Canon (s.unsentLine ch x cause kind) := by
  unfold State.unsentLine
  split
  · split
    · exact canon_wasteOfLine h
    · exact h
  · exact canon_ite (canon_wastePair h) (canon_keep h)
  · exact canon_hbItem h
  · exact h

theorem canon_voidSeen {x} (h : Canon s) : Canon (s.voidSeen x) := canon_modBar h

theorem canon_lineVoid {ch x} (h : Canon s) : Canon (s.lineVoid ch x) := by
  refine canon_ite h ?_
  split
  · exact canon_modLine h
  · exact canon_ite (canon_unsentLine (canon_voidSeen (canon_inc (canon_modLine (canon_sendUse
        (canon_recordsFirst h)))))) h

theorem canon_withdrawAll (h : Canon s) : Canon s.withdrawAll := canon_each h (fun h1 => canon_each h1 canon_lineVoid)

theorem canon_safeWaste (h : Canon s) : Canon s.safeWaste :=
  canon_ite h (canon_ite (canon_wasteClose h) (canon_wasteOpen (canon_wasteClose h)))

theorem canon_safeEnter (h : Canon s) : Canon s.safeEnter :=
  canon_ite h (canon_safeWaste (canon_withdrawAll (canon_ite (canon_trigger (canon_raise (canon_flag h))) (canon_raise
    (canon_flag h)))))

theorem canon_safeSet {cause} (h : Canon s) : Canon (s.safeSet cause) := canon_safeEnter (canon_flag h)

theorem canon_safeRelease (h : Canon s) : Canon s.safeRelease :=
  canon_ite (canon_raise (canon_wasteClose (canon_flag (canon_put (canon_keep h))))) h

theorem canon_degSettle (h : Canon s) : Canon s.degSettle := canon_put h

theorem canon_roleSettle (h : Canon s) : Canon s.roleSettle := canon_ite h (canon_put (canon_inc h))

theorem canon_watchdogSettle (h : Canon s) : Canon s.watchdogSettle := canon_each h canon_wasteClose

theorem canon_settle (h : Canon s) : Canon (settle s) :=
  canon_roleSettle (canon_degSettle (canon_encoSettle (canon_wasteSettle (canon_watchdogSettle (canon_safeWaste h)))))

theorem canon_run {t} {f : State → State} (hf : ∀ {y}, Canon y → Canon (f y)) (h :
    Canon s) : CanonNext (run t f s) :=
  canon_next (canon_whenRunning (canon_advance h) (fun h1 => canon_whenRunning (hf h1) canon_settle))

/-! Machine/Time.lean -/

theorem canon_setRate {rate} (h : Canon s) : Canon (s.setRate rate) := canon_keep (canon_reanchor h)

theorem canon_stepTime {d remain} (h : Canon s) : Canon (s.stepTime d remain) := canon_keep (canon_reanchor h)

theorem canon_timeCommit (h : Canon s) : Canon s.timeCommit := by
  apply canon_cut
  · intro h1
    unfold State.timeCommit
    dsimp only
    split
    · exact h1
    · exact canon_keep (canon_ite h1 (canon_ite (canon_keep (canon_reanchor h1)) (canon_raise (canon_stepTime
          h1))))
  · split
    · exact h
    · exact canon_keep (canon_setRate h)

theorem canon_actTb {a mask val before} (k1 : Canon s) : Canon (actTb a mask val before s).2 :=
  canon_ite_snd (canon_pair_snd (canon_keep k1)) (canon_ite_snd (canon_pair_snd (canon_keep k1)) (canon_ite_snd
    (canon_pair_snd (canon_keep k1)) (canon_pair_snd k1)))

theorem canon_execOfsSlewEnd {t} (h : Canon s) : CanonNext (execOfsSlewEnd t s) :=
  canon_run (fun h1 => canon_ite (canon_reanchor h1) h1) h

theorem canon_refSwitch {i} (h : Canon s) : Canon (s.refSwitch i) := canon_raise (canon_inc (canon_put h))

theorem canon_refLost (h : Canon s) : Canon s.refLost := canon_safeSet (canon_raise (canon_flag (canon_flag h)))

theorem canon_refBad {i} (h : Canon s) : Canon (s.refBad i) :=
  canon_ite (canon_cut (fun h1 => canon_ite (canon_refLost (canon_keep h1)) (canon_ite (canon_refSwitch (canon_keep
    h1)) (canon_keep h1))) (canon_raise (canon_flag h))) h

theorem canon_refBack {i} (h : Canon s) : Canon (s.refBack i) :=
  canon_ite (canon_cut (fun h1 => canon_ite (canon_flag (canon_flag (canon_put (canon_keep h1)))) (canon_keep h1))
    (canon_raise (canon_flag h))) h

theorem canon_refRevert (h : Canon s) : Canon s.refRevert := canon_ite (canon_refSwitch h) h

theorem canon_execRefInputGood {t input} (h : Canon s) : CanonNext (execRefInputGood t input s) :=
  canon_run canon_refBack h

theorem canon_execRefDiffWindow {t diff} (h : Canon s) : CanonNext (execRefDiffWindow t diff s) :=
  canon_run (fun h1 => canon_ite (canon_ite (canon_raise (canon_keep (canon_sput h1))) (canon_keep (canon_sput h1)))
    h1) h

theorem canon_ptpQueue {port m} (h : Canon s) : Canon (s.ptpQueue port m) :=
  canon_ite (canon_ite (canon_put (canon_keep h)) (canon_ite (canon_inc h) (canon_raise (canon_keep (canon_inc h)))))
    h

theorem canon_bridgePut {toPort len until_} (h : Canon s) : Canon (s.bridgePut toPort len until_) := canon_keep h

theorem canon_forward {port f} (h : Canon s) : Canon (s.forward port f) := by
  refine canon_ite h (canon_ite (canon_inc h) ?_)
  dsimp only
  split
  · exact canon_emit (canon_inc (canon_bridgePut h))
  · exact canon_emit (canon_bridgePut h)

theorem canon_deliver {port f} (h : Canon s) : Canon (s.deliver port f) := by
  unfold State.deliver
  split
  · exact canon_ite (canon_ite h (canon_inc h)) (canon_ptpQueue h)
  · exact canon_ite h (canon_inc h)

theorem canon_execBridgeFrame {t port f} (h : Canon s) : CanonNext (execBridgeFrame t port f s) := by
  refine canon_run (fun h1 => canon_ite ?_ h1) h
  split
  · exact canon_deliver h1
  · exact canon_deliver (canon_forward h1)
  · exact h1
  · exact canon_forward h1

theorem canon_rxPop (h : Canon s) : Canon s.rxPop := canon_put (canon_keep h)

theorem canon_ptpSend (h : Canon s) : Canon s.ptpSend.2 :=
  canon_ite_snd (canon_pair_snd h) (canon_ite_snd (canon_pair_snd h) (canon_pair_snd (canon_flag (canon_keep
    (canon_emit h)))))

theorem canon_execPtpTxDone {t} (h : Canon s) : CanonNext (execPtpTxDone t s) := by
  refine canon_run (fun h1 => ?_) h
  split
  · exact h1
  · exact canon_cut (fun h2 => canon_ite (canon_flag (canon_put (canon_put (canon_put (canon_put h2))))) h2)
        (canon_flag (canon_keep h1))

theorem canon_servoStep {e} (h : Canon s) : Canon (s.servoStep e) :=
  canon_raise (canon_put (canon_keep (canon_stepTime h)))

theorem canon_servoLaw {e16} (h : Canon s) : Canon (s.servoLaw e16) := canon_sput (canon_keep (canon_setRate h))

theorem canon_servoCount {e16} (h : Canon s) : Canon (s.servoCount e16) :=
  canon_ite (canon_raise (canon_put (canon_keep h))) (canon_ite (canon_raise (canon_inc (canon_put (canon_keep h))))
    (canon_keep h))

theorem canon_servoMove (h : Canon s) : Canon s.servoMove := by
  refine canon_keep ?_
  split
  · exact canon_ite (canon_keep (canon_put h)) h
  · dsimp only
    split
    · exact canon_ite (canon_cut (fun h3 => canon_ite (canon_keep (canon_servoStep h3)) (canon_servoCount
          (canon_servoLaw h3))) (canon_keep (canon_put (canon_keep (canon_sput h))))) (canon_keep (canon_servoStep
          (canon_keep (canon_sput h))))
    · exact canon_ite (canon_keep (canon_sput h)) (canon_ite (canon_keep (canon_servoStep (canon_keep
          (canon_sput h)))) (canon_servoLaw (canon_keep (canon_put (canon_keep (canon_sput h))))))
    · exact canon_keep (canon_sput h)
    · exact canon_ite (canon_keep (canon_servoStep (canon_keep (canon_sput h)))) (canon_servoCount
          (canon_servoLaw (canon_keep (canon_sput h))))

theorem canon_servoTick (h : Canon s) : Canon s.servoTick :=
  canon_ite (canon_withdrawAll (canon_servoMove h)) (canon_servoMove h)

theorem canon_servoStart (h : Canon s) : Canon s.servoStart := canon_put (canon_keep h)

theorem canon_servoHold (h : Canon s) : Canon s.servoHold := canon_ite (canon_put h) h

theorem canon_servoAdopt (h : Canon s) : Canon s.servoAdopt := canon_put (canon_put (canon_put (canon_setRate h)))

theorem canon_servoStop (h : Canon s) : Canon s.servoStop := canon_ite (canon_servoAdopt h) h

/-! Machine/Lanes.lean -/

theorem canon_chanBit {f ch v} (h : Canon s) : Canon (s.chanBit f ch v) := canon_setBitOf h

theorem canon_linkNarrow (h : Canon s) : Canon s.linkNarrow := canon_keep (canon_put h)

theorem canon_timingLane (h : Canon s) : Canon s.timingLane := by
  refine canon_ite ?_ h
  split
  · exact canon_put h
  · exact h

theorem canon_leaveReady {l} (h : Canon s) : Canon (s.leaveReady l) :=
  canon_ite (canon_cut (fun h2 => canon_ite h2 (canon_flag (canon_flag (canon_put (canon_flag (canon_chanBit h2))))))
    (canon_flag (canon_flag (canon_modLane h)))) h

theorem canon_laneTo {l st} (h : Canon s) : Canon (s.laneTo l st) :=
  canon_modLane (canon_put (canon_put (canon_leaveReady h)))

theorem canon_laneDisable {l} (h : Canon s) : Canon (s.laneDisable l) :=
  canon_cut (fun h2 => canon_ite (canon_timingLane (canon_linkNarrow (canon_modLane h2))) (canon_modLane h2))
    (canon_put (canon_flag (canon_put (canon_laneTo h))))

theorem canon_trimsTrain {l} (h : Canon s) : Canon (s.trimsTrain l) := canon_keep h

theorem canon_laneDetect {l fast} (h : Canon s) : Canon (s.laneDetect l fast) :=
  canon_emit (canon_modLane (canon_trimsTrain (canon_flag (canon_laneTo h))))

theorem canon_laneFail {l cause} (h : Canon s) : Canon (s.laneFail l cause) :=
  canon_cut (fun h3 => canon_cut (fun h4 => canon_cut (fun h6 => canon_ite (canon_timingLane h6) h6) (canon_ite
    (canon_inc (canon_laneTo (canon_modLane h4))) (canon_ite (canon_raise (canon_inc (canon_laneTo (canon_modLane
    h4)))) (canon_modLane (canon_put (canon_laneTo (canon_modLane h4))))))) (canon_ite (canon_raise h3) h3))
    (canon_flag (canon_inc (canon_put (canon_put (canon_modLane h)))))

theorem canon_lockSet {l v} (h : Canon s) : Canon (s.lockSet l v) :=
  canon_ite (canon_timingLane (canon_modLane h)) (canon_modLane h)

theorem canon_laneLost {l cause} (h : Canon s) : Canon (s.laneLost l cause) :=
  canon_ite (canon_cut (fun h1 => canon_cut (fun h4 => canon_ite (canon_timingLane (canon_linkNarrow h4)) h4)
    (canon_laneDetect (canon_raise (canon_ite (canon_inc h1) (canon_chanBit (canon_inc h1)))))) (canon_put (canon_put
    h))) h

theorem canon_searchBegin {l} (h : Canon s) : Canon (s.searchBegin l) :=
  canon_ite h (canon_each (canon_each (canon_sput h) canon_sput) canon_emit)

theorem canon_laneEstablish {l} (h : Canon s) : Canon (s.laneEstablish l) :=
  canon_cut (fun h1 => canon_ite h1 (canon_emit h1)) (canon_searchBegin (canon_put (canon_laneTo h)))

theorem canon_tryEstablish {l} (h : Canon s) : Canon (s.tryEstablish l) := canon_ite (canon_laneEstablish h) h

theorem canon_tryTimelock {l} (h : Canon s) : Canon (s.tryTimelock l) := canon_ite (canon_modLane (canon_laneTo h)) h

theorem canon_laneReadyBase {l} (h : Canon s) : Canon (s.laneReadyBase l) :=
  canon_cut (fun h1 => canon_raise (canon_ite (canon_flag (canon_modLane h1)) (canon_chanBit (canon_flag
    (canon_modLane h1))))) (canon_inc (canon_laneTo h))

theorem canon_orderedSet {l o} (h : Canon s) : Canon (s.orderedSet l o) := by
  refine canon_ite (canon_inc h) (canon_ite (canon_ite (canon_laneFail (canon_inc h)) (canon_inc h)) ?_)
  split
  · exact canon_ite (canon_ite (canon_laneFail h) (canon_ite (canon_emit (canon_modLane h)) (canon_modLane h)))
        (canon_ite (canon_ite (canon_emit (canon_modLane h)) (canon_modLane h)) h)
  · exact canon_ite (canon_ite (canon_tryEstablish (canon_modLane h)) h) (canon_ite (canon_tryTimelock
        (canon_modLane h)) (canon_ite (canon_modLane h) h))
  · exact canon_modLane h
  · exact canon_modLane h
  · exact h

theorem canon_execOrderedSet {t l o} (h : Canon s) : CanonNext (execOrderedSet t l o s) :=
  canon_run (fun h1 => canon_ite (canon_orderedSet h1) h1) h

theorem canon_execTs2Sent {t l} (h : Canon s) : CanonNext (execTs2Sent t l s) :=
  canon_run (fun h1 => canon_ite (canon_tryEstablish (canon_modLane h1)) (canon_ite (canon_modLane h1) h1)) h

theorem canon_execSignalDetect {t l} (h : Canon s) : CanonNext (execSignalDetect t l s) :=
  canon_run (fun h1 => canon_ite (canon_lockSet (canon_laneTo (canon_modLane h1))) (canon_ite (canon_laneDetect
    (canon_modLane h1)) h1)) h

theorem canon_execTrainTimeout {t e} (h : Canon s) : CanonNext (execTrainTimeout t e s) :=
  canon_run (fun h1 => canon_ite (canon_laneFail (canon_modLane h1)) h1) h

theorem canon_execBackoffExpiry {t l} (h : Canon s) : CanonNext (execBackoffExpiry t l s) :=
  canon_run (fun h1 => canon_ite (canon_laneDetect h1) h1) h

theorem canon_execAbsentTimeout {t l} (h : Canon s) : CanonNext (execAbsentTimeout t l s) :=
  canon_run (fun h1 => canon_ite (canon_laneDetect (canon_modLane h1)) h1) h

theorem canon_lossCause {l cv disp} (h : Canon s) : Canon (s.lossCause l cv disp) :=
  canon_laneLost (canon_add (canon_add h))

theorem canon_execEqualisationDone {t l trials w hd ctle dfe} (h : Canon s) :
    CanonNext (execEqualisationDone t l trials w hd ctle dfe s) := by
  refine canon_run (fun h1 => canon_ite ?_ h1) h
  apply canon_cut
  · intro h2
    exact canon_ite (canon_tryTimelock (canon_emit (canon_modLane (canon_put h2)))) (canon_laneFail (canon_put
        h2))
  · refine canon_ite h1 ?_
    apply canon_cut
    · intro h2
      dsimp only
      split
      · exact canon_put h2
      · exact h2
    · split
      · exact canon_put h1
      · exact h1

theorem canon_execL1Entry {t l} (h : Canon s) : CanonNext (execL1Entry t l s) :=
  canon_run (fun h1 => canon_ite (canon_emit (canon_modLane (canon_inc (canon_put h1)))) h1) h

theorem canon_execL2Entry {t l} (h : Canon s) : CanonNext (execL2Entry t l s) :=
  canon_run (fun h1 => canon_ite (canon_emit (canon_modLane (canon_inc (canon_put h1)))) h1) h

theorem canon_execEiAnswerTimeout {t l} (h : Canon s) : CanonNext (execEiAnswerTimeout t l s) := by
  refine canon_run (fun h1 => ?_) h
  split
  · exact canon_ite (canon_laneLost h1) h1
  · exact h1

theorem canon_laneExit {l} (h : Canon s) : Canon (s.laneExit l) :=
  canon_ite (canon_cut (fun h1 => canon_ite (canon_emit h1) h1) (canon_modLane (canon_put h))) h

theorem canon_lanesExit {bars} (h : Canon s) : Canon (s.lanesExit bars) :=
  canon_each h (fun h1 => canon_each h1 canon_laneExit)

theorem canon_execHdmIdleExit {t l} (h : Canon s) : CanonNext (execHdmIdleExit t l s) :=
  canon_run (fun h1 => canon_ite (canon_laneExit h1) h1) h

theorem canon_execPwrExitTimeout {t l} (h : Canon s) : CanonNext (execPwrExitTimeout t l s) :=
  canon_run (fun h1 => canon_ite (canon_laneLost (canon_raise h1)) h1) h

theorem canon_execEyeScan {t l w hd} (h : Canon s) : CanonNext (execEyeScan t l w hd s) :=
  canon_run (fun h1 => canon_ite (canon_cut (fun h2 => canon_ite (canon_modLane h2) (canon_ite h2 (canon_raise
    (canon_modLane h2)))) (canon_flag (canon_put (canon_put h1)))) h1) h

theorem canon_execEyeMapDone {t l points} (h : Canon s) : CanonNext (execEyeMapDone t l points s) :=
  canon_run (fun h1 => canon_ite (canon_flag (canon_each h1 canon_wr)) h1) h

theorem canon_laneMap {l} (h : Canon s) : Canon (s.laneMap l).2 :=
  canon_ite_snd (canon_pair_snd (canon_flag h)) (canon_pair_snd h)

theorem canon_actLane {a mask val before} (k1 : Canon s) : Canon (actLane a mask val before s).2 := by
  unfold actLane
  split
  · exact canon_cut (fun h1 => canon_ite_snd (canon_pair_snd (canon_ite (canon_laneDetect h1) h1))
        (canon_ite_snd (canon_pair_snd (canon_laneDisable h1)) (canon_pair_snd h1))) (canon_ite (canon_flag k1) k1)
  · split
    · exact canon_ite_snd (canon_laneMap k1) (canon_pair_snd k1)
    · exact canon_pair_snd k1

/-! Machine/Web.lean -/

theorem canon_modEnc {n f} (h : Canon s) : Canon (s.modEnc n f) := canon_keep h

theorem canon_pSet {p at_} (h : Canon s) : Canon (s.pSet p at_) := canon_keep h

theorem canon_webShow (h : Canon s) : Canon s.webShow :=
  canon_put (canon_put (canon_sput (canon_sput (canon_wr (canon_wr (canon_wr (canon_wr h)))))))

theorem canon_dirUpdate (h : Canon s) : Canon s.dirUpdate :=
  canon_ite (canon_ite (canon_raise (canon_put (canon_keep h))) (canon_put (canon_keep h))) (canon_ite (canon_keep h)
    (canon_ite (canon_raise (canon_inc (canon_put (canon_keep h)))) (canon_put (canon_keep h))))

theorem canon_encItem {kind} (h : Canon s) : Canon (s.encItem kind) := canon_ite (canon_hbItem h) h

theorem canon_selSwap (h : Canon s) : Canon s.selSwap := canon_webShow (canon_dirUpdate (canon_pSet (canon_keep h)))

theorem canon_posLost (h : Canon s) : Canon s.posLost := canon_ite h (canon_safeSet (canon_raise (canon_flag h)))

theorem canon_failedAct {onSec} (h : Canon s) : Canon (s.failedAct onSec) :=
  canon_ite (canon_ite (canon_posLost (canon_raise h)) (canon_raise h)) (canon_ite (canon_encItem (canon_posLost h))
    (canon_ite (canon_encItem (canon_raise (canon_inc (canon_selSwap h)))) (canon_encItem (canon_raise h))))

theorem canon_encFail {onSec} (h : Canon s) : Canon (s.encFail onSec) := canon_ite h (canon_failedAct (canon_flag h))

theorem canon_failTest {onSec} (h : Canon s) : Canon (s.failTest onSec) :=
  canon_ite (canon_encFail (canon_modEnc h)) (canon_modEnc h)

theorem canon_encError {n at_} (h : Canon s) : Canon (s.encError n at_) := canon_modEnc h

theorem canon_align (h : Canon s) : Canon s.align :=
  canon_ite (canon_keep (canon_modEnc (canon_ite h (canon_raise (canon_inc h))))) h

theorem canon_srcSwap (h : Canon s) : Canon s.srcSwap.2 :=
  canon_ite_snd (canon_pair_snd h) (canon_pair_snd (canon_encItem (canon_selSwap h)))

theorem canon_restoreOne {onSec} (h : Canon s) : Canon (s.restoreOne onSec) :=
  canon_cut (fun h1 => canon_encItem (canon_raise (canon_ite (canon_selSwap (canon_modEnc h1)) (canon_modEnc h1))))
    (canon_flag (canon_flag h))

theorem canon_srcRestore (h : Canon s) : Canon s.srcRestore.2 :=
  canon_ite_snd (canon_pair_snd (canon_restoreOne h)) (canon_ite_snd (canon_pair_snd (canon_restoreOne h))
    (canon_pair_snd h))

theorem canon_reform (h : Canon s) : Canon s.reform :=
  canon_cut (fun h3 => canon_ite (canon_encItem h3) h3) (canon_webShow (canon_modEnc (canon_modEnc (canon_flag
    (canon_flag (canon_flag (canon_keep h)))))))

theorem canon_pairCount {n fwd at_} (h : Canon s) : Canon (s.pairCount n fwd at_) :=
  canon_ite (canon_failTest (canon_align (canon_dirUpdate (canon_modEnc (canon_modEnc (canon_pSet h)))))) (canon_ite
    (canon_failTest (canon_modEnc (canon_modEnc (canon_keep h)))) h)

theorem canon_zEdge {n at_} (h : Canon s) : Canon (s.zEdge n at_) :=
  canon_ite (canon_modEnc (canon_ite (canon_encError (canon_inc h)) h)) h

theorem canon_encEdge {n a b z at_} (h : Canon s) : Canon (s.encEdge n a b z at_) := by
  apply canon_cut
  · intro h2
    apply canon_cut
    · intro h3
      unfold State.encEdge
      dsimp only
      split
      · exact canon_failTest h3
      · exact h3
    · exact canon_ite (canon_zEdge h2) h2
  · exact canon_ite (canon_encError (canon_inc (canon_modEnc h))) (canon_ite (canon_modEnc h) (canon_pairCount
        (canon_modEnc (canon_put (canon_modEnc h)))))

theorem canon_draw (h : Canon s) : Canon s.draw.2 := canon_pair_snd (canon_keep h)

theorem canon_speedUpdate (h : Canon s) : Canon s.speedUpdate := by
  refine canon_ite (canon_keep h) (canon_keep (canon_flag ?_))
  split
  · exact canon_pair_snd h
  · exact canon_pair_snd (canon_draw h)

theorem canon_accUpdate (h : Canon s) : Canon s.accUpdate := canon_keep h

theorem canon_accKeep (h : Canon s) : Canon s.accKeep := canon_ite h (canon_keep h)

theorem canon_histPush (h : Canon s) : Canon s.histPush := canon_keep h

theorem canon_stillOne {n} (h : Canon s) : Canon (s.stillOne n) := canon_ite (canon_modEnc h) h

theorem canon_estTake (h : Canon s) : Canon s.estTake := canon_keep h

theorem canon_predictAll (h : Canon s) : Canon s.predictAll := canon_keep h

theorem canon_regStep {b target} (h : Canon s) : Canon (s.regStep b target) := canon_sput h

theorem canon_modProbe {n f} (h : Canon s) : Canon (s.modProbe n f) := canon_keep h

theorem canon_probeEdge {n rising at_} (h : Canon s) : Canon (s.probeEdge n rising at_).2 :=
  canon_ite_snd (canon_pair_snd (canon_flag h)) (canon_ite_snd (canon_pair_snd (canon_inc (canon_flag h)))
    (canon_pair_snd (canon_ite (canon_cut (fun h4 => canon_ite (canon_raise h4) h4) (canon_inc (canon_modProbe
    (canon_record (canon_modProbe (canon_flag h)))))) (canon_inc (canon_modProbe (canon_record (canon_modProbe
    (canon_flag h))))))))

theorem canon_probePop {n} (h : Canon s) : Canon (s.probePop n) := canon_ite h (canon_put (canon_modProbe h))

theorem canon_encoShow {n} (h : Canon s) : Canon (s.encoShow n) :=
  canon_ite (canon_raise (canon_inc (canon_modEnco (canon_put h)))) (canon_put h)

theorem canon_encosShow (h : Canon s) : Canon s.encosShow := canon_each h canon_encoShow

theorem canon_encoEdge {n} (h : Canon s) : Canon (s.encoEdge n) :=
  canon_ite (canon_put (canon_modEnco (canon_encoShow h))) h

theorem canon_encoStart {n origin phase} (h : Canon s) : Canon (s.encoStart n origin phase) :=
  canon_encoShow (canon_modEnco h)

theorem canon_encoOrigin {before} (h : Canon s) : Canon (s.encoOrigin before) :=
  canon_each h (fun h1 => canon_ite (canon_copy (canon_encoStart h1)) (canon_encoShow h1))

theorem canon_actWp {a mask val before} (k1 : Canon s) : Canon (actWp a mask val before s).2 := by
  refine canon_ite_snd (canon_pair_snd (canon_ite (canon_reform k1) k1)) (canon_ite_snd (canon_cut (fun h1 =>
      canon_ite_snd h1 (canon_ite_snd (canon_srcRestore h1) h1)) (canon_ite_snd (canon_srcSwap k1) (canon_pair_snd
      k1))) ?_)
  split
  · exact canon_pair_snd (canon_ite (canon_probePop k1) k1)
  · exact canon_pair_snd k1

/-! Machine/Lines.lean -/

theorem canon_modRun {ord page f} (h : Canon s) : Canon (s.modRun ord page f) := canon_keep h

theorem canon_copyLines {lines} (h : Canon s) : Canon (s.copyLines lines) := canon_ite h (canon_copy h)

theorem canon_holdOld {lines sel upd old} (h : Canon s) : Canon (s.holdOld lines sel upd old) :=
  canon_each h canon_modBar

theorem canon_timedPrune (h : Canon s) : Canon s.timedPrune := canon_keep h

/-! Machine/CamCfg.lean -/

theorem canon_camRefused {r} (h : Canon s) : Canon (s.camRefused r) := canon_raise (canon_put (canon_put h))

/-! Machine/Records.lean -/

theorem canon_ctlPut {l c} (h : Canon s) : Canon (s.ctlPut l c) :=
  canon_ite (canon_ite (canon_recordsFirst (canon_modLane h)) (canon_laneExit (canon_modLane h))) h

theorem canon_batchBegin (h : Canon s) : Canon s.batchBegin := canon_keep h

theorem canon_batchEnd (h : Canon s) : Canon s.batchEnd := canon_each (canon_keep h) canon_recordsFirst

theorem canon_sendSet {l applySeq entries} (h : Canon s) : Canon (s.sendSet l applySeq entries) := canon_ctlPut h

theorem canon_identRefuse {l head check} (h : Canon s) : Canon (s.identRefuse l head check) :=
  canon_laneFail (canon_raise h)

theorem canon_identAccept {l heads depth rev} (h : Canon s) : Canon (s.identAccept l heads depth rev).1 :=
  canon_pair_fst (canon_each (canon_modLane (canon_put (canon_put (canon_put (canon_each (canon_each h (fun h1 =>
    canon_each h1 canon_wr)) (fun h2 => canon_each h2 canon_wr)))))) canon_raise)

theorem canon_idrsTake {l r} (h : Canon s) : Canon (s.idrsTake l r).1 := by
  refine canon_ite_fst (canon_pair_fst h) (canon_ite_fst (canon_pair_fst (canon_identRefuse h)) (canon_ite_fst
      (canon_pair_fst (canon_identRefuse h)) (canon_ite_fst (canon_pair_fst (canon_identRefuse h)) ?_)))
  dsimp only
  split
  · exact canon_pair_fst (canon_sendRec (canon_modLane h))
  · exact canon_ite_fst (canon_pair_fst (canon_identRefuse (canon_modLane h))) (canon_pair_fst
        (canon_tryTimelock (canon_identAccept (canon_modLane h))))

theorem canon_rateShow {b} (h : Canon s) : Canon (s.rateShow b) := canon_ite h (canon_each h canon_flag)

theorem canon_rateStart {j} (h : Canon s) : Canon (s.rateStart j) :=
  canon_each h (fun h1 => canon_rateShow (canon_each h1 canon_raise))

theorem canon_rateCheck {l} (h : Canon s) : Canon (s.rateCheck l) := canon_flag (canon_ite (canon_raise h) h)

theorem canon_lineLeaves {ch x void} (h : Canon s) : Canon (s.lineLeaves ch x void) :=
  canon_ite (canon_voidSeen (canon_inc (canon_modLine (canon_sendUse h)))) (canon_modLine (canon_sendUse h))

theorem canon_lineDiscard {ch x} (h : Canon s) : Canon (s.lineDiscard ch x) :=
  canon_unsentLine (canon_inc (canon_modLine h))

theorem canon_laneReady {l} (h : Canon s) : Canon (s.laneReady l) :=
  canon_ite (canon_laneReadyBase h) (canon_rateCheck (canon_sendSet (canon_each (canon_put (canon_laneReadyBase h))
    canon_lineDiscard)))

theorem canon_underrun {ch x} (h : Canon s) : Canon (s.underrun ch x) := by
  apply canon_cut
  · intro h1
    unfold State.underrun
    dsimp only
    split
    · exact h1
    · exact canon_ite h1 (canon_ite (canon_raise (canon_modRun h1)) (canon_modRun h1))
  · exact canon_chanBit (canon_flag h)

theorem canon_lineLate {ch x} (h : Canon s) : Canon (s.lineLate ch x) :=
  canon_underrun (canon_unsentLine (canon_lineLeaves h))

theorem canon_lineSend {ch} (h : Canon s) : Canon (s.lineSend ch) := by
  apply canon_cut
  · intro h1
    unfold State.lineSend
    dsimp only
    split
    · exact h1
    · exact canon_ite (canon_ite (canon_lineDiscard h1) h1) (canon_ite h1 (canon_ite (canon_lineLate h1)
          (canon_ite (canon_ite (canon_unsentLine (canon_lineLeaves h1)) (canon_lineLeaves h1)) h1)))
  · exact canon_linesPrune (canon_recordsFirst h)

theorem canon_lineDeadline {ch} (h : Canon s) : Canon (s.lineDeadline ch) := by
  unfold State.lineDeadline
  split
  · exact h
  · exact canon_ite (canon_lineLate (canon_recordsFirst h)) h

theorem canon_claimHbs (h : Canon s) : Canon s.claimHbs := canon_each h (fun h1 => canon_retime (canon_sendHb h1))

theorem canon_timelockEnd {l} (h : Canon s) : Canon (s.timelockEnd l) :=
  canon_ite (canon_laneReady (canon_flag (canon_put h))) (canon_laneFail h)

theorem canon_timelockReply {l t1 r} (h : Canon s) : Canon (s.timelockReply l t1 r) :=
  canon_ite (canon_laneFail h) (canon_ite (canon_timelockEnd (canon_modLane h)) (canon_modLane h))

theorem canon_timeError {l r} (h : Canon s) : Canon (s.timeError l r) :=
  canon_ite (canon_ite (canon_raise (canon_modLane (canon_inc (canon_sput h)))) (canon_modLane (canon_inc (canon_sput
    h)))) (canon_modLane (canon_sput h))

theorem canon_tsyncReply {l r} (h : Canon s) : Canon (s.tsyncReply l r) := by
  unfold State.tsyncReply
  split
  · exact canon_ite (canon_timeError h) h
  · exact canon_ite (canon_timelockReply (canon_modLane h)) (canon_ite (canon_timeError (canon_modLane h))
        (canon_modLane h))

theorem canon_ackTake {l a} (h : Canon s) : Canon (s.ackTake l a) :=
  canon_ite (canon_cut (fun h2 => canon_cut (fun h3 => canon_ite (canon_raise h3) h3) (canon_ite (canon_flag h2) h2))
    (canon_flag (canon_flag (canon_modLane h)))) h

theorem canon_ctlResend {l} (h : Canon s) : Canon (s.ctlResend l) := by
  unfold State.ctlResend
  split
  · exact h
  · exact canon_ite h (canon_ite (canon_raise (canon_laneLost h)) (canon_sendUse (canon_retimeCycle
        (canon_tsyncGo (canon_ite (canon_put (canon_modLane h)) (canon_modLane h))))))

theorem canon_sendWave {l hd applySeq} (h : Canon s) : Canon (s.sendWave l hd applySeq) := by
  unfold State.sendWave
  split
  · exact h
  · exact canon_ctlPut h

theorem canon_bandPut {l hd k} (h : Canon s) : Canon (s.bandPut l hd k) := canon_put h

theorem canon_bandChange {l hd k applySeq} (h : Canon s) : Canon (s.bandChange l hd k applySeq) :=
  canon_sendWave (canon_raise (canon_inc (canon_bandPut h)))

theorem canon_bandsTick {l} (h : Canon s) : Canon (s.bandsTick l) := by
  refine canon_ite h (canon_each h (fun h1 => ?_))
  split
  · exact canon_cut (fun h2 => canon_ite (canon_bandChange (canon_copy h2)) (canon_ite (canon_sendWave h2) h2))
        (canon_ite (canon_modLane h1) h1)
  · exact h1

theorem canon_statCopy {l r} (h : Canon s) : Canon (s.statCopy l r) :=
  canon_cut (fun h3 => canon_cut (fun h6 => canon_ite (canon_raise (canon_modLane h6)) h6) (canon_ite (canon_raise
    (canon_chanBit (canon_modLane (canon_wr h3)))) (canon_modLane (canon_wr h3)))) (canon_wr (canon_wr (canon_wr
    (canon_wr (canon_wr (canon_wr h))))))

theorem canon_statLost {l} (h : Canon s) : Canon (s.statLost l) := canon_ite (canon_raise (canon_flag h)) h

theorem canon_execLineSend {t ch} (h : Canon s) : CanonNext (execLineSend t ch s) :=
  canon_run (fun h1 => canon_ite (canon_lineSend h1) h1) h

theorem canon_execLineDeadline {t ch} (h : Canon s) : CanonNext (execLineDeadline t ch s) :=
  canon_run (fun h1 => canon_ite (canon_lineDeadline h1) h1) h

theorem canon_execRetimeCycle {t ch} (h : Canon s) : CanonNext (execRetimeCycle t ch s) :=
  canon_run (fun h1 => canon_ite (canon_retimeCycle (canon_tsyncGo h1)) h1) h

theorem canon_hbIdle {l} (h : Canon s) : Canon (s.hbIdle l) :=
  canon_ite (canon_ite (canon_sendHb (canon_lineSend h)) (canon_lineSend h)) h

theorem canon_execHdmHbSend {t l} (h : Canon s) : CanonNext (execHdmHbSend t l s) :=
  canon_run (fun h1 => canon_ite (canon_hbIdle h1) h1) h

theorem canon_execTsyncSend {t l} (h : Canon s) : CanonNext (execTsyncSend t l s) :=
  canon_run (fun h1 => canon_ite (canon_tsyncGo h1) (canon_ite (canon_sendTsync h1) h1)) h

theorem canon_execControlResend {t l} (h : Canon s) : CanonNext (execControlResend t l s) :=
  canon_run (fun h1 => canon_ite (canon_ctlResend h1) h1) h

theorem canon_execTsyncReply {t l r} (h : Canon s) : CanonNext (execTsyncReply t l r s) :=
  canon_run (fun h1 => canon_ite (canon_tsyncReply h1) h1) h

theorem canon_execAckReceived {t l a} (h : Canon s) : CanonNext (execAckReceived t l a s) :=
  canon_run (fun h1 => canon_ite (canon_ackTake h1) h1) h

theorem canon_execStatLost {t l} (h : Canon s) : CanonNext (execStatLost t l s) :=
  canon_run (fun h1 => canon_ite (canon_statLost h1) h1) h

theorem canon_execRecordDiscard {t l} (h : Canon s) : CanonNext (execRecordDiscard t l s) :=
  canon_run (fun h1 => canon_ite (canon_inc h1) h1) h

theorem canon_execLaneLost {t l cause cv disp} (h : Canon s) : CanonNext (execLaneLost t l cause cv disp s) :=
  canon_run (fun h1 => canon_ite (canon_lossCause (canon_ite (canon_lockSet h1) h1)) h1) h

theorem canon_execExitToL0Done {t l} (h : Canon s) : CanonNext (execExitToL0Done t l s) :=
  canon_run (fun h1 => canon_ite (canon_cut (fun h2 => canon_recordsFirst (canon_ite (canon_sendTsync h2) h2))
    (canon_modLane (canon_put h1))) h1) h

theorem canon_actJl {a _mask _val before} (k1 : Canon s) : Canon (actJl a _mask _val before s).2 :=
  canon_ite_snd (canon_pair_snd (canon_each k1 canon_sendSet)) (canon_pair_snd k1)

/-! Machine/Fire.lean -/

theorem canon_wdTrip {b pin tell} (h : Canon s) : Canon (s.wdTrip b pin tell) :=
  canon_ite h (canon_cut (fun h3 => canon_wasteOpen (canon_ite (canon_hbItem h3) h3)) (canon_raise (canon_wr
    (canon_flag (canon_inc (canon_flag h))))))

theorem canon_execWatchdogTrip {t bar high} (h : Canon s) : CanonNext (execWatchdogTrip t bar high s) :=
  canon_run (fun h1 => canon_ite (canon_ite (canon_wdTrip (canon_keep h1)) (canon_keep (canon_keep h1))) h1) h

theorem canon_wdClear {mask} (h : Canon s) : Canon (s.wdClear mask).2 :=
  canon_ite_snd (canon_pair_snd h) (canon_pair_snd (canon_each h (fun h1 => canon_flag (canon_flag (canon_flag h1)))))

theorem canon_execFireInhibit {t} (h : Canon s) : CanonNext (execFireInhibit t s) :=
  canon_run (fun h1 => canon_ite (canon_safeSet (canon_raise (canon_keep h1))) h1) h

theorem canon_execInhibitRelease {t high} (h : Canon s) : CanonNext (execInhibitRelease t high s) :=
  canon_run (fun h1 => canon_ite (canon_ite (canon_flag (canon_keep h1)) (canon_safeRelease (canon_flag (canon_keep
    h1)))) (canon_keep h1)) h

theorem canon_safeClear (h : Canon s) : Canon s.safeClear.2 :=
  canon_ite_snd (canon_pair_snd h) (canon_pair_snd (canon_flag (canon_safeRelease h)))

theorem canon_actFs {a mask val _before} (k1 : Canon s) : Canon (actFs a mask val _before s).2 := by
  refine canon_ite_snd (canon_cut (fun h1 => canon_ite_snd (canon_safeClear h1) (canon_pair_snd h1)) (canon_ite
      (canon_ite (canon_safeSet k1) (canon_flag k1)) k1)) (canon_ite_snd (canon_wdClear k1) ?_)
  split
  · exact canon_pair_snd (canon_each k1 canon_sendSet)
  · exact canon_pair_snd k1

/-! Machine/Store.lean -/

theorem canon_modSurf {id gen g} (h : Canon s) : Canon (s.modSurf id gen g) := canon_keep h

theorem canon_modSlot {id gen k g} (h : Canon s) : Canon (s.modSlot id gen k g) := canon_modSurf h

theorem canon_compareSlot {id gen k} (h : Canon s) : Canon (s.compareSlot id gen k) := by
  refine canon_ite ?_ h
  split
  · exact canon_ite (canon_modSlot h) (canon_raise (canon_modSlot h))
  · exact canon_ite (canon_modSlot h) h

theorem canon_slotStored {id gen k addr len digest} (h : Canon s) : Canon (s.slotStored id gen k addr len
    digest) :=
  canon_ite (canon_modSlot (canon_record (canon_keep (canon_modSlot h)))) (canon_compareSlot (canon_record (canon_keep
    (canon_modSlot h))))

theorem canon_holdAll (h : Canon s) : Canon s.holdAll := canon_keep h

theorem canon_heldBack (h : Canon s) : Canon s.heldBack := canon_keep h

theorem canon_digestIn {id gen k len digest} (h : Canon s) : Canon (s.digestIn id gen k len digest) := by
  unfold State.digestIn
  split
  · exact h
  · exact canon_compareSlot (canon_modSlot h)

theorem canon_wasteStrip {r id gen k} (h : Canon s) : Canon (s.wasteStrip r id gen k) := by
  unfold State.wasteStrip
  split
  · exact h
  · exact canon_each h (fun h1 => canon_ite (canon_wasteCopy h1) h1)

theorem canon_stripError {r id gen k d} (h : Canon s) : Canon (s.stripError r id gen k d) :=
  canon_keep (canon_raise (canon_wr (canon_wr (canon_addSat (canon_modSlot (canon_ite (canon_wasteStrip h) h))))))

theorem canon_rawOut {n} (h : Canon s) : Canon (s.rawOut n) := canon_put (canon_keep h)

theorem canon_stripDeliver {r id gen k} (h : Canon s) : Canon (s.stripDeliver r id gen k) :=
  canon_ite (canon_keep (canon_keep (canon_rawOut h))) (canon_stripError (canon_keep (canon_rawOut h)))

theorem canon_stripZeros {r id gen k} (h : Canon s) : Canon (s.stripZeros r id gen k) :=
  canon_keep (canon_ite (canon_wasteStrip h) h)

theorem canon_stripNeed {r id gen k} (h : Canon s) : Canon (s.stripNeed r id gen k) :=
  canon_ite (canon_ite h (canon_stripDeliver h)) (canon_ite h (canon_stripZeros h))

theorem canon_decodeBegin {n key} (h : Canon s) : Canon (s.decodeBegin n key) := canon_keep (canon_setBitOf h)

theorem canon_execStripFetch {t id gen k} (h : Canon s) : CanonNext (execStripFetch t id gen k s) := by
  refine canon_run (fun h1 => ?_) h
  dsimp only
  split
  · exact h1
  · refine canon_ite h1 (canon_ite (canon_stripDeliver h1) ?_)
    split
    · exact canon_keep h1
    · exact canon_decodeBegin h1

theorem canon_execStripDecodeEnd {t n} (h : Canon s) : CanonNext (execStripDecodeEnd t n s) := by
  refine canon_run (fun h1 => ?_) h
  split
  · exact h1
  · apply canon_cut
    · intro h2
      apply canon_cut
      · intro h3
        dsimp only
        split
        · exact canon_decodeBegin h3
        · exact h3
      · split
        · exact canon_ite (canon_stripDeliver h2) h2
        · exact h2
    · exact canon_keep (canon_setBitOf h1)

theorem canon_execStoreUe {t block c0} (h : Canon s) : CanonNext (execStoreUe t block c0 s) := by
  refine canon_run (fun h1 => ?_) h
  apply canon_cut
  · intro h3
    refine canon_ite ?_ (canon_raise h3)
    split
    · exact canon_raise h3
    · exact canon_each (canon_modSlot (canon_raise h3)) (fun h6 => canon_each h6 canon_lineVoid)
  · exact canon_put (canon_put (canon_addSat h1))

theorem canon_execStoreCe {t} (h : Canon s) : CanonNext (execStoreCe t s) := canon_run canon_addSat h

theorem canon_execPatrolScrub {t corrected} (h : Canon s) : CanonNext (execPatrolScrub t corrected s) :=
  canon_run canon_addSat h

/-! Machine/Ingest.lean -/

theorem canon_sessionOpen {body} (h : Canon s) : Canon (s.sessionOpen body).2 :=
  canon_ite_snd (canon_pair_snd h) (canon_pair_snd (canon_keep (canon_draw h)))

theorem canon_xfersShow (h : Canon s) : Canon s.xfersShow := canon_put h

theorem canon_xferSlotBack {x} (h : Canon s) : Canon (s.xferSlotBack x) := by
  unfold State.xferSlotBack
  split
  · exact canon_ite (canon_modSlot h) h
  · exact h

theorem canon_xferEnd {x} (h : Canon s) : Canon (s.xferEnd x) := canon_xfersShow (canon_keep h)

theorem canon_xfersDrop {p} (h : Canon s) : Canon (s.xfersDrop p) :=
  canon_each h (fun h1 => canon_xferEnd (canon_xferSlotBack h1))

theorem canon_windowsClose {p} (h : Canon s) : Canon (s.windowsClose p) := canon_keep (canon_xfersDrop h)

theorem canon_sessionClose {body} (h : Canon s) : Canon (s.sessionClose body).2 :=
  canon_ite_snd (canon_pair_snd (canon_keep (canon_windowsClose h))) (canon_pair_snd h)

theorem canon_windowOpen {body} (h : Canon s) : Canon (s.windowOpen body).2 :=
  canon_ite_snd (canon_pair_snd h) (canon_ite_snd (canon_pair_snd h) (canon_ite_snd (canon_pair_snd h) (canon_ite_snd
    (canon_pair_snd h) (canon_pair_snd (canon_keep h)))))

theorem canon_windowClose {body} (h : Canon s) : Canon (s.windowClose body).2 :=
  canon_ite_snd (canon_pair_snd (canon_windowsClose h)) (canon_pair_snd h)

theorem canon_dbtSend {r} (h : Canon s) : Canon (s.dbtSend r) := canon_inc (canon_emit h)

theorem canon_dbtReply {r} (h : Canon s) : Canon (s.dbtReply r) := canon_ite (canon_keep h) (canon_dbtSend h)

theorem canon_sendObj {r} (h : Canon s) : Canon (s.sendObj r) := canon_each h canon_emit

theorem canon_dbtFlush (h : Canon s) : Canon s.dbtFlush :=
  canon_ite h (canon_each (canon_each (canon_keep h) canon_dbtSend) canon_sendObj)

theorem canon_xferAnswer {x reason} (h : Canon s) : Canon (s.xferAnswer x reason) := canon_dbtReply (canon_xferEnd h)

theorem canon_dbtDrop (h : Canon s) : Canon s.dbtDrop := canon_inc h

theorem canon_endedTouch {hd} (h : Canon s) : Canon (s.endedTouch hd) := canon_keep h

theorem canon_xferBegin {w hd src port} (h : Canon s) : Canon (s.xferBegin w hd src port) := by
  refine canon_ite (canon_xferAnswer h) (canon_ite (canon_xferAnswer h) ?_)
  apply canon_cut
  · intro h1
    refine canon_ite (canon_xferAnswer h1) ?_
    split
    · exact canon_xferAnswer h1
    · exact canon_xfersShow (canon_keep (canon_ite (canon_modSlot h1) h1))
  · exact canon_each h (fun h1 => canon_xferAnswer (canon_xferSlotBack h1))

theorem canon_fragPlace {x hd f src port payload} (h : Canon s) : Canon (s.fragPlace x hd f src port
    payload) :=
  canon_keep (canon_wrMem h)

theorem canon_fragTake {w f hd src port payload} (h : Canon s) : Canon (s.fragTake w f hd src port payload) := by
  refine canon_ite (canon_dbtDrop (canon_endedTouch h)) ?_
  dsimp only
  split
  · exact canon_ite (canon_fragPlace (canon_endedTouch h)) (canon_dbtDrop (canon_endedTouch h))
  · split
    · exact canon_fragPlace (canon_xferBegin (canon_endedTouch h))
    · exact canon_xferBegin (canon_endedTouch h)

theorem canon_retxSeen {hd} (h : Canon s) : Canon (s.retxSeen hd) := canon_ite (canon_keep h) h

theorem canon_dbtArrives {from_ hd} {f : State → State} (h : Canon s) (hf : ∀
    {y}, Canon y → Canon (f y)) : Canon (s.dbtArrives from_ hd f) :=
  canon_ite (canon_inc h) (hf (canon_retxSeen h))

theorem canon_dbtFragment {port src hd payload} (h : Canon s) : Canon (s.dbtFragment port src hd payload) := by
  unfold State.dbtFragment
  split
  · exact canon_ite (canon_ite h (canon_fragTake h)) (canon_dbtDrop h)
  · exact canon_dbtDrop h

theorem canon_execDbtFragment {t port from_ hd payload} (h : Canon s) : CanonNext (execDbtFragment t port
    from_ hd payload s) :=
  canon_run (fun h1 => canon_ite (canon_dbtArrives h1 canon_dbtFragment) h1) h

theorem canon_execDbtVerifyDone {t session window xferId} (h : Canon s) :
    CanonNext (execDbtVerifyDone t session window xferId s) := by
  refine canon_run (fun h1 => ?_) h
  split
  · exact canon_ite (canon_xferAnswer (canon_ite (canon_ite (canon_slotStored h1) (canon_xferSlotBack h1)) h1))
        h1
  · exact h1

theorem canon_execDbtTimeout {t session window xferId} (h : Canon s) :
    CanonNext (execDbtTimeout t session window xferId s) := by
  refine canon_run (fun h1 => ?_) h
  split
  · exact canon_ite (canon_xferAnswer (canon_xferSlotBack h1)) h1
  · exact h1

theorem canon_execDpLinkLoss {t port} (h : Canon s) : CanonNext (execDpLinkLoss t port s) :=
  canon_run (fun h1 => canon_keep (canon_xfersDrop h1)) h

theorem canon_readNak {port src hd reason} (h : Canon s) : Canon (s.readNak port src hd reason) := canon_dbtReply h

theorem canon_readTake {port src hd f bs} (h : Canon s) : Canon (s.readTake port src hd f bs) :=
  canon_ite (canon_sendObj h) (canon_ite (canon_readNak h) (canon_keep h))

theorem canon_readReq {port src hd} (h : Canon s) : Canon (s.readReq port src hd) := by
  unfold State.readReq
  split
  · refine canon_ite ?_ (canon_dbtDrop h)
    split
    · exact canon_readTake h
    · exact canon_readNak h
  · exact canon_dbtDrop h

theorem canon_execRdreq {t port from_ hd} (h : Canon s) : CanonNext (execRdreq t port from_ hd s) :=
  canon_run (fun h1 => canon_ite (canon_dbtArrives h1 canon_readReq) h1) h

theorem canon_releaseWindows {id gen} (h : Canon s) : Canon (s.releaseWindows id gen) :=
  canon_keep (canon_each h (fun h1 => canon_xferAnswer (canon_xferSlotBack h1)))

theorem canon_xfersCut (h : Canon s) : Canon s.xfersCut := canon_keep (canon_xfersDrop h)

theorem canon_ingestDrop (h : Canon s) : Canon s.ingestDrop := canon_keep (canon_windowsClose (canon_xfersCut h))

/-! Machine/Jobs.lean -/

theorem canon_modPage {slot page f} (h : Canon s) : Canon (s.modPage slot page f) := by
  unfold State.modPage
  split
  · exact canon_setJob h
  · exact h

theorem canon_admTake {slot page reason} (h : Canon s) : Canon (s.admTake slot page reason) :=
  canon_copy (canon_ite (canon_each (canon_inc (canon_modPage h)) (fun h2 => canon_ite h2 (canon_modSurf h2)))
    (canon_wr (canon_inc (canon_modPage h))))

theorem canon_letIn {g j p acts} (h : Canon s) : Canon (s.letIn g j p acts).2 :=
  canon_pair_snd (canon_admTake (canon_wr h))

theorem canon_pageRefused {slot page reason} (h : Canon s) : Canon (s.pageRefused slot page reason) := canon_raise h

theorem canon_admitLater (h : Canon s) : Canon s.admitLater := by
  refine canon_each h (fun h1 => ?_)
  split
  · exact canon_ite h1 (canon_ite (canon_letIn h1) (canon_pageRefused (canon_letIn h1)))
  · exact h1

theorem canon_objPut {base words} (h : Canon s) : Canon (s.objPut base words) := canon_each h canon_wrCopy

theorem canon_surfFree {entry} (h : Canon s) : Canon (s.surfFree entry) := by
  unfold State.surfFree
  split
  · exact h
  · exact canon_keep (canon_windowsClose h)

theorem canon_surfApply {entry} (h : Canon s) : Canon (s.surfApply entry) := by
  refine canon_ite (canon_surfFree h) ?_
  dsimp only
  split
  · exact canon_ite (canon_ite (canon_releaseWindows (canon_modSurf h)) (canon_modSurf h)) (canon_keep
        (canon_surfFree h))
  · exact canon_keep h

theorem canon_boundary {b m o} (h : Canon s) : Canon (s.boundary b m o) :=
  canon_ite (canon_wr h) (canon_each (canon_wr h) canon_wr)

theorem canon_barStart {b} (h : Canon s) : Canon (s.barStart b) := canon_each (canon_wr h) canon_boundary

theorem canon_jobFree {slot} (h : Canon s) : Canon (s.jobFree slot) := canon_each (canon_keep h) canon_rateShow

theorem canon_jobApply {slot} (h : Canon s) : Canon (s.jobApply slot) :=
  canon_ite (canon_jobFree h) (canon_cut (fun h1 => canon_ite (canon_rateStart (canon_each (canon_keep h1)
    canon_barStart)) h1) (canon_ite (canon_setJob h) (canon_keep h)))

theorem canon_jobPut {j} (h : Canon s) : Canon (s.jobPut j) := canon_jobApply (canon_objPut h)

theorem canon_portApply {slot} (h : Canon s) : Canon (s.portApply slot) := by
  unfold State.portApply
  dsimp only
  split
  · exact h
  · exact canon_ite h (canon_ite (canon_setJob h) (canon_setJob h))

theorem canon_portPut {j num refs closed} (h : Canon s) : Canon (s.portPut j num refs closed) :=
  canon_portApply (canon_objPut h)

theorem canon_surfaceDefine {body} (h : Canon s) : Canon (s.surfaceDefine body).2 := by
  unfold State.surfaceDefine
  dsimp only
  split
  · exact canon_ite_snd (canon_pair_snd h) (canon_ite_snd (canon_pair_snd h) (canon_pair_snd h))
  · split
    · exact canon_pair_snd h
    · exact canon_pair_snd (canon_surfApply (canon_objPut h))

theorem canon_surfaceRelease {body} (h : Canon s) : Canon (s.surfaceRelease body).2 := by
  unfold State.surfaceRelease
  dsimp only
  split
  · exact canon_pair_snd h
  · exact canon_ite_snd (canon_pair_snd h) (canon_pair_snd (canon_surfApply (canon_objPut h)))

theorem canon_freeReleased (h : Canon s) : Canon s.freeReleased :=
  canon_each h (fun h1 => canon_surfApply (canon_objPut h1))

theorem canon_execGenerationFreed {t id gen} (h : Canon s) : CanonNext (execGenerationFreed t id gen s) := by
  refine canon_run (fun h1 => ?_) h
  split
  · exact canon_ite (canon_surfApply (canon_objPut h1)) h1
  · exact h1

theorem canon_pageDefine {body} (h : Canon s) : Canon (s.pageDefine body).2 := by
  unfold State.pageDefine
  dsimp only
  split
  · exact canon_pair_snd h
  · refine canon_ite_snd (canon_pair_snd h) (canon_ite_snd (canon_pair_snd h) (canon_ite_snd (canon_ite_snd
        (canon_pair_snd h) (canon_pair_snd h)) ?_))
    split
    · exact canon_pair_snd h
    · exact canon_pair_snd (canon_portPut h)

theorem canon_pageClose {body} (h : Canon s) : Canon (s.pageClose body).2 := by
  unfold State.pageClose
  dsimp only
  split
  · exact canon_pair_snd h
  · refine canon_ite_snd (canon_pair_snd h) ?_
    split
    · exact canon_pair_snd h
    · exact canon_ite_snd (canon_pair_snd h) (canon_ite_snd (canon_pair_snd (canon_portPut h)) (canon_ite_snd
          (canon_pair_snd (canon_portPut h)) (canon_pair_snd (canon_letIn (canon_portPut h)))))

theorem canon_rejectLatch {cause layer page} (h : Canon s) : Canon (s.rejectLatch cause layer page) :=
  canon_raise (canon_put (canon_put h))

theorem canon_pageUnplace {p} (h : Canon s) : Canon (s.pageUnplace p) := canon_ite (canon_put (canon_keep h)) h

theorem canon_pageBeyond {j} (h : Canon s) : Canon (s.pageBeyond j) := canon_pageUnplace h

theorem canon_jobRedefine {j w} (h : Canon s) : Canon (s.jobRedefine j w).2 :=
  canon_ite_snd (canon_pair_snd h) (canon_ite_snd (canon_pair_snd h) (canon_ite_snd (canon_pair_snd h) (canon_ite_snd
    (canon_pair_snd (canon_rejectLatch h)) (canon_ite_snd (canon_pair_snd (canon_rejectLatch h)) (canon_pair_snd
    (canon_pageBeyond (canon_keep (canon_jobPut h))))))))

theorem canon_jobDefine {body} (h : Canon s) : Canon (s.jobDefine body).2 := by
  unfold State.jobDefine
  dsimp only
  split
  · exact canon_jobRedefine h
  · split
    · exact canon_pair_snd h
    · exact canon_pair_snd (canon_jobPut h)

theorem canon_setClaim {epoch rank} (h : Canon s) : Canon (s.setClaim epoch rank) := canon_wr (canon_keep h)

theorem canon_firstClaim (h : Canon s) : Canon s.firstClaim :=
  canon_ite (canon_claimHbs (canon_setClaim (canon_keep h))) h

theorem canon_geomRefuse {b cause seg} (h : Canon s) : Canon (s.geomRefuse b cause seg) :=
  canon_raise (canon_wrCopy h)

theorem canon_jobStart {body} (h : Canon s) : Canon (s.jobStart body).2 := by
  unfold State.jobStart
  split
  · exact canon_pair_snd h
  · exact canon_ite_snd (canon_pair_snd h) (canon_ite_snd (canon_pair_snd h) (canon_ite_snd (canon_pair_snd h)
        (canon_ite_snd (canon_pair_snd (canon_firstClaim (canon_jobPut h))) (canon_pair_snd (canon_each h
        canon_geomRefuse)))))

theorem canon_jobsEnd (h : Canon s) : Canon s.jobsEnd := canon_each h (fun h1 => canon_jobApply (canon_objPut h1))

theorem canon_jobClose {body} (h : Canon s) : Canon (s.jobClose body).2 := by
  unfold State.jobClose
  split
  · exact canon_pair_snd h
  · exact canon_ite_snd (canon_pair_snd h) (canon_ite_snd (canon_pair_snd h) (canon_pair_snd (canon_jobsEnd
        (canon_pageBeyond (canon_jobPut h)))))

theorem canon_jobCancel {body} (h : Canon s) : Canon (s.jobCancel body).2 := by
  unfold State.jobCancel
  split
  · exact canon_pair_snd h
  · exact canon_ite_snd (canon_pair_snd h) (canon_pair_snd (canon_jobsEnd (canon_pageUnplace (canon_jobPut
        (canon_ite (canon_flag h) h)))))

theorem canon_gapFlag {b} (h : Canon s) : Canon (s.gapFlag b) := canon_flag (canon_flag h)

theorem canon_gapLive {g} (h : Canon s) : Canon (s.gapLive g) :=
  canon_each (canon_each (canon_ite h (canon_keep h)) canon_wr) canon_wr

theorem canon_gapTake {g at_} (h : Canon s) : Canon (s.gapTake g at_) := by
  unfold State.gapTake
  split
  · exact canon_gapLive h
  · exact canon_gapFlag (canon_keep h)

theorem canon_gapCommit (h : Canon s) : Canon s.gapCommit.2 := by
  refine canon_ite_snd (canon_pair_snd (canon_put h)) ?_
  dsimp only
  split
  · exact canon_pair_snd (canon_flag (canon_put (canon_flag (canon_rejectLatch h))))
  · exact canon_pair_snd (canon_keep (canon_put (canon_gapTake (canon_flag (canon_wrCopy h)))))

theorem canon_gapRefused {orig : State} {pre status} (h : Canon orig) : Canon (orig.gapRefused pre status) :=
  canon_ite (canon_flag (canon_flag (canon_rejectLatch (canon_put h)))) (canon_put h)

theorem canon_gapFollow (h : Canon s) : Canon s.gapFollow := canon_flag (canon_put (canon_gapTake h))

theorem canon_regClampSee {b} (h : Canon s) : Canon (s.regClampSee b) := canon_ite h (canon_raise h)

theorem canon_refShow (h : Canon s) : Canon s.refShow := canon_flag h

theorem canon_jobShow (h : Canon s) : Canon s.jobShow := by
  unfold State.jobShow
  split
  · exact canon_refShow (canon_flag h)
  · exact canon_refShow (canon_put (canon_flag (canon_put h)))

theorem canon_tickTake (h : Canon s) : Canon s.tickTake :=
  canon_cut (fun h2 => canon_cut (fun h3 => canon_cut (fun h4 => canon_cut (fun h7 => canon_put (canon_refShow
    (canon_encoOrigin (canon_ite (canon_keep h7) h7)))) (canon_each (canon_each (canon_ite (canon_copyLines h4) h4)
    canon_regClampSee) (fun h7 => canon_keep h7))) (canon_ite (canon_holdOld h3) h3)) (canon_ite (canon_holdOld h2)
    h2)) (canon_each h canon_wr)

theorem canon_tickCommit (h : Canon s) : Canon s.tickCommit.2 :=
  canon_ite_snd (canon_pair_snd h) (canon_pair_snd (canon_tickTake h))

theorem canon_cmtRefused {orig : State} {pre gap status} (h : Canon orig) :
    Canon (orig.cmtRefused pre gap status) := by
  refine canon_ite (canon_gapRefused h) ?_
  dsimp only
  split
  · exact canon_camRefused (canon_put h)
  · exact canon_put h

theorem canon_actGl {a mask val _before} (k1 : Canon s) : Canon (actGl a mask val _before s).2 :=
  canon_ite_snd (canon_cut (fun h1 => canon_ite_snd h1 (canon_ite_snd (canon_tickCommit h1) h1)) (canon_ite_snd
    (canon_gapCommit k1) (canon_pair_snd k1))) (canon_pair_snd k1)

theorem canon_calmShow (h : Canon s) : Canon s.calmShow := canon_keep h

theorem canon_spdShow (h : Canon s) : Canon s.spdShow :=
  canon_ite (canon_raise (canon_inc (canon_flag h))) (canon_ite (canon_raise (canon_flag h)) h)

theorem canon_actPg {a _mask _val _before} (k1 : Canon s) : Canon (actPg a _mask _val _before s).2 :=
  canon_ite_snd (canon_pair_snd (canon_spdShow (canon_calmShow (canon_flag k1)))) (canon_pair_snd k1)

/-! Machine/Scan.lean -/

theorem canon_putCopy {f v} (h : Canon s) : Canon (s.putCopy f v) := canon_wrCopy h

theorem canon_curShow (h : Canon s) : Canon s.curShow := by
  unfold State.curShow
  split
  · exact h
  · exact canon_wr (canon_wr (canon_keep h))

theorem canon_placeNext (h : Canon s) : Canon s.placeNext := by
  unfold State.placeNext
  dsimp only
  split
  · split
    · exact canon_flag (canon_keep h)
    · exact canon_ite (canon_flag (canon_keep h)) (canon_ite (canon_ite (canon_flag (canon_keep h)) (canon_flag
          h)) (canon_ite (canon_flag (canon_keep h)) (canon_flag (canon_keep h))))
  · exact h

theorem canon_execJobDrainDone {t} (h : Canon s) : CanonNext (execJobDrainDone t s) :=
  canon_run (fun h1 => canon_ite (canon_placeNext h1) h1) h

theorem canon_wastePage {start pitchDiv lines} (h : Canon s) : Canon (s.wastePage start pitchDiv lines) :=
  canon_wasteCopy h

theorem canon_markLate {n lines start} (h : Canon s) : Canon (s.markLate n lines start) :=
  canon_raise (canon_wastePage (canon_flag (canon_inc h)))

theorem canon_markJudge {n j m} (h : Canon s) : Canon (s.markJudge n j m) :=
  canon_ite (canon_inc h) (canon_ite (canon_markLate h) (canon_keep h))

theorem canon_marksTake {k} (h : Canon s) : Canon (s.marksTake k) := by
  induction k generalizing s with
  | zero => exact h
  | succ k ih =>
    unfold State.marksTake
    split
    · exact h
    · dsimp only
      split
      · exact canon_ite h (ih (canon_keep h))
      · refine canon_ite (ih (canon_keep h)) (canon_ite h ?_)
        split
        · exact ih (canon_markJudge (canon_keep h))
        · exact ih (canon_keep h)

theorem canon_marksSettle (h : Canon s) : Canon s.marksSettle := canon_ite (canon_marksTake h) h

theorem canon_layerCheck {n variable_ l ref} (h : Canon s) : Canon (s.layerCheck n variable_ l ref).2 :=
  canon_ite_snd (canon_pair_snd (canon_ite (canon_putCopy h) h)) (canon_cut (fun h3 => canon_pair_snd (canon_ite
    (canon_raise h3) h3)) (canon_raise (canon_flag (canon_putCopy (canon_putCopy (canon_putCopy h))))))

theorem canon_layersCheck {n variable_ g p} (h : Canon s) : Canon (s.layersCheck n variable_ g p).2 :=
  canon_foldl_snd (canon_pair_snd h) (fun h1 => canon_pair_snd (canon_layerCheck h1))

theorem canon_pageEntry {n acts held notPrintable} (h : Canon s) : Canon (s.pageEntry n acts held notPrintable)
    :=
  canon_copy (canon_flag h)

theorem canon_fixPage {j page firstLine start acts} (h : Canon s) :
    Canon (s.fixPage j page firstLine start acts) := by
  refine canon_jobShow (canon_lanesExit (canon_each (canon_keep (canon_modPage (canon_keep ?_))) (fun h5 =>
      canon_ite h5 (canon_wr h5))))
  split
  · exact canon_ite (canon_gapFlag (canon_gapLive (canon_keep h))) h
  · exact h

theorem canon_admitAgain {slot page} (h : Canon s) : Canon (s.admitAgain slot page) := by
  unfold State.admitAgain
  split
  · exact canon_ite (canon_ite (canon_letIn h) (canon_pageRefused (canon_letIn h))) h
  · exact h

theorem canon_readmit {slot page} (h : Canon s) : Canon (s.readmit slot page) := by
  unfold State.readmit
  split
  · exact h
  · exact canon_ite (canon_each h canon_admitAgain) (canon_admitAgain h)

theorem canon_passUnprinted {n j start notPrintable} (h : Canon s) : Canon (s.passUnprinted n j start
    notPrintable) :=
  canon_fixPage (canon_wastePage (canon_pageEntry h))

theorem canon_holdPage {n j acts notPrintable} (h : Canon s) : Canon (s.holdPage n j acts notPrintable) :=
  canon_pageEntry (canon_keep h)

theorem canon_suspend {n} (h : Canon s) : Canon (s.suspend n) := canon_ite h (canon_raise (canon_flag h))

theorem canon_passPage {n j start acts} (h : Canon s) : Canon (s.passPage n j start acts) :=
  canon_cut (fun h2 => canon_ite (canon_readmit (canon_fixPage h2)) (canon_fixPage h2)) (canon_ite (canon_wastePage
    (canon_pageEntry h)) (canon_pageEntry h))

theorem canon_checkDefined {n j start p variable_} (h : Canon s) : Canon (s.checkDefined n j start p
    variable_) :=
  canon_ite (canon_holdPage (canon_layersCheck h)) (canon_cut (fun h2 => canon_ite (canon_passPage h2) (canon_ite
    (canon_holdPage (canon_suspend h2)) (canon_passUnprinted (canon_suspend h2)))) (canon_ite_snd (canon_pair_snd
    (canon_layersCheck h)) (canon_pair_snd (canon_ite (canon_letIn (canon_layersCheck h)) (canon_pageRefused
    (canon_letIn (canon_layersCheck h)))))))

theorem canon_checkPage {n j start late} (h : Canon s) : Canon (s.checkPage n j start late) := by
  apply canon_cut
  · intro h1
    refine canon_ite (canon_pageEntry (canon_keep (canon_markLate h1))) ?_
    split
    · exact canon_ite (canon_ite (canon_holdPage h1) (canon_passUnprinted h1)) (canon_checkDefined h1)
    · exact canon_ite (canon_holdPage h1) (canon_passUnprinted h1)
  · exact canon_ite (canon_suspend h) h

theorem canon_heldLook {n j} (h : Canon s) : Canon (s.heldLook n j) := by
  unfold State.heldLook
  split
  · exact canon_suspend h
  · exact canon_ite (canon_suspend h) (canon_ite (canon_pageEntry (canon_keep (canon_layersCheck h)))
        (canon_keep (canon_flag (canon_layersCheck h))))

theorem canon_readiness {k} (h : Canon s) : Canon (s.readiness k) := by
  induction k generalizing s with
  | zero => exact h
  | succ k ih =>
    have settled := canon_marksSettle (canon_placeNext h)
    unfold State.readiness
    dsimp only
    split
    · exact settled
    · split
      · exact canon_ite (canon_ite (canon_checkPage settled) (ih (canon_checkPage settled))) settled
      · exact canon_ite (canon_heldLook settled) settled
      · exact canon_keep settled

theorem canon_pageFollow {w} (h : Canon s) : Canon (s.pageFollow w) := by
  unfold State.pageFollow
  dsimp only
  split
  · exact h
  · exact canon_ite (canon_keep (canon_flag h)) (canon_fixPage (canon_flag h))

theorem canon_execGapStart {t slot page} (h : Canon s) : CanonNext (execGapStart t slot page s) := by
  refine canon_run (fun h1 => ?_) h
  split
  · exact h1
  · exact canon_ite (canon_cut (fun h2 => canon_ite (canon_raise (canon_flag h2)) (canon_flag h2))
        (canon_curShow (canon_flag (canon_modRun h1)))) h1

theorem canon_execLineMatch {t slot page} (h : Canon s) : CanonNext (execLineMatch t slot page s) := by
  refine canon_run (fun h1 => ?_) h
  split
  · exact h1
  · exact canon_ite (canon_cut (fun h2 => canon_ite (canon_raise (canon_flag h2)) (canon_flag h2))
        (canon_curShow (canon_flag (canon_modRun h1)))) h1

theorem canon_execPageDone {t slot page} (h : Canon s) : CanonNext (execPageDone t slot page s) := by
  refine canon_run (fun h1 => ?_) h
  split
  · exact h1
  · exact canon_ite (canon_cut (fun h2 => canon_cut (fun h4 => canon_curShow (canon_jobShow (canon_ite
        (canon_jobsEnd h4) h4))) (canon_ite (canon_raise (canon_modPage h2)) (canon_modPage h2))) (canon_flag
        (canon_modRun h1))) h1

theorem canon_runsPrune (h : Canon s) : Canon s.runsPrune := canon_keep h

theorem canon_overShow (h : Canon s) : Canon s.overShow := by
  unfold State.overShow
  split
  · exact canon_calmShow (canon_ite (canon_spdShow (canon_flag h)) h)
  · exact canon_calmShow h

theorem canon_slackShow {ch slack} (h : Canon s) : Canon (s.slackShow ch slack) :=
  canon_calmShow (canon_ite (canon_spdShow (canon_flag (canon_keep h))) (canon_keep h))

theorem canon_thermalShow {b} (h : Canon s) : Canon (s.thermalShow b) :=
  canon_calmShow (canon_ite (canon_spdShow (canon_flag h)) (canon_flag h))

theorem canon_execSpeedReqRelease {t} (h : Canon s) : CanonNext (execSpeedReqRelease t s) :=
  canon_run (fun h1 => canon_ite (canon_spdShow (canon_flag (canon_flag (canon_calmShow h1)))) (canon_calmShow h1)) h

theorem canon_binFlush (h : Canon s) : Canon s.binFlush := canon_ite h (canon_record (canon_keep h))

theorem canon_edgeBin {n a b z at_} (h : Canon s) : Canon (s.edgeBin n a b z at_) :=
  canon_cut (fun h1 => canon_ite (canon_keep h1) h1) (canon_ite h (canon_binFlush h))

theorem canon_webFollow (h : Canon s) : Canon s.webFollow :=
  canon_encosShow (canon_curShow (canon_overShow (canon_predictAll (canon_estTake (canon_webShow h)))))

theorem canon_speedFollow (h : Canon s) : Canon s.speedFollow := canon_webFollow (canon_accKeep (canon_speedUpdate h))

theorem canon_edgeTake {n a b z at_} (h : Canon s) : Canon (s.edgeTake n a b z at_) :=
  canon_ite (canon_speedFollow (canon_encEdge h)) (canon_encEdge h)

theorem canon_execEncEdge {t n a b z ago} (h : Canon s) : CanonNext (execEncEdge t n a b z ago s) :=
  canon_run (fun h1 => canon_ite (canon_edgeTake (canon_edgeBin h1)) h1) h

theorem canon_execProbeEdge {t n rising ago} (h : Canon s) : CanonNext (execProbeEdge t n rising ago s) := by
  refine canon_run (fun h1 => canon_ite ?_ h1) h
  dsimp only
  split
  · exact canon_marksSettle (canon_keep (canon_probeEdge h1))
  · exact canon_probeEdge h1

theorem canon_execStandstill {t n} (h : Canon s) : CanonNext (execStandstill t n s) :=
  canon_run (fun h1 => canon_ite (canon_cut (fun h3 => canon_ite (canon_speedFollow h3) h3) (canon_ite (canon_raise
    (canon_stillOne h1)) (canon_stillOne h1))) h1) h

theorem canon_estimateUpdate (h : Canon s) : Canon s.estimateUpdate :=
  canon_cut (fun h1 => canon_ite (canon_binFlush h1) h1) (canon_histPush (canon_webFollow (canon_accUpdate
    (canon_speedUpdate h))))

/-! Machine/Screen.lean -/

theorem canon_windowPut {base size ws} (h : Canon s) : Canon (s.windowPut base size ws) :=
  canon_each (canon_each h canon_wr) canon_wr

theorem canon_recount {b} (h : Canon s) : Canon (s.recount b) := canon_wr (canon_wr h)

theorem canon_bankSwap {b} (h : Canon s) : Canon (s.bankSwap b) :=
  canon_flag (canon_modBar (canon_windowPut (canon_windowPut h)))

theorem canon_execBankCopyDone {t b} (h : Canon s) : CanonNext (execBankCopyDone t b s) :=
  canon_run (fun h1 => canon_ite (canon_flag (canon_modBar (canon_windowPut h1))) h1) h

theorem canon_armApply {b a} (h : Canon s) : Canon (s.armApply b a) :=
  canon_cut (fun h1 => canon_cut (fun h4 => canon_ite (canon_setBitOf (canon_inc h4)) h4) (canon_raise (canon_inc
    (canon_recount (canon_flag (canon_modBar (canon_ite (canon_flag h1) h1))))))) (canon_ite (canon_bankSwap h) h)

theorem canon_armTake {b a} (h : Canon s) : Canon (s.armTake b a) :=
  canon_ite (canon_armApply h) (canon_flag (canon_modBar h))

theorem canon_arm {b beryl} (h : Canon s) : Canon (s.arm b beryl).2 :=
  canon_ite_snd (canon_pair_snd h) (canon_ite_snd (canon_pair_snd h) (canon_ite_snd (canon_pair_snd h) (canon_pair_snd
    (canon_armTake h))))

theorem canon_armRefused {b} (h : Canon s) : Canon (s.armRefused b) := canon_raise (canon_inc h)

theorem canon_armSettle {b} (h : Canon s) : Canon (s.armSettle b) := by
  unfold State.armSettle
  split
  · exact h
  · exact canon_ite (canon_armApply h) h

theorem canon_ovsTake {b state ord line} (h : Canon s) : Canon (s.ovsTake b state ord line) :=
  canon_modBar (canon_raise (canon_inc h))

theorem canon_ovsDecide {r b} (h : Canon s) : Canon (s.ovsDecide r b) :=
  canon_ite h (canon_ite h (canon_hbItem (canon_ovsTake h)))

theorem canon_ovsReach {b ord line} (h : Canon s) : Canon (s.ovsReach b ord line) := by
  unfold State.ovsReach
  dsimp only
  split
  · exact h
  · exact canon_put (canon_modBar h)

theorem canon_ovsFollow {slot b state line} (h : Canon s) : Canon (s.ovsFollow slot b state line) := by
  unfold State.ovsFollow
  split
  · exact h
  · apply canon_cut
    · intro h3
      exact canon_ite h3 (canon_raise (canon_add h3))
    · refine canon_each ?_ canon_lineVoid
      split
      · exact canon_ovsReach (canon_ovsTake h)
      · exact canon_ovsTake h

theorem canon_actSc {a mask val _before} (k1 : Canon s) : Canon (actSc a mask val _before s).2 := by
  unfold actSc
  split
  · exact canon_ite_snd (canon_arm k1) (canon_pair_snd k1)
  · exact canon_pair_snd k1

/-! Machine/Output.lean -/

theorem canon_digClose {b ord} (h : Canon s) : Canon (s.digClose b ord) :=
  canon_ite h (canon_modBar (canon_ite (canon_keep h) h))

theorem canon_digLine {r b line seq pchks} (h : Canon s) : Canon (s.digLine r b line seq pchks) := by
  apply canon_cut
  · intro h1
    exact canon_ite (canon_digClose (canon_modBar h1)) (canon_modBar h1)
  · split
    · exact canon_ite (canon_digClose h) h
    · exact h

theorem canon_digRecord {g} (h : Canon s) : Canon (s.digRecord g) := canon_record h

theorem canon_digWrite {b} (h : Canon s) : Canon (s.digWrite b) :=
  canon_ite h (canon_modBar (canon_each h canon_digRecord))

theorem canon_digSettle {b} (h : Canon s) : Canon (s.digSettle b) := by
  refine canon_digWrite ?_
  split
  · exact h
  · exact canon_ite h (canon_digClose h)

theorem canon_freezeJudge {r l sig} (h : Canon s) : Canon (s.freezeJudge r l sig) :=
  canon_ite (canon_cut (fun h2 => canon_ite (canon_wasteCopy h2) h2) (canon_flag (canon_raise (canon_inc (canon_flag
    h))))) (canon_wr h)

theorem canon_freezeLine {ord page b p} (h : Canon s) : Canon (s.freezeLine ord page b p) := by
  refine canon_each h (fun h1 => ?_)
  split
  · exact h1
  · refine canon_ite ?_ h1
    dsimp only
    split
    · exact canon_freezeJudge (canon_modRun h1)
    · exact canon_modRun h1

theorem canon_tapDrop {r b} (h : Canon s) : Canon (s.tapDrop r b) :=
  canon_ite (canon_inc h) (canon_raise (canon_keep (canon_inc h)))

theorem canon_tapBegin {r b line} (h : Canon s) : Canon (s.tapBegin r b line) :=
  canon_ite h (canon_ite (canon_tapDrop h) (canon_keep h))

theorem canon_tapWrite {t} (h : Canon s) : Canon (s.tapWrite t) :=
  canon_keep (canon_ite (canon_inc (canon_inc (canon_wrMem h))) (canon_inc (canon_wrMem h)))

theorem canon_tapLine {r b line ovs vols c4} (h : Canon s) : Canon (s.tapLine r b line ovs vols c4) :=
  canon_each (canon_keep (canon_keep (canon_tapBegin h))) canon_tapWrite

theorem canon_modStream {x f} (h : Canon s) : Canon (s.modStream x f) := canon_keep h

theorem canon_encShow {n} (h : Canon s) : Canon (s.encShow n) := canon_put (canon_flag h)

theorem canon_streamOpen {x} (h : Canon s) : Canon (s.streamOpen x) :=
  canon_encShow (canon_flag (canon_keep (canon_put (canon_flag (canon_put (canon_put (canon_put h)))))))

theorem canon_proofLost {ord page} (h : Canon s) : Canon (s.proofLost ord page) := by
  unfold State.proofLost
  split
  · exact h
  · exact canon_ite h (canon_raise (canon_modRun h))

theorem canon_stripOut {x last width ss} (h : Canon s) : Canon (s.stripOut x last width ss) :=
  canon_ite (canon_modStream h) (canon_inc (canon_modStream h))

theorem canon_stripClose {x last} (h : Canon s) : Canon (s.stripClose x last) :=
  canon_ite h (canon_ite (canon_modStream h) (canon_each (canon_modStream h) canon_stripOut))

theorem canon_streamRow {x row} (h : Canon s) : Canon (s.streamRow x row) :=
  canon_cut (fun h1 => canon_cut (fun h2 => canon_encShow (canon_ite (canon_stripClose h2) (canon_ite
    (canon_stripClose h2) h2))) (canon_ite (canon_proofLost (canon_modStream h1)) (canon_modStream h1))) (canon_ite
    (canon_stripClose h) h)

theorem canon_proofClose {ord page} (h : Canon s) : Canon (s.proofClose ord page) := by
  unfold State.proofClose
  split
  · exact h
  · exact canon_ite h (canon_cut (fun h2 => canon_ite (canon_inc (canon_proofLost h2)) (canon_cut (fun h3 =>
        canon_ite (canon_inc (canon_modRun (canon_keep h3))) (canon_modRun (canon_keep h3))) (canon_inc (canon_wrMem
        h2)))) (canon_each (canon_keep h) canon_encShow))

theorem canon_proofLine {r b p} (h : Canon s) : Canon (s.proofLine r b p) :=
  canon_ite h (canon_proofClose (canon_each (canon_ite (canon_each h canon_streamOpen) h) (fun h2 => canon_ite
    (canon_ite (canon_streamRow h2) h2) (canon_ite (canon_streamRow h2) h2))))

theorem canon_proofsSettle (h : Canon s) : Canon s.proofsSettle :=
  canon_ite h (canon_each (canon_each h (fun h1 => canon_encShow (canon_stripClose h1))) canon_proofClose)

theorem canon_flush {n} (h : Canon s) : Canon (s.flush n) :=
  canon_ite h (canon_encShow (canon_each h canon_stripClose))

theorem canon_actCs {a mask val _before} (k1 : Canon s) : Canon (actCs a mask val _before s).2 := by
  unfold actCs
  split
  · exact canon_pair_snd (canon_ite (canon_flush k1) k1)
  · exact canon_pair_snd k1

theorem canon_encDiffers {n dest} (h : Canon s) : Canon (s.encDiffers n dest) := canon_raise (canon_addSat h)

theorem canon_encFails {n dest} (h : Canon s) : Canon (s.encFails n dest) := canon_raise (canon_addSat (canon_flag h))

theorem canon_verifyEnd {n o} (h : Canon s) : Canon (s.verifyEnd n o) := by
  unfold State.verifyEnd
  split
  · exact h
  · split
    · exact h
    · refine canon_proofClose (canon_encShow ?_)
      split
      · exact canon_inc (canon_modStream (canon_modStream h))
      · exact canon_inc (canon_modStream (canon_encDiffers (canon_modStream h)))
      · exact canon_proofLost (canon_encFails (canon_modStream (canon_encDiffers (canon_modStream h))))

theorem canon_linePut {ch x} (h : Canon s) : Canon (s.linePut ch x) :=
  canon_ite (canon_lineDiscard (canon_slackShow (canon_modLines h))) (canon_slackShow (canon_modLines h))

theorem canon_seqAll {b} (h : Canon s) : Canon (s.seqAll b) := canon_each h canon_inc

theorem canon_startRates {b r} (h : Canon s) : Canon (s.startRates b r) := by
  refine canon_ite h ?_
  split
  · exact canon_each h canon_flag
  · exact h

theorem canon_stripPrinted {b r line} (h : Canon s) : Canon (s.stripPrinted b r line) :=
  canon_ite (canon_inc (canon_keep h)) h

theorem canon_composeLine {b r line} (h : Canon s) : Canon (s.composeLine b r line) := by
  apply canon_cut
  · intro h7
    exact canon_cut (fun h8 => canon_cut (fun h11 => canon_cut (fun h12 => canon_ite (canon_digSettle
        (canon_modBar h12)) (canon_rateShow (canon_digSettle (canon_modBar h12)))) (canon_ite (canon_modRun h11) h11))
        (canon_ite (canon_proofLine (canon_freezeLine (canon_tapLine (canon_digLine h8)))) (canon_tapLine
        (canon_digLine h8)))) (canon_ite h7 (canon_ite (canon_inc h7) (canon_wasteOfLine (canon_inc h7))))
  · refine canon_stripPrinted (canon_seqAll (canon_each (canon_each (canon_ovsDecide (canon_regStep
        (canon_ovsReach ?_))) canon_stripNeed) canon_linePut))
    split
    · exact canon_ite (canon_armApply (canon_startRates h)) (canon_startRates h)
    · exact canon_startRates h

theorem canon_composeNext {b} (h : Canon s) : Canon (s.composeNext b) := by
  unfold State.composeNext
  split
  · exact h
  · exact canon_ite (canon_composeLine h) h

/-! Machine/Camera.lean -/

theorem canon_modCtx {n f} (h : Canon s) : Canon (s.modCtx n f) := canon_keep h

theorem canon_encoStep {n} (h : Canon s) : Canon (s.encoStep n) :=
  canon_ite (canon_encoEdge h) (canon_each (canon_keep (canon_encoEdge h)) canon_modCtx)

theorem canon_execEncoEdge {t n} (h : Canon s) : CanonNext (execEncoEdge t n s) := canon_run canon_encoStep h

theorem canon_modMark {r b f} (h : Canon s) : Canon (s.modMark r b f) := canon_keep h

theorem canon_markLost {n c a i} (h : Canon s) : Canon (s.markLost n c a i) := by
  unfold State.markLost
  split
  · exact h
  · exact canon_ite (canon_each h canon_modMark) h

theorem canon_frameFlag {n} (h : Canon s) : Canon (s.frameFlag n) := by
  unfold State.frameFlag
  split
  · exact canon_ite h (canon_raise (canon_modCtx h))
  · exact h

theorem canon_frameClose {n f short ovf} (h : Canon s) : Canon (s.frameClose n f short ovf) :=
  canon_record (canon_inc (canon_modCtx h))

theorem canon_frameEnd {n cut} (h : Canon s) : Canon (s.frameEnd n cut) := by
  unfold State.frameEnd
  split
  · exact h
  · exact canon_modCtx (canon_ite h (canon_frameClose (canon_ite (canon_frameFlag (canon_inc h)) h)))

theorem canon_frameStart {n ago} (h : Canon s) : Canon (s.frameStart n ago) :=
  canon_ite (canon_flag (canon_modCtx (canon_frameEnd h))) (canon_cut (fun h4 => canon_ite (canon_raise (canon_inc
    h4)) h4) (canon_flag (canon_flag (canon_modCtx (canon_modCtx (canon_frameEnd h))))))

theorem canon_packetError {port n} (h : Canon s) : Canon (s.packetError port n) :=
  canon_ite h (canon_raise (canon_modCtx h))

theorem canon_headerIn {port hd} {f : State → State} (h : Canon s) (hf : ∀ {y},
    Canon y → Canon (f y)) : Canon (s.headerIn port hd f) :=
  canon_ite (canon_packetError (canon_inc h)) (canon_ite (canon_packetError (hf (canon_inc h))) (hf h))

theorem canon_execCsiFrameStart {t port hdr ago} (h : Canon s) : CanonNext (execCsiFrameStart t port hdr ago s)
    :=
  canon_run (fun h1 => canon_ite (canon_headerIn h1 canon_frameStart) h1) h

theorem canon_execCsiFrameEnd {t port hdr} (h : Canon s) : CanonNext (execCsiFrameEnd t port hdr s) :=
  canon_run (fun h1 => canon_ite (canon_headerIn h1 canon_frameEnd) h1) h

theorem canon_lineIn {n words bad raw} (h : Canon s) : Canon (s.lineIn n words bad raw) := by
  unfold State.lineIn
  split
  · exact h
  · refine canon_ite (canon_markLost (canon_modCtx h)) (canon_ite (canon_markLost (canon_frameFlag (canon_inc
        (canon_modCtx (canon_modCtx h))))) (canon_ite (canon_markLost (canon_frameFlag (canon_inc (canon_modCtx h))))
        ?_))
    split
    · exact canon_modCtx h
    · exact canon_ite (canon_markLost (canon_modCtx (canon_frameClose (canon_raise (canon_inc (canon_modCtx
          h)))))) (canon_keep (canon_modCtx h))

theorem canon_packetIn {port vc dtype words crcOk raw} (h : Canon s) : Canon (s.packetIn port vc dtype words
    crcOk raw) :=
  canon_ite h (canon_ite (canon_inc h) (canon_lineIn (canon_ite h (canon_packetError (canon_inc h)))))

theorem canon_execCsiLine {t port vc hdr dtype words crcOk raw} (h : Canon s) : CanonNext (execCsiLine t
    port vc hdr dtype words crcOk raw s) :=
  canon_run (fun h1 => canon_ite (canon_headerIn h1 canon_packetIn) h1) h

theorem canon_execCamSilent {t n} (h : Canon s) : CanonNext (execCamSilent t n s) :=
  canon_run (fun h1 => canon_ite (canon_ite (canon_raise (canon_modCtx (canon_flag h1))) (canon_flag h1)) h1) h

theorem canon_execPipeSwitch {t} (h : Canon s) : CanonNext (execPipeSwitch t s) := by
  refine canon_run (fun h1 => canon_ite h1 ?_) h
  split
  · exact canon_flag h1
  · exact canon_keep (canon_inc (canon_flag (canon_put h1)))

theorem canon_markJudged {r b} (h : Canon s) : Canon (s.markJudged r b) := by
  refine canon_ite (canon_keep h) ?_
  split
  · exact canon_keep (canon_setBitOf (canon_wr (canon_keep h)))
  · exact canon_cut (fun h2 => canon_ite h2 (canon_raise (canon_keep h2))) (canon_inc (canon_setBitOf
        (canon_keep h)))

theorem canon_marksSkip (h : Canon s) : Canon s.marksSkip := canon_ite h (canon_each h canon_markJudged)

theorem canon_markLine {n p} (h : Canon s) : Canon (s.markLine n p) := by
  refine canon_ite h ?_
  apply canon_cut
  · intro h1
    dsimp only
    split
    · exact h1
    · exact canon_ite h1 (canon_each h1 canon_modMark)
  · exact canon_each h canon_markJudged

theorem canon_proofObs {p} (h : Canon s) : Canon (s.proofObs p) :=
  canon_each h (fun h1 => canon_each h1 (fun h2 => canon_ite h2 (canon_keep h2)))

theorem canon_proofResult {r} (h : Canon s) : Canon (s.proofResult r) :=
  canon_ite (canon_raise (canon_inc (canon_keep (canon_modRun h)))) (canon_ite (canon_inc (canon_keep (canon_keep
    (canon_modRun h)))) (canon_cut (fun h4 => canon_ite (canon_wasteCopy h4) h4) (canon_raise (canon_inc (canon_keep
    (canon_keep (canon_modRun h)))))))

theorem canon_execProofResult {t slot page} (h : Canon s) : CanonNext (execProofResult t slot page s) := by
  refine canon_run (fun h1 => ?_) h
  split
  · exact h1
  · exact canon_ite (canon_proofResult h1) h1

theorem canon_obsWrite {n p t} (h : Canon s) : Canon (s.obsWrite n p t) := by
  have body : @State.obsWrite = ?_ := by
    delta State.obsWrite
    exact rfl
  rw [body]
  beta_reduce
  extract_lets bs
  generalize s.obsPlace bs.length = place
  cases place with
  | none => exact canon_inc h
  | some off => exact canon_proofObs (canon_keep (canon_wrMem h))

theorem canon_obsLine {n hd p} (h : Canon s) : Canon (s.obsLine n hd p) :=
  canon_modCtx (canon_each h (fun h1 => canon_ite (canon_obsWrite (canon_modCtx h1)) (canon_modCtx h1)))

theorem canon_lineProcess (h : Canon s) : Canon s.lineProcess := by
  unfold State.lineProcess
  dsimp only
  split
  · exact h
  · refine canon_ite (canon_keep h) ?_
    split
    · exact h
    · exact canon_markLine (canon_obsLine (canon_keep h))

theorem canon_execLineProcessed {t} (h : Canon s) : CanonNext (execLineProcessed t s) :=
  canon_run (fun h1 => canon_ite (canon_lineProcess h1) h1) h

/-! Machine/BerylObs.lean -/

theorem canon_modBy {b f} (h : Canon s) : Canon (s.modBy b f) := canon_keep h

theorem canon_whiteTake {x d} (h : Canon s) : Canon (s.whiteTake x d) := canon_keep (canon_ite (canon_put h) h)

theorem canon_execWhiteStale {t x} (h : Canon s) : CanonNext (execWhiteStale t x s) := by
  refine canon_run (fun h1 => ?_) h
  split
  · exact h1
  · exact canon_ite h1 (canon_ite (canon_raise (canon_put (canon_keep h1))) (canon_put (canon_keep h1)))

theorem canon_putAcc {x a} (h : Canon s) : Canon (s.putAcc x a) := canon_wrMem h

theorem canon_winRow {col x y} (h : Canon s) : Canon (s.winRow col x y) := canon_keep h

theorem canon_solveQueue {item bars} (h : Canon s) : Canon (s.solveQueue item bars) := canon_ite h (canon_keep h)

theorem canon_figObs {r strip b x ys} (h : Canon s) : Canon (s.figObs r strip b x ys) := canon_keep h

theorem canon_figEnd {f} (h : Canon s) : Canon (s.figEnd f) := by
  refine canon_ite h ?_
  apply canon_cut
  · intro h1
    exact canon_ite (canon_raise (canon_wr h1)) (canon_wr h1)
  · split
    · exact canon_pair_snd h
    · exact canon_pair_snd (canon_draw h)

theorem canon_tapsFree (h : Canon s) : Canon s.tapsFree := canon_each (canon_keep h) canon_figEnd

/-! Machine/BerylSolve.lean -/

theorem canon_recPut {b code w} (h : Canon s) : Canon (s.recPut b code w) :=
  canon_ite h (canon_ite (canon_keep (canon_wr h)) (canon_wr h))

theorem canon_recAccept {b code a ovl} (h : Canon s) : Canon (s.recAccept b code a ovl) := canon_recPut h

theorem canon_slotTouch {b code} (h : Canon s) : Canon (s.slotTouch b code) :=
  canon_ite (canon_modBy h) (canon_keep (canon_modBy h))

theorem canon_execConfDecay {t} (h : Canon s) : CanonNext (execConfDecay t s) :=
  canon_run (fun h1 => canon_ite (canon_each (canon_keep h1) (fun h3 => canon_each h3 (fun h4 => canon_ite h4
    (canon_recPut h4)))) h1) h

theorem canon_solveRidge {n r ap} (h : Canon s) : Canon (s.solveRidge n r ap).2 := by
  unfold State.solveRidge
  dsimp only
  split
  · exact canon_pair_snd h
  · exact canon_foldl_snd (canon_pair_snd h) (fun h1 => canon_pair_snd (canon_draw (canon_draw h1)))

theorem canon_barSolved {b sse} (h : Canon s) : Canon (s.barSolved b sse) := by
  apply canon_cut
  · intro h1
    unfold State.barSolved
    dsimp only
    split
    · exact h1
    · exact canon_modBy h1
  · exact canon_wr (canon_wr (canon_inc h))

theorem canon_colAccept {x b a sse} (h : Canon s) : Canon (s.colAccept x b a sse) := by
  unfold State.colAccept
  dsimp only
  split
  · exact canon_modBy (canon_barSolved h)
  · exact canon_slotTouch (canon_recAccept (canon_modBy (canon_barSolved h)))
  · exact canon_each (canon_modBy (canon_modBy (canon_barSolved h))) canon_slotTouch

theorem canon_colSolve {x bars} (h : Canon s) : Canon (s.colSolve x bars) :=
  canon_ite (canon_inc (canon_putAcc (canon_solveRidge h))) (canon_each (canon_inc (canon_putAcc (canon_solveRidge
    h))) canon_colAccept)

theorem canon_ovlSolve {key bars} (h : Canon s) : Canon (s.ovlSolve key bars) := by
  unfold State.ovlSolve
  split
  · exact h
  · dsimp only
    split
    · exact canon_ite (canon_inc (canon_keep (canon_solveRidge h))) (canon_each (canon_modBy (canon_barSolved
          (canon_inc (canon_keep (canon_solveRidge h))))) (fun h5 => canon_slotTouch (canon_recAccept h5)))
    · exact h

theorem canon_ovlPut {o} (h : Canon s) : Canon (s.ovlPut o) := canon_keep h

theorem canon_ovlRow {b m pos gen bars x0 x1 y} (h : Canon s) : Canon (s.ovlRow b m pos gen bars x0 x1 y) := by
  unfold State.ovlRow
  dsimp only
  split
  · exact canon_ovlPut h
  · refine canon_ite ?_ h
    apply canon_cut
    · intro h1
      split
      · exact canon_ovlPut h1
      · exact h1
    · exact canon_ovlSolve (canon_ovlPut h)

theorem canon_ovlObs {r t b x ink nir ys} (h : Canon s) : Canon (s.ovlObs r t b x ink nir ys) := by
  unfold State.ovlObs
  split
  · exact canon_cut (fun h1 => canon_ite (canon_solveQueue h1) h1) (canon_foldl h (fun h1 => canon_ite
        (canon_ovlRow h1) h1))
  · exact h

theorem canon_obsColumn {r t strip ink nir x d} (h : Canon s) : Canon (s.obsColumn r t strip ink nir x d) := by
  unfold State.obsColumn
  extract_lets -underBinder s1
  have white : Canon s1 := canon_ite (canon_whiteTake h) h
  split
  · exact white
  · refine canon_ite white ?_
    extract_lets -underBinder ys s2
    have rows : Canon s2 := canon_ite (canon_foldl white fun h => canon_ite (canon_winRow h) h) white
    split
    · split
      · exact canon_ite (canon_figObs (canon_ovlObs rows)) rows
      · exact rows
    · exact rows

theorem canon_solveItem {q} (h : Canon s) : Canon (s.solveItem q) :=
  canon_ite (canon_ite (canon_colSolve h) h) (canon_ite (canon_ovlSolve h) h)

theorem canon_execColumnSolve {t} (h : Canon s) : CanonNext (execColumnSolve t s) := by
  refine canon_run (fun h1 => ?_) h
  split
  · exact h1
  · exact canon_ite (canon_solveItem (canon_keep h1)) h1

theorem canon_winColumn {bars w} (h : Canon s) : Canon (s.winColumn bars w) := by
  apply canon_cut
  · intro h1
    unfold State.winColumn
    dsimp only
    split
    · exact h1
    · exact canon_putAcc h1
  · split
    · exact canon_pair_snd h
    · exact canon_ite_snd (canon_pair_snd (canon_colSolve h)) (canon_pair_snd h)

theorem canon_colsQueue {bars} (h : Canon s) : Canon (s.colsQueue bars) := canon_each h canon_solveQueue

theorem canon_winClose (h : Canon s) : Canon s.winClose :=
  canon_colsQueue (canon_ite (canon_each (canon_keep h) canon_winColumn) (canon_keep h))

theorem canon_execAccWindowTimeout {t} (h : Canon s) : CanonNext (execAccWindowTimeout t s) :=
  canon_run (fun h1 => canon_ite (canon_flag (canon_winClose h1)) h1) h

theorem canon_winTake {r t} (h : Canon s) : Canon (s.winTake r t) :=
  canon_cut (fun h1 => canon_keep (canon_ite h1 (canon_inc h1))) (canon_ite (canon_winClose h) h)

theorem canon_obsTake {o} (h : Canon s) : Canon (s.obsTake o) := by
  unfold State.obsTake
  split
  · exact canon_inc h
  · split
    · exact canon_inc h
    · exact canon_ite h (canon_each (canon_flag (canon_winTake h)) canon_obsColumn)

theorem canon_execObsMatch {t} (h : Canon s) : CanonNext (execObsMatch t s) := by
  refine canon_run (fun h1 => ?_) h
  split
  · exact h1
  · exact canon_ite (canon_obsTake (canon_keep h1)) h1

/-! Machine/Beryl.lean -/

theorem canon_refTake {b} (h : Canon s) : Canon (s.refTake b) :=
  canon_ite (canon_put h) (canon_ite h (canon_put (canon_put h)))

theorem canon_gainTarget {b eff} (h : Canon s) : Canon (s.gainTarget b eff).2 :=
  canon_ite_snd (canon_ite_snd (canon_pair_snd (canon_draw h)) (canon_pair_snd h)) (canon_pair_snd h)

theorem canon_slotReset {b seg code e} (h : Canon s) : ∀ r ∈ s.slotReset b seg code e, Canon r.2 := by
  unfold State.slotReset
  intro r hr
  dsimp only at hr
  split at hr
  · simp at hr
  · split at hr
    · obtain rfl := Option.some.inj hr
      exact canon_recPut h
    · split at hr
      · obtain rfl := Option.some.inj hr
        exact canon_recPut h
      · simp at hr

theorem canon_missLimit {b seg marks} (h : Canon s) : Canon (s.missLimit b seg marks) :=
  canon_ite h (canon_raise (canon_setBitOf h))

theorem canon_slotMiss {b seg code e c} (h : Canon s) : Canon (s.slotMiss b seg code e c).2 :=
  canon_ite_snd (canon_pair_snd (canon_missLimit h)) (canon_pair_snd (canon_missLimit (canon_raise (canon_recPut h))))

theorem canon_slotUnmark {b seg code c} (h : Canon s) : Canon (s.slotUnmark b seg code c).2 :=
  canon_ite_snd (canon_pair_snd (canon_recPut h)) (canon_pair_snd h)

theorem canon_slotGain {b code x e c} (h : Canon s) : Canon (s.slotGain b code x e c).2 :=
  canon_pair_snd (canon_gainTarget h)

theorem canon_slotCycle {b} {r : CycleAcc × State} {q} (h : Canon r.2) : Canon (State.slotCycle b r q).2 := by
  unfold State.slotCycle
  dsimp only
  split
  · next reset => exact canon_slotReset h _ reset
  · exact canon_ite_snd h (canon_ite_snd (canon_slotMiss (canon_slotUnmark h)) (canon_slotGain (canon_slotUnmark h)))

theorem canon_shadowFill {b writes} (h : Canon s) : Canon (s.shadowFill b writes) :=
  canon_cut (fun h2 => canon_ite (canon_keep h2) h2) (canon_each (canon_windowPut h) canon_wr)

theorem canon_cycleOpen {b} (h : Canon s) : Canon (s.cycleOpen b) :=
  canon_cut (fun h3 => canon_cut (fun h6 => canon_ite h6 (canon_modBy (canon_setBitOf (canon_shadowFill h6))))
    (canon_ite (canon_put (canon_modBy h3)) (canon_raise (canon_put (canon_modBy h3))))) (canon_foldl_snd
    (canon_pair_snd (canon_each (canon_refTake h) canon_setBitOf)) canon_slotCycle)

theorem canon_execApplyCycle {t b} (h : Canon s) : CanonNext (execApplyCycle t b s) :=
  canon_run (fun h1 => canon_ite (canon_cycleOpen h1) h1) h

theorem canon_cycleArm {b} (h : Canon s) : Canon (s.cycleArm b) :=
  canon_ite h (canon_ite (canon_modBy (canon_copy (canon_arm (canon_wr (canon_wrCopy h))))) (canon_ite (canon_wr
    (canon_wrCopy h)) (canon_cut (fun h4 => canon_ite h4 (canon_raise (canon_modBy h4))) (canon_inc (canon_armRefused
    (canon_wr (canon_wrCopy h)))))))

theorem canon_cyclesArm (h : Canon s) : Canon s.cyclesArm := canon_ite (canon_each h canon_cycleArm) h

theorem canon_segReset {b m} (h : Canon s) : Canon (s.segReset b m) := canon_modBy (canon_each h canon_recPut)

theorem canon_headReset {ch} (h : Canon s) : Canon (s.headReset ch) := canon_raise (canon_segReset h)

theorem canon_estReset {b} (h : Canon s) : Canon (s.estReset b) := canon_raise (canon_each h canon_segReset)

theorem canon_stripsCopy {slot page g} (h : Canon s) : Canon (s.stripsCopy slot page g) :=
  canon_each (canon_copy h) (fun h2 => canon_ite h2 (canon_copy h2))

theorem canon_stripsTake {r} (h : Canon s) : Canon (s.stripsTake r) :=
  canon_each (canon_each (canon_each (canon_stripsCopy (canon_modRun h)) canon_modBy) canon_modBy) (fun h4 =>
    canon_cut (fun h5 => canon_ite (canon_raise h5) h5) (canon_modBy (canon_inc h4)))

theorem canon_stripsSettle (h : Canon s) : Canon s.stripsSettle := canon_ite (canon_each h canon_stripsTake) h

theorem canon_stripsFollow {w} (h : Canon s) : Canon (s.stripsFollow w) := by
  unfold State.stripsFollow
  dsimp only
  split
  · exact h
  · exact canon_modRun h

theorem canon_stripMapFollow {w} (h : Canon s) : Canon (s.stripMapFollow w) := by
  unfold State.stripMapFollow
  dsimp only
  split
  · exact h
  · exact canon_modRun h

theorem canon_regAutoPut {l} (h : Canon s) : Canon (s.regAutoPut l) :=
  canon_ite h (canon_each (canon_copyLines (canon_holdOld h)) (fun h4 => canon_regClampSee (canon_wrCopy h4)))

theorem canon_regSettle (h : Canon s) : Canon s.regSettle := by
  refine canon_ite (canon_keep h) ?_
  split
  · exact canon_keep h
  · exact canon_regAutoPut (canon_keep h)

theorem canon_berylTakeover (h : Canon s) : Canon s.berylTakeover :=
  canon_cut (fun h1 => canon_ite (canon_keep h1) (canon_raise (canon_flag (canon_keep h1)))) (canon_each h (fun h1 =>
    canon_cut (fun h2 => canon_ite (canon_windowPut h2) h2) (canon_setBitOf (canon_modBy h1))))

theorem canon_recFollow {a v} (h : Canon s) : Canon (s.recFollow a v) := canon_ite (canon_modBy h) h

theorem canon_berylDeltas {width} (h : Canon s) : Canon (s.berylDeltas width).2 := canon_pair_snd (canon_keep h)

theorem canon_actBy {a mask val _before} (k1 : Canon s) : Canon (actBy a mask val _before s).2 := by
  refine canon_ite_snd (canon_ite_snd (canon_pair_snd (canon_regAutoPut k1)) (canon_pair_snd k1))
      (canon_ite_snd (canon_pair_snd (canon_each k1 canon_modBy)) ?_)
  split
  · exact canon_pair_snd k1
  · exact canon_cut (fun h1 => canon_pair_snd (canon_ite (canon_estReset h1) h1)) (canon_ite (canon_modBy k1)
        k1)

/-! Machine/Dcp.lean -/

theorem canon_respond {r} (h : Canon s) : Canon (s.respond r) := canon_ite (canon_record (canon_emit h)) h

theorem canon_respFlush (h : Canon s) : Canon s.respFlush := canon_each (canon_keep h) canon_respond

theorem canon_heldDiscard (h : Canon s) : Canon s.heldDiscard := canon_each (canon_keep h) canon_respond

theorem canon_dcpDiscard (h : Canon s) : Canon s.dcpDiscard :=
  canon_heldDiscard (canon_each (canon_keep h) canon_respond)

theorem canon_eventPush {n} (h : Canon s) : Canon (s.eventPush n) := by
  unfold State.eventPush
  dsimp only
  split
  · exact h
  · exact canon_ite (canon_emit (canon_inc (canon_keep h))) h

theorem canon_execEventPush {t master} (h : Canon s) : CanonNext (execEventPush t master s) :=
  canon_run (fun h1 => canon_ite (canon_eventPush h1) h1) h

theorem canon_execDcpOnDp {t port} (h : Canon s) : CanonNext (execDcpOnDp t port s) :=
  canon_run (fun h1 => canon_ite (canon_raise h1) h1) h

theorem canon_execMpLinkDown {t} (h : Canon s) : CanonNext (execMpLinkDown t s) :=
  canon_run (fun h1 => canon_ite (canon_raise (canon_inc (canon_flag (canon_keep h1)))) h1) h

theorem canon_execMpLinkUp {t} (h : Canon s) : CanonNext (execMpLinkUp t s) :=
  canon_run (fun h1 => canon_ite h1 (canon_ite (canon_raise (canon_flag h1)) (canon_flag h1))) h

/-! Machine/EcnalLink.lean -/

theorem canon_frameIn {a} {f : State → State} (h : Canon s) (hf : ∀ {y}, Canon y → Canon (f y)) :
    Canon (s.frameIn a f) := by
  unfold State.frameIn
  split
  · exact canon_inc h
  · exact canon_inc h
  · exact canon_ite (hf h) h

theorem canon_frameOut {f} (h : Canon s) : Canon (s.frameOut f) := canon_ite (canon_emit h) h

theorem canon_relOut {f} (h : Canon s) : Canon (s.relOut f) := canon_frameOut h

theorem canon_relPump {k} (h : Canon s) : Canon (State.relPump k s) := by
  induction k generalizing s with
  | zero => exact h
  | succ k ih =>
    unfold State.relPump
    split
    · exact h
    · exact canon_ite h (ih (canon_relOut (canon_keep h)))

theorem canon_relPut {deferred b} (h : Canon s) : Canon (s.relPut deferred b) := canon_relPump (canon_keep h)

theorem canon_relSend {b} (h : Canon s) : Canon (s.relSend b) := canon_relPut h

theorem canon_relAck {next} (h : Canon s) : Canon (s.relAck next) := canon_ite h (canon_relPump (canon_keep h))

theorem canon_execEcnalResend {t} (h : Canon s) : CanonNext (execEcnalResend t s) :=
  canon_run (fun h1 => canon_ite (canon_inc (canon_each (canon_keep h1) canon_relOut)) h1) h

theorem canon_ackSend (h : Canon s) : Canon s.ackSend := canon_frameOut h

theorem canon_claimSeen {claim} (h : Canon s) : Canon (s.claimSeen claim) := canon_wr (canon_keep h)

theorem canon_relIn {hd} {f : State → State} (h : Canon s) (hf : ∀ {y}, Canon y →
    Canon (f y)) : Canon (s.relIn hd f) :=
  canon_frameIn h (fun h1 => canon_ite (canon_ackSend (hf (canon_keep (canon_claimSeen h1)))) (canon_inc
    (canon_claimSeen h1)))

theorem canon_relReset (h : Canon s) : Canon s.relReset := canon_keep h

theorem canon_hbSend (h : Canon s) : Canon s.hbSend := canon_frameOut (canon_keep h)

theorem canon_yieldEnd (h : Canon s) : Canon s.yieldEnd := by
  unfold State.yieldEnd
  split
  · exact h
  · exact canon_ite h (canon_ite (canon_each (canon_keep h) canon_laneDisable) (canon_keep h))

theorem canon_yieldStart {cause role} (h : Canon s) : Canon (s.yieldStart cause role) :=
  canon_ite (canon_hbSend (canon_keep h)) (canon_keep h)

theorem canon_helloOut (h : Canon s) : Canon s.helloOut := canon_frameOut h

theorem canon_helloStart (h : Canon s) : Canon s.helloStart := canon_ite (canon_keep h) h

theorem canon_execHelloSend {t} (h : Canon s) : CanonNext (execHelloSend t s) :=
  canon_run (fun h1 => canon_ite (canon_helloOut (canon_keep h1)) h1) h

theorem canon_linkWiden (h : Canon s) : Canon s.linkWiden :=
  canon_cut (fun h1 => canon_ite (canon_ite (canon_helloStart (canon_relReset h1)) (canon_relReset h1)) h1)
    (canon_keep (canon_put h))

theorem canon_elsyncEnd {l skew} (h : Canon s) : Canon (s.elsyncEnd l skew) :=
  canon_ite (canon_laneReadyBase (canon_modLane h)) (canon_laneFail h)

theorem canon_elsyncSend (h : Canon s) : Canon s.elsyncSend :=
  canon_each h (fun h1 => canon_ite (canon_modLane (canon_each h1 canon_emit)) h1)

theorem canon_execEcnalHbSend {t} (h : Canon s) : CanonNext (execEcnalHbSend t s) :=
  canon_run (fun h1 => canon_cut (fun h2 => canon_ite (canon_hbSend h2) h2) (canon_elsyncSend (canon_yieldEnd h1))) h

theorem canon_execElsync {t el rtt skew} (h : Canon s) : CanonNext (execElsync t el rtt skew s) :=
  canon_run (fun h1 => canon_ite (canon_ite (canon_elsyncEnd (canon_modLane (canon_elsyncSend h1))) (canon_modLane
    (canon_elsyncSend h1))) (canon_elsyncSend h1)) h

/-! Machine/Pair.lean -/

theorem canon_partnerShow (h : Canon s) : Canon s.partnerShow := canon_flag h

theorem canon_copiesDrop (h : Canon s) : Canon s.copiesDrop := canon_keep h

theorem canon_switchAbandon (h : Canon s) : Canon s.switchAbandon := by
  unfold State.switchAbandon
  split
  · exact h
  · exact canon_raise (canon_flag (canon_keep h))

theorem canon_goStale (h : Canon s) : Canon s.goStale :=
  canon_ite h (canon_helloStart (canon_servoHold (canon_switchAbandon (canon_copiesDrop (canon_flag h)))))

theorem canon_followerGone (h : Canon s) : Canon s.followerGone :=
  canon_cut (fun h1 => canon_ite h1 (canon_respFlush h1)) (canon_switchAbandon (canon_holdAll h))

theorem canon_partnerGoesStale (h : Canon s) : Canon s.partnerGoesStale :=
  canon_followerGone (canon_raise (canon_partnerShow (canon_keep h)))

theorem canon_execCopyDeadline {t} (h : Canon s) : CanonNext (execCopyDeadline t s) :=
  canon_run (fun h1 => canon_ite (canon_goStale h1) (canon_ite (canon_partnerGoesStale h1) h1)) h

theorem canon_authTake (h : Canon s) : Canon s.authTake :=
  canon_cut (fun h1 => canon_ite (canon_failedAct (canon_keep h1)) (canon_keep h1)) (canon_berylTakeover
    (canon_servoAdopt (canon_claimHbs h)))

theorem canon_takeover {b epoch cause} (h : Canon s) : Canon (s.takeover b epoch cause) :=
  canon_cut (fun h3 => canon_cut (fun h5 => canon_ite (canon_holdAll h5) h5) (canon_ite (canon_trigger (canon_raise
    h3)) (canon_raise h3))) (canon_ingestDrop (canon_authTake (canon_wr (canon_wr (canon_put (canon_inc
    (canon_setClaim (canon_copiesDrop (canon_setBase h)))))))))

theorem canon_contestStart (h : Canon s) : Canon s.contestStart := canon_flag (canon_keep h)

theorem canon_contestLook (h : Canon s) : Canon s.contestLook := canon_ite (canon_respFlush (canon_flag h)) h

theorem canon_execContestTimeout {t} (h : Canon s) : CanonNext (execContestTimeout t s) :=
  canon_run canon_contestLook h

theorem canon_pairingStart (h : Canon s) : Canon s.pairingStart :=
  canon_helloStart (canon_servoHold (canon_copiesDrop (canon_keep (canon_put (canon_setBase h)))))

theorem canon_lossAct (h : Canon s) : Canon s.lossAct := by
  unfold State.lossAct
  split
  · exact canon_ite (canon_contestStart (canon_takeover h)) (canon_servoHold h)
  · exact canon_holdAll (canon_claimHbs (canon_contestStart (canon_setClaim (canon_setBase h))))
  · exact canon_pairingStart h
  · exact h

theorem canon_missedAdd {at_} (h : Canon s) : Canon (s.missedAdd at_) := canon_add h

theorem canon_execPartnerLost {t} (h : Canon s) : CanonNext (execPartnerLost t s) :=
  canon_run (fun h1 => canon_ite (canon_cut (fun h4 => canon_lossAct (canon_ite (canon_copiesDrop (canon_put h4)) h4))
    (canon_switchAbandon (canon_raise (canon_partnerShow (canon_flag (canon_keep (canon_add h1))))))) h1) h

theorem canon_standDown (h : Canon s) : Canon s.standDown :=
  canon_helloStart (canon_copiesDrop (canon_switchAbandon (canon_xfersCut (canon_dcpDiscard (canon_keep (canon_flag
    (canon_setClaim (canon_put (canon_flag (canon_setBase h))))))))))

theorem canon_backOff (h : Canon s) : Canon s.backOff := canon_ite (canon_raise (canon_standDown h)) (canon_keep h)

theorem canon_claimCompare {claim} (h : Canon s) : Canon (s.claimCompare claim) := canon_ite (canon_keep h) h

theorem canon_joinStart (h : Canon s) : Canon s.joinStart :=
  canon_ite (canon_keep h) (canon_raise (canon_servoStart (canon_put (canon_heldBack (canon_copiesDrop (canon_flag
    (canon_wr (canon_keep (canon_keep (canon_ite (canon_xfersCut (canon_dcpDiscard (canon_flag (canon_setBase h))))
    h))))))))))

theorem canon_pairActive (h : Canon s) : Canon s.pairActive := by
  apply canon_cut
  · intro h3
    exact canon_ite h3 (canon_respFlush h3)
  · refine canon_holdAll (canon_partnerShow ?_)
    split
    · exact canon_servoStop (canon_claimHbs (canon_setClaim (canon_keep (canon_setBase (canon_keep h)))))
    · exact canon_authTake (canon_setClaim (canon_setBase (canon_flag (canon_keep h))))
    · exact canon_setBase (canon_firstClaim (canon_keep h))
    · exact canon_keep h

theorem canon_pairDecide {hd} (h : Canon s) : Canon (s.pairDecide hd) := by
  refine canon_ite (canon_ite (canon_keep h) (canon_safeEnter (canon_raise (canon_keep (canon_keep h))))) ?_
  dsimp only
  split
  · exact canon_ite (canon_ite (canon_joinStart (canon_keep (canon_keep h))) (canon_ite (canon_keep (canon_keep
        h)) (canon_pairActive (canon_keep (canon_keep h))))) (canon_ite (canon_joinStart (canon_keep (canon_keep h)))
        (canon_keep (canon_keep h)))
  · exact canon_ite (canon_keep (canon_keep h)) (canon_ite (canon_joinStart (canon_keep (canon_keep h)))
        (canon_ite (canon_ite (canon_raise (canon_keep (canon_keep h))) (canon_ite (canon_ite (canon_joinStart
        (canon_keep (canon_keep h))) (canon_keep (canon_keep h))) (canon_ite (canon_pairActive (canon_keep (canon_keep
        h))) (canon_ite (canon_joinStart (canon_keep (canon_keep h))) (canon_keep (canon_keep h)))))) (canon_keep
        (canon_keep h))))
  · exact canon_ite (canon_pairActive (canon_keep (canon_keep h))) (canon_keep (canon_keep h))
  · exact canon_ite (canon_pairActive (canon_keep (canon_keep h))) (canon_ite (canon_ite (canon_pairActive
        (canon_keep (canon_keep h))) (canon_joinStart (canon_keep (canon_keep h)))) (canon_keep (canon_keep h)))
  · exact canon_keep (canon_keep h)

theorem canon_execHello {t a hd} (h : Canon s) : CanonNext (execHello t a hd s) :=
  canon_run (fun h1 => canon_frameIn h1 (fun h2 => canon_cut (fun h3 => canon_ite (canon_pairDecide (canon_keep h3))
    (canon_keep h3)) (canon_helloOut (canon_claimSeen h2)))) h

theorem canon_execPairTimeout {t} (h : Canon s) : CanonNext (execPairTimeout t s) :=
  canon_run (fun h1 => canon_ite (canon_holdAll (canon_raise (canon_wr (canon_setBase (canon_servoStop (canon_keep
    h1)))))) h1) h

theorem canon_encFollow {w} (h : Canon s) : Canon (s.encFollow w) :=
  canon_cut (fun h2 => canon_cut (fun h3 => canon_cut (fun h4 => canon_ite (canon_posLost h4) (canon_flag h4))
    (canon_ite (canon_modEnc h3) h3)) (canon_ite (canon_raise (canon_inc h2)) h2)) (canon_flag (canon_flag (canon_ite
    (canon_webShow (canon_dirUpdate (canon_pSet (canon_keep h)))) h)))

theorem canon_unsentFollow {w} (h : Canon s) : Canon (s.unsentFollow w) := by
  refine canon_ite h (canon_each h (fun h1 => ?_))
  dsimp only
  split
  · exact canon_wastePair (canon_keep h1)
  · exact canon_keep h1

theorem canon_unsentPrune (h : Canon s) : Canon s.unsentPrune := canon_keep h

theorem canon_itemTake {w} (h : Canon s) : Canon (s.itemTake w) := by
  unfold State.itemTake
  split
  · exact canon_each h canon_wdTrip
  · exact canon_ite (canon_ovsFollow h) h
  · exact canon_ite (canon_encFollow h) h
  · exact canon_unsentFollow h
  · exact h

theorem canon_thetaTake {hd rx} (h : Canon s) : Canon (s.thetaTake hd rx) := by
  refine canon_ite h ?_
  split
  · exact h
  · exact canon_keep h

theorem canon_yieldTake {role cause again} (h : Canon s) : Canon (s.yieldTake role cause again) :=
  canon_ite (canon_ite (canon_respFlush (canon_holdAll (canon_raise (canon_setBase (canon_keep h))))) (canon_ite
    (canon_raise h) h)) (canon_ite (canon_takeover (canon_keep h)) h)

theorem canon_partnerTake {hd rx} (h : Canon s) : Canon (s.partnerTake hd rx) :=
  canon_cut (fun h4 => canon_cut (fun h5 => canon_cut (fun h6 => canon_ite (canon_raise h6) h6) (canon_ite
    (canon_followerGone h5) h5)) (canon_ite (canon_holdAll h4) h4)) (canon_partnerShow (canon_put (canon_flag
    (canon_inc (canon_keep (canon_missedAdd h))))))

theorem canon_youTake {f} (h : Canon s) : Canon (s.youTake f) :=
  canon_cut (fun h1 => canon_ite (canon_goStale h1) h1) (canon_ite (canon_ite (canon_standDown h) (canon_goStale h))
    h)

theorem canon_execEcnalHb {t ago a hd} (h : Canon s) : CanonNext (execEcnalHb t ago a hd s) :=
  canon_run (fun h1 => canon_frameIn h1 (fun h2 => canon_cut (fun h4 => canon_cut (fun h5 => canon_ite (canon_each h5
    canon_itemTake) h5) (canon_ite (canon_yieldTake h4) h4)) (canon_youTake (canon_claimCompare (canon_thetaTake
    (canon_partnerTake (canon_claimSeen h2))))))) h

theorem canon_execRefInputBad {t input} (h : Canon s) : CanonNext (execRefInputBad t input s) :=
  canon_run (fun h1 => canon_ite (canon_standDown (canon_yieldStart (canon_refBad h1))) (canon_refBad h1)) h

theorem canon_digestsSend (h : Canon s) : Canon s.digestsSend := canon_ite (canon_each (canon_keep h) canon_relSend) h

theorem canon_execDigestFrame {t hd items} (h : Canon s) : CanonNext (execDigestFrame t hd items s) :=
  canon_run (fun h1 => canon_relIn h1 (fun h2 => canon_each h2 canon_digestIn)) h

theorem canon_copyAcked {tick} (h : Canon s) : Canon (s.copyAcked tick) :=
  canon_ite (canon_cut (fun h1 => canon_ite h1 (canon_respFlush h1)) (canon_put (canon_keep h))) h

theorem canon_execEcnalAck {t a k} (h : Canon s) : CanonNext (execEcnalAck t a k s) :=
  canon_run (fun h1 => canon_frameIn h1 (fun h2 => canon_copyAcked (canon_wr (canon_wr (canon_wr (canon_relAck
    (canon_claimSeen h2))))))) h

theorem canon_switchCommit (h : Canon s) : Canon s.switchCommit.2 :=
  canon_ite_snd (canon_pair_snd (canon_copy (canon_flag (canon_keep h)))) (canon_pair_snd h)

theorem canon_switchOld (h : Canon s) : Canon s.switchOld :=
  canon_raise (canon_heldDiscard (canon_put (canon_keep (canon_claimHbs (canon_setClaim (canon_setBase h))))))

theorem canon_execSwitchHandover {t} (h : Canon s) : CanonNext (execSwitchHandover t s) := by
  refine canon_run (fun h1 => ?_) h
  split
  · exact h1
  · exact canon_ite h1 (canon_ite (canon_cut (fun h2 => canon_ite (canon_switchOld h2) (canon_raise
        (canon_takeover (canon_keep h2)))) (canon_flag (canon_keep h1))) (canon_switchAbandon h1))

theorem canon_leave (h : Canon s) : Canon s.leave.2 :=
  canon_ite_snd (canon_pair_snd h) (canon_cut (fun h4 => canon_pair_snd (canon_ite h4 (canon_each h4
    canon_laneDisable))) (canon_each (canon_autoArm (canon_copiesDrop (canon_put (canon_setBase (canon_keep
    (canon_yieldStart h)))))) canon_laneDisable))

theorem canon_clrDemote (h : Canon s) : Canon s.clrDemote :=
  canon_cut (fun h1 => canon_ite (canon_helloStart (canon_servoHold (canon_flag (canon_ite (canon_claimHbs
    (canon_setClaim h1)) h1)))) h1) (canon_flag (canon_flag (canon_flag h)))

theorem canon_actPr {a mask val _before} (k1 : Canon s) : Canon (actPr a mask val _before s).2 :=
  canon_ite_snd (canon_cut (fun h1 => canon_ite_snd (canon_leave h1) (canon_ite_snd (canon_switchCommit h1)
    (canon_pair_snd h1))) (canon_ite (canon_clrDemote k1) k1)) (canon_pair_snd k1)

/-! Machine/Garnet.lean -/

theorem canon_garnetFail {ch} (h : Canon s) : Canon (s.garnetFail ch) :=
  canon_cut (fun h1 => canon_ite (canon_copiesDrop (canon_switchAbandon (canon_xfersCut (canon_dcpDiscard (canon_flag
    (canon_keep (canon_put (canon_setClaim (canon_flag (canon_setBase (canon_yieldStart h1))))))))))) (canon_ite
    (canon_safeSet h1) (canon_ite (canon_copiesDrop (canon_setClaim (canon_flag h1))) h1))) (canon_raise (canon_inc
    (canon_flag h)))

theorem canon_focusOn {ch fromMm} (h : Canon s) : Canon (s.focusOn ch fromMm) :=
  canon_ite (canon_ite (canon_inc h) h) (canon_ite (canon_keep h) (canon_ite h (canon_keep h)))

theorem canon_focusOff {ch} (h : Canon s) : Canon (s.focusOff ch) := by
  unfold State.focusOff
  dsimp only
  split
  · exact canon_keep h
  · exact canon_keep (canon_keep h)

theorem canon_miscompare {ch seq} (h : Canon s) : Canon (s.miscompare ch seq) := by
  apply canon_cut
  · intro h1
    unfold State.miscompare
    dsimp only
    split
    · exact canon_focusOn (canon_raise h1)
    · exact canon_ite (canon_keep (canon_ite (canon_inc (canon_raise h1)) (canon_raise h1))) (canon_garnetFail
          (canon_focusOff (canon_raise h1)))
  · exact canon_put (canon_put (canon_inc h))

theorem canon_execGarnetCheck {t ch seq pchk} (h : Canon s) : CanonNext (execGarnetCheck t ch seq pchk s) := by
  refine canon_run (fun h1 => ?_) h
  split
  · exact h1
  · exact canon_ite h1 (canon_ite (canon_keep (canon_inc h1)) (canon_miscompare (canon_keep (canon_inc h1))))

theorem canon_unattributed {ch} (h : Canon s) : Canon (s.unattributed ch) :=
  canon_cut (fun h1 => canon_ite (canon_garnetFail (canon_keep h1)) (canon_keep h1)) (canon_raise (canon_inc h))

theorem canon_execGarnetFocusEnd {t ch} (h : Canon s) : CanonNext (execGarnetFocusEnd t ch s) := by
  refine canon_run (fun h1 => ?_) h
  split
  · exact h1
  · exact canon_ite (canon_unattributed (canon_focusOff h1)) (canon_focusOff h1)

theorem canon_statClaim {l claim} (h : Canon s) : Canon (s.statClaim l claim) :=
  canon_ite (canon_contestLook (canon_keep (canon_claimCompare (canon_keep h)))) (canon_claimCompare (canon_keep h))

theorem canon_execStatReceived {t l r} (h : Canon s) : CanonNext (execStatReceived t l r s) :=
  canon_run (fun h1 => canon_ite (canon_cut (fun h3 => canon_statClaim (canon_ite (canon_focusOn h3) h3)) (canon_ite
    (canon_wdTrip (canon_statCopy h1)) (canon_statCopy h1))) h1) h

theorem canon_execIdrsReceived {t l r} (h : Canon s) : CanonNext (execIdrsReceived t l r s) :=
  canon_run (fun h1 => canon_ite (canon_ite (canon_idrsTake h1) (canon_headReset (canon_idrsTake h1))) h1) h

/-! Machine/Recorder.lean -/

theorem canon_recArm (h : Canon s) : Canon s.recArm.2 :=
  canon_ite_snd (canon_pair_snd h) (canon_ite_snd (canon_pair_snd h) (canon_ite_snd (canon_pair_snd h) (canon_pair_snd
    (canon_recStart h))))

theorem canon_recFreeze (h : Canon s) : Canon s.recFreeze := canon_ite (canon_raise (canon_ringSync (canon_put h))) h

theorem canon_recCtrl {w} (h : Canon s) : Canon (s.recCtrl w).2 :=
  canon_cut (fun h1 => canon_ite_snd h1 (canon_cut (fun h2 => canon_pair_snd (canon_ite (canon_recFreeze h2) h2))
    (canon_ite (canon_trigger h1) h1))) (canon_ite_snd (canon_recArm h) (canon_pair_snd h))

theorem canon_postDone (h : Canon s) : Canon s.postDone := canon_ite (canon_recFreeze h) h

theorem canon_execRecPostDone {t} (h : Canon s) : CanonNext (execRecPostDone t s) := canon_run canon_postDone h

theorem canon_replayEnter (h : Canon s) : Canon s.replayEnter.2 :=
  canon_ite_snd (canon_pair_snd (canon_ringSync (canon_put (canon_flag (canon_put h))))) (canon_pair_snd h)

/-! Machine/Acts.lean -/

theorem canon_printRateShow (h : Canon s) : Canon s.printRateShow := canon_flag h

theorem canon_gateShow {before} (h : Canon s) : Canon (s.gateShow before) := canon_each h canon_raise

theorem canon_railBegin {before a} (h : Canon s) : Canon (s.railBegin before a) := by
  unfold State.railBegin
  split
  · exact canon_ite (canon_keep h) (canon_ite (canon_flag (canon_put h)) h)
  · exact h

theorem canon_sleepStart (h : Canon s) : Canon s.sleepStart := canon_each (canon_keep h) canon_laneDisable

theorem canon_actHp {a mask val _before} (k1 : Canon s) : Canon (actHp a mask val _before s).2 :=
  canon_ite_snd (canon_pair_snd (canon_ite (canon_rxPop k1) k1)) (canon_ite_snd (canon_ite_snd (canon_ptpSend k1)
    (canon_pair_snd k1)) (canon_pair_snd k1))

theorem canon_actReg {before a mask val} (h : Canon s) : Canon (s.actReg before a mask val).2 := by
  unfold State.actReg
  split
  · exact canon_pair_snd (canon_ite (canon_sleepStart h) h)
  · exact canon_pair_snd (canon_ite (canon_gateShow h) (canon_railBegin h))
  · exact canon_actTb h
  · exact canon_actWp h
  · exact canon_actPg h
  · exact canon_actCs h
  · exact canon_actSc h
  · exact canon_actBy h
  · exact canon_actFs h
  · exact canon_ite_snd (canon_actLane h) (canon_actJl (canon_actLane h))
  · exact canon_ite_snd (canon_actLane h) (canon_actPr (canon_actLane h))
  · exact canon_actHp h
  · exact canon_pair_snd (canon_ite (canon_printRateShow h) h)
  · exact canon_ite_snd (canon_recCtrl h) (canon_pair_snd h)
  · exact canon_pair_snd h

/-! Machine/Power.lean -/

theorem canon_storeAppend {w} (h : Canon s) : Canon (s.storeAppend w) :=
  canon_cut (fun h1 => canon_ite (canon_flag h1) (canon_flag (canon_put (canon_each h1 canon_wr)))) (canon_ite
    (canon_flag h) h)

theorem canon_shutAppend {supply} (h : Canon s) : Canon (s.shutAppend supply) := by
  unfold State.shutAppend
  split
  · exact h
  · exact canon_storeAppend (canon_keep h)

theorem canon_shutLate (h : Canon s) : Canon s.shutLate := by
  unfold State.shutLate
  split
  · exact canon_ite (canon_shutAppend h) h
  · exact h

theorem canon_coreDown {core b} (h : Canon s) : Canon (s.coreDown core b) :=
  have late := canon_shutLate h
  canon_put (canon_of (swf_skeep _ _ late.words) rfl rfl late.flash)

theorem canon_pwrEnFall {b} (h : Canon s) : Canon (s.pwrEnFall b) := canon_keep (canon_coreDown h)

theorem canon_shutStart {code} (h : Canon s) : Canon (s.shutStart code) :=
  canon_ite h (canon_copiesDrop (canon_put (canon_setBase (canon_xfersCut (canon_keep (canon_yieldStart (canon_keep
    h)))))))

theorem canon_execShutdownPwrEnFall {t} (h : Canon s) : CanonNext (execShutdownPwrEnFall t s) := by
  unfold execShutdownPwrEnFall
  dsimp only
  split
  · exact canon_next (canon_ite (canon_pwrEnFall (canon_shutAppend (canon_advance h))) (canon_advance h))
  · exact canon_next (canon_advance h)

theorem canon_execFatal {t} (h : Canon s) : CanonNext (execFatal t s) := canon_run canon_shutStart h

theorem canon_vddPut {mv} (h : Canon s) : Canon (s.vddPut mv) := canon_keep (canon_put h)

theorem canon_readingTake {d} (h : Canon s) : Canon (s.readingTake d) := canon_keep h

theorem canon_tempPut {v} (h : Canon s) : Canon (s.tempPut v) := canon_sput h

theorem canon_diodeSee {d} (h : Canon s) : Canon (s.diodeSee d) := by
  apply canon_cut
  · intro h3
    exact canon_ite (canon_tempPut (canon_sput h3)) (canon_sput h3)
  · refine canon_ite ?_ (canon_ite (canon_raise (canon_flag (canon_flag (canon_keep (canon_keep (canon_sput
        (canon_keep h))))))) (canon_ite (canon_tempPut (canon_readingTake (canon_keep (canon_sput (canon_keep h)))))
        (canon_keep (canon_sput (canon_keep h)))))
    dsimp only
    split
    · exact canon_ite (canon_tempPut (canon_readingTake (canon_raise (canon_flag (canon_flag (canon_keep
          (canon_keep (canon_sput (canon_keep h))))))))) (canon_keep (canon_sput (canon_keep h)))
    · exact canon_keep (canon_sput (canon_keep h))

theorem canon_refreshShow (h : Canon s) : Canon s.refreshShow := canon_keep h

theorem canon_trimsFollow (h : Canon s) : Canon s.trimsFollow := canon_keep h

theorem canon_trimsCompute (h : Canon s) : Canon s.trimsCompute := canon_sput (canon_keep h)

theorem canon_tBandPut {b} (h : Canon s) : Canon (s.tBandPut b) :=
  canon_trimsCompute (canon_refreshShow (canon_raise (canon_keep (canon_put h))))

theorem canon_bandLook (h : Canon s) : Canon s.bandLook := by
  unfold State.bandLook
  dsimp only
  split
  · exact canon_ite (canon_keep h) (canon_tBandPut h)
  · exact canon_ite h (canon_ite (canon_tBandPut h) (canon_ite (canon_tBandPut h) h))

theorem canon_trimsLook (h : Canon s) : Canon s.trimsLook := canon_ite (canon_trimsCompute h) h

theorem canon_stepPut {n} (h : Canon s) : Canon (s.stepPut n) :=
  canon_cut (fun h3 => canon_ite (canon_thermalShow (canon_flag h3)) h3) (canon_raise (canon_inc (canon_put
    (canon_gapRecord (canon_keep (canon_put h))))))

theorem canon_stepRise (h : Canon s) : Canon s.stepRise :=
  canon_cut (fun h1 => canon_ite (canon_raise (canon_thermalShow (canon_flag (canon_keep h1)))) (canon_keep h1))
    (canon_ite (canon_stepPut h) (canon_keep h))

theorem canon_throttleSee (h : Canon s) : Canon s.throttleSee :=
  canon_ite (canon_stepRise (canon_keep h)) (canon_keep h)

theorem canon_throttle (h : Canon s) : Canon s.throttle := by
  refine canon_ite (canon_ite (canon_stepRise h) h) ?_
  dsimp only
  split
  · exact canon_ite (canon_stepPut (canon_keep h)) (canon_keep h)
  · exact canon_keep h

theorem canon_execThrottleEval {t} (h : Canon s) : CanonNext (execThrottleEval t s) :=
  canon_run (fun h1 => canon_ite (canon_throttle h1) h1) h

theorem canon_tempRecord (h : Canon s) : Canon s.tempRecord := canon_ite (canon_record (canon_keep h)) h

theorem canon_execTempSample {t diode vdd} (h : Canon s) : CanonNext (execTempSample t diode vdd s) :=
  canon_run (fun h1 => canon_ite (canon_cut (fun h2 => canon_ite (canon_shutStart h2) h2) (canon_tempRecord
    (canon_throttleSee (canon_trimsLook (canon_bandLook (canon_trimsFollow (canon_diodeSee (canon_vddPut h1))))))))
    h1) h

theorem canon_execDramMr4Poll {t rate} (h : Canon s) : CanonNext (execDramMr4Poll t rate s) :=
  canon_run (fun h1 => canon_ite (canon_refreshShow (canon_keep h1)) h1) h

theorem canon_railRead {n a} (h : Canon s) : Canon (s.railRead n a) := by
  refine canon_ite h ?_
  dsimp only
  split
  · exact canon_flag (canon_put (canon_keep (canon_emit h)))
  · exact canon_ite (canon_raise (canon_flag (canon_put (canon_emit h)))) (canon_emit h)

theorem canon_railsRead {answers} (h : Canon s) : Canon (s.railsRead answers) := canon_each h canon_railRead

theorem canon_execPmbusPoll {t answers} (h : Canon s) : CanonNext (execPmbusPoll t answers s) :=
  canon_run (fun h1 => canon_ite (canon_railsRead h1) h1) h

theorem canon_execPmbAlert {t answers} (h : Canon s) : CanonNext (execPmbAlert t answers s) :=
  canon_run (fun h1 => canon_ite (canon_railsRead h1) h1) h

theorem canon_execSupplyDip {t mv} (h : Canon s) : CanonNext (execSupplyDip t mv s) :=
  canon_run (fun h1 => canon_ite (canon_raise (canon_inc (canon_flag (canon_vddPut (canon_keep h1))))) h1) h

theorem canon_execSupplyRecovered {t mv} (h : Canon s) : CanonNext (execSupplyRecovered t mv s) :=
  canon_run (fun h1 => canon_ite (canon_raise (canon_flag (canon_gapRecord (canon_vddPut (canon_keep h1))))) h1) h

theorem canon_execSupplyReset {t mv} (h : Canon s) : CanonNext (execSupplyReset t mv s) :=
  canon_run (fun h1 => canon_ite (canon_keep (canon_coreDown (canon_ite (canon_shutAppend (canon_shutLate h1))
    (canon_storeAppend h1)))) h1) h

/-! Machine/Join.lean -/

theorem canon_regFollow {r a v} (h : Canon s) : Canon (s.regFollow r a v) := by
  apply canon_cut
  · intro h3
    unfold State.regFollow
    dsimp only
    split
    · exact canon_ite (canon_armTake h3) h3
    · split
      · exact canon_regClampSee (canon_holdOld h3)
      · exact canon_actReg h3
  · exact canon_ite (canon_wr h) (canon_wrSh (canon_wr h))

theorem canon_writeFollow {a v} (h : Canon s) : Canon (s.writeFollow a v) := by
  refine canon_ite ?_ (canon_cut (fun h1 => canon_ite (canon_ite (canon_jobApply h1) h1) (canon_ite (canon_ite
      (canon_surfApply h1) h1) (canon_ite (canon_ite (canon_portApply h1) h1) h1))) (canon_wr (canon_recFollow h)))
  split
  · exact h
  · exact canon_ite h (canon_ite (canon_gapFollow (canon_wr h)) (canon_ite (canon_ite (canon_tickTake h) h)
        (canon_regFollow h)))

theorem canon_floorRaise {m c} (h : Canon s) : Canon (s.floorRaise m c) := canon_ite (canon_wr (canon_wr h)) h

theorem canon_entryFollow {e} (h : Canon s) : Canon (s.entryFollow e) := by
  unfold State.entryFollow
  dsimp only
  split
  · exact canon_writeFollow h
  · exact canon_floorRaise h
  · exact canon_admTake h
  · exact canon_pageFollow h
  · exact canon_stripsFollow h
  · exact canon_bandChange h
  · exact canon_waste h
  · exact canon_flag (canon_keep h)
  · exact canon_stripMapFollow h
  · exact canon_encoStart h
  · exact h

theorem canon_timeFollow (h : Canon s) : Canon s.timeFollow := by
  refine canon_timeCommit ?_
  split
  · exact h
  · exact canon_keep (canon_setRate h)

theorem canon_recordCopy {tick es} (h : Canon s) : Canon (s.recordCopy tick es) := canon_record h

theorem canon_entriesApply {es} (h : Canon s) : Canon (s.entriesApply es) :=
  canon_batchEnd (canon_timeFollow (canon_keep (canon_each (canon_each (canon_batchBegin (canon_keep h))
    canon_entryFollow) canon_entryFollow)))

theorem canon_copyApply {c} (h : Canon s) : Canon (s.copyApply c) :=
  canon_recordCopy (canon_inc (canon_keep (canon_entriesApply h)))

theorem canon_copiesRun {k} (h : Canon s) : Canon (s.copiesRun k) := by
  induction k generalizing s with
  | zero => exact h
  | succ k ih =>
    unfold State.copiesRun
    split
    · exact canon_ite (ih (canon_copyApply (canon_keep h))) h
    · exact h

theorem canon_tsTake {tick part parts es} (h : Canon s) : Canon (s.tsTake tick part parts es) :=
  canon_ite h (canon_ite (canon_ite (canon_raise (canon_copiesDrop (canon_keep h))) (canon_keep h)) (canon_copiesRun
    (canon_keep h)))

theorem canon_execTsFrame {t hd tick part parts entries} (h : Canon s) : CanonNext (execTsFrame t hd tick
    part parts entries s) :=
  canon_run (fun h1 => canon_relIn h1 canon_tsTake) h

theorem canon_copyEnd (h : Canon s) : Canon s.copyEnd :=
  canon_ite (canon_digestsSend h) (canon_cut (fun h3 => canon_ite (canon_keep (canon_inc (canon_each
    (canon_digestsSend (canon_each h3 canon_relSend)) canon_relPut))) (canon_digestsSend h3)) (canon_recordCopy
    (canon_keep (canon_berylDeltas h))))

theorem canon_winsTake {wins vals} (h : Canon s) : Canon (s.winsTake wins vals) :=
  canon_each (canon_of (swf_skeep _ _ h.words) h.shadow h.mem h.flash) canon_wr

theorem canon_regsTake {live shadow} (h : Canon s) : Canon (s.regsTake live shadow) := by
  apply canon_cut
  · intro h2
    exact canon_each (canon_spdShow (canon_calmShow (canon_flag (canon_ite (canon_safeSet h2) (canon_flag
        h2))))) canon_modBar
  · refine canon_each (canon_each h (fun h1 => ?_)) canon_wrSh
    split
    · exact canon_wr h1
    · exact h1

theorem canon_queueTake {jobs surfs runs next gap wins} (h : Canon s) : Canon (s.queueTake jobs surfs runs
    next gap wins) :=
  canon_gapFlag (canon_keep (canon_keep (canon_winsTake h)))

theorem canon_anchorTake {ch job line seq bands} (h : Canon s) : Canon (s.anchorTake ch job line seq bands) :=
  canon_keep (canon_put (canon_put h))

theorem canon_objApply {o} (h : Canon s) : Canon (s.objApply o) := by
  unfold State.objApply
  split
  · exact canon_regsTake h
  · exact canon_queueTake h
  · exact canon_winsTake h
  · exact canon_winsTake h
  · exact canon_winsTake h
  · exact canon_put (canon_each (canon_put (canon_modBar h)) canon_wr)
  · exact canon_anchorTake h
  · exact h
  · exact canon_each (canon_put (canon_keep h)) canon_floorRaise
  · exact h
  · exact h

theorem canon_motionPut {m p} (h : Canon s) : Canon (s.motionPut m p) :=
  canon_cut (fun h2 => canon_estTake (canon_webShow (canon_ite (canon_posLost (canon_modEnc h2)) (canon_flag
    (canon_modEnc h2))))) (canon_put (canon_flag (canon_flag (canon_keep h))))

theorem canon_motionTake {m} (h : Canon s) : Canon (s.motionTake m) := by
  unfold State.motionTake
  split
  · exact h
  · exact canon_put (canon_keep (canon_motionPut h))

theorem canon_snapshotApply (h : Canon s) : Canon s.snapshotApply := by
  apply canon_cut
  · intro h3
    unfold State.snapshotApply
    dsimp only
    split
    · exact canon_motionTake h3
    · exact h3
  · exact canon_put (canon_copiesRun (canon_keep (canon_put (canon_each h canon_objApply))))

theorem canon_resyncTake {tick o} (h : Canon s) : Canon (s.resyncTake tick o) := by
  refine canon_ite h (canon_ite ?_ ?_)
  · split
    · exact canon_ite h (canon_motionTake h)
    · exact h
  · apply canon_cut
    · intro h1
      dsimp only
      split
      · exact canon_ite (canon_snapshotApply (canon_keep (canon_keep h1))) (canon_keep h1)
      · exact canon_keep h1
    · exact canon_ite h (canon_keep h)

theorem canon_execResyncFrame {t hd tick obj} (h : Canon s) : CanonNext (execResyncFrame t hd tick obj s) :=
  canon_run (fun h1 => canon_relIn h1 canon_resyncTake) h

theorem canon_joinDone (h : Canon s) : Canon s.joinDone :=
  canon_raise (canon_raise (canon_claimHbs (canon_setClaim (canon_keep (canon_put (canon_flag (canon_setBase h)))))))

theorem canon_joinTick (h : Canon s) : Canon s.joinTick :=
  canon_ite h (canon_cut (fun h1 => canon_ite (canon_joinDone h1) h1) (canon_ite (canon_put h) h))

theorem canon_digestsQueue (h : Canon s) : Canon s.digestsQueue := canon_keep h

theorem canon_objSend {t0 index o} (h : Canon s) : Canon (s.objSend t0 index o) := canon_each h canon_relSend

theorem canon_joinServe (h : Canon s) : Canon s.joinServe := by
  refine canon_ite h ?_
  split
  · exact canon_ite (canon_each (canon_keep h) canon_objSend) h
  · exact canon_ite (canon_ite (canon_raise (canon_keep h)) h) (canon_objSend (canon_ite h (canon_digestsQueue
        h)))

/-! Machine/Replay.lean -/

theorem canon_snapshotWrite (h : Canon s) : Canon s.snapshotWrite := by
  refine canon_each (canon_each h canon_record) (fun h2 => ?_)
  split
  · exact canon_each h2 canon_record
  · exact h2

theorem canon_snapshotTick (h : Canon s) : Canon s.snapshotTick := by
  unfold State.snapshotTick
  split
  · exact h
  · exact canon_ite (canon_keep (canon_snapshotWrite h)) h

theorem canon_execSnapshot {t} (h : Canon s) : CanonNext (execSnapshot t s) := canon_run canon_snapshotTick h

theorem canon_atTime {at_} {f : State → State} (h : Canon s) (hf : ∀ {y}, Canon y
    → Canon (f y)) : Canon (s.atTime at_ f) :=
  canon_keep (hf (canon_keep h))

/-- Running a replay answers the state as it was or one in canonical form. -/
theorem replayRun_of_canon {P : Nat × State → Prop} (hp : ∀ {a y}, Canon y → P (a, y)) (h : Canon s) :
    P s.replayRun := by
  have ite_of {c : Prop} {i : Decidable c} {x y : Nat × State} (hx : P x) (hy : P y) : P (if c then x else y) := by
    split <;> assumption
  refine ite_of (hp h) ?_
  extract_lets -underBinder from_ snap
  split
  · refine ite_of (hp h) (ite_of (hp h)
      (hp (canon_keep (canon_put (canon_each (canon_keep (canon_each h canon_objApply)) fun h => ?_)))))
    split
    · exact canon_motionPut h
    · exact h
  · exact hp h

theorem canon_replayRun (h : Canon s) : Canon s.replayRun.2 :=
  replayRun_of_canon (P := fun r => Canon r.2) (fun h => h) h

theorem canon_binApply {e} (h : Canon s) : Canon (s.binApply e) :=
  canon_each h (fun h1 => canon_ite h1 (canon_atTime h1 canon_edgeTake))

theorem canon_latchApply {e} (h : Canon s) : Canon (s.latchApply e) :=
  canon_cut (fun h1 => canon_ite (canon_ite (canon_inc h1) (canon_inc (canon_modProbe h1))) (canon_inc h1))
    (canon_modProbe (canon_flag h))

theorem canon_scriptApply {e} (h : Canon s) : Canon (s.scriptApply e) := by
  unfold State.scriptApply
  split
  · exact canon_binApply h
  · exact canon_atTime h canon_latchApply
  · exact canon_atTime h canon_entriesApply
  · exact canon_atTime h canon_itemTake
  · exact canon_digestIn h
  · exact canon_keep h
  · exact h

theorem canon_replayEnd (h : Canon s) : Canon s.replayEnd := canon_raise (canon_keep (canon_put (canon_addSat h)))

theorem canon_digCompare {e} (h : Canon s) : ∀ y ∈ s.digCompare e, Canon y := by
  intro y hy
  simp only [State.digCompare] at hy
  have counted {f n g m} {a : Recorder} : Canon ((({ s with agate := a }).addSat f n).addSat g m) :=
    canon_addSat (canon_addSat (canon_keep h))
  split at hy
  · split at hy
    · rw [← Option.some.inj hy]
      exact canon_addSat (canon_keep h)
    · rw [← Option.some.inj hy]
      exact canon_cut (fun raised => canon_ite (canon_replayEnd raised) raised)
        (canon_raise (canon_ite (canon_put counted) counted))
  · split at hy
    · rw [← Option.some.inj hy]
      exact canon_addSat h
    · nomatch hy

theorem canon_scriptRun {k} (h : Canon s) : Canon (State.scriptRun k s) := by
  induction k generalizing s with
  | zero => exact h
  | succ k ih =>
    unfold State.scriptRun
    refine canon_ite h ?_
    split
    · exact canon_replayEnd h
    · refine canon_ite h (canon_ite ?_ (ih (canon_scriptApply (canon_keep h))))
      split
      · next compared => exact ih (canon_digCompare (canon_keep h) _ compared)
      · exact h

theorem canon_virtualHold (h : Canon s) : Canon s.virtualHold := by
  unfold State.virtualHold
  split
  · exact canon_ite (canon_keep h) h
  · exact h

theorem canon_replayStep (h : Canon s) : Canon s.replayStep := canon_ite (canon_scriptRun (canon_virtualHold h)) h

theorem canon_execLineComposeStart {t b} (h : Canon s) : CanonNext (execLineComposeStart t b s) :=
  canon_run (fun h1 => canon_composeNext (canon_replayStep h1)) h

theorem canon_execEstimateUpdate {t} (h : Canon s) : CanonNext (execEstimateUpdate t s) :=
  canon_run (fun h1 => canon_estimateUpdate (canon_replayStep h1)) h

/-! Machine/Writes.lean -/

theorem canon_itemPut {x} (h : Canon s) : Canon (s.itemPut x) := by
  refine canon_ite ?_ (canon_wr h)
  split
  · exact h
  · exact canon_keep (canon_ite (canon_wr h) (canon_wrSh (canon_wr h)))

theorem canon_itemAct {before x} (h : Canon s) : Canon (s.itemAct before x).2 :=
  canon_ite_snd (canon_pair_snd h) (canon_ite_snd (canon_actGl h) (canon_ite_snd (canon_cut (fun h1 => canon_ite_snd
    h1 (canon_ite_snd (canon_replayRun h1) h1)) (canon_ite_snd (canon_replayEnter h) (canon_pair_snd h)))
    (canon_actReg h)))

theorem canon_itemApply {crit x} (h : Canon s) : Canon (s.itemApply crit x).2.2 := by
  unfold State.itemApply
  split
  · exact canon_pair_snd_snd h
  · exact canon_ite_snd_snd (canon_pair_snd_snd h) (canon_pair_snd_snd (canon_itemAct (canon_ite (canon_copy
        (canon_itemPut h)) (canon_itemPut h))))

theorem canon_refusedItem {pre x st} (h : Canon s) : Canon (s.refusedItem pre x st) := by
  refine canon_ite (canon_cmtRefused h) ?_
  split
  · exact canon_ite (canon_armRefused h) h
  · exact h

theorem canon_itemsRun {orig : State} {crit l} (h : Canon s) (k : Canon orig) :
    Canon (s.itemsRun orig crit l).2 := by
  induction l generalizing s with
  | nil => exact h
  | cons x l ih => exact canon_ite_snd (ih (canon_itemApply h)) (canon_refusedItem k)

theorem canon_writeGo {crit items} (h : Canon s) : Canon (s.writeGo crit items).2 := by
  apply canon_cut
  · intro h1
    refine canon_ite_snd h1 ?_
    split
    · exact canon_pair_snd h
    · exact h1
  · exact canon_itemsRun h h

/-! Machine/Boot.lean -/

theorem canon_coreReset (h : Canon s) : Canon s.coreReset := canon_ite (canon_coreDown h) h

theorem canon_execPwrGoodFall {t} (h : Canon s) : CanonNext (execPwrGoodFall t s) :=
  canon_next (canon_keep (canon_coreReset (canon_advance h)))

theorem canon_execTestEnHigh {t} (h : Canon s) : CanonNext (execTestEnHigh t s) :=
  canon_next (canon_keep (canon_coreReset (canon_advance h)))

theorem canon_execResetNLow {t} (h : Canon s) : CanonNext (execResetNLow t s) :=
  canon_next (canon_keep (canon_coreReset (canon_advance h)))

theorem canon_execVaoRemove {t} (h : Canon s) : CanonNext (execVaoRemove t s) :=
  have down := canon_coreDown (canon_advance h)
  canon_next (canon_keep (canon_put (canon_of (swf_skeep _ _ down.words) down.shadow down.mem down.flash)))

theorem canon_execVaoApply {t} (h : Canon s) : CanonNext (execVaoApply t s) :=
  canon_ite_out (canon_next (canon_advance h)) (canon_next (canon_keep (canon_advance h)))

theorem canon_execWake {t} (h : Canon s) : CanonNext (execWake t s) :=
  canon_ite_out (canon_next (canon_keep (canon_advance h))) (canon_next (canon_advance h))

theorem canon_execSleepPwrEnFall {t} (h : Canon s) : CanonNext (execSleepPwrEnFall t s) := by
  refine canon_run (fun h1 => ?_) h
  split
  · exact canon_ite (canon_pwrEnFall (canon_inc h1)) h1
  · exact h1

theorem canon_execResetRelease {t pairEn unitId mode nonce} (h : Canon s) : CanonNext (execResetRelease t
    pairEn unitId mode nonce s) :=
  canon_ite_out (canon_next (canon_advance h)) (canon_cut (fun h6 => canon_next (canon_settle (canon_ite (canon_raise
    (canon_put h6)) (canon_put h6)))) (canon_flag (canon_flag (canon_flag (canon_flag (canon_flag (canon_wr (canon_wr
    (canon_keep (canon_coreDown (canon_advance h)))))))))))

theorem canon_execTapInstruction {t i} (h : Canon s) : CanonNext (execTapInstruction t i s) := by
  refine canon_next (canon_keep ?_)
  split
  · exact canon_emit (canon_advance h)
  · exact canon_keep (canon_emit (canon_advance h))
  · exact canon_keep (canon_emit (canon_advance h))
  · exact canon_advance h
  · exact canon_advance h
  · exact canon_advance h

theorem canon_recRefused {a} (h : Canon s) : Canon (s.recRefused a) := canon_raise (canon_addSat h)

theorem canon_imgReg {a v} (h : Canon s) : Canon (s.imgReg a v) := by
  unfold State.imgReg
  split
  · exact canon_recRefused h
  · refine canon_ite h ?_
    dsimp only
    split
    · exact canon_raise (canon_recRefused h)
    · exact canon_wr (canon_itemPut (canon_ite h (canon_recRefused h)))

theorem canon_imgWin {l} (h : Canon s) : Canon (s.imgWin l) := canon_ite (canon_recRefused h) (canon_each h canon_wr)

theorem canon_imgRecord {r} (h : Canon s) : Canon (s.imgRecord r) := by
  unfold State.imgRecord
  split
  · exact canon_each h canon_imgReg
  · exact canon_imgWin h
  · exact canon_each h canon_wr
  · exact h

theorem canon_imgJoint {before} (h : Canon s) : Canon (s.imgJoint before) :=
  canon_each (canon_ite h (canon_recRefused (canon_wr (canon_wr h)))) (fun h2 => canon_ite h2 (canon_recRefused
    (canon_each h2 canon_wr)))

theorem canon_imgFollow {before} (h : Canon s) : Canon (s.imgFollow before) :=
  canon_cut (fun h1 => canon_cut (fun h2 => canon_ite (canon_spdShow (canon_flag h2)) h2) (canon_ite (canon_safeSet
    h1) h1)) (canon_encoOrigin (canon_setRate h))

theorem canon_otpRead {faults} (h : Canon s) : Canon (s.otpRead faults) := canon_wr (canon_wr (canon_put h))

theorem canon_lockPut {a v} (h : Canon s) : Canon (s.lockPut a v) := canon_keep (canon_wr h)

theorem canon_macFill {lo hi mac} (h : Canon s) : Canon (s.macFill lo hi mac) :=
  canon_ite (canon_lockPut (canon_lockPut h)) (canon_lockPut (canon_lockPut h))

theorem canon_macsFill (h : Canon s) : Canon s.macsFill := canon_macFill (canon_macFill h)

theorem canon_serviceBoot (h : Canon s) : Canon s.serviceBoot :=
  canon_put (canon_flag (canon_lockPut (canon_lockPut (canon_macsFill h))))

theorem canon_imageBoot {k l} (h : Canon s) : Canon (s.imageBoot k l) :=
  canon_raise (canon_macsFill (canon_imgFollow (canon_imgJoint (canon_each (canon_wr (canon_wr (canon_put h)))
    canon_imgRecord))))

theorem canon_bootImage {b} (h : Canon s) : Canon (s.bootImage b) := by
  refine canon_ite (canon_put (canon_flag (canon_serviceBoot h))) ?_
  apply canon_cut
  · intro h1
    apply canon_cut
    · intro h2
      apply canon_cut
      · intro h3
        dsimp only
        split
        · exact canon_imageBoot h3
        · exact canon_raise (canon_flag (canon_serviceBoot h3))
      · exact canon_ite (canon_raise h2) h2
    · exact canon_ite (canon_raise h1) h1
  · exact canon_put (canon_put h)

theorem canon_regionsLay (h : Canon s) : Canon s.regionsLay :=
  canon_wr (canon_each (canon_each h canon_put) canon_lockPut)

theorem canon_diodeTrim {b} (h : Canon s) : Canon (s.diodeTrim b) :=
  canon_cut (fun h4 => canon_ite (canon_tempPut h4) (canon_tempPut (canon_raise (canon_flag (canon_flag (canon_flag
    h4)))))) (canon_sput (canon_sput (canon_keep (canon_ite h (canon_raise (canon_flag (canon_flag h)))))))

theorem canon_trimRun {b} (h : Canon s) : Canon (s.trimRun b) := by
  unfold State.trimRun
  extract_lets -underBinder v s1 fails s2 s3 s4 s5 pwr s6 pwr2 s7
  have delay : Canon s1 := canon_ite h (canon_flag (canon_flag h))
  have lanes : Canon s2 := canon_each delay fun h => canon_raise (canon_flag (canon_setBitOf h))
  have failed : Canon s3 := canon_put lanes
  have trained : Canon s4 := canon_ite (canon_flag (canon_put failed)) (canon_raise (canon_flag (canon_flag failed)))
  have rate : Canon s5 := canon_printRateShow trained
  have cleared : Canon s7 := canon_of rate.words rate.shadow (swf_nil _) rate.flash
  exact canon_sput (canon_sput (canon_wr (canon_wr (canon_inc (canon_flag cleared)))))

theorem canon_storeReport (h : Canon s) : Canon s.storeReport :=
  canon_cut (fun h1 => canon_ite (canon_raise (canon_flag (canon_keep h1))) (canon_keep h1)) (canon_each h
    canon_raise)

theorem canon_configuredEnter {b} (h : Canon s) : Canon (s.configuredEnter b) :=
  canon_cut (fun h2 => canon_cut (fun h5 => canon_ite h5 (canon_ite (canon_pairingStart h5) (canon_setClaim
    (canon_setBase (canon_keep h5))))) (canon_each (canon_autoArm (canon_ite (canon_safeSet (canon_flag h2)) h2))
    canon_laneDetect)) (canon_storeReport (canon_raise (canon_setBase h)))

theorem canon_bootRun {b} (h : Canon s) : Canon (s.bootRun b) :=
  canon_cut (fun h1 => canon_ite (canon_pwrEnFall (canon_inc (canon_storeAppend (canon_diodeTrim h1))))
    (canon_configuredEnter (canon_regionsLay (canon_trimRun (canon_keep (canon_diodeTrim h1)))))) (canon_setBase
    (canon_bootImage (canon_otpRead h)))

theorem canon_execConfiguredEntry {t b} (h : Canon s) : CanonNext (execConfiguredEntry t b s) :=
  canon_run (fun h1 => canon_ite (canon_bootRun h1) h1) h

/-! Machine/View.lean -/

theorem canon_readWords {body} (h : Canon s) : Canon (s.readWords body).2 := by
  unfold State.readWords
  dsimp only
  split <;> exact canon_pair_snd (canon_curShow h)

theorem canon_eventRead {body} (h : Canon s) : Canon (s.eventRead body).2 := by
  unfold State.eventRead
  dsimp only
  split
  · exact canon_pair_snd h
  · exact canon_ite_snd (canon_pair_snd h) (canon_pair_snd (canon_ite (canon_keep h) h))

/-! Machine/Keys.lean -/

theorem canon_keyProgram {body r} (h : Canon s) : Canon (s.keyProgram body r).2 :=
  canon_ite_snd (canon_pair_snd h) (canon_ite_snd (canon_pair_snd h) (canon_pair_snd (canon_keep h)))

theorem canon_keyRevoke {body r} (h : Canon s) : Canon (s.keyRevoke body r).2 :=
  canon_ite_snd (canon_pair_snd h) (canon_ite_snd (canon_pair_snd h) (canon_pair_snd (canon_keep h)))

theorem canon_keyDone {ok} (h : Canon s) : Canon (s.keyDone ok) := by
  unfold State.keyDone
  split
  · exact h
  · exact canon_ite (canon_respond (canon_keep h)) (canon_respond (canon_raise (canon_put (canon_keep
        (canon_keep h)))))

theorem canon_execKeyOpDone {t ok} (h : Canon s) : CanonNext (execKeyOpDone t ok s) := canon_run canon_keyDone h

theorem canon_masterSet {body} (h : Canon s) : Canon (s.masterSet body).2 := by
  unfold State.masterSet
  dsimp only
  split
  · exact canon_pair_snd h
  · exact canon_ite_snd (canon_pair_snd h) (canon_pair_snd (canon_raise (canon_wrCopy h)))

theorem canon_tableLoad {body} (h : Canon s) : Canon (s.tableLoad body).2 := by
  unfold State.tableLoad
  split
  · exact canon_pair_snd h
  · dsimp only
    split
    · exact canon_pair_snd h
    · exact canon_pair_snd (canon_keep (canon_each h canon_wr))

theorem canon_flashErase {a n} (h : Canon s) : Canon (s.flashErase a n) :=
  canon_of h.words h.shadow h.mem (swf_skeep _ _ h.flash)

theorem canon_flashWrite {a bs} (h : Canon s) : Canon (s.flashWrite a bs) :=
  canon_of h.words h.shadow h.mem (swf_sputs _ _ _ h.flash)

theorem canon_imageWrite {body} (h : Canon s) : Canon (s.imageWrite body).2 := by
  refine canon_ite_snd (canon_pair_snd h) (canon_ite_snd (canon_pair_snd h) ?_)
  dsimp only
  split
  · exact canon_pair_snd h
  · exact canon_pair_snd (canon_put (canon_put (canon_flag (canon_flashErase (canon_keep h)))))

theorem canon_imgOpen {o} (h : Canon s) : Canon (s.imgOpen o) :=
  canon_flag (canon_put (canon_flag (canon_put (canon_put (canon_put (canon_put (canon_flashErase h)))))))

theorem canon_imgRelease {o modeEn} (h : Canon s) : Canon (s.imgRelease o modeEn) :=
  canon_put (canon_inc (canon_flashWrite (canon_keep h)))

theorem canon_imgVerify {r} (h : Canon s) : Canon (s.imgVerify r) := by
  unfold State.imgVerify
  split
  · exact h
  · refine canon_ite h ?_
    apply canon_cut
    · intro h1
      refine canon_encShow ?_
      split
      · exact canon_imgRelease h1
      · exact canon_imgRelease (canon_encDiffers h1)
      · exact canon_keep (canon_encFails (canon_encDiffers h1))
    · exact canon_ite (canon_imgOpen h) h

theorem canon_execEncoderVerify {t n o} (h : Canon s) : CanonNext (execEncoderVerify t n o s) :=
  canon_run (fun h1 => canon_ite h1 (canon_ite (canon_imgVerify h1) (canon_verifyEnd h1))) h

theorem canon_imgHeader {o} (h : Canon s) : Canon (s.imgHeader o) := canon_flashWrite h

theorem canon_imageDone {r} (h : Canon s) : Canon (s.imageDone r) := by
  unfold State.imageDone
  split
  · exact h
  · refine canon_ite h (canon_raise (canon_encShow (canon_put (canon_put (canon_put (canon_flag ?_))))))
    split
    · exact canon_ite (canon_flashErase (canon_keep h)) (canon_imgHeader (canon_keep h))
    · exact canon_keep h

theorem canon_execImageWriteDone {t r} (h : Canon s) : CanonNext (execImageWriteDone t r s) :=
  canon_run canon_imageDone h

/-! Machine/Host.lean -/

theorem canon_reply {op hd a} (h : Canon s) : Canon (s.reply op hd a) := canon_respond h

theorem canon_authFail {op hd} (h : Canon s) : Canon (s.authFail op hd) :=
  canon_cut (fun h2 => canon_ite (canon_reply (canon_keep h2)) h2) (canon_ite (canon_raise (canon_keep (canon_inc h)))
    (canon_inc h))

theorem canon_consume {hd} (h : Canon s) : Canon (s.consume hd) :=
  canon_copy (canon_floorRaise (canon_ite (canon_keep h) h))

theorem canon_accept {hd signed} (h : Canon s) : Canon (s.accept hd signed) :=
  canon_ite (canon_keep (canon_inc h)) (canon_inc h)

theorem canon_localGo {op body} (h : Canon s) : Canon (s.localGo op body).2 := by
  unfold State.localGo
  split
  · exact canon_pair_snd h
  · exact canon_readWords h
  · exact canon_writeGo h
  · exact canon_eventRead h
  · exact canon_sessionOpen h
  · exact canon_sessionClose h
  · exact canon_windowOpen h
  · exact canon_windowClose h
  · exact canon_imageWrite h
  · exact canon_pair_snd h

theorem canon_hold {op hd body} (h : Canon s) : Canon (s.hold op hd body) := canon_keep h

theorem canon_keyGo {op hd body} (h : Canon s) : Canon (s.keyGo op hd body) := by
  apply canon_cut
  · intro h1
    unfold State.keyGo
    dsimp only
    split
    · exact canon_reply h1
    · exact h1
  · exact canon_ite_snd (canon_keyProgram h) (canon_keyRevoke h)

theorem canon_perform {op hd body signed} (h : Canon s) : Canon (s.perform op hd body signed) :=
  canon_ite (canon_hold (canon_accept h)) (canon_ite (canon_keyGo (canon_accept h)) (canon_ite (canon_reply h)
    (canon_reply (canon_localGo (canon_accept h)))))

theorem canon_judged {op hd body} (h : Canon s) : Canon (s.judged op hd body) := by
  refine canon_ite (canon_reply h) ?_
  split
  · exact canon_reply h
  · split
    · exact canon_reply h
    · exact canon_ite (canon_reply h) (canon_perform h)

theorem canon_signedIn {op hd body} (h : Canon s) : Canon (s.signedIn op hd body) :=
  canon_ite (canon_authFail h) (canon_ite (canon_authFail h) (canon_ite (canon_reply (canon_inc h)) (canon_judged
    (canon_consume h))))

theorem canon_checked {op hd body} (h : Canon s) : Canon (s.checked op hd body) := by
  refine canon_ite (canon_inc h) (canon_ite ?_ (canon_signedIn h))
  split
  · exact canon_reply h
  · exact canon_perform h

theorem canon_request {op hd body} (h : Canon s) : Canon (s.request op hd body) :=
  canon_ite h (canon_ite (canon_inc h) (canon_ite (canon_inc h) (canon_ite (canon_checked h) h)))

theorem canon_execIdentify {t hd body} (h : Canon s) : CanonNext (execIdentify t hd body s) :=
  canon_run canon_request h

theorem canon_execRead {t hd body} (h : Canon s) : CanonNext (execRead t hd body s) := canon_run canon_request h

theorem canon_execWrite {t hd body} (h : Canon s) : CanonNext (execWrite t hd body s) := canon_run canon_request h

theorem canon_execEventRead {t hd body} (h : Canon s) : CanonNext (execEventRead t hd body s) :=
  canon_run canon_request h

theorem canon_execSessionOpen {t hd body} (h : Canon s) : CanonNext (execSessionOpen t hd body s) :=
  canon_run canon_request h

theorem canon_execSessionClose {t hd body} (h : Canon s) : CanonNext (execSessionClose t hd body s) :=
  canon_run canon_request h

theorem canon_execWindowOpen {t hd body} (h : Canon s) : CanonNext (execWindowOpen t hd body s) :=
  canon_run canon_request h

theorem canon_execWindowClose {t hd body} (h : Canon s) : CanonNext (execWindowClose t hd body s) :=
  canon_run canon_request h

theorem canon_execSurfaceDefine {t hd body} (h : Canon s) : CanonNext (execSurfaceDefine t hd body s) :=
  canon_run canon_request h

theorem canon_execSurfaceRelease {t hd body} (h : Canon s) : CanonNext (execSurfaceRelease t hd body s) :=
  canon_run canon_request h

theorem canon_execPageDefine {t hd body} (h : Canon s) : CanonNext (execPageDefine t hd body s) :=
  canon_run canon_request h

theorem canon_execPageClose {t hd body} (h : Canon s) : CanonNext (execPageClose t hd body s) :=
  canon_run canon_request h

theorem canon_execJobDefine {t hd body} (h : Canon s) : CanonNext (execJobDefine t hd body s) :=
  canon_run canon_request h

theorem canon_execJobStart {t hd body} (h : Canon s) : CanonNext (execJobStart t hd body s) :=
  canon_run canon_request h

theorem canon_execJobClose {t hd body} (h : Canon s) : CanonNext (execJobClose t hd body s) :=
  canon_run canon_request h

theorem canon_execJobCancel {t hd body} (h : Canon s) : CanonNext (execJobCancel t hd body s) :=
  canon_run canon_request h

theorem canon_execTableLoad {t hd body} (h : Canon s) : CanonNext (execTableLoad t hd body s) :=
  canon_run canon_request h

theorem canon_execImageWrite {t hd body} (h : Canon s) : CanonNext (execImageWrite t hd body s) :=
  canon_run canon_request h

theorem canon_execKeyProgram {t hd body} (h : Canon s) : CanonNext (execKeyProgram t hd body s) :=
  canon_run canon_request h

theorem canon_execKeyRevoke {t hd body} (h : Canon s) : CanonNext (execKeyRevoke t hd body s) :=
  canon_run canon_request h

theorem canon_execMasterSet {t hd body} (h : Canon s) : CanonNext (execMasterSet t hd body s) :=
  canon_run canon_request h

theorem canon_execUnknownOpcode {t op hd body} (h : Canon s) : CanonNext (execUnknownOpcode t op hd body s) :=
  canon_run (fun h1 => canon_ite h1 (canon_request h1)) h

theorem canon_execArpRequest {t port src target} (h : Canon s) : CanonNext (execArpRequest t port src target s)
    :=
  canon_run (fun h1 => canon_ite (canon_emit h1) h1) h

theorem canon_execNeighborSolicitation {t port src target} (h : Canon s) : CanonNext (execNeighborSolicitation t
    port src target s) :=
  canon_run (fun h1 => canon_ite (canon_emit h1) h1) h

theorem canon_execEchoRequest {t port src target v6} (h : Canon s) : CanonNext (execEchoRequest t port src
    target v6 s) :=
  canon_run (fun h1 => canon_ite (canon_emit h1) h1) h

theorem canon_mpDrop {k} (h : Canon s) : Canon (s.mpDrop k) := by
  refine canon_ite h (canon_ite (canon_inc h) ?_)
  split <;> exact canon_inc h

theorem canon_execMpFrameDropped {t k} (h : Canon s) : CanonNext (execMpFrameDropped t k s) :=
  canon_run canon_mpDrop h

/-! Machine/Reqs.lean -/

theorem canon_writeReq {hd pre post mine} (h : Canon s) : Canon (s.writeReq hd pre post mine) := canon_request h

theorem canon_execGapCommit {t hd pre post} (h : Canon s) : CanonNext (execGapCommit t hd pre post s) :=
  canon_run canon_writeReq h

theorem canon_execTickCommit {t hd pre post} (h : Canon s) : CanonNext (execTickCommit t hd pre post s) :=
  canon_run canon_writeReq h

theorem canon_execArm {t hd pre post b mask value} (h : Canon s) : CanonNext (execArm t hd pre post b mask
    value s) :=
  canon_run (fun h1 => canon_ite (canon_writeReq h1) h1) h

theorem canon_execSwap {t hd pre post} (h : Canon s) : CanonNext (execSwap t hd pre post s) :=
  canon_run canon_writeReq h

theorem canon_execRestore {t hd pre post} (h : Canon s) : CanonNext (execRestore t hd pre post s) :=
  canon_run canon_writeReq h

theorem canon_execEncCfgWrite {t hd pre post mask value} (h : Canon s) : CanonNext (execEncCfgWrite t hd pre
    post mask value s) :=
  canon_run canon_writeReq h

theorem canon_execTbIncrWrite {t hd pre post incr} (h : Canon s) : CanonNext (execTbIncrWrite t hd pre post
    incr s) :=
  canon_run canon_writeReq h

theorem canon_execTbOfsAdj {t hd pre post adj} (h : Canon s) : CanonNext (execTbOfsAdj t hd pre post adj s) :=
  canon_run canon_writeReq h

theorem canon_execLaneCfgWrite {t hd pre post l mask value} (h : Canon s) : CanonNext (execLaneCfgWrite t
    hd pre post l mask value s) :=
  canon_run (fun h1 => canon_ite (canon_writeReq h1) h1) h

theorem canon_execStrobeWrite {t hd pre post b mask value} (h : Canon s) : CanonNext (execStrobeWrite t hd
    pre post b mask value s) :=
  canon_run (fun h1 => canon_ite (canon_writeReq h1) h1) h

theorem canon_execFsWdClr {t hd pre post bars} (h : Canon s) : CanonNext (execFsWdClr t hd pre post bars s) :=
  canon_run canon_writeReq h

theorem canon_execSafeInhibit {t hd pre post} (h : Canon s) : CanonNext (execSafeInhibit t hd pre post s) :=
  canon_run canon_writeReq h

theorem canon_execSafeClear {t hd pre post mask value} (h : Canon s) : CanonNext (execSafeClear t hd pre
    post mask value s) :=
  canon_run canon_writeReq h

theorem canon_execBarGate {t hd pre post mask value} (h : Canon s) : CanonNext (execBarGate t hd pre post
    mask value s) :=
  canon_run canon_writeReq h

theorem canon_execSwitch {t hd pre post} (h : Canon s) : CanonNext (execSwitch t hd pre post s) :=
  canon_run canon_writeReq h

theorem canon_execLeave {t hd pre post} (h : Canon s) : CanonNext (execLeave t hd pre post s) :=
  canon_run canon_writeReq h

theorem canon_execClrDemote {t hd pre post} (h : Canon s) : CanonNext (execClrDemote t hd pre post s) :=
  canon_run canon_writeReq h

theorem canon_execRevive {t hd pre post b} (h : Canon s) : CanonNext (execRevive t hd pre post b s) :=
  canon_run (fun h1 => canon_ite (canon_writeReq h1) h1) h

theorem canon_execResetEst {t hd pre post b} (h : Canon s) : CanonNext (execResetEst t hd pre post b s) :=
  canon_run (fun h1 => canon_ite (canon_writeReq h1) h1) h

theorem canon_execRegClr {t hd pre post} (h : Canon s) : CanonNext (execRegClr t hd pre post s) :=
  canon_run canon_writeReq h

theorem canon_execStripForce {t hd pre post bars} (h : Canon s) : CanonNext (execStripForce t hd pre post bars
    s) :=
  canon_run canon_writeReq h

theorem canon_execFlush {t hd pre post n} (h : Canon s) : CanonNext (execFlush t hd pre post n s) :=
  canon_run (fun h1 => canon_ite (canon_writeReq h1) h1) h

theorem canon_execLaneScanMap {t hd pre post l} (h : Canon s) : CanonNext (execLaneScanMap t hd pre post l s)
    :=
  canon_run (fun h1 => canon_ite (canon_writeReq h1) h1) h

theorem canon_execProbePop {t hd pre post n} (h : Canon s) : CanonNext (execProbePop t hd pre post n s) :=
  canon_run (fun h1 => canon_ite (canon_writeReq h1) h1) h

theorem canon_execPtpRxqPop {t hd pre post} (h : Canon s) : CanonNext (execPtpRxqPop t hd pre post s) :=
  canon_run canon_writeReq h

theorem canon_execPtpSend {t hd pre post mask value} (h : Canon s) : CanonNext (execPtpSend t hd pre post
    mask value s) :=
  canon_run canon_writeReq h

theorem canon_execRecArm {t hd pre post} (h : Canon s) : CanonNext (execRecArm t hd pre post s) :=
  canon_run canon_writeReq h

theorem canon_execRecTrigger {t hd pre post} (h : Canon s) : CanonNext (execRecTrigger t hd pre post s) :=
  canon_run canon_writeReq h

theorem canon_execRecFreeze {t hd pre post} (h : Canon s) : CanonNext (execRecFreeze t hd pre post s) :=
  canon_run canon_writeReq h

theorem canon_execReplayEnter {t hd pre post} (h : Canon s) : CanonNext (execReplayEnter t hd pre post s) :=
  canon_run canon_writeReq h

theorem canon_execReplayRun {t hd pre post mask value} (h : Canon s) : CanonNext (execReplayRun t hd pre
    post mask value s) :=
  canon_run canon_writeReq h

theorem canon_execSleep {t hd pre post} (h : Canon s) : CanonNext (execSleep t hd pre post s) :=
  canon_run canon_writeReq h

/-! Machine/Tick.lean -/

theorem canon_commitGo {op body} (h : Canon s) : Canon (s.commitGo op body).2 := by
  unfold State.commitGo
  split
  · exact canon_writeGo h
  · exact canon_surfaceDefine h
  · exact canon_surfaceRelease h
  · exact canon_pageDefine h
  · exact canon_pageClose h
  · exact canon_jobDefine h
  · exact canon_jobStart h
  · exact canon_jobClose h
  · exact canon_jobCancel h
  · exact canon_tableLoad h
  · exact canon_masterSet h
  · exact canon_pair_snd h

theorem canon_full {c : Commits} {tick hd} (h : Canon c.s) : Canon (Commits.full c tick hd).s := canon_inc h

theorem canon_one {tick} {c : Commits} {hd} (h : Canon c.s) : Canon (Commits.one tick c hd).s := by
  refine canon_ite_s (canon_full h) ?_
  dsimp only
  split
  · exact canon_raise (canon_inc h)
  · exact canon_ite_s (canon_full h) (canon_commitGo h)

theorem canon_commitAll {l} (h : Canon s) : Canon (s.commitAll l).s :=
  canon_ite_s (canon_foldl_s h canon_one) (canon_keep (canon_foldl_s (canon_keep h) canon_one))

theorem canon_commits (h : Canon s) : Canon s.commits.1 :=
  canon_ite_fst (canon_pair_fst (canon_heldDiscard h)) (canon_pair_fst (canon_commitAll (canon_keep h)))

theorem canon_respDecided {l} (h : Canon s) : Canon (s.respDecided l) :=
  canon_ite (canon_keep h) (canon_each h canon_respond)

theorem canon_accShow (h : Canon s) : Canon s.accShow := canon_wr (canon_keep h)

theorem canon_tapLinesPrune (h : Canon s) : Canon s.tapLinesPrune := canon_keep h

theorem canon_tickDecide (h : Canon s) : Canon s.tickDecide := by
  unfold State.tickDecide
  exact canon_cut (fun h1 => canon_cut (fun h5 => canon_ite (canon_freeReleased (canon_jobsEnd h5)) h5)
    (canon_each (canon_cyclesArm (canon_regSettle (canon_each (canon_ite (canon_stripsSettle (canon_readiness
      (canon_admitLater h1))) h1) canon_bandsTick))) fun h => canon_digSettle (canon_armSettle h)))
    (canon_each h canon_copy)

theorem canon_tickUpkeep (h : Canon s) : Canon s.tickUpkeep :=
  canon_proofsSettle (canon_dbtFlush (canon_tapLinesPrune (canon_unsentPrune (canon_runsPrune (canon_timedPrune
    (canon_tapsFree (canon_refRevert h)))))))

theorem canon_tickEnd (h : Canon s) : Canon s.tickEnd :=
  canon_cut (fun h3 => canon_postDone (canon_respDecided (canon_joinServe (canon_copyEnd (canon_snapshotTick
    (canon_joinTick (canon_servoTick (canon_elsyncSend (canon_tickUpkeep (canon_batchEnd (canon_tickDecide (canon_ite
    (canon_timeCommit h3) h3)))))))))))) (canon_commits (canon_batchBegin (canon_marksSkip (canon_contestLook
    (canon_accShow (canon_backOff (canon_linkWiden (canon_keep h))))))))

theorem canon_execTickEnd {t} (h : Canon s) : CanonNext (execTickEnd t s) :=
  canon_run (fun h1 => canon_ite (canon_tickEnd (canon_replayStep h1)) (canon_replayStep h1)) h

/-! Machine/Dispatch.lean -/

theorem canon_exec {i} (h : Canon s) : CanonNext (exec i s) := by
  unfold exec
  split
  · exact canon_execResetRelease h
  · exact canon_execConfiguredEntry h
  · exact canon_execVaoApply h
  · exact canon_execWake h
  · exact canon_execPwrGoodFall h
  · exact canon_execTestEnHigh h
  · exact canon_execSleep h
  · exact canon_execSleepPwrEnFall h
  · exact canon_execDcpOnDp h
  · exact canon_execIdentify h
  · exact canon_execRead h
  · exact canon_execWrite h
  · exact canon_execEventRead h
  · exact canon_execSessionOpen h
  · exact canon_execSessionClose h
  · exact canon_execWindowOpen h
  · exact canon_execWindowClose h
  · exact canon_execSurfaceDefine h
  · exact canon_execSurfaceRelease h
  · exact canon_execPageDefine h
  · exact canon_execPageClose h
  · exact canon_execJobDefine h
  · exact canon_execJobStart h
  · exact canon_execJobDrainDone h
  · exact canon_execJobClose h
  · exact canon_execJobCancel h
  · exact canon_execTableLoad h
  · exact canon_execImageWrite h
  · exact canon_execImageWriteDone h
  · exact canon_execKeyProgram h
  · exact canon_execKeyRevoke h
  · exact canon_execKeyOpDone h
  · exact canon_execMasterSet h
  · exact canon_execArpRequest h
  · exact canon_execNeighborSolicitation h
  · exact canon_execEchoRequest h
  · exact canon_execMpLinkDown h
  · exact canon_execMpLinkUp h
  · exact canon_execEventPush h
  · exact canon_execGapCommit h
  · exact canon_execTickCommit h
  · exact canon_execArm h
  · exact canon_execSwap h
  · exact canon_execRestore h
  · exact canon_execEncCfgWrite h
  · exact canon_execTbIncrWrite h
  · exact canon_execTbOfsAdj h
  · exact canon_execOfsSlewEnd h
  · exact canon_execLaneCfgWrite h
  · exact canon_execStrobeWrite h
  · exact canon_execFsWdClr h
  · exact canon_execSafeInhibit h
  · exact canon_execSafeClear h
  · exact canon_execBarGate h
  · exact canon_execSwitch h
  · exact canon_execSwitchHandover h
  · exact canon_execLeave h
  · exact canon_execClrDemote h
  · exact canon_execRevive h
  · exact canon_execResetEst h
  · exact canon_execRegClr h
  · exact canon_execStripForce h
  · exact canon_execFlush h
  · exact canon_execLaneScanMap h
  · exact canon_execEyeMapDone h
  · exact canon_execProbePop h
  · exact canon_execPtpRxqPop h
  · exact canon_execPtpSend h
  · exact canon_execPtpTxDone h
  · exact canon_execRecArm h
  · exact canon_execRecTrigger h
  · exact canon_execRecFreeze h
  · exact canon_execRecPostDone h
  · exact canon_execSnapshot h
  · exact canon_execReplayEnter h
  · exact canon_execReplayRun h
  · exact canon_execTickEnd h
  · exact canon_execGenerationFreed h
  · exact canon_execLineComposeStart h
  · exact canon_execBankCopyDone h
  · exact canon_execLineSend h
  · exact canon_execLineDeadline h
  · exact canon_execRetimeCycle h
  · exact canon_execGapStart h
  · exact canon_execLineMatch h
  · exact canon_execPageDone h
  · exact canon_execHdmHbSend h
  · exact canon_execTsyncSend h
  · exact canon_execControlResend h
  · exact canon_execEncEdge h
  · exact canon_execProbeEdge h
  · exact canon_execStandstill h
  · exact canon_execEstimateUpdate h
  · exact canon_execSpeedReqRelease h
  · exact canon_execEncoEdge h
  · exact canon_execRefInputBad h
  · exact canon_execRefInputGood h
  · exact canon_execRefDiffWindow h
  · exact canon_execBridgeFrame h
  · exact canon_execOrderedSet h
  · exact canon_execSignalDetect h
  · exact canon_execTrainTimeout h
  · exact canon_execBackoffExpiry h
  · exact canon_execAbsentTimeout h
  · exact canon_execLaneLost h
  · exact canon_execL1Entry h
  · exact canon_execL2Entry h
  · exact canon_execHdmIdleExit h
  · exact canon_execPwrExitTimeout h
  · exact canon_execEyeScan h
  · exact canon_execStatReceived h
  · exact canon_execStatLost h
  · exact canon_execTsyncReply h
  · exact canon_execIdrsReceived h
  · exact canon_execAckReceived h
  · exact canon_execRecordDiscard h
  · exact canon_execWatchdogTrip h
  · exact canon_execFireInhibit h
  · exact canon_execInhibitRelease h
  · exact canon_execCsiFrameStart h
  · exact canon_execCsiLine h
  · exact canon_execCsiFrameEnd h
  · exact canon_execPipeSwitch h
  · exact canon_execLineProcessed h
  · exact canon_execCamSilent h
  · exact canon_execProofResult h
  · exact canon_execObsMatch h
  · exact canon_execAccWindowTimeout h
  · exact canon_execColumnSolve h
  · exact canon_execApplyCycle h
  · exact canon_execConfDecay h
  · exact canon_execWhiteStale h
  · exact canon_execHello h
  · exact canon_execHelloSend h
  · exact canon_execEcnalHb h
  · exact canon_execEcnalHbSend h
  · exact canon_execTsFrame h
  · exact canon_execDigestFrame h
  · exact canon_execResyncFrame h
  · exact canon_execEcnalAck h
  · exact canon_execEcnalResend h
  · exact canon_execElsync h
  · exact canon_execPartnerLost h
  · exact canon_execCopyDeadline h
  · exact canon_execPairTimeout h
  · exact canon_execContestTimeout h
  · exact canon_execGarnetCheck h
  · exact canon_execGarnetFocusEnd h
  · exact canon_execTempSample h
  · exact canon_execShutdownPwrEnFall h
  · exact canon_execThrottleEval h
  · exact canon_execPmbusPoll h
  · exact canon_execPmbAlert h
  · exact canon_execSupplyDip h
  · exact canon_execSupplyRecovered h
  · exact canon_execSupplyReset h
  · exact canon_execFatal h
  · exact canon_execStoreUe h
  · exact canon_execStoreCe h
  · exact canon_execPatrolScrub h
  · exact canon_execDbtFragment h
  · exact canon_execDbtVerifyDone h
  · exact canon_execDbtTimeout h
  · exact canon_execRdreq h
  · exact canon_execDpLinkLoss h
  · exact canon_execStripFetch h
  · exact canon_execStripDecodeEnd h
  · exact canon_execEncoderVerify h
  · exact canon_execResetNLow h
  · exact canon_execVaoRemove h
  · exact canon_execTapInstruction h
  · exact canon_execMpFrameDropped h
  · exact canon_execUnknownOpcode h
  · exact canon_execEiAnswerTimeout h
  · exact canon_execEqualisationDone h
  · exact canon_execTs2Sent h
  · exact canon_execExitToL0Done h
  · exact canon_execDramMr4Poll h

end

/-! The operations of the words, and every step (O4). -/

theorem canonical_iff (s : State) : s.canonical = true ↔ Canon s := by
  simp only [State.canonical, Bool.and_eq_true]
  exact ⟨fun ⟨⟨⟨hw, hs⟩, hm⟩, hf⟩ => ⟨hw, hs, hm, hf⟩, fun h => ⟨⟨⟨h.words, h.shadow⟩, h.mem⟩, h.flash⟩⟩

theorem mem_of_mem_sdrop {β : Type} {a : Nat} {m : List (Nat × β)} {p : Nat × β} (h : p ∈ sdrop a m) : p ∈ m := by
  induction m with
  | nil => exact h
  | cons q m ih =>
    simp only [sdrop] at h
    split at h
    · exact List.mem_cons_of_mem _ (ih h)
    · rcases List.mem_cons.1 h with rfl | h
      · exact List.mem_cons_self
      · exact List.mem_cons_of_mem _ (ih h)

theorem mem_sins {β : Type} {a : Nat} {v : β} {m : List (Nat × β)} {p : Nat × β} (h : p ∈ sins a v m) :
    p = (a, v) ∨ p ∈ m := by
  induction m with
  | nil => simpa [sins] using h
  | cons q m ih =>
    simp only [sins] at h
    split at h
    · simpa using h
    · rcases List.mem_cons.1 h with rfl | h
      · exact .inr List.mem_cons_self
      · exact (ih h).imp id (List.mem_cons_of_mem _)

/-- A write lists no address but its own and those listed before. -/
theorem mem_sput {β : Type} [DecidableEq β] {d : Nat → β} {m : List (Nat × β)} {a : Nat} {v : β} {p : Nat × β}
    (h : p ∈ sput d m a v) : p.1 = a ∨ p ∈ m := by
  simp only [sput] at h
  split at h
  · exact .inr (mem_of_mem_sdrop h)
  · rcases mem_sins h with rfl | h
    · exact .inl rfl
    · exact .inr (mem_of_mem_sdrop h)

/-- A word written at an aligned address leaves every listed address aligned. -/
theorem aligned_wr {s : State} {a v : Nat} (ha : a % 4 = 0) (h : ∀ p ∈ s.words, p.1 % 4 = 0) :
    ∀ p ∈ (s.wr a v).words, p.1 % 4 = 0 := by
  intro p hp
  rcases mem_sput hp with rfl | hp
  · exact ha
  · exact h p hp

theorem canon_step {s : State} (h : Canon s) : CanonNext (step s) := by
  unfold step
  split
  · exact canon_next h
  · exact canon_exec (canon_keep h)

theorem canon_clrMem {s : State} {a n} (h : Canon s) : Canon (s.clrMem a n) :=
  canon_of h.words h.shadow (swf_skeep _ _ h.mem) h.flash

/-- Settles O4: each operation of the model keeps the four files canonical, and so does every command's meaning, which is
made of them. -/
theorem canonicalKept : Obligations.CanonicalKept := by
  unfold Obligations.CanonicalKept
  intro s hs
  have h := (canonical_iff s).1 hs
  simp only [canonical_iff]
  refine ⟨fun a v => ⟨canon_wr h, aligned_wr⟩, fun f v => canon_put h, fun a v => canon_wrSh h, fun a bs => canon_wrMem h,
    fun a n => canon_clrMem h, fun a n => canon_flashErase h, fun a bs => canon_flashWrite h,
    fun core b => canon_coreDown h, fun base size ws => canon_windowPut h, fun t => ⟨_, rfl, ?removed⟩, canon_step h⟩
  case removed => exact canon_execVaoRemove h _ rfl
end Sys2Proof.Proofs
end

section
open Sys2Proof Sys2Proof.Machine
namespace Sys2Proof.Proofs
/-! A request that every check lets through and that is performed at once, and SESSION_OPEN once every id is used (O32). -/

theorem freshFrom_of_all_used {used : List Nat} (h : ∀ v < 2 ^ 32, v ∈ used) (k v : Nat) : freshFrom used k v = v + k := by
  induction k generalizing v with
  | zero => rfl
  | succ k ih =>
    have hv : v % 2 ^ 32 ∈ used := h _ (Nat.mod_lt _ (by omega))
    have hc : used.contains (v % 2 ^ 32) = true := by simpa using hv
    rw [freshFrom, if_pos (.inr hc), ih]
    omega

/-- A running unit of an unpaired build with MP up, which has used some session ids. -/
def unitWithUsed (used : List Nat) : State :=
  { ((({ State.reset with core := .running, base := .single }).put HP_MP_STAT_LINK 1).wr HP_MP_IP4 5).put
      HP_KEY_STAT_STATE 1 with ingest := { Ingest.reset with usedIds := used } }

theorem unitWithUsed_ingest (used : List Nat) : (unitWithUsed used).ingest = { Ingest.reset with usedIds := used } := rfl

/-- That unit with each of the 2^32 session ids used. -/
def spent : State := unitWithUsed (List.range (2 ^ 32))

theorem spent_ingest : spent.ingest = { Ingest.reset with usedIds := List.range (2 ^ 32) } := by
  rw [spent, unitWithUsed_ingest]

/-- SESSION_OPEN of master 0 with counter 1, signed. -/
def openHdr : DcpHdr :=
  ⟨dcpWord0 0, 0, 0, 4, 0, 1, 0, spent.macOf 0 (dcpMsg (dcpWord0 0) 0x08 0 4 0 1 0 0 0 0 [0]), 0, false,
    spent.get HP_DCP_CFG_PORT⟩

theorem openHdr_norm : hdrNorm openHdr = openHdr := by decide +kernel

theorem macOf_advance (s : State) (t m : Nat) (b : List Byte) : (s.advance t).macOf m b = s.macOf m b := rfl

theorem openHdr_mac : spent.macOf openHdr.master (hdrMsg openHdr 0x08 [0]) = openHdr.mac := by
  simp only [openHdr, hdrMsg, Nat.zero_div, Nat.zero_mod]

theorem openHdr_passes : Passes (spent.advance 0) 0x08 openHdr [0] where
  link := by decide +kernel
  up := by decide +kernel
  takes := by decide +kernel
  size := by decide +kernel
  formed := by decide +kernel
  signed := by decide +kernel
  enabled := by decide +kernel
  key := by decide +kernel
  mac := (macOf_advance ..).trans openHdr_mac
  fresh := by decide +kernel
  known := by decide +kernel
  level := by decide +kernel
  limits := by decide +kernel


/-! What taking a request's counter, and counting it as accepted, leave as they are. -/

theorem consume_keeps {β : Type} (g : State → β) {h : DcpHdr} (hl : ∀ s v, g (s.wr (HP_MST_CTR_LO h.master) v) = g s)
    (hh : ∀ s v, g (s.wr (HP_MST_CTR_HI h.master) v) = g s)
    (hp : ∀ (s : State) e, g { s with pair := { s.pair with entries := e } } = g s) (s : State) :
    g (s.consume h) = g s := by
  simp only [State.consume, State.floorRaise, State.copy]
  split_ifs <;> simp only [hl, hh, hp]

theorem consume_ingest (s : State) (h : DcpHdr) : (s.consume h).ingest = s.ingest :=
  consume_keeps State.ingest (fun _ _ => rfl) (fun _ _ => rfl) (fun _ _ => rfl) s

theorem consume_out (s : State) (h : DcpHdr) : (s.consume h).out = s.out :=
  consume_keeps State.out (fun _ _ => rfl) (fun _ _ => rfl) (fun _ _ => rfl) s

theorem rd_consume (s : State) (h : DcpHdr) {a : Nat} (hl : a ≠ HP_MST_CTR_LO h.master) (hh : a ≠ HP_MST_CTR_HI h.master) :
    (s.consume h).rd a = s.rd a :=
  consume_keeps (fun s => s.rd a) (fun s v => rd_wr_ne s v hl) (fun s v => rd_wr_ne s v hh) (fun _ _ => rfl) s

theorem accept_ingest (s : State) (h : DcpHdr) (b : Bool) : (s.accept h b).ingest = s.ingest := by
  simp only [State.accept]; split <;> rfl

theorem accept_out (s : State) (h : DcpHdr) (b : Bool) : (s.accept h b).out = s.out := by
  simp only [State.accept]; split <;> rfl

theorem rd_accept (s : State) (h : DcpHdr) (b : Bool) {a : Nat} (ha : a ≠ HP_DCP_STAT) : (s.accept h b).rd a = s.rd a := by
  have counted : (s.inc HP_DCP_STAT_ACCEPTED).rd a = s.rd a := rd_put_ne _ _ _ ha
  simp only [State.accept]; split <;> exact counted

/-- A request that passes every check, of an opcode performed at once, has its effect after its counter is taken. -/
theorem checked_of_passes {s : State} {op : Nat} {h : DcpHdr} {body : List Nat} (p : Passes s op h body)
    (hc : isCritical op body = false) :
    s.checked op h body = (s.consume h).perform op h body true := by
  obtain ⟨⟨-, -, -, size, formed, signed, enabled, key, mac, fresh⟩, known, level, limits⟩ := p
  have auth : (s.consume h).get (HP_MST_CFG_AUTHORITY h.master) = s.get (HP_MST_CFG_AUTHORITY h.master) := by
    rw [State.get, State.get, rd_consume] <;> simp only [HP_MST_CFG, HP_MST_CTR_LO, HP_MST_CTR_HI] <;> omega
  rw [State.checked, if_neg (by simp [Nat.not_lt.2 size, formed]), signed, if_neg (by decide), State.signedIn]
  simp [State.judged, enabled, key, mac, Nat.not_le.2 fresh, List.contains_iff_mem.1 known, auth, level, limits, hc]

/-- What such a request sends where its answer is OK: that answer, under the master's key. -/
theorem perform_out {s y : State} {op : Nat} {h : DcpHdr} {body b : List Nat} (hc : isCritical op body = false)
    (h30 : op ≠ 0x30) (h31 : op ≠ 0x31) (hgo : (s.accept h true).localGo op body = (.okBody b, y))
    (hl : y.is HP_MP_STAT_LINK = true) :
    ∃ mac, (s.perform op h body true).out = y.out ++ [.dcp (answer op h (.okBody b)) mac] := by
  have hs : (Ans.okBody b).status ≠ stRange := by simp [Ans.okBody, stOk, stRange]
  simp only [State.perform, hc, Bool.false_eq_true, if_false, h30, h31, or_self, hgo, hs, false_and]
  exact ⟨_, by rw [State.reply, State.respond, if_pos hl, (rest_record _ _ _ _).out]; rfl⟩

/-- SESSION_OPEN of a unit whose ids are all used answers a number wider than a word. -/
theorem sessionOpen_all_used {s : State} (hn : s.ingest.sessions.length < 16) (hu : ∀ v < 2 ^ 32, v ∈ s.ingest.usedIds)
    (hl : 2 ^ 32 ≤ s.ingest.usedIds.length) (body : List Nat) :
    ∃ n y, s.sessionOpen body = (.okBody [n], y) ∧ 2 ^ 32 ≤ n ∧ y.out = s.out ∧ y.words = s.words := by
  refine ⟨_, { s with free := s.free + 1, ingest := _ }, by rw [State.sessionOpen, if_neg (Nat.not_le.2 hn)]; rfl, ?_, rfl, rfl⟩
  rw [freshFrom_of_all_used hu]
  omega

theorem sessionOpen_critical : isCritical 0x08 [0] = false := by decide

/-- Refutes O32: once every id has been used since reset, SESSION_OPEN's search for a fresh one runs past 2^32. -/
theorem not_sessionsAndWindows : ¬ Obligations.SessionsAndWindows := by
  unfold Obligations.SessionsAndWindows
  intro h
  obtain ⟨opens, -⟩ := h 0 0x08 openHdr openHdr [0] [0] spent rfl openHdr_passes
  have hr : rowRequest (.sessionOpen 0 openHdr [0]) = some (0, 0x08, openHdr, [0]) := by
    rw [rowRequest, request, openHdr_norm]; rfl
  obtain ⟨s', id, hs, -, answered, small, -⟩ := opens hr (by decide)
  obtain ⟨f, hf, hgo⟩ := exec_request (s := spent) hr
  rw [hf] at hs
  have p := openHdr_passes
  have out : s'.out = (f (spent.advance 0)).out := by
    rw [next_of_run rfl hs, (rest_whenRunning _).out]
  rw [hgo _ p.link p.up p.takes, checked_of_passes p sessionOpen_critical] at out
  generalize hz : ((spent.advance 0).consume openHdr).accept openHdr true = z at *
  have ingest : z.ingest = { Ingest.reset with usedIds := List.range (2 ^ 32) } := by
    rw [← hz, accept_ingest, consume_ingest, advance_ingest, spent_ingest]
  have sent : z.out = spent.out := by rw [← hz, accept_out, consume_out, advance_out]
  have link : z.is HP_MP_STAT_LINK = true := by
    rw [← hz, State.is, State.get, rd_accept _ _ _ (by decide), rd_consume _ _ (by decide) (by decide)]
    exact p.link
  obtain ⟨n, y, ho, hn, yout, ywords⟩ := sessionOpen_all_used (s := z) (by rw [ingest]; decide)
    (fun v hv => by rw [ingest]; simpa only [List.mem_range] using hv)
    (by rw [ingest, List.length_range]) [0]
  obtain ⟨mac, hm⟩ := perform_out sessionOpen_critical (by decide) (by decide)
    (s := (spent.advance 0).consume openHdr) (h := openHdr) (by rw [hz]; exact ho)
    (by rw [State.is, State.get, State.rd, ywords]; exact link)
  rw [hm, answered, yout, sent] at out
  have ids : [id] = [n] := congrArg Resp.body (Sent.dcp.inj (List.cons.inj (List.append_cancel_left out)).1).1
  exact absurd (List.cons.inj ids).1 (by omega)

end Sys2Proof.Proofs
end

section
open Sys2Proof Sys2Proof.Machine
namespace Sys2Proof.Proofs
/-! PAGE_CLOSE of a job that holds two pages of one number (O40). -/

/-- Page 0, admitted and not closed, and another page of that number whose references differ. -/
def firstPage : Page := ⟨0, List.replicate 8 noRef, .admitted, false, false, false⟩
def twinPage : Page := ⟨0, List.replicate 8 0, .admitted, false, false, false⟩

/-- A job of no given number of pages that holds both. -/
def twinJob : Job := ⟨0, 5, 0x100, 1, 0, false, false, false, [firstPage, twinPage], 0⟩

def twinState : State := { State.reset with scan := { Scan.reset with jobs := [twinJob] } }

theorem twinState_pageClose :
    (twinState.commitGo 0x13 [5, 0]).2.scan.jobs ≠ [twinJob.modPage 0 fun p => { p with closed := true }] := by
  decide +kernel

/-- Refutes O40: a page's record gives every page of its number the record's references, not only its own close. Where
the job holds two pages of one number, closing the first changes the references of the second. -/
theorem not_jobCommits : ¬ Obligations.JobCommits := by
  unfold Obligations.JobCommits
  rintro ⟨-, h⟩
  obtain ⟨-, -, -, -, -, admittedCloses, -⟩ := h twinState twinJob [5, 0] rfl (by decide) (by decide) (by decide)
    (by decide) (by decide) rfl rfl
  obtain ⟨s', hs, jobs, -⟩ := admittedCloses 0 firstPage rfl (by decide) rfl (.inl rfl) rfl rfl (by decide)
  have twin := twinState_pageClose
  rw [hs] at twin
  exact twin jobs

end Sys2Proof.Proofs
end

section
open Sys2Proof Sys2Proof.Machine
namespace Sys2Proof.Proofs
/-! Transfers verified, timed out, lost and read back (O25). -/

theorem quiet_refl (s : State) : Quiet s s := ⟨rfl, fun _ _ => rfl⟩

/-! What a strip's slot is set to changes the surfaces alone. -/

/-- The state with other surfaces. -/
def withSurfs (s : State) (l : List Surface) : State := { s with ingest := { s.ingest with surfs := l } }

theorem xferSlotBack_eq (s : State) (x : Xfer) : ∃ l, s.xferSlotBack x = withSurfs s l := by
  simp only [State.xferSlotBack]
  split
  · split
    · exact ⟨_, rfl⟩
    · exact ⟨s.ingest.surfs, rfl⟩
  · exact ⟨s.ingest.surfs, rfl⟩

theorem surf_of_slot_used {s : State} {id gen k : Nat} (h : (s.slotOf id gen k).state ≠ stEmpty) :
    ∃ f, s.surf id gen = some f := by
  cases hf : s.surf id gen with
  | some f => exact ⟨f, rfl⟩
  | none => exact absurd (by rw [State.slotOf, hf]; rfl) h

/-- A LOADING slot of an ended transfer's strip is EMPTY again. -/
theorem slotOf_xferSlotBack {s : State} {x : Xfer} {w : Window} (hw : s.window x.session x.window = some w)
    (hk : w.kind = .stripWrite) (hl : (s.slotOf w.surf w.gen x.obj).state = stLoading) :
    ((s.xferSlotBack x).slotOf w.surf w.gen x.obj).state = stEmpty := by
  obtain ⟨f, hf⟩ := surf_of_slot_used (s := s) (id := w.surf) (gen := w.gen) (k := x.obj) (by rw [hl]; decide)
  simp only [State.xferSlotBack, hw, hk, hl, beq_self_eq_true, Bool.and_self, if_true, slotOf_modSlot s _ _ _ _ hf]
  rfl

/-! A transfer's end with its answer. -/

/-- An answer's place in the unit's counters. -/
def countOf (reason : Nat) : Fld := if reason = 0 then HP_DBT_ACKS_COUNT else HP_DBT_NAKS_COUNT

/-- While C3 has tokens an answer leaves at once and is counted. -/
theorem xferAnswer_sent {s : State} {x : Xfer} {r : Nat} (hc : s.c3Shed = false) :
    s.xferAnswer x r = ((s.xferEnd x).emit (.dbt ⟨x.session, x.window, x.id, x.obj, x.fragCount, x.len, x.crc, r, x.src,
      x.port, x.ports⟩)).inc (countOf r) := by
  simp [State.xferAnswer, State.dbtReply, State.dbtSend, c3Shed_xferEnd, hc, countOf]

theorem xferEnd_only {s : State} {x : Xfer} (hx : s.ingest.xfers = [x]) : (s.xferEnd x).ingest.xfers = [] := by
  show s.ingest.xfers.filter _ = []
  rw [hx]
  simp

theorem get_inc_count (s : State) (r : Nat) : (s.inc (countOf r)).get (countOf r) = (s.get (countOf r) + 1) % 2 ^ 32 := by
  unfold countOf
  split <;> exact get_inc _ _ (by decide) (by decide)

theorem countOf_addr (r : Nat) : (countOf r).addr ∉ shown ∧ (countOf r).addr ≠ HP_DBT_INFLIGHT_XFERS.addr := by
  unfold countOf
  split <;> decide

/-- The one transfer in flight, answered: it is gone, its answer has left and is counted, and its slot is as it was. -/
theorem answers_only {s s' : State} {x : Xfer} {r : Nat} (hx : s.ingest.xfers = [x]) (hc : s.c3Shed = false)
    (R : Rest (s.xferAnswer x r) s') :
    s'.ingest.xfers = [] ∧
      s'.out = s.out ++ [.dbt ⟨x.session, x.window, x.id, x.obj, x.fragCount, x.len, x.crc, r, x.src, x.port, x.ports⟩] ∧
      s'.get (countOf r) = (s.get (countOf r) + 1) % 2 ^ 32 ∧
      ∀ id gen k, s'.slotOf id gen k = s.slotOf id gen k := by
  rw [xferAnswer_sent hc] at R
  obtain ⟨notShown, notInflight⟩ := countOf_addr r
  refine ⟨?_, R.out, ?_, fun id gen k => slotOf_congr ?_ id gen k⟩
  · rw [rest_ingest R]
    exact xferEnd_only hx
  · rw [R.get _ notShown, get_inc_count]
    have counted : ((s.xferEnd x).emit (.dbt ⟨x.session, x.window, x.id, x.obj, x.fragCount, x.len, x.crc, r, x.src,
      x.port, x.ports⟩)).get (countOf r) = s.get (countOf r) := get_put_ne _ _ _ _ notInflight
    rw [counted]
  · rw [rest_ingest R]
    rfl

/-! A strip that has passed its check, where no partner is awaited. -/

theorem c3Shed_of_rest {x y : State} (h : Rest x y) : y.c3Shed = x.c3Shed := by
  have dip : y.pwr = x.pwr :=
    have e := congrArg State.pwr h.bare
    e
  simp only [State.c3Shed, State.c3Tokens, State.step, dip, h.get PW_TEMP_STEP (by decide)]

/-- What a verified strip's slot is set to. -/
def storedSlot (s : State) (id gen k addr len digest : Nat) (x : Slot) : Slot :=
  { x with addr := addr, len := len, state := stStored, mode := (StripHdr.parse (s.rdMem addr 16)).mode, digest := digest
           rawLen := ((s.surf id gen).map fun f => slotRaw f.body k).getD 0, ue := false }

/-- The state with a verified strip's slot STORED, before its record and its comparison with the partner's. -/
def placed (s : State) (id gen k addr len digest : Nat) : State :=
  let t := s.modSlot id gen k (storedSlot s id gen k addr len digest)
  { t with ingest := { t.ingest with
    fetched := t.ingest.fetched.filter (· != (id, gen, k))
    waiting := t.ingest.waiting.filter (· != (id, gen, k))
    failed := t.ingest.failed.filter fun x => !(x.id == id && x.gen == gen && x.slot == k)
    digests := if t.pairEn then t.ingest.digests ++ [(id, gen, k, len, digest)] else t.ingest.digests } }

theorem slotOf_placed {s : State} {id gen k : Nat} (addr len digest : Nat) {f : Surface} (hf : s.surf id gen = some f) :
    (placed s id gen k addr len digest).slotOf id gen k = storedSlot s id gen k addr len digest (s.slotOf id gen k) :=
  (slotOf_congr (x := s.modSlot id gen k (storedSlot s id gen k addr len digest)) rfl id gen k).trans
    (slotOf_modSlot s id gen k _ hf)

theorem heldAlone_of_rest {x y : State} (h : Rest x y) : y.heldAlone = x.heldAlone := by
  have base : y.base = x.base := have e := congrArg State.base h.bare; e
  have stale : y.pair.partnerStale = x.pair.partnerStale := have e := congrArg (fun s => s.pair.partnerStale) h.bare; e
  have lost : y.pair.partnerLost = x.pair.partnerLost := have e := congrArg (fun s => s.pair.partnerLost) h.bare; e
  simp only [State.heldAlone, base, stale, lost]

theorem heldAlone_placed (s : State) (id gen k addr len digest : Nat) :
    (placed s id gen k addr len digest).heldAlone = s.heldAlone := rfl

/-- A strip that has passed its check is HELD at once where no partner is awaited, its record appended. -/
theorem slotStored_held {s : State} {id gen k addr len digest : Nat} (ha : s.heldAlone = true) :
    ∃ p, Rest (placed s id gen k addr len digest) p ∧
      s.slotStored id gen k addr len digest = p.modSlot id gen k fun x => { x with state := stHeld } := by
  have R := rest_record (placed s id gen k addr len digest) 0x06 s.now
    (leBytes 4 (packGen id gen) ++ leBytes 4 k ++ leBytes 4 len ++ leBytes 4 digest)
  exact ⟨_, R, if_pos (((heldAlone_of_rest R).trans (heldAlone_placed ..)).trans ha)⟩

theorem exec_dbtVerifyDone {t session window id : Nat} {s : State} {w : Window} {x : Xfer} (hc : s.core = .running)
    (hs : s.c3Shed = false) (hw : s.window session window = some w) (hx : s.ingest.xfers = [x]) (hse : x.session = session)
    (hwi : x.window = window) (hid : x.id = id) (hg : x.got.length = x.fragCount) :
    exec (.dbtVerifyDone t session window id) s = .next
      (((if w.kind == .stripWrite then
          (if s.verifyReason w x = 0 then (s.advance t).slotStored w.surf w.gen x.obj x.addr x.len x.crc
            else (s.advance t).xferSlotBack x)
        else s.advance t).xferAnswer x (s.verifyReason w x)).whenRunning settle) := by
  show execDbtVerifyDone t session window id s = _
  have hw' : (s.advance t).window session window = some w := hw
  have hx' : (s.advance t).ingest.xfers.find? (fun x => x.session == session && x.window == window && x.id == id) = some x := by
    rw [advance_ingest, hx]; simp [hse, hwi, hid]
  have ready : x.got.length = x.fragCount ∧ (!(s.advance t).c3Shed) = true := ⟨hg, by rw [show (s.advance t).c3Shed = _ from hs]; rfl⟩
  rw [execDbtVerifyDone, run_on hc]
  simp only [hw', hx', if_pos ready]
  rfl

/-- The slot of a strip that has passed its check is HELD with the strip's place, length and digest; nothing is sent and
no register changes. -/
theorem stored_held {s : State} {id gen k addr len digest : Nat} {f : Surface} (hf : s.surf id gen = some f)
    (ha : s.heldAlone = true) {y : State} (hy : s.slotStored id gen k addr len digest = y) :
    ((y.slotOf id gen k).state = stHeld ∧ (y.slotOf id gen k).addr = addr ∧ (y.slotOf id gen k).len = len ∧
      (y.slotOf id gen k).digest = digest) ∧
    y.ingest.xfers = s.ingest.xfers ∧ y.c3Shed = s.c3Shed ∧ Quiet s y := by
  obtain ⟨p, R, hp⟩ := slotStored_held (id := id) (gen := gen) (k := k) (addr := addr) (len := len) (digest := digest) ha
  rw [← hy, hp]
  have slot : p.slotOf id gen k = storedSlot s id gen k addr len digest (s.slotOf id gen k) :=
    (slotOf_congr (congrArg Ingest.surfs (rest_ingest R)) id gen k).trans (slotOf_placed addr len digest hf)
  obtain ⟨g, hg⟩ := surf_of_slot_used (s := p) (id := id) (gen := gen) (k := k) (by rw [slot]; exact show stStored ≠ stEmpty by decide)
  have xfers : p.ingest.xfers = (placed s id gen k addr len digest).ingest.xfers := congrArg Ingest.xfers (rest_ingest R)
  have shed : p.c3Shed = (placed s id gen k addr len digest).c3Shed := c3Shed_of_rest R
  refine ⟨?_, xfers, shed, ?_⟩
  · rw [slotOf_modSlot p id gen k _ hg, slot]
    exact ⟨rfl, rfl, rfl, rfl⟩
  · exact quiet_trans (quiet_of_same (y := placed s id gen k addr len digest) rfl rfl)
      (quiet_trans (quiet_of_rest R) (quiet_of_same rfl rfl))

/-! Transfers discarded with no answer. -/

/-- Whether two transfers go by the same session, window and id. -/
def sameXfer (x y : Xfer) : Bool := y.session == x.session && y.window == x.window && y.id == x.id

theorem drop_one (s : State) (x : Xfer) : ∀ y, (s.xferSlotBack x).xferEnd x = y →
    y.out = s.out ∧ y.ingest.delayed = s.ingest.delayed ∧ y.ingest.reads = s.ingest.reads ∧
      y.ingest.xfers = s.ingest.xfers.filter fun z => !sameXfer x z := by
  rintro y rfl
  obtain ⟨l, hl⟩ := xferSlotBack_eq s x
  rw [hl]
  exact ⟨rfl, rfl, rfl, rfl⟩

theorem drop_each (l : List Xfer) (s : State) : ∀ y, (s.each l fun s x => (s.xferSlotBack x).xferEnd x) = y →
    y.out = s.out ∧ y.ingest.delayed = s.ingest.delayed ∧ y.ingest.reads = s.ingest.reads ∧
      ∀ z ∈ y.ingest.xfers, z ∈ s.ingest.xfers ∧ ∀ x ∈ l, sameXfer x z = false := by
  induction l generalizing s with
  | nil => rintro y rfl; exact ⟨rfl, rfl, rfl, fun z hz => ⟨hz, by simp⟩⟩
  | cons x l ih =>
    intro y hy
    obtain ⟨out, delayed, reads, xfers⟩ := drop_one s x _ rfl
    obtain ⟨out', delayed', reads', xfers'⟩ := ih _ y hy
    refine ⟨out'.trans out, delayed'.trans delayed, reads'.trans reads, fun z hz => ?_⟩
    obtain ⟨kept, others⟩ := xfers' z hz
    rw [xfers, List.mem_filter] at kept
    exact ⟨kept.1, List.forall_mem_cons.2 ⟨by simpa using kept.2, others⟩⟩

/-- A port that loses its link: every transfer that came by it is gone, and nothing is answered. -/
theorem xfersDrop_port (s : State) (p : Xfer → Bool) : ∀ y, s.xfersDrop p = y →
    y.out = s.out ∧ y.ingest.delayed = s.ingest.delayed ∧ y.ingest.reads = s.ingest.reads ∧
      ∀ z ∈ y.ingest.xfers, z ∈ s.ingest.xfers ∧ p z = false := by
  intro y hy
  obtain ⟨out, delayed, reads, xfers⟩ := drop_each _ s y hy
  refine ⟨out, delayed, reads, fun z hz => ?_⟩
  obtain ⟨mem, other⟩ := xfers z hz
  refine ⟨mem, Bool.eq_false_iff.2 fun hp => ?_⟩
  have self := other z (List.mem_filter.2 ⟨mem, hp⟩)
  simp [sameXfer] at self

/-! Read-back. -/

/-- The fragments that carry an object. -/
def fragments (r : ReadOut) : List Sent :=
  (List.range (cdiv r.bytes.length r.frag)).map fun i => .rddata r.port r.dst r.session r.window r.id r.obj i
    (cdiv r.bytes.length r.frag) r.bytes.length (crc32c r.bytes) (slice r.bytes (i * r.frag) r.frag)

theorem emit_each (g : Nat → Sent) (l : List Nat) (s : State) :
    (s.each l fun s i => s.emit (g i)) = { s with out := s.out ++ l.map g } := by
  induction l generalizing s with
  | nil => simp [State.each]
  | cons i l ih =>
    show (s.emit (g i)).each l _ = _
    rw [ih]
    simp [State.emit]

theorem sendObj_eq (s : State) (r : ReadOut) : s.sendObj r = { s with out := s.out ++ fragments r } := emit_each _ _ s

section Read
variable {s : State} {port src : Nat} {h : DbtHdr} {e : Session} {w : Window}
  (he : s.ingest.sessions.find? (·.id == h.session) = some e) (hw : s.window h.session h.window = some w)
  (hr : w.kind = .readBack) (hm : h.magic = 0xDB70) (hv : h.ver = 1) (hk : h.kind = 3) (hp : h.payloadLen = 0)
include he hw hr hm hv hk hp

theorem readReq_some {bs : List Byte} (ho : s.readObj w h.objIndex = some bs) :
    s.readReq port src h = s.readTake port src h e.frag bs := by
  simp [State.readReq, he, hw, hr, hm, hv, hk, hp, ho]

theorem readReq_none (ho : s.readObj w h.objIndex = none) : s.readReq port src h = s.readNak port src h 3 := by
  simp [State.readReq, he, hw, hr, hm, hv, hk, hp, ho]

end Read

section Taken
variable {s : State} {port src f : Nat} {h : DbtHdr} {bs : List Byte}

theorem readTake_sent (hs : s.c3Shed = false) : s.readTake port src h f bs =
    { s with out := s.out ++ fragments ⟨h.session, h.window, h.xferId, h.objIndex, src, port, f, bs⟩ } := by
  rw [State.readTake, hs, if_pos (by decide), sendObj_eq]

theorem readTake_waits (hs : s.c3Shed = true) (hl : s.ingest.reads.length < 16) : s.readTake port src h f bs =
    { s with ingest := { s.ingest with
      reads := s.ingest.reads ++ [⟨h.session, h.window, h.xferId, h.objIndex, src, port, f, bs⟩] } } := by
  rw [State.readTake, hs, if_neg (by decide), if_neg (Nat.not_le.2 hl)]

theorem readTake_busy (hs : s.c3Shed = true) (hl : 16 ≤ s.ingest.reads.length) : s.readTake port src h f bs =
    { s with ingest := { s.ingest with
      delayed := s.ingest.delayed ++
        [⟨h.session, h.window, h.xferId, h.objIndex, h.fragCount, h.xferLen, h.xferCrc, 4, src, port, [port]⟩] } } := by
  rw [State.readTake, hs, if_neg (by decide), if_pos hl, State.readNak, State.dbtReply, if_pos hs]

theorem readNak_sent {r : Nat} (hs : s.c3Shed = false) (hr : r ≠ 0) : s.readNak port src h r =
    (s.emit (.dbt ⟨h.session, h.window, h.xferId, h.objIndex, h.fragCount, h.xferLen, h.xferCrc, r, src, port,
      [port]⟩)).inc HP_DBT_NAKS_COUNT := by
  rw [State.readNak, State.dbtReply, hs, if_neg (by decide), State.dbtSend, if_neg hr]

end Taken

/-- A state that is another but for what it has sent. -/
theorem rest_sent {x s' : State} {l : List Sent} (R : Rest { x with out := l } s') :
    s'.out = l ∧ Rest { x with out := s'.out } s' := by
  have out : s'.out = l := R.out
  exact ⟨out, by rw [out]; exact R⟩

theorem exec_rdreq {t port : Nat} {k : DbtFrom} {h : DbtHdr} {s : State} (hc : s.core = .running) (hu : s.hostUp = true)
    (hp : port < 2) (hd : k.dport = s.get HP_DBT_PORT_PORT) (hi : s.ipOn 1 k.v6 = true) :
    exec (.rdreq t port k h) s =
      .next ((((s.advance t).retxSeen h).readReq port k.src h).whenRunning settle) := by
  have up : ((s.advance t).hostUp && decide (port < 2)) = true := by
    rw [show (s.advance t).hostUp = true from hu]
    simp [hp]
  show execRdreq t port k h s = _
  rw [execRdreq, run_on hc, if_pos up, dbtArrives_own (s := s.advance t) hd hi]

theorem xferSlotBack_keeps (s : State) (x : Xfer) : ∀ y, s.xferSlotBack x = y →
    y.ingest.xfers = s.ingest.xfers ∧ y.c3Shed = s.c3Shed ∧ Quiet s y := by
  rintro y rfl
  obtain ⟨l, hl⟩ := xferSlotBack_eq s x
  rw [hl]
  exact ⟨rfl, rfl, quiet_of_same rfl rfl⟩

/-- The one transfer in flight, answered once its slot has been seen to. -/
theorem answers_after {s y s' : State} {x : Xfer} {r : Nat} (hx : s.ingest.xfers = [x]) (hc : s.c3Shed = false)
    (hy : y.ingest.xfers = s.ingest.xfers ∧ y.c3Shed = s.c3Shed ∧ Quiet s y) (R : Rest (y.xferAnswer x r) s') :
    s'.ingest.xfers = [] ∧
      s'.out = s.out ++ [.dbt ⟨x.session, x.window, x.id, x.obj, x.fragCount, x.len, x.crc, r, x.src, x.port, x.ports⟩] ∧
      s'.get (countOf r) = (s.get (countOf r) + 1) % 2 ^ 32 ∧
      ∀ id gen k, s'.slotOf id gen k = y.slotOf id gen k := by
  obtain ⟨xfers, shed, quiet⟩ := hy
  obtain ⟨gone, out, count, slots⟩ := answers_only (xfers.trans hx) (shed.trans hc) R
  rw [quiet.out] at out
  rw [quiet_get quiet _ (countOf_addr r).1] at count
  exact ⟨gone, out, count, slots⟩

/-- Settles O25: a transfer's end is its answer over the state its slot is left in, and an RDREQ is its fragments, its
place among those that wait, or its NAK. -/
theorem transfersEnd : Obligations.TransfersEnd := by
  unfold Obligations.TransfersEnd
  refine ⟨fun t session window id s hc hs => ⟨fun w x hw hx hse hwi hid hg => ?verify,
    fun x hx hse hwi hid hg hp => ?timeout, fun port => ?loss⟩,
    fun t port src dport v6 h e w s hc hu hp hd hi he hw hr hm hv hk hpl => ?read⟩
  case verify =>
    rw [exec_dbtVerifyDone hc hs hw hx hse hwi hid hg]
    refine ⟨fun r hr h0 => ?fails, fun f hr hk hf ha => ?passes⟩
    case fails =>
      have count : countOf r = HP_DBT_NAKS_COUNT := if_neg h0
      rw [hr, if_neg h0]
      cases hk : w.kind == .stripWrite with
      | true =>
        obtain ⟨gone, out, naks, slots⟩ := answers_after (s := s.advance t) (r := r) hx hs (xferSlotBack_keeps _ x _ rfl)
          (rest_whenRunning _)
        rw [count] at naks
        subst hse hwi hid
        refine ⟨_, rfl, gone, out, naks, fun hk hl => ?_⟩
        refine (congrArg Slot.state (slots ..)).trans (slotOf_xferSlotBack (s := s.advance t) hw hk hl)
      | false =>
        obtain ⟨gone, out, naks, -⟩ := answers_after (s := s.advance t) (r := r) hx hs ⟨rfl, rfl, quiet_refl _⟩
          (rest_whenRunning _)
        rw [count] at naks
        subst hse hwi hid
        exact ⟨_, rfl, gone, out, naks, fun h => by simp [h] at hk⟩
    case passes =>
      rw [hr, if_pos rfl, hk, if_pos (by decide)]
      obtain ⟨slot, keeps⟩ := stored_held (s := s.advance t) (k := x.obj) (addr := x.addr) (len := x.len) (digest := x.crc)
        hf ha rfl
      obtain ⟨gone, out, acks, slots⟩ := answers_after (s := s.advance t) (r := 0) hx hs keeps (rest_whenRunning _)
      rw [show countOf 0 = HP_DBT_ACKS_COUNT from rfl] at acks
      subst hse hwi hid
      refine ⟨_, rfl, gone, out, acks, ?_⟩
      rw [slots]
      exact slot
  case timeout =>
    have found : (s.advance t).ingest.xfers.find? (fun x => x.session == session && x.window == window && x.id == id) = some x := by
      rw [advance_ingest, hx]; simp [hse, hwi, hid]
    have effect : exec (.dbtTimeout t session window id) s =
        .next ((((s.advance t).xferSlotBack x).xferAnswer x 5).whenRunning settle) := by
      show execDbtTimeout t session window id s = _
      rw [execDbtTimeout, run_on hc]
      simp only [found, if_pos (And.intro hg hp)]
    rw [effect]
    obtain ⟨gone, out, naks, -⟩ := answers_after (s := s.advance t) (r := 5) hx hs (xferSlotBack_keeps _ x _ rfl)
      (rest_whenRunning _)
    subst hse hwi hid
    exact ⟨_, rfl, gone, out, naks⟩
  case loss =>
    obtain ⟨out, delayed, reads, xfers⟩ := xfersDrop_port (s.advance t) (fun x => x.ports.contains port) _ rfl
    obtain ⟨s', hs', R⟩ := run_rest (f := fun s =>
      let s := s.xfersDrop fun x => x.ports.contains port
      { s with ingest := { s.ingest with
          delayed := s.ingest.delayed.filter fun r => !r.ports.contains port
          reads := s.ingest.reads.filter (·.port != port) } }) (t := t) hc (Rest.refl _)
    have ingest := rest_ingest R
    refine ⟨s', hs', R.out.trans out, ?_, ?_, ?_⟩ <;> rw [ingest]
    · exact congrArg (List.filter _) delayed
    · exact congrArg (List.filter _) reads
    · exact xfers
  case read =>
    rw [exec_rdreq hc hu hp hd hi]
    obtain ⟨r, hn⟩ := retxSeen_eq_noted (s.advance t) h
    have he' : ((s.advance t).retxSeen h).ingest.sessions.find? (·.id == h.session) = some e := by rw [hn]; exact he
    have hw' : ((s.advance t).retxSeen h).window h.session h.window = some w := by rw [hn]; exact hw
    have shed : ((s.advance t).retxSeen h).c3Shed = s.c3Shed := by rw [hn]; rfl
    have obj : ((s.advance t).retxSeen h).readObj w h.objIndex = s.readObj w h.objIndex := by rw [hn]; rfl
    have reads : ((s.advance t).retxSeen h).ingest.reads = s.ingest.reads := by rw [hn]; rfl
    refine ⟨fun bs ho hs => ?sends, fun bs ho hs hl => ?waits, fun bs ho hs hl => ?busy, fun ho hs => ?range⟩
    case sends =>
      rw [readReq_some he' hw' hr hm hv hk hpl (obj.trans ho), readTake_sent (shed.trans hs), hn]
      exact ⟨_, rfl, rest_sent (rest_whenRunning _)⟩
    case waits =>
      rw [readReq_some he' hw' hr hm hv hk hpl (obj.trans ho), readTake_waits (shed.trans hs) (by rw [reads]; exact hl), hn]
      refine ⟨_, rfl, (rest_whenRunning _).out, ?_, ?_⟩ <;> rw [rest_ingest (rest_whenRunning _)] <;> rfl
    case busy =>
      rw [readReq_some he' hw' hr hm hv hk hpl (obj.trans ho), readTake_busy (shed.trans hs) (by rw [reads]; exact hl), hn]
      refine ⟨_, rfl, (rest_whenRunning _).out, ?_, ?_⟩ <;> rw [rest_ingest (rest_whenRunning _)] <;> rfl
    case range =>
      rw [readReq_none he' hw' hr hm hv hk hpl (obj.trans ho), readNak_sent (shed.trans hs) (by decide), hn]
      exact ⟨_, rfl, rest_whenRunning _⟩

end Sys2Proof.Proofs
end

section
open Sys2Proof Sys2Proof.Machine
namespace Sys2Proof.Proofs
/-! A register written with its copy entry, and an object's record written word by word (R526): what each word reads
after it, and what it leaves. -/

theorem each_keeps {α β : Type} (g : State → β) {f : State → α → State} (l : List α) (s : State)
    (h : ∀ s, ∀ x ∈ l, g (f s x) = g s) : g (s.each l f) = g s := by
  induction l generalizing s with
  | nil => rfl
  | cons x l ih =>
    show g ((f s x).each l f) = _
    rw [ih (f s x) fun s y hy => h s y (List.mem_cons_of_mem _ hy), h s x List.mem_cons_self]

theorem copy_keeps {β : Type} (g : State → β) (hp : ∀ (s : State) p, g { s with pair := p } = g s) (s : State) (k : Nat)
    (w : List Nat) : g (s.copy k w) = g s := by
  simp only [State.copy]
  split
  · exact hp _ _
  · rfl

theorem rd_copy (s : State) (k : Nat) (w : List Nat) (a : Nat) : (s.copy k w).rd a = s.rd a :=
  copy_keeps (fun s => s.rd a) (fun _ _ => rfl) s k w

theorem rd_wrCopy_same (s : State) (a v : Nat) : (s.wrCopy a v).rd a = v % 2 ^ 32 := by
  rw [State.wrCopy, rd_copy, rd_wr_same]

theorem rd_wrCopy_ne (s : State) (v : Nat) {a b : Nat} (h : b ≠ a) : (s.wrCopy a v).rd b = s.rd b := by
  rw [State.wrCopy, rd_copy, rd_wr_ne _ _ h]

theorem get_wrCopy_ne (s : State) {f : Fld} {a : Nat} (v : Nat) (h : f.addr ≠ a) : (s.wrCopy a v).get f = s.get f := by
  rw [State.get, State.get, rd_wrCopy_ne _ _ h]

theorem now_wrCopy (s : State) {a : Nat} (v : Nat) (h : TB_OFS_CFG ≠ a) : (s.wrCopy a v).now = s.now := by
  rw [State.wrCopy, copy_keeps (fun s => s.now) (fun _ _ => rfl), wr_now _ _ _ h]

/-- Whatever neither a register's value nor the copy under way changes, a write with its copy keeps. -/
theorem wrCopy_keeps {β : Type} (g : State → β) (hw : ∀ (s : State) a v, g (s.wr a v) = g s)
    (hp : ∀ (s : State) p, g { s with pair := p } = g s) (s : State) (a v : Nat) : g (s.wrCopy a v) = g s := by
  rw [State.wrCopy, copy_keeps g hp, hw]

theorem objPut_keeps {β : Type} (g : State → β) (hw : ∀ (s : State) a v, g (s.wr a v) = g s)
    (hp : ∀ (s : State) p, g { s with pair := p } = g s) (s : State) (base : Nat) (ws : List Nat) :
    g (s.objPut base ws) = g s :=
  each_keeps g _ s fun s _ _ => wrCopy_keeps g hw hp s _ _

theorem objPut_scan (s : State) (base : Nat) (ws : List Nat) : (s.objPut base ws).scan = s.scan :=
  objPut_keeps State.scan (fun _ _ _ => rfl) (fun _ _ => rfl) s base ws

theorem objPut_ingest (s : State) (base : Nat) (ws : List Nat) : (s.objPut base ws).ingest = s.ingest :=
  objPut_keeps State.ingest (fun _ _ _ => rfl) (fun _ _ => rfl) s base ws

theorem objPut_events (s : State) (base : Nat) (ws : List Nat) : (s.objPut base ws).events = s.events :=
  objPut_keeps State.events (fun _ _ _ => rfl) (fun _ _ => rfl) s base ws

theorem rd_objPut_outside (s : State) (base : Nat) (ws : List Nat) {a : Nat} (h : ∀ k < ws.length, a ≠ base + 4 * k) :
    (s.objPut base ws).rd a = s.rd a :=
  each_keeps (fun s => s.rd a) _ s fun s _ hx => rd_wrCopy_ne s _ (h _ (List.mem_zipIdx' hx).1)

/-- The words of a record that starts at the `n`th place of a window. -/
theorem rd_each_wrCopy (base : Nat) (ws : List Nat) (n : Nat) (s : State) (k : Nat) (h : k < ws.length) :
    (s.each (ws.zipIdx n) fun s w => s.wrCopy (base + 4 * w.2) w.1).rd (base + 4 * (n + k)) = ws[k] % 2 ^ 32 := by
  induction ws generalizing n s k with
  | nil => simp at h
  | cons w ws ih =>
    show ((s.wrCopy (base + 4 * n) w).each (ws.zipIdx (n + 1)) _).rd _ = _
    cases k with
    | zero =>
      rw [each_keeps (fun s => s.rd (base + 4 * (n + 0))) _ _ fun s x hx => ?_]
      · exact rd_wrCopy_same s _ w
      · have := (List.mem_zipIdx hx).1
        exact rd_wrCopy_ne s _ (by omega)
    | succ k =>
      rw [show n + (k + 1) = n + 1 + k by omega]
      exact ih (n + 1) _ k (by simpa using h)

theorem rd_objPut_inside (s : State) (base : Nat) (ws : List Nat) (k : Nat) (h : k < ws.length) :
    (s.objPut base ws).rd (base + 4 * k) = ws[k] % 2 ^ 32 := by
  have at0 := rd_each_wrCopy base ws 0 s k h
  rwa [Nat.zero_add] at at0

end Sys2Proof.Proofs
end

section
open Sys2Proof Sys2Proof.Machine
namespace Sys2Proof.Proofs
/-! Surfaces, pages and the master table as they commit (O39). -/

theorem surfBody_getD_lt {body : List Nat} (h : ∀ w ∈ body, w < 2 ^ 32) (i : Nat) : body.getD i 0 < 2 ^ 32 := by
  rw [List.getD_eq_getElem?_getD]
  cases e : body[i]? with
  | none => simp
  | some w => exact h w (List.mem_of_getElem? e)

/-- The six words of a generation's body, with its reserved bits clear, are words. -/
theorem surfBody_lt {body : List Nat} (h : ∀ w ∈ body, w < 2 ^ 32) : ∀ w ∈ surfBody body, w < 2 ^ 32 := by
  have word := surfBody_getD_lt h
  have masked : body.getD 1 0 &&& 0x37F < 2 ^ 32 := Nat.lt_of_le_of_lt Nat.and_le_right (by decide)
  simp only [surfBody, List.forall_mem_cons, List.not_mem_nil, false_implies, implies_true, and_true]
  exact ⟨word 0, masked, word 2, word 3, word 4, word 5⟩

/-- What a surface record's words read as it is applied. -/
theorem rd_surfWords {s : State} {e v : Nat} {l : List Nat} (hl : l.length = 6) (hw : ∀ w ∈ l, w < 2 ^ 32)
    (hv : v < 2 ^ 32) :
    ((List.range 6).map fun k => (s.objPut (surfWin e) (l ++ [v])).rd (surfWin e + 4 * k)) = l ∧
      (s.objPut (surfWin e) (l ++ [v])).rd (surfWin e + 4 * 6) = v := by
  have word (k : Nat) (h : k < (l ++ [v]).length) :
      (s.objPut (surfWin e) (l ++ [v])).rd (surfWin e + 4 * k) = (l ++ [v])[k] := by
    rw [rd_objPut_inside _ _ _ _ h, Nat.mod_eq_of_lt]
    rcases List.mem_append.1 (List.getElem_mem h) with m | m
    · exact hw _ m
    · rw [List.mem_singleton.1 m]; exact hv
  constructor
  · apply List.ext_getElem
    · simp [hl]
    · intro k h1 h2
      rw [List.getElem_map, List.getElem_range, word k (by simp; omega), List.getElem_append_left h2]
  · rw [word 6 (by simp [hl]), List.getElem_append_right (by omega)]
    simp [hl]

/-- A record of a live generation in an entry that holds none adds it. -/
theorem surfApply_new {s : State} {e : Nat} {l : List Nat} (hf : s.ingest.surfs.find? (·.entry == e) = none)
    (hl : ((List.range 6).map fun k => s.rd (surfWin e + 4 * k)) = l) (h6 : s.rd (surfWin e + 4 * 6) = 1) :
    (s.surfApply e).ingest.surfs =
      s.ingest.surfs ++ [⟨e, l.getD 0 0 / 65536, l.getD 0 0 % 65536, l, [], false, false, []⟩] ∧
    (s.surfApply e).words = s.words := by
  have h0 : l.getD 0 0 = s.rd (surfWin e + 4 * 0) := by rw [← hl]; rfl
  rw [h0, State.surfApply]
  simp only [h6, hf, hl]
  exact ⟨rfl, rfl⟩

theorem not_mem_of_freeIndex {used : List Nat} {n i : Nat} (h : freeIndex used n = some i) : i ∉ used := by
  simpa using List.find?_some h

/-- A release with no window open ends nothing. -/
theorem releaseWindows_none {s : State} (h : s.ingest.windows = []) (id gen : Nat) :
    (s.releaseWindows id gen).ingest.surfs = s.ingest.surfs ∧ (s.releaseWindows id gen).words = s.words := by
  have none_ : s.surfWindows id gen = [] := by rw [State.surfWindows, h]; rfl
  have ended : (s.ingest.xfers.filter fun x => (s.surfWindows id gen).any fun w =>
      w.session == x.session && w.num == x.window) = [] := by
    rw [none_]; simp
  rw [State.releaseWindows]
  simp only [ended]
  exact ⟨rfl, rfl⟩

/-- A record of the entry's own generation marks it released; with no window open nothing else follows. -/
theorem surfApply_released {s : State} {f : Surface} (hs : s.ingest.surfs = [f]) (hw : s.ingest.windows = [])
    (h0 : s.rd (surfWin f.entry + 4 * 0) = packGen f.id f.gen) (h6 : s.rd (surfWin f.entry + 4 * 6) = 3)
    (hg : f.gen < 2 ^ 16) (hr : f.released = false) :
    (s.surfApply f.entry).ingest.surfs = [{ f with released := true }] ∧ (s.surfApply f.entry).words = s.words := by
  have id : packGen f.id f.gen / 65536 = f.id := by rw [packGen]; omega
  have gen : packGen f.id f.gen % 65536 = f.gen := by rw [packGen]; omega
  have found : s.ingest.surfs.find? (·.entry == f.entry) = some f := by rw [hs]; simp
  have applied : s.surfApply f.entry =
      (s.modSurf f.id f.gen fun f => { f with released := true }).releaseWindows f.id f.gen := by
    rw [State.surfApply]
    simp only [h6, h0, id, gen, found, and_self, if_true, hr]
    rfl
  obtain ⟨surfs, words⟩ := releaseWindows_none (s := s.modSurf f.id f.gen fun f => { f with released := true }) hw f.id f.gen
  rw [applied]
  refine ⟨surfs.trans ?_, words⟩
  show s.ingest.surfs.map _ = _
  rw [hs]
  simp

theorem masterWord_lt (w : Nat) : masterWord w < 2 ^ 32 := by
  have h1 := b2n_lt (bit w 8)
  have h2 := bits_lt w 18 16
  have h3 := bits_lt w 25 24
  rw [masterWord]
  omega

theorem mst_cfg_not_shown : ∀ n < 4, HP_MST_CFG n ∉ shown := by decide

theorem mst_cfg_apart : ∀ n < 4, TB_OFS_CFG ≠ HP_MST_CFG n ∧ EV_NEXT_SEQ_SEQ.addr ≠ HP_MST_CFG n := by decide

/-- Settles O39: a definition's and a release's record read as they were written and are applied so; the other outcomes
leave the state as it was. -/
theorem objectCommits : Obligations.ObjectCommits := by
  unfold Obligations.ObjectCommits
  intro s
  refine ⟨fun body e hn he hb => ?define, fun body f hf hr => ?again, fun body hn => ?unknown, fun body f hf hr => ?released,
    fun body f tail hs hbody ht hid hg hr hw hp => ?release, fun body j hj hc hp => ?beyond,
    fun body j p hj hc hp hcl hrefs => ?repeated, fun body j hj hc hp => ?undefined, fun body hc ha => ?noMaster,
    fun body hc ha => ?master⟩
  case define =>
    obtain ⟨words, state⟩ := rd_surfWords (s := s) (e := e) (v := 1) (l := surfBody body) rfl (surfBody_lt hb) (by decide)
    have free : (s.objPut (surfWin e) (surfBody body ++ [1])).ingest.surfs.find? (·.entry == e) = none := by
      rw [objPut_ingest, List.find?_eq_none]
      intro f hf hfe
      exact not_mem_of_freeIndex he (List.mem_map.2 ⟨f, hf, by simpa using hfe⟩)
    obtain ⟨surfs, same⟩ := surfApply_new free words state
    have commits : s.commitGo 0x10 body = (.ok, (s.objPut (surfWin e) (surfBody body ++ [1])).surfApply e) := by
      show s.surfaceDefine body = _
      rw [State.surfaceDefine]
      simp only [show (surfBody body).getD 0 0 = body.getD 0 0 from rfl, hn, he]
    refine ⟨_, commits, ?_, fun k hk => ?_, ?_⟩
    · rw [surfs, objPut_ingest]; rfl
    · rw [State.rd, same, ← State.rd]
      conv_rhs => rw [← words]
      simp [List.getD, hk]
    · rw [State.rd, same, ← State.rd, state]
  case again =>
    show s.surfaceDefine body = _
    rw [State.surfaceDefine]
    simp only [show (surfBody body).getD 0 0 = body.getD 0 0 from rfl, hf, hr, Bool.false_eq_true, if_false]
    split <;> rfl
  case unknown =>
    show s.surfaceRelease body = _
    rw [State.surfaceRelease]
    simp only [hn]
  case released =>
    show s.surfaceRelease body = _
    rw [State.surfaceRelease]
    simp only [hf, hr, if_true]
  case release =>
    have length : (f.body ++ [3]).length = 7 := by rw [hbody]; simp [ht]
    have first : (s.objPut (surfWin f.entry) (f.body ++ [3])).rd (surfWin f.entry + 4 * 0) = packGen f.id f.gen := by
      rw [rd_objPut_inside _ _ _ 0 (by omega)]
      simp only [hbody, List.cons_append, List.getElem_cons_zero]
      exact Nat.mod_eq_of_lt (by rw [packGen]; omega)
    have state : (s.objPut (surfWin f.entry) (f.body ++ [3])).rd (surfWin f.entry + 4 * 6) = 3 := by
      rw [rd_objPut_inside _ _ _ 6 (by omega), List.getElem_append_right (by simp [hbody, ht])]
      simp [hbody, ht]
    obtain ⟨surfs, same⟩ := surfApply_released (by rw [objPut_ingest]; exact hs) (by rw [objPut_ingest]; exact hw) first state
      hg hr
    have found : s.surf (packGen f.id f.gen / 65536) (packGen f.id f.gen % 65536) = some f := by
      rw [State.surf, hs, packGen, show (f.id * 65536 + f.gen) / 65536 = f.id by omega,
        show (f.id * 65536 + f.gen) % 65536 = f.gen by omega]
      simp
    refine ⟨_, ?_, surfs, ?_⟩
    · show s.surfaceRelease body = _
      rw [State.surfaceRelease]
      simp only [hp, found, hr, Bool.false_eq_true, if_false]
    · rw [State.rd, same, ← State.rd, state]
  case beyond =>
    show s.pageDefine body = _
    rw [State.pageDefine]
    generalize body.getD 1 0 % 2 ^ 24 = num at *
    simp only [hj]
    simp [hc, hp]
  case repeated =>
    show s.pageDefine body = _
    rw [State.pageDefine]
    generalize body.getD 1 0 % 2 ^ 24 = num at *
    simp only [hj, hp, ← hrefs]
    simp [hc, hcl]
  case undefined =>
    show s.pageClose body = _
    rw [State.pageClose]
    generalize body.getD 1 0 % 2 ^ 24 = num at *
    simp only [hj, hp]
    simp [hc]
  case noMaster =>
    show s.masterSet body = _
    rw [State.masterSet]
    simp only [hc, ha]
    rfl
  case master =>
    obtain ⟨n, hn⟩ : ∃ n, bits (body.getD 0 0) 1 0 = n := ⟨_, rfl⟩
    have n4 : n < 4 := hn ▸ bits_lt _ 1 0
    have commits : s.commitGo 0x32 body =
        (.ok, (s.wrCopy (HP_MST_CFG n) (masterWord (body.getD 0 0))).raise 0x7107 n 0 0) := by
      show s.masterSet body = _
      rw [State.masterSet]
      rw [hn] at ha
      simp only [hc, hn, ha]
      rfl
    have R := rest_raise (s.wrCopy (HP_MST_CFG n) (masterWord (body.getD 0 0))) 0x7107 n 0 0
    rw [hn]
    refine ⟨_, commits, ?_, ?_, fun a ha hm => ?_⟩
    · rw [R.words _ (mst_cfg_not_shown n n4), rd_wrCopy_same, Nat.mod_eq_of_lt (masterWord_lt _)]
    · exact (raise_reports _ 0x7107 n 0 0).congr (wrCopy_keeps State.events (fun _ _ _ => rfl) (fun _ _ => rfl) ..)
        (now_wrCopy _ _ (mst_cfg_apart n n4).1) (get_wrCopy_ne _ _ (mst_cfg_apart n n4).2)
    · rw [R.words a ha, rd_wrCopy_ne _ _ (by simpa using hm)]

end Sys2Proof.Proofs
end

section
open Sys2Proof Sys2Proof.Machine
namespace Sys2Proof.Proofs
/-! What a channel's records and its VOID lines leave as it was: every register but the lanes' own, and the store's objects. -/

/-- From one state to the other no register but those of the lanes and those of `shown` changed and no object of the store
did, and the event ring only grew. -/
structure LaneOnly (s y : State) : Prop where
  words : ∀ a, a ∉ shown → a < 0x0C0000 ∨ 0x0C8000 ≤ a → y.rd a = s.rd a
  ingest : y.ingest = s.ingest
  grows : Grows s y

theorem laneOnly_refl (s : State) : LaneOnly s s := ⟨fun _ _ _ => rfl, rfl, Grows.refl s⟩

section
variable {s x : State}

theorem laneOnly_same {y : State} (h : LaneOnly s x) (hw : y.words = x.words) (hi : y.ingest = x.ingest)
    (he : y.events = x.events) : LaneOnly s y :=
  ⟨fun a ha hl => by rw [State.rd, hw]; exact h.words a ha hl, hi.trans h.ingest, h.grows.trans (.of_eq he)⟩

theorem laneOnly_of_rest {y : State} (h : LaneOnly s x) (r : Rest x y) (g : Grows x y) : LaneOnly s y :=
  ⟨fun a ha hl => (r.words a ha).trans (h.words a ha hl), (rest_ingest r).trans h.ingest, h.grows.trans g⟩

theorem laneOnly_put {f : Fld} {v : Nat} (hf : 0x0C0000 ≤ f.addr ∧ f.addr < 0x0C8000) (h : LaneOnly s x) :
    LaneOnly s (x.put f v) :=
  ⟨fun a ha hl => (rd_put_ne _ _ _ (by omega)).trans (h.words a ha hl), h.ingest, h.grows.trans (.of_eq rfl)⟩

theorem laneOnly_each {α : Type} {f : State → α → State} {l : List α} (h : LaneOnly s x)
    (hf : ∀ y, LaneOnly s y → ∀ a ∈ l, LaneOnly s (f y a)) : LaneOnly s (x.each l f) := by
  induction l generalizing x with
  | nil => exact h
  | cons a l ih => exact ih (hf x h a List.mem_cons_self) fun y hy b hb => hf y hy b (List.mem_cons_of_mem _ hb)

theorem laneOnly_ite {c : Prop} [Decidable c] {y : State} (hx : LaneOnly s x) (hy : LaneOnly s y) :
    LaneOnly s (if c then x else y) := by
  split <;> assumption

theorem laneOnly_modLane {l : Nat} {f : LaneSt → LaneSt} (h : LaneOnly s x) : LaneOnly s (x.modLane l f) :=
  laneOnly_same h rfl rfl rfl

theorem laneOnly_modLines {ch : Nat} {f : List ChanLine → List ChanLine} (h : LaneOnly s x) : LaneOnly s (x.modLines ch f) :=
  laneOnly_same h rfl rfl rfl

theorem laneOnly_modLine {ch seq : Nat} {f : ChanLine → ChanLine} (h : LaneOnly s x) : LaneOnly s (x.modLine ch seq f) :=
  laneOnly_modLines h

theorem laneOnly_sendRec {l : Nat} {r : JRec} (h : LaneOnly s x) : LaneOnly s (x.sendRec l r) :=
  laneOnly_same h rfl rfl rfl

theorem laneOnly_sendUse {l : Nat} {r : JRec} (h : LaneOnly s x) : LaneOnly s (x.sendUse l r) :=
  laneOnly_sendRec (laneOnly_modLane h)

theorem laneOnly_wasteCopy {causes : Nat} {lo hi : Int} (h : LaneOnly s x) : LaneOnly s (x.wasteCopy causes lo hi) :=
  laneOnly_of_rest h (rest_wasteCopy ..) (.of_eq (by rw [State.wasteCopy, copy_events]; rfl))

theorem laneOnly_waste {causes : Nat} {lo hi : Int} (h : LaneOnly s x) : LaneOnly s (x.waste causes lo hi) :=
  laneOnly_of_rest h (rest_waste ..) (.of_eq rfl)

theorem laneOnly_wastePair {ord line : Nat} (h : LaneOnly s x) : LaneOnly s (x.wastePair ord line) := by
  simp only [State.wastePair]
  split
  · exact laneOnly_wasteCopy h
  · exact h

theorem laneOnly_record {type time : Nat} {p : List Byte} (h : LaneOnly s x) : LaneOnly s (x.record type time p) :=
  laneOnly_of_rest h (rest_record ..) (grows_record ..)

theorem laneOnly_voidSeen {l : ChanLine} (h : LaneOnly s x) : LaneOnly s (x.voidSeen l) := laneOnly_same h rfl rfl rfl

theorem laneOnly_hbItem {a b c d : Nat} (h : LaneOnly s x) : LaneOnly s (x.hbItem a b c d) := by
  have recorded : LaneOnly s (if bits a 31 24 == 4 then x else
      x.record 0x04 x.now (([a, b, c, d].map (· % 2 ^ 32)).flatMap (leBytes 4))) := laneOnly_ite h (laneOnly_record h)
  exact laneOnly_ite (laneOnly_same recorded rfl rfl rfl) recorded

theorem laneOnly_unsentLine {ch cause kind : Nat} {l : ChanLine} (h : LaneOnly s x) :
    LaneOnly s (x.unsentLine ch l cause kind) := by
  simp only [State.unsentLine]
  split
  · split
    · exact laneOnly_waste h
    · exact h
  · exact laneOnly_ite (laneOnly_wastePair h) (laneOnly_same h rfl rfl rfl)
  · exact laneOnly_hbItem h
  · exact h

/-- A lane register's address. -/
theorem lane_word {l o : Nat} (hl : l < 96) (ho : o < 0x100) : 0x0C0000 ≤ laneBase l + o ∧ laneBase l + o < 0x0C8000 := by
  rw [laneBase, if_pos hl]
  omega

section Channel
variable {ch : Nat} (hch : ch < 96)
include hch

theorem laneOnly_sendRetime {run : List ChanLine} (h : LaneOnly s x) : LaneOnly s (x.sendRetime ch run) :=
  have counted : LaneOnly s _ := laneOnly_put (f := JL_RT_CNT_RETIMES ch) (lane_word hch (by decide))
    (laneOnly_each (laneOnly_sendUse h) fun _ hy _ _ => laneOnly_modLine hy)
  laneOnly_ite counted (laneOnly_put (f := JL_RT_CNT_FULL ch) (lane_word hch (by decide)) counted)

theorem laneOnly_retime (h : LaneOnly s x) : LaneOnly s (x.retime ch) := by
  simp only [State.retime]
  split_ifs
  · exact h
  · exact laneOnly_each h fun _ hy _ _ => laneOnly_sendRetime hch hy
  · exact h
  · exact laneOnly_put (lane_word hch (by decide)) h

theorem laneOnly_retimeCycle (h : LaneOnly s x) : LaneOnly s (x.retimeCycle ch) :=
  laneOnly_ite (laneOnly_modLines (laneOnly_retime hch (laneOnly_modLane h))) h

theorem laneOnly_ctlFlush (h : LaneOnly s x) : LaneOnly s (x.ctlFlush ch) := by
  refine laneOnly_each h fun y hy i _ => ?_
  have sent (z : State) (hz : LaneOnly s z) : LaneOnly s (match (z.laneSt ch).ctl[i]? with
      | some c => z.sendUse ch (c.record z.claim)
      | none => z) := by
    split
    · exact laneOnly_sendUse hz
    · exact hz
  exact sent _ (laneOnly_put (lane_word hch (by decide)) (laneOnly_put (lane_word hch (by decide))
    (laneOnly_put (lane_word hch (by decide)) (laneOnly_modLane hy))))

theorem laneOnly_recordsFirst (h : LaneOnly s x) : LaneOnly s (x.recordsFirst ch) := by
  have sent : LaneOnly s (x.tsyncGo ch) := laneOnly_ite (laneOnly_sendRec (laneOnly_modLane h)) h
  have cycled := laneOnly_retimeCycle hch sent
  exact laneOnly_ite (laneOnly_ite cycled (laneOnly_ctlFlush hch cycled)) h

theorem laneOnly_lineVoid {l : ChanLine} (h : LaneOnly s x) : LaneOnly s (x.lineVoid ch l) := by
  refine laneOnly_ite h ?_
  split
  · exact laneOnly_modLine h
  · exact laneOnly_ite (laneOnly_unsentLine (laneOnly_voidSeen (laneOnly_put (lane_word hch (by decide))
      (laneOnly_modLine (laneOnly_sendUse (laneOnly_recordsFirst hch h)))))) h

end Channel

end

end Sys2Proof.Proofs
end

section
open Sys2Proof Sys2Proof.Machine
namespace Sys2Proof.Proofs
/-! What leads to an event without reporting any: the event is then the first from the state it began in. -/

/-- From one state to the other nothing has been reported: the event ring, the device time and the next sequence number
are the same. -/
structure Untold (s x : State) : Prop where
  events : x.events = s.events
  now : x.now = s.now
  next : x.get EV_NEXT_SEQ_SEQ = s.get EV_NEXT_SEQ_SEQ

section
variable {s x : State}

theorem untold_refl (s : State) : Untold s s := ⟨rfl, rfl, rfl⟩

theorem untold_wr {a v : Nat} (ha : TB_OFS_CFG ≠ a ∧ EV_NEXT_SEQ ≠ a) (h : Untold s x) : Untold s (x.wr a v) where
  events := h.events
  now := (wr_now _ _ _ ha.1).trans h.now
  next := by
    rw [State.get, rd_wr_ne _ _ ha.2]
    exact h.next

theorem untold_put {f : Fld} {v : Nat} (ha : TB_OFS_CFG ≠ f.addr ∧ EV_NEXT_SEQ ≠ f.addr) (h : Untold s x) :
    Untold s (x.put f v) := untold_wr ha h

theorem untold_each {α : Type} {f : State → α → State} {l : List α} (h : Untold s x)
    (hf : ∀ y, Untold s y → ∀ a ∈ l, Untold s (f y a)) : Untold s (x.each l f) := by
  induction l generalizing x with
  | nil => exact h
  | cons a l ih => exact ih (hf x h a List.mem_cons_self) fun y hy b hb => hf y hy b (List.mem_cons_of_mem _ hb)

theorem untold_ite {c : Prop} [Decidable c] {y : State} (hx : Untold s x) (hy : Untold s y) :
    Untold s (if c then x else y) := by
  split <;> assumption

theorem untold_copy {k : Nat} {w : List Nat} (h : Untold s x) : Untold s (x.copy k w) :=
  untold_ite (⟨h.events, h.now, h.next⟩) h

theorem untold_wrCopy {a v : Nat} (ha : TB_OFS_CFG ≠ a ∧ EV_NEXT_SEQ ≠ a) (h : Untold s x) : Untold s (x.wrCopy a v) :=
  untold_copy (untold_wr ha h)

theorem untold_wasteCopy {causes : Nat} {lo hi : Int} (h : Untold s x) : Untold s (x.wasteCopy causes lo hi) :=
  untold_copy (untold_put (by decide) ⟨h.events, h.now, h.next⟩)

/-- An event raised there is the first one. -/
theorem Untold.reports (h : Untold s x) (code a0 a1 a2 : Nat) : Reports s (x.raise code a0 a1 a2) code a0 a1 a2 :=
  (raise_reports x code a0 a1 a2).congr h.events h.now h.next

end

end Sys2Proof.Proofs
end

section
open Sys2Proof Sys2Proof.Machine
namespace Sys2Proof.Proofs
/-! Errors of the store; strips fetched and decoded (O23). -/

/-- A saturating counter after a step. -/
theorem get_addSat (s : State) (f : Fld) (n : Nat) (h : f.lo ≤ f.hi + 1) (hh : f.hi < 32) :
    (s.addSat f n).get f = min (s.get f + n) (2 ^ (f.hi + 1 - f.lo) - 1) := by
  rw [State.addSat, get_put_same s f _ h hh, Nat.mod_eq_of_lt]
  exact Nat.lt_of_le_of_lt (Nat.min_le_right _ _) (Nat.sub_lt (Nat.two_pow_pos _) Nat.one_pos)

/-! An uncorrectable error (R44, R45). -/

/-- A store address in a slot's data names a slot of a generation that the unit holds. -/
theorem surf_of_slotAt {s : State} {a id gen k : Nat} (h : s.slotAt a = some (id, gen, k)) : ∃ f, s.surf id gen = some f := by
  obtain ⟨f, hf, hk⟩ := List.mem_flatMap.1 (List.mem_of_head? h)
  obtain ⟨p, -, hp⟩ := List.mem_map.1 hk
  obtain ⟨hid, hgen, -⟩ : f.id = id ∧ f.gen = gen ∧ p.1 = k := by simpa using hp
  exact Option.isSome_iff_exists.1 (List.find?_isSome.2 ⟨f, hf, by simp [hid, hgen]⟩)

/-- An uncorrectable error counted and latched. -/
def ueLatched (s : State) (block : Nat) : State :=
  ((s.addSat MC_ECC_UE_COUNT 1).put MC_ECC_UE_ADDR_BLOCK block).put MC_ECC_UE_ADDR_SUBCH (block % 4)

/-- And reported. -/
def ueTold (s : State) (block : Nat) : State := (ueLatched s block).raise 0x3103 (block % 4) (block % 2 ^ 30) 0

theorem untold_ueLatched (s : State) (block : Nat) : Untold s (ueLatched s block) :=
  untold_put (by decide) (untold_put (by decide) (untold_put (by decide) (untold_refl s)))

theorem ueTold_rest (s : State) (block : Nat) : Rest (ueLatched s block) (ueTold s block) := by
  rw [ueTold]
  exact rest_raise ..

theorem ueLatched_ingest (s : State) (block : Nat) : (ueLatched s block).ingest = s.ingest := by
  rw [ueLatched, put_ingest, put_ingest, State.addSat, put_ingest]

theorem ueTold_slotAt (s : State) (block a : Nat) : (ueTold s block).slotAt a = s.slotAt a := by
  rw [State.slotAt, State.slotAt, rest_ingest (ueTold_rest s block), ueLatched_ingest]

theorem ueTold_count (s : State) (block : Nat) :
    (ueTold s block).get MC_ECC_UE_COUNT = min (s.get MC_ECC_UE_COUNT + 1) (2 ^ 32 - 1) := by
  rw [(ueTold_rest s block).get _ (by decide), ueLatched, get_put_ne _ _ _ _ (by decide), get_put_ne _ _ _ _ (by decide),
    get_addSat _ _ _ (by decide) (by decide)]
  norm_num

/-- The slot the error lies in is BAD, and every line that depends on it VOID. -/
def ueSlot (s : State) (key : Nat × Nat × Nat) : State :=
  (s.modSlot key.1 key.2.1 key.2.2 fun x => { x with state := stBad, ue := true }).each (List.range 96) fun s ch =>
    s.each ((s.chanLines ch).filter fun x => x.deps.contains key) fun s x => s.lineVoid ch x

theorem laneOnly_ueSlot (s : State) (key : Nat × Nat × Nat) :
    LaneOnly (s.modSlot key.1 key.2.1 key.2.2 fun x => { x with state := stBad, ue := true }) (ueSlot s key) :=
  laneOnly_each (laneOnly_refl _) fun _ hy _ hch =>
    laneOnly_each hy fun _ hz _ _ => laneOnly_lineVoid (List.mem_range.1 hch) hz

theorem exec_storeUe_apart {t block : Nat} {c0 : Bool} {s : State} (hc : s.core = .running)
    (h : c0 = true → s.slotAt (block * 64) = none) :
    exec (.storeUe t block c0) s = .next ((ueTold (s.advance t) block).whenRunning settle) := by
  have none_ (hc0 : c0 = true) : (ueTold (s.advance t) block).slotAt (block * 64) = none :=
    (ueTold_slotAt ..).trans (h hc0)
  show execStoreUe t block c0 s = _
  rw [execStoreUe, run_on hc]
  cases c0 with
  | false => rfl
  | true =>
    rw [ueTold, ueLatched] at none_
    simp only [if_true, none_ rfl]
    rfl

theorem exec_storeUe_slot {t block : Nat} {key : Nat × Nat × Nat} {s : State} (hc : s.core = .running)
    (h : s.slotAt (block * 64) = some key) :
    exec (.storeUe t block true) s = .next ((ueSlot (ueTold (s.advance t) block) key).whenRunning settle) := by
  have some_ : (ueTold (s.advance t) block).slotAt (block * 64) = some key := (ueTold_slotAt ..).trans h
  show execStoreUe t block true s = _
  rw [execStoreUe, run_on hc]
  rw [ueTold, ueLatched] at some_
  simp only [if_true, some_]
  rfl

/-! Strips (R92, R93, R95, R101). -/

section Strip
variable {s : State} {id gen k : Nat} {r : PageRun}

theorem untold_wasteStrip {x : State} (h : Untold s x) : Untold s (x.wasteStrip r id gen k) := by
  simp only [State.wasteStrip]
  split
  · exact h
  · exact untold_each h fun y hy n _ => untold_ite (untold_wasteCopy hy) hy

theorem rest_wasteStrip (s : State) : Rest s (s.wasteStrip r id gen k) := by
  simp only [State.wasteStrip]
  split
  · exact Rest.refl s
  · refine rest_each _ _ (fun y n => ?_) s
    split
    · exact rest_wasteCopy ..
    · exact Rest.refl y

/-- A strip delivered whole and sound. -/
def delivered (s : State) (id gen k : Nat) : State :=
  ({ s with ingest := { s.ingest with
      rawOut := s.ingest.rawOut + (s.slotOf id gen k).rawLen, fetched := s.ingest.fetched ++ [(id, gen, k)] } }).put
    CS_DEC_OUT_UNITS_64K ((s.ingest.rawOut + (s.slotOf id gen k).rawLen) / 65536)

theorem stripDeliver_sound (hr : (s.stripRead id gen k).reason = 0)
    (hw : s.ingest.waiting.filter (· != (id, gen, k)) = s.ingest.waiting) :
    s.stripDeliver r id gen k = delivered s id gen k := by
  have same : (s.rawOut (s.slotOf id gen k).rawLen).ingest.waiting = s.ingest.waiting := rfl
  rw [State.stripDeliver]
  simp only [hr, beq_self_eq_true, if_true, same, hw]
  rfl

/-- The raw form of a strip counted, and the strip no longer waiting. -/
def rawCounted (s : State) (id gen k : Nat) : State :=
  ({ s with ingest := { s.ingest with
      rawOut := s.ingest.rawOut + (s.slotOf id gen k).rawLen, waiting := s.ingest.waiting.filter (· != (id, gen, k)) } }).put
    CS_DEC_OUT_UNITS_64K ((s.ingest.rawOut + (s.slotOf id gen k).rawLen) / 65536)

theorem stripDeliver_faulty (hr : (s.stripRead id gen k).reason ≠ 0) :
    s.stripDeliver r id gen k = (rawCounted s id gen k).stripError r id gen k (s.stripRead id gen k) := by
  rw [State.stripDeliver]
  simp only [beq_iff_eq, hr, if_false]
  rfl

/-- A strip error counted and latched, its slot BAD. -/
def errLatched (s : State) (id gen k reason : Nat) : State :=
  (((s.modSlot id gen k fun x => { x with state := stBad, ue := false }).addSat CS_DEC_ERR_COUNT 1).wr CS_DEC_LAST
    (id + gen * 65536)).wr CS_DEC_LAST_SLOT (k % 2 ^ 24 + reason * 2 ^ 24)

theorem errLatched_ingest (s : State) (id gen k reason : Nat) :
    (errLatched s id gen k reason).ingest = (s.modSlot id gen k fun x => { x with state := stBad, ue := false }).ingest := by
  rw [errLatched, wr_ingest, wr_ingest, State.addSat, put_ingest]

theorem rd_errLatched (s : State) (id gen k reason : Nat) :
    (errLatched s id gen k reason).rd CS_DEC_LAST = (id + gen * 65536) % 2 ^ 32 ∧
    (errLatched s id gen k reason).get CS_DEC_ERR_COUNT = min (s.get CS_DEC_ERR_COUNT + 1) (2 ^ 32 - 1) ∧
    ∀ a, a ∉ [CS_DEC_ERR, CS_DEC_LAST, CS_DEC_LAST_SLOT] → (errLatched s id gen k reason).rd a = s.rd a := by
  refine ⟨?_, ?_, fun a ha => ?_⟩
  · rw [errLatched, rd_wr_ne _ _ (by decide), rd_wr_same]
  · rw [errLatched, State.get, rd_wr_ne _ _ (by decide), rd_wr_ne _ _ (by decide), ← State.get,
      get_addSat _ _ _ (by decide) (by decide)]
    rfl
  · obtain ⟨hc, hl, hs⟩ : a ≠ CS_DEC_ERR ∧ a ≠ CS_DEC_LAST ∧ a ≠ CS_DEC_LAST_SLOT := by simpa using ha
    rw [errLatched, rd_wr_ne _ _ hs, rd_wr_ne _ _ hl, State.addSat, rd_put_ne _ _ _ hc]
    rfl

theorem untold_errLatched {x : State} {reason : Nat} (h : Untold s x) : Untold s (errLatched x id gen k reason) :=
  untold_wr (by decide) (untold_wr (by decide) (untold_put (by decide) ⟨h.events, h.now, h.next⟩))

/-- A state with one failed strip more. -/
def withFailed (s : State) (x : Failed) : State :=
  { s with ingest := { s.ingest with failed := s.ingest.failed ++ [x] } }

/-- What a strip error shows. -/
theorem stripError_shows {f : Surface} {d : StripRead} (hf : s.surf id gen = some f) :
    ∀ y, s.stripError r id gen k d = y →
      (y.slotOf id gen k).state = stBad ∧
      y.get CS_DEC_ERR_COUNT = min (s.get CS_DEC_ERR_COUNT + 1) (2 ^ 32 - 1) ∧
      y.rd CS_DEC_LAST = (id + gen * 65536) % 2 ^ 32 ∧
      Reports s y 0x3201 d.reason (packGen id gen) k ∧
      y.get CS_DEC_STAT_BUSY = s.get CS_DEC_STAT_BUSY ∧ y.ingest.waiting = s.ingest.waiting := by
  rintro y hy
  obtain ⟨x, hx, R, U⟩ : ∃ x, (if s.authoritative then s.wasteStrip r id gen k else s) = x ∧ Rest s x ∧ Untold s x := by
    split
    · exact ⟨_, rfl, rest_wasteStrip s, untold_wasteStrip (untold_refl s)⟩
    · exact ⟨_, rfl, Rest.refl s, untold_refl s⟩
  obtain ⟨z, hz⟩ : ∃ z, (errLatched x id gen k d.reason).raise 0x3201 d.reason (packGen id gen) k = z := ⟨_, rfl⟩
  have told : y = withFailed z ⟨id, gen, k, r.ord, r.page, d.samples⟩ := by
    rw [← hy, State.stripError]
    simp only [hx, ← hz]
    rfl
  have Z : Rest (errLatched x id gen k d.reason) z := by rw [← hz]; exact rest_raise ..
  have reported : Reports s z 0x3201 d.reason (packGen id gen) k := by
    rw [← hz]; exact (untold_errLatched U).reports ..
  have ingest : z.ingest = (x.modSlot id gen k fun x => { x with state := stBad, ue := false }).ingest :=
    (rest_ingest Z).trans (errLatched_ingest ..)
  have held : x.surf id gen = some f := by
    rw [State.surf, rest_ingest R]
    exact hf
  obtain ⟨last, count, others⟩ := rd_errLatched x id gen k d.reason
  rw [told]
  refine ⟨?_, ?_, ?_, reported, ?_, ?_⟩
  · show (z.slotOf id gen k).state = _
    rw [slotOf_congr (x := x.modSlot id gen k fun x => { x with state := stBad, ue := false })
      (congrArg Ingest.surfs ingest), slotOf_modSlot x id gen k _ held]
  · exact (Z.get _ (by decide)).trans (count.trans (by rw [R.get _ (by decide)]))
  · exact (Z.words _ (by decide)).trans last
  · show z.get CS_DEC_STAT_BUSY = _
    rw [Z.get _ (by decide), State.get, others _ (by decide), ← State.get, R.get _ (by decide)]
  · have waits : x.ingest.waiting = s.ingest.waiting := congrArg Ingest.waiting (rest_ingest R)
    exact (congrArg Ingest.waiting ingest).trans waits

/-- What a strip error shows of a delivery. -/
theorem stripDeliver_shows (hr : (s.stripRead id gen k).reason ≠ 0) (hu : (s.slotOf id gen k).readable = true) :
    ∀ y, s.stripDeliver r id gen k = y →
      (y.slotOf id gen k).state = stBad ∧
      y.get CS_DEC_ERR_COUNT = min (s.get CS_DEC_ERR_COUNT + 1) (2 ^ 32 - 1) ∧
      y.rd CS_DEC_LAST = (id + gen * 65536) % 2 ^ 32 ∧
      Reports s y 0x3201 (s.stripRead id gen k).reason (packGen id gen) k ∧
      y.get CS_DEC_STAT_BUSY = s.get CS_DEC_STAT_BUSY ∧
      y.ingest.waiting = s.ingest.waiting.filter (· != (id, gen, k)) := by
  intro y hy
  have used : (s.slotOf id gen k).state ≠ stEmpty := fun e => by
    rw [Slot.readable, e] at hu
    exact absurd hu (by decide)
  obtain ⟨f, hf⟩ := surf_of_slot_used used
  have held : (rawCounted s id gen k).surf id gen = some f := hf
  rw [stripDeliver_faulty hr] at hy
  obtain ⟨slot, count, last, reported, busy, waiting⟩ := stripError_shows held y hy
  have kept (g : Fld) (hg : g.addr ≠ CS_DEC_OUT) : (rawCounted s id gen k).get g = s.get g :=
    get_put_ne _ _ _ _ hg
  obtain ⟨m, hm⟩ := reported
  have untold : Untold s (rawCounted s id gen k) := untold_put (by decide) ⟨rfl, rfl, rfl⟩
  rw [kept _ (by decide)] at count busy
  exact ⟨slot, count, last, Reports.congr ⟨m, hm⟩ untold.events untold.now untold.next, busy, waiting⟩

section Fetch
variable {t : Nat} (hc : s.core = .running) (hu : s.userOf id gen = some r) (hr : (s.slotOf id gen k).readable = true)
  (hf : s.ingest.fetched.contains (id, gen, k) = false) (hw : s.ingest.waiting.contains (id, gen, k) = false)
  (hd : s.ingest.decoding.any (·.2 == (id, gen, k)) = false)
include hc hu hr hf hw hd

/-- What fetching a due strip that no decoder has does. -/
theorem exec_stripFetch : exec (.stripFetch t id gen k) s = .next
    ((if (s.stripRead id gen k).reason == 1 || (s.stripRead id gen k).reason == 2 || (s.slotOf id gen k).mode == 0 ||
          (s.slotOf id gen k).mode == 3 then (s.advance t).stripDeliver r id gen k
      else match (List.range 16).find? (fun n => !s.bitOf CS_DEC_STAT_BUSY n) with
        | none => { s.advance t with ingest := { s.ingest with waiting := s.ingest.waiting ++ [(id, gen, k)] } }
        | some n => (s.advance t).decodeBegin n (id, gen, k)).whenRunning settle) := by
  have user : (s.advance t).userOf id gen = some r := hu
  have due : (s.advance t).stripDue id gen k = true := by
    show ((s.slotOf id gen k).readable && !s.ingest.fetched.contains (id, gen, k)) = true
    rw [hr, hf]; rfl
  have free : (!(s.advance t).stripDue id gen k || (s.advance t).ingest.decoding.any (·.2 == (id, gen, k)) ||
      (s.advance t).ingest.waiting.contains (id, gen, k)) = false := by
    rw [due, show (s.advance t).ingest.decoding.any (·.2 == (id, gen, k)) = false from hd,
      show (s.advance t).ingest.waiting.contains (id, gen, k) = false from hw]
    rfl
  show execStripFetch t id gen k s = _
  rw [execStripFetch, run_on hc]
  simp only [user, free, Bool.false_eq_true, if_false]
  rfl

theorem exec_stripFetch_whole (hm : (s.stripRead id gen k).reason = 1 ∨ (s.stripRead id gen k).reason = 2 ∨
      (s.slotOf id gen k).mode = 0 ∨ (s.slotOf id gen k).mode = 3) :
    exec (.stripFetch t id gen k) s = .next (((s.advance t).stripDeliver r id gen k).whenRunning settle) := by
  rw [exec_stripFetch hc hu hr hf hw hd, if_pos]
  rcases hm with h | h | h | h <;> simp [h]

theorem exec_stripFetch_decoded (h1 : (s.stripRead id gen k).reason ≠ 1) (h2 : (s.stripRead id gen k).reason ≠ 2)
    (hm : (s.slotOf id gen k).mode = 1 ∨ (s.slotOf id gen k).mode = 2) :
    exec (.stripFetch t id gen k) s = .next ((match (List.range 16).find? (fun n => !s.bitOf CS_DEC_STAT_BUSY n) with
        | none => { s.advance t with ingest := { s.ingest with waiting := s.ingest.waiting ++ [(id, gen, k)] } }
        | some n => (s.advance t).decodeBegin n (id, gen, k)).whenRunning settle) := by
  rw [exec_stripFetch hc hu hr hf hw hd, if_neg]
  rcases hm with h | h <;> simp [h, h1, h2]

end Fetch

/-- A decoder given to a strip that none waits as. -/
theorem decodeBegin_eq {n : Nat} {key : Nat × Nat × Nat} (hw : s.ingest.waiting.filter (· != key) = s.ingest.waiting) :
    s.decodeBegin n key = ({ s with ingest := { s.ingest with
      decoding := s.ingest.decoding ++ [(n, key)] } }).setBitOf CS_DEC_STAT_BUSY n true := by
  rw [State.decodeBegin, hw]
  rfl

/-- A decoder freed. -/
def decoderFreed (s : State) (n : Nat) : State :=
  { s.setBitOf CS_DEC_STAT_BUSY n false with ingest := { s.ingest with decoding := s.ingest.decoding.filter (·.1 != n) } }

/-- What the end of a decode does with a due strip. -/
theorem exec_stripDecodeEnd {t n : Nat} (hc : s.core = .running) (hu : s.userOf id gen = some r)
    (hr : (s.slotOf id gen k).readable = true) (hf : s.ingest.fetched.contains (id, gen, k) = false)
    (hd : s.ingest.decoding.find? (·.1 == n) = some (n, id, gen, k)) : ∀ y,
    (decoderFreed (s.advance t) n).stripDeliver r id gen k = y →
    exec (.stripDecodeEnd t n) s = .next ((match y.decodeNext with
      | some key => y.decodeBegin n key
      | none => y).whenRunning settle) := by
  rintro y rfl
  have found : (s.advance t).ingest.decoding.find? (·.1 == n) = some (n, id, gen, k) := hd
  have user : (decoderFreed (s.advance t) n).userOf id gen = some r := hu
  have due : (decoderFreed (s.advance t) n).stripDue id gen k = true := by
    show ((s.slotOf id gen k).readable && !s.ingest.fetched.contains (id, gen, k)) = true
    rw [hr, hf]; rfl
  show execStripDecodeEnd t n s = _
  rw [execStripDecodeEnd, run_on hc]
  rw [decoderFreed] at user due
  simp only [found, user, due, if_true]
  rfl

end Strip

theorem decodeNext_none {s : State} (h : s.ingest.waiting = []) : s.decodeNext = none := by
  rw [State.decodeNext, h]
  rfl

theorem decodeNext_only {s : State} {key : Nat × Nat × Nat} (h : s.ingest.waiting = [key])
    (hd : s.stripDue key.1 key.2.1 key.2.2 = true) (hu : (s.userOf key.1 key.2.1).isSome = true) :
    s.decodeNext = some key := by
  obtain ⟨r, hr⟩ := Option.isSome_iff_exists.1 hu
  rw [State.decodeNext, h]
  simp [hd, hr]

theorem bitOf_setBitOf (s : State) {f : Fld} {n : Nat} (b : Bool) (hn : n < f.hi + 1 - f.lo) (h : f.lo ≤ f.hi + 1)
    (hh : f.hi < 32) : (s.setBitOf f n b).bitOf f n = b := by
  rw [State.bitOf, State.setBitOf, get_put_same _ _ _ h hh, bit, Nat.testBit_mod_two_pow, setBit,
    testBit_setBits _ _ _ _ _ (by omega)]
  cases b <;> simp [hn]

theorem ueTold_reports {s y : State} {block : Nat} (g : Grows (ueTold s block) y) :
    Reports s y 0x3103 (block % 4) (block % 2 ^ 30) 0 :=
  ((untold_ueLatched s block).reports ..).grows g

theorem filter_ne_of_not_mem {α : Type} [BEq α] [LawfulBEq α] {l : List α} {a : α} (h : l.contains a = false) :
    l.filter (· != a) = l := by
  rw [List.filter_eq_self]
  intro x hx
  rw [bne_iff_ne]
  rintro rfl
  simp [hx] at h

/-- Settles O23: an error is counted and latched before it is reported, and what follows it in the lanes touches no
register of the store; a strip's delivery, sound or faulty, is one effect, whether the fetch unit or a decoder ends it. -/
theorem storeErrorsAndStrips : Obligations.StoreErrorsAndStrips := by
  unfold Obligations.StoreErrorsAndStrips
  refine ⟨fun t s hc => ⟨?ce, fun n => ?scrub, fun block c0 h => ?apart, fun block id gen k h => ?slot⟩,
    fun t id gen k r s hc hu hr hf hw => ⟨fun hd h0 hm => ?raw, fun n hd h1 h2 hm hn => ?decoded,
      fun hd h1 h2 hm hn => ?waits, fun hd h12 => ?header, fun n hd hn h0 hw0 => ?ends,
      fun n key hd hn h0 hw1 hk hdue hu' => ?takes, fun n hd hn h0 hw0 => ?fails⟩⟩
  case ce => exact run_rest hc (Rest.refl _)
  case scrub => exact run_rest hc (Rest.refl _)
  case apart =>
    rw [exec_storeUe_apart hc h]
    exact ⟨_, rfl, ueTold_reports (grows_whenRunning _), (ueTold_rest (s.advance t) block).trans (rest_whenRunning _)⟩
  case slot =>
    rw [exec_storeUe_slot hc h]
    have L := laneOnly_ueSlot (ueTold (s.advance t) block) (id, gen, k)
    have R := rest_whenRunning (ueSlot (ueTold (s.advance t) block) (id, gen, k))
    obtain ⟨f, hf⟩ := surf_of_slotAt ((ueTold_slotAt (s.advance t) block _).trans h)
    have slot : (((ueSlot (ueTold (s.advance t) block) (id, gen, k)).whenRunning settle).slotOf id gen k) = _ :=
      (slotOf_congr (congrArg Ingest.surfs ((rest_ingest R).trans L.ingest)) id gen k).trans (slotOf_modSlot _ id gen k _ hf)
    refine ⟨_, rfl, by rw [slot], by rw [slot], ?_, ?_⟩
    · rw [R.get _ (by decide), State.get, L.words _ (by decide) (by decide)]
      exact ueTold_count (s.advance t) block
    · exact (ueTold_reports L.grows).grows (grows_whenRunning _)
  case raw =>
    rw [exec_stripFetch_whole hc hu hr hf hw hd (.inr (.inr hm)),
      stripDeliver_sound (s := s.advance t) h0 (filter_ne_of_not_mem hw)]
    exact ⟨_, rfl, rest_whenRunning _⟩
  case decoded =>
    rw [exec_stripFetch_decoded hc hu hr hf hw hd h1 h2 hm]
    simp only [hn]
    rw [decodeBegin_eq (s := s.advance t) (filter_ne_of_not_mem hw)]
    exact ⟨_, rfl, rest_whenRunning _⟩
  case waits =>
    have none_ : (List.range 16).find? (fun n => !s.bitOf CS_DEC_STAT_BUSY n) = none := by
      rw [List.find?_eq_none]
      intro n hn16
      simp [hn n (List.mem_range.1 hn16)]
    rw [exec_stripFetch_decoded hc hu hr hf hw hd h1 h2 hm]
    simp only [none_]
    exact ⟨_, rfl, rest_whenRunning _⟩
  case header =>
    have h0 : ((s.advance t).stripRead id gen k).reason ≠ 0 := by
      show (s.stripRead id gen k).reason ≠ 0
      rcases h12 with h | h <;> rw [h] <;> decide
    rw [exec_stripFetch_whole hc hu hr hf hw hd (by tauto)]
    obtain ⟨slot, count, last, reported, -, -⟩ := stripDeliver_shows (s := s.advance t) (r := r) h0 hr _ rfl
    have R := rest_whenRunning ((s.advance t).stripDeliver r id gen k)
    exact ⟨_, rfl, by rw [slotOf_congr (congrArg Ingest.surfs (rest_ingest R)), slot], (R.get _ (by decide)).trans count,
      (R.words _ (by decide)).trans last, reported.grows (grows_whenRunning _)⟩
  case ends =>
    have none_ : (decoderFreed (s.advance t) n).ingest.waiting.filter (· != (id, gen, k)) = s.ingest.waiting := by
      show s.ingest.waiting.filter _ = _
      rw [hw0]; rfl
    rw [exec_stripDecodeEnd hc hu hr hf hd _ (stripDeliver_sound (s := decoderFreed (s.advance t) n) h0 none_)]
    rw [decodeNext_none (s := delivered (decoderFreed (s.advance t) n) id gen k) hw0]
    exact ⟨_, rfl, rest_whenRunning _⟩
  case takes =>
    have kept : (decoderFreed (s.advance t) n).ingest.waiting.filter (· != (id, gen, k)) = s.ingest.waiting := by
      show s.ingest.waiting.filter _ = _
      rw [hw1]
      simp [hk]
    rw [exec_stripDecodeEnd hc hu hr hf hd _ (stripDeliver_sound (s := decoderFreed (s.advance t) n) h0 kept)]
    have due : (delivered (decoderFreed (s.advance t) n) id gen k).stripDue key.1 key.2.1 key.2.2 = true := by
      show ((s.slotOf key.1 key.2.1 key.2.2).readable && !(s.ingest.fetched ++ [(id, gen, k)]).contains key) = true
      rw [State.stripDue] at hdue
      simp only [Bool.and_eq_true, Bool.not_eq_true'] at hdue ⊢
      refine ⟨hdue.1, ?_⟩
      have other : key ∉ s.ingest.fetched := by simpa using hdue.2
      simp [other, hk]
    rw [decodeNext_only (s := delivered (decoderFreed (s.advance t) n) id gen k) hw1 due hu']
    have R := rest_whenRunning ((delivered (decoderFreed (s.advance t) n) id gen k).decodeBegin n key)
    have I := rest_ingest R
    refine ⟨_, rfl, ?_, ?_, ?_, ?_⟩
    · rw [I]
      show s.ingest.waiting.filter _ = []
      rw [hw1]
      simp
    · rw [State.bitOf, R.get _ (by decide)]
      exact bitOf_setBitOf (delivered (decoderFreed (s.advance t) n) id gen k) true hn (by decide) (by decide)
    · rw [I]; rfl
    · rw [I]; rfl
  case fails =>
    obtain ⟨y, hy⟩ : ∃ y, (decoderFreed (s.advance t) n).stripDeliver r id gen k = y := ⟨_, rfl⟩
    obtain ⟨slot, count, -, reported, busy, waiting⟩ :=
      stripDeliver_shows (s := decoderFreed (s.advance t) n) (r := r) h0 hr y hy
    have none_ : y.ingest.waiting = [] := by
      rw [waiting]
      show s.ingest.waiting.filter _ = []
      rw [hw0]; rfl
    rw [exec_stripDecodeEnd hc hu hr hf hd y hy, decodeNext_none none_]
    have R := rest_whenRunning y
    have freed : Untold (s.advance t) ((s.advance t).setBitOf CS_DEC_STAT_BUSY n false) :=
      untold_put (by decide) (untold_refl _)
    have untold : Untold (s.advance t) (decoderFreed (s.advance t) n) := ⟨freed.events, freed.now, freed.next⟩
    have errors : (decoderFreed (s.advance t) n).get CS_DEC_ERR_COUNT = s.get CS_DEC_ERR_COUNT :=
      get_put_ne (s.advance t) CS_DEC_STAT_BUSY CS_DEC_ERR_COUNT _ (by decide)
    refine ⟨_, rfl, ?_, ?_, ?_, ?_⟩
    · rw [State.bitOf, R.get _ (by decide), busy]
      exact bitOf_setBitOf (s.advance t) false hn (by decide) (by decide)
    · rw [slotOf_congr (congrArg Ingest.surfs (rest_ingest R)), slot]
    · rw [R.get _ (by decide), count, errors]
    · exact (reported.congr untold.events untold.now untold.next).grows (grows_whenRunning _)

end Sys2Proof.Proofs
end

section
open Sys2Proof Sys2Proof.Machine
namespace Sys2Proof.Proofs
/-! The scan's own events, the release of SPEED_REQ and the next job after a drain (O22). -/

/-! PG_EVT_STAT's latches of the printing page. -/

/-- The three latches of the printing page are as they were, and the event ring only grew. -/
structure Latched (s y : State) : Prop where
  gap : y.get PG_EVT_STAT_GAP_START = s.get PG_EVT_STAT_GAP_START
  line : y.get PG_EVT_STAT_LINE_MATCH = s.get PG_EVT_STAT_LINE_MATCH
  page : y.get PG_EVT_STAT_PAGE_DONE = s.get PG_EVT_STAT_PAGE_DONE
  grows : Grows s y

section
variable {s x : State}

theorem latched_refl (s : State) : Latched s s := ⟨rfl, rfl, rfl, Grows.refl s⟩

theorem latched_of_word {y : State} (h : Latched s x) (hw : y.rd PG_EVT_STAT = x.rd PG_EVT_STAT) (g : Grows x y) :
    Latched s y := by
  have kept (f : Fld) (hf : f.addr = PG_EVT_STAT) : y.get f = x.get f := by rw [State.get, State.get, hf, hw]
  exact ⟨(kept _ rfl).trans h.gap, (kept _ rfl).trans h.line, (kept _ rfl).trans h.page, h.grows.trans g⟩

theorem latched_same {y : State} (h : Latched s x) (hw : y.words = x.words) (he : y.events = x.events) : Latched s y :=
  latched_of_word h (by rw [State.rd, State.rd, hw]) (.of_eq he)

theorem latched_rest {y : State} (h : Latched s x) (r : Rest x y) (g : Grows x y) : Latched s y :=
  latched_of_word h (r.words _ (by decide)) g

theorem latched_put {f : Fld} {v : Nat} (hf : PG_EVT_STAT ≠ f.addr) (h : Latched s x) : Latched s (x.put f v) :=
  latched_of_word h (rd_put_ne _ _ _ hf) (.of_eq rfl)

theorem latched_wr {a v : Nat} (ha : PG_EVT_STAT ≠ a) (h : Latched s x) : Latched s (x.wr a v) :=
  latched_of_word h (rd_wr_ne _ _ ha) (.of_eq rfl)

theorem latched_ite {c : Prop} [Decidable c] {y : State} (hx : Latched s x) (hy : Latched s y) :
    Latched s (if c then x else y) := by
  split <;> assumption

theorem latched_each {α : Type} {f : State → α → State} {l : List α} (h : Latched s x)
    (hf : ∀ y, Latched s y → ∀ a ∈ l, Latched s (f y a)) : Latched s (x.each l f) := by
  induction l generalizing x with
  | nil => exact h
  | cons a l ih => exact ih (hf x h a List.mem_cons_self) fun y hy b hb => hf y hy b (List.mem_cons_of_mem _ hb)

/-- REF_SUBST stands in the same register as the latches. -/
theorem latched_refSubst {b : Bool} (h : Latched s x) : Latched s (x.flag PG_EVT_STAT_REF_SUBST b) where
  gap := (get_put_apart _ _ _ _ (by decide) (by decide) (by decide)).trans h.gap
  line := (get_put_apart _ _ _ _ (by decide) (by decide) (by decide)).trans h.line
  page := (get_put_apart _ _ _ _ (by decide) (by decide) (by decide)).trans h.page
  grows := h.grows.trans (.of_eq rfl)

end

/-! PG_CUR_PAGE and PG_CUR_LINE. -/

section
variable {s x : State}

theorem rd_curShow (s : State) {a : Nat} (hp : a ≠ PG_CUR_PAGE) (hl : a ≠ PG_CUR_LINE) : s.curShow.rd a = s.rd a := by
  simp only [State.curShow]
  split
  · rfl
  · rw [rd_wr_ne _ _ hl, rd_wr_ne _ _ hp]
    rfl

theorem untold_curShow (h : Untold s x) : Untold s x.curShow := by
  simp only [State.curShow]
  split
  · exact h
  · exact untold_wr (by decide) (untold_wr (by decide) ⟨h.events, h.now, h.next⟩)

theorem latched_curShow (h : Latched s x) : Latched s x.curShow :=
  latched_of_word h (rd_curShow x (by decide) (by decide)) (.of_eq (untold_curShow (untold_refl x)).events)

/-! GAP_START and LINE_MATCH. -/

/-- A latch of PG_EVT_STAT set, with what PG_CUR and REF_SUBST then show. -/
def latchSet (s : State) (f : Fld) (b : Nat) : State :=
  ((s.flag f true).curShow).flag PG_EVT_STAT_REF_SUBST (b != ((s.flag f true).curShow).get PG_EVT_CFG_REF_BAR)

theorem get_latchSet_ref (s : State) (f : Fld) (b : Nat) (hf : f.addr = PG_EVT_STAT) :
    (latchSet s f b).get PG_EVT_STAT_REF_SUBST = b2n (b != s.get PG_EVT_CFG_REF_BAR) := by
  have bar : ((s.flag f true).curShow).get PG_EVT_CFG_REF_BAR = s.get PG_EVT_CFG_REF_BAR := by
    rw [State.get, rd_curShow _ (by decide) (by decide), ← State.get]
    exact get_put_ne _ _ _ _ (by rw [hf]; decide)
  rw [latchSet, bar]
  refine (get_put_same _ _ _ (by decide) (by decide)).trans (Nat.mod_eq_of_lt (b2n_lt _))

theorem get_latchSet (s : State) {f g : Fld} (b : Nat) (hg : g.addr = PG_EVT_STAT) (hr : 8 < g.lo ∨ g.hi < 8) :
    (latchSet s f b).get g = (s.flag f true).get g := by
  rw [latchSet]
  refine (get_put_apart _ _ _ _ (by decide) (by decide) hr).trans ?_
  rw [State.get, rd_curShow _ (by rw [hg]; decide) (by rw [hg]; decide), ← State.get]

theorem rd_latchSet (s : State) {f : Fld} (b : Nat) (hf : f.addr = PG_EVT_STAT) {a : Nat}
    (ha : a ∉ [PG_EVT_STAT, PG_CUR_PAGE, PG_CUR_LINE]) : (latchSet s f b).rd a = s.rd a := by
  obtain ⟨he, hp, hl⟩ : a ≠ PG_EVT_STAT ∧ a ≠ PG_CUR_PAGE ∧ a ≠ PG_CUR_LINE := by simpa using ha
  rw [latchSet]
  refine (rd_put_ne _ _ _ he).trans ((rd_curShow _ hp hl).trans (rd_put_ne _ _ _ (by rw [hf]; exact he)))

theorem untold_latchSet {f : Fld} {b : Nat} (hf : f.addr = PG_EVT_STAT) (h : Untold s x) : Untold s (latchSet x f b) :=
  untold_put (by decide) (untold_curShow (untold_put (by rw [hf]; decide) h))

/-- What setting a latch and reporting it show once the command has ended. -/
theorem latch_told {s z s' : State} {f : Fld} {b code a1 : Nat} (hf : f.addr = PG_EVT_STAT) (h7 : f.lo ≤ f.hi ∧ f.hi < 8)
    (hw : z.words = s.words) (U : Untold s z)
    (hs' : ((latchSet z f b).raise code b a1 0).whenRunning settle = s') :
    s'.get f = 1 % 2 ^ (f.hi + 1 - f.lo) ∧ s'.get PG_EVT_STAT_REF_SUBST = b2n (b != s.get PG_EVT_CFG_REF_BAR) ∧
      Reports s s' code b a1 0 ∧
      (∀ g : Fld, g.addr = PG_EVT_STAT → f.hi < g.lo ∨ g.hi < f.lo → 8 < g.lo ∨ g.hi < 8 → s'.get g = s.get g) ∧
      ∀ a, a ∉ shown → a ∉ [PG_EVT_STAT, PG_CUR_PAGE, PG_CUR_LINE] → s'.rd a = s.rd a := by
  have R : Rest (latchSet z f b) s' := by
    rw [← hs']
    exact (rest_raise ..).trans (rest_whenRunning _)
  have same (g : Fld) : z.get g = s.get g := by rw [State.get, State.get, State.rd, State.rd, hw]
  refine ⟨?_, ?_, ?_, fun g hg hd hr => ?_, fun a ha hm => ?_⟩
  · rw [R.get _ (by rw [hf]; decide), get_latchSet _ _ hf (.inr h7.2)]
    exact get_put_same _ _ _ (by omega) (by omega)
  · rw [R.get _ (by decide), get_latchSet_ref _ _ _ hf, same]
  · rw [← hs']
    exact ((untold_latchSet hf U).reports ..).grows (grows_whenRunning _)
  · rw [R.get _ (by rw [hg]; decide), get_latchSet _ _ hg hr, ← same]
    exact get_put_apart _ _ _ _ (by omega) (by omega) hd
  · rw [R.words a ha, rd_latchSet _ _ hf hm, State.rd, hw]
    rfl

end

section Runs
variable {t slot page : Nat} {r : PageRun} {s : State} (hc : s.core = .running)
include hc

theorem exec_gapStart (hr : s.scan.runs.find? (fun r => r.job == slot && r.page == page && !r.gapStarted) = some r)
    (hf : (s.advance t).fired r (r.firstLine + r.lines) (s.refBar r) = true) (he : s.is PG_EVT_CFG_GAP_START_EN = true) :
    ∃ z, z.words = s.words ∧ Untold (s.advance t) z ∧ exec (.gapStart t slot page) s =
      .next (((latchSet z PG_EVT_STAT_GAP_START (s.refBar r)).raise 0x3301 (s.refBar r) (packPage slot page) 0).whenRunning
        settle) := by
  refine ⟨(s.advance t).modRun r.ord page fun r => { r with gapStarted := true }, rfl, ⟨rfl, rfl, rfl⟩, ?_⟩
  have enabled : (latchSet ((s.advance t).modRun r.ord page fun r => { r with gapStarted := true })
      PG_EVT_STAT_GAP_START (s.refBar r)).is PG_EVT_CFG_GAP_START_EN = true := by
    rw [State.is, State.get, rd_latchSet _ _ rfl (by decide)]
    exact he
  have found : (s.advance t).scan.runs.find? (fun r => r.job == slot && r.page == page && !r.gapStarted) = some r := hr
  show execGapStart t slot page s = _
  rw [execGapStart, run_on hc]
  rw [latchSet] at enabled
  simp only [found, show (s.advance t).refBar r = s.refBar r from rfl, hf, if_true, enabled]
  rfl

section Match
variable (hr : s.scan.runs.find? (fun r => r.job == slot && r.page == page && !r.matched) = some r)
include hr

theorem exec_lineMatch (hm : s.get PG_EVT_CFG_MATCH_LINE < r.lines + r.gapLines)
    (hf : (s.advance t).fired r (r.firstLine + s.get PG_EVT_CFG_MATCH_LINE) (s.refBar r) = true)
    (he : s.is PG_EVT_CFG_LINE_MATCH_EN = true) :
    ∃ z, z.words = s.words ∧ Untold (s.advance t) z ∧ exec (.lineMatch t slot page) s =
      .next (((latchSet z PG_EVT_STAT_LINE_MATCH (s.refBar r)).raise 0x3302 (s.refBar r) (packPage slot page) 0).whenRunning
        settle) := by
  refine ⟨(s.advance t).modRun r.ord page fun r => { r with matched := true }, rfl, ⟨rfl, rfl, rfl⟩, ?_⟩
  have enabled : (latchSet ((s.advance t).modRun r.ord page fun r => { r with matched := true })
      PG_EVT_STAT_LINE_MATCH (s.refBar r)).is PG_EVT_CFG_LINE_MATCH_EN = true := by
    rw [State.is, State.get, rd_latchSet _ _ rfl (by decide)]
    exact he
  have found : (s.advance t).scan.runs.find? (fun r => r.job == slot && r.page == page && !r.matched) = some r := hr
  have fires : (s.advance t).get PG_EVT_CFG_MATCH_LINE < r.lines + r.gapLines ∧
      (s.advance t).fired r (r.firstLine + (s.advance t).get PG_EVT_CFG_MATCH_LINE) (s.refBar r) = true := ⟨hm, hf⟩
  show execLineMatch t slot page s = _
  rw [execLineMatch, run_on hc]
  rw [latchSet] at enabled
  simp only [found, show (s.advance t).refBar r = s.refBar r from rfl, if_pos fires, enabled, if_true]
  rfl

theorem exec_lineMatch_beyond (hm : r.lines + r.gapLines ≤ s.get PG_EVT_CFG_MATCH_LINE) :
    exec (.lineMatch t slot page) s = .next ((s.advance t).whenRunning settle) := by
  have found : (s.advance t).scan.runs.find? (fun r => r.job == slot && r.page == page && !r.matched) = some r := hr
  have never : ¬((s.advance t).get PG_EVT_CFG_MATCH_LINE < r.lines + r.gapLines ∧
      (s.advance t).fired r (r.firstLine + (s.advance t).get PG_EVT_CFG_MATCH_LINE) ((s.advance t).refBar r) = true) :=
    fun h => absurd h.1 (Nat.not_lt.2 hm)
  show execLineMatch t slot page s = _
  rw [execLineMatch, run_on hc]
  simp only [found, if_neg never]

end Match

/-! PAGE_DONE. -/

/-- What PAGE_DONE leaves of a page, its latch set. -/
def pageEnded (s : State) (slot page : Nat) (r : PageRun) : State :=
  ((s.modRun r.ord page fun r => { r with done := true }).flag PG_EVT_STAT_PAGE_DONE true).modPage slot page
    fun p => { p with done := true }

end Runs

theorem latched_rateShow {s x : State} {b : Nat} (hb : b < 8) (h : Latched s x) : Latched s (x.rateShow b) := by
  refine latched_ite h (latched_each h fun y hy l hl => latched_put ?_ hy)
  obtain ⟨i, hi, rfl⟩ := List.mem_map.1 hl
  have word := lane_word (l := 12 * b + i) (o := 4) (by have := List.mem_range.1 hi; omega) (by decide)
  show PG_EVT_STAT ≠ laneBase (12 * b + i) + 4
  have : PG_EVT_STAT < 0x0C0000 := by decide
  omega

theorem latched_jobFree {s x : State} {slot : Nat} (h : Latched s x) : Latched s (x.jobFree slot) :=
  latched_each (latched_same h rfl rfl) fun _ hy _ hb => latched_rateShow (List.mem_range.1 (List.mem_filter.1 hb).1) hy

/-- A job's record with no valid STATE frees its entry. -/
theorem jobApply_free {s : State} {slot : Nat} (h : s.rd (jobWin slot + 4 * 4) = 0) : s.jobApply slot = s.jobFree slot := by
  rw [State.jobApply]
  simp only [h]
  rfl

theorem latched_objPut {s x : State} {slot : Nat} {ws : List Nat} (h : Latched s x) :
    Latched s (x.objPut (jobWin slot) ws) :=
  latched_of_word h (rd_objPut_outside _ _ _ fun k _ => by
    have : PG_EVT_STAT < 0x1D00000 := by decide
    rw [jobWin]
    omega) (.of_eq (objPut_events ..))

/-- An ended job's record is cleared and its entry let go. -/
theorem latched_jobsEnd {s x : State} (h : Latched s x) : Latched s x.jobsEnd := by
  refine latched_each h fun y hy j _ => ?_
  rw [jobApply_free (by rw [rd_objPut_inside _ _ _ 4 (by simp)]; rfl)]
  exact latched_jobFree (latched_objPut hy)

theorem latched_jobShow {s x : State} (h : Latched s x) : Latched s x.jobShow := by
  simp only [State.jobShow]
  split
  · exact latched_refSubst (latched_put (by decide) h)
  · exact latched_refSubst (latched_put (by decide) (latched_put (by decide) (latched_put (by decide) h)))

theorem modPage_scan (s : State) (slot page : Nat) (f : Page → Page) :
    ∃ sc, s.modPage slot page f = { s with scan := sc } := by
  simp only [State.modPage]
  split
  · exact ⟨_, rfl⟩
  · exact ⟨s.scan, rfl⟩

theorem pageEnded_eq (s : State) (slot page : Nat) (r : PageRun) :
    ∃ sc, pageEnded s slot page r = { s.flag PG_EVT_STAT_PAGE_DONE true with scan := sc } := by
  obtain ⟨sc, h⟩ := modPage_scan ((s.modRun r.ord page fun r => { r with done := true }).flag PG_EVT_STAT_PAGE_DONE true)
    slot page fun p => { p with done := true }
  exact ⟨sc, h⟩

theorem get_pageEnded (s : State) (slot page : Nat) (r : PageRun) (f : Fld) :
    (pageEnded s slot page r).get f = (s.flag PG_EVT_STAT_PAGE_DONE true).get f := by
  obtain ⟨sc, h⟩ := pageEnded_eq s slot page r
  rw [h]
  rfl

theorem untold_pageEnded (s : State) (slot page : Nat) (r : PageRun) : Untold s (pageEnded s slot page r) := by
  obtain ⟨sc, h⟩ := pageEnded_eq s slot page r
  have set : Untold s (s.flag PG_EVT_STAT_PAGE_DONE true) := untold_put (by decide) (untold_refl s)
  rw [h]
  exact ⟨set.events, set.now, set.next⟩

/-- PAGE_DONE reported, and what the jobs and PG_JOB_STAT then show. -/
def pageTold (s : State) (b slot page : Nat) : State :=
  let s := s.raise 0x3303 b (packPage slot page) 0
  ((if s.authoritative then s.jobsEnd else s).jobShow).curShow

theorem latched_pageTold (s : State) (b slot page : Nat) :
    Latched (s.raise 0x3303 b (packPage slot page) 0) (pageTold s b slot page) :=
  latched_curShow (latched_jobShow (latched_ite (latched_jobsEnd (latched_refl _)) (latched_refl _)))

theorem exec_pageDone {t slot page b : Nat} {r : PageRun} {s : State} (hc : s.core = .running)
    (hr : s.scan.runs.find? (fun r => r.job == slot && r.page == page && !r.done) = some r) (hb : s.farBar r.bars = some b)
    (hf : (s.advance t).fired r (r.firstLine + r.lines - 1) b = true) (he : s.is PG_EVT_CFG_PAGE_DONE_EN = true) :
    exec (.pageDone t slot page) s =
      .next ((pageTold (pageEnded (s.advance t) slot page r) b slot page).whenRunning settle) := by
  have enabled : (pageEnded (s.advance t) slot page r).is PG_EVT_CFG_PAGE_DONE_EN = true := by
    rw [State.is, get_pageEnded]
    rw [State.is] at he
    rw [← he]
    exact congrArg (· != 0) (get_put_ne _ _ _ _ (by decide))
  have found : (s.advance t).scan.runs.find? (fun r => r.job == slot && r.page == page && !r.done) = some r := hr
  have far : ((s.advance t).farBar r.bars).getD 0 = b := by
    rw [show (s.advance t).farBar r.bars = some b from hb]
    rfl
  show execPageDone t slot page s = _
  rw [execPageDone, run_on hc]
  rw [pageEnded] at enabled
  simp only [found, far, hf, if_true, enabled]
  rfl

/-! SPEED_REQ released (R76, R77). -/

/-- The state in which two of the reasons have been cleared. -/
def reasonsCleared (s : State) : State := (s.flag PG_SPDREQ_STAT_OVER_DECL false).flag PG_SPDREQ_STAT_SLACK false

section Release
variable {s : State}

theorem untold_reasonsCleared (s : State) : Untold s (reasonsCleared s) :=
  untold_put (by decide) (untold_put (by decide) (untold_refl s))

theorem get_reasonsCleared (s : State) {f : Fld} (h : f.addr ≠ PG_SPDREQ_STAT ∨ 2 < f.lo ∨ f.hi < 1) :
    (reasonsCleared s).get f = s.get f := by
  rcases h with h | h
  · exact (get_put_ne _ _ _ _ h).trans (get_put_ne _ _ _ _ h)
  · exact (get_put_apart _ _ _ _ (by decide) (by decide) (by simp only; omega)).trans
      (get_put_apart _ _ _ _ (by decide) (by decide) (by simp only; omega))

theorem spdCalm_reasonsCleared (s : State) : (reasonsCleared s).spdCalm = s.spdCalm := by
  have thermal : (reasonsCleared s).is PG_SPDREQ_STAT_THERMAL = s.is PG_SPDREQ_STAT_THERMAL :=
    congrArg (· != 0) (get_reasonsCleared s (.inr (.inl (by decide))))
  have runs : (reasonsCleared s).is PG_JOB_STAT_RUNNING = s.is PG_JOB_STAT_RUNNING :=
    congrArg (· != 0) (get_reasonsCleared s (.inl (by decide)))
  have slot : (reasonsCleared s).get PG_JOB_STAT_JOB_SLOT = s.get PG_JOB_STAT_JOB_SLOT :=
    get_reasonsCleared s (.inl (by decide))
  have hyst : (reasonsCleared s).get PG_SPDREQ_CTRL_HYST_PM = s.get PG_SPDREQ_CTRL_HYST_PM :=
    get_reasonsCleared s (.inl (by decide))
  have jobs (k : Nat) : (reasonsCleared s).jobAt k = s.jobAt k := rfl
  have scan : (reasonsCleared s).scan = s.scan := rfl
  have web : (reasonsCleared s).web = s.web := rfl
  simp only [State.spdCalm, State.vmax, State.running, thermal, runs, slot, hyst, jobs, scan, web]

theorem calmLong_reasonsCleared (h : s.calmLong = true) : (reasonsCleared s).calmLong = true := by
  have past (a n : Nat) : (reasonsCleared s).past a n = s.past a n := by
    rw [State.past, State.past, (untold_reasonsCleared s).now]
  have scan : (reasonsCleared s).scan = s.scan := rfl
  rw [State.calmLong, spdCalm_reasonsCleared, scan]
  simp only [past]
  exact h

theorem calmShow_kept {a : Nat} (h : s.scan.calm = some a) (hs : s.spdCalm = true) : s.calmShow = s := by
  have same (c : Option Nat) (hc : c = s.scan.calm) : { s with scan := { s.scan with calm := c } } = s := by
    subst hc
    rfl
  rw [State.calmShow, if_pos hs]
  exact same _ (by rw [h]; rfl)

/-- No reason's bit set: the reasons read 0. -/
theorem bits_reasons {v : Nat} (h1 : bits v 1 1 = 0) (h2 : bits v 2 2 = 0) (h3 : bits v 3 3 = 0) (h4 : bits v 4 4 = 0) :
    bits v 4 1 = 0 := by
  simp only [bits, Nat.shiftRight_eq_div_pow] at *
  omega

theorem declared_cleared (s : State) : (reasonsCleared s).get PG_SPDREQ_STAT_OVER_DECL = 0 := by
  rw [reasonsCleared]
  exact (get_put_apart _ _ _ _ (by decide) (by decide) (by decide)).trans (get_put_same _ _ _ (by decide) (by decide))

theorem slack_cleared (s : State) : (reasonsCleared s).get PG_SPDREQ_STAT_SLACK = 0 := by
  rw [reasonsCleared]
  exact get_put_same _ _ _ (by decide) (by decide)

theorem reasons_cleared (h3 : s.get PG_SPDREQ_STAT_THERMAL = 0) (h4 : s.get PG_SPDREQ_STAT_FORCED = 0) :
    (reasonsCleared s).get ⟨PG_SPDREQ_STAT, 4, 1⟩ = 0 := by
  have thermal : (reasonsCleared s).get PG_SPDREQ_STAT_THERMAL = 0 := by
    rw [get_reasonsCleared _ (.inr (.inl (by decide))), h3]
  have forced : (reasonsCleared s).get PG_SPDREQ_STAT_FORCED = 0 := by
    rw [get_reasonsCleared _ (.inr (.inl (by decide))), h4]
  exact bits_reasons (declared_cleared s) (slack_cleared s) thermal forced

theorem spdShow_falls (hw : s.get ⟨PG_SPDREQ_STAT, 4, 1⟩ = 0) (hp : s.is PG_SPDREQ_STAT_PIN = true)
    (hl : s.calmLong = true) : s.spdShow = (s.flag PG_SPDREQ_STAT_PIN false).raise 0x3105 0 0 0 := by
  rw [State.spdShow]
  simp [hw, hp, hl]

/-- SPEED_REQ released: no reason stands, the pin falls and the fall is reported. -/
theorem speedReq_released {t a : Nat} (hc : s.core = .running) (ha : s.scan.calm = some a)
    (hs : (s.advance t).spdCalm = true) (hp : (s.advance t).past a 10000000 = true) (h3 : s.get PG_SPDREQ_STAT_THERMAL = 0)
    (h4 : s.get PG_SPDREQ_STAT_FORCED = 0) (hpin : s.get PG_SPDREQ_STAT_PIN = 1) :
    exec (.speedReqRelease t) s = .next
      ((((reasonsCleared (s.advance t)).flag PG_SPDREQ_STAT_PIN false).raise 0x3105 0 0 0).whenRunning settle) := by
  have calm : (s.advance t).scan.calm = some a := ha
  have long : (s.advance t).calmLong = true := by
    rw [State.calmLong, hs, calm, Option.map_some, Option.getD_some, hp, Bool.and_self]
  have pin : (reasonsCleared (s.advance t)).is PG_SPDREQ_STAT_PIN = true := by
    rw [State.is, get_reasonsCleared _ (.inr (.inr (by decide)))]
    have one : (s.advance t).get PG_SPDREQ_STAT_PIN = 1 := hpin
    rw [one]
    rfl
  have falls := spdShow_falls (reasons_cleared (s := s.advance t) h3 h4) pin (calmLong_reasonsCleared long)
  show execSpeedReqRelease t s = _
  rw [execSpeedReqRelease, run_on hc]
  simp only [calmShow_kept calm hs, long, if_true]
  exact congrArg (fun x : State => Host.Outcome.next (x.whenRunning settle)) falls

end Release

/-! The next job after a drain (R108). -/

/-- The next page placed, and the drain over. -/
def placedNext (s : State) (n : NextPage) : State :=
  ({ s with scan := { s.scan with nextPage := some n } }).flag PG_JOB_STAT_DRAINING false

theorem rest_placedNext {x s' : State} {n : NextPage} (R : Rest (placedNext x n) s') :
    s'.scan.nextPage = some n ∧ s'.get PG_JOB_STAT_DRAINING = 0 ∧
      Rest (({ x with scan := { x.scan with nextPage := s'.scan.nextPage } }).put PG_JOB_STAT_DRAINING 0) s' := by
  have next : s'.scan.nextPage = some n := have e := congrArg (fun s => s.scan.nextPage) R.bare; e
  refine ⟨next, ?_, by rw [next]; exact R⟩
  rw [R.get _ (by decide), placedNext, State.flag, get_put_same _ _ _ (by decide) (by decide)]
  rfl

theorem nextFresh_start (s : State) (j : Job) (least : Option Int) (h : (s.nextFresh j least).mark = false) :
    ∃ p, (s.nextFresh j least).start = some p ∧ ∀ x, least = some x → x ≤ p := by
  have mark : (gapGet (s.gapFor j 0) PG_GAP_START_MODE == 1) = false := h
  cases least with
  | none =>
    exact ⟨_, if_neg (by rw [mark]; decide), fun x hx => by cases hx⟩
  | some y =>
    refine ⟨max y (s.leastStart j 0), if_neg (by rw [mark]; decide), fun x hx => ?_⟩
    rw [← Option.some.inj hx]
    exact le_max_left _ _

section Drain
variable {t : Nat} {j : Job} {r : PageRun} {s : State}

/-- Once every page is done the next job's first page is placed anew, after the drained position where the grid changes
under paper that is still there. -/
theorem placeNext_drained (hd : s.scan.runs.all (·.done) = true) (hn : s.scan.nextPage = none) (hj : s.nextJob = some j)
    (hl : s.scan.runs.getLast? = some r) (ho : r.ord ≠ j.order) :
    ∃ least, s.placeNext = placedNext s (s.nextFresh j least) ∧
      (s.scan.emptied = false → sameGrid r j = false → least = some (s.drained r j)) := by
  have done : r.done = true := List.all_eq_true.1 hd r (List.mem_of_getLast? hl)
  rw [State.placeNext]
  simp only [hn, hj, hl, ho, if_false, done, Bool.not_true, Bool.false_eq_true]
  split
  · next h =>
    refine ⟨none, rfl, fun he hg => ?_⟩
    simp [he, hg] at h
  · exact ⟨_, rfl, fun _ _ => rfl⟩

theorem exec_jobDrainDone (hc : s.core = .running) (ha : s.authoritative = true) (hs : s.get PG_JOB_STAT_DRAINING = 1)
    (hd : s.scan.runs.all (·.done) = true) :
    exec (.jobDrainDone t) s = .next ((s.advance t).placeNext.whenRunning settle) := by
  have drained : ((s.advance t).authoritative && (s.advance t).is PG_JOB_STAT_DRAINING &&
      (s.advance t).scan.runs.all (·.done)) = true := by
    rw [show (s.advance t).authoritative = true from ha, State.is, show (s.advance t).get PG_JOB_STAT_DRAINING = 1 from hs,
      show (s.advance t).scan.runs.all (·.done) = true from hd]
    rfl
  show execJobDrainDone t s = _
  rw [execJobDrainDone, run_on hc]
  simp only [drained, if_true]

end Drain

/-- Settles O22: a latch set and reported is one effect whichever latch it is; what ends with a page touches no latch; the
reasons of SPEED_REQ read 0 once the two calm ones are cleared; and the page after a drain is placed from its least
position. -/
theorem scanEvents : Obligations.ScanEvents := by
  unfold Obligations.ScanEvents
  refine ⟨fun t slot page r s hc => ⟨fun hr hf he => ?gap, fun hr hm hf he => ?line, fun hr hm => ?beyond,
    fun b hr hb hf he => ?page⟩, fun t a s hc ha hs hp h3 h4 hpin => ?speed,
    fun t j r s hc ha hs hd hn hj hl ho => ?drain⟩
  case gap =>
    obtain ⟨z, hw, U, effect⟩ := exec_gapStart hc hr hf he
    rw [effect]
    obtain ⟨set, ref, told, others, words⟩ := latch_told (s := s.advance t) (f := PG_EVT_STAT_GAP_START) rfl (by decide) hw U rfl
    exact ⟨_, rfl, set, ref, told, others PG_EVT_STAT_LINE_MATCH rfl (by decide) (by decide),
      others PG_EVT_STAT_PAGE_DONE rfl (by decide) (by decide), words⟩
  case line =>
    obtain ⟨z, hw, U, effect⟩ := exec_lineMatch hc hr hm hf he
    rw [effect]
    obtain ⟨set, ref, told, others, words⟩ := latch_told (s := s.advance t) (f := PG_EVT_STAT_LINE_MATCH) rfl (by decide) hw U rfl
    exact ⟨_, rfl, set, ref, told, others PG_EVT_STAT_GAP_START rfl (by decide) (by decide),
      others PG_EVT_STAT_PAGE_DONE rfl (by decide) (by decide), words⟩
  case beyond =>
    rw [exec_lineMatch_beyond hc hr hm]
    exact ⟨_, rfl, rest_whenRunning _⟩
  case page =>
    rw [exec_pageDone hc hr hb hf he]
    have ended := untold_pageEnded (s.advance t) slot page r
    have R := rest_raise (pageEnded (s.advance t) slot page r) 0x3303 b (packPage slot page) 0
    have L := latched_rest (latched_pageTold (pageEnded (s.advance t) slot page r) b slot page) (rest_whenRunning _)
      (grows_whenRunning _)
    have word (f : Fld) (hf : f.addr = PG_EVT_STAT) :
        ((pageEnded (s.advance t) slot page r).raise 0x3303 b (packPage slot page) 0).get f =
          ((s.advance t).flag PG_EVT_STAT_PAGE_DONE true).get f := by
      rw [R.get _ (by rw [hf]; decide), get_pageEnded]
    refine ⟨_, rfl, ?_, (ended.reports ..).grows L.grows, ?_, ?_⟩
    · rw [L.page, word _ rfl]
      exact get_put_same _ _ _ (by decide) (by decide)
    · rw [L.gap, word _ rfl]
      exact get_put_apart _ _ _ _ (by decide) (by decide) (by decide)
    · rw [L.line, word _ rfl]
      exact get_put_apart _ _ _ _ (by decide) (by decide) (by decide)
  case speed =>
    rw [speedReq_released hc ha hs hp h3 h4 hpin]
    have R := (rest_raise ((reasonsCleared (s.advance t)).flag PG_SPDREQ_STAT_PIN false) 0x3105 0 0 0).trans
      (rest_whenRunning _)
    refine ⟨_, rfl, ?_, ?_, ?_, ?_, R⟩
    · rw [R.get _ (by decide), State.flag, get_put_apart _ _ _ _ (by decide) (by decide) (by decide), declared_cleared]
    · rw [R.get _ (by decide), State.flag, get_put_apart _ _ _ _ (by decide) (by decide) (by decide), slack_cleared]
    · rw [R.get _ (by decide), State.flag, get_put_same _ _ _ (by decide) (by decide)]
      rfl
    · have untold : Untold (s.advance t) ((reasonsCleared (s.advance t)).flag PG_SPDREQ_STAT_PIN false) :=
        untold_put (by decide) (untold_reasonsCleared _)
      exact (untold.reports 0x3105 0 0 0).grows (grows_whenRunning _)
  case drain =>
    rw [exec_jobDrainDone hc ha hs hd]
    obtain ⟨least, placed_, bound⟩ := placeNext_drained (s := s.advance t) hd hn hj hl ho
    rw [placed_]
    obtain ⟨next, drained, R⟩ := rest_placedNext (rest_whenRunning (placedNext (s.advance t) ((s.advance t).nextFresh j least)))
    refine ⟨_, rfl, ⟨_, next, rfl, rfl, fun hm => ?_⟩, drained, R⟩
    obtain ⟨p, start, least_⟩ := nextFresh_start _ _ _ hm
    exact ⟨p, start, fun he hg => least_ _ (bound he hg)⟩

end Sys2Proof.Proofs
end

section
open Sys2Proof Sys2Proof.Machine
namespace Sys2Proof.Proofs
/-! Reliable frames of the Ecnal link: one received in order shows the partner's claim and is acknowledged around its own
effect (R375, R376). -/

/-- A state with another pair state. -/
def withPair (s : State) (p : Pair) : State := { s with pair := p }

theorem withPair_self (s : State) : withPair s s.pair = s := rfl

theorem withPair_pair (s : State) (p : Pair) : (withPair s p).pair = p := rfl

theorem rd_withPair (s : State) (p : Pair) (a : Nat) : (withPair s p).rd a = s.rd a := rfl

theorem withPair_withPair (s : State) (p q : Pair) : withPair (withPair s p) q = withPair s q := rfl

theorem withPair_tb (s : State) (p : Pair) : (withPair s p).tb = s.tb := rfl

theorem withPair_laneSt (s : State) (p : Pair) (l : Nat) : (withPair s p).laneSt l = s.laneSt l := rfl

theorem withPair_joining (s : State) (p : Pair) : (withPair s p).joining = s.joining := rfl

theorem withPair_floor (s : State) (p : Pair) (m : Nat) : (withPair s p).floor m = s.floor m := rfl

theorem withPair_out (s : State) (p : Pair) : (withPair s p).out = s.out := rfl

theorem withPair_base (s : State) (p : Pair) : (withPair s p).base = s.base := rfl

theorem withPair_now (s : State) (p : Pair) : (withPair s p).now = s.now := rfl

/-- A state that has taken a reliable frame's header: the partner's claim shown, the next sequence number awaited. -/
def heard (s : State) (h : RelHdr) : State :=
  withPair (s.wr PR_PARTNER_CLAIM h.claim)
    { s.pair with partnerEpoch := h.claim / 256, fseqRx := (h.fseq + 1) % 2 ^ 32 }

/-- The words an ACK is made from, and the link's state. -/
def ackWords : List Nat := [PR_STAT, PR_CLAIM, JL_READY 0, JL_READY 1, JL_READY 2]

/-- The ACK a state with the words of one and the pair state of the other sends. -/
def ackFrom (s y : State) : Sent :=
  .ecnal (.ack ⟨s.claim, y.pair.fseqRx, if y.base = .standby then y.pair.appliedTick else 0,
    s.get (JL_READY_CH 0), s.get (JL_READY_CH 1), s.get (JL_READY_CH 2)⟩)

section Heard
variable (s : State) (h : RelHdr)

theorem rd_heard {a : Nat} (ha : a ≠ PR_PARTNER_CLAIM) : (heard s h).rd a = s.rd a := rd_wr_ne _ _ ha

theorem get_heard {f : Fld} (hf : f.addr ≠ PR_PARTNER_CLAIM) : (heard s h).get f = s.get f := by
  rw [State.get, rd_heard s h hf]
  rfl

theorem heard_pair : (heard s h).pair =
    { s.pair with partnerEpoch := h.claim / 256, fseqRx := (h.fseq + 1) % 2 ^ 32 } := rfl

theorem heard_now : (heard s h).now = s.now :=
  (withPair_now ..).trans (wr_now _ _ _ (by decide))

theorem heard_tickOf (w : Nat) : (heard s h).tickOf w = s.tickOf w := by
  rw [State.tickOf, State.tick, heard_now]
  rfl

theorem heard_joining : (heard s h).joining = s.joining := by
  rw [State.joining, State.is, get_heard s h (by decide)]
  rfl

theorem heard_joined : (heard s h).joined = s.joined := by
  rw [State.joined, get_heard s h (by decide)]
  rfl

theorem heard_goodStandby : (heard s h).goodStandby = s.goodStandby := by
  rw [State.goodStandby, State.is, State.is, get_heard s h (by decide), get_heard s h (by decide)]
  rfl

end Heard

section Taken
variable {t : Nat} {h : RelHdr} {f : State → State} {s x y s' : State}

theorem pair_of_rest (R : Rest x y) : { x.pair with entries := y.pair.entries } = y.pair :=
  have e : { y.pair with entries := [] } = { x.pair with entries := [] } := congrArg State.pair R.bare
  calc { x.pair with entries := y.pair.entries }
    _ = { { x.pair with entries := ([] : List TsEntry) } with entries := y.pair.entries } := rfl
    _ = { { y.pair with entries := ([] : List TsEntry) } with entries := y.pair.entries } := by rw [e]
    _ = y.pair := rfl

theorem ackFrom_congr (hb : x.base = y.base) (hq : x.pair.fseqRx = y.pair.fseqRx)
    (ht : x.pair.appliedTick = y.pair.appliedTick) : ackFrom s x = ackFrom s y := by
  rw [ackFrom, ackFrom, hb, hq, ht]

theorem ackFrom_rest (R : Rest x y) : ackFrom s y = ackFrom s x :=
  have p := pair_of_rest R
  ackFrom_congr R.base (congrArg Pair.fseqRx p).symm (congrArg Pair.appliedTick p).symm

/-- A state with another list of what it has sent. -/
def withOut (s : State) (l : List Sent) : State := { s with out := l }

theorem rd_of_sent {l : List Sent} (R : Rest (withOut x l) y) {a : Nat} (ha : a ∉ shown) : y.rd a = x.rd a := R.words a ha

theorem get_of_sent {l : List Sent} (R : Rest (withOut x l) y) (f : Fld) (hf : f.addr ∉ shown) : y.get f = x.get f := by
  rw [State.get, rd_of_sent R hf]
  rfl

theorem pair_of_sent {l : List Sent} (R : Rest (withOut x l) y) : { x.pair with entries := y.pair.entries } = y.pair :=
  pair_of_rest (x := withOut x l) R

theorem ingest_of_sent {l : List Sent} (R : Rest (withOut x l) y) : y.ingest = x.ingest := rest_ingest (x := withOut x l) R

theorem out_of_sent {l : List Sent} (R : Rest (withOut x l) y) : y.out = l := R.out

/-- A unit whose link is up sends its ACK, and does nothing else. -/
theorem ackSend_emit (hu : s.linkUp = true) (hw : ∀ a ∈ ackWords, y.rd a = s.rd a) : y.ackSend = y.emit (ackFrom s y) := by
  have same (f : Fld) (hf : f.addr ∈ ackWords) : y.get f = s.get f := by
    rw [State.get, hw _ hf]
    rfl
  have up : y.linkUp = true := by
    rw [State.linkUp, State.is, same _ (by decide)]
    exact hu
  rw [State.ackSend, State.frameOut, if_pos up, State.claim, same _ (by decide), same _ (by decide), same _ (by decide),
    same _ (by decide), ackFrom, State.claim]
  simp only [beq_iff_eq]

theorem relIn_inOrder (ha : h.arrival = .good) (hu : x.linkUp = true) (hq : h.fseq = x.pair.fseqRx) :
    x.relIn h f = (f (heard x h)).ackSend := by
  simp only [State.relIn, ha, State.frameIn]
  rw [if_pos hu]
  exact if_pos hq

theorem ackWords_hidden : ∀ a ∈ ackWords, a ∉ shown := by decide

/-- A reliable frame in order: its own effect, then the ACK. -/
theorem relIn_acked (hc : s.core = .running) (hu : s.linkUp = true) (ha : h.arrival = .good) (hq : h.fseq = s.pair.fseqRx)
    (R : Rest y (f (heard (s.advance t) h))) (hw : ∀ a ∈ ackWords, y.rd a = s.rd a) :
    ∃ s', run t (fun s => s.relIn h f) s = .next s' ∧ Rest (withOut y (y.out ++ [ackFrom s y])) s' := by
  refine run_rest hc ?_
  have words : ∀ a ∈ ackWords, (f (heard (s.advance t) h)).rd a = s.rd a := fun a h' =>
    (R.words a (ackWords_hidden a h')).trans (hw a h')
  rw [relIn_inOrder (x := s.advance t) ha hu hq, ackSend_emit hu words, ackFrom_rest R]
  exact R.emit _

theorem heard_ackWords (s : State) (t : Nat) (h : RelHdr) : ∀ a ∈ ackWords, (heard (s.advance t) h).rd a = s.rd a :=
  fun a h' => rd_heard _ _ (by rintro rfl; revert h'; decide)

/-- A reliable frame in order that changes nothing but the pair state: what is sent and kept. -/
theorem relIn_pair {p : Pair} (hc : s.core = .running) (hu : s.linkUp = true) (ha : h.arrival = .good)
    (hq : h.fseq = s.pair.fseqRx) (hf : f (heard (s.advance t) h) = withPair (heard (s.advance t) h) p)
    (hr : p.fseqRx = (h.fseq + 1) % 2 ^ 32) (ht : p.appliedTick = s.pair.appliedTick) :
    ∃ s', run t (fun s => s.relIn h f) s = .next s' ∧ s'.pair = { p with entries := s'.pair.entries } ∧
      s'.out = s.out ++ [.ecnal (.ack ⟨s.claim, (h.fseq + 1) % 2 ^ 32, if s.base = .standby then s.pair.appliedTick else 0,
        s.get (JL_READY_CH 0), s.get (JL_READY_CH 1), s.get (JL_READY_CH 2)⟩)] ∧ WordsKept s s' [PR_PARTNER_CLAIM] := by
  obtain ⟨s', e, R⟩ := relIn_acked (t := t) (f := f) (y := withPair (heard (s.advance t) h) p) hc hu ha hq
    (by rw [hf]; exact Rest.refl _) (heard_ackWords s t h)
  refine ⟨s', e, (pair_of_sent R).symm, ?_, fun a hs hl => ?_⟩
  · rw [out_of_sent R, ← hr, ← ht]
    rfl
  · rw [rd_of_sent R hs]
    exact rd_heard (s.advance t) h (by simpa using hl)

theorem ackSend_only (s : State) : ∃ l, s.ackSend = withOut s l := by
  rw [State.ackSend, State.frameOut]
  split
  · exact ⟨_, rfl⟩
  · exact ⟨s.out, rfl⟩

/-- A reliable frame in order: its own effect, and what is sent. -/
theorem relIn_sent (hc : s.core = .running) (hu : s.linkUp = true) (ha : h.arrival = .good) (hq : h.fseq = s.pair.fseqRx)
    (hf : f (heard (s.advance t) h) = y) :
    ∃ s' l, run t (fun s => s.relIn h f) s = .next s' ∧ Rest (withOut y l) s' := by
  obtain ⟨l, hl⟩ := ackSend_only y
  obtain ⟨s', e, R⟩ := run_rest (t := t) (f := fun s => s.relIn h f) (x := withOut y l) hc (by
    rw [relIn_inOrder (x := s.advance t) ha hu hq, hf, hl]
    exact Rest.refl _)
  exact ⟨s', l, e, R⟩

end Taken

end Sys2Proof.Proofs
end

section
open Sys2Proof Sys2Proof.Machine
namespace Sys2Proof.Proofs
/-! The frames of a snapshot as a joining unit keeps them (R402). -/

section Kept
variable {x : State} {tick : Nat} {o : ResyncObj}

/-- What a snapshot's frame adds to the objects held: a part of an object adds none. -/
def newObjs (o : ResyncObj) : List ResyncObj :=
  match o with
  | .part _ => []
  | o => [o]

/-- The pair state with one more frame of the snapshot. -/
def objKept (p : Pair) (o : ResyncObj) : Pair :=
  { p with objs := p.objs ++ newObjs o, framesRx := p.framesRx + 1 }

/-- The pair state of a snapshot begun anew at a tick. -/
def objsAnew (p : Pair) (n : Nat) : Pair :=
  { p with t0 := some n, objs := [], framesRx := 0, copies := [], ended := false }

theorem newObjs_whole (h : ∀ c, o ≠ .part c) : newObjs o = [o] := by
  cases o with
  | part c => exact absurd rfl (h c)
  | _ => rfl

theorem resyncTake_idle (hj : x.joining = false) : x.resyncTake tick o = x := by
  unfold State.resyncTake
  exact if_pos (by rw [hj]; rfl)

/-- What a snapshot's frame does once it is counted: the last one, of as many frames as have come, has it taken. -/
def lastTaken (x : State) (o : ResyncObj) : State :=
  match o with
  | .last k => if k = x.pair.framesRx then (withPair x { x.pair with ended := true, endFrames := k }).snapshotApply else x
  | _ => x

/-- The state that holds the snapshot of a tick, begun anew if it held another. -/
def snapAt (x : State) (n : Nat) : State := if x.pair.t0 = some n then x else withPair x (objsAnew x.pair n)

/-- The state with one more frame of the snapshot it holds. -/
def frameKept (x : State) (o : ResyncObj) : State := lastTaken (withPair x (objKept x.pair o)) o

theorem resyncTake_unjoined (hj : x.joining = true) (hd : x.joined = false) :
    x.resyncTake tick o = frameKept (snapAt x (x.tickOf tick)) o := by
  unfold State.resyncTake
  rw [if_neg (by rw [hj]; decide), if_neg (by rw [hd]; decide)]
  cases o <;> rfl

theorem frameKept_open (ho : ∀ k, o ≠ .last k) : frameKept x o = withPair x (objKept x.pair o) := by
  cases o with
  | last k => exact absurd rfl (ho k)
  | _ => rfl

theorem resyncTake_kept (hj : x.joining = true) (hd : x.joined = false) (ht : x.pair.t0 = some (x.tickOf tick))
    (ho : ∀ k, o ≠ .last k) : x.resyncTake tick o = withPair x (objKept x.pair o) := by
  rw [resyncTake_unjoined hj hd, frameKept_open ho, snapAt, if_pos ht]

theorem resyncTake_anew (hj : x.joining = true) (hd : x.joined = false) (ht : x.pair.t0 ≠ some (x.tickOf tick))
    (ho : ∀ k, o ≠ .last k) : x.resyncTake tick o = withPair x (objKept (objsAnew x.pair (x.tickOf tick)) o) := by
  rw [resyncTake_unjoined hj hd, frameKept_open ho, snapAt, if_neg ht]
  rfl

end Kept

section Frames
variable {t tick : Nat} {h : RelHdr} {o : ResyncObj} {s : State}

/-- A snapshot's frame of the tick in hand, at a unit that joins and has not joined. -/
theorem exec_resync_kept (hc : s.core = .running) (hu : s.linkUp = true) (ha : h.arrival = .good)
    (hq : h.fseq = s.pair.fseqRx) (hj : s.joining = true) (hd : s.joined = false)
    (ht : s.pair.t0 = some ((s.advance t).tickOf tick)) (ho : ∀ k, o ≠ .last k) :
    ∃ s', exec (.resyncFrame t h tick o) s = .next s' ∧
      s'.pair = { s.pair with
        partnerEpoch := h.claim / 256, fseqRx := (h.fseq + 1) % 2 ^ 32, entries := s'.pair.entries
        objs := s.pair.objs ++ newObjs o, framesRx := s.pair.framesRx + 1 } ∧
      s'.out = s.out ++ [.ecnal (.ack ⟨s.claim, (h.fseq + 1) % 2 ^ 32, if s.base = .standby then s.pair.appliedTick else 0,
        s.get (JL_READY_CH 0), s.get (JL_READY_CH 1), s.get (JL_READY_CH 2)⟩)] ∧ WordsKept s s' [PR_PARTNER_CLAIM] := by
  have joining : (heard (s.advance t) h).joining = true := (heard_joining ..).trans hj
  have joined : (heard (s.advance t) h).joined = false := (heard_joined ..).trans hd
  have begun : (heard (s.advance t) h).pair.t0 = some ((heard (s.advance t) h).tickOf tick) := by
    rw [heard_tickOf]
    exact ht
  exact relIn_pair (f := fun s => s.resyncTake tick o) hc hu ha hq (resyncTake_kept joining joined begun ho) rfl rfl

/-- The first frame of another snapshot begins it anew. -/
theorem exec_resync_anew (hc : s.core = .running) (hu : s.linkUp = true) (ha : h.arrival = .good)
    (hq : h.fseq = s.pair.fseqRx) (hj : s.joining = true) (hd : s.joined = false)
    (ht : s.pair.t0 ≠ some ((s.advance t).tickOf tick)) (ho : ∀ k, o ≠ .last k) :
    ∃ s', exec (.resyncFrame t h tick o) s = .next s' ∧
      s'.pair = { s.pair with
        partnerEpoch := h.claim / 256, fseqRx := (h.fseq + 1) % 2 ^ 32, entries := s'.pair.entries
        t0 := some ((s.advance t).tickOf tick), copies := [], ended := false, objs := newObjs o, framesRx := 1 } ∧
      WordsKept s s' [PR_PARTNER_CLAIM] := by
  have joining : (heard (s.advance t) h).joining = true := (heard_joining ..).trans hj
  have joined : (heard (s.advance t) h).joined = false := (heard_joined ..).trans hd
  have other : (heard (s.advance t) h).pair.t0 ≠ some ((heard (s.advance t) h).tickOf tick) := by
    rw [heard_tickOf]
    exact ht
  have taken := resyncTake_anew joining joined other ho
  rw [heard_tickOf] at taken
  obtain ⟨s', e, hp, -, hw⟩ := relIn_pair (f := fun s => s.resyncTake tick o) hc hu ha hq taken rfl rfl
  exact ⟨s', e, hp, hw⟩

/-- A reliable frame in order with no effect of its own is acknowledged. -/
theorem relIn_only_acked {f : State → State} (hc : s.core = .running) (hu : s.linkUp = true) (ha : h.arrival = .good)
    (hq : h.fseq = s.pair.fseqRx) (hf : f (heard (s.advance t) h) = heard (s.advance t) h) :
    ∃ s', run t (fun s => s.relIn h f) s = .next s' ∧
      s'.pair = { s.pair with
        partnerEpoch := h.claim / 256, fseqRx := (h.fseq + 1) % 2 ^ 32, entries := s'.pair.entries } ∧
      s'.out = s.out ++ [.ecnal (.ack ⟨s.claim, (h.fseq + 1) % 2 ^ 32, if s.base = .standby then s.pair.appliedTick else 0,
        s.get (JL_READY_CH 0), s.get (JL_READY_CH 1), s.get (JL_READY_CH 2)⟩)] ∧ WordsKept s s' [PR_PARTNER_CLAIM] := by
  obtain ⟨s', e, hp, hout, hw⟩ := relIn_pair (f := f) hc hu ha hq (hf.trans (withPair_self _).symm) rfl rfl
  refine ⟨s', e, ?_, hout, hw⟩
  rw [heard_pair] at hp
  exact hp

theorem exec_resync_idle (hc : s.core = .running) (hu : s.linkUp = true) (ha : h.arrival = .good)
    (hq : h.fseq = s.pair.fseqRx) (hj : s.joining = false) :
    ∃ s', exec (.resyncFrame t h tick o) s = .next s' ∧
      s'.pair = { s.pair with
        partnerEpoch := h.claim / 256, fseqRx := (h.fseq + 1) % 2 ^ 32, entries := s'.pair.entries } ∧
      s'.out = s.out ++ [.ecnal (.ack ⟨s.claim, (h.fseq + 1) % 2 ^ 32, if s.base = .standby then s.pair.appliedTick else 0,
        s.get (JL_READY_CH 0), s.get (JL_READY_CH 1), s.get (JL_READY_CH 2)⟩)] ∧ WordsKept s s' [PR_PARTNER_CLAIM] :=
  relIn_only_acked (f := fun s => s.resyncTake tick o) hc hu ha hq (resyncTake_idle ((heard_joining ..).trans hj))

/-- A unit that follows nothing takes no tick state copy. -/
theorem tsTake_idle {x : State} {part parts : Nat} {es : List TsEntry} (hg : x.goodStandby = false)
    (hj : x.joining = false) : x.tsTake tick part parts es = x := by
  rw [State.tsTake, hg, hj]
  rfl

theorem exec_ts_idle {part parts : Nat} {es : List TsEntry} (hc : s.core = .running) (hu : s.linkUp = true)
    (ha : h.arrival = .good) (hq : h.fseq = s.pair.fseqRx) (hg : s.goodStandby = false) (hj : s.joining = false) :
    ∃ s', exec (.tsFrame t h tick part parts es) s = .next s' ∧
      s'.pair = { s.pair with
        partnerEpoch := h.claim / 256, fseqRx := (h.fseq + 1) % 2 ^ 32, entries := s'.pair.entries } ∧
      s'.out = s.out ++ [.ecnal (.ack ⟨s.claim, (h.fseq + 1) % 2 ^ 32, if s.base = .standby then s.pair.appliedTick else 0,
        s.get (JL_READY_CH 0), s.get (JL_READY_CH 1), s.get (JL_READY_CH 2)⟩)] ∧ WordsKept s s' [PR_PARTNER_CLAIM] :=
  relIn_only_acked (f := fun s => s.tsTake tick part parts es) hc hu ha hq
    (tsTake_idle ((heard_goodStandby ..).trans hg) ((heard_joining ..).trans hj))

end Frames

end Sys2Proof.Proofs
end

section
open Sys2Proof Sys2Proof.Machine
namespace Sys2Proof.Proofs
/-! The words of a window as they are taken from a list of pairs, the rest of the window reset. -/

section Wins
variable {s : State} {wins vals : List (Nat × Nat)} {a : Nat}

/-- Whether an address lies in one of the windows. -/
def inWins (wins : List (Nat × Nat)) (a : Nat) : Bool := wins.any fun w => decide (w.1 ≤ a) && decide (a < w.1 + w.2)

theorem inWins_iff : inWins wins a = true ↔ ∃ w ∈ wins, w.1 ≤ a ∧ a < w.1 + w.2 := by
  simp [inWins]

/-- A list of words written one after another. -/
def written (s : State) (vals : List (Nat × Nat)) : State := s.each vals fun s v => s.wr v.1 v.2

theorem rd_written_apart (h : ∀ v ∈ vals, v.1 ≠ a) : (written s vals).rd a = s.rd a := by
  induction vals generalizing s with
  | nil => rfl
  | cons v vals ih =>
    have rest : (written (s.wr v.1 v.2) vals).rd a = (s.wr v.1 v.2).rd a := ih fun w hw => h w (List.mem_cons_of_mem _ hw)
    exact rest.trans (rd_wr_ne _ _ (h v List.mem_cons_self).symm)

theorem rd_written {v : Nat × Nat} (hn : (vals.map (·.1)).Nodup) (hv : v ∈ vals) :
    (written s vals).rd v.1 = v.2 % 2 ^ 32 := by
  induction vals generalizing s with
  | nil => simp at hv
  | cons w vals ih =>
    obtain ⟨hw, hn⟩ := List.nodup_cons.1 hn
    rcases List.mem_cons.1 hv with rfl | hv
    · have rest : (written (s.wr v.1 v.2) vals).rd v.1 = (s.wr v.1 v.2).rd v.1 :=
        rd_written_apart fun u hu e => hw (List.mem_map.2 ⟨u, hu, e⟩)
      exact rest.trans (rd_wr_same ..)
    · exact ih hn hv

/-- The words of the windows reset. -/
def winsReset (s : State) (wins : List (Nat × Nat)) : State :=
  { s with words := skeep (fun a => !inWins wins a) s.words }

theorem winsTake_eq (h : ∀ v ∈ vals, inWins wins v.1 = true) :
    s.winsTake wins vals = written (winsReset s wins) vals := by
  have all : vals.filter (fun v => inWins wins v.1) = vals := List.filter_eq_self.2 h
  exact congrArg (written (winsReset s wins)) all

theorem rd_winsReset_apart (h : inWins wins a = false) : (winsReset s wins).rd a = s.rd a :=
  congrArg BitVec.toNat (sget_skeep wordReset (keep := fun a => !inWins wins a) (by rw [h]; rfl))

theorem rd_winsReset_in (h : inWins wins a = true) : (winsReset s wins).rd a = (wordReset a).toNat :=
  congrArg BitVec.toNat (sget_skeep_off wordReset (keep := fun a => !inWins wins a) (by rw [h]; rfl))

theorem rd_winsTake_apart (hv : ∀ v ∈ vals, inWins wins v.1 = true) (h : inWins wins a = false) :
    (s.winsTake wins vals).rd a = s.rd a := by
  rw [winsTake_eq hv, rd_written_apart fun v hm e => ?_, rd_winsReset_apart h]
  rw [← e, hv v hm] at h
  exact Bool.noConfusion h

theorem rd_winsTake_given {v : Nat × Nat} (hv : ∀ v ∈ vals, inWins wins v.1 = true) (hn : (vals.map (·.1)).Nodup)
    (hm : v ∈ vals) : (s.winsTake wins vals).rd v.1 = v.2 % 2 ^ 32 := by
  rw [winsTake_eq hv, rd_written hn hm]

theorem rd_winsTake_reset (hv : ∀ v ∈ vals, inWins wins v.1 = true) (h : inWins wins a = true)
    (ha : ∀ v ∈ vals, v.1 ≠ a) : (s.winsTake wins vals).rd a = (wordReset a).toNat := by
  rw [winsTake_eq hv, rd_written_apart ha, rd_winsReset_in h]

theorem winsTake_pair (s : State) (wins vals : List (Nat × Nat)) : (s.winsTake wins vals).pair = s.pair :=
  each_keeps State.pair _ _ fun y v _ => wr_pair y v.1 v.2

/-- The words of a bar's banks lie beyond every register and before the Beryl tables. -/
theorem bankWins_bounds {b : Nat} (hb : b < 8) (h : inWins (bankWins b) a = true) : 0x200000 ≤ a ∧ a < 0x800000 := by
  obtain ⟨w, hw, hl, hh⟩ := inWins_iff.1 h
  simp only [bankWins, List.mem_cons, List.not_mem_nil, or_false] at hw
  rcases hw with rfl | rfl
  · simp only [liveWin, bankSize] at hl hh; omega
  · simp only [shadowWin, bankSize] at hl hh; omega

theorem wordReset_bank (h : 0x200000 ≤ a ∧ a < 0x800000) : (wordReset a).toNat = 0 := by
  rw [wordReset, if_neg (by omega), if_neg (by omega)]
  rfl

end Wins

end Sys2Proof.Proofs
end

section
open Sys2Proof Sys2Proof.Machine
namespace Sys2Proof.Proofs
/-! A snapshot taken whole, and the position a joined unit takes from the motion object (R400, R402). -/

section Snapshot
variable {x : State} {b k tick : Nat} {vals : List (Nat × Nat)}

/-- The state with a bar's banks taken, in phase 3. -/
def banksPut (x : State) (b : Nat) (vals : List (Nat × Nat)) : State :=
  (x.winsTake (bankWins b) vals).put PR_STAT_RESYNC_PHASE 3

/-- A state with no object of a snapshot left. -/
def objectsGone (x : State) : State := withPair x { x.pair with objs := [] }

/-- The state with a bar's banks taken and no object left. -/
def banksIn (x : State) (b : Nat) (vals : List (Nat × Nat)) : State := objectsGone (banksPut x b vals)

/-- The state that has taken a snapshot of one bar's banks. -/
def banksTaken (x : State) (b : Nat) (vals : List (Nat × Nat)) : State := (banksIn x b vals).put PR_STAT_RESYNC_PHASE 4

theorem banksPut_pair : (banksPut x b vals).pair = x.pair := (put_pair ..).trans (winsTake_pair ..)

/-- The copies that came meanwhile applied, in phase 4. -/
def copiesFollowed (x : State) : State := (x.copiesRun x.pair.copies.length).put PR_STAT_RESYNC_PHASE 4

theorem snapshotApply_still (ho : x.pair.objs = [.banks b vals, .last k]) :
    x.snapshotApply = copiesFollowed (objectsGone
      ((x.each [.banks b vals, .last k] State.objApply).put PR_STAT_RESYNC_PHASE 3)) := by
  unfold State.snapshotApply
  rw [ho]
  rfl

theorem snapshotApply_banks (ho : x.pair.objs = [.banks b vals, .last k]) (hc : x.pair.copies = []) :
    x.snapshotApply = banksTaken x b vals := by
  have none_due : (banksIn x b vals).pair.copies = [] := by
    rw [banksIn, objectsGone, withPair_pair, banksPut_pair, hc]
  have objs : x.each [.banks b vals, .last k] State.objApply = x.winsTake (bankWins b) vals := rfl
  rw [snapshotApply_still ho, objs]
  show copiesFollowed (banksIn x b vals) = _
  rw [copiesFollowed, none_due]
  rfl

/-- The state that has the last frame of a snapshot of two frames. -/
def snapEnded (x : State) : State :=
  withPair x { objKept x.pair (.last 2) with ended := true, endFrames := 2 }

theorem resyncTake_whole (hj : x.joining = true) (hd : x.joined = false) (ht : x.pair.t0 = some (x.tickOf tick))
    (ho : x.pair.objs = [.banks b vals]) (hf : x.pair.framesRx = 1) (hc : x.pair.copies = []) :
    x.resyncTake tick (.last 2) = banksTaken (snapEnded x) b vals := by
  have counted : 2 = (withPair x (objKept x.pair (.last 2))).pair.framesRx := congrArg (· + 1) hf.symm
  have held : (snapEnded x).pair.objs = [.banks b vals, .last 2] := congrArg (· ++ [ResyncObj.last 2]) ho
  rw [resyncTake_unjoined hj hd, snapAt, if_pos ht, frameKept, lastTaken]
  rw [if_pos counted]
  exact snapshotApply_banks held hc

theorem rd_banksTaken {a : Nat} (ha : a ≠ PR_STAT) : (banksTaken x b vals).rd a = (x.winsTake (bankWins b) vals).rd a := by
  rw [banksTaken, rd_put_ne _ _ _ ha, banksIn, objectsGone, rd_withPair, banksPut, rd_put_ne _ _ _ ha]

theorem get_banksTaken : (banksTaken x b vals).get PR_STAT_RESYNC_PHASE = 4 :=
  get_put_same _ _ _ (by decide) (by decide)

theorem banksTaken_pair : (banksTaken x b vals).pair = { x.pair with objs := [] } := by
  rw [banksTaken, put_pair, banksIn, objectsGone, withPair_pair, banksPut_pair]

end Snapshot

section Motion
variable {x : State} {m : Motion}

theorem webShow_web (s : State) : s.webShow.web = s.web := by
  unfold State.webShow
  rw [put_web, put_web, State.sput, put_web, State.sput, put_web, wr_web, wr_web, wr_web, wr_web]

/-- The web's state with the position a motion object gives. -/
def motionWeb (s : State) (m : Motion) (p : Int) : State :=
  { s with web := { s.web with
      p := p, pAt := s.now, was := [], q := max m.q p, ps := m.ps, onSec := m.onSec, encos := m.encos, alignAt := p } }

/-- The same with its states of motion and faults shown. -/
def motionShown (s : State) (m : Motion) : State :=
  let s := ((s.flag WP_SRC_STAT_PRI_FAILED m.priFailed).flag WP_SRC_STAT_SEC_FAILED m.secFailed).put
      WP_MOTION_DIR_STATE m.dirState
  (s.modEnc s.selEnc fun e => { e with state := m.speedState }).flag WP_SRC_STAT_LOST false

theorem motionPut_found (hl : m.lost = false) (p : Int) :
    x.motionPut m p = (motionShown (motionWeb x m p) m).webShow.estTake := by
  rw [State.motionPut, hl]
  rfl

theorem motionShown_web : (motionShown x m).web.p = x.web.p ∧ (motionShown x m).web.q = x.web.q ∧
    (motionShown x m).web.onSec = x.web.onSec := by
  simp only [motionShown, State.flag, put_web, State.modEnc, and_self]

theorem motionPut_web (hl : m.lost = false) (p : Int) :
    (x.motionPut m p).web.p = p ∧ (x.motionPut m p).web.q = max m.q p ∧ (x.motionPut m p).web.onSec = m.onSec := by
  obtain ⟨hp, hq, hs⟩ := motionShown_web (x := motionWeb x m p) (m := m)
  rw [motionPut_found hl, State.estTake]
  simp only [webShow_web, hp, hq, hs]
  exact ⟨rfl, rfl, rfl⟩

/-- The state that has taken the active's position from a motion object. -/
def motionTaken (x : State) (m : Motion) (p : Int) : State :=
  (withPair (x.motionPut m p) { x.pair with anchored := true }).put PR_STAT_RESYNC_PHASE 5

theorem resyncTake_motion {tick : Nat} (hj : x.joining = true) (hd : x.joined = true) (hn : x.pair.anchored = false)
    (he : m.edgeAt = none) : x.resyncTake tick (.motion m) = motionTaken x m m.edgeP := by
  have anchor : x.anchorAt m = some m.edgeP := by rw [State.anchorAt, he]
  unfold State.resyncTake
  rw [if_neg (by rw [hj]; decide), if_pos hd]
  show (if x.pair.anchored then x else x.motionTake m) = _
  rw [hn, if_neg (by decide), State.motionTake, anchor]
  rfl

theorem motionTaken_pair (p : Int) : (motionTaken x m p).pair = { x.pair with anchored := true } := by
  rw [motionTaken, put_pair, withPair_pair]

end Motion

end Sys2Proof.Proofs
end

section
open Sys2Proof Sys2Proof.Machine
namespace Sys2Proof.Proofs
/-! The last object of a snapshot and its motion object, as they arrive in order. -/

section Joining
variable {t tick b : Nat} {h : RelHdr} {s : State} {vals : List (Nat × Nat)} {m : Motion}

theorem exec_resync_whole (hc : s.core = .running) (hu : s.linkUp = true) (ha : h.arrival = .good)
    (hq : h.fseq = s.pair.fseqRx) (hj : s.joining = true) (hd : s.joined = false)
    (ht : s.pair.t0 = some ((s.advance t).tickOf tick)) (ho : s.pair.objs = [.banks b vals]) (hf : s.pair.framesRx = 1)
    (hcp : s.pair.copies = []) (hb : b < 8) (hn : (vals.map (·.1)).Nodup)
    (hv : ∀ v ∈ vals, v.2 < 2 ^ 32 ∧ ∃ w ∈ bankWins b, w.1 ≤ v.1 ∧ v.1 < w.1 + w.2) :
    ∃ s', exec (.resyncFrame t h tick (.last 2)) s = .next s' ∧ s'.pair.ended = true ∧ s'.pair.objs = [] ∧
      s'.get PR_STAT_RESYNC_PHASE = 4 ∧ (∀ v ∈ vals, s'.rd v.1 = v.2) ∧
      (∀ a, (∃ w ∈ bankWins b, w.1 ≤ a ∧ a < w.1 + w.2) → (∀ v ∈ vals, v.1 ≠ a) → s'.rd a = 0) ∧
      ∀ a, a ∉ shown → a ≠ PR_PARTNER_CLAIM → a ≠ PR_STAT → (∀ w ∈ bankWins b, a < w.1 ∨ w.1 + w.2 ≤ a) →
        s'.rd a = s.rd a := by
  have joining : (heard (s.advance t) h).joining = true := (heard_joining ..).trans hj
  have joined : (heard (s.advance t) h).joined = false := (heard_joined ..).trans hd
  have begun : (heard (s.advance t) h).pair.t0 = some ((heard (s.advance t) h).tickOf tick) := by
    rw [heard_tickOf]
    exact ht
  have inside : ∀ v ∈ vals, inWins (bankWins b) v.1 = true := fun v hm => inWins_iff.2 (hv v hm).2
  have hidden : ∀ a, 0x200000 ≤ a ∧ a < 0x800000 → a ∉ shown ∧ a ≠ PR_STAT := fun a h' => by
    constructor
    · intro hm
      have := (show ∀ a ∈ shown, a < 0x200000 by decide) a hm
      omega
    · rintro rfl
      exact absurd h'.1 (by decide)
  obtain ⟨s', l, e, R⟩ := relIn_sent (t := t) (f := fun s => s.resyncTake tick (.last 2)) hc hu ha hq
    (resyncTake_whole joining joined begun ho hf hcp)
  have word (a : Nat) (hs : a ∉ shown) (hp : a ≠ PR_STAT) :
      s'.rd a = ((snapEnded (heard (s.advance t) h)).winsTake (bankWins b) vals).rd a :=
    (rd_of_sent R hs).trans (rd_banksTaken hp)
  have pair := pair_of_sent R
  refine ⟨s', e, ?_, ?_, ?_, fun v hm => ?_, fun a hin hne => ?_, fun a hs hc hp hout => ?_⟩
  · rw [← pair, banksTaken_pair]
    rfl
  · rw [← pair, banksTaken_pair]
  · exact (get_of_sent R _ (by decide)).trans get_banksTaken
  · obtain ⟨hs, hp⟩ := hidden v.1 (bankWins_bounds hb (inside v hm))
    rw [word _ hs hp, rd_winsTake_given inside hn hm, Nat.mod_eq_of_lt (hv v hm).1]
  · have bank := bankWins_bounds hb (inWins_iff.2 hin)
    obtain ⟨hs, hp⟩ := hidden a bank
    rw [word a hs hp, rd_winsTake_reset inside (inWins_iff.2 hin) hne, wordReset_bank bank]
  · have apart : inWins (bankWins b) a = false := by
      rw [← Bool.not_eq_true, inWins_iff]
      rintro ⟨w, hw, hl, hh⟩
      have := hout w hw
      omega
    rw [word a hs hp, rd_winsTake_apart inside apart]
    exact rd_heard (s.advance t) h hc

theorem exec_resync_motion (hc : s.core = .running) (hu : s.linkUp = true) (ha : h.arrival = .good)
    (hq : h.fseq = s.pair.fseqRx) (hj : s.joining = true) (hd : s.joined = true) (hn : s.pair.anchored = false)
    (he : m.edgeAt = none) (hl : m.lost = false) :
    ∃ s', exec (.resyncFrame t h tick (.motion m)) s = .next s' ∧ s'.web.p = m.edgeP ∧ s'.web.q = max m.q m.edgeP ∧
      s'.web.onSec = m.onSec ∧ s'.pair.anchored = true ∧ s'.get PR_STAT_RESYNC_PHASE = 5 := by
  have joining : (heard (s.advance t) h).joining = true := (heard_joining ..).trans hj
  have joined : (heard (s.advance t) h).joined = true := (heard_joined ..).trans hd
  obtain ⟨s', l, e, R⟩ := relIn_sent (t := t) (f := fun s => s.resyncTake tick (.motion m)) hc hu ha hq
    (resyncTake_motion joining joined hn he)
  have web : { s'.web with pins := [] } = { (heard (s.advance t) h |>.motionPut m m.edgeP).web with pins := [] } :=
    congrArg State.web R.bare
  obtain ⟨hp, hq, hs⟩ := motionPut_web (x := heard (s.advance t) h) hl m.edgeP
  refine ⟨s', e, ?_, ?_, ?_, ?_, ?_⟩
  · exact (congrArg Web.p web).trans hp
  · exact (congrArg Web.q web).trans hq
  · exact (congrArg Web.onSec web).trans hs
  · rw [← pair_of_sent R, motionTaken_pair]
  · exact (get_of_sent R _ (by decide)).trans (get_put_same _ _ _ (by decide) (by decide))

end Joining

end Sys2Proof.Proofs
end

section
open Sys2Proof Sys2Proof.Machine
namespace Sys2Proof.Proofs
/-! A tick state copy a standby applies whole: here one COUNTER entry (R375, R378, R383). -/

section Floor
variable (s : State) (p : Pair) (m c : Nat)

theorem floorRaise_withPair : (withPair s p).floorRaise m c = withPair (s.floorRaise m c) p := by
  have same : (withPair s p).floor m = s.floor m := rfl
  rw [State.floorRaise, State.floorRaise, same]
  split <;> rfl

theorem rd_floorRaise {a : Nat} (hl : a ≠ HP_MST_CTR_LO m) (hh : a ≠ HP_MST_CTR_HI m) :
    (s.floorRaise m c).rd a = s.rd a := by
  rw [State.floorRaise]
  split
  · rw [rd_wr_ne _ _ hh, rd_wr_ne _ _ hl]
  · rfl

/-- A field of all 32 bits is its word. -/
theorem get_word (a : Nat) : s.get ⟨a, 31, 0⟩ = s.rd a := by
  have h := rd_lt s a
  simp only [State.get, bits]
  omega

theorem floor_eq_rd : s.floor m = s.rd (HP_MST_CTR_HI m) * 2 ^ 32 + s.rd (HP_MST_CTR_LO m) := by
  rw [State.floor, get_word, get_word]

theorem floor_floorRaise (h : c < 2 ^ 64) : (s.floorRaise m c).floor m = max (s.floor m) c := by
  have apart : HP_MST_CTR_LO m ≠ HP_MST_CTR_HI m := by simp only [HP_MST_CTR_LO, HP_MST_CTR_HI]; omega
  rw [State.floorRaise]
  split
  · rw [floor_eq_rd (State.wr ..), rd_wr_same, rd_wr_ne _ _ apart, rd_wr_same]
    omega
  · omega

end Floor

section Copy
variable {x : State} {tick n m c : Nat}

theorem timeFollow_idle (hi : x.tb.newIncr = none) (ha : x.tb.adj = none) : x.timeFollow = x := by
  rw [State.timeFollow, hi]
  show x.timeCommit = x
  rw [State.timeCommit, hi]
  simp only [ha]

theorem batchEnd_idle (h : ∀ l < 96, (x.laneSt l).ctl.any (·.copies == 0) = false) :
    x.batchEnd = withPair x { x.pair with batch := false } := by
  have none_due : ((List.range 96).filter fun l => (x.laneSt l).ctl.any (·.copies == 0)) = [] :=
    List.filter_eq_nil_iff.2 fun l hl => by rw [h l (List.mem_range.1 hl)]; decide
  show (withPair x { x.pair with batch := false }).each
    ((List.range 96).filter fun l => (x.laneSt l).ctl.any (·.copies == 0)) State.recordsFirst = _
  rw [none_due]
  rfl

/-- A COUNTER entry: a master's floor in two words. -/
def counterEntry (m hi lo : Nat) : TsEntry := ⟨2, [m, hi, lo]⟩

theorem entryFollow_counter (hi lo : Nat) (hm : m < 4) :
    x.entryFollow (counterEntry m hi lo) = x.floorRaise m (hi * 2 ^ 32 + lo) := by
  simp only [State.entryFollow, counterEntry, List.getD_cons_zero, List.getD_cons_succ, Nat.mod_eq_of_lt hm]

/-- A state that begins on the entries of a copy, its line positions noted and records kept back. -/
def entriesBegun (x : State) (lines : List Nat) : State :=
  (withPair x { x.pair with tickLines := lines }).batchBegin

theorem entriesBegun_eq (lines : List Nat) :
    entriesBegun x lines = withPair x { x.pair with tickLines := lines, batch := true } := rfl

/-- The same with its line positions dropped again. -/
def linesDropped (x : State) : State := withPair x { x.pair with tickLines := [] }

theorem entriesApply_one (e : TsEntry) (h9 : (e.kind == 9) = false) (h12 : (e.kind == 12) = false) :
    x.entriesApply [e] = (linesDropped ((entriesBegun x []).entryFollow e)).timeFollow.batchEnd := by
  have lines : [e].find? (·.kind == 9) = none := by rw [List.find?_cons, h9]; rfl
  have late : [e].filter (·.kind == 12) = [] := by rw [List.filter_cons, h12]; rfl
  unfold State.entriesApply
  rw [lines, late]
  rfl

theorem floorRaise_tb (s : State) (m c : Nat) : (s.floorRaise m c).tb = s.tb := by
  rw [State.floorRaise]
  split
  · rw [wr_tb, wr_tb]
  · rfl

theorem floorRaise_lanes (s : State) (m c : Nat) : (s.floorRaise m c).lanes = s.lanes := by
  rw [State.floorRaise]
  split
  · rw [wr_lanes, wr_lanes]
  · rfl

/-- What one entry that raises a floor leaves where no rate and no phase wait and no lane's record does. -/
theorem entriesApply_floor {e : TsEntry} (h9 : (e.kind == 9) = false) (h12 : (e.kind == 12) = false)
    (he : ∀ y : State, y.entryFollow e = y.floorRaise m c) (hi : x.tb.newIncr = none) (ha : x.tb.adj = none)
    (hr : ∀ l < 96, (x.laneSt l).ctl.any (·.copies == 0) = false) :
    x.entriesApply [e] = withPair (x.floorRaise m c) { x.pair with tickLines := [], batch := false } := by
  have raised : linesDropped ((entriesBegun x []).floorRaise m c) =
      withPair (x.floorRaise m c) { x.pair with tickLines := [], batch := true } := by
    rw [entriesBegun_eq, floorRaise_withPair, linesDropped, withPair_pair, withPair_withPair]
  rw [entriesApply_one _ h9 h12, he, raised, timeFollow_idle, batchEnd_idle, withPair_pair, withPair_withPair]
  · intro l hl
    rw [withPair_laneSt, State.laneSt, floorRaise_lanes]
    exact hr l hl
  · rw [withPair_tb, floorRaise_tb, hi]
  · rw [withPair_tb, floorRaise_tb, ha]

/-- The entries of a copy in the order of its parts. -/
def entriesInOrder (c : CopyIn) : List TsEntry :=
  (List.range c.parts).flatMap fun p => ((c.got.find? (·.1 == p)).map (·.2)).getD []

/-- A state that has applied a copy's entries: the tick named, the copy counted. -/
def copyCounted (y : State) (n : Nat) : State :=
  (withPair y { y.pair with appliedTick := n }).inc PR_TS_STAT_COPIES

theorem copyApply_eq (k : CopyIn) :
    x.copyApply k = (copyCounted (x.entriesApply (entriesInOrder k)) k.tick).recordCopy k.tick (entriesInOrder k) := rfl

/-- A copy of a single frame. -/
def oneFrame (n : Nat) (es : List TsEntry) : CopyIn := ⟨n, 1, [(0, es)]⟩

theorem entriesInOrder_oneFrame (es : List TsEntry) : entriesInOrder (oneFrame n es) = es := List.append_nil es

/-- A state that holds these copies. -/
def holding (x : State) (l : List CopyIn) : State := withPair x { x.pair with copies := l }

theorem copiesRun_one {k : CopyIn} (hw : k.whole = true) : (holding x [k]).copiesRun 1 = (holding x []).copyApply k := by
  show (if k.whole then (holding x []).copyApply k else holding x [k]) = _
  rw [if_pos hw]

/-- The copies held with one more part of a tick's. -/
def copyPut (l : List CopyIn) (n part parts : Nat) (es : List TsEntry) : List CopyIn :=
  if l.any (·.tick == n) then
    l.map fun c => if c.tick == n && !(c.got.any (·.1 == part)) then { c with got := c.got ++ [(part, es)] } else c
  else l ++ [⟨n, parts, [(part, es)]⟩]

theorem copyPut_nil (es : List TsEntry) : copyPut [] n 0 1 es = [oneFrame n es] := rfl

/-- What follows once a part is held: a joining unit keeps up to 64 copies, another applies those that are whole. -/
def copiesHeld (x : State) (k : Nat) : State :=
  if x.joining && !x.joined then (if 64 < k then x.copiesDrop.raise 0x6110 0 0 0 else x) else x.copiesRun k

theorem tsTake_standby (part parts : Nat) (es : List TsEntry) (hg : x.goodStandby = true) :
    x.tsTake tick part parts es = copiesHeld (holding x (copyPut x.pair.copies (x.tickOf tick) part parts es))
      (copyPut x.pair.copies (x.tickOf tick) part parts es).length := by
  unfold State.tsTake
  rw [hg]
  rfl

/-- A standby with no copy held applies one of a single frame at once. -/
theorem tsTake_oneFrame (es : List TsEntry) (hg : x.goodStandby = true) (hj : x.joining = false) (hc : x.pair.copies = []) :
    x.tsTake tick 0 1 es = (holding x []).copyApply (oneFrame (x.tickOf tick) es) := by
  have follows : ¬((holding x [oneFrame (x.tickOf tick) es]).joining &&
      !(holding x [oneFrame (x.tickOf tick) es]).joined) = true := by
    rw [holding, withPair_joining, hj, Bool.false_and]
    decide
  rw [tsTake_standby _ _ _ hg, hc, copyPut_nil, copiesHeld, if_neg follows]
  exact copiesRun_one rfl

end Copy

end Sys2Proof.Proofs
end

section
open Sys2Proof Sys2Proof.Machine
namespace Sys2Proof.Proofs
/-! A standby that applies a copy of one COUNTER entry, and the ACK that names the tick. -/

section Counter
variable {t tick m n c : Nat} {h : RelHdr} {x s : State}

/-- The state a copy that raises one floor leaves, but for its record. -/
def floorCopied (x : State) (m c n : Nat) : State :=
  copyCounted (withPair (x.floorRaise m c) { x.pair with copies := [], tickLines := [], batch := false }) n

theorem floorCopied_pair :
    (floorCopied x m c n).pair = { x.pair with copies := [], tickLines := [], batch := false, appliedTick := n } := by
  rw [floorCopied, copyCounted, State.inc, State.add, put_pair, withPair_pair, withPair_pair]

theorem rd_floorCopied {a : Nat} (hc : a ≠ PR_TS_STAT) (hl : a ≠ HP_MST_CTR_LO m) (hh : a ≠ HP_MST_CTR_HI m) :
    (floorCopied x m c n).rd a = x.rd a := by
  rw [floorCopied, copyCounted, State.inc, State.add, rd_put_ne _ _ _ hc, rd_withPair, rd_withPair, rd_floorRaise _ _ _ hl hh]

theorem floorRaise_out (s : State) (m c : Nat) : (s.floorRaise m c).out = s.out := by
  rw [State.floorRaise]
  split
  · rw [wr_out, wr_out]
  · rfl

theorem floorRaise_base (s : State) (m c : Nat) : (s.floorRaise m c).base = s.base := by
  rw [State.floorRaise]
  split
  · rw [wr_base, wr_base]
  · rfl

theorem floorCopied_out : (floorCopied x m c n).out = x.out := by
  rw [floorCopied, copyCounted, State.inc, State.add, put_out, withPair_out, withPair_out, floorRaise_out]

theorem floorCopied_base : (floorCopied x m c n).base = x.base := by
  rw [floorCopied, copyCounted, State.inc, State.add, put_base, withPair_base, withPair_base, floorRaise_base]

theorem ctr_addr (hm : m < 4) : 0x0E0104 ≤ HP_MST_CTR_LO m ∧ HP_MST_CTR_LO m ≤ 0x0E0134 ∧
    HP_MST_CTR_HI m = HP_MST_CTR_LO m + 4 := by
  simp only [HP_MST_CTR_LO, HP_MST_CTR_HI]
  omega

theorem get_floorCopied_copies (hm : m < 4) :
    (floorCopied x m c n).get PR_TS_STAT_COPIES = (x.get PR_TS_STAT_COPIES + 1) % 2 ^ 16 := by
  obtain ⟨hl, hu, hh⟩ := ctr_addr hm
  have lo : PR_TS_STAT ≠ HP_MST_CTR_LO m := by simp only [PR_TS_STAT]; omega
  have hi : PR_TS_STAT ≠ HP_MST_CTR_HI m := by simp only [PR_TS_STAT]; omega
  rw [floorCopied, copyCounted, get_inc _ _ (by decide) (by decide), State.get, rd_withPair, rd_withPair,
    rd_floorRaise _ _ _ lo hi]
  rfl

theorem floor_floorCopied (hm : m < 4) (hc : c < 2 ^ 64) : (floorCopied x m c n).floor m = max (x.floor m) c := by
  obtain ⟨hl, hu, hh⟩ := ctr_addr hm
  have lo : HP_MST_CTR_LO m ≠ PR_TS_STAT := by simp only [PR_TS_STAT]; omega
  have hi : HP_MST_CTR_HI m ≠ PR_TS_STAT := by simp only [PR_TS_STAT]; omega
  rw [floorCopied, copyCounted, State.inc, State.add, floor_eq_rd, rd_put_ne _ _ _ hi, rd_put_ne _ _ _ lo, ← floor_eq_rd,
    withPair_floor, withPair_floor, floor_floorRaise x m c hc]

theorem tsTake_counter {hi lo : Nat} (hg : x.goodStandby = true) (hj : x.joining = false) (hc : x.pair.copies = [])
    (hm : m < 4) (hi' : x.tb.newIncr = none) (ha : x.tb.adj = none)
    (hr : ∀ l < 96, (x.laneSt l).ctl.any (·.copies == 0) = false) (hv : hi * 2 ^ 32 + lo = c) :
    x.tsTake tick 0 1 [counterEntry m hi lo] =
      (floorCopied x m c (x.tickOf tick)).recordCopy (x.tickOf tick) [counterEntry m hi lo] := by
  have follow (y : State) : y.entryFollow (counterEntry m hi lo) = y.floorRaise m c := by
    rw [entryFollow_counter hi lo hm, hv]
  have applied : (holding x []).entriesApply [counterEntry m hi lo] = withPair (x.floorRaise m c)
      { x.pair with copies := [], tickLines := [], batch := false } := by
    rw [entriesApply_floor (x := holding x []) rfl rfl follow hi' ha hr, holding, floorRaise_withPair,
      withPair_withPair, withPair_pair]
  rw [tsTake_oneFrame _ hg hj hc, copyApply_eq, entriesInOrder_oneFrame, applied]
  rfl

theorem heard_floor (s : State) (h : RelHdr) (hm : m < 4) : (heard s h).floor m = s.floor m := by
  obtain ⟨hl, hu, hh⟩ := ctr_addr hm
  have lo : HP_MST_CTR_LO m ≠ PR_PARTNER_CLAIM := by simp only [PR_PARTNER_CLAIM]; omega
  have hi : HP_MST_CTR_HI m ≠ PR_PARTNER_CLAIM := by simp only [PR_PARTNER_CLAIM]; omega
  rw [floor_eq_rd, floor_eq_rd, rd_heard _ _ lo, rd_heard _ _ hi]

theorem base_of_goodStandby (h : s.goodStandby = true) : s.base = .standby := by
  simp only [State.goodStandby, Bool.and_eq_true, beq_iff_eq] at h
  exact h.1.1

theorem exec_ts_counter {hi lo : Nat} (hc : s.core = .running) (hu : s.linkUp = true) (ha : h.arrival = .good)
    (hq : h.fseq = s.pair.fseqRx) (hg : s.goodStandby = true) (hj : s.joining = false) (hcp : s.pair.copies = [])
    (hi' : s.tb.newIncr = none) (had : s.tb.adj = none)
    (hr : ∀ l < 96, (s.laneSt l).ctl.any (·.copies == 0) = false) (hm : m < 4) (hhi : hi < 2 ^ 32) (hlo : lo < 2 ^ 32) :
    ∃ s', exec (.tsFrame t h tick 0 1 [⟨2, [m, hi, lo]⟩]) s = .next s' ∧
      s'.floor m = max (s.floor m) (hi * 2 ^ 32 + lo) ∧ s'.pair.appliedTick = (s.advance t).tickOf tick ∧
      s'.pair.copies = [] ∧ s'.get PR_TS_STAT_COPIES = (s.get PR_TS_STAT_COPIES + 1) % 2 ^ 16 ∧
      s'.out = s.out ++ [.ecnal (.ack ⟨s.claim, (h.fseq + 1) % 2 ^ 32, (s.advance t).tickOf tick,
        s.get (JL_READY_CH 0), s.get (JL_READY_CH 1), s.get (JL_READY_CH 2)⟩)] ∧
      WordsKept s s' [PR_PARTNER_CLAIM, PR_TS_STAT, HP_MST_CTR_LO m, HP_MST_CTR_HI m] := by
  obtain ⟨hl, hup, hh⟩ := ctr_addr hm
  have standby := base_of_goodStandby ((heard_goodStandby (s.advance t) h).trans hg)
  have small : hi * 2 ^ 32 + lo < 2 ^ 64 := by omega
  generalize hv : hi * 2 ^ 32 + lo = c at small ⊢
  have taken := tsTake_counter (x := heard (s.advance t) h) (tick := tick) ((heard_goodStandby ..).trans hg)
    ((heard_joining ..).trans hj) hcp hm hi' had hr hv
  rw [heard_tickOf] at taken
  generalize (s.advance t).tickOf tick = n at taken ⊢
  have word {a : Nat} (hp : a ≠ PR_PARTNER_CLAIM) (hc : a ≠ PR_TS_STAT) (hl : a ≠ HP_MST_CTR_LO m)
      (hh : a ≠ HP_MST_CTR_HI m) : (floorCopied (heard (s.advance t) h) m c n).rd a = s.rd a :=
    (rd_floorCopied hc hl hh).trans (rd_heard (s.advance t) h hp)
  have acks : ∀ a ∈ ackWords, (floorCopied (heard (s.advance t) h) m c n).rd a = s.rd a := fun a ha => by
    have low := (show ∀ a ∈ ackWords, a < 0x0E0104 ∧ a ≠ PR_PARTNER_CLAIM ∧ a ≠ PR_TS_STAT by decide) a ha
    exact word low.2.1 low.2.2 (by omega) (by omega)
  obtain ⟨s', e, R⟩ := relIn_acked (t := t) (f := fun s => s.tsTake tick 0 1 [counterEntry m hi lo])
    (y := floorCopied (heard (s.advance t) h) m c n) hc hu ha hq (by rw [taken]; exact rest_record ..) acks
  have pair := (pair_of_sent R).symm.trans (congrArg (fun p : Pair => { p with entries := s'.pair.entries }) floorCopied_pair)
  have hidden : HP_MST_CTR_LO m ∉ shown ∧ HP_MST_CTR_HI m ∉ shown := by
    have low : ∀ a ∈ shown, a < 0x0E0104 ∨ 0x0E0138 < a := by decide
    exact ⟨fun h' => by have := low _ h'; omega, fun h' => by have := low _ h'; omega⟩
  refine ⟨s', e, ?_, ?_, ?_, ?_, ?_, fun a hs hn => ?_⟩
  · rw [State.floor, get_of_sent R _ hidden.2, get_of_sent R _ hidden.1]
    exact (floor_floorCopied hm small).trans (congrArg (max · c) (heard_floor (s.advance t) h hm))
  · rw [pair]
  · rw [pair]
  · exact (get_of_sent R _ (by decide)).trans ((get_floorCopied_copies hm).trans (by rw [get_heard _ _ (by decide)]; rfl))
  · rw [out_of_sent R, floorCopied_out, ackFrom, floorCopied_base, floorCopied_pair, if_pos standby]
    rfl
  · simp only [List.mem_cons, List.not_mem_nil, or_false, not_or] at hn
    obtain ⟨hp, hc, hl, hh⟩ := hn
    exact (rd_of_sent R hs).trans (word hp hc hl hh)

end Counter

end Sys2Proof.Proofs
end

section
open Sys2Proof Sys2Proof.Machine
namespace Sys2Proof.Proofs
/-! The partner's digest of a strip (R66). -/

section Digest
variable {t id gen k len digest : Nat} {h : RelHdr} {s x : State}

theorem relIn_reported {f : State → State} {y : State} {code a0 a1 a2 : Nat} (hc : s.core = .running)
    (hu : s.linkUp = true) (ha : h.arrival = .good) (hq : h.fseq = s.pair.fseqRx) (hf : f (heard (s.advance t) h) = y)
    (hr : Reports (s.advance t) y code a0 a1 a2) :
    ∃ s' l, run t (fun s => s.relIn h f) s = .next s' ∧ Rest (withOut y l) s' ∧ Reports (s.advance t) s' code a0 a1 a2 := by
  obtain ⟨l, hl⟩ := ackSend_only y
  have done : (s.advance t).relIn h f = withOut y l := by rw [relIn_inOrder (x := s.advance t) ha hu hq, hf, hl]
  obtain ⟨s', e, R, r⟩ := run_reports (t := t) (f := fun s => s.relIn h f) (x := withOut y l) hc
    (by rw [done]; exact Rest.refl _) (by rw [done]; exact hr)
  exact ⟨s', l, e, R, r⟩

/-- The state with the partner's digest of a strip beside its own. -/
def digestNoted (x : State) (id gen k len digest : Nat) : State :=
  x.modSlot id gen k fun y => { y with partner := some (len, digest) }

theorem slotOf_digestNoted {f : Surface} (hf : x.surf id gen = some f) :
    (digestNoted x id gen k len digest).slotOf id gen k = { x.slotOf id gen k with partner := some (len, digest) } :=
  slotOf_modSlot x id gen k _ hf

theorem digestIn_noted {f : Surface} (hf : x.surf id gen = some f) :
    x.digestIn id gen k len digest = (digestNoted x id gen k len digest).compareSlot id gen k := by
  rw [State.digestIn, hf]
  rfl

theorem digestIn_equal {f : Surface} (hf : x.surf id gen = some f) (hs : (x.slotOf id gen k).state = stStored)
    (hl : len = (x.slotOf id gen k).len) (hd : digest = (x.slotOf id gen k).digest) :
    x.digestIn id gen k len digest =
      (digestNoted x id gen k len digest).modSlot id gen k fun y => { y with state := stHeld } := by
  have stored : ((x.slotOf id gen k).state == stStored || (x.slotOf id gen k).state == stMismatch) = true := by
    rw [hs]; rfl
  have equal : (len == (x.slotOf id gen k).len && digest == (x.slotOf id gen k).digest) = true := by
    rw [← hl, ← hd, beq_self_eq_true, beq_self_eq_true, Bool.and_self]
  rw [digestIn_noted hf, State.compareSlot, slotOf_digestNoted hf]
  exact (if_pos stored).trans (if_pos equal)

theorem digestIn_other {f : Surface} (hf : x.surf id gen = some f) (hs : (x.slotOf id gen k).state = stStored)
    (hd : digest ≠ (x.slotOf id gen k).digest) :
    x.digestIn id gen k len digest =
      ((digestNoted x id gen k len digest).modSlot id gen k fun y => { y with state := stMismatch }).raise 0x3102 0
        (packGen id gen) k := by
  have stored : ((x.slotOf id gen k).state == stStored || (x.slotOf id gen k).state == stMismatch) = true := by
    rw [hs]; rfl
  have differ : ¬(len == (x.slotOf id gen k).len && digest == (x.slotOf id gen k).digest) = true := by
    simp [hd]
  rw [digestIn_noted hf, State.compareSlot, slotOf_digestNoted hf]
  exact (if_pos stored).trans (if_neg differ)

theorem slotOf_after {f : Surface} (hf : x.surf id gen = some f) (hs : (x.slotOf id gen k).state = stStored)
    (st : Nat) :
    (((digestNoted x id gen k len digest).modSlot id gen k fun y => { y with state := st }).slotOf id gen k).state = st := by
  have held := slotOf_digestNoted (k := k) (len := len) (digest := digest) hf
  obtain ⟨g, hg⟩ := surf_of_slot_used (s := digestNoted x id gen k len digest) (id := id) (gen := gen) (k := k) (by
    rw [held]
    exact fun e => absurd (hs.symm.trans e) (by decide))
  rw [slotOf_modSlot _ _ _ _ _ hg]

/-- The state with a slot's state changed beside the partner's digest. -/
def compared (x : State) (d : DigestItem) (st : Nat) : State :=
  (digestNoted x d.surf d.gen d.slot d.len d.digest).modSlot d.surf d.gen d.slot fun y => { y with state := st }

theorem rd_compared (x : State) (d : DigestItem) (st a : Nat) : (compared x d st).rd a = x.rd a := rfl

theorem compared_pair (x : State) (d : DigestItem) (st : Nat) : (compared x d st).pair = x.pair := rfl

theorem untold_compared (x : State) (d : DigestItem) (st : Nat) (h : Untold s x) : Untold s (compared x d st) :=
  ⟨h.events, h.now, h.next⟩

theorem untold_heard (s : State) (h : RelHdr) : Untold s (heard s h) :=
  have w : Untold s (s.wr PR_PARTNER_CLAIM h.claim) := untold_wr (by decide) (untold_refl s)
  ⟨w.events, w.now, w.next⟩

/-- What a frame of one digest does. -/
def digestOne (d : DigestItem) (s : State) : State :=
  s.each ([d].take 127) fun s d => s.digestIn d.surf d.gen d.slot d.len d.digest

theorem digestOne_eq (d : DigestItem) (s : State) : digestOne d s = s.digestIn d.surf d.gen d.slot d.len d.digest := rfl

variable {d : DigestItem}

theorem exec_digest_equal (hc : s.core = .running) (hu : s.linkUp = true) (ha : h.arrival = .good)
    (hq : h.fseq = s.pair.fseqRx) (hf : (s.surf d.surf d.gen).isSome = true)
    (hs : (s.slotOf d.surf d.gen d.slot).state = stStored) (hl : d.len = (s.slotOf d.surf d.gen d.slot).len)
    (hd : d.digest = (s.slotOf d.surf d.gen d.slot).digest) :
    ∃ s', exec (.digestFrame t h [d]) s = .next s' ∧ (s'.slotOf d.surf d.gen d.slot).state = stHeld ∧
      s'.pair.fseqRx = (h.fseq + 1) % 2 ^ 32 ∧ WordsKept s s' [PR_PARTNER_CLAIM] := by
  obtain ⟨f, hf⟩ := Option.isSome_iff_exists.1 hf
  have found : (heard (s.advance t) h).surf d.surf d.gen = some f := hf
  have taken : digestOne d (heard (s.advance t) h) = compared (heard (s.advance t) h) d stHeld :=
    (digestOne_eq ..).trans (digestIn_equal found hs hl hd)
  obtain ⟨s', l, e, R⟩ := relIn_sent (t := t) (f := digestOne d) hc hu ha hq taken
  refine ⟨s', e, ?_, ?_, fun a hs hn => ?_⟩
  · rw [slotOf_congr (x := compared (heard (s.advance t) h) d stHeld) (congrArg Ingest.surfs (ingest_of_sent R))]
    exact slotOf_after found hs stHeld
  · rw [← pair_of_sent R, compared_pair, heard_pair]
  · rw [rd_of_sent R hs, rd_compared]
    exact rd_heard (s.advance t) h (by simpa using hn)

theorem exec_digest_other (hc : s.core = .running) (hu : s.linkUp = true) (ha : h.arrival = .good)
    (hq : h.fseq = s.pair.fseqRx) (hf : (s.surf d.surf d.gen).isSome = true)
    (hs : (s.slotOf d.surf d.gen d.slot).state = stStored) (hd : d.digest ≠ (s.slotOf d.surf d.gen d.slot).digest) :
    ∃ s', exec (.digestFrame t h [d]) s = .next s' ∧ (s'.slotOf d.surf d.gen d.slot).state = stMismatch ∧
      Reports (s.advance t) s' 0x3102 0 (packGen d.surf d.gen) d.slot ∧ s'.pair.fseqRx = (h.fseq + 1) % 2 ^ 32 := by
  obtain ⟨f, hf⟩ := Option.isSome_iff_exists.1 hf
  have found : (heard (s.advance t) h).surf d.surf d.gen = some f := hf
  have taken : digestOne d (heard (s.advance t) h) =
      (compared (heard (s.advance t) h) d stMismatch).raise 0x3102 0 (packGen d.surf d.gen) d.slot :=
    (digestOne_eq ..).trans (digestIn_other found hs hd)
  have told := rest_raise (compared (heard (s.advance t) h) d stMismatch) 0x3102 0 (packGen d.surf d.gen) d.slot
  obtain ⟨s', l, e, R, r⟩ := relIn_reported (t := t) (f := digestOne d) hc hu ha hq taken
    ((untold_compared _ d stMismatch (untold_heard (s.advance t) h)).reports ..)
  refine ⟨s', e, ?_, r, ?_⟩
  · rw [slotOf_congr (x := compared (heard (s.advance t) h) d stMismatch)
      ((congrArg Ingest.surfs (ingest_of_sent R)).trans (congrArg Ingest.surfs (rest_ingest told)))]
    exact slotOf_after found hs stMismatch
  · rw [← pair_of_sent R, ← pair_of_rest told, compared_pair, heard_pair]

end Digest

end Sys2Proof.Proofs
end

section
open Sys2Proof Sys2Proof.Machine
namespace Sys2Proof.Proofs
/-! ACKs and resends of reliable frames, the order of those that wait (R376, R377), and the frames of a snapshot's object
(R402). -/

section Acks
variable {x s : State} {t n r next : Nat} {b : RelBody}

/-- A unit with no frame waiting has none to send. -/
theorem relPump_none (h : x.pair.waiting = []) : x.relPump n = x := by
  cases n with
  | zero => rfl
  | succ n => simp only [State.relPump, h]

/-- A unit with 129 frames unacknowledged sends no other. -/
theorem relPump_full (h : 128 < x.pair.unacked.length) : x.relPump n = x := by
  cases n with
  | zero => rfl
  | succ n =>
    rw [State.relPump]
    split
    · rfl
    · rw [if_pos h]

/-- How many frames a frame number acknowledges. -/
def ackedBy (p : Pair) (next : Nat) : Nat := (p.unacked.filter fun f => later 32 next f.fseq).length

/-- The pair state without the frames a frame number acknowledges. -/
def acksGone (p : Pair) (next at_ : Nat) : Pair :=
  { p with unacked := p.unacked.drop (ackedBy p next), ackAdvAt := at_ }

theorem relAck_none (h : ackedBy x.pair next = 0) : x.relAck next = x := by
  rw [State.relAck]
  exact if_pos h

theorem relAck_some (h : ackedBy x.pair next ≠ 0) :
    x.relAck next = (withPair x (acksGone x.pair next x.now)).relPump 129 := by
  rw [State.relAck]
  exact if_neg h

/-- The frames an ACK acknowledges go; with none waiting, that is all. -/
theorem relAck_idle (hw : x.pair.waiting = []) :
    ∃ at_, x.relAck next = withPair x (acksGone x.pair next at_) := by
  by_cases h : ackedBy x.pair next = 0
  · refine ⟨x.pair.ackAdvAt, ?_⟩
    rw [relAck_none h, acksGone, h, List.drop_zero]
    rfl
  · exact ⟨x.now, (relAck_some h).trans (relPump_none hw)⟩

/-- The pair state that has sent the only frame that waited. -/
def firstSent (p : Pair) (now : Nat) (b : RelBody) : Pair :=
  { p with
    waiting := [], fseqTx := (p.fseqTx + 1) % 2 ^ 32, unacked := p.unacked ++ [⟨p.fseqTx, b⟩]
    ackAdvAt := if p.unacked.isEmpty then now else p.ackAdvAt }

theorem relOut_up {f : RelFrame} (hu : x.linkUp = true) : x.relOut f = withOut x (x.out ++ [.ecnal (f.frame x.claim)]) := by
  rw [State.relOut, State.frameOut, if_pos hu]
  rfl

/-- The only frame that waits leaves where there is room. -/
theorem relPump_first (hu : x.linkUp = true) (hw : x.pair.waiting = [(r, b)]) (hl : ¬128 < x.pair.unacked.length) :
    x.relPump (n + 1) = withOut (withPair x (firstSent x.pair x.now b))
      (x.out ++ [.ecnal ((⟨x.pair.fseqTx, b⟩ : RelFrame).frame x.claim)]) := by
  have up : (withPair x (firstSent x.pair x.now b)).linkUp = true := hu
  have sent : x.relPump (n + 1) = ((withPair x (firstSent x.pair x.now b)).relOut ⟨x.pair.fseqTx, b⟩).relPump n := by
    rw [State.relPump, hw]
    exact if_neg hl
  rw [sent, relOut_up up]
  exact relPump_none rfl

theorem each_relOut (l : List RelFrame) (hu : x.linkUp = true) :
    x.each l State.relOut = withOut x (x.out ++ l.map fun f => .ecnal (f.frame x.claim)) := by
  induction l generalizing x with
  | nil => rw [List.map_nil, List.append_nil]; rfl
  | cons f l ih =>
    have up : (withOut x (x.out ++ [.ecnal (f.frame x.claim)])).linkUp = true := hu
    show (x.relOut f).each l State.relOut = _
    rw [relOut_up hu, ih up]
    exact congrArg (withOut x) (List.append_cons ..).symm

end Acks

section Order
variable {r : Nat} {b : RelBody}

/-- The frames that wait with one more, after those of its rank and before the rest. -/
def placedIn (l : List (Nat × RelBody)) (r : Nat) (b : RelBody) : List (Nat × RelBody) :=
  l.takeWhile (fun w => decide (w.1 ≤ r)) ++ (r, b) :: l.dropWhile (fun w => decide (w.1 ≤ r))

theorem placedIn_perm (l : List (Nat × RelBody)) : (placedIn l r b).Perm ((r, b) :: l) := by
  have whole := List.takeWhile_append_dropWhile (p := fun w : Nat × RelBody => decide (w.1 ≤ r)) (l := l)
  exact List.perm_middle.trans (by rw [whole])

theorem placedIn_sorted {l : List (Nat × RelBody)} (h : (l.map (·.1)).Pairwise (· ≤ ·)) :
    ((placedIn l r b).map (·.1)).Pairwise (· ≤ ·) := by
  induction l with
  | nil => simp [placedIn]
  | cons w l ih =>
    obtain ⟨hw, hl⟩ := List.pairwise_cons.1 h
    by_cases hr : w.1 ≤ r
    · have front : placedIn (w :: l) r b = w :: placedIn l r b := by
        simp [placedIn, hr]
      rw [front]
      refine List.pairwise_cons.2 ⟨fun n hn => ?_, ih hl⟩
      rcases List.mem_cons.1 (((placedIn_perm l).map (·.1)).mem_iff.1 hn) with rfl | hn
      · exact hr
      · exact hw n hn
    · have front : placedIn (w :: l) r b = (r, b) :: w :: l := by
        simp [placedIn, hr]
      rw [front]
      refine List.pairwise_cons.2 ⟨fun n hn => ?_, h⟩
      rcases List.mem_cons.1 hn with rfl | hn
      · exact (Nat.lt_of_not_le hr).le
      · exact (Nat.lt_of_not_le hr).le.trans (hw n hn)

theorem relPut_full {s : State} {d : Bool} (h : 128 < s.pair.unacked.length) :
    s.relPut d b = withPair s { s.pair with waiting := placedIn s.pair.waiting (b.rank d) b } :=
  relPump_full (x := withPair s { s.pair with waiting := placedIn s.pair.waiting (b.rank d) b }) h

end Order

section Pieces

theorem piecesOf_flatten (k : Nat) (l : List Nat) : (piecesOf k l).flatten = l := by
  induction k generalizing l with
  | zero => simp [piecesOf]
  | succ k ih =>
    rw [piecesOf]
    split
    · simp
    · rw [List.flatten_cons, ih, List.take_append_drop]

theorem piecesOf_short {k : Nat} {l : List Nat} (h : l.length / 505 ≤ k) : ∀ p ∈ piecesOf k l, p.length ≤ 505 := by
  induction k generalizing l with
  | zero =>
    intro p hp
    rw [List.mem_singleton.1 hp]
    omega
  | succ k ih =>
    rw [piecesOf]
    split
    next hs =>
      intro p hp
      rw [List.mem_singleton.1 hp]
      exact hs
    next hs =>
      intro p hp
      rcases List.mem_cons.1 hp with rfl | hp
      · exact List.length_take_le ..
      · exact ih (by rw [List.length_drop]; omega) p hp

theorem pieces_words (o : ResyncObj) : o.pieces.flatMap (·.2) = o.words := by
  have each : o.pieces.map (·.2) = piecesOf (o.words.length / 505) o.words := by
    rw [ResyncObj.pieces, List.map_map]
    exact List.zipIdx_map_fst ..
  rw [List.flatMap_def, each, piecesOf_flatten]

theorem length_wordBytes (w : Nat) : (wordBytes w).length = 4 := rfl

theorem length_wordsBytes (ws : List Nat) : (wordsBytes ws).length = 4 * ws.length := by
  induction ws with
  | nil => rfl
  | cons w ws ih =>
    rw [wordsBytes, List.flatMap_cons, List.length_append, length_wordBytes, List.length_cons]
    rw [wordsBytes] at ih
    omega

theorem length_frameBytes (type flags : Nat) (content : List Byte) :
    (frameBytes type flags content).length = content.length + 8 := by
  have check (v : Nat) : (beBytes 4 v).length = 4 := rfl
  rw [frameBytes, List.length_append, List.length_append, length_wordBytes, check]
  omega

theorem length_resyncFrame (claim fseq tick code index offset : Nat) (ws : List Nat) :
    (EFrame.bytes (.resync claim fseq tick code index offset ws)).length = 28 + 4 * ws.length := by
  rw [EFrame.bytes, length_frameBytes, length_wordsBytes, List.length_append]
  simp only [List.length_cons, List.length_nil]
  omega

theorem length_piece (o : ResyncObj) (claim fseq t0 index : Nat) :
    ∀ p ∈ o.pieces, (EFrame.bytes (.resync claim fseq t0 o.code index p.1 p.2)).length ≤ 2048 := by
  intro p hp
  obtain ⟨q, hq, rfl⟩ := List.mem_map.1 hp
  have short := piecesOf_short (Nat.le_refl _) q.1 (List.fst_mem_of_mem_zipIdx hq)
  rw [length_resyncFrame]
  show 28 + 4 * q.1.length ≤ 2048
  omega

end Pieces

end Sys2Proof.Proofs
end

section
open Sys2Proof Sys2Proof.Machine
namespace Sys2Proof.Proofs
/-! An ACK as it arrives, and the resend after 20 µs without one (R376). -/

section Acked
variable {t r : Nat} {b : RelBody} {k : AckFrame} {s x y s' : State}

/-- The state that shows the partner's claim. -/
def claimShown (s : State) (claim : Nat) : State :=
  withPair (s.wr PR_PARTNER_CLAIM claim) { s.pair with partnerEpoch := claim / 256 }

theorem rd_claimShown (s : State) (claim : Nat) {a : Nat} (ha : a ≠ PR_PARTNER_CLAIM) :
    (claimShown s claim).rd a = s.rd a := rd_wr_ne _ _ ha

theorem claimShown_linkUp (s : State) (claim : Nat) : (claimShown s claim).linkUp = s.linkUp := by
  rw [State.linkUp, State.is, State.get, rd_claimShown _ _ (by decide)]
  rfl

theorem claimShown_claim (s : State) (claim : Nat) : (claimShown s claim).claim = s.claim := by
  rw [State.claim, State.get, rd_claimShown _ _ (by decide)]
  rfl

/-- The state that shows the partner's READY channels. -/
def readyShown (s : State) (k : AckFrame) : State :=
  ((s.wr (PR_PARTNER_READY 0) k.ready0).wr (PR_PARTNER_READY 1) k.ready1).wr (PR_PARTNER_READY 2) k.ready2

theorem rd_readyShown (s : State) (k : AckFrame) :
    (readyShown s k).rd (PR_PARTNER_READY 0) = k.ready0 % 2 ^ 32 ∧
      (readyShown s k).rd (PR_PARTNER_READY 1) = k.ready1 % 2 ^ 32 ∧
      (readyShown s k).rd (PR_PARTNER_READY 2) = k.ready2 % 2 ^ 32 := by
  refine ⟨?_, ?_, rd_wr_same ..⟩
  · rw [readyShown, rd_wr_ne _ _ (by decide), rd_wr_ne _ _ (by decide), rd_wr_same]
  · rw [readyShown, rd_wr_ne _ _ (by decide), rd_wr_same]

theorem rd_readyShown_ne (s : State) (k : AckFrame) {a : Nat} (h0 : a ≠ PR_PARTNER_READY 0) (h1 : a ≠ PR_PARTNER_READY 1)
    (h2 : a ≠ PR_PARTNER_READY 2) : (readyShown s k).rd a = s.rd a := by
  rw [readyShown, rd_wr_ne _ _ h2, rd_wr_ne _ _ h1, rd_wr_ne _ _ h0]

theorem readyShown_pair (s : State) (k : AckFrame) : (readyShown s k).pair = s.pair := by
  rw [readyShown, wr_pair, wr_pair, wr_pair]

theorem readyShown_out (s : State) (k : AckFrame) : (readyShown s k).out = s.out := by
  rw [readyShown, wr_out, wr_out, wr_out]

theorem readyShown_base (s : State) (k : AckFrame) : (readyShown s k).base = s.base := by
  rw [readyShown, wr_base, wr_base, wr_base]

theorem copyAcked_other (h : s.base ≠ .active) (n : Nat) : s.copyAcked n = s := by
  have other : (s.base == .active) = false := beq_eq_false_iff_ne.2 h
  rw [State.copyAcked, other]
  rfl

/-- An ACK at a unit that is not the active: what it acknowledges goes, the partner's READY channels are shown. -/
theorem exec_ecnalAck (hc : s.core = .running) (hu : s.linkUp = true)
    (hx : (claimShown (s.advance t) k.claim).relAck k.nextFseq = x) (hb : x.base ≠ .active) :
    ∃ s', exec (.ecnalAck t .good k) s = .next s' ∧ Rest (readyShown x k) s' := by
  have base : (readyShown x k).base ≠ .active := by rw [readyShown_base]; exact hb
  have up : (s.advance t).linkUp = true := hu
  refine run_rest hc ?_
  show Rest _ (if (s.advance t).linkUp then
    (readyShown ((claimShown (s.advance t) k.claim).relAck k.nextFseq) k).copyAcked k.appliedTick else s.advance t)
  rw [if_pos up, hx, copyAcked_other base]
  exact Rest.refl _

theorem exec_ecnalAck_idle (hc : s.core = .running) (hu : s.linkUp = true) (hw : s.pair.waiting = [])
    (hb : s.base ≠ .active) :
    ∃ s', exec (.ecnalAck t .good k) s = .next s' ∧ s'.out = s.out ∧
      s'.pair.unacked = s.pair.unacked.drop (s.pair.unacked.filter fun f => later 32 k.nextFseq f.fseq).length ∧
      s'.rd (PR_PARTNER_READY 0) = k.ready0 % 2 ^ 32 ∧ s'.rd (PR_PARTNER_READY 1) = k.ready1 % 2 ^ 32 ∧
      s'.rd (PR_PARTNER_READY 2) = k.ready2 % 2 ^ 32 ∧
      WordsKept s s' [PR_PARTNER_CLAIM, PR_PARTNER_READY 0, PR_PARTNER_READY 1, PR_PARTNER_READY 2] := by
  obtain ⟨now, gone⟩ := relAck_idle (x := claimShown (s.advance t) k.claim) (next := k.nextFseq) hw
  obtain ⟨s', e, R⟩ := exec_ecnalAck (k := k) hc hu gone (by rw [withPair_base]; exact hb)
  obtain ⟨r0, r1, r2⟩ := rd_readyShown
    (withPair (claimShown (s.advance t) k.claim) (acksGone (claimShown (s.advance t) k.claim).pair k.nextFseq now)) k
  refine ⟨s', e, ?_, ?_, ?_, ?_, ?_, fun a hs hn => ?_⟩
  · rw [R.out, readyShown_out]
    rfl
  · rw [← pair_of_rest R, readyShown_pair]
    rfl
  · exact (R.words _ (by decide)).trans r0
  · exact (R.words _ (by decide)).trans r1
  · exact (R.words _ (by decide)).trans r2
  · simp only [List.mem_cons, List.not_mem_nil, or_false, not_or] at hn
    obtain ⟨hp, h0, h1, h2⟩ := hn
    rw [R.words a hs, rd_readyShown_ne _ _ h0 h1 h2, rd_withPair, rd_claimShown _ _ hp]
    rfl

theorem exec_ecnalAck_first (hc : s.core = .running) (hu : s.linkUp = true) (hw : s.pair.waiting = [(r, b)])
    (hb : s.base ≠ .active) (hl : s.pair.unacked.length = 129)
    (ha : s.pair.unacked.any (fun f => later 32 k.nextFseq f.fseq) = true) :
    ∃ s', exec (.ecnalAck t .good k) s = .next s' ∧ s'.pair.waiting = [] ∧
      s'.out = s.out ++ [.ecnal ((⟨s.pair.fseqTx, b⟩ : RelFrame).frame s.claim)] ∧
      s'.pair.fseqTx = (s.pair.fseqTx + 1) % 2 ^ 32 := by
  have some_gone : 0 < ackedBy s.pair k.nextFseq := by
    rw [ackedBy, List.length_pos_iff_exists_mem]
    obtain ⟨f, hf, hlt⟩ := List.any_eq_true.1 ha
    exact ⟨f, List.mem_filter.2 ⟨hf, hlt⟩⟩
  have room : ¬128 < (s.pair.unacked.drop (ackedBy s.pair k.nextFseq)).length := by
    rw [List.length_drop, hl]
    omega
  have up : (claimShown (s.advance t) k.claim).linkUp = true := (claimShown_linkUp ..).trans hu
  generalize hv : withPair (claimShown (s.advance t) k.claim) (acksGone (claimShown (s.advance t) k.claim).pair k.nextFseq
    (claimShown (s.advance t) k.claim).now) = v
  have vup : v.linkUp = true := by rw [← hv]; exact up
  have vclaim : v.claim = s.claim := by rw [← hv]; exact claimShown_claim (s.advance t) k.claim
  have vwait : v.pair.waiting = [(r, b)] := by rw [← hv]; exact hw
  have vroom : ¬128 < v.pair.unacked.length := by rw [← hv]; exact room
  have vtx : v.pair.fseqTx = s.pair.fseqTx := by rw [← hv]; rfl
  have vbase : v.base = s.base := by rw [← hv]; rfl
  have vout : v.out = s.out := by rw [← hv]; rfl
  have taken := (relAck_some (x := claimShown (s.advance t) k.claim) some_gone.ne').trans
    ((congrArg (State.relPump 129) hv).trans (relPump_first vup vwait vroom))
  obtain ⟨s', e, R⟩ := exec_ecnalAck (k := k) hc hu taken (by
    show v.base ≠ .active
    rw [vbase]
    exact hb)
  refine ⟨s', e, ?_, ?_, ?_⟩
  · rw [← pair_of_rest R, readyShown_pair]
    rfl
  · rw [R.out, readyShown_out, ← vout, ← vclaim, ← vtx]
    rfl
  · rw [← pair_of_rest R, readyShown_pair, ← vtx]
    rfl

theorem exec_ecnalResend (hc : s.core = .running) (hu : s.linkUp = true) (hn : s.pair.unacked ≠ [])
    (hp : (s.advance t).past s.pair.ackAdvAt 20000 = true) :
    ∃ s', exec (.ecnalResend t) s = .next s' ∧
      s'.out = s.out ++ s.pair.unacked.map (fun f => .ecnal (f.frame s.claim)) ∧
      s'.pair = { s.pair with ackAdvAt := (s.advance t).now, entries := s'.pair.entries } ∧
      s'.get PR_LINK_CNT_HIGH = (s.get PR_LINK_CNT_HIGH + 1) % 2 ^ 16 ∧ WordsKept s s' [PR_LINK_CNT] := by
  generalize hx : withPair (s.advance t) { s.pair with ackAdvAt := (s.advance t).now } = x
  have xup : x.linkUp = true := by rw [← hx]; exact hu
  have due : ((s.advance t).linkUp && !(s.advance t).pair.unacked.isEmpty &&
      (s.advance t).past (s.advance t).pair.ackAdvAt 20000) = true := by
    rw [show (s.advance t).linkUp = true from hu, advance_pair, hp, List.isEmpty_eq_false_iff.2 hn]
    rfl
  obtain ⟨s', e, R⟩ := run_rest (t := t) (s := s)
    (x := (withOut x (x.out ++ s.pair.unacked.map fun f => .ecnal (f.frame x.claim))).inc PR_LINK_CNT_HIGH)
    (f := fun s =>
      if s.linkUp && !s.pair.unacked.isEmpty && s.past s.pair.ackAdvAt 20000 then
        ((withPair s { s.pair with ackAdvAt := s.now }).each s.pair.unacked State.relOut).inc PR_LINK_CNT_HIGH
      else s) hc (by
    rw [if_pos due, advance_pair, hx, each_relOut _ xup]
    exact Rest.refl _)
  refine ⟨s', e, ?_, ?_, ?_, fun a hs hl => ?_⟩
  · rw [R.out, State.inc, State.add, put_out, ← hx]
    rfl
  · rw [← pair_of_rest R, State.inc, State.add, put_pair, ← hx]
    rfl
  · rw [R.get _ (by decide), get_inc _ _ (by decide) (by decide), ← hx]
    rfl
  · rw [R.words a hs, State.inc, State.add, rd_put_ne _ _ _ (by simpa using hl), ← hx]
    rfl

end Acked

end Sys2Proof.Proofs
end

section
open Sys2Proof Sys2Proof.Machine
namespace Sys2Proof.Proofs

/-- Settles O48: a reliable frame in order is its own effect and an ACK around it (`relIn_acked`, `relIn_pair`,
`relIn_sent`), so each kind of frame is left with its own effect; frames that wait are kept sorted by where a new one is
placed, and an object is cut into pieces of 505 words. -/
theorem reliableFrames : Obligations.ReliableFrames := by
  intro t s hc hu
  refine ⟨fun h ha hq => ⟨?_, ?_, ?_, ?_, ?_, ?_, ?_, ?_⟩, ?_, ?_, ?_, ?_, ?_⟩
  · intro tick part parts entries hg hj
    exact exec_ts_idle hc hu ha hq hg hj
  · intro tick obj hj
    exact exec_resync_idle hc hu ha hq hj
  · intro tick c hj hd ht
    obtain ⟨s', e, hp, -, hw⟩ := exec_resync_kept (o := .part c) hc hu ha hq hj hd ht nofun
    exact ⟨s', e, by rw [hp]; exact List.append_nil _, by rw [hp], hw⟩
  · intro tick obj hj hd hl hpart
    refine ⟨fun ht => ?_, fun ht => ?_⟩
    · have kept := exec_resync_kept hc hu ha hq hj hd ht hl
      rw [newObjs_whole hpart] at kept
      exact kept
    · have begun := exec_resync_anew hc hu ha hq hj hd ht hl
      rw [newObjs_whole hpart] at begun
      exact begun
  · intro tick b vals hj hd ht ho hf hcp _ hb hn hv
    exact exec_resync_whole hc hu ha hq hj hd ht ho hf hcp hb hn hv
  · intro tick m hj hd hn he hl
    exact exec_resync_motion hc hu ha hq hj hd hn he hl
  · intro tick m hi lo hg hj hcp hin had hr hm hhi hlo
    exact exec_ts_counter hc hu ha hq hg hj hcp hin had hr hm hhi hlo
  · intro d hf hs
    exact ⟨exec_digest_equal hc hu ha hq hf hs, exec_digest_other hc hu ha hq hf hs⟩
  · intro k hw hb
    exact exec_ecnalAck_idle hc hu hw hb
  · intro k r b hw hb hl ha
    exact exec_ecnalAck_first hc hu hw hb hl ha
  · intro d b hs hl
    rw [relPut_full hl]
    exact ⟨placedIn_sorted hs, rfl, placedIn_perm _⟩
  · intro hn hp
    exact exec_ecnalResend hc hu hn hp
  · intro o claim fseq t0 index
    exact ⟨pieces_words o, length_piece o claim fseq t0 index⟩

end Sys2Proof.Proofs
end

section
open Sys2Proof Sys2Proof.Machine
namespace Sys2Proof.Proofs
/-! Bits written most significant first, packed into bytes, and read back (R80, R82). -/

section Bits

@[simp] theorem length_natBits (n v : Nat) : (natBits n v).length = n := by
  induction n with
  | zero => rfl
  | succ n ih => rw [natBits, List.length_cons, ih]

theorem bitsNat_foldl (l : List Bool) (a : Nat) :
    l.foldl (fun a b => 2 * a + b2n b) a = a * 2 ^ l.length + bitsNat l := by
  induction l generalizing a with
  | nil => simp [bitsNat]
  | cons b l ih =>
    rw [bitsNat, List.foldl_cons, List.foldl_cons, ih, ih (2 * 0 + b2n b), List.length_cons]
    ring

theorem bitsNat_cons (b : Bool) (l : List Bool) : bitsNat (b :: l) = b2n b * 2 ^ l.length + bitsNat l := by
  exact (bitsNat_foldl l _).trans (by simp)

theorem bitsNat_lt (l : List Bool) : bitsNat l < 2 ^ l.length := by
  induction l with
  | nil => simp [bitsNat]
  | cons b l ih =>
    rw [bitsNat_cons, List.length_cons, Nat.pow_succ]
    cases b <;> simp [b2n] <;> omega

theorem bitsNat_natBits (n v : Nat) : bitsNat (natBits n v) = v % 2 ^ n := by
  induction n with
  | zero => simp [natBits, bitsNat, Nat.mod_one]
  | succ n ih =>
    rw [natBits, bitsNat_cons, ih, length_natBits, Nat.pow_succ, Nat.mod_mul, Nat.testBit_eq_decide_div_mod_eq, Nat.add_comm,
      Nat.mul_comm]
    obtain even | odd := Nat.mod_two_eq_zero_or_one (v / 2 ^ n) <;> simp [b2n, *]

theorem natBits_bitsNat (l : List Bool) : natBits l.length (bitsNat l) = l := by
  suffices ∀ a, natBits l.length (a * 2 ^ l.length + bitsNat l) = l by simpa using this 0
  induction l with
  | nil => intro a; rfl
  | cons b l ih =>
    intro a
    have shift : a * 2 ^ (b :: l).length + bitsNat (b :: l) = (2 * a + b2n b) * 2 ^ l.length + bitsNat l := by
      rw [bitsNat_cons, List.length_cons]; ring
    have top : ((2 * a + b2n b) * 2 ^ l.length + bitsNat l).testBit l.length = b := by
      rw [Nat.mul_comm, Nat.testBit_two_pow_mul_add _ (bitsNat_lt l), if_neg (Nat.lt_irrefl _), Nat.sub_self]
      cases b <;> simp [b2n]
    rw [shift, List.length_cons, natBits, top, ih]

/-- A field read where it was written. -/
@[simp] theorem bitsNat_take_natBits (n v : Nat) (r : List Bool) : bitsNat ((natBits n v ++ r).take n) = v % 2 ^ n := by
  rw [List.take_left' (length_natBits n v), bitsNat_natBits]

@[simp] theorem drop_natBits (n v : Nat) (r : List Bool) : (natBits n v ++ r).drop n = r :=
  List.drop_left' (length_natBits n v)

theorem byteBits_eq_natBits (b : Byte) : byteBits b = natBits 8 b.toNat := rfl

theorem byteBits_bitsNat {l : List Bool} (h : l.length = 8) : byteBits (BitVec.ofNat 8 (bitsNat l)) = l := by
  have small := bitsNat_lt l
  rw [h] at small
  rw [byteBits_eq_natBits, BitVec.toNat_ofNat, Nat.mod_eq_of_lt small, ← h, natBits_bitsNat]

theorem bytesBits_packBits {k : Nat} {bs : List Bool} (h : bs.length < 8 * k) :
    bytesBits (packBits k bs) = bs ++ List.replicate ((8 - bs.length % 8) % 8) false := by
  induction k generalizing bs with
  | zero => omega
  | succ k ih =>
    match bs with
    | [] => rfl
    | b :: bs =>
      obtain ⟨l, hl⟩ : ∃ l, l = b :: bs := ⟨_, rfl⟩
      rw [← hl] at h ⊢
      have first : ((l.take 8 ++ List.replicate 8 false).take 8).length = 8 := by simp
      have step : packBits (k + 1) l =
          BitVec.ofNat 8 (bitsNat ((l.take 8 ++ List.replicate 8 false).take 8)) :: packBits k (l.drop 8) := by
        rw [hl]; rfl
      rw [step, bytesBits, List.flatMap_cons, byteBits_bitsNat first, ← bytesBits]
      by_cases short : l.length < 8
      · have pos : 0 < l.length := by rw [hl]; exact Nat.succ_pos _
        have pad : (8 - l.length % 8) % 8 = 8 - l.length := by omega
        have done : packBits k (l.drop 8) = [] := by
          rw [List.drop_of_length_le (by omega)]
          cases k <;> rfl
        rw [done, List.take_of_length_le (by omega : l.length ≤ 8), List.take_append, pad, List.take_of_length_le (by omega),
          List.take_replicate, Nat.min_eq_left (Nat.sub_le ..)]
        simp [bytesBits]
      · have rest : (l.drop 8).length < 8 * k := by rw [List.length_drop]; omega
        have pad : (8 - (l.drop 8).length % 8) % 8 = (8 - l.length % 8) % 8 := by rw [List.length_drop]; omega
        rw [ih rest, pad, List.take_left' (by rw [List.length_take]; omega), ← List.append_assoc, List.take_append_drop]

/-- Bits packed into bytes read back, with the zero bits that fill the last byte. -/
theorem bytesBits_bitsBytes (bs : List Bool) :
    bytesBits (bitsBytes bs) = bs ++ List.replicate ((8 - bs.length % 8) % 8) false :=
  bytesBits_packBits (by omega)

theorem length_bytesBits (bs : List Byte) : (bytesBits bs).length = 8 * bs.length := by
  induction bs with
  | nil => rfl
  | cons b bs ih =>
    rw [bytesBits, List.flatMap_cons, List.length_append, ← bytesBits, ih, List.length_cons, byteBits_eq_natBits,
      length_natBits, Nat.mul_succ, Nat.add_comm]

theorem length_bitsBytes (bs : List Bool) : (bitsBytes bs).length = cdiv bs.length 8 := by
  have e := congrArg List.length (bytesBits_bitsBytes bs)
  rw [length_bytesBits, List.length_append, List.length_replicate] at e
  rw [cdiv, if_neg (by decide)]
  omega

theorem length_flatMap_natBits (k : Nat) (l : List Nat) : (l.flatMap (natBits k)).length = l.length * k := by
  rw [List.length_flatMap, List.map_congr_left (fun v _ => length_natBits k v), List.map_const', List.sum_replicate]
  rfl

theorem unpackSamples_flatMap (k : Nat) {l : List Nat} (h : ∀ v ∈ l, v < 2 ^ k) (r : List Bool) :
    unpackSamples k l.length (l.flatMap (natBits k) ++ r) = l := by
  induction l with
  | nil => rfl
  | cons v l ih =>
    rw [List.forall_mem_cons] at h
    rw [List.flatMap_cons, List.append_assoc, List.length_cons, unpackSamples, bitsNat_take_natBits, drop_natBits,
      Nat.mod_eq_of_lt h.1, ih h.2]

end Bits

end Sys2Proof.Proofs
end

section
open Sys2Proof Sys2Proof.Machine
namespace Sys2Proof.Proofs
/-! The variable-length count (R85), and SOLID strips (R84): O59. -/

section Counts

theorem leadingZeros_replicate {z k : Nat} (h : z < k) (r : List Bool) :
    leadingZeros k (List.replicate z false ++ true :: r) = some (z, true :: r) := by
  induction z generalizing k with
  | zero =>
    obtain ⟨k, rfl⟩ : ∃ j, k = j + 1 := ⟨k - 1, by omega⟩
    rfl
  | succ z ih =>
    obtain ⟨k, rfl⟩ : ∃ j, k = j + 1 := ⟨k - 1, by omega⟩
    rw [List.replicate_succ, List.cons_append, leadingZeros, if_neg Bool.false_ne_true, ih (by omega)]
    rfl

theorem leadingZeros_none {k : Nat} {bs : List Bool} (h : ∀ i < k, bs[i]? = some false) : leadingZeros k bs = none := by
  induction k generalizing bs with
  | zero => rfl
  | succ k ih =>
    match bs with
    | [] => rfl
    | b :: bs =>
      have first : b = false := by simpa using h 0 (Nat.succ_pos k)
      have rest : ∀ i < k, bs[i]? = some false := fun i hi => by simpa using h (i + 1) (by omega)
      rw [leadingZeros, first, if_neg Bool.false_ne_true, ih rest]
      rfl

/-- The number of a count opens with a one bit, which ends the zeros. -/
theorem natBits_log2 {n : Nat} (h : 1 ≤ n) : natBits (n.log2 + 1) n = true :: natBits n.log2 n := by
  rw [natBits, Nat.testBit_log2 (by omega)]

theorem readCount_countBits {n : Nat} (h : 1 ≤ n) (hn : n < 2 ^ 18) (rest : List Bool) :
    readCount (countBits n ++ rest) = .ok (n, rest) := by
  have size : n.log2 < 18 := (Nat.log2_lt (by omega)).mpr hn
  have zeros : leadingZeros 18 (countBits n ++ rest) = some (n.log2, natBits (n.log2 + 1) n ++ rest) := by
    rw [countBits, natBits_log2 h, List.append_assoc, List.cons_append, leadingZeros_replicate size]
  have long : ¬(natBits (n.log2 + 1) n ++ rest).length < n.log2 + 1 := by
    rw [List.length_append, length_natBits]; omega
  simp only [readCount, zeros]
  rw [if_neg (by omega), if_neg long, bitsNat_take_natBits, drop_natBits, Nat.mod_eq_of_lt Nat.lt_log2_self]

theorem readCount_zeros {bs : List Bool} (h : ∀ i < 18, bs[i]? = some false) :
    readCount bs = .error 3 := by
  have front : bs.take 18 = List.replicate 18 false := by
    refine List.ext_getElem? fun i => ?_
    rw [List.getElem?_take, List.getElem?_replicate]
    split
    · next hi => exact h i hi
    · rfl
  simp only [readCount, leadingZeros_none h, front]
  rfl

end Counts

/-- A header is read from a strip's first 16 bytes alone. -/
theorem parse_append {head : List Byte} (h : head.length = 16) (tail : List Byte) :
    StripHdr.parse (head ++ tail) = StripHdr.parse head := by
  have field (off n : Nat) (hn : off + n ≤ 16) : beAt (head ++ tail) off n = beAt head off n := by
    rw [beAt, beAt, slice, slice, List.drop_append_of_le_length (by omega), List.take_append_of_le_length
      (by rw [List.length_drop]; omega)]
  simp only [StripHdr.parse, field 0 4 (by omega), field 4 4 (by omega), field 8 4 (by omega), field 12 4 (by omega)]

/-- A strip whose header is valid and in place, and whose payload reads without error to samples of its CRC, delivers them. -/
theorem decodeStrip_of_read {g : StripGeom} {head tail : List Byte} {h : StripHdr} {ss : List Nat} (hl : head.length = 16)
    (hp : StripHdr.parse head = h) (hv : h.valid = true) (hf : h.fits g = true)
    (hr : readPayload g h.mode h.fill (tail.take h.payloadLen) = ⟨ss, 0⟩)
    (hc : h.crc = crc32c (rawForm g.bps g.widthM1 g.linesM1 ss)) : decodeStrip g (head ++ tail) = ⟨ss, 0⟩ := by
  have payload : slice (head ++ tail) 16 h.payloadLen = tail.take h.payloadLen := by
    rw [slice, List.drop_left' hl]
  have long : ¬head.length + tail.length < 16 := by omega
  simp [decodeStrip, parse_append hl, hp, hv, hf, payload, hr, hc, long]

/-- Settles O59: a count's zeros are counted up to the one bit that opens its number, which is read in as many bits; a SOLID
strip is the case of `decodeStrip_of_read` that reads no payload. -/
theorem casserCountsAndSolid : Obligations.CasserCountsAndSolid := by
  refine ⟨fun n rest h hn => ⟨rfl, readCount_countBits h hn rest⟩, fun bs _ h => readCount_zeros h, ?_⟩
  intro g head tail h hl hp hv hf hm hc
  refine decodeStrip_of_read hl hp hv hf ?_ hc
  rw [hm]
  rfl

end Sys2Proof.Proofs
end

section
open Sys2Proof Sys2Proof.Machine
namespace Sys2Proof.Proofs
/-! Lines and the raw form (R82). -/

section Raw
variable {bps widthM1 n w : Nat} {ss : List Nat}

theorem flatten_linesOf (h : ss.length = n * w) : (linesOf w n ss).flatten = ss := by
  induction n generalizing ss with
  | zero => rw [Nat.zero_mul, List.length_eq_zero_iff] at h; rw [h]; rfl
  | succ n ih =>
    rw [Nat.succ_mul] at h
    rw [linesOf, List.flatten_cons, ih (by rw [List.length_drop]; omega), List.take_append_drop]

/-- The bytes of one line of the raw form. -/
def rawLine (bps : Nat) (l : List Nat) : List Byte := bitsBytes (l.flatMap (natBits (bpsBits bps)))

theorem rawForm_eq (bps widthM1 linesM1 : Nat) (ss : List Nat) :
    rawForm bps widthM1 linesM1 ss = (linesOf (widthM1 + 1) (linesM1 + 1) ss).flatMap (rawLine bps) := rfl

theorem length_rawLine {l : List Nat} (h : l.length = widthM1 + 1) : (rawLine bps l).length = rawLineBytes bps widthM1 := by
  rw [rawLine, length_bitsBytes, length_flatMap_natBits, h, rawLineBytes]

theorem length_rawLines (h : ss.length = n * (widthM1 + 1)) :
    ((linesOf (widthM1 + 1) n ss).flatMap (rawLine bps)).length = n * rawLineBytes bps widthM1 := by
  induction n generalizing ss with
  | zero => rw [Nat.zero_mul]; rfl
  | succ n ih =>
    rw [Nat.succ_mul] at h
    have width : (ss.take (widthM1 + 1)).length = widthM1 + 1 := by rw [List.length_take]; omega
    rw [linesOf, List.flatMap_cons, List.length_append, length_rawLine width, ih (by rw [List.length_drop]; omega), Nat.succ_mul, Nat.add_comm]

theorem unpackRaw_rawLines (h : ss.length = n * (widthM1 + 1)) (hv : ∀ v ∈ ss, v < 2 ^ bpsBits bps) :
    unpackRaw bps widthM1 n ((linesOf (widthM1 + 1) n ss).flatMap (rawLine bps)) = (ss, true) := by
  induction n generalizing ss with
  | zero => rw [Nat.zero_mul, List.length_eq_zero_iff] at h; rw [h]; rfl
  | succ n ih =>
    rw [Nat.succ_mul] at h
    have width : (ss.take (widthM1 + 1)).length = widthM1 + 1 := by rw [List.length_take]; omega
    have size := length_rawLine (bps := bps) width
    have line := bytesBits_bitsBytes ((ss.take (widthM1 + 1)).flatMap (natBits (bpsBits bps)))
    have bitsLen := length_flatMap_natBits (bpsBits bps) (ss.take (widthM1 + 1))
    have samples := unpackSamples_flatMap (bpsBits bps) (l := ss.take (widthM1 + 1)) (fun v m => hv v (List.mem_of_mem_take m))
    rw [width] at bitsLen samples
    have below := ih (ss := ss.drop (widthM1 + 1)) (by rw [List.length_drop]; omega)
      fun v m => hv v (List.mem_of_mem_drop m)
    simp only [unpackRaw, linesOf, List.flatMap_cons, List.take_left' size, List.drop_left' size, below]
    rw [rawLine, line, samples, List.drop_left' bitsLen, List.take_append_drop]
    simp

end Raw

end Sys2Proof.Proofs
end

section
open Sys2Proof Sys2Proof.Machine
namespace Sys2Proof.Proofs
/-! RUN payloads (R86, R97). -/

/-- The rest of a coded payload's read behind the values `vs`. -/
def readAfter (vs : List Nat) (r : CodedRead) : CodedRead := ⟨vs ++ r.vals, r.reason, r.rest⟩

section Runs
variable {k : Nat}

/-- The samples that runs cover. -/
def runSamples (rs : List (Nat × Nat)) : List Nat := rs.flatMap fun r => List.replicate r.2 r.1

theorem runSamples_runsOf (ss : List Nat) : runSamples (runsOf ss) = ss := by
  induction ss with
  | nil => rfl
  | cons s ss ih =>
    rw [runsOf]
    split
    · next v n rs e =>
      rw [e] at ih
      split
      · next same => rw [← ih, ← same]; rfl
      · rw [← ih]; rfl
    · next e => rw [← ih, e]; rfl

theorem runsOf_pos (ss : List Nat) : ∀ r ∈ runsOf ss, 1 ≤ r.2 := by
  induction ss with
  | nil => nofun
  | cons s ss ih =>
    rw [runsOf]
    split
    · next v n rs e =>
      rw [e, List.forall_mem_cons] at ih
      split
      · exact List.forall_mem_cons.mpr ⟨Nat.succ_pos n, ih.2⟩
      · exact List.forall_mem_cons.mpr ⟨le_refl 1, List.forall_mem_cons.mpr ih⟩
    · exact List.forall_mem_cons.mpr ⟨le_refl 1, nofun⟩

/-- A run that ends within the strip is read, and the runs behind it. -/
theorem readRuns_run {fuel n v len : Nat} (hv : v < 2 ^ k) (h1 : 1 ≤ len) (hl : len < 2 ^ 18) (rest : List Bool) :
    readRuns k (fuel + 1) (len + n) (natBits k v ++ countBits len ++ rest) =
      readAfter (List.replicate len v) (readRuns k fuel n rest) := by
  obtain ⟨m, hm⟩ : ∃ m, len + n = m + 1 := ⟨len + n - 1, by omega⟩
  have long : ¬(natBits k v ++ (countBits len ++ rest)).length < k := by
    rw [List.length_append, length_natBits]; omega
  rw [hm, List.append_assoc]
  simp only [readRuns, if_neg long, bitsNat_take_natBits, drop_natBits, readCount_countBits h1 hl, Nat.mod_eq_of_lt hv]
  rw [← hm, if_neg (by omega), Nat.add_sub_cancel_left]
  rfl

theorem readRuns_runSamples {rs : List (Nat × Nat)} (hp : ∀ r ∈ rs, 1 ≤ r.2) (hv : ∀ v ∈ runSamples rs, v < 2 ^ k)
    (hl : (runSamples rs).length < 2 ^ 18) {fuel : Nat} (hf : (runSamples rs).length < fuel) (rest : List Bool) :
    readRuns k fuel (runSamples rs).length ((rs.flatMap fun r => natBits k r.1 ++ countBits r.2) ++ rest) =
      ⟨runSamples rs, 0, rest⟩ := by
  induction rs generalizing fuel with
  | nil => cases fuel <;> rfl
  | cons r rs ih =>
    obtain ⟨fuel, rfl⟩ : ∃ j, fuel = j + 1 := ⟨fuel - 1, by omega⟩
    obtain ⟨v, len⟩ := r
    obtain ⟨h1, hp⟩ := List.forall_mem_cons.mp hp
    have cut : runSamples ((v, len) :: rs) = List.replicate len v ++ runSamples rs := rfl
    have size : (runSamples ((v, len) :: rs)).length = len + (runSamples rs).length := by
      rw [cut, List.length_append, List.length_replicate]
    rw [cut, List.forall_mem_append] at hv
    have value : v < 2 ^ k := hv.1 v (List.mem_replicate.mpr ⟨by dsimp only at h1; omega, rfl⟩)
    dsimp only at h1
    rw [size] at hl hf ⊢
    rw [List.flatMap_cons, List.append_assoc, readRuns_run value h1 (by omega),
      ih hp hv.2 (by omega) (by omega)]
    rfl

theorem readRuns_runBits {ss : List Nat} (hv : ∀ v ∈ ss, v < 2 ^ k) (hl : ss.length < 2 ^ 18) {fuel : Nat}
    (hf : ss.length < fuel) (rest : List Bool) : readRuns k fuel ss.length (runBits k ss ++ rest) = ⟨ss, 0, rest⟩ := by
  have read := readRuns_runSamples (k := k) (rs := runsOf ss) (fuel := fuel) (runsOf_pos ss)
  rw [runSamples_runsOf] at read
  exact read hv hl hf rest

end Runs

end Sys2Proof.Proofs
end

section
open Sys2Proof Sys2Proof.Machine
namespace Sys2Proof.Proofs
/-! PRED payloads: predictions folded and rebuilt (R87). -/

section Pred
variable {w n : Nat}

theorem foldResidual_lt (s p : Nat) : foldResidual s p < 256 := by
  simp only [foldResidual]
  split <;> omega

/-- A residual folded from a prediction is rebuilt onto it. -/
theorem rebuild_foldResidual {s : Nat} (p : Nat) (h : s < 256) : rebuild p (foldResidual s p) = s := by
  obtain ⟨d, hd⟩ : ∃ d : Int, d = ((s : Int) - p + 128) % 256 - 128 := ⟨_, rfl⟩
  simp only [foldResidual, rebuild, ← hd]
  by_cases sign : d ≥ 0
  · rw [if_pos sign, if_pos (by omega)]
    omega
  · rw [if_neg sign, if_neg (by omega)]
    omega

theorem residLine_lt (a : Option Nat) (c : Nat) (up : Option (List Nat)) (l : List Nat) :
    ∀ m ∈ residLine a c up l, m < 256 := by
  induction l generalizing a c up with
  | nil => cases up <;> nofun
  | cons s l ih => cases up <;> exact List.forall_mem_cons.mpr ⟨foldResidual_lt _ _, ih _ _ _⟩

theorem length_residLine (a : Option Nat) (c : Nat) (up : Option (List Nat)) (l : List Nat) :
    (residLine a c up l).length = l.length := by
  induction l generalizing a c up with
  | nil => cases up <;> rfl
  | cons s l ih => cases up <;> exact congrArg Nat.succ (ih _ _ _)

theorem predLine_residLine {l : List Nat} (h : ∀ v ∈ l, v < 256) (a : Option Nat) (c : Nat) (up : Option (List Nat)) :
    predLine a c up (residLine a c up l) = l := by
  induction l generalizing a c up with
  | nil => cases up <;> rfl
  | cons s l ih =>
    obtain ⟨hs, h⟩ := List.forall_mem_cons.mp h
    cases up <;> simp only [residLine, predLine, rebuild_foldResidual _ hs, ih h]

theorem residLines_lt (up : Option (List Nat)) (ls : List (List Nat)) : ∀ m ∈ residLines up ls, m < 256 := by
  induction ls generalizing up with
  | nil => nofun
  | cons l ls ih => exact List.forall_mem_append.mpr ⟨residLine_lt _ _ _ _, ih _⟩

theorem length_residLines (up : Option (List Nat)) (ls : List (List Nat)) :
    (residLines up ls).length = ls.flatten.length := by
  induction ls generalizing up with
  | nil => rfl
  | cons l ls ih => rw [residLines, List.length_append, length_residLine, ih, List.flatten_cons, List.length_append]

theorem predLines_residLines {ss : List Nat} (h : ss.length = n * (w + 1)) (hv : ∀ v ∈ ss, v < 256) (up : Option (List Nat)) :
    predLines up ((linesOf (w + 1) n (residLines up (linesOf (w + 1) n ss))).filter (!·.isEmpty)) = ss := by
  induction n generalizing ss up with
  | zero => rw [Nat.zero_mul, List.length_eq_zero_iff] at h; rw [h]; rfl
  | succ n ih =>
    rw [Nat.succ_mul] at h
    have width : (residLine none 0 up (ss.take (w + 1))).length = w + 1 := by
      rw [length_residLine, List.length_take]; omega
    have line := predLine_residLine (fun v m => hv v (List.mem_of_mem_take m)) none 0 up (l := ss.take (w + 1))
    have filled : (!(residLine none 0 up (ss.take (w + 1))).isEmpty) = true := by
      rw [Bool.not_eq_true', List.isEmpty_eq_false_iff]
      exact List.ne_nil_of_length_eq_add_one width
    rw [linesOf.eq_def _ (n + 1) ss]
    simp only [residLines]
    rw [linesOf, List.take_left' width, List.drop_left' width,
      List.filter_cons_of_pos (p := fun l : List Nat => !l.isEmpty) filled]
    simp only [predLines, line]
    rw [ih (by rw [List.length_drop]; omega) (fun v m => hv v (List.mem_of_mem_drop m)), List.take_append_drop]

end Pred

end Sys2Proof.Proofs
end

section
open Sys2Proof Sys2Proof.Machine
namespace Sys2Proof.Proofs
/-! PRED payloads: residuals coded in groups and read back (R88, R89, R97). -/

section Groups
variable {k m n : Nat}

/-- Fewer than fifteen one bits end at the zero bit behind them. -/
theorem readOnes_zero {q f : Nat} (h : q < f) (r : List Bool) :
    readOnes f (List.replicate q true ++ false :: r) = some (q, r) := by
  induction q generalizing f with
  | zero =>
    obtain ⟨f, rfl⟩ : ∃ j, f = j + 1 := ⟨f - 1, by omega⟩
    rfl
  | succ q ih =>
    obtain ⟨f, rfl⟩ : ∃ j, f = j + 1 := ⟨f - 1, by omega⟩
    rw [List.replicate_succ, List.cons_append, readOnes, if_pos rfl, ih (by omega)]
    rfl

theorem readOnes_full (f : Nat) (r : List Bool) : readOnes f (List.replicate f true ++ r) = some (f, r) := by
  induction f with
  | zero => cases r <;> rfl
  | succ f ih =>
    rw [List.replicate_succ, List.cons_append, readOnes, if_pos rfl, ih]
    rfl

theorem readResidual_residualBits (k : Nat) (h : m < 256) (r : List Bool) :
    readResidual k (residualBits k m ++ r) = some (m, r) := by
  have long (j : Nat) : ¬(natBits j m ++ r).length < j := by rw [List.length_append, length_natBits]; omega
  by_cases small : m / 2 ^ k < 15
  · have bits : residualBits k m ++ r = List.replicate (m / 2 ^ k) true ++ false :: (natBits k m ++ r) := by
      simp [residualBits, small]
    have ne : m / 2 ^ k ≠ 15 := by omega
    rw [bits]
    simp only [readResidual, readOnes_zero small, if_neg ne, if_neg (long k), bitsNat_take_natBits, drop_natBits]
    rw [Nat.mul_comm, Nat.div_add_mod]
  · have bits : residualBits k m ++ r = List.replicate 15 true ++ (natBits 8 m ++ r) := by
      simp only [residualBits, if_neg small, List.append_assoc]
    rw [bits]
    simp only [readResidual, readOnes_full, if_true, if_neg (long 8), bitsNat_take_natBits, drop_natBits]
    rw [Nat.mod_eq_of_lt (by simpa using h)]

theorem readGroup_residualBits (k : Nat) {g : List Nat} (h : ∀ m ∈ g, m < 256) (r : List Bool) :
    readGroup k g.length (g.flatMap (residualBits k) ++ r) = ⟨g, 0, r⟩ := by
  induction g with
  | nil => rfl
  | cons m g ih =>
    obtain ⟨hm, h⟩ := List.forall_mem_cons.mp h
    rw [List.flatMap_cons, List.append_assoc, List.length_cons, readGroup, readResidual_residualBits k hm]
    simp only [ih h]

/-- What the encoder writes of a group is one of its seven Rice codings. -/
theorem bestGroup_coded (g : List Nat) : ∃ k < 7, bestGroup g = natBits 3 k ++ g.flatMap (residualBits k) := by
  suffices ∀ (l : List Nat) (b : List Bool), (∀ k ∈ l, k < 7) → (∃ k < 7, b = natBits 3 k ++ g.flatMap (residualBits k)) →
      ∃ k < 7, l.foldl (fun best k => if (natBits 3 k ++ g.flatMap (residualBits k)).length < best.length
        then natBits 3 k ++ g.flatMap (residualBits k) else best) b = natBits 3 k ++ g.flatMap (residualBits k) from
    this _ _ (by decide) ⟨0, by decide, rfl⟩
  intro l
  induction l with
  | nil => exact fun b _ hb => hb
  | cons k l ih =>
    intro b hk hb
    obtain ⟨h7, hk⟩ := List.forall_mem_cons.mp hk
    rw [List.foldl_cons]
    refine ih _ hk ?_
    split
    · exact ⟨k, h7, rfl⟩
    · exact hb

theorem readGroups_none (fuel : Nat) (r : List Bool) : readGroups fuel 0 r = ⟨[], 0, r⟩ := by
  cases fuel <;> rfl

/-- A coded group is read, and the groups behind it. -/
theorem readGroups_group {fuel : Nat} {g : List Nat} (h : ∀ m ∈ g, m < 256) (hn : n ≠ 0) (hg : g.length = min n 16)
    (r : List Bool) :
    readGroups (fuel + 1) n (bestGroup g ++ r) = readAfter g (readGroups fuel (n - g.length) r) := by
  obtain ⟨j, rfl⟩ : ∃ j, n = j + 1 := ⟨n - 1, by omega⟩
  obtain ⟨k, h7, e⟩ := bestGroup_coded g
  have long : ¬(natBits 3 k ++ (g.flatMap (residualBits k) ++ r)).length < 3 := by
    rw [List.length_append, length_natBits]; omega
  have code : k % 2 ^ 3 = k := Nat.mod_eq_of_lt (by omega)
  rw [e, List.append_assoc]
  simp only [readGroups, if_neg long, bitsNat_take_natBits, drop_natBits, code, if_neg (by omega : k ≠ 7), ← hg,
    readGroup_residualBits k h]
  rfl

/-- A count of all-zero groups is read, and the groups behind it. -/
theorem readGroups_zeros {fuel z : Nat} (hn : n ≠ 0) (h1 : 1 ≤ z) (hz : z < 2 ^ 18) (hc : z ≤ cdiv n 16) (r : List Bool) :
    readGroups (fuel + 1) n (natBits 3 7 ++ countBits z ++ r) =
      readAfter (List.replicate (min n (16 * z)) 0) (readGroups fuel (n - min n (16 * z)) r) := by
  obtain ⟨j, rfl⟩ : ∃ j, n = j + 1 := ⟨n - 1, by omega⟩
  have long : ¬(natBits 3 7 ++ (countBits z ++ r)).length < 3 := by
    rw [List.length_append, length_natBits]; omega
  rw [List.append_assoc]
  have code : 7 % 2 ^ 3 = 7 := rfl
  simp only [readGroups, if_neg long, bitsNat_take_natBits, drop_natBits, code, if_true, readCount_countBits h1 hz,
    if_neg (Nat.not_lt.mpr hc)]
  rfl

/-- The count written of `z` all-zero groups, nothing where there are none. -/
def zeroGroups (z : Nat) : List Bool := if z = 0 then [] else natBits 3 7 ++ countBits z

/-- The count of the groups that wait covers them, and `fuel` enough is left for those behind it. -/
theorem readGroups_zeroGroups {fuel z : Nat} (hz : z < 2 ^ 18) (hf : 16 * z + n < fuel) (r : List Bool) :
    ∃ f, n < f ∧ readGroups fuel (16 * z + n) (zeroGroups z ++ r) = readAfter (List.replicate (16 * z) 0) (readGroups f n r) := by
  by_cases empty : z = 0
  · subst empty
    rw [Nat.mul_zero, Nat.zero_add] at *
    exact ⟨fuel, hf, rfl⟩
  · obtain ⟨fuel, rfl⟩ : ∃ j, fuel = j + 1 := ⟨fuel - 1, by omega⟩
    have within : z ≤ cdiv (16 * z + n) 16 := by rw [cdiv, if_neg (by decide)]; omega
    refine ⟨fuel, by omega, ?_⟩
    rw [zeroGroups, if_neg empty, readGroups_zeros (by omega) (by omega) hz within, Nat.min_eq_right (by omega),
      Nat.add_sub_cancel_left]

/-- The zeros that wait where no group follows: the last group may be short of 16. -/
theorem readGroups_end {fuel z d : Nat} (hz : z < 2 ^ 18) (hd : d ≤ 16 * z) (hw : 16 * z < d + 16) (hf : d < fuel)
    (r : List Bool) : readGroups fuel d (zeroGroups z ++ r) = ⟨List.replicate d 0, 0, r⟩ := by
  by_cases empty : z = 0
  · obtain rfl : d = 0 := by omega
    rw [zeroGroups, if_pos empty, List.nil_append, readGroups_none]
    rfl
  · obtain ⟨fuel, rfl⟩ : ∃ j, fuel = j + 1 := ⟨fuel - 1, by omega⟩
    have within : z ≤ cdiv d 16 := by rw [cdiv, if_neg (by decide)]; omega
    rw [zeroGroups, if_neg empty, readGroups_zeros (by omega) (by omega) hz within, Nat.min_eq_left hd, Nat.sub_self,
      readGroups_none, readAfter, List.append_nil]

theorem take_of_all_zero {ms : List Nat} (h : (ms.take 16).all (· == 0) = true) :
    List.replicate (min 16 ms.length) 0 ++ ms.drop 16 = ms := by
  have zeros : ms.take 16 = List.replicate (min 16 ms.length) 0 :=
    List.eq_replicate_iff.mpr ⟨List.length_take, fun m hm => by simpa using List.all_eq_true.mp h m hm⟩
  rw [← zeros, List.take_append_drop]

/-- Groups coded behind `z` that wait, which hold the `d` zeros before them. -/
theorem readGroups_groupBits {f fuel z d : Nat} {ms : List Nat} (hm : ∀ m ∈ ms, m < 256) (hf : ms.length ≤ f)
    (hd : d ≤ 16 * z) (hz : 16 * z < d + 16) (hw : ms ≠ [] → d = 16 * z) (hn : d + ms.length < 2 ^ 18)
    (hl : d + ms.length < fuel) (rest : List Bool) :
    readGroups fuel (d + ms.length) (groupBits z (groupsOf f ms) ++ rest) = ⟨List.replicate d 0 ++ ms, 0, rest⟩ := by
  induction f generalizing ms z d fuel with
  | zero =>
    obtain rfl := List.length_eq_zero_iff.mp (Nat.le_zero.mp hf)
    rw [List.append_nil]
    exact readGroups_end (by omega) hd hz hl rest
  | succ f ih =>
    by_cases empty : ms = []
    · subst empty
      rw [List.append_nil]
      exact readGroups_end (by omega) hd hz hl rest
    · have pos : 0 < ms.length := List.length_pos_of_ne_nil empty
      have taken : (ms.take 16).length = min 16 ms.length := List.length_take
      have left : (ms.drop 16).length = ms.length - 16 := List.length_drop
      have more : ms.drop 16 ≠ [] → 16 < ms.length := fun h => by have := List.length_pos_of_ne_nil h; omega
      have later : ∀ m ∈ ms.drop 16, m < 256 := fun m h => hm m (List.mem_of_mem_drop h)
      obtain rfl := hw empty
      have cut : groupsOf (f + 1) ms = ms.take 16 :: groupsOf f (ms.drop 16) := by
        cases ms with
        | nil => exact absurd rfl empty
        | cons m ms => rfl
      rw [cut, groupBits]
      split
      · next zero =>
        have covered : 16 * z + ms.length = (16 * z + min 16 ms.length) + (ms.drop 16).length := by omega
        rw [covered, ih later (by omega) (by omega) (by omega) (fun h => by have := more h; omega) (by omega) (by omega),
          List.replicate_add, List.append_assoc, take_of_all_zero zero]
      · obtain ⟨fuel', enough, zeros⟩ := readGroups_zeroGroups (n := ms.length) (z := z) (by omega) hl
          (bestGroup (ms.take 16) ++ (groupBits 0 (groupsOf f (ms.drop 16)) ++ rest))
        obtain ⟨fuel', rfl⟩ : ∃ j, fuel' = j + 1 := ⟨fuel' - 1, by omega⟩
        have behind : ms.length - (ms.take 16).length = 0 + (ms.drop 16).length := by omega
        have coded := readGroups_group (fuel := fuel') (g := ms.take 16) (fun m h => hm m (List.mem_of_mem_take h)) (Nat.ne_of_gt pos)
          (by omega) (groupBits 0 (groupsOf f (ms.drop 16)) ++ rest)
        rw [behind, ih (z := 0) later (by omega) (by omega) (by omega) (fun _ => rfl) (by omega) (by omega)] at coded
        rw [← zeroGroups, List.append_assoc, List.append_assoc, zeros, coded]
        simp only [readAfter, Nat.mul_zero, List.replicate_zero, List.nil_append, List.take_append_drop]

end Groups

end Sys2Proof.Proofs
end

section
open Sys2Proof Sys2Proof.Machine
namespace Sys2Proof.Proofs
/-! Headers read back (R81), and what an encoder writes (R96): O60. -/

section Header

theorem beNat_append (a b : List Byte) : beNat (a ++ b) = beNat a * 256 ^ b.length + beNat b := by
  induction b using List.reverseRecOn with
  | nil => simp [beNat]
  | append_singleton b x ih =>
    have last (l : List Byte) : beNat (l ++ [x]) = beNat l * 256 + x.toNat := by rw [beNat, List.foldl_append]; rfl
    rw [← List.append_assoc, last, ih, last, List.length_append, List.length_singleton]
    ring

theorem beNat_beBytes (n v : Nat) : beNat (beBytes n v) = v % 256 ^ n := by
  induction n generalizing v with
  | zero => rw [Nat.pow_zero, Nat.mod_one]; rfl
  | succ n ih =>
    have last : beBytes (n + 1) v = beBytes n (v / 256) ++ [BitVec.ofNat 8 v] := by
      rw [beBytes, leBytes, List.reverse_cons]; rfl
    have byte : beNat [BitVec.ofNat 8 v] = v % 256 := by simp [beNat]
    rw [last, beNat_append, ih, byte, Nat.pow_succ', Nat.mod_mul, List.length_singleton, Nat.pow_one, Nat.add_comm,
      Nat.mul_comm]

/-- The fields of a header fit their places, and its reserved bits are 0 (R81). -/
structure HdrFits (h : StripHdr) : Prop where
  magic : h.magic < 2 ^ 16
  ver : h.ver < 2 ^ 4
  mode : h.mode < 2 ^ 2
  bps : h.bps < 2 ^ 2
  linesM1 : h.linesM1 < 2 ^ 5
  widthM1 : h.widthM1 < 2 ^ 12
  payloadLen : h.payloadLen < 2 ^ 18
  crc : h.crc < 2 ^ 32
  fill : h.fill < 2 ^ 8
  resv : h.resv = 0

theorem length_hdrBytes (h : StripHdr) : h.bytes.length = 16 := rfl

/-- The header's first word (R81). -/
def hdrWord (h : StripHdr) : Nat :=
  h.magic * 2 ^ 16 + h.ver * 2 ^ 12 + h.mode * 2 ^ 10 + h.bps * 2 ^ 8 + h.linesM1 * 8 + b2n h.last * 4 + b2n h.flushed * 2

theorem beAt_hdrBytes (h : StripHdr) : beAt h.bytes 0 4 = hdrWord h % 2 ^ 32 ∧
    beAt h.bytes 4 4 = (h.widthM1 * 2 ^ 20 + h.payloadLen) % 2 ^ 32 ∧ beAt h.bytes 8 4 = h.crc % 2 ^ 32 ∧
    beAt h.bytes 12 4 = h.fill * 2 ^ 24 % 2 ^ 32 :=
  ⟨beNat_beBytes 4 _, beNat_beBytes 4 _, beNat_beBytes 4 _, beNat_beBytes 4 _⟩

theorem bit_eq_of_div {v i : Nat} {b : Bool} (h : v / 2 ^ i % 2 = b2n b) : bit v i = b := by
  rw [bit, Nat.testBit_eq_decide_div_mod_eq, h]
  cases b <;> rfl

theorem parse_bytes {h : StripHdr} (w : HdrFits h) : StripHdr.parse h.bytes = h := by
  obtain ⟨hm, hv, hmo, hb, hl, hw, hp, hc, hf, hr⟩ := w
  obtain ⟨e0, e1, e2, e3⟩ := beAt_hdrBytes h
  have word : hdrWord h = h.magic * 2 ^ 16 + h.ver * 2 ^ 12 + h.mode * 2 ^ 10 + h.bps * 2 ^ 8 + h.linesM1 * 8 +
    b2n h.last * 4 + b2n h.flushed * 2 := rfl
  have hlast := b2n_lt h.last
  have hflushed := b2n_lt h.flushed
  rw [Nat.mod_eq_of_lt (by omega)] at e0 e1 e2 e3
  rw [StripHdr.parse, e0, e1, e2, e3]
  simp only [bits, Nat.shiftRight_eq_div_pow]
  exact (StripHdr.mk.injEq ..).mpr ⟨by omega, by omega, by omega, by omega, by omega, bit_eq_of_div (by omega), bit_eq_of_div (by omega), by omega,
    by omega, rfl, by omega, by omega⟩

end Header

section Encoder
variable {g : StripGeom} {ss : List Nat}

/-- A strip's header at a place of geometry `g`, under the CRC of the samples. -/
def stripHdr (g : StripGeom) (ss : List Nat) (mode len fill : Nat) : StripHdr :=
  { magic := 0xCA55, ver := 1, mode := mode, bps := g.bps, linesM1 := g.linesM1, last := g.last, flushed := g.flushed
    widthM1 := g.widthM1, payloadLen := len, crc := crc32c (rawForm g.bps g.widthM1 g.linesM1 ss), fill := fill, resv := 0 }

/-- The samples' residuals, coded (R97). -/
def predPayload (g : StripGeom) (ss : List Nat) : List Byte :=
  bitsBytes (groupBits 0 (groupsOf (ss.length + 1)
    (residLines none (linesOf (g.widthM1 + 1) (g.linesM1 + 1) ss))))

/-- The mode, payload and FILL an encoder may write (R83, R96): a coded payload is shorter than the raw form. -/
inductive Writes (g : StripGeom) (ss : List Nat) : Nat → List Byte → Nat → Prop
  | raw : Writes g ss 0 (rawForm g.bps g.widthM1 g.linesM1 ss) 0
  | pred (hb : g.bps = 3) (hl : (predPayload g ss).length < (rawForm g.bps g.widthM1 g.linesM1 ss).length) :
      Writes g ss 1 (predPayload g ss) 0
  | run (hl : (bitsBytes (runBits (bpsBits g.bps) ss)).length < (rawForm g.bps g.widthM1 g.linesM1 ss).length) :
      Writes g ss 2 (bitsBytes (runBits (bpsBits g.bps) ss)) 0
  | solid (hs : ∀ v ∈ ss, v = ss.headD 0) : Writes g ss 3 [] (ss.headD 0)

/-- The encoder's choice of a coded payload `pl` of mode `m` over the best so far, where the mode is allowed and shorter. -/
theorem writes_choice {best : Nat × List Byte} {m : Nat} {pl : List Byte} {c : Bool} (hb : Writes g ss best.1 best.2 0)
    (hl : best.2.length ≤ (rawForm g.bps g.widthM1 g.linesM1 ss).length)
    (hc : c = true → pl.length < (rawForm g.bps g.widthM1 g.linesM1 ss).length → Writes g ss m pl 0) :
    Writes g ss (if c && pl.length < best.2.length then (m, pl) else best).1
        (if c && pl.length < best.2.length then (m, pl) else best).2 0 ∧
      (if c && pl.length < best.2.length then (m, pl) else best).2.length ≤
        (rawForm g.bps g.widthM1 g.linesM1 ss).length := by
  split
  · next h =>
    rw [Bool.and_eq_true_iff, decide_eq_true_eq] at h
    exact ⟨hc h.1 (by omega), by dsimp only; omega⟩
  · exact ⟨hb, hl⟩

theorem encodeStrip_writes (g : StripGeom) (modeEn : Nat) (ss : List Nat) : ∃ mode pl fill, Writes g ss mode pl fill ∧
    encodeStrip g modeEn ss = (stripHdr g ss mode pl.length fill).bytes ++ pl := by
  by_cases solid : (bit modeEn 2 && ss.all (· == ss.headD 0)) = true
  · refine ⟨3, [], ss.headD 0, .solid fun v hv => ?_, ?_⟩
    · simpa using List.all_eq_true.mp (Bool.and_eq_true_iff.mp solid).2 v hv
    · rw [List.append_nil, encodeStrip, if_pos solid]
      rfl
  · have run := writes_choice (g := g) (ss := ss) (c := bit modeEn 1) (best := (0, _)) .raw (le_refl _) fun _ => Writes.run
    have pred := writes_choice (c := bit modeEn 0 && g.bps == 3) run.1 run.2 fun hc =>
      Writes.pred (by simpa using (Bool.and_eq_true_iff.mp hc).2)
    refine ⟨_, _, 0, pred.1, ?_⟩
    rw [encodeStrip, if_neg solid]
    rfl

/-- With every coded mode excluded the strip is RAW. -/
theorem encodeStrip_raw (g : StripGeom) {modeEn : Nat} (ss : List Nat) (h : modeEn % 8 = 0) : encodeStrip g modeEn ss =
    (stripHdr g ss 0 (rawForm g.bps g.widthM1 g.linesM1 ss).length 0).bytes ++ rawForm g.bps g.widthM1 g.linesM1 ss := by
  have off (i : Nat) (hi : i < 3) : bit modeEn i = false := by
    have : modeEn = 8 * (modeEn / 8) := by omega
    rw [bit, this, show 8 = 2 ^ 3 from rfl, Nat.testBit_two_pow_mul, decide_eq_false (by omega), Bool.false_and]
  simp [encodeStrip, off 0, off 1, off 2, stripHdr]

theorem length_rawForm (hl : ss.length = g.count) : (rawForm g.bps g.widthM1 g.linesM1 ss).length = g.rawLen :=
  length_rawLines hl

theorem bpsBits_le (b : Nat) : bpsBits b ≤ 8 := by
  simp only [bpsBits]
  split_ifs <;> omega

/-- A row of the widest strip is 4,096 bytes, and a strip 32 rows (R82). -/
theorem rawLen_le (hw : g.widthM1 < 4096) (hl : g.linesM1 < 32) : g.rawLen ≤ 131072 := by
  have line : rawLineBytes g.bps g.widthM1 ≤ 4096 := by
    have wide : (g.widthM1 + 1) * bpsBits g.bps ≤ 4096 * 8 := Nat.mul_le_mul (by omega) (bpsBits_le g.bps)
    rw [rawLineBytes, cdiv, if_neg (by decide)]
    omega
  calc g.rawLen = (g.linesM1 + 1) * rawLineBytes g.bps g.widthM1 := rfl
    _ ≤ 32 * 4096 := Nat.mul_le_mul (by omega) line

theorem count_le (hw : g.widthM1 < 4096) (hl : g.linesM1 < 32) : g.count ≤ 131072 :=
  calc g.count = (g.linesM1 + 1) * (g.widthM1 + 1) := rfl
    _ ≤ 32 * 4096 := Nat.mul_le_mul (by omega) (by omega)

theorem count_pos (g : StripGeom) : 0 < g.count := Nat.mul_pos (Nat.succ_pos _) (Nat.succ_pos _)

/-- Bits that end behind the last sample leave less than a byte of zeros (R86, R90). -/
theorem padding_sound (n : Nat) :
    (decide ((List.replicate ((8 - n % 8) % 8) false).length ≥ 8) || (List.replicate ((8 - n % 8) % 8) false).any id) = false := by
  rw [List.length_replicate, decide_eq_false (by omega)]
  simp

/-- What an encoder writes reads back as the samples. -/
theorem readPayload_writes {mode fill : Nat} {pl : List Byte} (w : Writes g ss mode pl fill) (hw : g.widthM1 < 4096)
    (hl : g.linesM1 < 32) (hc : ss.length = g.count) (hv : ∀ v ∈ ss, v < 2 ^ bpsBits g.bps) :
    readPayload g mode fill pl = ⟨ss, 0⟩ := by
  have size := count_le hw hl
  have lines : ss.length = (g.linesM1 + 1) * (g.widthM1 + 1) := hc
  cases w with
  | raw =>
    have read := unpackRaw_rawLines lines hv
    rw [← rawForm_eq] at read
    simp only [readPayload, read, if_true]
  | pred hb _ =>
    have byte : ∀ v ∈ ss, v < 256 := by simpa [hb, bpsBits] using hv
    obtain ⟨ms, hms⟩ : ∃ ms, ms = residLines none (linesOf (g.widthM1 + 1) (g.linesM1 + 1) ss) := ⟨_, rfl⟩
    have long : ms.length = ss.length := by rw [hms, length_residLines, flatten_linesOf lines]
    have read := readGroups_groupBits (f := ss.length + 1) (fuel := g.count + 1) (z := 0) (d := 0)
      (hms ▸ residLines_lt _ _) (by omega) (by omega) (by omega) (fun _ => rfl) (by omega) (by omega)
    have rebuilt := predLines_residLines lines byte none
    rw [Nat.zero_add, long, hc, List.replicate_zero, List.nil_append] at read
    rw [← hms] at rebuilt
    simp only [readPayload, predPayload, ← hms, bytesBits_bitsBytes, hc, read, rebuilt, padding_sound, Nat.sub_self]
    simp
  | run _ =>
    have read := readRuns_runBits hv (by omega) (by omega : ss.length < g.count + 1)
    rw [hc] at read
    simp only [readPayload, bytesBits_bitsBytes, read, hc, padding_sound, Nat.sub_self]
    simp
  | solid hs => rw [List.eq_replicate_of_mem hs, hc]; rfl

/-- A coded payload of no bytes covers no sample. -/
theorem readPayload_nil {mode fill : Nat} (h : mode = 1 ∨ mode = 2) : (readPayload g mode fill []).reason = 5 := by
  obtain ⟨n, hn⟩ : ∃ n, g.count = n + 1 := ⟨g.count - 1, by have := count_pos g; omega⟩
  have wide : 0 < bpsBits g.bps := by simp only [bpsBits]; split_ifs <;> decide
  obtain rfl | rfl := h <;> simp [readPayload, hn, readGroups, readRuns, bytesBits, wide]

theorem writes_valid {mode fill : Nat} {pl : List Byte} (w : Writes g ss mode pl fill)
    (hf : g.flushed = true → g.last = true) (hc : ss.length = g.count) (hv : ∀ v ∈ ss, v < 2 ^ bpsBits g.bps)
    (hr : readPayload g mode fill pl = ⟨ss, 0⟩) : (stripHdr g ss mode pl.length fill).valid = true := by
  have raw : (stripHdr g ss mode pl.length fill).rawLen = g.rawLen := rfl
  have flush : (!g.flushed || g.last) = true := by
    cases e : g.flushed
    · rfl
    · exact hf e
  have some_bytes (h : mode = 1 ∨ mode = 2) : 1 ≤ pl.length := by
    by_contra none
    rw [List.length_eq_zero_iff.mp (by omega : pl.length = 0)] at hr
    have read := readPayload_nil (g := g) (fill := fill) h
    rw [hr] at read
    cases read
  rw [StripHdr.valid, raw]
  cases w with
  | raw => simp [stripHdr, flush, length_rawForm hc]
  | pred h3 hl =>
    rw [length_rawForm hc] at hl
    simp [stripHdr, flush, h3, some_bytes (.inl rfl), Nat.le_of_lt hl]
  | run hl =>
    rw [length_rawForm hc] at hl
    simp [stripHdr, flush, some_bytes (.inr rfl), Nat.le_of_lt hl]
  | solid hs =>
    have first : ss.headD 0 < 2 ^ bpsBits g.bps := by
      cases ss with
      | nil => exact Nat.two_pow_pos _
      | cons v ss => exact hv v List.mem_cons_self
    simp only [stripHdr, flush]
    simpa using first

theorem writes_fits {mode fill : Nat} {pl : List Byte} (w : Writes g ss mode pl fill) (hb : g.bps < 4)
    (hw : g.widthM1 < 4096) (hl : g.linesM1 < 32) (hc : ss.length = g.count) (hv : ∀ v ∈ ss, v < 2 ^ bpsBits g.bps) :
    pl.length ≤ g.rawLen ∧ HdrFits (stripHdr g ss mode pl.length fill) := by
  have bound := rawLen_le hw hl
  have bits : 2 ^ bpsBits g.bps ≤ 2 ^ 8 := Nat.pow_le_pow_right (by decide) (bpsBits_le _)
  have raw := length_rawForm (g := g) hc
  have first : ss.headD 0 < 2 ^ 8 := by
    cases ss with
    | nil => decide
    | cons v ss => exact lt_of_lt_of_le (hv v List.mem_cons_self) bits
  have facts : mode < 2 ^ 2 ∧ fill < 2 ^ 8 ∧ pl.length ≤ g.rawLen := by
    cases w with
    | raw => exact ⟨by decide, by decide, le_of_eq raw⟩
    | pred _ h => exact ⟨by decide, by decide, by omega⟩
    | run h => exact ⟨by decide, by decide, by omega⟩
    | solid _ => exact ⟨by decide, first, Nat.zero_le _⟩
  obtain ⟨hmode, hfill, hlen⟩ := facts
  refine ⟨hlen, ?_⟩
  exact { magic := (by decide : 0xCA55 < 2 ^ 16), ver := (by decide : 1 < 2 ^ 4), mode := hmode, bps := hb, linesM1 := hl
          widthM1 := hw, payloadLen := lt_of_le_of_lt (hlen.trans bound) (by decide), crc := BitVec.isLt _, fill := hfill
          resv := rfl }

end Encoder

/-- Settles O60: what an encoder writes is a header and one of four payloads (`encodeStrip_writes`); each payload reads back as
the samples (`readPayload_writes`), under a header that reads back as it was written (`parse_bytes`). -/
theorem encodedStripsDecode : Obligations.EncodedStripsDecode := by
  intro g modeEn ss hb hw hl hf hc hv
  obtain ⟨mode, pl, fill, w, e⟩ := encodeStrip_writes g modeEn ss
  have read := readPayload_writes w hw hl hc hv
  obtain ⟨short, places⟩ := writes_fits w hb hw hl hc hv
  refine ⟨?_, ?_, fun h => ?_⟩
  · have whole : pl.take (stripHdr g ss mode pl.length fill).payloadLen = pl := List.take_length
    rw [e]
    refine decodeStrip_of_read (length_hdrBytes _) (parse_bytes places) (writes_valid w hf hc hv read) ?_ ?_ rfl
    · simp [StripHdr.fits, stripHdr]
    · rw [whole]
      exact read
  · rw [e, List.length_append, length_hdrBytes]
    omega
  · rw [encodeStrip_raw g ss h, length_rawForm hc]
    rfl

end Sys2Proof.Proofs
end

section
open Sys2Proof Sys2Proof.Machine
namespace Sys2Proof.Proofs
/-! A request performed on receipt: the state it finds, and its answer (R417). -/

section Taken
variable {s y z s' : State} {h : DcpHdr} {op t : Nat} {l : List Nat}

/-- `y` is `s` but for the words of a list, in what a request for an image slot looks at. -/
structure KeptBut (l : List Nat) (s y : State) : Prop where
  words : ∀ a, a ∉ l → y.rd a = s.rd a
  mem : y.mem = s.mem
  otp : y.otp = s.otp
  flash : y.flash = s.flash
  imgOp : y.dcp.imgOp = s.dcp.imgOp
  out : y.out = s.out

/-- The words a request's counter and its count lie in. -/
def takenWords (h : DcpHdr) : List Nat := [HP_MST_CTR_LO h.master, HP_MST_CTR_HI h.master, HP_DCP_STAT]

theorem consume_kept (s : State) (h : DcpHdr) : KeptBut (takenWords h) s (s.consume h) where
  words a ha := by
    simp only [takenWords, List.mem_cons, not_or] at ha
    exact rd_consume s h ha.1 ha.2.1
  mem := consume_keeps State.mem (fun _ _ => rfl) (fun _ _ => rfl) (fun _ _ => rfl) s
  otp := consume_keeps State.otp (fun _ _ => rfl) (fun _ _ => rfl) (fun _ _ => rfl) s
  flash := consume_keeps State.flash (fun _ _ => rfl) (fun _ _ => rfl) (fun _ _ => rfl) s
  imgOp := consume_keeps (·.dcp.imgOp) (fun _ _ => rfl) (fun _ _ => rfl) (fun _ _ => rfl) s
  out := consume_out s h

theorem accept_kept (k : KeptBut (takenWords h) s y) : KeptBut (takenWords h) s (y.accept h true) where
  words a ha := by
    rw [rd_accept _ _ _ (fun e => ha (by simp [takenWords, e])), k.words a ha]
  mem := k.mem
  otp := k.otp
  flash := k.flash
  imgOp := k.imgOp
  out := (accept_out y h true).trans k.out

/-- The state that an authenticated request's own effect finds. -/
def taken (s : State) (t : Nat) (h : DcpHdr) : State := ((s.advance t).consume h).accept h true

theorem kept_of_advance (k : KeptBut l (s.advance t) y) : KeptBut l s y := ⟨k.words, k.mem, k.otp, k.flash, k.imgOp, k.out⟩

theorem taken_kept (s : State) (t : Nat) (h : DcpHdr) : KeptBut (takenWords h) s (taken s t h) :=
  accept_kept (kept_of_advance (consume_kept (s.advance t) h))

theorem get_of_kept (k : KeptBut l s y) {f : Fld} (hf : f.addr ∉ l) : y.get f = s.get f := by
  rw [State.get, State.get, k.words _ hf]

theorem ctr_not_dcpStat (m : Nat) (hm : m < 4) : HP_MST_CTR_LO m ≠ HP_DCP_STAT ∧ HP_MST_CTR_HI m ≠ HP_DCP_STAT ∧
    HP_MST_CTR_LO m ∉ shown ∧ HP_MST_CTR_HI m ∉ shown := by
  revert m
  decide

theorem floor_consume (hc : h.counter < 2 ^ 64) (hf : s.floor h.master < h.counter) :
    (s.consume h).floor h.master = h.counter := by
  have same (y : State) (k : Nat) (ws : List Nat) : (y.copy k ws).floor h.master = y.floor h.master := by
    rw [floor_eq_rd, floor_eq_rd, rd_copy, rd_copy]
  rw [State.consume, same, floor_floorRaise _ _ _ hc]
  refine Nat.max_eq_right ?_
  split <;> exact Nat.le_of_lt hf

theorem accept_counts (s : State) (h : DcpHdr) :
    (s.accept h true).get HP_DCP_STAT_ACCEPTED = (s.get HP_DCP_STAT_ACCEPTED + 1) % 2 ^ 16 :=
  get_inc s HP_DCP_STAT_ACCEPTED (by decide) (by decide)

/-- A taken counter is the floor, and the request is counted. -/
theorem taken_took (hm : h.master < 4) (hc : h.counter < 2 ^ 64) (hf : s.floor h.master < h.counter) :
    (taken s t h).floor h.master = h.counter ∧
      (taken s t h).get HP_DCP_STAT_ACCEPTED = (s.get HP_DCP_STAT_ACCEPTED + 1) % 2 ^ 16 := by
  obtain ⟨hlo, hhi, -⟩ := ctr_not_dcpStat h.master hm
  constructor
  · rw [taken, floor_eq_rd, rd_accept _ _ _ hlo, rd_accept _ _ _ hhi, ← floor_eq_rd]
    exact floor_consume hc hf
  · rw [taken, accept_counts, State.get, State.get, rd_consume _ _ (Ne.symm hlo) (Ne.symm hhi), rd_advance]

theorem took_of_rest {w : State} (hm : h.master < 4) (hc : h.counter < 2 ^ 64) (hf : s.floor h.master < h.counter)
    (k : ∀ a, a ∈ takenWords h → w.rd a = (taken s t h).rd a) (R : Rest w s') : Took s s' h := by
  obtain ⟨-, -, nlo, nhi⟩ := ctr_not_dcpStat h.master hm
  obtain ⟨floor, count⟩ := taken_took (t := t) hm hc hf
  have stat : HP_DCP_STAT ∉ shown := by decide
  constructor
  · rw [floor_eq_rd, R.words _ nlo, R.words _ nhi, k _ (by simp [takenWords]), k _ (by simp [takenWords]), ← floor_eq_rd, floor]
  · rw [R.get _ stat, State.get, k _ (by simp [takenWords]), ← State.get, count]

/-- A row's request that every check lets through, performed on receipt. -/
theorem exec_passes {i : Instr} {b : List Nat} (hc : s.core = .running) (hr : rowRequest i = some (t, op, h, b))
    (p : Passes (s.advance t) op h b) (hcr : isCritical op b = false) :
    ∃ s', exec i s = .next s' ∧ Rest (((s.advance t).consume h).perform op h b true) s' := by
  obtain ⟨f, hf, hgo⟩ := exec_request (s := s) hr
  rw [hf]
  refine run_rest hc ?_
  rw [hgo _ p.link p.up p.takes, checked_of_passes p hcr]
  exact Rest.refl _

theorem flash_of_rest {x : State} (R : Rest x s') : s'.flash = x.flash :=
  have e := congrArg State.flash R.bare
  e

theorem imgOp_of_rest {x : State} (R : Rest x s') : s'.dcp.imgOp = x.dcp.imgOp :=
  have e := congrArg (·.dcp.imgOp) R.bare
  e

theorem otp_of_rest {x : State} (R : Rest x s') : s'.otp = x.otp :=
  have e := congrArg State.otp R.bare
  e

theorem screen_of_rest {x : State} (R : Rest x s') : s'.screen = x.screen :=
  have e := congrArg State.screen R.bare
  e

theorem wordsKept_of_rest {x : State} (R : Rest x s') (w : ∀ a, a ∉ l → x.rd a = s.rd a) : WordsKept s s' l :=
  fun a hs ha => (R.words a hs).trans (w a ha)

/-- A reply of a unit with MP up is the answer, signed, and nothing else. -/
theorem answered_of_reply {a : Ans} (hl : y.is HP_MP_STAT_LINK = true) (hop : op ≠ opIdentify) (ha : a.status ≠ stAuthFail)
    (hm : h.master < 4) (ho : y.out = s.out) (R : Rest (y.reply op h a) s') :
    Answered s s' op h a ∧ Rest (y.emit (.dcp (answer op h a) (y.macOf h.master (answer op h a).msg))) s' := by
  have sent : y.reply op h a = (y.emit (.dcp (answer op h a) (y.macOf h.master (answer op h a).msg))).record 0x05
      (y.emit (.dcp (answer op h a) (y.macOf h.master (answer op h a).msg))).now (answer op h a).entry := by
    have keyed : ¬((answer op h a).opcode = opIdentify ∨ (answer op h a).status = stAuthFail) := not_or.mpr ⟨hop, ha⟩
    rw [State.reply, State.respond, if_pos hl]
    simp only [if_neg keyed]
    rfl
  rw [sent] at R
  have R := (rest_record _ _ _ _).trans R
  have slot : HP_MST_CFG h.master ∉ shown := mst_cfg_not_shown _ hm
  have mac : s'.macOf h.master (answer op h a).msg = y.macOf h.master (answer op h a).msg := by
    have key : s'.otp = y.otp := (otp_of_rest R).trans rfl
    simp only [State.macOf, State.nonce, R.get (HP_MST_CFG_KEY_SLOT h.master) slot, R.get HP_BOOT_NONCE_HI_NONCE (by decide),
      R.get HP_BOOT_NONCE_LO_NONCE (by decide)]
    rw [key]
    rfl
  refine ⟨?_, R⟩
  rw [Answered, R.out, mac, ← ho]
  rfl

end Taken

end Sys2Proof.Proofs
end

section
open Sys2Proof Sys2Proof.Machine
namespace Sys2Proof.Proofs
/-! IMAGE_WRITE as it is performed (R455): refused in the order of its checks, or begun. -/

section ImageWrite
variable {s y z s' : State} {h : DcpHdr} {t : Nat} {body : List Nat} {o : ImgOp}

theorem staged_congr (hr : z.rd (MC_RGN_BASE 0) = s.rd (MC_RGN_BASE 0)) (hm : z.mem = s.mem) (o : ImgOp) :
    z.staged o = s.staged o := by
  rw [State.staged, State.staged, rgnBase_congr hr, State.rdMem, State.rdMem, hm]

theorem checkReason_congr (hk : z.get HP_KEY_STAT_STATE = s.get HP_KEY_STAT_STATE) (ho : z.otp = s.otp) (head : List Byte)
    (k : Nat) (u : Bool) (check body : List Byte) : z.checkReason head k u check body = s.checkReason head k u check body := by
  simp only [State.checkReason, State.keysBlank, State.keyState, hk, ho]
  rfl

/-- An operation begun: its header sector erased, and BT_IMG_WR_STAT shows it in PHASE 1. -/
def imgBegun (s : State) (o : ImgOp) : State :=
  ((((({ s with dcp := { s.dcp with imgOp := some o } } : State).flashErase (slotBase o.slot) 0x10000).flag
    BT_IMG_WR_STAT_BUSY true).put BT_IMG_WR_STAT_SLOT o.slot).put BT_IMG_WR_STAT_PHASE 1)

/-- What a PROGRAM's length, staging and CHECK give where one of them does not pass, in that order. -/
def imgRefusal (s : State) (o : ImgOp) : Option Ans :=
  if o.erase then none
  else if !rawLenOk o.rawLen then some (.value 2)
  else if s.imgSlots < o.first + cdiv o.rawLen 0x100000 then some (.value 1)
  else if s.checkReason o.head o.keySlot o.unkeyed o.check (s.staged o) = 0 ∨
      (s.checkReason o.head o.keySlot o.unkeyed o.check (s.staged o) = 6 ∧ o.unkeyed) then none
  else some (.value 6)

theorem imageWrite_running (hs : s.get BT_BOOT_STAT_SLOT = (imgOpOf body).slot) :
    s.imageWrite body = (.of stBadState 0, s) := if_pos hs

theorem imageWrite_busy (hs : s.get BT_BOOT_STAT_SLOT ≠ (imgOpOf body).slot) (ho : s.dcp.imgOp = some o) :
    s.imageWrite body = (.of stBusy 0, s) := by
  simp only [State.imageWrite, if_neg hs, ho]
  rfl

theorem imageWrite_refused {a : Ans} (hs : s.get BT_BOOT_STAT_SLOT ≠ (imgOpOf body).slot) (ho : s.dcp.imgOp = none)
    (hr : imgRefusal s (imgOpOf body) = some a) : s.imageWrite body = (a, s) := by
  simp only [imgRefusal] at hr
  simp only [State.imageWrite, if_neg hs, ho, hr]
  rfl

theorem imageWrite_begins (hs : s.get BT_BOOT_STAT_SLOT ≠ (imgOpOf body).slot) (ho : s.dcp.imgOp = none)
    (hr : imgRefusal s (imgOpOf body) = none) : s.imageWrite body = (.ok, imgBegun s (imgOpOf body)) := by
  simp only [imgRefusal] at hr
  simp only [State.imageWrite, if_neg hs, ho, hr]
  rfl

/-- The words an image write looks at are none that taking a request writes. -/
theorem takenWords_apart (hm : h.master < 4) : ∀ a ∈ [MC_RGN_BASE 0, MC_RGN_BASE 0 + 4, HP_KEY_STAT, BT_BOOT_STAT,
    HP_MP_STAT, BT_IMG_WR_STAT],
    a ∉ takenWords h := by
  have apart : ∀ m < 4, ∀ a ∈ [MC_RGN_BASE 0, MC_RGN_BASE 0 + 4, HP_KEY_STAT, BT_BOOT_STAT,
    HP_MP_STAT, BT_IMG_WR_STAT],
    a ∉ [HP_MST_CTR_LO m, HP_MST_CTR_HI m, HP_DCP_STAT] := by decide
  exact apart _ hm

theorem imgRefusal_kept (k : KeptBut (takenWords h) s z) (hm : h.master < 4) (o : ImgOp) : imgRefusal z o = imgRefusal s o := by
  have apart := takenWords_apart hm
  have base := k.words (MC_RGN_BASE 0) (apart _ (by decide))
  have size : z.imgSlots = s.imgSlots := by
    rw [State.imgSlots, State.imgSlots, rgnSize_congr (k.words (MC_RGN_BASE 0 + 4) (apart _ (by decide)))]
  have key : z.get HP_KEY_STAT_STATE = s.get HP_KEY_STAT_STATE := get_of_kept k (apart HP_KEY_STAT (by decide))
  simp only [imgRefusal, size, staged_congr base k.mem, checkReason_congr key k.otp]

/-- What the row of IMAGE_WRITE carries. -/
theorem imageWrite_row {op : Nat} {h' : DcpHdr} {b : List Nat} (hr : rowRequest (.imageWrite t h body) = some (t, op, h', b)) :
    op = 0x20 ∧ h'.master < 4 ∧ h'.counter < 2 ^ 64 := by
  simp only [rowRequest, request, Option.some.injEq, Prod.mk.injEq] at hr
  obtain ⟨-, rfl, rfl, -⟩ := hr
  exact ⟨rfl, Nat.mod_lt _ (by decide), Nat.mod_lt _ (by decide)⟩

/-- IMAGE_WRITE is performed at once: a RANGE found there leaves it uncounted. -/
theorem perform_imageWrite {a : Ans} (hw : (s.accept h true).imageWrite body = (a, y)) :
    s.perform 0x20 h body true = if a.status = stRange ∧ a.body = [] then s.reply 0x20 h a else y.reply 0x20 h a := by
  have go : (s.accept h true).localGo 0x20 body = (a, y) := hw
  have local_ : isCritical 0x20 body = false := rfl
  simp only [State.perform, local_, go]
  rfl

theorem imgBegun_kept (k : KeptBut (takenWords h) s z) (hm : h.master < 4) (o : ImgOp) :
    (∀ a, a ∉ takenWords h ++ [BT_IMG_WR_STAT] → (imgBegun z o).rd a = s.rd a) ∧
      (∀ a, a ∈ takenWords h → (imgBegun z o).rd a = z.rd a) ∧ (imgBegun z o).out = s.out ∧
      (imgBegun z o).flash = skeep (fun a => a < slotBase o.slot || decide (slotBase o.slot + 0x10000 ≤ a)) s.flash ∧
      (imgBegun z o).dcp.imgOp = some o := by
  have apart (a : Nat) (ha : a ≠ BT_IMG_WR_STAT) : (imgBegun z o).rd a = z.rd a := by
    rw [imgBegun, rd_put_ne _ _ _ ha, rd_put_ne _ _ _ ha, State.flag, rd_put_ne _ _ _ ha]
    rfl
  refine ⟨fun a ha => ?_, fun a ha => apart a ?_, k.out, ?_, rfl⟩
  · rw [List.mem_append, not_or, List.mem_singleton] at ha
    rw [apart a ha.2, k.words a ha.1]
  · rintro rfl
    exact takenWords_apart hm BT_IMG_WR_STAT (by decide) ha
  · rw [← k.flash]
    rfl

theorem imgBegun_shows (s : State) (o : ImgOp) (ho : o.slot < 2) : (imgBegun s o).get BT_IMG_WR_STAT_BUSY = 1 ∧
    (imgBegun s o).get BT_IMG_WR_STAT_SLOT = o.slot ∧ (imgBegun s o).get BT_IMG_WR_STAT_PHASE = 1 := by
  refine ⟨?_, ?_, ?_⟩
  · rw [imgBegun, get_put_apart _ _ _ _ (by decide) (by decide) (by decide), get_put_apart _ _ _ _ (by decide) (by decide)
      (by decide), State.flag, get_put_same _ _ _ (by decide) (by decide)]
    rfl
  · rw [imgBegun, get_put_apart _ _ _ _ (by decide) (by decide) (by decide), get_put_same _ _ _ (by decide) (by decide)]
    exact Nat.mod_eq_of_lt ho
  · rw [imgBegun, get_put_same _ _ _ (by decide) (by decide)]
    rfl

theorem imgOpOf_slot_lt (b : List Nat) : (imgOpOf b).slot < 2 := bits_lt _ _ _

/-- What the reply of an operation begun leaves, from what the operation leaves. -/
theorem begun_answered {w : State} {op : Nat} {h' : DcpHdr} {b : List Nat} (p : Passes (s.advance t) op h' b) (hm : h'.master < 4) (hcount : h'.counter < 2 ^ 64)
    (words : ∀ a, a ∉ takenWords h' ++ [BT_IMG_WR_STAT] → w.rd a = s.rd a)
    (ctr : ∀ a ∈ takenWords h', w.rd a = (taken s t h').rd a) (out : w.out = s.out)
    (hop : op ≠ opIdentify) (R : Rest (w.reply op h' .ok) s') : Took s s' h' ∧ Answered s s' op h' .ok ∧
      s'.dcp.imgOp = w.dcp.imgOp ∧ s'.get BT_IMG_WR_STAT_BUSY = w.get BT_IMG_WR_STAT_BUSY ∧
      s'.get BT_IMG_WR_STAT_SLOT = w.get BT_IMG_WR_STAT_SLOT ∧ s'.get BT_IMG_WR_STAT_PHASE = w.get BT_IMG_WR_STAT_PHASE ∧
      s'.flash = w.flash ∧ WordsKept s s' (takenWords h' ++ [BT_IMG_WR_STAT]) := by
  have link : w.is HP_MP_STAT_LINK = true := by
    rw [State.is, State.get, words HP_MP_STAT (List.not_mem_append (takenWords_apart hm HP_MP_STAT (by decide)) (by decide))]
    exact p.link
  obtain ⟨answered, R⟩ := answered_of_reply link hop (by decide) hm out R
  have shown_ : BT_IMG_WR_STAT ∉ shown := by decide
  have took : Took s s' h' := took_of_rest (t := t) (w := w.emit _) hm hcount p.fresh ctr R
  exact ⟨took, answered, (imgOp_of_rest R).trans rfl, R.get _ shown_, R.get _ shown_, R.get _ shown_, (flash_of_rest R).trans rfl,
    wordsKept_of_rest R words⟩

section Row
variable {op : Nat} {h' : DcpHdr} {b : List Nat} (hc : s.core = .running)
  (hr : rowRequest (.imageWrite t h body) = some (t, op, h', b)) (p : Passes (s.advance t) op h' b)
include hc hr p

/-- A refusal is answered and touches neither the flash nor the operation under way. -/
theorem exec_imageWrite_refused {a : Ans} (ha : a.status ≠ stAuthFail)
    (hw : (taken s t h').imageWrite b = (a, taken s t h')) :
    ∃ s', exec (.imageWrite t h body) s = .next s' ∧ Answered s s' op h' a ∧ s'.flash = s.flash ∧
      s'.dcp.imgOp = s.dcp.imgOp := by
  obtain ⟨rfl, hm, -⟩ := imageWrite_row hr
  obtain ⟨s', e, R⟩ := exec_passes hc hr p rfl
  refine ⟨s', e, ?_⟩
  obtain ⟨y, k, hy⟩ : ∃ y, KeptBut (takenWords h') s y ∧
      ((s.advance t).consume h').perform 0x20 h' b true = y.reply 0x20 h' a := by
    have go := perform_imageWrite (s := (s.advance t).consume h') (h := h') hw
    split at go
    · exact ⟨_, kept_of_advance (consume_kept _ _), go⟩
    · exact ⟨_, taken_kept s t h', go⟩
  have link : y.is HP_MP_STAT_LINK = true := by
    rw [State.is, get_of_kept k (takenWords_apart hm HP_MP_STAT (by decide))]
    exact p.link
  rw [hy] at R
  obtain ⟨answered, R⟩ := answered_of_reply link (by decide) ha hm k.out R
  exact ⟨answered, (flash_of_rest R).trans k.flash, (imgOp_of_rest R).trans k.imgOp⟩

/-- One that begins has left its operation under way, is counted and is answered OK. -/
theorem exec_imageWrite_rest (ho : o = imgOpOf b) (hs : s.get BT_BOOT_STAT_SLOT ≠ o.slot) (hn : s.dcp.imgOp = none)
    (hp : imgRefusal s o = none) :
    ∃ s', exec (.imageWrite t h body) s = .next s' ∧ Rest ((imgBegun (taken s t h') o).reply 0x20 h' .ok) s' := by
  subst ho
  obtain ⟨rfl, hm, -⟩ := imageWrite_row hr
  have k := taken_kept s t h'
  have slot : (taken s t h').get BT_BOOT_STAT_SLOT = s.get BT_BOOT_STAT_SLOT :=
    get_of_kept k (takenWords_apart hm BT_BOOT_STAT (by decide))
  have begins := imageWrite_begins (s := taken s t h') (slot ▸ hs) (k.imgOp.trans hn) ((imgRefusal_kept k hm _).trans hp)
  obtain ⟨s', e, R⟩ := exec_passes hc hr p rfl
  rw [perform_imageWrite begins, if_neg (by decide)] at R
  exact ⟨s', e, R⟩

theorem exec_imageWrite_begun (ho : o = imgOpOf b) (hs : s.get BT_BOOT_STAT_SLOT ≠ o.slot) (hn : s.dcp.imgOp = none)
    (hp : imgRefusal s o = none) :
    ∃ s', exec (.imageWrite t h body) s = .next s' ∧ Took s s' h' ∧ Answered s s' op h' .ok ∧ s'.dcp.imgOp = some o ∧
      s'.get BT_IMG_WR_STAT_BUSY = 1 ∧ s'.get BT_IMG_WR_STAT_SLOT = o.slot ∧ s'.get BT_IMG_WR_STAT_PHASE = 1 ∧
      s'.flash = skeep (fun a => a < slotBase o.slot || decide (slotBase o.slot + 0x10000 ≤ a)) s.flash ∧
      WordsKept s s' [HP_MST_CTR_LO h'.master, HP_MST_CTR_HI h'.master, HP_DCP_STAT, BT_IMG_WR_STAT] := by
  obtain ⟨s', e, R⟩ := exec_imageWrite_rest hc hr p ho hs hn hp
  obtain ⟨hop, hm, hcount⟩ := imageWrite_row hr
  obtain ⟨words, ctr, out, flash, op_⟩ := imgBegun_kept (taken_kept s t h') hm o
  obtain ⟨busy, shows, phase⟩ := imgBegun_shows (taken s t h') o (ho ▸ imgOpOf_slot_lt b)
  rw [← hop] at R
  obtain ⟨took, answered, op', busy', shows', phase', flash', kept⟩ :=
    begun_answered p hm hcount words ctr out (by rw [hop]; decide) R
  exact ⟨s', e, took, answered, op'.trans op_, busy'.trans busy, shows'.trans shows, phase'.trans phase, flash'.trans flash, kept⟩

end Row

end ImageWrite

end Sys2Proof.Proofs
end

section
open Sys2Proof Sys2Proof.Machine
namespace Sys2Proof.Proofs
/-! An encoder's self-verify as it counts (R100), and what an encoder shows. -/

section Encoder
variable {s x y s' : State} {n dest : Nat}

theorem rd_encShow {a : Nat} (ha : a ≠ CS_ENC_STAT n) : (x.encShow n).rd a = x.rd a := by
  rw [State.encShow, rd_put_ne _ _ _ ha, State.flag, rd_put_ne _ _ _ ha]

theorem get_encShow {f : Fld} (hf : f.hi < 16 ∨ 22 < f.lo) : (x.encShow n).get f = x.get f := by
  rw [State.encShow, get_put_apart _ _ _ _ (by decide : 16 ≤ 21 + 1) (by decide : 21 < 32) (by simp only; omega), State.flag,
    get_put_apart _ _ _ _ (by decide : 22 ≤ 22 + 1) (by decide : 22 < 32) (by simp only; omega)]

theorem encShow_flash (x : State) (n : Nat) : (x.encShow n).flash = x.flash := by
  rw [State.encShow, put_flash, State.flag, put_flash]

theorem encShow_otp (x : State) (n : Nat) : (x.encShow n).otp = x.otp := by
  rw [State.encShow, put_otp, State.flag, put_otp]

theorem encShow_dcp (x : State) (n : Nat) : (x.encShow n).dcp = x.dcp := by
  rw [State.encShow, put_dcp, State.flag, put_dcp]

theorem encShow_busy (x : State) (n : Nat) : (x.encShow n).get (CS_ENC_STAT_BUSY n) =
    b2n (!(x.screen.streams.filter (·.enc == n)).isEmpty || (n == 0 && x.imgEncodes)) := by
  rw [State.encShow, get_put_apart _ _ _ _ (by decide : 16 ≤ 21 + 1) (by decide : 21 < 32) (.inl (by decide : 21 < 22)), State.flag,
    get_put_same _ _ _ (by decide : 22 ≤ 22 + 1) (by decide : 22 < 32)]
  exact Nat.mod_eq_of_lt (b2n_lt _)

theorem encWords_hidden : ∀ n < 4, ∀ a ∈ [CS_ENC_CFG n, CS_ENC_STAT n, CS_ENC_VFAIL n],
    a ∉ shown ∧ TB_OFS_CFG ≠ a ∧ EV_NEXT_SEQ ≠ a := by decide

theorem untold_encShow (hn : n < 4) (h : Untold s x) : Untold s (x.encShow n) :=
  have away := (encWords_hidden n hn (CS_ENC_STAT n) (by simp)).2
  untold_put away (untold_put away h)

/-- A difference is counted, and reported first. -/
theorem encDiffers_reports (hn : n < 4) (h : Untold s x) : Reports s (x.encDiffers n dest) 0x3202 n dest 0 :=
  Untold.reports (untold_put (encWords_hidden n hn (CS_ENC_VFAIL n) (by simp)).2 h) ..

theorem encDiffers_rest : Rest (x.addSat (CS_ENC_VFAIL_VERIFY_FAIL n) 1) (x.encDiffers n dest) := rest_raise _ _ _ _ _

theorem encFails_rest : Rest ((x.flag (CS_ENC_STAT_FAILED n) true).addSat (CS_ENC_VFAIL_ENCODE_FAIL n) 1) (x.encFails n dest) :=
  rest_raise _ _ _ _ _

theorem grows_encFails : Grows x (x.encFails n dest) := ((grows_put _ _ _).trans (grows_put _ _ _)).trans (grows_raise _ _ _ _ _)

theorem get_encDiffers_fail (hn : n < 4) : (x.encDiffers n dest).get (CS_ENC_VFAIL_VERIFY_FAIL n) =
    min (x.get (CS_ENC_VFAIL_VERIFY_FAIL n) + 1) 0xFFFF := by
  rw [encDiffers_rest.get _ (encWords_hidden n hn (CS_ENC_VFAIL n) (by simp)).1]
  exact get_addSat x _ 1 (by decide : 0 ≤ 15 + 1) (by decide : 15 < 32)

theorem rd_encDiffers {a : Nat} (ha : a ∉ shown) (hv : a ≠ CS_ENC_VFAIL n) : (x.encDiffers n dest).rd a = x.rd a := by
  rw [encDiffers_rest.words a ha, State.addSat, rd_put_ne _ _ _ hv]

theorem rd_encFails {a : Nat} (ha : a ∉ shown) (hv : a ≠ CS_ENC_VFAIL n) (hs : a ≠ CS_ENC_STAT n) :
    (x.encFails n dest).rd a = x.rd a := by
  rw [encFails_rest.words a ha, State.addSat, rd_put_ne _ _ _ hv, State.flag, rd_put_ne _ _ _ hs]

theorem encStat_ne_vfail (n : Nat) : CS_ENC_STAT n ≠ CS_ENC_VFAIL n := by
  simp only [CS_ENC_STAT, CS_ENC_VFAIL]
  omega

end Encoder

end Sys2Proof.Proofs
end

section
open Sys2Proof Sys2Proof.Machine
namespace Sys2Proof.Proofs
/-! IMAGE_WRITE_DONE (R455): an operation's end, with its RESULT and event. -/

section Done
variable {s x y s' : State} {o : ImgOp} {t n k : Nat} {r : WriteOutcome}

theorem imgBody_congr (h : y.flash = x.flash) (k len n j off : Nat) : y.imgBody k len n j off = x.imgBody k len n j off := by
  have read (a m : Nat) : y.rdFlash a m = x.rdFlash a m := by rw [State.rdFlash, State.rdFlash, h]
  induction n generalizing j off with
  | zero => rfl
  | succ n ih => simp only [State.imgBody, read, ih]

/-- What a slot reads as depends on the flash and the keys alone. -/
theorem slotRead_congr (hf : y.flash = x.flash) (hk : y.get HP_KEY_STAT_STATE = x.get HP_KEY_STAT_STATE) (ho : y.otp = x.otp)
    (k : Nat) : y.imgHdr k = x.imgHdr k ∧ ∀ h, y.slotRead k h = x.slotRead k h := by
  refine ⟨by rw [State.imgHdr, State.imgHdr, State.rdFlash, State.rdFlash, hf], fun h => ?_⟩
  simp only [State.slotRead, imgBody_congr hf, checkReason_congr hk ho]

/-- The operation over, with what its end does to the flash. -/
def imgClosed (s : State) (o : ImgOp) (r : WriteOutcome) : State :=
  let s : State := { s with dcp := { s.dcp with imgOp := none } }
  if r = .ok then (if o.erase then s.flashErase (slotBase o.slot) 0x1000000 else s.imgHeader o) else s

/-- The RESULT of an operation's end. -/
def imgResult (x : State) (o : ImgOp) (r : WriteOutcome) : Nat :=
  match r with
  | .ok => if o.erase || ((x.imgHdr o.slot).reason == 0 && (x.slotRead o.slot (x.imgHdr o.slot)).1 == 0) then 1 else 4
  | .encodeFailed => 2
  | .flashError => 3
  | .readBackFailed => 4

/-- BT_IMG_WR_STAT and encoder 0 once an operation has ended. -/
def imgShown (x : State) (n : Nat) : State :=
  (((((x.flag BT_IMG_WR_STAT_BUSY false).put BT_IMG_WR_STAT_PHASE 0).put BT_IMG_WR_STAT_PROGRESS 0).put BT_IMG_WR_STAT_RESULT
    n).encShow 0)

theorem imageDone_eq (ho : s.dcp.imgOp = some o) (hs : s.c3Shed = false) (he : o.ends r = true) :
    s.imageDone r = (imgShown (imgClosed s o r) (imgResult (imgClosed s o r) o r)).raise 0x1809 o.slot
      (imgResult (imgClosed s o r) o r) 0 := by
  simp only [State.imageDone, ho, hs, he]
  cases r <;> rfl

theorem imgResult_lt (x : State) (o : ImgOp) (r : WriteOutcome) : imgResult x o r < 16 := by
  cases r <;> simp only [imgResult]
  · split <;> decide
  all_goals decide

theorem imgShown_facts (x : State) (hn : n < 16) : (∀ a, a ∉ [BT_IMG_WR_STAT, CS_ENC_STAT 0] → (imgShown x n).rd a = x.rd a) ∧
    (imgShown x n).get BT_IMG_WR_STAT_BUSY = 0 ∧ (imgShown x n).get BT_IMG_WR_STAT_RESULT = n := by
  refine ⟨fun a ha => ?_, ?_, ?_⟩
  · simp only [List.mem_cons, List.not_mem_nil, or_false, not_or] at ha
    rw [imgShown, rd_encShow ha.2, rd_put_ne _ _ _ ha.1, rd_put_ne _ _ _ ha.1, rd_put_ne _ _ _ ha.1, State.flag,
      rd_put_ne _ _ _ ha.1]
  · rw [imgShown, get_encShow (.inl (by decide)), get_put_apart _ _ _ _ (by decide) (by decide) (by decide),
      get_put_apart _ _ _ _ (by decide) (by decide) (by decide), get_put_apart _ _ _ _ (by decide) (by decide) (by decide),
      State.flag, get_put_same _ _ _ (by decide) (by decide)]
    rfl
  · rw [imgShown, get_encShow (.inl (by decide)), get_put_same _ _ _ (by decide) (by decide)]
    exact Nat.mod_eq_of_lt hn

theorem imgShown_frame (x : State) (n : Nat) : (imgShown x n).flash = x.flash ∧ (imgShown x n).otp = x.otp ∧
    (imgShown x n).dcp = x.dcp := by
  refine ⟨?_, ?_, ?_⟩
  · rw [imgShown, encShow_flash, put_flash, put_flash, put_flash, State.flag, put_flash]
  · rw [imgShown, encShow_otp, put_otp, put_otp, put_otp, State.flag, put_otp]
  · rw [imgShown, encShow_dcp, put_dcp, put_dcp, put_dcp, State.flag, put_dcp]

theorem untold_imgShown (h : Untold s x) (n : Nat) : Untold s (imgShown x n) :=
  untold_encShow (by decide) (untold_put (by decide) (untold_put (by decide) (untold_put (by decide) (untold_put (by decide) h))))

theorem imgClosed_frame (s : State) (o : ImgOp) (r : WriteOutcome) : (imgClosed s o r).words = s.words ∧
    (imgClosed s o r).otp = s.otp ∧ (imgClosed s o r).dcp.imgOp = none ∧ (imgClosed s o r).out = s.out ∧
    Untold s (imgClosed s o r) := by
  simp only [imgClosed]
  split_ifs <;> exact ⟨rfl, rfl, rfl, rfl, rfl, rfl, rfl⟩

/-- What is left of an operation's end once it has been shown and reported. -/
theorem imageDone_left (hn : n < 16) (R : Rest ((imgShown x n).raise 0x1809 o.slot n 0) s') :
    s'.flash = x.flash ∧ s'.otp = x.otp ∧ s'.dcp.imgOp = x.dcp.imgOp ∧ s'.get BT_IMG_WR_STAT_BUSY = 0 ∧
      s'.get BT_IMG_WR_STAT_RESULT = n ∧ WordsKept x s' [BT_IMG_WR_STAT, CS_ENC_STAT 0] := by
  have R := (rest_raise _ _ _ _ _).trans R
  obtain ⟨kept, busy, result⟩ := imgShown_facts x hn
  obtain ⟨flash, otp, dcp⟩ := imgShown_frame x n
  have stat : BT_IMG_WR_STAT ∉ shown := by decide
  exact ⟨(flash_of_rest R).trans flash, (otp_of_rest R).trans otp, (imgOp_of_rest R).trans (by rw [dcp]),
    (R.get _ stat).trans busy, (R.get _ stat).trans result, wordsKept_of_rest R kept⟩

/-- How an operation ends, whatever its end. -/
theorem exec_imageDone (hc : s.core = .running) (ho : s.dcp.imgOp = some o) (hs : s.c3Shed = false) (he : o.ends r = true) :
    ∃ s' n, exec (.imageWriteDone t r) s = .next s' ∧ s'.dcp.imgOp = none ∧ s'.flash = (imgClosed s o r).flash ∧
      n = imgResult s' o r ∧ s'.get BT_IMG_WR_STAT_BUSY = 0 ∧ s'.get BT_IMG_WR_STAT_RESULT = n ∧
      Reports (s.advance t) s' 0x1809 o.slot n 0 ∧ WordsKept s s' [BT_IMG_WR_STAT, CS_ENC_STAT 0] := by
  obtain ⟨words, otp, op_, -, untold⟩ := imgClosed_frame (s.advance t) o r
  have flash : (imgClosed (s.advance t) o r).flash = (imgClosed s o r).flash := by
    simp only [imgClosed]
    split_ifs <;> rfl
  have eq := imageDone_eq (s := s.advance t) ho hs he
  generalize imgClosed (s.advance t) o r = x at *
  obtain ⟨s', e, R, reports⟩ := run_reports (f := (·.imageDone r)) (t := t) hc (Rest.refl _)
    (eq ▸ (untold_imgShown untold _).reports _ _ _ _)
  simp only [eq] at R
  obtain ⟨flash', otp', op', busy, result, kept⟩ := imageDone_left (imgResult_lt x o r) R
  have key : s'.get HP_KEY_STAT_STATE = x.get HP_KEY_STAT_STATE := by
    rw [State.get, State.get, kept HP_KEY_STAT (by decide) (by decide)]
  obtain ⟨hdr, read⟩ := slotRead_congr flash' key otp' o.slot
  have n_eq : imgResult s' o r = imgResult x o r := by
    cases r <;> simp only [imgResult, hdr, read]
  refine ⟨s', imgResult x o r, e, op'.trans op_, flash'.trans flash, n_eq.symm, busy, result, reports, fun a hs ha => ?_⟩
  rw [kept a hs ha, State.rd, words]
  rfl

end Done

end Sys2Proof.Proofs
end

section
open Sys2Proof Sys2Proof.Machine
namespace Sys2Proof.Proofs
/-! A strip of an image's body as its self-verify ends (R99, R100, R455). -/

section Verify
variable {s x s' : State} {o : ImgOp} {t : Nat} {v : VerifyOutcome}

/-- The body's stream is open: its first strip opens it. -/
def imgOpened (s : State) (o : ImgOp) : State := if o.next = 0 then s.imgOpen o else s

/-- The registers an image's stream shows itself in. -/
def imgWords : List Nat := [BT_IMG_WR_STAT, CS_ENC_CFG 0, CS_ENC_STAT 0]

theorem rd_imgOpened {a : Nat} (ha : a ∉ imgWords) : (imgOpened s o).rd a = s.rd a := by
  simp only [imgWords, List.mem_cons, List.not_mem_nil, or_false, not_or] at ha
  obtain ⟨hi, hc, hs⟩ := ha
  rw [imgOpened]
  split
  · rw [State.imgOpen, State.flag, rd_put_ne _ _ _ hs, rd_put_ne _ _ _ hc, State.flag, rd_put_ne _ _ _ hc, rd_put_ne _ _ _ hc,
      rd_put_ne _ _ _ hc, rd_put_ne _ _ _ hc, rd_put_ne _ _ _ hi]
    rfl
  · rfl

/-- Opening the stream leaves MODE_EN and the encoder's count as they are. -/
theorem get_imgOpened : (imgOpened s o).get (CS_ENC_CFG_MODE_EN 0) = s.get (CS_ENC_CFG_MODE_EN 0) ∧
    (imgOpened s o).get (CS_ENC_STAT_STRIPS 0) = s.get (CS_ENC_STAT_STRIPS 0) := by
  rw [imgOpened]
  split
  · constructor
    · rw [State.imgOpen, State.flag, get_put_ne _ _ _ _ (by decide), get_put_apart _ _ _ _ (by decide) (by decide) (by decide),
        State.flag, get_put_apart _ _ _ _ (by decide) (by decide) (by decide),
        get_put_apart _ _ _ _ (by decide) (by decide) (by decide), get_put_apart _ _ _ _ (by decide) (by decide) (by decide),
        get_put_apart _ _ _ _ (by decide) (by decide) (by decide), get_put_ne _ _ _ _ (by decide)]
      rfl
    · rw [State.imgOpen, State.flag, get_put_apart _ _ _ _ (by decide) (by decide) (by decide), get_put_ne _ _ _ _ (by decide),
        State.flag, get_put_ne _ _ _ _ (by decide), get_put_ne _ _ _ _ (by decide), get_put_ne _ _ _ _ (by decide),
        get_put_ne _ _ _ _ (by decide), get_put_ne _ _ _ _ (by decide)]
      rfl
  · exact ⟨rfl, rfl⟩

/-- A field of the state that no write of a word touches. -/
theorem imgOpened_keeps {β : Type} (g : State → β) (hw : ∀ (s : State) f v, g (s.put f v) = g s)
    (hf : ∀ (s : State) a n, g (s.flashErase a n) = g s) : g (imgOpened s o) = g s := by
  rw [imgOpened]
  split
  · simp only [State.imgOpen, State.flag, hw, hf]
  · rfl

theorem imgOpened_flash : (imgOpened s o).flash = if o.next = 0 then
    skeep (fun a => a < slotBase o.slot || decide (slotBase o.slot + 0x1000000 ≤ a)) s.flash else s.flash := by
  rw [imgOpened]
  split
  · rw [State.imgOpen, State.flag, put_flash, put_flash, State.flag, put_flash, put_flash, put_flash, put_flash, put_flash]
    rfl
  · rfl

theorem untold_imgOpened (h : Untold s x) : Untold s (imgOpened x o) := by
  have erased (a n : Nat) : Untold s (x.flashErase a n) := ⟨h.events, h.now, h.next⟩
  rw [imgOpened]
  split
  · exact untold_put (by decide) (untold_put (by decide) (untold_put (by decide) (untold_put (by decide)
      (untold_put (by decide) (untold_put (by decide) (untold_put (by decide) (erased _ _)))))))
  · exact h

theorem imgVerify_equal (ho : s.dcp.imgOp = some o) (he : o.encodes = true) : s.imgVerify .equal =
    ((imgOpened s o).imgRelease o ((imgOpened s o).get (CS_ENC_CFG_MODE_EN 0))).encShow 0 := by
  simp only [State.imgVerify, ho, he]
  rfl

/-- The operation's stream has failed. -/
def imgFailed (x : State) (o : ImgOp) : State :=
  { x with dcp := { x.dcp with imgOp := some { o with failed := true } } }

theorem imgVerify_differs (ho : s.dcp.imgOp = some o) (he : o.encodes = true) : s.imgVerify .rawDiffers =
    (imgFailed (((imgOpened s o).encDiffers 0 2).encFails 0 2) o).encShow 0 := by
  simp only [State.imgVerify, ho, he]
  rfl

/-- Encoder 0 without a proof stream takes the image's strip. -/
theorem exec_encoderVerify_image (hc : s.core = .running) (hs : s.c3Shed = false) (hn : s.screen.streams = []) :
    exec (.encoderVerify t 0 v) s = .next (((s.advance t).imgVerify v).whenRunning settle) := by
  have shed : (s.advance t).c3Shed = false := hs
  refine (run_on hc).trans ?_
  rw [shed, advance_screen, hn]
  rfl

/-- The strip that is programmed behind those before it, on a 4-byte boundary. -/
def imgStrip (s : State) (o : ImgOp) (modeEn : Nat) : List Byte :=
  List.replicate ((4 - o.len % 4) % 4) 0 ++
    encodeStrip (imgGeom o.rawLen o.next) modeEn ((slice (s.staged o) (o.next * 131072) 131072).map BitVec.toNat)

theorem imgRelease_flash (x : State) (o : ImgOp) (modeEn : Nat) :
    (x.imgRelease o modeEn).flash = sputs flashReset x.flash (slotBase o.slot + 128 + o.len) (imgStrip x o modeEn) := by
  rw [State.imgRelease, put_flash, State.inc, State.add, put_flash]
  rfl

theorem imgRelease_next (x : State) (o : ImgOp) (modeEn : Nat) :
    (x.imgRelease o modeEn).dcp.imgOp.map (·.next) = some (o.next + 1) := by
  rw [State.imgRelease, put_dcp, State.inc, State.add, put_dcp]
  rfl

theorem imgRelease_out (x : State) (o : ImgOp) (modeEn : Nat) : (x.imgRelease o modeEn).out = x.out := by
  rw [State.imgRelease, put_out, State.inc, State.add, put_out]
  rfl

theorem imgRelease_strips (x : State) (o : ImgOp) (modeEn : Nat) :
    (x.imgRelease o modeEn).get (CS_ENC_STAT_STRIPS 0) = (x.get (CS_ENC_STAT_STRIPS 0) + 1) % 2 ^ 16 := by
  rw [State.imgRelease, get_put_ne _ _ _ _ (by decide)]
  exact get_inc _ _ (by decide) (by decide)

/-- A strip found equal is programmed. -/
theorem exec_imageStrip_equal (hc : s.core = .running) (ho : s.dcp.imgOp = some o) (hs : s.c3Shed = false)
    (he : o.encodes = true) (hn : s.screen.streams = []) :
    ∃ s', exec (.encoderVerify t 0 .equal) s = .next s' ∧
      s'.flash = sputs flashReset
        (if o.next = 0 then skeep (fun a => a < slotBase o.slot || decide (slotBase o.slot + 0x1000000 ≤ a)) s.flash else s.flash)
        (slotBase o.slot + 128 + o.len) (imgStrip s o (s.get (CS_ENC_CFG_MODE_EN 0))) ∧
      s'.dcp.imgOp.map (·.next) = some (o.next + 1) ∧
      s'.get (CS_ENC_STAT_STRIPS 0) = (s.get (CS_ENC_STAT_STRIPS 0) + 1) % 2 ^ 16 ∧ s'.out = s.out := by
  refine ⟨_, exec_encoderVerify_image hc hs hn, ?_⟩
  have R := rest_whenRunning ((s.advance t).imgVerify .equal)
  have verify := imgVerify_equal (s := s.advance t) ho he
  have region : (imgOpened (s.advance t) o).rd (MC_RGN_BASE 0) = s.rd (MC_RGN_BASE 0) := rd_imgOpened (by decide)
  have mem : (imgOpened (s.advance t) o).mem = s.mem := imgOpened_keeps State.mem (fun _ _ _ => rfl) (fun _ _ _ => rfl)
  have out : (imgOpened (s.advance t) o).out = s.out := imgOpened_keeps State.out (fun _ _ _ => rfl) (fun _ _ _ => rfl)
  have flash := imgOpened_flash (s := s.advance t) (o := o)
  obtain ⟨modeEn, strips⟩ := get_imgOpened (s := s.advance t) (o := o)
  have stat : CS_ENC_STAT 0 ∉ shown := by decide
  generalize ((s.advance t).imgVerify .equal).whenRunning settle = s' at *
  rw [verify] at R
  generalize imgOpened (s.advance t) o = x at *
  have strip : imgStrip x o (x.get (CS_ENC_CFG_MODE_EN 0)) = imgStrip s o (s.get (CS_ENC_CFG_MODE_EN 0)) := by
    rw [imgStrip, staged_congr region mem, modeEn]
    rfl
  refine ⟨?_, ?_, ?_, ?_⟩
  · rw [flash_of_rest R, encShow_flash, imgRelease_flash, strip, flash, advance_flash]
  · rw [imgOp_of_rest R, encShow_dcp, imgRelease_next]
  · rw [R.get _ stat, get_encShow (.inl (by decide)), imgRelease_strips, strips, get_advance]
  · rw [R.out, State.encShow, put_out, State.flag, put_out, imgRelease_out, out]

/-- One that differs twice fails the stream. -/
theorem exec_imageStrip_differs (hc : s.core = .running) (ho : s.dcp.imgOp = some o) (hs : s.c3Shed = false)
    (he : o.encodes = true) (hn : s.screen.streams = []) :
    ∃ s', exec (.encoderVerify t 0 .rawDiffers) s = .next s' ∧ Reports (s.advance t) s' 0x3202 0 2 0 ∧
      s'.dcp.imgOp.map (·.failed) = some true ∧ s'.get (CS_ENC_STAT_FAILED 0) = 1 ∧ s'.get (CS_ENC_STAT_BUSY 0) = 0 := by
  refine ⟨_, exec_encoderVerify_image hc hs hn, ?_⟩
  have R := rest_whenRunning ((s.advance t).imgVerify .rawDiffers)
  have grows := grows_whenRunning ((s.advance t).imgVerify .rawDiffers)
  have verify := imgVerify_differs (s := s.advance t) ho he
  have untold := untold_imgOpened (o := o) (untold_refl (s.advance t))
  have screen : (imgOpened (s.advance t) o).screen = s.screen :=
    imgOpened_keeps State.screen (fun _ _ _ => rfl) (fun _ _ _ => rfl)
  have stat : CS_ENC_STAT 0 ∉ shown := by decide
  generalize ((s.advance t).imgVerify .rawDiffers).whenRunning settle = s' at *
  rw [verify] at R grows
  generalize imgOpened (s.advance t) o = x at *
  have first := encDiffers_reports (n := 0) (dest := 2) (by decide) untold
  have streams : ((x.encDiffers 0 2).encFails 0 2).screen.streams = [] := by
    rw [screen_of_rest encFails_rest, State.addSat, put_screen, State.flag, put_screen, screen_of_rest encDiffers_rest,
      State.addSat, put_screen, screen, hn]
  have failed : ((x.encDiffers 0 2).encFails 0 2).get (CS_ENC_STAT_FAILED 0) = 1 := by
    rw [encFails_rest.get _ stat, State.addSat, get_put_ne _ _ _ _ (by decide), State.flag,
      get_put_same _ _ _ (by decide) (by decide)]
    rfl
  refine ⟨?_, ?_, ?_, ?_⟩
  · refine ((first.grows (grows_encFails (n := 0) (dest := 2))).grows ?_).grows grows
    exact (Grows.of_eq (y := imgFailed _ o) rfl).trans ((grows_put _ _ _).trans (grows_put _ _ _))
  · rw [imgOp_of_rest R, encShow_dcp]
    rfl
  · rw [R.get _ stat, get_encShow (.inr (by decide))]
    exact failed
  · rw [R.get _ stat, encShow_busy]
    have idle : (imgFailed ((x.encDiffers 0 2).encFails 0 2) o).imgEncodes = false := by
      simp [State.imgEncodes, imgFailed, ImgOp.encodes]
    rw [idle, imgFailed, streams]
    rfl

end Verify

end Sys2Proof.Proofs
end

section
open Sys2Proof Sys2Proof.Machine
namespace Sys2Proof.Proofs

/-- A PROGRAM's length and staging pass, and its CHECK decides. -/
theorem imgRefusal_program {s : State} {o : ImgOp} (he : o.erase = false) (hl : rawLenOk o.rawLen = true)
    (hs : o.first + cdiv o.rawLen 0x100000 ≤ s.imgSlots) {r : Nat}
    (hr : r = s.checkReason o.head o.keySlot o.unkeyed o.check (s.staged o)) :
    imgRefusal s o = if r = 0 ∨ (r = 6 ∧ o.unkeyed) then none else some (.value 6) := by
  simp only [imgRefusal, he, hl, ← hr, if_neg (Nat.not_lt.mpr hs)]
  rfl

theorem rawLenOk_iff (n : Nat) : rawLenOk n = true ↔ n % 4096 = 0 ∧ 4096 ≤ n ∧ n ≤ 15728640 := by
  simp [rawLenOk, and_assoc]

/-- The slot that runs, as a request finds it. -/
theorem taken_slot (s : State) (t : Nat) {h : DcpHdr} (hm : h.master < 4) :
    (taken s t h).get BT_BOOT_STAT_SLOT = s.get BT_BOOT_STAT_SLOT :=
  get_of_kept (taken_kept s t h) (takenWords_apart hm BT_BOOT_STAT (by decide))

/-- Settles O36: a request that passes is performed on the state its counter leaves, where `imgRefusal` answers as at the state
before; an operation's end is `imgClosed` shown and reported; a strip's self-verify is the release or the failure of its stream. -/
theorem imageSlots : Obligations.ImageSlots := by
  intro t s hc
  refine ⟨?_, ?_, ?_, ?_, fun o ho hslot hs => ⟨?_, ?_, ?_, ?_, ?_⟩⟩
  · intro op h h' body b hr p hs hn he
    have erases : (imgOpOf b).erase = true := beq_iff_eq.mpr he
    obtain ⟨s', e, took, answered, op_, busy, slot, phase, -, kept⟩ :=
      exec_imageWrite_begun hc hr p rfl hs hn (by rw [imgRefusal, if_pos erases])
    exact ⟨s', e, took, answered, op_, busy, slot, phase, kept⟩
  · intro op h h' body b o hr p hs hn he ho
    have programs : o.erase = false := by
      rw [ho]
      exact beq_eq_false_iff_ne.mpr (by rw [he]; decide)
    have len : o.rawLen = b.getD 2 0 := by rw [ho]; rfl
    have first : o.first = b.getD 1 0 := by rw [ho]; rfl
    have slot : s.get BT_BOOT_STAT_SLOT ≠ o.slot := by rw [ho]; exact hs
    have refused (a : Ans) (ha : a.status ≠ stAuthFail) (hp : imgRefusal s o = some a) :
        ∃ s', exec (.imageWrite t h body) s = .next s' ∧ Answered s s' op h' a ∧ s'.flash = s.flash ∧ s'.dcp.imgOp = none := by
      obtain ⟨-, hm, -⟩ := imageWrite_row hr
      have k := taken_kept s t h'
      rw [← hn]
      refine exec_imageWrite_refused hc hr p ha (imageWrite_refused ?_ (k.imgOp.trans hn) ?_)
      · rw [taken_slot s t hm]
        exact hs
      · rw [imgRefusal_kept k hm, ← ho, hp]
    rw [← len, ← first, ← rawLenOk_iff]
    refine ⟨fun hlen => ⟨fun hfit => ⟨fun r hrr hok => ?_, fun r hrr h0 h6 => ?_⟩, fun hfit => ?_⟩, fun hlen => ?_⟩
    · exact ho ▸ exec_imageWrite_begun hc hr p rfl hs hn (by rw [← ho, imgRefusal_program programs hlen hfit hrr, if_pos hok])
    · refine refused _ (by decide) ?_
      rw [imgRefusal_program programs hlen hfit hrr, if_neg]
      rintro (rfl | ⟨rfl, unkeyed⟩)
      · exact h0 rfl
      · exact h6.elim (absurd rfl) (fun keyed => by rw [keyed] at unkeyed; cases unkeyed)
    · exact refused _ (by decide) (by simp [imgRefusal, programs, hlen, hfit])
    · exact refused _ (by decide) (by simp [imgRefusal, programs, hlen])
  · intro op h h' body b hr p hs
    obtain ⟨-, hm, -⟩ := imageWrite_row hr
    exact exec_imageWrite_refused hc hr p (by decide) (imageWrite_running (by rw [taken_slot s t hm]; exact hs))
  · intro op h h' body b o hr p hs ho
    obtain ⟨-, hm, -⟩ := imageWrite_row hr
    exact exec_imageWrite_refused hc hr p (by decide) (imageWrite_busy (by rw [taken_slot s t hm]; exact hs)
      ((taken_kept s t h').imgOp.trans ho))
  · intro he hf
    obtain ⟨s', n, e, op_, flash, rfl, busy, result, reports, kept⟩ :=
      exec_imageDone (t := t) (r := .ok) hc ho hs (by simp [ImgOp.ends, ImgOp.encodes, he, hf])
    have erased : imgResult s' o .ok = 1 := by simp [imgResult, he]
    rw [erased] at result reports
    exact ⟨s', e, op_, flash.trans (by simp [imgClosed, he, State.flashErase]), busy, result, reports, kept⟩
  · intro he hf hn
    obtain ⟨s', n, e, op_, flash, rfl, busy, result, reports, kept⟩ :=
      exec_imageDone (t := t) (r := .ok) hc ho hs (by simp [ImgOp.ends, ImgOp.encodes, he, hf, hn])
    exact ⟨s', _, e, op_, flash.trans (by simp [imgClosed, he]; rfl), by simp [imgResult, he], busy, result, reports, kept⟩
  · intro r hr he
    obtain ⟨s', n, e, op_, flash, rfl, busy, result, reports, kept⟩ := exec_imageDone (t := t) hc ho hs he
    refine ⟨s', _, e, op_, flash.trans (by rw [imgClosed, if_neg hr]), ?_, busy, result, reports, kept⟩
    cases r
    case ok => exact absurd rfl hr
    all_goals rfl
  · exact fun he hn => exec_imageStrip_equal hc ho hs he hn
  · exact fun he hn => exec_imageStrip_differs hc ho hs he hn

end Sys2Proof.Proofs
end

section
open Sys2Proof Sys2Proof.Machine
namespace Sys2Proof.Proofs
/-! What a bar's composition leaves as it was: every channel's next SEQ, the lines of the other bars' channels, and the last
line of the bar itself. -/

/-- The address of no channel's JL_SEQ. -/
def offSeq (a : Nat) : Prop := a < 0x0C0000 ∨ 0x0C6000 ≤ a ∨ a % 0x100 ≠ 0x44

theorem offSeq_ne {a ch : Nat} (h : offSeq a) (hc : ch < 96) : JL_SEQ ch ≠ a := by
  have := h
  rw [offSeq] at this
  rw [JL_SEQ, laneBase, if_pos hc]
  omega

/-- A register of a block of 256 bytes or more, at another place in it. -/
theorem offSeq_block {base st n : Nat} (h : base % 0x100 ≠ 0x44) (hs : st % 0x100 = 0) : offSeq (base + st * n) := by
  rw [offSeq, Nat.add_mod, Nat.mul_mod, hs]
  omega

/-- A register of a block of 16 bytes or more, at another place in it. -/
theorem offSeq_row {base st n : Nat} (h : base % 0x10 ≠ 4) (hs : st % 0x10 = 0) : offSeq (base + st * n) := by
  obtain ⟨k, rfl⟩ := Nat.dvd_of_mod_eq_zero hs
  rw [offSeq, Nat.mul_assoc]
  omega

theorem offSeq_lane {l o : Nat} (ho : o < 0x100) (h : o ≠ 0x44) : offSeq (laneBase l + o) := by
  rw [offSeq, laneBase]
  split <;> omega

theorem jl_seq_not_shown (ch : Nat) (h : ch < 96) : JL_SEQ ch ∉ shown := by
  revert ch
  decide

/-- From one state to the other no channel's next SEQ changed, no line of a channel of another bar, and not the last line of
the bar. -/
structure BarOnly (b : Nat) (s y : State) : Prop where
  seqs : ∀ ch < 96, y.rd (JL_SEQ ch) = s.rd (JL_SEQ ch)
  lines : ∀ ch, chanBar ch ≠ b → y.chanLines ch = s.chanLines ch
  bars : y.screen.bars.length = s.screen.bars.length
  last : (y.screenBar b).lastLine = (s.screenBar b).lastLine

theorem barOnly_refl (b : Nat) (s : State) : BarOnly b s s := ⟨fun _ _ => rfl, fun _ _ => rfl, rfl, rfl⟩

section
variable {b : Nat} {s x y : State}

theorem BarOnly.trans (h : BarOnly b s x) (k : BarOnly b x y) : BarOnly b s y :=
  ⟨fun ch hc => (k.seqs ch hc).trans (h.seqs ch hc), fun ch hc => (k.lines ch hc).trans (h.lines ch hc),
    k.bars.trans h.bars, k.last.trans h.last⟩

/-- No word, no line and no bar changed. -/
theorem barOnly_same (h : BarOnly b s x) (hw : y.words = x.words) (hl : y.lines = x.lines)
    (hb : y.screen.bars = x.screen.bars) : BarOnly b s y :=
  h.trans ⟨fun _ _ => by rw [State.rd, hw]; rfl, fun _ _ => by rw [State.chanLines, hl]; rfl, by rw [hb],
    by rw [State.screenBar, hb]; rfl⟩

theorem barOnly_of_rest (h : BarOnly b s x) (r : Rest x y) : BarOnly b s y :=
  have hl : y.lines = x.lines := (congrArg State.lines r.bare :)
  have hs : y.screen = x.screen := screen_of_rest r
  h.trans ⟨fun ch hc => r.words _ (jl_seq_not_shown ch hc), fun _ _ => by rw [State.chanLines, hl]; rfl, by rw [hs],
    by rw [State.screenBar, hs]; rfl⟩

theorem barOnly_wr {a v : Nat} (ha : offSeq a) (h : BarOnly b s x) : BarOnly b s (x.wr a v) :=
  h.trans ⟨fun _ hc => rd_wr_ne _ _ (offSeq_ne ha hc), fun _ _ => rfl, rfl, rfl⟩

theorem barOnly_put {f : Fld} {v : Nat} (hf : offSeq f.addr) (h : BarOnly b s x) : BarOnly b s (x.put f v) :=
  barOnly_wr hf h

theorem barOnly_ite {c : Prop} [Decidable c] (hx : BarOnly b s x) (hy : BarOnly b s y) : BarOnly b s (if c then x else y) := by
  split <;> assumption

theorem barOnly_each {α : Type} {f : State → α → State} {l : List α} (h : BarOnly b s x)
    (hf : ∀ y, BarOnly b s y → ∀ a ∈ l, BarOnly b s (f y a)) : BarOnly b s (x.each l f) := by
  induction l generalizing x with
  | nil => exact h
  | cons a l ih => exact ih (hf x h a List.mem_cons_self) fun y hy c hc => hf y hy c (List.mem_cons_of_mem _ hc)

theorem screenBar_modBar_ne {n : Nat} {f : ScreenBar → ScreenBar} (h : n ≠ b) :
    (x.modBar n f).screenBar b = x.screenBar b := by
  simp [State.screenBar, State.modBar, modAt, h]

theorem screenBar_modBar_same {f : ScreenBar → ScreenBar} (h : b < x.screen.bars.length) :
    (x.modBar b f).screenBar b = f (x.screenBar b) := by
  simp [State.screenBar, State.modBar, modAt, h]

theorem barOnly_modBar {n : Nat} {f : ScreenBar → ScreenBar} (hf : ∀ q, (f q).lastLine = q.lastLine) (h : BarOnly b s x) :
    BarOnly b s (x.modBar n f) := by
  refine h.trans ⟨fun _ _ => rfl, fun _ _ => rfl, List.length_modify .., ?_⟩
  by_cases e : n = b
  · subst e
    by_cases l : n < x.screen.bars.length
    · rw [screenBar_modBar_same l, hf]
    · have none_ : x.screen.bars[n]? = none := List.getElem?_eq_none (Nat.le_of_not_lt l)
      simp [State.screenBar, State.modBar, modAt, none_]
  · rw [screenBar_modBar_ne e]

theorem barOnly_modLines {ch : Nat} {f : List ChanLine → List ChanLine} (hc : chanBar ch = b) (h : BarOnly b s x) :
    BarOnly b s (x.modLines ch f) := by
  refine h.trans ⟨fun _ _ => rfl, fun c hb => ?_, rfl, rfl⟩
  have ne : ch ≠ c := fun e => hb (e ▸ hc)
  simp [State.chanLines, State.modLines, modAt, ne]

theorem barOnly_raise {c a0 a1 a2 : Nat} (h : BarOnly b s x) : BarOnly b s (x.raise c a0 a1 a2) :=
  barOnly_of_rest h (rest_raise ..)

theorem barOnly_record {type time : Nat} {p : List Byte} (h : BarOnly b s x) : BarOnly b s (x.record type time p) :=
  barOnly_of_rest h (rest_record ..)

theorem barOnly_waste {causes : Nat} {lo hi : Int} (h : BarOnly b s x) : BarOnly b s (x.waste causes lo hi) :=
  barOnly_of_rest h (rest_waste ..)

theorem barOnly_wasteCopy {causes : Nat} {lo hi : Int} (h : BarOnly b s x) : BarOnly b s (x.wasteCopy causes lo hi) :=
  barOnly_of_rest h (rest_wasteCopy ..)

theorem barOnly_wasteStrip {r : PageRun} {id gen k : Nat} (h : BarOnly b s x) : BarOnly b s (x.wasteStrip r id gen k) :=
  barOnly_of_rest h (rest_wasteStrip _)

theorem barOnly_modRun {ord page : Nat} {f : PageRun → PageRun} (h : BarOnly b s x) : BarOnly b s (x.modRun ord page f) :=
  barOnly_same h rfl rfl rfl

theorem barOnly_modStream {q : ProofStream} {f : ProofStream → ProofStream} (h : BarOnly b s x) :
    BarOnly b s (x.modStream q f) :=
  barOnly_same h rfl rfl rfl

theorem barOnly_wrMem {a : Nat} {bs : List Byte} (h : BarOnly b s x) : BarOnly b s (x.wrMem a bs) :=
  barOnly_same h rfl rfl rfl

theorem barOnly_hbItem {w0 w1 w2 w3 : Nat} (h : BarOnly b s x) : BarOnly b s (x.hbItem w0 w1 w2 w3) := by
  have recorded : BarOnly b s (if bits w0 31 24 == 4 then x else
      x.record 0x04 x.now (([w0, w1, w2, w3].map (· % 2 ^ 32)).flatMap (leBytes 4))) := barOnly_ite h (barOnly_record h)
  exact barOnly_ite (barOnly_same recorded rfl rfl rfl) recorded

/-! Before the line: rates, an armed change, registration, overspeed, strips (R244, R161, R199, R165, R93). -/

theorem barOnly_rate {l : Nat} {v : Bool} (h : BarOnly b s x) : BarOnly b s (x.flag (LANE_STAT_RATE_LOW l) v) :=
  barOnly_put (offSeq_lane (by decide) (by decide)) h

theorem barOnly_startRates {r : PageRun} (h : BarOnly b s x) : BarOnly b s (x.startRates b r) := by
  refine barOnly_ite h ?_
  split
  · exact barOnly_each h fun _ hy _ _ => barOnly_rate hy
  · exact h

theorem barOnly_windowPut {base size : Nat} {ws : List (Nat × Nat)} (hb : 0x0C6000 ≤ base) (h : BarOnly b s x) :
    BarOnly b s (x.windowPut base size ws) :=
  have away (o : Nat) : offSeq (base + o) := .inr (.inl (by omega))
  barOnly_each (barOnly_each h fun _ hy p _ => barOnly_wr (away p.1) hy) fun _ hy p _ => barOnly_wr (away p.1) hy

theorem barOnly_bankSwap {n : Nat} (h : BarOnly b s x) : BarOnly b s (x.bankSwap n) :=
  have live : 0x0C6000 ≤ liveWin n := by rw [liveWin]; omega
  have shadow : 0x0C6000 ≤ shadowWin n := by rw [shadowWin]; omega
  barOnly_put (offSeq_block (by decide) (by decide))
    (barOnly_modBar (fun _ => rfl) (barOnly_windowPut shadow (barOnly_windowPut live h)))

theorem barOnly_recount {n : Nat} (h : BarOnly b s x) : BarOnly b s (x.recount n) :=
  barOnly_wr (offSeq_block (by decide) (by decide)) (barOnly_wr (offSeq_block (by decide) (by decide)) h)

theorem barOnly_armApply {n : Nat} {a : Armed} (h : BarOnly b s x) : BarOnly b s (x.armApply n a) := by
  unfold State.armApply
  extract_lets s1 s2 s3 s4
  have h1 : BarOnly b s s1 := barOnly_ite (barOnly_bankSwap h) h
  have h2 : BarOnly b s s2 := barOnly_ite (barOnly_put (offSeq_block (by decide) (by decide)) h1) h1
  have h3 : BarOnly b s s3 := barOnly_put (offSeq_block (by decide) (by decide)) (barOnly_modBar (fun _ => rfl) h2)
  have h4 : BarOnly b s s4 := barOnly_raise (barOnly_put (offSeq_block (by decide) (by decide)) (barOnly_recount h3))
  exact barOnly_ite (barOnly_put (.inl (by decide)) (barOnly_put (offSeq_block (by decide) (by decide)) h4)) h4

theorem barOnly_ovsReach {n ord line : Nat} (h : BarOnly b s x) : BarOnly b s (x.ovsReach n ord line) := by
  simp only [State.ovsReach]
  split
  · exact h
  · exact barOnly_put (offSeq_block (by decide) (by decide)) (barOnly_modBar (fun _ => rfl) h)

theorem barOnly_regStep {n : Nat} {target : Int} (h : BarOnly b s x) : BarOnly b s (x.regStep n target) :=
  barOnly_put (offSeq_row (by decide) (by decide)) h

theorem barOnly_ovsTake {n state ord line : Nat} (h : BarOnly b s x) : BarOnly b s (x.ovsTake n state ord line) :=
  barOnly_modBar (fun _ => rfl) (barOnly_raise (barOnly_put (offSeq_block (by decide) (by decide)) h))

theorem barOnly_ovsDecide {n : Nat} {r : PageRun} (h : BarOnly b s x) : BarOnly b s (x.ovsDecide r n) :=
  barOnly_ite h (barOnly_ite h (barOnly_hbItem (barOnly_ovsTake h)))

theorem barOnly_stripError {r : PageRun} {id gen k : Nat} {d : StripRead} (h : BarOnly b s x) :
    BarOnly b s (x.stripError r id gen k d) := by
  have marked : BarOnly b s (if x.authoritative then x.wasteStrip r id gen k else x) := barOnly_ite (barOnly_wasteStrip h) h
  have bad : BarOnly b s ((if x.authoritative then x.wasteStrip r id gen k else x).modSlot id gen k fun x =>
      { x with state := stBad, ue := false }) := barOnly_same marked rfl rfl rfl
  exact barOnly_same (barOnly_raise (barOnly_wr (.inl (by decide)) (barOnly_wr (.inl (by decide))
    (barOnly_put (.inl (by decide)) bad)))) rfl rfl rfl

theorem barOnly_rawOut {n : Nat} (h : BarOnly b s x) : BarOnly b s (x.rawOut n) :=
  barOnly_put (.inl (by decide)) (barOnly_same h rfl rfl rfl)

theorem barOnly_stripDeliver {r : PageRun} {id gen k : Nat} (h : BarOnly b s x) : BarOnly b s (x.stripDeliver r id gen k) := by
  have read := barOnly_rawOut (n := (x.slotOf id gen k).rawLen) h
  exact barOnly_ite (barOnly_same read rfl rfl rfl) (barOnly_stripError (barOnly_same read rfl rfl rfl))

theorem barOnly_stripZeros {r : PageRun} {id gen k : Nat} (h : BarOnly b s x) : BarOnly b s (x.stripZeros r id gen k) :=
  have marked : BarOnly b s (if x.authoritative then x.wasteStrip r id gen k else x) := barOnly_ite (barOnly_wasteStrip h) h
  barOnly_same marked rfl rfl rfl

theorem barOnly_stripNeed {r : PageRun} {id gen k : Nat} (h : BarOnly b s x) : BarOnly b s (x.stripNeed r id gen k) :=
  barOnly_ite (barOnly_ite h (barOnly_stripDeliver h)) (barOnly_ite h (barOnly_stripZeros h))

/-! The line's records (R75, R244, R257, R307). -/

theorem barOnly_spdShow (h : BarOnly b s x) : BarOnly b s x.spdShow :=
  barOnly_ite (barOnly_raise (barOnly_put (.inl (by decide)) (barOnly_put (.inl (by decide)) h)))
    (barOnly_ite (barOnly_raise (barOnly_put (.inl (by decide)) h)) h)

theorem barOnly_slackShow {ch : Nat} {slack : Int} (h : BarOnly b s x) : BarOnly b s (x.slackShow ch slack) := by
  have calm {z : State} (hz : BarOnly b s z) : BarOnly b s z.calmShow := barOnly_same hz rfl rfl rfl
  have noted {l : List Nat} : BarOnly b s { x with scan := { x.scan with slackLow := l } } := barOnly_same h rfl rfl rfl
  exact calm (barOnly_ite (barOnly_spdShow (barOnly_put (.inl (by decide)) noted)) noted)

theorem barOnly_wastePair {ord line : Nat} (h : BarOnly b s x) : BarOnly b s (x.wastePair ord line) := by
  rw [State.wastePair]
  split
  · exact barOnly_wasteCopy h
  · exact h

theorem barOnly_unsentLine {ch cause kind : Nat} {l : ChanLine} (h : BarOnly b s x) :
    BarOnly b s (x.unsentLine ch l cause kind) := by
  rw [State.unsentLine]
  split
  · split
    · exact barOnly_waste h
    · exact h
  · exact barOnly_ite (barOnly_wastePair h) (barOnly_same h rfl rfl rfl)
  · exact barOnly_hbItem h
  · exact h

theorem barOnly_lineDiscard {ch : Nat} {l : ChanLine} (hc : chanBar ch = b) (h : BarOnly b s x) :
    BarOnly b s (x.lineDiscard ch l) :=
  barOnly_unsentLine (barOnly_put (offSeq_lane (by decide) (by decide)) (barOnly_modLines hc h))

theorem barOnly_linePut {ch : Nat} {l : ChanLine} (hc : chanBar ch = b) (h : BarOnly b s x) : BarOnly b s (x.linePut ch l) :=
  have put := barOnly_slackShow (ch := ch) (slack := (l.pred : Int) - l.doneAt)
    (barOnly_modLines (f := fun q => q ++ [l]) hc h)
  barOnly_ite (barOnly_lineDiscard hc put) put

theorem barOnly_stripPrinted {n line : Nat} {r : PageRun} (h : BarOnly b s x) : BarOnly b s (x.stripPrinted n r line) :=
  barOnly_ite (barOnly_put (.inl (by decide)) (barOnly_same h rfl rfl rfl)) h

/-! What takes the line up: digests, taps, freeze detection and proofs (R488, R166, R137, R139). -/

theorem barOnly_digClose {n ord : Nat} (h : BarOnly b s x) : BarOnly b s (x.digClose n ord) :=
  barOnly_ite h (barOnly_modBar (fun _ => rfl) (barOnly_ite (barOnly_same h rfl rfl rfl) h))

theorem barOnly_digLine {r : PageRun} {n line seq : Nat} {pchks : List Nat} (h : BarOnly b s x) :
    BarOnly b s (x.digLine r n line seq pchks) := by
  unfold State.digLine
  extract_lets g s1 s2
  have h1 : BarOnly b s s1 := by
    dsimp only [s1]
    split
    · exact barOnly_ite (barOnly_digClose h) h
    · exact h
  have h2 : BarOnly b s s2 := barOnly_modBar (fun q => by dsimp only; split <;> rfl) h1
  exact barOnly_ite (barOnly_digClose h2) h2

theorem barOnly_digWrite {n : Nat} (h : BarOnly b s x) : BarOnly b s (x.digWrite n) :=
  barOnly_ite h (barOnly_modBar (fun _ => rfl) (barOnly_each h fun _ hy _ _ => barOnly_record hy))

theorem barOnly_digSettle {n : Nat} (h : BarOnly b s x) : BarOnly b s (x.digSettle n) := by
  refine barOnly_digWrite ?_
  split
  · exact h
  · exact barOnly_ite h (barOnly_digClose h)

theorem barOnly_tapDrop {r : PageRun} {n : Nat} (h : BarOnly b s x) : BarOnly b s (x.tapDrop r n) :=
  have counted : BarOnly b s (x.inc SC_TAP_STAT_DROPPED) := barOnly_put (.inl (by decide)) h
  barOnly_ite counted (barOnly_raise (barOnly_same counted rfl rfl rfl))

theorem barOnly_tapBegin {r : PageRun} {n line : Nat} (h : BarOnly b s x) : BarOnly b s (x.tapBegin r n line) :=
  barOnly_ite h (barOnly_ite (barOnly_tapDrop h) (barOnly_same h rfl rfl rfl))

theorem barOnly_tapWrite {t : TapLine} (h : BarOnly b s x) : BarOnly b s (x.tapWrite t) := by
  have kept {a : Nat} {bs : List Byte} : BarOnly b s ((x.wrMem a bs).inc SC_TAP_STAT_WRITTEN) :=
    barOnly_put (.inl (by decide)) (barOnly_wrMem h)
  have counted {a : Nat} {bs : List Byte} : BarOnly b s (if t.missing then ((x.wrMem a bs).inc SC_TAP_STAT_WRITTEN).inc
      SC_TAP_MISS_MISSING else (x.wrMem a bs).inc SC_TAP_STAT_WRITTEN) :=
    barOnly_ite (barOnly_put (.inl (by decide)) kept) kept
  exact barOnly_same counted rfl rfl rfl

theorem barOnly_tapLine {r : PageRun} {n line : Nat} {ovs : Bool} {vols c4 : List Nat} (h : BarOnly b s x) :
    BarOnly b s (x.tapLine r n line ovs vols c4) :=
  barOnly_each (barOnly_same (barOnly_tapBegin (r := r) (n := n) (line := line) h) rfl rfl rfl) fun _ hy _ _ =>
    barOnly_tapWrite hy

theorem barOnly_freezeJudge {r : PageRun} {l : Layer} {sig : Nat} (h : BarOnly b s x) :
    BarOnly b s (x.freezeJudge r l sig) := by
  unfold State.freezeJudge
  extract_lets s1 u s2
  have h1 : BarOnly b s s1 := barOnly_put (offSeq_block (by decide) (by decide))
    (barOnly_put (offSeq_block (by decide) (by decide)) h)
  have h2 : BarOnly b s s2 := barOnly_put (.inl (by decide)) (barOnly_raise h1)
  exact barOnly_ite (barOnly_ite (barOnly_wasteCopy h2) h2) (barOnly_wr (offSeq_block (by decide) (by decide)) h)

theorem barOnly_freezeLine {ord page n p : Nat} (h : BarOnly b s x) : BarOnly b s (x.freezeLine ord page n p) := by
  refine barOnly_each h fun y hy _ _ => ?_
  split
  · exact hy
  · refine barOnly_ite ?_ hy
    dsimp only
    split
    · exact barOnly_freezeJudge (barOnly_modRun hy)
    · exact barOnly_modRun hy

theorem barOnly_encShow {n : Nat} (h : BarOnly b s x) : BarOnly b s (x.encShow n) :=
  barOnly_put (offSeq_row (by decide) (by decide)) (barOnly_put (offSeq_row (by decide) (by decide)) h)

theorem barOnly_streamOpen {q : ProofStream} (h : BarOnly b s x) : BarOnly b s (x.streamOpen q) := by
  have cfg {z : State} {f : Fld} {v : Nat} (hf : f.addr = CS_ENC_CFG q.enc) (hz : BarOnly b s z) : BarOnly b s (z.put f v) :=
    barOnly_put (hf ▸ offSeq_row (by decide) (by decide)) hz
  unfold State.streamOpen
  extract_lets n s1 s2
  have h2 : BarOnly b s s2 := cfg rfl (cfg rfl (cfg rfl (cfg rfl (cfg rfl h))))
  clear_value s2
  exact barOnly_encShow (barOnly_put (offSeq_row (by decide) (by decide)) (barOnly_same h2 rfl rfl rfl))

theorem barOnly_proofLost {ord page : Nat} (h : BarOnly b s x) : BarOnly b s (x.proofLost ord page) := by
  rw [State.proofLost]
  split
  · exact h
  · exact barOnly_ite h (barOnly_raise (barOnly_modRun h))

theorem barOnly_stripOut {q : ProofStream} {last : Bool} {width : Nat} {ss : List Nat} (h : BarOnly b s x) :
    BarOnly b s (x.stripOut q last width ss) :=
  barOnly_ite (barOnly_modStream h) (barOnly_put (offSeq_row (by decide) (by decide)) (barOnly_modStream h))

theorem barOnly_stripClose {q : ProofStream} {last : Bool} (h : BarOnly b s x) : BarOnly b s (x.stripClose q last) :=
  barOnly_ite h (barOnly_ite (barOnly_modStream h) (barOnly_each (barOnly_modStream h) fun _ hy _ _ => barOnly_stripOut hy))

theorem barOnly_streamRow {q : ProofStream} {row : List Nat} (h : BarOnly b s x) : BarOnly b s (x.streamRow q row) := by
  unfold State.streamRow
  extract_lets s1 s2 y s3
  have h1 : BarOnly b s s1 := barOnly_ite (barOnly_stripClose h) h
  have h2 : BarOnly b s s2 := barOnly_ite (barOnly_proofLost (barOnly_modStream h1)) (barOnly_modStream h1)
  have h3 : BarOnly b s s3 := barOnly_ite (barOnly_stripClose h2) (barOnly_ite (barOnly_stripClose h2) h2)
  exact barOnly_encShow h3

theorem barOnly_proofClose {ord page : Nat} (h : BarOnly b s x) : BarOnly b s (x.proofClose ord page) := by
  have count {z : State} {f : Fld} (hf : f.addr = PG_PROOF_STAT) (hz : BarOnly b s z) : BarOnly b s (z.inc f) :=
    barOnly_put (hf ▸ .inl (by decide)) hz
  unfold State.proofClose
  split
  · exact h
  · extract_lets mine _ s1 s2 bs size off s3 _ s4 s5
    have h2 : BarOnly b s s2 := barOnly_each (barOnly_same h rfl rfl rfl) fun _ hy _ _ => barOnly_encShow hy
    have h3 : BarOnly b s s3 := count rfl (barOnly_wrMem h2)
    clear_value s3
    have h5 : BarOnly b s s5 := barOnly_modRun (barOnly_same h3 rfl rfl rfl)
    exact barOnly_ite h (barOnly_ite (count rfl (barOnly_proofLost h2)) (barOnly_ite (count rfl h5) h5))

theorem barOnly_proofLine {r : PageRun} {n p : Nat} (h : BarOnly b s x) : BarOnly b s (x.proofLine r n p) :=
  barOnly_ite h (barOnly_proofClose (barOnly_each (barOnly_ite (barOnly_each h fun _ hy _ _ => barOnly_streamOpen hy) h)
    fun _ hy _ _ => barOnly_ite (barOnly_ite (barOnly_streamRow hy) hy) (barOnly_ite (barOnly_streamRow hy) hy)))

theorem barOnly_rateShow {n : Nat} (h : BarOnly b s x) : BarOnly b s (x.rateShow n) :=
  barOnly_ite h (barOnly_each h fun _ hy _ _ => barOnly_rate hy)

end

end Sys2Proof.Proofs
end

section
open Sys2Proof Sys2Proof.Machine
namespace Sys2Proof.Proofs
/-! A bar's next line begun: the next SEQ of its channels taken, and the line the bar's last (R111, R139, R257). -/

section
variable {b line t : Nat} {s s' x z : State} {r : PageRun}

theorem chanBar_barLanes {ch : Nat} (h : ch ∈ barLanes b) : chanBar ch = b := by
  obtain ⟨m, hm, rfl⟩ := List.mem_map.1 h
  have := List.mem_range.1 hm
  rw [chanBar]
  omega

theorem barLanes_lt {ch : Nat} (hb : b < 8) (h : ch ∈ barLanes b) : ch < 96 := by
  have e := chanBar_barLanes h
  rw [chanBar] at e
  omega

/-- A line composed takes the next SEQ of every channel of its bar and becomes the bar's last; all else that its composition does
leaves the next SEQs, the other bars' lines and the bar's last line alone. -/
theorem composeLine_parts (b : Nat) (s : State) (r : PageRun) (line : Nat) : ∃ x z f, BarOnly b s x ∧
    BarOnly b (x.seqAll b) z ∧ (∀ q : ScreenBar, (f q).lastLine = some (r.ord, line)) ∧
    BarOnly b (z.modBar b f) (s.composeLine b r line) := by
  unfold State.composeLine
  extract_lets rated armed stepped decided st deps read void c4 chans first screened levels lines put printed counted dug vols
    tapped proved x1 ahead last settled
  have h1 : BarOnly b s rated := barOnly_startRates (barOnly_refl b s)
  have h2 : BarOnly b s armed := by
    dsimp only [armed]
    split
    · exact barOnly_ite (barOnly_armApply h1) h1
    · exact h1
  have h4 : BarOnly b s decided := barOnly_ovsDecide (barOnly_regStep (barOnly_ovsReach h2))
  have h5 : BarOnly b s read := barOnly_each h4 fun _ hy _ _ => barOnly_stripNeed hy
  have own (p : Nat × ChanLine) (hp : p ∈ lines) : chanBar p.1 = b := by
    have hp : p ∈ (chans.zip levels).map fun p => (p.1, read.lineOf r b line p.1 p.2 void deps) := by
      dsimp only [lines] at hp
      split at hp
      · exact hp
      · exact absurd hp List.not_mem_nil
    obtain ⟨q, hq, rfl⟩ := List.mem_map.1 hp
    exact chanBar_barLanes (List.mem_filter.1 (List.of_mem_zip hq).1).1
  have h6 : BarOnly b s put := barOnly_each h5 fun _ hy p hp => barOnly_linePut (own p hp) hy
  have g1 : BarOnly b (put.seqAll b) printed := barOnly_stripPrinted (barOnly_refl b _)
  have decim {f : Fld} (hf : f.addr = SC_BAR_DECIM b) : BarOnly b (put.seqAll b) (printed.inc f) :=
    barOnly_put (hf ▸ offSeq_block (by decide) (by decide)) g1
  have g2 : BarOnly b (put.seqAll b) counted := barOnly_ite g1 (barOnly_ite (decim rfl) (barOnly_waste (decim rfl)))
  have g3 : BarOnly b (put.seqAll b) tapped := barOnly_tapLine (barOnly_digLine g2)
  have g4 : BarOnly b (put.seqAll b) proved := barOnly_ite (barOnly_proofLine (barOnly_freezeLine g3)) g3
  have g5 : BarOnly b (put.seqAll b) x1 := barOnly_ite (barOnly_modRun g4) g4
  have k : BarOnly b last settled := barOnly_digSettle (barOnly_refl b last)
  exact ⟨put, x1, _, h6, g5, fun _ => rfl, barOnly_ite k (barOnly_rateShow k)⟩

/-- The next SEQ of channels raised, each once. -/
theorem seqs_raised {l : List Nat} (hn : l.Nodup) (hl : ∀ ch ∈ l, ch < 96) :
    (∀ ch ∈ l, (x.each l fun s ch => s.inc (JL_SEQ_NEXT_SEQ ch)).get (JL_SEQ_NEXT_SEQ ch) =
      (x.get (JL_SEQ_NEXT_SEQ ch) + 1) % 2 ^ 24) ∧
    ∀ ch < 96, ch ∉ l → (x.each l fun s ch => s.inc (JL_SEQ_NEXT_SEQ ch)).rd (JL_SEQ ch) = x.rd (JL_SEQ ch) := by
  have apart {c d : Nat} (hc : c < 96) (hd : d < 96) (h : c ≠ d) : JL_SEQ c ≠ JL_SEQ d := by
    rw [JL_SEQ, JL_SEQ, laneBase, laneBase, if_pos hc, if_pos hd]
    omega
  induction l generalizing x with
  | nil => exact ⟨fun _ h => absurd h List.not_mem_nil, fun _ _ _ => rfl⟩
  | cons c l ih =>
    obtain ⟨hc, hn⟩ := List.nodup_cons.1 hn
    have c96 := hl c List.mem_cons_self
    obtain ⟨taken, kept⟩ := ih (x := x.inc (JL_SEQ_NEXT_SEQ c)) hn fun ch h => hl ch (List.mem_cons_of_mem _ h)
    refine ⟨fun ch h => ?_, fun ch h96 h => ?_⟩
    · rcases List.mem_cons.1 h with rfl | h
      · exact (congrArg (bits · 23 0) (kept ch c96 hc)).trans (get_inc x (JL_SEQ_NEXT_SEQ ch) (Nat.zero_le _) (by norm_num))
      · exact (taken ch h).trans (by
          rw [State.inc, State.add, get_put_ne _ _ _ _ (apart (hl ch (List.mem_cons_of_mem _ h)) c96 fun e => hc (e ▸ h))])
    · obtain ⟨ne, h⟩ := not_or.1 (fun k => h (List.mem_cons.2 k))
      exact (kept ch h96 h).trans (rd_put_ne _ _ _ (apart h96 c96 ne))

theorem seqAll_keeps {α : Type} (g : State → α) (hg : ∀ (s : State) f v, g (s.put f v) = g s) (x : State) :
    g (x.seqAll b) = g x :=
  each_keeps g _ x fun y _ _ => hg y _ _

/-- The next SEQ of each of a bar's channels taken, and of no other's. -/
theorem composeLine_seqs (hb : b < 8) :
    (∀ ch ∈ barLanes b, (s.composeLine b r line).get (JL_SEQ_NEXT_SEQ ch) = (s.get (JL_SEQ_NEXT_SEQ ch) + 1) % 2 ^ 24) ∧
    ∀ ch < 96, chanBar ch ≠ b → (s.composeLine b r line).get (JL_SEQ_NEXT_SEQ ch) = s.get (JL_SEQ_NEXT_SEQ ch) := by
  obtain ⟨x, z, f, before, after, -, done⟩ := composeLine_parts b s r line
  have nodup : (barLanes b).Nodup := List.nodup_range.map fun _ _ h => Nat.add_left_cancel h
  obtain ⟨taken, kept⟩ := seqs_raised (x := x) nodup fun _ h => barLanes_lt hb h
  have pre (ch : Nat) (h : ch < 96) : x.get (JL_SEQ_NEXT_SEQ ch) = s.get (JL_SEQ_NEXT_SEQ ch) :=
    congrArg (bits · 23 0) (before.seqs ch h)
  have post (ch : Nat) (h : ch < 96) : (s.composeLine b r line).get (JL_SEQ_NEXT_SEQ ch) =
      (x.seqAll b).get (JL_SEQ_NEXT_SEQ ch) := congrArg (bits · 23 0) ((done.seqs ch h).trans (after.seqs ch h))
  constructor
  · intro ch h
    have h96 := barLanes_lt hb h
    rw [post ch h96, ← pre ch h96]
    exact taken ch h
  · intro ch h96 h
    rw [post ch h96, ← pre ch h96]
    exact congrArg (bits · 23 0) (kept ch h96 fun m => h (chanBar_barLanes m))

theorem composeLine_lines {ch : Nat} (h : chanBar ch ≠ b) : (s.composeLine b r line).chanLines ch = s.chanLines ch := by
  obtain ⟨x, z, f, before, after, -, done⟩ := composeLine_parts b s r line
  rw [done.lines ch h]
  exact (after.lines ch h).trans ((seqAll_keeps (·.chanLines ch) (fun _ _ _ => rfl) x).trans (before.lines ch h))

theorem composeLine_last (hb : b < s.screen.bars.length) :
    ((s.composeLine b r line).screenBar b).lastLine = some (r.ord, line) := by
  obtain ⟨x, z, f, before, after, last, done⟩ := composeLine_parts b s r line
  have len : b < z.screen.bars.length := by
    rw [after.bars, seqAll_keeps (·.screen.bars.length) (fun _ _ _ => rfl) x, before.bars]
    exact hb
  rw [done.last, screenBar_modBar_same len, last]

/-- A running replay only is brought forward before a line. -/
theorem replayStep_live (h : s.get AG_RP_STAT_MODE ≠ 2) : s.replayStep = s := by
  rw [State.replayStep, if_neg (by simpa using h)]

/-- A bar's next line begins where it may. -/
theorem lineComposeStart_effect (hc : s.core = .running) (hb : b < 8) (hl : b < s.screen.bars.length)
    (hn : s.nextLine b = some (r, line)) (hr : s.get AG_RP_STAT_MODE ≠ 2) (hm : (s.advance t).mayCompose b r line = true) :
    ∃ s', exec (.lineComposeStart t b) s = .next s' ∧ (s'.screenBar b).lastLine = some (r.ord, line) ∧
      (∀ ch ∈ barLanes b, s'.get (JL_SEQ_NEXT_SEQ ch) = (s.get (JL_SEQ_NEXT_SEQ ch) + 1) % 2 ^ 24) ∧
      ∀ ch < 96, chanBar ch ≠ b →
        s'.get (JL_SEQ_NEXT_SEQ ch) = s.get (JL_SEQ_NEXT_SEQ ch) ∧ s'.chanLines ch = s.chanLines ch := by
  have same : ((s.advance t).replayStep.composeNext b) = (s.advance t).composeLine b r line := by
    have next : (s.advance t).nextLine b = some (r, line) := hn
    rw [replayStep_live (s := s.advance t) hr, State.composeNext, next]
    exact if_pos hm
  obtain ⟨s', he, R⟩ : ∃ s', exec (.lineComposeStart t b) s = .next s' ∧ Rest ((s.advance t).composeLine b r line) s' :=
    run_rest (f := fun s => s.replayStep.composeNext b) hc (same ▸ Rest.refl _)
  obtain ⟨seqs, others⟩ := composeLine_seqs (s := s.advance t) (r := r) (line := line) hb
  have settled := barOnly_of_rest (barOnly_refl b _) R
  have read (ch : Nat) (h : ch < 96) := congrArg (bits · 23 0) (settled.seqs ch h)
  exact ⟨s', he, settled.last.trans (composeLine_last hl), fun ch h => (read ch (barLanes_lt hb h)).trans (seqs ch h),
    fun ch h96 h => ⟨(read ch h96).trans (others ch h96 h), (settled.lines ch h).trans (composeLine_lines h)⟩⟩

end

end Sys2Proof.Proofs
end

section
open Sys2Proof Sys2Proof.Machine
namespace Sys2Proof.Proofs
/-! A window's words copied: what a canonical file lists in it, and what it reads as once they are put (R159). -/

section Sparse
variable {β : Type} [DecidableEq β] {d : Nat → β} {m : List (Nat × β)}

theorem swfFrom_ascending {lo : Nat} (h : swfFrom d lo m = true) :
    (m.map (·.1)).Pairwise (· < ·) ∧ ∀ p ∈ m, lo ≤ p.1 := by
  induction m generalizing lo with
  | nil => exact ⟨.nil, fun _ h => absurd h List.not_mem_nil⟩
  | cons p m ih =>
    simp only [swfFrom, Bool.and_eq_true, decide_eq_true_eq] at h
    obtain ⟨⟨hlo, -⟩, hm⟩ := h
    obtain ⟨up, low⟩ := ih hm
    have above (q : Nat × β) (hq : q ∈ m) : p.1 < q.1 := low q hq
    refine ⟨List.pairwise_cons.2 ⟨fun a ha => ?_, up⟩, List.forall_mem_cons.2 ⟨hlo, fun q hq => hlo.trans (above q hq).le⟩⟩
    obtain ⟨q, hq, rfl⟩ := List.mem_map.1 ha
    exact above q hq

omit [DecidableEq β] in
theorem sget_listed {p : Nat × β} (hn : (m.map (·.1)).Nodup) (hp : p ∈ m) : sget d m p.1 = p.2 := by
  induction m with
  | nil => exact absurd hp List.not_mem_nil
  | cons q m ih =>
    obtain ⟨hq, hn⟩ := List.nodup_cons.1 hn
    rcases List.mem_cons.1 hp with rfl | hp
    · exact if_pos rfl
    · exact (if_neg fun e => hq (List.mem_map.2 ⟨p, hp, e⟩)).trans (ih hn hp)

end Sparse

section Window
variable {s x : State} {b base size o a : Nat} {ws : List (Nat × Nat)}

theorem mem_windowWords {p : Nat × Nat} (h : p ∈ x.windowWords base size) :
    p.1 < size ∧ ∃ w : Word, (base + p.1, w) ∈ x.words ∧ w.toNat = p.2 := by
  obtain ⟨q, hq, rfl⟩ := List.mem_map.1 h
  obtain ⟨hm, hr⟩ := List.mem_filter.1 hq
  obtain ⟨lo, hi⟩ := (Bool.and_eq_true _ _ ▸ hr)
  have lo := of_decide_eq_true lo
  have hi := of_decide_eq_true hi
  refine ⟨by dsimp only; omega, q.2, ?_, rfl⟩
  rw [Nat.add_sub_cancel' lo]
  exact hm

theorem windowWords_offsets (h : swf wordReset x.words = true) : ((x.windowWords base size).map (·.1)).Nodup := by
  have up := (swfFrom_ascending h).1
  rw [List.pairwise_map] at up
  rw [State.windowWords, List.map_map, List.Nodup, List.pairwise_map]
  refine (up.filter _).imp_of_mem fun {p q} hp hq lt => ?_
  have lo (z : Nat × Word) (hz : z ∈ x.words.filter fun p => decide (base ≤ p.1) && decide (p.1 < base + size)) :
      base ≤ z.1 := of_decide_eq_true (Bool.and_eq_true _ _ ▸ (List.mem_filter.1 hz).2).1
  have := lo p hp
  have := lo q hq
  show p.1 - base ≠ q.1 - base
  omega

/-- A word a window lists reads as it is listed; one it does not list reads as after reset. -/
theorem rd_listed (h : swf wordReset x.words = true) {p : Nat × Nat} (hp : p ∈ x.windowWords base size) :
    x.rd (base + p.1) = p.2 := by
  obtain ⟨-, w, hw, e⟩ := mem_windowWords hp
  rw [← e]
  exact congrArg BitVec.toNat (sget_listed (p := (base + p.1, w)) ((swfFrom_ascending h).1.imp fun lt => Nat.ne_of_lt lt) hw)

theorem rd_unlisted (ho : o < size) (h : ∀ p ∈ x.windowWords base size, p.1 ≠ o) :
    x.rd (base + o) = (wordReset (base + o)).toNat := by
  refine congrArg BitVec.toNat (sget_append_left (m := []) wordReset fun p hp e => ?_)
  refine h (p.1 - base, p.2.toNat) (List.mem_map.2 ⟨p, List.mem_filter.2 ⟨hp, ?_⟩, rfl⟩) ?_
  · simp only [Bool.and_eq_true, decide_eq_true_eq]
    omega
  · dsimp only
    omega

/-- Words put at their offsets in a window. -/
def placedAt (base : Nat) (ws : List (Nat × Nat)) : List (Nat × Nat) := ws.map fun p => (base + p.1, p.2)

/-- A window's listed words, each with the value 0. -/
def cleared (x : State) (base size : Nat) : List (Nat × Nat) := (x.windowWords base size).map fun p => (p.1, 0)

theorem windowPut_eq (x : State) (base size : Nat) (ws : List (Nat × Nat)) :
    x.windowPut base size ws = written (written x (placedAt base (cleared x base size))) (placedAt base ws) := by
  simp only [State.windowPut, written, placedAt, cleared, State.each, List.foldl_map]

theorem rd_placedAt_ne (h : ∀ p ∈ ws, base + p.1 ≠ a) : (written x (placedAt base ws)).rd a = x.rd a :=
  rd_written_apart fun v hv => by
    obtain ⟨p, hp, rfl⟩ := List.mem_map.1 hv
    exact h p hp

theorem rd_placedAt {p : Nat × Nat} (hn : (ws.map (·.1)).Nodup) (hp : p ∈ ws) :
    (written x (placedAt base ws)).rd (base + p.1) = p.2 % 2 ^ 32 := by
  refine rd_written (v := (base + p.1, p.2)) ?_ (List.mem_map.2 ⟨p, hp, rfl⟩)
  have e : (placedAt base ws).map (·.1) = (ws.map (·.1)).map (base + ·) := by simp [placedAt, Function.comp_def]
  rw [e]
  exact hn.map fun _ _ h => Nat.add_left_cancel h

theorem cleared_offsets : (cleared x base size).map (·.1) = (x.windowWords base size).map (·.1) := by
  simp [cleared, Function.comp_def]

theorem rd_windowPut_outside (hw : ∀ p ∈ ws, p.1 < size) (ha : ¬(base ≤ a ∧ a < base + size)) :
    (x.windowPut base size ws).rd a = x.rd a := by
  have zero (p : Nat × Nat) (hp : p ∈ cleared x base size) : p.1 < size := by
    obtain ⟨q, hq, rfl⟩ := List.mem_map.1 hp
    exact (mem_windowWords hq).1
  rw [windowPut_eq, rd_placedAt_ne fun p hp => ?_, rd_placedAt_ne fun p hp => ?_]
  · have := zero p hp
    omega
  · have := hw p hp
    omega

theorem rd_windowPut_given (hn : (ws.map (·.1)).Nodup) {p : Nat × Nat} (hp : p ∈ ws) :
    (x.windowPut base size ws).rd (base + p.1) = p.2 % 2 ^ 32 := by
  rw [windowPut_eq, rd_placedAt hn hp]

/-- A word of a window that is not among those put reads 0 where reset is 0. -/
theorem rd_windowPut_other (hs : swf wordReset x.words = true) (ho : o < size) (hz : (wordReset (base + o)).toNat = 0)
    (h : ∀ p ∈ ws, p.1 ≠ o) : (x.windowPut base size ws).rd (base + o) = 0 := by
  rw [windowPut_eq, rd_placedAt_ne fun p hp e => h p hp (Nat.add_left_cancel e)]
  by_cases k : o ∈ (cleared x base size).map (·.1)
  · obtain ⟨p, hp, rfl⟩ := List.mem_map.1 k
    rw [rd_placedAt (cleared_offsets ▸ windowWords_offsets hs) hp]
    obtain ⟨q, -, rfl⟩ := List.mem_map.1 hp
    rfl
  · rw [rd_placedAt_ne fun p hp e => k (List.mem_map.2 ⟨p, hp, Nat.add_left_cancel e⟩), rd_unlisted ho fun p hp e => ?_, hz]
    exact k (cleared_offsets ▸ List.mem_map.2 ⟨p, hp, e⟩)

/-! The live bank copied into the shadow bank. -/

/-- The shadow bank's words as the live bank's. -/
def bankCopied (x : State) (b : Nat) : State :=
  x.windowPut (shadowWin b) bankSize (x.windowWords (liveWin b) bankSize)

theorem rd_bankCopied (hb : b < 8) (hs : swf wordReset x.words = true) (ho : o < bankSize) :
    (bankCopied x b).rd (shadowWin b + o) = x.rd (liveWin b + o) := by
  have ho' : o < 0x60000 := ho
  by_cases k : ∃ p ∈ x.windowWords (liveWin b) bankSize, p.1 = o
  · obtain ⟨p, hp, rfl⟩ := k
    obtain ⟨-, w, -, hw⟩ := mem_windowWords hp
    rw [bankCopied, rd_windowPut_given (windowWords_offsets hs) hp, rd_listed hs hp, ← hw, Nat.mod_eq_of_lt w.isLt]
  · have no (p : Nat × Nat) (hp : p ∈ x.windowWords (liveWin b) bankSize) : p.1 ≠ o := fun e => k ⟨p, hp, e⟩
    have live : (wordReset (liveWin b + o)).toNat = 0 := wordReset_bank (by rw [liveWin]; omega)
    have shadow : (wordReset (shadowWin b + o)).toNat = 0 := wordReset_bank (by rw [shadowWin]; omega)
    rw [bankCopied, rd_windowPut_other hs ho shadow no, rd_unlisted ho no, live]

theorem rd_bankCopied_apart (h : ¬(shadowWin b ≤ a ∧ a < shadowWin b + bankSize)) : (bankCopied x b).rd a = x.rd a :=
  rd_windowPut_outside (fun _ hp => (mem_windowWords hp).1) h

theorem screenBar_copyFrom_none :
    ((x.modBar b fun q => { q with copyFrom := none }).screenBar b).copyFrom = none := by
  by_cases l : b < x.screen.bars.length
  · rw [screenBar_modBar_same l]
  · have none_ : x.screen.bars[b]? = none := List.getElem?_eq_none (Nat.le_of_not_lt l)
    simp [State.screenBar, State.modBar, modAt, none_, ScreenBar.reset]

/-- A bank of samples lies beyond every register that shows what follows. -/
theorem bank_not_shown (h : 0x200000 ≤ a) : a ∉ shown := by
  have low : ∀ k ∈ shown, k < 0x200000 := by decide
  exact fun k => absurd (low a k) (Nat.not_lt.2 h)

theorem applyCtrl_place (b : Nat) (hb : b < 8) : SC_BAR_APPLY_CTRL b ∉ shown ∧ SC_BAR_APPLY_CTRL b < 0x200000 := by
  revert b
  decide

/-- BANK_COPY_DONE, while the copy is under way. -/
theorem bankCopyDone_effect {t : Nat} (hc : s.core = .running) (hb : b < 8) (hs : s.canonical = true)
    (hy : s.get (SC_BAR_APPLY_CTRL_COPY_BUSY b) = 1) :
    ∃ s', exec (.bankCopyDone t b) s = .next s' ∧ s'.get (SC_BAR_APPLY_CTRL_COPY_BUSY b) = 0 ∧
      (s'.screenBar b).copyFrom = none ∧
      (∀ k < 0x18000, s'.rd (shadowWin b + 4 * k) = s.rd (liveWin b + 4 * k)) ∧
      ∀ a, a ∉ shown → a ≠ SC_BAR_APPLY_CTRL b → ¬(shadowWin b ≤ a ∧ a < shadowWin b + 0x60000) → s'.rd a = s.rd a := by
  have words : swf wordReset s.words = true := by
    simp only [State.canonical, Bool.and_eq_true] at hs
    exact hs.1.1.1
  have busy : (s.advance t).is (SC_BAR_APPLY_CTRL_COPY_BUSY b) = true := by
    have k : (s.advance t).get (SC_BAR_APPLY_CTRL_COPY_BUSY b) = 1 := hy
    rw [State.is, k]
    rfl
  obtain ⟨y, hy⟩ : ∃ y, y = (bankCopied (s.advance t) b).modBar b fun q => { q with copyFrom := none } := ⟨_, rfl⟩
  obtain ⟨s', he, R⟩ : ∃ s', exec (.bankCopyDone t b) s = .next s' ∧ Rest (y.flag (SC_BAR_APPLY_CTRL_COPY_BUSY b) false) s' :=
    run_rest (f := fun s => if s.is (SC_BAR_APPLY_CTRL_COPY_BUSY b) then _ else s) hc (by
      subst hy
      simp only [busy, if_true]
      exact Rest.refl _)
  have ctrl := applyCtrl_place b hb
  have bar : (y.screenBar b).copyFrom = none := hy ▸ screenBar_copyFrom_none
  have same (a : Nat) (ha : a ∉ shown) (hn : a ≠ SC_BAR_APPLY_CTRL b) : s'.rd a = (bankCopied (s.advance t) b).rd a := by
    rw [R.words a ha, State.flag, rd_put_ne _ _ _ hn, hy]
    rfl
  refine ⟨s', he, ?_, ?_, fun k hk => ?_, fun a ha hn hw => ?_⟩
  · rw [R.get _ ctrl.1, State.flag, get_put_same _ _ _ (by norm_num) (by norm_num)]
    rfl
  · rw [State.screenBar, screen_of_rest R]
    exact bar
  · have far : 0x200000 ≤ shadowWin b + 4 * k := by rw [shadowWin]; omega
    rw [same _ (bank_not_shown far) (fun e => absurd ctrl.2 (by omega)),
      rd_bankCopied (x := s.advance t) hb words (by rw [bankSize]; omega)]
    rfl
  · rw [same a ha hn, rd_bankCopied_apart hw]
    rfl

end Window

end Sys2Proof.Proofs
end

section
open Sys2Proof Sys2Proof.Machine
namespace Sys2Proof.Proofs
/-! A proof stream's strip as its self-verify ends: what its encoder counts (R99, R100). -/

/-- From one state to the other an encoder counted nothing: its strips, its failure and its VFAIL counts are the same, and the
event ring only grew. -/
structure EncKept (n : Nat) (x y : State) : Prop where
  stat : ∀ hi lo, hi < 16 ∨ 22 < lo → y.get ⟨CS_ENC_STAT n, hi, lo⟩ = x.get ⟨CS_ENC_STAT n, hi, lo⟩
  fails : y.rd (CS_ENC_VFAIL n) = x.rd (CS_ENC_VFAIL n)
  grows : Grows x y

theorem encKept_refl (n : Nat) (x : State) : EncKept n x x := ⟨fun _ _ _ => rfl, rfl, Grows.refl x⟩

section Verify
variable {s s' x y z : State} {n t : Nat} {q : ProofStream} {v : VerifyOutcome}

theorem EncKept.trans (h : EncKept n x y) (k : EncKept n y z) : EncKept n x z :=
  ⟨fun hi lo hf => (k.stat hi lo hf).trans (h.stat hi lo hf), k.fails.trans h.fails, h.grows.trans k.grows⟩

theorem encKept_same (h : EncKept n x y) (hw : z.words = y.words) (he : z.events = y.events) : EncKept n x z :=
  h.trans ⟨fun _ _ _ => by rw [State.get, State.rd, hw]; rfl, by rw [State.rd, hw]; rfl, .of_eq he⟩

theorem encKept_modRun {ord page : Nat} {f : PageRun → PageRun} (h : EncKept n x y) : EncKept n x (y.modRun ord page f) :=
  encKept_same h rfl rfl

theorem encKept_wrMem {a : Nat} {bs : List Byte} (h : EncKept n x y) : EncKept n x (y.wrMem a bs) := encKept_same h rfl rfl

theorem encKept_put {f : Fld} {k : Nat} (hs : CS_ENC_STAT n ≠ f.addr) (hf : CS_ENC_VFAIL n ≠ f.addr) (h : EncKept n x y) :
    EncKept n x (y.put f k) :=
  h.trans ⟨fun _ _ _ => get_put_ne _ _ _ _ hs, rd_put_ne _ _ _ hf, grows_put _ _ _⟩

theorem encKept_raise {c a0 a1 a2 : Nat} (hn : n < 4) (h : EncKept n x y) : EncKept n x (y.raise c a0 a1 a2) := by
  have R := rest_raise y c a0 a1 a2
  have away := encWords_hidden n hn
  exact h.trans ⟨fun _ _ _ => R.get _ (away _ (by simp)).1, R.words _ (away _ (by simp)).1, grows_raise ..⟩

theorem encKept_ite {c : Prop} [Decidable c] (hy : EncKept n x y) (hz : EncKept n x z) : EncKept n x (if c then y else z) := by
  split <;> assumption

theorem encKept_each {α : Type} {f : State → α → State} {l : List α} (h : EncKept n x y)
    (hf : ∀ z, EncKept n x z → ∀ a, EncKept n x (f z a)) : EncKept n x (y.each l f) := by
  induction l generalizing y with
  | nil => exact h
  | cons a l ih => exact ih (hf y h a)

theorem encKept_encShow {k : Nat} (h : EncKept n x y) : EncKept n x (y.encShow k) := by
  have apart : CS_ENC_VFAIL n ≠ CS_ENC_STAT k := by
    simp only [CS_ENC_VFAIL, CS_ENC_STAT]
    omega
  exact h.trans ⟨fun _ _ hf => get_encShow hf, rd_encShow apart, (grows_put _ _ _).trans (grows_put _ _ _)⟩

theorem encKept_proofLost {ord page : Nat} (hn : n < 4) (h : EncKept n x y) : EncKept n x (y.proofLost ord page) := by
  rw [State.proofLost]
  split
  · exact h
  · exact encKept_ite h (encKept_raise hn (encKept_modRun h))

theorem proofStat_apart (n : Nat) (hn : n < 4) : CS_ENC_STAT n ≠ PG_PROOF_STAT ∧ CS_ENC_VFAIL n ≠ PG_PROOF_STAT := by
  revert n
  decide

/-- The page's entry, if its streams have all ended, counts in no encoder. -/
theorem encKept_proofClose {ord page : Nat} (hn : n < 4) (h : EncKept n x y) : EncKept n x (y.proofClose ord page) := by
  obtain ⟨stat, fail⟩ := proofStat_apart n hn
  have count {w : State} {f : Fld} (hf : f.addr = PG_PROOF_STAT) (hw : EncKept n x w) : EncKept n x (w.inc f) :=
    encKept_put (hf ▸ stat) (hf ▸ fail) hw
  unfold State.proofClose
  split
  · exact h
  · extract_lets mine _ s1 s2 bs size off s3 _ s4 s5
    have h2 : EncKept n x s2 := encKept_each (encKept_same h rfl rfl) fun _ hy _ => encKept_encShow hy
    clear_value s2
    have h3 : EncKept n x s3 := count rfl (encKept_wrMem h2)
    clear_value s3
    have h5 : EncKept n x s5 := encKept_modRun (encKept_same h3 rfl rfl)
    exact encKept_ite h (encKept_ite (count rfl (encKept_proofLost hn h2)) (encKept_ite (count rfl h5) h5))

/-! What each outcome does before the encoder shows its streams. -/

/-- The strip taken off those to verify. -/
def dequeued (s : State) (q : ProofStream) (rest : List (Bool × Nat × List Nat)) : State :=
  s.modStream q fun y => { y with verify := rest }

/-- A strip released to its entry. -/
def released (s : State) (q : ProofStream) (n : Nat) (bs : List Byte) : State :=
  (s.modStream q fun y => { y with strips := y.strips ++ [bs] }).inc (CS_ENC_STAT_STRIPS n)

theorem released_kept (x : State) (q : ProofStream) (n : Nat) (bs : List Byte) :
    (released x q n bs).get (CS_ENC_STAT_STRIPS n) = (x.get (CS_ENC_STAT_STRIPS n) + 1) % 2 ^ 16 ∧
      (released x q n bs).rd (CS_ENC_VFAIL n) = x.rd (CS_ENC_VFAIL n) ∧ Grows x (released x q n bs) :=
  ⟨get_inc _ (CS_ENC_STAT_STRIPS n) (Nat.zero_le _) (by norm_num), rd_put_ne _ _ _ (encStat_ne_vfail n).symm, grows_put _ _ _⟩

/-- A stream whose strip differed twice. -/
def abandoned (s : State) (q : ProofStream) (n : Nat) : State := (s.modStream q fun y => { y with failed := true }).encFails n 0

theorem abandoned_kept (x : State) (q : ProofStream) (hn : n < 4) :
    (abandoned x q n).get (CS_ENC_STAT_FAILED n) = 1 ∧
      (abandoned x q n).get (CS_ENC_STAT_STRIPS n) = x.get (CS_ENC_STAT_STRIPS n) ∧
      (abandoned x q n).get (CS_ENC_VFAIL_ENCODE_FAIL n) = min (x.get (CS_ENC_VFAIL_ENCODE_FAIL n) + 1) 0xFFFF ∧
      (abandoned x q n).get (CS_ENC_VFAIL_VERIFY_FAIL n) = x.get (CS_ENC_VFAIL_VERIFY_FAIL n) ∧ Grows x (abandoned x q n) := by
  obtain ⟨y, hy⟩ : ∃ y, y = x.modStream q fun y => { y with failed := true } := ⟨_, rfl⟩
  have R := encFails_rest (x := y) (n := n) (dest := 0)
  have grows := grows_encFails (x := y) (n := n) (dest := 0)
  have apart := encStat_ne_vfail n
  have away := encWords_hidden n hn
  have stat : CS_ENC_STAT n ∉ shown := (away _ (by simp)).1
  have fail : CS_ENC_VFAIL n ∉ shown := (away _ (by simp)).1
  have words : y.words = x.words := by rw [hy]; rfl
  have read (f : Fld) : y.get f = x.get f := by rw [State.get, State.rd, words]; rfl
  rw [abandoned, ← hy]
  refine ⟨?_, ?_, ?_, ?_, (Grows.of_eq (by rw [hy]; rfl)).trans grows⟩
  · rw [R.get _ stat, State.addSat, get_put_ne _ _ _ _ apart, State.flag, get_put_same _ _ _ (by norm_num) (by norm_num)]
    rfl
  · rw [R.get _ stat, State.addSat, get_put_ne _ _ _ _ apart, State.flag,
      get_put_apart _ _ _ _ (by norm_num) (by norm_num) (by norm_num), read]
  · rw [R.get _ fail, get_addSat _ _ _ (by norm_num) (by norm_num), State.flag, get_put_ne _ _ _ _ apart.symm, read]
    rfl
  · rw [R.get _ fail, State.addSat, get_put_apart _ _ _ _ (by norm_num) (by norm_num) (by norm_num), State.flag,
      get_put_ne _ _ _ _ apart.symm, read]

/-- The encoder's streams shown and their entry closed where it can be. -/
def verifyShown (x : State) (q : ProofStream) (n : Nat) : State := (x.encShow n).proofClose q.ord q.page

theorem verifyShown_kept (hn : n < 4) : EncKept n x (verifyShown x q n) :=
  encKept_proofClose hn (encKept_encShow (encKept_refl n x))

section Differed
variable {rest : List (Bool × Nat × List Nat)}

/-- What a strip that differed has counted in its encoder. -/
theorem differed_counts (hn : n < 4) : (∀ f : Fld, f.addr = CS_ENC_STAT n →
      ((dequeued s q rest).encDiffers n 0).get f = s.get f) ∧
    ((dequeued s q rest).encDiffers n 0).get (CS_ENC_VFAIL_VERIFY_FAIL n) = min (s.get (CS_ENC_VFAIL_VERIFY_FAIL n) + 1) 0xFFFF ∧
    ((dequeued s q rest).encDiffers n 0).get (CS_ENC_VFAIL_ENCODE_FAIL n) = s.get (CS_ENC_VFAIL_ENCODE_FAIL n) := by
  have R := encDiffers_rest (x := dequeued s q rest) (n := n) (dest := 0)
  have away := encWords_hidden n hn
  refine ⟨fun f ha => ?_, get_encDiffers_fail hn, ?_⟩
  · exact congrArg (bits · f.hi f.lo) (rd_encDiffers (ha ▸ (away _ (by simp)).1) (ha ▸ encStat_ne_vfail n))
  · rw [R.get _ (away _ (by simp)).1, State.addSat, get_put_apart _ _ _ _ (by norm_num) (by norm_num) (by norm_num)]
    rfl

theorem differed_reports (hn : n < 4) : Reports s ((dequeued s q rest).encDiffers n 0) 0x3202 n 0 0 :=
  encDiffers_reports hn ⟨rfl, rfl, rfl⟩

end Differed

section Ends
variable {last : Bool} {width : Nat} {ss : List Nat} {rest : List (Bool × Nat × List Nat)}
  (hf : s.screen.streams.find? (fun x => x.enc == n && !x.verify.isEmpty) = some q) (hv : q.verify = (last, width, ss) :: rest)
include hf

include hv in
theorem verifyEnd_equal : ∃ bs, s.verifyEnd n .equal = verifyShown (released (dequeued s q rest) q n bs) q n := by
  simp only [State.verifyEnd, hf, hv]
  exact ⟨_, rfl⟩

include hv in
theorem verifyEnd_rawEqual :
    ∃ bs, s.verifyEnd n .rawEqual = verifyShown (released ((dequeued s q rest).encDiffers n 0) q n bs) q n := by
  simp only [State.verifyEnd, hf, hv]
  exact ⟨_, rfl⟩

include hv in
theorem verifyEnd_rawDiffers : s.verifyEnd n .rawDiffers =
    verifyShown ((abandoned ((dequeued s q rest).encDiffers n 0) q n).proofLost q.ord q.page) q n := by
  simp only [State.verifyEnd, hf, hv]
  rfl

/-- An encoder with a proof stream's strip to verify takes it before an image's. -/
theorem exec_encoderVerify_stream (hc : s.core = .running) (hs : s.c3Shed = false) :
    exec (.encoderVerify t n v) s = .next (((s.advance t).verifyEnd n v).whenRunning settle) := by
  have waits : ¬(n = 0 ∧ (!((s.advance t).screen.streams.any fun x => x.enc == 0 && !x.verify.isEmpty)) = true) := by
    rintro ⟨rfl, h⟩
    have any_ : (s.screen.streams.any fun x => x.enc == 0 && !x.verify.isEmpty) = true :=
      List.any_eq_true.2 ⟨q, List.mem_of_find?_eq_some hf, List.find?_some (p := fun x : ProofStream => x.enc == 0 && !x.verify.isEmpty) hf⟩
    rw [advance_screen, any_] at h
    exact Bool.noConfusion h
  have shed : (s.advance t).c3Shed = false := hs
  refine (run_on hc).trans ?_
  rw [shed, if_neg Bool.false_ne_true, if_neg waits]

include hv

theorem encoderVerify_equal (hc : s.core = .running) (hs : s.c3Shed = false) (hn : n < 4) :
    ∃ s', exec (.encoderVerify t n .equal) s = .next s' ∧
      s'.get (CS_ENC_STAT_STRIPS n) = (s.get (CS_ENC_STAT_STRIPS n) + 1) % 2 ^ 16 ∧
      s'.get (CS_ENC_VFAIL_VERIFY_FAIL n) = s.get (CS_ENC_VFAIL_VERIFY_FAIL n) := by
  obtain ⟨bs, eq⟩ := verifyEnd_equal (s := s.advance t) (n := n) hf hv
  refine ⟨_, exec_encoderVerify_stream hf hc hs, ?_⟩
  have R := rest_whenRunning ((s.advance t).verifyEnd n .equal)
  have away := encWords_hidden n hn
  obtain ⟨strips, fails, -⟩ := released_kept (dequeued (s.advance t) q rest) q n bs
  rw [R.get _ (away _ (by simp)).1, R.get _ (away _ (by simp)).1, eq]
  have K := verifyShown_kept (x := released (dequeued (s.advance t) q rest) q n bs) (q := q) hn
  exact ⟨(K.stat 15 0 (.inl (by norm_num))).trans strips, congrArg (bits · 15 0) (K.fails.trans fails)⟩

theorem encoderVerify_rawEqual (hc : s.core = .running) (hs : s.c3Shed = false) (hn : n < 4) :
    ∃ s', exec (.encoderVerify t n .rawEqual) s = .next s' ∧ Reports (s.advance t) s' 0x3202 n 0 0 ∧
      s'.get (CS_ENC_STAT_STRIPS n) = (s.get (CS_ENC_STAT_STRIPS n) + 1) % 2 ^ 16 ∧
      s'.get (CS_ENC_VFAIL_VERIFY_FAIL n) = min (s.get (CS_ENC_VFAIL_VERIFY_FAIL n) + 1) 0xFFFF := by
  obtain ⟨bs, eq⟩ := verifyEnd_rawEqual (s := s.advance t) (n := n) hf hv
  refine ⟨_, exec_encoderVerify_stream hf hc hs, ?_⟩
  have R := rest_whenRunning ((s.advance t).verifyEnd n .rawEqual)
  have grows := grows_whenRunning ((s.advance t).verifyEnd n .rawEqual)
  have away := encWords_hidden n hn
  obtain ⟨stat, fail, -⟩ := differed_counts (s := s.advance t) (q := q) (rest := rest) hn
  have told := differed_reports (s := s.advance t) (q := q) (rest := rest) hn
  obtain ⟨strips, fails, more⟩ := released_kept ((dequeued (s.advance t) q rest).encDiffers n 0) q n bs
  have K := verifyShown_kept (x := released ((dequeued (s.advance t) q rest).encDiffers n 0) q n bs) (q := q) hn
  rw [R.get _ (away _ (by simp)).1, R.get _ (away _ (by simp)).1]
  rw [eq] at grows ⊢
  refine ⟨((told.grows more).grows K.grows).grows grows, ?_, ?_⟩
  · exact (K.stat 15 0 (.inl (by norm_num))).trans (strips.trans (by rw [stat _ rfl, get_advance]))
  · exact (congrArg (bits · 15 0) (K.fails.trans fails)).trans fail

theorem encoderVerify_rawDiffers (hc : s.core = .running) (hs : s.c3Shed = false) (hn : n < 4) :
    ∃ s', exec (.encoderVerify t n .rawDiffers) s = .next s' ∧ Reports (s.advance t) s' 0x3202 n 0 0 ∧
      s'.get (CS_ENC_STAT_FAILED n) = 1 ∧
      s'.get (CS_ENC_VFAIL_VERIFY_FAIL n) = min (s.get (CS_ENC_VFAIL_VERIFY_FAIL n) + 1) 0xFFFF ∧
      s'.get (CS_ENC_VFAIL_ENCODE_FAIL n) = min (s.get (CS_ENC_VFAIL_ENCODE_FAIL n) + 1) 0xFFFF ∧
      s'.get (CS_ENC_STAT_STRIPS n) = s.get (CS_ENC_STAT_STRIPS n) := by
  have eq := verifyEnd_rawDiffers (s := s.advance t) (n := n) hf hv
  refine ⟨_, exec_encoderVerify_stream hf hc hs, ?_⟩
  have R := rest_whenRunning ((s.advance t).verifyEnd n .rawDiffers)
  have grows := grows_whenRunning ((s.advance t).verifyEnd n .rawDiffers)
  have away := encWords_hidden n hn
  obtain ⟨stat, fail, encode⟩ := differed_counts (s := s.advance t) (q := q) (rest := rest) hn
  have told := differed_reports (s := s.advance t) (q := q) (rest := rest) hn
  obtain ⟨failed, strips, encodes, fails, more⟩ := abandoned_kept ((dequeued (s.advance t) q rest).encDiffers n 0) q hn
  have K := (encKept_proofLost (ord := q.ord) (page := q.page) hn (encKept_refl n
    (abandoned ((dequeued (s.advance t) q rest).encDiffers n 0) q n))).trans (verifyShown_kept (q := q) hn)
  rw [R.get _ (away _ (by simp)).1, R.get _ (away _ (by simp)).1, R.get _ (away _ (by simp)).1, R.get _ (away _ (by simp)).1]
  rw [eq] at grows ⊢
  refine ⟨((told.grows more).grows K.grows).grows grows, ?_, ?_, ?_, ?_⟩
  · exact (K.stat 23 23 (.inr (by norm_num))).trans failed
  · exact (congrArg (bits · 15 0) K.fails).trans (fails.trans fail)
  · exact (congrArg (bits · 31 16) K.fails).trans (encodes.trans (by rw [encode, get_advance]))
  · exact (K.stat 15 0 (.inl (by norm_num))).trans (strips.trans (by rw [stat _ rfl, get_advance]))

end Ends

end Verify

end Sys2Proof.Proofs
end

section
open Sys2Proof Sys2Proof.Machine
namespace Sys2Proof.Proofs
/-! A released generation freed (R135), and O26. -/

section Freed
variable {s : State} {f : Surface} {id gen t : Nat}

theorem xfersDrop_none {p : Xfer → Bool} (h : ∀ x, p x = false) : s.xfersDrop p = s := by
  have none_ : s.ingest.xfers.filter p = [] := List.filter_eq_nil_iff.2 fun x _ => by simp [h x]
  rw [State.xfersDrop, none_]
  rfl

/-- A generation with no window open leaves its entry and nothing else of words and what was sent. -/
theorem surfFree_facts (hf : s.ingest.surfs.find? (·.entry == f.entry) = some f) (hw : s.surfWindows f.id f.gen = []) :
    (s.surfFree f.entry).ingest.surfs = s.ingest.surfs.filter (·.entry != f.entry) ∧
      (s.surfFree f.entry).words = s.words ∧ (s.surfFree f.entry).out = s.out := by
  have gone : s.ingest.windows.filter (fun w => w.kind == .stripWrite && w.surf == f.id && w.gen == f.gen) = [] := hw
  simp only [State.surfFree, hf, State.windowsClose, gone, List.any_nil, xfersDrop_none fun _ => rfl, and_self]

/-- A record without a generation frees its entry. -/
theorem surfApply_free (h : s.rd (surfWin f.entry + 4 * 6) = 0) : s.surfApply f.entry = s.surfFree f.entry := by
  simp only [State.surfApply, h]
  rfl

/-- The state in which a generation's record is cleared and applied. -/
def genFreed (s : State) (f : Surface) : State := (s.objPut (surfWin f.entry) (f.body ++ [0])).surfApply f.entry

theorem genFreed_facts (hb : f.body.length = 6) (hw : s.surfWindows f.id f.gen = [])
    (hf : s.ingest.surfs.find? (·.entry == f.entry) = some f) :
    (genFreed s f).ingest.surfs = s.ingest.surfs.filter (·.entry != f.entry) ∧
      (genFreed s f).rd (surfWin f.entry + 24) = 0 ∧ (genFreed s f).out = s.out := by
  have state : (s.objPut (surfWin f.entry) (f.body ++ [0])).rd (surfWin f.entry + 4 * 6) = 0 := by
    rw [rd_objPut_inside _ _ _ 6 (by simp [hb]), List.getElem_append_right (by omega)]
    simp [hb]
  have ingest := objPut_ingest s (surfWin f.entry) (f.body ++ [0])
  have out := objPut_keeps State.out (fun _ _ _ => rfl) (fun _ _ => rfl) s (surfWin f.entry) (f.body ++ [0])
  rw [genFreed, surfApply_free state]
  generalize s.objPut (surfWin f.entry) (f.body ++ [0]) = x at *
  obtain ⟨surfs, words, sent⟩ := surfFree_facts (s := x) (f := f) (by rw [ingest]; exact hf)
    (by rw [State.surfWindows, ingest]; exact hw)
  refine ⟨surfs.trans (by rw [ingest]), ?_, sent.trans out⟩
  rw [State.rd, words]
  exact state

/-- The entry of a generation names it where no other generation has that entry. -/
theorem find_entry (hf : s.surf id gen = some f) (hu : ∀ g ∈ s.ingest.surfs, g.entry = f.entry → g = f) :
    s.ingest.surfs.find? (·.entry == f.entry) = some f := by
  cases e : s.ingest.surfs.find? (·.entry == f.entry) with
  | none => exact absurd (List.find?_eq_none.1 e f (List.mem_of_find?_eq_some hf)) (by simp)
  | some g =>
    have same : g.entry = f.entry := by simpa using List.find?_some e
    rw [hu g (List.mem_of_find?_eq_some e) same]

/-- GENERATION_FREED, at the tick end that frees it. -/
theorem generationFreed_effect (hc : s.core = .running) (hf : s.surf id gen = some f) (ha : s.authoritative = true)
    (ht : (s.advance t).tick ≠ s.tb.seen) (hm : s.mayFree f = true) (hb : f.body.length = 6) (hw : s.surfWindows id gen = [])
    (hu : ∀ g ∈ s.ingest.surfs, g.entry = f.entry → g = f) :
    ∃ s', exec (.generationFreed t id gen) s = .next s' ∧
      s'.ingest.surfs = s.ingest.surfs.filter (fun g => g.entry != f.entry) ∧ s'.rd (surfWin f.entry + 24) = 0 ∧
      s'.out = s.out := by
  obtain ⟨rfl, rfl⟩ : f.id = id ∧ f.gen = gen := by simpa using List.find?_some hf
  have may : ((s.advance t).authoritative && (s.advance t).tick != (s.advance t).tb.seen && (s.advance t).mayFree f) = true := by
    have ha : (s.advance t).authoritative = true := ha
    have hm : (s.advance t).mayFree f = true := hm
    have ht : ((s.advance t).tick != (s.advance t).tb.seen) = true := bne_iff_ne.2 ht
    rw [ha, ht, hm]
    rfl
  have found : (s.advance t).surf f.id f.gen = some f := hf
  obtain ⟨s', he, R⟩ : ∃ s', exec (.generationFreed t f.id f.gen) s = .next s' ∧ Rest (genFreed (s.advance t) f) s' :=
    run_rest (f := fun s => match s.surf f.id f.gen with
      | some f => if s.authoritative && s.tick != s.tb.seen && s.mayFree f then genFreed s f else s
      | none => s) hc (by
      simp only [found, may, if_true]
      exact Rest.refl _)
  obtain ⟨surfs, state, out⟩ := genFreed_facts (s := s.advance t) hb hw (find_entry hf hu)
  have far : 0x200000 ≤ surfWin f.entry + 24 := by rw [surfWin]; omega
  exact ⟨s', he, (congrArg (·.surfs) (rest_ingest R)).trans surfs, (R.words _ (bank_not_shown far)).trans state, R.out.trans out⟩

end Freed

/-- Settles O26: a line's composition is cut at the two places where it takes the next SEQs and the bar's last line, all else
leaving both and the other bars' lines alone; a canonical file's window lists what it does not read as after reset; an encoder's
counts are followed through each outcome; a record whose STATE is 0 frees its entry. -/
theorem linesAndBanks : Obligations.LinesAndBanks := by
  unfold Obligations.LinesAndBanks
  intro t s hc
  refine ⟨fun b r line hb hl _ hn hr hm => lineComposeStart_effect hc hb hl hn hr hm,
    fun b hb hs hy => bankCopyDone_effect hc hb hs hy,
    fun n q last width ss rest hn hs hf hv => ⟨encoderVerify_equal hf hv hc hs hn, encoderVerify_rawEqual hf hv hc hs hn,
      encoderVerify_rawDiffers hf hv hc hs hn⟩,
    fun id gen f hf ha ht hm _ hb hw hu => generationFreed_effect hc hf ha ht hm hb hw hu⟩

end Sys2Proof.Proofs
end

section
open Sys2Proof Sys2Proof.Machine
namespace Sys2Proof.Proofs
/-! A commit asked for by a WRITE of GL_CMT_CTRL: the state the commit finds, and what the command answers (R428, R523). -/

section Asked
variable {s x y : State} {w : Nat}

/-- `x` is `s` in all that a GAP or TICK commit looks at. -/
structure LooksAs (s x : State) : Prop where
  words : ∀ a, x.rd a = s.rd a
  shadow : x.shadow = s.shadow
  scan : x.scan = s.scan
  ingest : x.ingest = s.ingest
  now : x.now = s.now

theorem looksAs_copy {k : Nat} {ws : List Nat} (h : LooksAs s x) : LooksAs s (x.copy k ws) where
  words a := (rd_copy x k ws a).trans (h.words a)
  shadow := (copy_keeps State.shadow (fun _ _ => rfl) x k ws).trans h.shadow
  scan := (copy_keeps State.scan (fun _ _ => rfl) x k ws).trans h.scan
  ingest := (copy_keeps State.ingest (fun _ _ => rfl) x k ws).trans h.ingest
  now := (copy_keeps State.now (fun _ _ => rfl) x k ws).trans h.now

/-- The item that asks for the commits of `w`: bit 0 GAP, bit 1 TICK. -/
def cmtItem (w : Nat) : WriteItem := ⟨GL_CMT_CTRL, w, w⟩

theorem mixBits_none (old new : Nat) : mixBits old new 0 = old := by simp [mixBits]

theorem cmtCtrl_block : GL_CMT_CTRL < 0x120000 ∧ GL_CMT_CTRL / 0x10000 = 0 := by decide

theorem cmtCtrl_spec : regSpecAt GL_CMT_CTRL = some ⟨GL_CMT_CTRL, 1, 0, 1, 0, .none, 0, 0, 0, 3, 0, 0, 0⟩ := by decide

theorem lockKeys_cmtItem (w : Nat) : lockKeys (cmtItem w) = [] := by
  have spec : (if (cmtItem w).addr < 0x120000 then regSpecAt (cmtItem w).addr else none) = _ :=
    (if_pos cmtCtrl_block.1).trans cmtCtrl_spec
  rw [lockKeys, spec]
  rfl

/-- GL_CMT_CTRL's bits are write-only: its word stays. -/
theorem itemPut_cmtItem (s : State) (w : Nat) : s.itemPut (cmtItem w) = s.wr GL_CMT_CTRL (s.rd GL_CMT_CTRL) := by
  simp only [State.itemPut, lockKeys_cmtItem, List.nil_append]
  simp only [cmtItem, cmtCtrl_block, cmtCtrl_spec, if_true, Nat.or_self, Nat.and_zero, mixBits_none]

theorem looksAs_itemPut (s : State) (w : Nat) : LooksAs s (s.itemPut (cmtItem w)) := by
  rw [itemPut_cmtItem]
  refine ⟨fun a => ?_, rfl, rfl, rfl, wr_now _ _ _ (by decide)⟩
  rcases eq_or_ne a GL_CMT_CTRL with rfl | ne
  · rw [rd_wr_same, Nat.mod_eq_of_lt (rd_lt s _)]
  · exact rd_wr_ne s _ ne

theorem itemLimit_cmtItem (s : State) (w : Nat) : s.itemLimit (cmtItem w) = none := by
  simp only [State.itemLimit, cmtItem, State.limitReg, cmtCtrl_block, if_true]

theorem itemAct_cmtItem (s b : State) (w : Nat) : s.itemAct b (cmtItem w) = actGl GL_CMT_CTRL w w b s := by
  simp only [State.itemAct, cmtItem, Nat.not_le.2 cmtCtrl_block.1, cmtCtrl_block.2, if_true, if_false]

/-- The commit runs at a state that looks as before, and its outcome is the command's. -/
theorem itemApply_cmtItem (s : State) (w : Nat) : ∃ x, LooksAs s x ∧
    s.itemApply true (cmtItem w) = ((actGl GL_CMT_CTRL w w s x).1, 0, (actGl GL_CMT_CTRL w w s x).2) := by
  simp only [State.itemApply, itemLimit_cmtItem, itemAct_cmtItem, lockKeys_cmtItem, List.any_nil, Bool.false_eq_true, if_false]
  refine ⟨_, ?_, rfl⟩
  split
  · exact looksAs_copy (looksAs_itemPut s w)
  · exact looksAs_itemPut s w

theorem jointCheck_cmtItem (s : State) (w : Nat) : s.jointCheck [cmtItem w] = none := rfl

theorem itemsOf_cmt (w : Nat) : itemsOf [GL_CMT_CTRL, w, w] = [cmtItem w] := by simp [itemsOf, cmtItem]

/-- What a WRITE of GL_CMT_CTRL answers: the commit's state, or what its refusal leaves of the state before. -/
theorem commitGo_cmt (s : State) (w : Nat) : ∃ x, LooksAs s x ∧
    ∀ st y, actGl GL_CMT_CTRL w w s x = (st, y) → s.commitGo 0x02 [GL_CMT_CTRL, w, w] =
      if st = stOk then (.ok, y) else (.of st 0, s.cmtRefused (s.itemPut (cmtItem w)) (bit (w &&& w) 0) st) := by
  obtain ⟨x, looks, applied⟩ := itemApply_cmtItem s w
  refine ⟨x, looks, fun st y he => ?_⟩
  rw [he] at applied
  show s.writeGo true (itemsOf [GL_CMT_CTRL, w, w]) = _
  rw [itemsOf_cmt]
  have run : s.itemsRun s true [cmtItem w].zipIdx =
      if st = stOk then (.ok, y) else (.of st 0, s.cmtRefused (s.itemPut (cmtItem w)) (bit (w &&& w) 0) st) := by
    simp only [List.zipIdx_cons, List.zipIdx_nil, State.itemsRun, applied]
    rfl
  rw [State.writeGo, run]
  split
  · rw [jointCheck_cmtItem]
    rfl
  · next refused =>
    rw [if_pos (by simpa [Ans.of] using refused)]

theorem actGl_gap (b x : State) : actGl GL_CMT_CTRL 1 1 b x = x.gapCommit := by
  simp only [actGl, if_true, show bit (1 &&& 1) 0 = true from rfl, show bit (1 &&& 1) 1 = false from rfl, Bool.false_eq_true,
    if_false, ite_self]

theorem actGl_tick (b x : State) : actGl GL_CMT_CTRL 2 2 b x = x.tickCommit := rfl

end Asked

/-! What the checks of a commit look at (R120). -/

section Looks
variable {s x : State}

theorem LooksAs.get (h : LooksAs s x) (f : Fld) : x.get f = s.get f := congrArg (bits · f.hi f.lo) (h.words f.addr)

theorem LooksAs.is (h : LooksAs s x) (f : Fld) : x.is f = s.is f := congrArg (· != 0) (h.get f)

theorem LooksAs.tick (h : LooksAs s x) : x.tick = s.tick := congrArg (· / 250000) h.now

theorem LooksAs.rdSh (h : LooksAs s x) (a : Nat) : x.rdSh a = s.rdSh a := by rw [State.rdSh, State.rdSh, h.shadow]

theorem LooksAs.getSh (h : LooksAs s x) (f : Fld) : x.getSh f = s.getSh f := congrArg (bits · f.hi f.lo) (h.rdSh f.addr)

theorem LooksAs.shadowGap (h : LooksAs s x) : x.shadowGap = s.shadowGap := by simp only [State.shadowGap, h.rdSh]

theorem LooksAs.jobAt (h : LooksAs s x) (slot : Nat) : x.jobAt slot = s.jobAt slot := by rw [State.jobAt, State.jobAt, h.scan]

theorem LooksAs.idAt (h : LooksAs s x) (slot : Nat) : x.idAt slot = s.idAt slot := congrArg (·.map (·.id)) (h.jobAt slot)

theorem LooksAs.nextPageNum (h : LooksAs s x) (j : Job) : x.nextPageNum j = s.nextPageNum j := by
  simp only [State.nextPageNum, State.lastRun, h.scan]

theorem LooksAs.jobGoesOn (h : LooksAs s x) (j : Job) : x.jobGoesOn j = s.jobGoesOn j := by
  simp only [State.jobGoesOn, h.nextPageNum]

theorem LooksAs.applyAt (h : LooksAs s x) : x.applyAt = s.applyAt := by
  simp only [State.applyAt, h.is, h.get, h.scan, h.jobGoesOn, h.nextPageNum]

theorem LooksAs.refSurf (h : LooksAs s x) (ref : Nat) : x.refSurf ref = s.refSurf ref := by
  simp only [State.refSurf, State.surf, h.ingest]

theorem LooksAs.prevGen (h : LooksAs s x) (j : Job) (page n : Nat) : x.prevGen j page n = s.prevGen j page n := by
  simp only [State.prevGen, State.prevJob, State.runOf, h.scan, h.jobGoesOn]

theorem LooksAs.admTry (h : LooksAs s x) (g : GapSet) (j : Job) (p : Page) : x.admTry g j p = s.admTry g j p := by
  simp only [State.admTry, State.admReason, State.demand, State.charged, h.get, h.refSurf, h.prevGen]

theorem LooksAs.gapGeometry (h : LooksAs s x) (g : GapSet) (j : Job) (p : Page) : x.gapGeometry g j p = s.gapGeometry g j p := by
  simp only [State.gapGeometry, State.refFits, h.get, h.refSurf]

theorem LooksAs.commitPages (h : LooksAs s x) (at_ : Option (Nat × Nat)) : x.commitPages at_ = s.commitPages at_ := by
  simp only [State.commitPages, State.reaches, h.scan, h.jobAt, h.idAt]

theorem LooksAs.commitJobs (h : LooksAs s x) (at_ : Option (Nat × Nat)) : x.commitJobs at_ = s.commitJobs at_ := by
  simp only [State.commitJobs, h.scan, h.jobAt]

theorem LooksAs.targetLate (h : LooksAs s x) (at_ : Option (Nat × Nat)) : x.targetLate at_ = s.targetLate at_ := by
  simp only [State.targetLate, h.is, h.jobAt, h.nextPageNum]

theorem LooksAs.gapReject (h : LooksAs s x) : x.gapReject x.shadowGap x.applyAt = s.gapReject s.shadowGap s.applyAt := by
  simp only [State.gapReject, h.shadowGap, h.applyAt, h.commitJobs, h.commitPages, h.gapGeometry, h.admTry, h.targetLate]

theorem LooksAs.camPortOk (h : LooksAs s x) (p : Nat) : x.camPortOk p = s.camPortOk p := by
  simp only [State.camPortOk, State.camCtxOk, h.getSh]

theorem LooksAs.camBudgetOk (h : LooksAs s x) (p : Nat) : x.camBudgetOk p = s.camBudgetOk p := by
  simp only [State.camBudgetOk, h.getSh]

theorem LooksAs.camOtherOk (h : LooksAs s x) : x.camOtherOk = s.camOtherOk := by simp only [State.camOtherOk, h.getSh]

theorem LooksAs.camReject (h : LooksAs s x) : x.camReject = s.camReject := by
  simp only [State.camReject, h.camPortOk, h.camBudgetOk, h.camOtherOk]

end Looks
end Sys2Proof.Proofs
end

section
open Sys2Proof Sys2Proof.Machine
namespace Sys2Proof.Proofs
/-! What a commit changes beside the words of a list: neither the shadows nor the scan. -/

section Kept
variable {l : List Nat} {s x y : State}

/-- `x` is `s` but for a list's words and what the unit reports, in the words, the shadows and the scan. -/
structure SetKept (l : List Nat) (s x : State) : Prop where
  words : WordsKept s x l
  shadow : x.shadow = s.shadow
  scan : x.scan = s.scan

theorem setKept_refl (l : List Nat) (s : State) : SetKept l s s := ⟨fun _ _ _ => rfl, rfl, rfl⟩

theorem SetKept.trans (h : SetKept l s x) (k : SetKept l x y) : SetKept l s y :=
  ⟨fun a hs hl => (k.words a hs hl).trans (h.words a hs hl), k.shadow.trans h.shadow, k.scan.trans h.scan⟩

/-- Any other fields may differ where the words, shadows and scan are the same. -/
theorem setKept_same (h : SetKept l s x) (hw : y.words = x.words) (hs : y.shadow = x.shadow) (hc : y.scan = x.scan) :
    SetKept l s y :=
  h.trans ⟨fun a _ _ => by rw [State.rd, hw, State.rd], hs, hc⟩

theorem setKept_wr {a v : Nat} (ha : a ∈ l) (h : SetKept l s x) : SetKept l s (x.wr a v) :=
  h.trans ⟨fun _ _ hl => rd_wr_ne x v (ne_of_mem_of_not_mem ha hl).symm, rfl, rfl⟩

theorem setKept_put {f : Fld} {v : Nat} (hf : f.addr ∈ l) (h : SetKept l s x) : SetKept l s (x.put f v) := setKept_wr hf h

theorem setKept_of_rest (R : Rest x y) (h : SetKept l s x) : SetKept l s y :=
  have shadow := congrArg State.shadow R.bare
  have scan := congrArg State.scan R.bare
  h.trans ⟨fun a ha _ => R.words a ha, shadow, scan⟩

theorem setKept_copy {k : Nat} {ws : List Nat} (h : SetKept l s x) : SetKept l s (x.copy k ws) :=
  setKept_of_rest (rest_copy x k ws) h

theorem setKept_ite {c : Prop} [Decidable c] (hx : SetKept l s x) (hy : SetKept l s y) : SetKept l s (if c then x else y) := by
  split <;> assumption

theorem setKept_each {α : Type} {f : State → α → State} {as : List α} (h : SetKept l s x)
    (hf : ∀ y, SetKept l s y → ∀ a ∈ as, SetKept l s (f y a)) : SetKept l s (x.each as f) := by
  induction as generalizing x with
  | nil => exact h
  | cons a as ih => exact ih (hf x h a List.mem_cons_self) fun y hy b hb => hf y hy b (List.mem_cons_of_mem _ hb)

theorem setKept_rejectLatch {cause layer page : Nat} (hp : PG_CMT_STAT ∈ l) (h : SetKept l s x) :
    SetKept l s (x.rejectLatch cause layer page) :=
  setKept_of_rest (rest_raise _ _ _ _ _) (setKept_put hp (setKept_put hp h))

end Kept

/-! The outcomes of a GAP commit (R116, R120, R523). -/

section Gap
variable {s x : State} {cause layer slot page : Nat}

/-- No accepted GAP commit waits for its page or was made at this tick end. -/
structure GapFree (s : State) : Prop where
  unset : s.scan.pendingGap = none
  idle : s.get PG_CMT_STAT_GAP_PENDING = 0
  first : s.scan.gapTick ≠ some s.tick

theorem LooksAs.gapFree (h : LooksAs s x) (f : GapFree s) : GapFree x :=
  ⟨h.scan ▸ f.unset, (h.get _).trans f.idle, by rw [h.scan, h.tick]; exact f.first⟩

theorem gapCommit_waits (h : x.scan.pendingGap ≠ none) : x.gapCommit = (stBusy, x.put GL_CMT_STAT_GAP_LAST stBusy) := by
  have waits : x.scan.pendingGap.isSome = true := Option.isSome_iff_ne_none.2 h
  rw [State.gapCommit, waits]
  rfl

/-- What an accepted commit does before its set is taken: PG_CMT_APPLY copied, and the target's EN cleared. -/
def gapNamed (x : State) : State := (x.wrCopy PG_CMT_APPLY (applyWord x.applyAt)).flag PG_CMT_TARGET_EN false

/-- A commit noted as this tick end's. -/
def gapNoted (x : State) : State :=
  { x.put GL_CMT_STAT_GAP_LAST stOk with scan := { x.scan with gapTick := some (x.put GL_CMT_STAT_GAP_LAST stOk).tick } }

/-- An accepted commit. -/
def gapTaken (x : State) : State := gapNoted ((gapNamed x).gapTake x.shadowGap x.applyAt)

theorem GapFree.taken (f : GapFree x) :
    (x.scan.pendingGap.isSome || x.is PG_CMT_STAT_GAP_PENDING || x.scan.gapTick == some x.tick) = false := by
  simp [f.unset, State.is, f.idle, f.first]

theorem gapCommit_rejected (f : GapFree x) (hr : x.gapReject x.shadowGap x.applyAt = some (cause, layer)) :
    x.gapCommit.1 = stRejected := by
  simp only [State.gapCommit, f.taken, Bool.false_eq_true, if_false, hr]

theorem gapCommit_accepted (f : GapFree x) (hr : x.gapReject x.shadowGap x.applyAt = none) :
    x.gapCommit = (stOk, gapTaken x) := by
  simp only [State.gapCommit, f.taken, Bool.false_eq_true, if_false, hr]
  rfl

/-- A refused GAP commit leaves what its outcome shows of the state before the command. -/
theorem commitGo_gap_refused {st : Nat} (hst : st ≠ stOk) (h : ∀ x, LooksAs s x → x.gapCommit.1 = st) :
    ∃ pre, LooksAs s pre ∧ s.commitGo 0x02 [GL_CMT_CTRL, 1, 1] = (.of st 0, s.gapRefused pre st) := by
  obtain ⟨x, looks, go⟩ := commitGo_cmt s 1
  have pre := looksAs_itemPut s 1
  have refused : (s.itemPut (cmtItem 1)).gapCommit.1 ≠ stOk := by rwa [h _ pre]
  refine ⟨_, pre, ?_⟩
  rw [go st x.gapCommit.2 (by rw [actGl_gap, ← h x looks]), if_neg hst, State.cmtRefused,
    if_pos (by simp only [show bit (1 &&& 1) 0 = true from rfl, bne_iff_ne.2 refused, Bool.and_self])]

theorem commitGo_gap_accepted (h : ∀ x, LooksAs s x → x.gapCommit = (stOk, gapTaken x)) :
    ∃ x, LooksAs s x ∧ s.commitGo 0x02 [GL_CMT_CTRL, 1, 1] = (.ok, gapTaken x) := by
  obtain ⟨x, looks, go⟩ := commitGo_cmt s 1
  exact ⟨x, looks, by rw [go _ _ ((actGl_gap s x).trans (h x looks)), if_pos rfl]⟩

/-- A GAP commit while one waits. -/
theorem gap_busy (h : s.scan.pendingGap ≠ none) :
    ∃ s', s.commitGo 0x02 [GL_CMT_CTRL, 1, 1] = (.of stBusy 0, s') ∧ s'.get GL_CMT_STAT_GAP_LAST = stBusy ∧
      s'.scan = s.scan ∧ WordsKept s s' [GL_CMT_STAT] := by
  obtain ⟨pre, -, go⟩ := commitGo_gap_refused (s := s) (st := stBusy) (by decide)
    fun x looks => by rw [gapCommit_waits (looks.scan ▸ h)]
  have left : s.gapRefused pre stBusy = s.put GL_CMT_STAT_GAP_LAST stBusy := rfl
  rw [left] at go
  exact ⟨_, go, get_put_same _ _ _ (by decide) (by decide), rfl, (setKept_put (by decide) (setKept_refl _ s)).words⟩

/-- The latches a rejection leaves (R120). -/
def rejected (s : State) (cause layer page : Nat) : State :=
  (((s.put GL_CMT_STAT_GAP_LAST stRejected).rejectLatch cause layer page).flag PG_EVT_STAT_COMMIT_REJ true).flag PG_CMT_TARGET_EN
    false

theorem gapRefused_rejected (hr : x.gapReject x.shadowGap x.applyAt = some (cause, layer)) :
    ∃ at_, s.gapRefused x stRejected = rejected s cause layer at_ := by
  rw [State.gapRefused, if_pos rfl]
  simp only [hr]
  exact ⟨_, rfl⟩

theorem rejectLatch_get (f : Fld) (hs : f.addr ∉ shown) : (s.rejectLatch cause layer page).get f =
    ((s.put PG_CMT_STAT_REJ_CAUSE cause).put PG_CMT_STAT_REJ_LAYER layer).get f := (rest_raise _ _ _ _ _).get f hs

theorem rejected_cause : (rejected s cause layer page).get PG_CMT_STAT_REJ_CAUSE = cause % 16 := by
  rw [rejected, State.flag, State.flag, get_put_ne _ _ _ _ (by decide), get_put_ne _ _ _ _ (by decide),
    rejectLatch_get _ (by decide), get_put_apart _ _ _ _ (by decide) (by decide) (by decide)]
  exact get_put_same _ _ _ (by decide) (by decide)

theorem rejected_layer : (rejected s cause layer page).get PG_CMT_STAT_REJ_LAYER = layer % 8 := by
  rw [rejected, State.flag, State.flag, get_put_ne _ _ _ _ (by decide), get_put_ne _ _ _ _ (by decide),
    rejectLatch_get _ (by decide)]
  exact get_put_same _ _ _ (by decide) (by decide)

theorem rejected_last : (rejected s cause layer page).get GL_CMT_STAT_GAP_LAST = stRejected := by
  rw [rejected, State.flag, State.flag, get_put_ne _ _ _ _ (by decide), get_put_ne _ _ _ _ (by decide),
    rejectLatch_get _ (by decide), get_put_ne _ _ _ _ (by decide), get_put_ne _ _ _ _ (by decide)]
  exact get_put_same _ _ _ (by decide) (by decide)

theorem rejected_event : (rejected s cause layer page).get PG_EVT_STAT_COMMIT_REJ = 1 := by
  rw [rejected, State.flag, get_put_ne _ _ _ _ (by decide)]
  exact get_put_same _ _ _ (by decide) (by decide)

theorem rejected_target : (rejected s cause layer page).get PG_CMT_TARGET_EN = 0 := get_put_same _ _ _ (by decide) (by decide)

theorem rejected_kept : SetKept [GL_CMT_STAT, PG_CMT_STAT, PG_EVT_STAT, PG_CMT_TARGET] s (rejected s cause layer page) :=
  setKept_put (by decide) (setKept_put (by decide) (setKept_rejectLatch (by decide) (setKept_put (by decide) (setKept_refl _ s))))

/-- A GAP commit that fails a check. -/
theorem gap_rejected (f : GapFree s) (hr : s.gapReject s.shadowGap s.applyAt = some (cause, layer)) :
    ∃ s', s.commitGo 0x02 [GL_CMT_CTRL, 1, 1] = (.of stRejected 0, s') ∧ s'.get GL_CMT_STAT_GAP_LAST = stRejected ∧
      s'.get PG_CMT_STAT_REJ_CAUSE = cause % 16 ∧ s'.get PG_CMT_STAT_REJ_LAYER = layer % 8 ∧ s'.get PG_EVT_STAT_COMMIT_REJ = 1 ∧
      s'.get PG_CMT_TARGET_EN = 0 ∧ s'.scan = s.scan ∧
      WordsKept s s' [GL_CMT_STAT, PG_CMT_STAT, PG_EVT_STAT, PG_CMT_TARGET] := by
  obtain ⟨pre, looks, go⟩ := commitGo_gap_refused (s := s) (st := stRejected) (by decide)
    fun x looks => gapCommit_rejected (looks.gapFree f) (looks.gapReject.trans hr)
  obtain ⟨at_, left⟩ := gapRefused_rejected (s := s) (looks.gapReject.trans hr)
  exact ⟨_, left ▸ go, rejected_last, rejected_cause, rejected_layer, rejected_event, rejected_target, rejected_kept.scan,
    rejected_kept.words⟩

/-! An accepted GAP commit, for its apply-at page or at once (R116, R118). -/

theorem gapNamed_kept (x : State) : SetKept [GL_CMT_STAT, PG_CMT_STAT, PG_CMT_APPLY, PG_CMT_TARGET] x (gapNamed x) :=
  setKept_put (by decide) (setKept_copy (setKept_wr (by decide) (setKept_refl _ x)))

theorem gapNamed_target (x : State) : (gapNamed x).get PG_CMT_TARGET_EN = 0 := get_put_same _ _ _ (by decide) (by decide)

theorem gapNamed_now (x : State) : (gapNamed x).now = x.now :=
  (wr_now _ _ _ (by decide)).trans (now_wrCopy x _ (by decide))

theorem gapNoted_last (x : State) : (gapNoted x).get GL_CMT_STAT_GAP_LAST = stOk := get_put_same x _ _ (by decide) (by decide)

theorem gapNoted_get (x : State) (f : Fld) (hf : f.addr ≠ GL_CMT_STAT ∨ 7 < f.lo) : (gapNoted x).get f = x.get f := by
  rcases hf with hf | hf
  · exact get_put_ne x _ _ _ hf
  · exact get_put_apart x _ _ _ (by decide) (by decide) (.inl hf)

/-- A set that waits for its apply-at page, taken after a commit was named. -/
def gapHeld (x : State) (slot page : Nat) : State :=
  { gapNamed x with scan := { x.scan with pendingGap := some ⟨x.shadowGap, slot, x.idAt slot, page⟩ } }

theorem gapTaken_held (h : x.applyAt = some (slot, page)) : gapTaken x = gapNoted ((gapHeld x slot page).gapFlag true) := by
  have named := gapNamed_kept x
  have job : (gapNamed x).idAt slot = x.idAt slot := by rw [State.idAt, State.jobAt, named.scan, State.idAt, State.jobAt]
  rw [gapTaken, h, State.gapTake, gapHeld]
  simp only [job, named.scan]

theorem gapFlag_kept (y : State) : SetKept [GL_CMT_STAT, PG_CMT_STAT, PG_CMT_APPLY, PG_CMT_TARGET] y (y.gapFlag true) :=
  setKept_put (by decide) (setKept_put (by decide) (setKept_refl _ y))

theorem gapNoted_words {l : List Nat} {y : State} (hl : GL_CMT_STAT ∈ l) (h : SetKept l y x) : WordsKept y (gapNoted x) l :=
  (setKept_put hl h).words

theorem held_pending (y : State) : (gapNoted (y.gapFlag true)).get PG_CMT_STAT_GAP_PENDING = 1 := by
  rw [gapNoted_get _ _ (.inl (by decide)), State.gapFlag, State.flag, State.flag, get_put_ne _ _ _ _ (by decide)]
  exact get_put_same _ _ _ (by decide) (by decide)

theorem held_shown (y : State) : (gapNoted (y.gapFlag true)).get GL_CMT_STAT_GAP_PENDING = 1 := by
  rw [gapNoted_get _ _ (.inr (by decide))]
  exact get_put_same _ _ _ (by decide) (by decide)

theorem held_target (x : State) (slot page : Nat) :
    (gapNoted ((gapHeld x slot page).gapFlag true)).get PG_CMT_TARGET_EN = 0 := by
  rw [gapNoted_get _ _ (.inl (by decide)), State.gapFlag, State.flag, State.flag, get_put_ne _ _ _ _ (by decide),
    get_put_ne _ _ _ _ (by decide)]
  exact gapNamed_target x

theorem held_tick (x : State) (slot page : Nat) :
    (((gapHeld x slot page).gapFlag true).put GL_CMT_STAT_GAP_LAST stOk).tick = x.tick := by
  have now : (((gapHeld x slot page).gapFlag true).put GL_CMT_STAT_GAP_LAST stOk).now = (gapHeld x slot page).now :=
    (wr_now _ _ _ (by decide)).trans ((wr_now _ _ _ (by decide)).trans (wr_now _ _ _ (by decide)))
  exact congrArg (· / 250000) (now.trans (gapNamed_now x))

/-- A GAP commit with an apply-at page waits for it. -/
theorem gap_waits (f : GapFree s) (ha : s.applyAt = some (slot, page)) (hr : s.gapReject s.shadowGap s.applyAt = none) :
    ∃ s', s.commitGo 0x02 [GL_CMT_CTRL, 1, 1] = (.ok, s') ∧ s'.get GL_CMT_STAT_GAP_LAST = stOk ∧
      s'.scan = { s.scan with pendingGap := some ⟨s.shadowGap, slot, s.idAt slot, page⟩, gapTick := some s.tick } ∧
      s'.get PG_CMT_STAT_GAP_PENDING = 1 ∧ s'.get GL_CMT_STAT_GAP_PENDING = 1 ∧ s'.get PG_CMT_TARGET_EN = 0 ∧
      WordsKept s s' [GL_CMT_STAT, PG_CMT_STAT, PG_CMT_APPLY, PG_CMT_TARGET] := by
  obtain ⟨x, looks, go⟩ := commitGo_gap_accepted (s := s)
    fun x looks => gapCommit_accepted (looks.gapFree f) (looks.gapReject.trans hr)
  rw [gapTaken_held (looks.applyAt.trans ha)] at go
  have scan : (gapNoted ((gapHeld x slot page).gapFlag true)).scan =
      { x.scan with pendingGap := some ⟨x.shadowGap, slot, x.idAt slot, page⟩
                    gapTick := some (((gapHeld x slot page).gapFlag true).put GL_CMT_STAT_GAP_LAST stOk).tick } := rfl
  have words := gapNoted_words (by decide) (gapFlag_kept (gapHeld x slot page))
  rw [held_tick, looks.scan, looks.shadowGap, looks.idAt, looks.tick] at scan
  exact ⟨_, go, gapNoted_last _, scan, held_pending _, held_shown _, held_target x slot page,
    fun a hs hl => (words a hs hl).trans (((gapNamed_kept x).words a hs hl).trans (looks.words a))⟩

/-! A GAP set that is live at once. -/

theorem gapAddrs_apart : ∀ a ∈ gapAddrs, a ≠ GL_CMT_STAT ∧ ∀ n < 8, a ≠ LY_SIG n := by decide +kernel

theorem rdSh_lt (s : State) (a : Nat) : s.rdSh a < 2 ^ 32 := BitVec.isLt _

/-- Each register a list names has its shadow's value once all are written, named once or more. -/
theorem rd_written_shadow {l : List Nat} {a : Nat} (ha : a ∈ l) : (written x (l.map fun a => (a, s.rdSh a))).rd a = s.rdSh a := by
  induction l generalizing x with
  | nil => exact absurd ha List.not_mem_nil
  | cons b l ih =>
    show (written (x.wr b (s.rdSh b)) _).rd a = _
    by_cases later : a ∈ l
    · exact ih later
    · obtain rfl := (List.mem_cons.1 ha).resolve_right later
      rw [rd_written_apart, rd_wr_same, Nat.mod_eq_of_lt (rdSh_lt s a)]
      intro v hv
      obtain ⟨c, hc, rfl⟩ := List.mem_map.1 hv
      exact ne_of_mem_of_not_mem hc later

theorem rd_gapLive {a : Nat} (ha : a ∈ gapAddrs) : (x.gapLive s.shadowGap).rd a = s.rdSh a := by
  rw [State.gapLive, each_keeps (fun y => y.rd a) _ _ fun y n hn => ?_]
  · exact rd_written_shadow ha
  · exact rd_wr_ne y 0 ((gapAddrs_apart a ha).2 n (List.mem_range.1 (List.mem_filter.1 hn).1))

theorem gapLive_shadow (x : State) (g : GapSet) : (x.gapLive g).shadow = x.shadow := by
  rw [State.gapLive, each_keeps State.shadow _ _ fun y n _ => (rfl : (y.wr (LY_SIG n) 0).shadow = y.shadow),
    each_keeps State.shadow g _ fun y w _ => (rfl : (y.wr w.1 w.2).shadow = y.shadow)]
  split <;> rfl

theorem gapTaken_live (h : x.applyAt = none) : gapTaken x = gapNoted ((gapNamed x).gapLive x.shadowGap) := by
  rw [gapTaken, h, State.gapTake]

theorem rd_gapNoted {a : Nat} (ha : a ≠ GL_CMT_STAT) : (gapNoted x).rd a = x.rd a := rd_put_ne x _ _ ha

theorem gapNoted_shadow (x : State) : (gapNoted x).shadow = x.shadow := rfl

/-- A GAP commit with no apply-at page is live at once. -/
theorem gap_live (f : GapFree s) (ha : s.applyAt = none) (hr : s.gapReject s.shadowGap s.applyAt = none) :
    ∃ s', s.commitGo 0x02 [GL_CMT_CTRL, 1, 1] = (.ok, s') ∧ (∀ a ∈ gapAddrs, s'.rd a = s.rdSh a) ∧ s'.shadow = s.shadow := by
  obtain ⟨x, looks, go⟩ := commitGo_gap_accepted (s := s)
    fun x looks => gapCommit_accepted (looks.gapFree f) (looks.gapReject.trans hr)
  rw [gapTaken_live (looks.applyAt.trans ha), looks.shadowGap] at go
  refine ⟨_, go, fun a ha => ?_, ?_⟩
  · rw [rd_gapNoted (gapAddrs_apart a ha).1, rd_gapLive ha]
  · rw [gapNoted_shadow, gapLive_shadow, (gapNamed_kept x).shadow, looks.shadow]

end Gap

/-! A TICK commit (R118, R119, R313). -/

section Tick
variable {s x y : State}

/-- The words a TICK commit writes beside those of its domain. -/
def tickShown : List Nat := [GL_CMT_STAT, PG_EVT_STAT, WP_ENCO_STAT 0, WP_ENCO_STAT 1]

theorem tickAddrs_apart : ∀ a ∈ tickAddrs, a ∉ shown ∧ a ∉ tickShown := by decide +kernel

theorem setKept_encoShow {n : Nat} (hn : n < 2) (h : SetKept tickShown s x) : SetKept tickShown s (x.encoShow n) := by
  have stat : WP_ENCO_STAT n ∈ tickShown := by revert n; decide
  have lag := setKept_put (f := WP_ENCO_STAT_LAG n) (v := min (x.encoLag n) 65535) stat h
  exact setKept_ite (setKept_of_rest (rest_raise _ _ _ _ _) (setKept_put stat (setKept_same lag rfl rfl rfl))) lag

theorem setKept_encoOrigin {b : State} (h : SetKept tickShown s x) : SetKept tickShown s (x.encoOrigin b) :=
  setKept_each h fun y hy n hn => by
    have hn := List.mem_range.1 hn
    exact setKept_ite (setKept_copy (setKept_encoShow hn (setKept_same hy rfl rfl rfl))) (setKept_encoShow hn hy)

theorem setKept_holdOld {l lines : List Nat} {sel : ScreenBar → List Timed} {upd : ScreenBar → List Timed → ScreenBar}
    {old : Nat → Nat} (h : SetKept l s x) : SetKept l s (x.holdOld lines sel upd old) :=
  setKept_each h fun _ hy _ _ => setKept_same hy rfl rfl rfl

theorem setKept_regClampSee {l : List Nat} {b : Nat} (h : SetKept l s x) : SetKept l s (x.regClampSee b) :=
  setKept_ite h (setKept_of_rest (rest_raise _ _ _ _ _) h)

/-- The TICK-domain shadows written to their registers. -/
def ticked (x : State) : State := written x (tickAddrs.map fun a => (a, x.rdSh a))

theorem each_shadow_eq_written (l : List Nat) (x y : State) (h : y.shadow = x.shadow) :
    (y.each l fun s a => s.wr a (s.rdSh a)) = written y (l.map fun a => (a, x.rdSh a)) := by
  induction l generalizing y with
  | nil => rfl
  | cons a l ih =>
    have same : y.rdSh a = x.rdSh a := by rw [State.rdSh, State.rdSh, h]
    show (y.wr a (y.rdSh a)).each l _ = written (y.wr a (x.rdSh a)) _
    rw [same]
    exact ih _ h

/-- Writing each shadow as the registers stand makes exactly that state. -/
theorem setKept_ticked : SetKept tickShown (ticked x) (x.each tickAddrs fun s a => s.wr a (s.rdSh a)) := by
  rw [each_shadow_eq_written tickAddrs x x rfl]
  exact setKept_refl _ _

/-- Once the shadows are live, a TICK commit writes no word of its domain, no shadow and nothing of the scan. -/
theorem tickTake_kept (x : State) : SetKept tickShown (ticked x) x.tickTake := by
  delta State.tickTake
  extract_lets before live pred host lines held both copied clamped cams opened anew _ whites
  have held_ : SetKept tickShown (ticked x) held := setKept_ite (setKept_holdOld setKept_ticked) setKept_ticked
  have both_ : SetKept tickShown (ticked x) both := setKept_ite (setKept_holdOld held_) held_
  have copied_ : SetKept tickShown (ticked x) copied := setKept_ite (setKept_ite both_ (setKept_copy both_)) both_
  have clamped_ : SetKept tickShown (ticked x) clamped := setKept_each copied_ fun _ hy _ _ => setKept_regClampSee hy
  have opened_ : SetKept tickShown (ticked x) opened := setKept_each clamped_ fun _ hy _ _ => setKept_same hy rfl rfl rfl
  have whites_ : SetKept tickShown (ticked x) whites := setKept_ite (setKept_same opened_ rfl rfl rfl) opened_
  exact setKept_put (by decide) (setKept_put (by decide) (setKept_encoOrigin whites_))

theorem tickTake_last (x : State) : x.tickTake.get GL_CMT_STAT_TICK_LAST = stOk := get_put_same _ _ _ (by decide) (by decide)

theorem ticked_keeps {β : Type} (g : State → β) (hw : ∀ (s : State) a v, g (s.wr a v) = g s) (x : State) : g (ticked x) = g x :=
  each_keeps g _ x fun s v _ => hw s v.1 v.2

/-- A TICK commit whose camera set passes makes every TICK-domain register live. -/
theorem tick_live (h : s.camReject = none) :
    ∃ s', s.commitGo 0x02 [GL_CMT_CTRL, 2, 2] = (.ok, s') ∧ s'.get GL_CMT_STAT_TICK_LAST = stOk ∧
      (∀ a ∈ tickAddrs, s'.rd a = s.rdSh a) ∧ s'.shadow = s.shadow ∧ s'.scan = s.scan := by
  obtain ⟨x, looks, go⟩ := commitGo_cmt s 2
  have taken : x.tickCommit = (stOk, x.tickTake) := by rw [State.tickCommit, looks.camReject, h]; rfl
  have kept := tickTake_kept x
  refine ⟨_, (go _ _ ((actGl_tick s x).trans taken)).trans (if_pos rfl), tickTake_last x, fun a ha => ?_, ?_, ?_⟩
  · obtain ⟨reported, written⟩ := tickAddrs_apart a ha
    rw [kept.words a reported written, ticked, rd_written_shadow ha, looks.rdSh]
  · rw [kept.shadow, ticked_keeps State.shadow fun _ _ _ => rfl, looks.shadow]
  · rw [kept.scan, ticked_keeps State.scan fun _ _ _ => rfl, looks.scan]

/-- The port and cause of a refused camera set fit the two bits each has in CM_CFG_STAT. -/
theorem camReject_lt {port cause : Nat} (h : s.camReject = some (port, cause)) : port < 4 ∧ cause < 4 := by
  rw [State.camReject] at h
  split at h
  · next p found =>
    obtain ⟨rfl, rfl⟩ := Prod.mk.inj (Option.some.inj h)
    exact ⟨List.mem_range.1 (List.mem_of_find?_eq_some found), by split <;> decide⟩
  · split at h
    · exact absurd h (by simp)
    · obtain ⟨rfl, rfl⟩ := Prod.mk.inj (Option.some.inj h)
      decide

/-- The latches a refused camera set leaves, before its event (R313). -/
def camLatched (s : State) (port cause : Nat) : State :=
  ((s.put GL_CMT_STAT_TICK_LAST stRejected).put CM_CFG_STAT_PORT port).put CM_CFG_STAT_CAUSE cause

theorem camLatched_kept (s : State) (port cause : Nat) : SetKept [GL_CMT_STAT, CM_CFG_STAT] s (camLatched s port cause) :=
  setKept_put (by decide) (setKept_put (by decide) (setKept_put (by decide) (setKept_refl _ s)))

theorem camLatched_untold (s : State) (port cause : Nat) : Untold s (camLatched s port cause) :=
  untold_put (by decide) (untold_put (by decide) (untold_put (by decide) (untold_refl s)))

theorem camLatched_last (s : State) (port cause : Nat) : (camLatched s port cause).get GL_CMT_STAT_TICK_LAST = stRejected := by
  rw [camLatched, get_put_ne _ _ _ _ (by decide), get_put_ne _ _ _ _ (by decide)]
  exact get_put_same _ _ _ (by decide) (by decide)

theorem camLatched_port (s : State) (port cause : Nat) : (camLatched s port cause).get CM_CFG_STAT_PORT = port % 4 := by
  rw [camLatched, get_put_apart _ _ _ _ (by decide) (by decide) (by decide)]
  exact get_put_same _ _ _ (by decide) (by decide)

theorem camLatched_cause (s : State) (port cause : Nat) : (camLatched s port cause).get CM_CFG_STAT_CAUSE = cause % 4 :=
  get_put_same _ _ _ (by decide) (by decide)

/-- A TICK commit whose camera set fails a check is refused as a whole. -/
theorem tick_rejected {port cause : Nat} (h : s.camReject = some (port, cause)) :
    ∃ s', s.commitGo 0x02 [GL_CMT_CTRL, 2, 2] = (.of stRejected 0, s') ∧ s'.get GL_CMT_STAT_TICK_LAST = stRejected ∧
      s'.get CM_CFG_STAT_PORT = port ∧ s'.get CM_CFG_STAT_CAUSE = cause ∧ s'.shadow = s.shadow ∧
      Reports s s' 0x5105 port 0 0 ∧ WordsKept s s' [GL_CMT_STAT, CM_CFG_STAT] := by
  obtain ⟨x, looks, go⟩ := commitGo_cmt s 2
  have refused : x.tickCommit = (stRejected, x) := by rw [State.tickCommit, looks.camReject, h]; rfl
  have left : s.cmtRefused (s.itemPut (cmtItem 2)) (bit (2 &&& 2) 0) stRejected =
      (camLatched s port cause).raise 0x5105 port 0 0 := by
    rw [State.cmtRefused, show bit (2 &&& 2) 0 = false from rfl]
    simp only [Bool.false_and, Bool.false_eq_true, if_false, (looksAs_itemPut s 2).camReject, h]
    rfl
  have told := rest_raise (camLatched s port cause) 0x5105 port 0 0
  have kept := setKept_of_rest told (camLatched_kept s port cause)
  obtain ⟨portLt, causeLt⟩ := camReject_lt h
  refine ⟨_, (go _ _ ((actGl_tick s x).trans refused)).trans ((if_neg (by decide)).trans (by rw [left])), ?_, ?_, ?_, kept.shadow,
    (camLatched_untold s port cause).reports _ _ _ _, kept.words⟩
  · rw [told.get _ (by decide), camLatched_last]
  · rw [told.get _ (by decide), camLatched_port, Nat.mod_eq_of_lt portLt]
  · rw [told.get _ (by decide), camLatched_cause, Nat.mod_eq_of_lt causeLt]

end Tick

/-- Settles O41: what a commit looks at is as it was before the command's own write-only bits were put, so its checks come out the
same; each outcome then changes the words it names, and an accepted set's registers take their shadows. -/
theorem domainCommits : Obligations.DomainCommits := by
  unfold Obligations.DomainCommits
  intro s
  exact ⟨gap_busy, fun _ _ unset idle first hr => gap_rejected ⟨unset, idle, first⟩ hr,
    fun _ _ unset idle first ha hr => gap_waits ⟨unset, idle, first⟩ ha hr,
    fun unset idle first ha hr => gap_live ⟨unset, idle, first⟩ ha hr, tick_live, fun _ _ h => tick_rejected h⟩

end Sys2Proof.Proofs
end

section
open Sys2Proof Sys2Proof.Machine
namespace Sys2Proof.Proofs
/-! What operations outside the web leave of it: its registers, encoders and probes, position and speed. -/

/-- From one state to the other no register of the web but those of a list changed, nor did the encoders, the probes, position
or speed, and the event ring only grew. -/
structure WebKept (ws : List Nat) (s x : State) : Prop where
  words : ∀ a, 0x040000 ≤ a → a < 0x050000 → a ∉ ws → x.rd a = s.rd a
  encs : x.web.encs = s.web.encs
  probes : x.web.probes = s.web.probes
  p : x.web.p = s.web.p
  q : x.web.q = s.web.q
  speed : x.web.speed = s.web.speed
  grows : Grows s x

theorem webKept_refl (ws : List Nat) (s : State) : WebKept ws s s := ⟨fun _ _ _ _ => rfl, rfl, rfl, rfl, rfl, rfl, Grows.refl s⟩

/-- No register of the web is among those that show what follows from any effect. -/
theorem web_not_shown {a : Nat} (hl : 0x040000 ≤ a) (hh : a < 0x050000) : a ∉ shown := by
  have outside : ∀ b ∈ shown, b < 0x040000 ∨ 0x050000 ≤ b := by decide
  intro h
  have := outside a h
  omega

section
variable {ws : List Nat} {s x y : State}

theorem WebKept.trans (h : WebKept ws s x) (k : WebKept ws x y) : WebKept ws s y where
  words a hl hh ha := (k.words a hl hh ha).trans (h.words a hl hh ha)
  encs := k.encs.trans h.encs
  probes := k.probes.trans h.probes
  p := k.p.trans h.p
  q := k.q.trans h.q
  speed := k.speed.trans h.speed
  grows := h.grows.trans k.grows

theorem WebKept.get (h : WebKept ws s x) {f : Fld} (hl : 0x040000 ≤ f.addr) (hh : f.addr < 0x050000) (hf : f.addr ∉ ws) :
    x.get f = s.get f := congrArg (bits · f.hi f.lo) (h.words _ hl hh hf)

/-- The same words and events, and a web that differs in none of these fields. -/
theorem webKept_same (h : WebKept ws s x) (hw : y.words = x.words) (he : y.events = x.events)
    (encs : y.web.encs = x.web.encs := by rfl) (probes : y.web.probes = x.web.probes := by rfl)
    (p : y.web.p = x.web.p := by rfl) (q : y.web.q = x.web.q := by rfl) (speed : y.web.speed = x.web.speed := by rfl) :
    WebKept ws s y :=
  h.trans ⟨fun a _ _ _ => by rw [State.rd, State.rd, hw], encs, probes, p, q, speed, .of_eq he⟩

theorem webKept_of_rest (h : WebKept ws s x) (r : Rest x y) (g : Grows x y) : WebKept ws s y := by
  have web : { y.web with pins := [] } = { x.web with pins := [] } := congrArg State.web r.bare
  exact h.trans ⟨fun a hl hh _ => r.words a (web_not_shown hl hh), (congrArg Web.encs web :), (congrArg Web.probes web :),
    (congrArg Web.p web :), (congrArg Web.q web :), (congrArg Web.speed web :), g⟩

theorem webKept_wr {a v : Nat} (ha : a < 0x040000 ∨ 0x050000 ≤ a ∨ a ∈ ws) (h : WebKept ws s x) :
    WebKept ws s (x.wr a v) := by
  refine h.trans ⟨fun b hl hh hb => rd_wr_ne _ _ ?_, rfl, rfl, rfl, rfl, rfl, .of_eq rfl⟩
  rintro rfl
  rcases ha with ha | ha | ha
  · omega
  · omega
  · exact hb ha

theorem webKept_put {f : Fld} {v : Nat} (hf : f.addr < 0x040000 ∨ 0x050000 ≤ f.addr ∨ f.addr ∈ ws) (h : WebKept ws s x) :
    WebKept ws s (x.put f v) := webKept_wr hf h

theorem webKept_ite {c : Prop} [Decidable c] (hx : WebKept ws s x) (hy : WebKept ws s y) :
    WebKept ws s (if c then x else y) := by
  split <;> assumption

theorem webKept_each {α : Type} {f : State → α → State} {l : List α} (h : WebKept ws s x)
    (hf : ∀ y, WebKept ws s y → ∀ a ∈ l, WebKept ws s (f y a)) : WebKept ws s (x.each l f) := by
  induction l generalizing x with
  | nil => exact h
  | cons a l ih => exact ih (hf x h a List.mem_cons_self) fun y hy b hb => hf y hy b (List.mem_cons_of_mem _ hb)

theorem webKept_raise {code a0 a1 a2 : Nat} (h : WebKept ws s x) : WebKept ws s (x.raise code a0 a1 a2) :=
  webKept_of_rest h (rest_raise ..) (grows_raise ..)

theorem webKept_record {type time : Nat} {p : List Byte} (h : WebKept ws s x) : WebKept ws s (x.record type time p) :=
  webKept_of_rest h (rest_record ..) (grows_record ..)

theorem webKept_trigger {source code : Nat} (h : WebKept ws s x) : WebKept ws s (x.trigger source code) :=
  webKept_of_rest h (rest_trigger ..) (grows_trigger ..)

theorem webKept_waste {causes : Nat} {lo hi : Int} (h : WebKept ws s x) : WebKept ws s (x.waste causes lo hi) :=
  webKept_of_rest h (rest_waste ..) (.of_eq rfl)

theorem webKept_wasteCopy {causes : Nat} {lo hi : Int} (h : WebKept ws s x) : WebKept ws s (x.wasteCopy causes lo hi) :=
  webKept_of_rest h (rest_wasteCopy ..) (.of_eq (by rw [State.wasteCopy, copy_events]; rfl))

theorem webKept_hbItem {a b c d : Nat} (h : WebKept ws s x) : WebKept ws s (x.hbItem a b c d) := by
  have recorded : WebKept ws s (if bits a 31 24 == 4 then x else
      x.record 0x04 x.now (([a, b, c, d].map (· % 2 ^ 32)).flatMap (leBytes 4))) := webKept_ite h (webKept_record h)
  exact webKept_ite (webKept_same recorded rfl rfl) recorded

/-! Lines withdrawn, and SAFE (R259, R302). -/

theorem webKept_modLane {l : Nat} {f : LaneSt → LaneSt} (h : WebKept ws s x) : WebKept ws s (x.modLane l f) :=
  webKept_same h rfl rfl

theorem webKept_modLines {ch : Nat} {f : List ChanLine → List ChanLine} (h : WebKept ws s x) : WebKept ws s (x.modLines ch f) :=
  webKept_same h rfl rfl

theorem webKept_sendRec {l : Nat} {r : JRec} (h : WebKept ws s x) : WebKept ws s (x.sendRec l r) := webKept_same h rfl rfl

theorem webKept_sendUse {l : Nat} {r : JRec} (h : WebKept ws s x) : WebKept ws s (x.sendUse l r) :=
  webKept_sendRec (webKept_modLane h)

theorem webKept_unsentLine {ch cause kind : Nat} {l : ChanLine} (h : WebKept ws s x) :
    WebKept ws s (x.unsentLine ch l cause kind) := by
  simp only [State.unsentLine, State.wastePair]
  split
  · split
    · exact webKept_waste h
    · exact h
  · refine webKept_ite ?_ (webKept_same h rfl rfl)
    split
    · exact webKept_wasteCopy h
    · exact h
  · exact webKept_hbItem h
  · exact h

/-- A lane register is none of the web's. -/
theorem lane_off_web (l o : Nat) : laneBase l + o < 0x040000 ∨ 0x050000 ≤ laneBase l + o ∨ laneBase l + o ∈ ws := by
  rw [laneBase]
  split <;> omega

theorem webKept_sendRetime {ch : Nat} {run : List ChanLine} (h : WebKept ws s x) : WebKept ws s (x.sendRetime ch run) :=
  have counted : WebKept ws s _ := webKept_put (f := JL_RT_CNT_RETIMES ch) (lane_off_web ..)
    (webKept_each (webKept_sendUse h) fun _ hy _ _ => webKept_modLines hy)
  webKept_ite counted (webKept_put (f := JL_RT_CNT_FULL ch) (lane_off_web ..) counted)

theorem webKept_retimeCycle {ch : Nat} (h : WebKept ws s x) : WebKept ws s (x.retimeCycle ch) := by
  refine webKept_ite (webKept_modLines ?_) h
  have begun : WebKept ws s (x.modLane ch fun l => { l with retimeAt := x.now }) := webKept_modLane h
  simp only [State.retime]
  split_ifs
  · exact begun
  · exact webKept_each begun fun _ hy _ _ => webKept_sendRetime hy
  · exact begun
  · exact webKept_put (lane_off_web ..) begun

theorem webKept_ctlFlush {ch : Nat} (h : WebKept ws s x) : WebKept ws s (x.ctlFlush ch) := by
  refine webKept_each h fun y hy i _ => ?_
  have sent (z : State) (hz : WebKept ws s z) : WebKept ws s (match (z.laneSt ch).ctl[i]? with
      | some c => z.sendUse ch (c.record z.claim)
      | none => z) := by
    split
    · exact webKept_sendUse hz
    · exact hz
  exact sent _ (webKept_put (lane_off_web ..) (webKept_put (lane_off_web ..)
    (webKept_put (lane_off_web ..) (webKept_modLane hy))))

theorem webKept_recordsFirst {ch : Nat} (h : WebKept ws s x) : WebKept ws s (x.recordsFirst ch) := by
  have sent : WebKept ws s (x.tsyncGo ch) := webKept_ite (webKept_sendRec (webKept_modLane h)) h
  have cycled := webKept_retimeCycle (ch := ch) sent
  exact webKept_ite (webKept_ite cycled (webKept_ctlFlush cycled)) h

theorem webKept_lineVoid {ch : Nat} {l : ChanLine} (h : WebKept ws s x) : WebKept ws s (x.lineVoid ch l) := by
  refine webKept_ite h ?_
  split
  · exact webKept_modLines h
  · exact webKept_ite (webKept_unsentLine (webKept_same (webKept_put (f := JL_STAT_VOIDCNT ch) (lane_off_web ..)
      (webKept_modLines (webKept_sendUse (webKept_recordsFirst h)))) rfl rfl)) h

theorem webKept_withdrawAll (h : WebKept ws s x) : WebKept ws s x.withdrawAll :=
  webKept_each h fun _ hy _ _ => webKept_each hy fun _ hz _ _ => webKept_lineVoid hz

theorem webKept_safeSet {cause : Nat} (h : WebKept ws s x) : WebKept ws s (x.safeSet cause) := by
  have field : (safeField cause).addr = FS_SAFE_STAT := by
    unfold safeField
    split <;> rfl
  have flagged : WebKept ws s (x.flag (safeField cause) true) := webKept_put (by rw [field]; exact .inr (.inl (by decide))) h
  refine webKept_ite flagged (webKept_of_rest (webKept_withdrawAll ?_) (rest_safeWaste _) (grows_safeWaste _))
  have told : WebKept ws s (((x.flag (safeField cause) true).flag FS_SAFE_STAT_SAFE true).raise 0x4203 0
      (((x.flag (safeField cause) true).flag FS_SAFE_STAT_SAFE true).get ⟨FS_SAFE_STAT, 4, 0⟩) 0) :=
    webKept_raise (webKept_put (.inr (.inl (by decide))) flagged)
  exact webKept_ite (webKept_trigger told) told

/-! SPEED_REQ, the page at the reference bar, and marks (R75, R107, R113). -/

theorem webKept_spdShow (h : WebKept ws s x) : WebKept ws s x.spdShow :=
  webKept_ite (webKept_raise (webKept_put (.inr (.inl (by decide))) (webKept_put (.inr (.inl (by decide))) h)))
    (webKept_ite (webKept_raise (webKept_put (.inr (.inl (by decide))) h)) h)

theorem webKept_calmShow (h : WebKept ws s x) : WebKept ws s x.calmShow := webKept_same h rfl rfl

theorem webKept_overShow (h : WebKept ws s x) : WebKept ws s x.overShow := by
  simp only [State.overShow]
  split
  · exact webKept_calmShow (webKept_ite (webKept_spdShow (webKept_put (.inr (.inl (by decide))) h)) h)
  · exact webKept_calmShow h

theorem webKept_curShow (h : WebKept ws s x) : WebKept ws s x.curShow := by
  simp only [State.curShow]
  split
  · exact h
  · exact webKept_wr (.inr (.inl (by decide))) (webKept_wr (.inr (.inl (by decide))) (webKept_same h rfl rfl))

theorem webKept_markJudge {n : NextPage} {j : Job} {m : Nat × Int × Nat} (h : WebKept ws s x) : WebKept ws s (x.markJudge n j m) :=
  webKept_ite (webKept_put (.inr (.inl (by decide))) h) (webKept_ite (webKept_raise (webKept_wasteCopy
    (webKept_put (.inr (.inl (by decide))) (webKept_put (.inr (.inl (by decide))) h)))) (webKept_same h rfl rfl))

theorem webKept_marksTake (k : Nat) : ∀ {x : State}, WebKept ws s x → WebKept ws s (x.marksTake k) := by
  induction k with
  | zero => exact id
  | succ k ih =>
    intro x h
    have dropped (l : List (Nat × Int × Nat)) : WebKept ws s { x with scan := { x.scan with marks := l } } :=
      webKept_same h rfl rfl
    simp only [State.marksTake]
    split
    · exact h
    · split
      · exact webKept_ite h (ih (dropped _))
      · split_ifs
        · exact ih (dropped _)
        · exact h
        · split
          · exact ih (webKept_markJudge (dropped _))
          · exact ih (dropped _)

theorem webKept_marksSettle (h : WebKept ws s x) : WebKept ws s x.marksSettle := webKept_ite (webKept_marksTake _ h) h

end

end Sys2Proof.Proofs
end

section
open Sys2Proof Sys2Proof.Machine
namespace Sys2Proof.Proofs
/-! What follows a change of the estimates: what shows it, and what it leaves (R186, R193, R200). -/

/-- The registers that show position, speed and motion, and those that show an output's LAG. -/
def webWords : List Nat := [WP_POS_LO, WP_POS_HI, WP_RAW_LO, WP_RAW_HI, WP_SPEED, WP_ACC, WP_MOTION, WP_SRC_STAT]
def encoWords : List Nat := [WP_ENCO_STAT 0, WP_ENCO_STAT 1]

section
variable {ws : List Nat} {s x y : State}

theorem webKept_shows {a v : Nat} (hw : ∀ a ∈ webWords, a ∈ ws) (ha : a ∈ webWords) (h : WebKept ws s x) :
    WebKept ws s (x.wr a v) := webKept_wr (.inr (.inr (hw a ha))) h

theorem webKept_webShow (hw : ∀ a ∈ webWords, a ∈ ws) (h : WebKept ws s x) : WebKept ws s x.webShow := by
  have put {z : State} {f : Fld} {v : Nat} (hf : f.addr ∈ webWords) (hz : WebKept ws s z) : WebKept ws s (z.put f v) :=
    webKept_shows hw hf hz
  exact put (by decide) (put (by decide) (put (by decide) (put (by decide) (webKept_shows hw (by decide)
    (webKept_shows hw (by decide) (webKept_shows hw (by decide) (webKept_shows hw (by decide) h)))))))

theorem webKept_encoShow {n : Nat} (hn : WP_ENCO_STAT n ∈ ws) (h : WebKept ws s x) : WebKept ws s (x.encoShow n) := by
  have shown : WebKept ws s (x.put (WP_ENCO_STAT_LAG n) (min (x.encoLag n) 65535)) := webKept_put (.inr (.inr hn)) h
  exact webKept_ite (webKept_raise (webKept_put (.inr (.inr hn)) (webKept_same shown rfl rfl))) shown

theorem webKept_estTake (h : WebKept ws s x) : WebKept ws s x.estTake := webKept_same h rfl rfl

theorem webKept_predictAll (h : WebKept ws s x) : WebKept ws s x.predictAll := webKept_same h rfl rfl

/-- Predictions, SPEED_REQ, the page at the reference bar and the outputs' LAG leave the motion that has been shown. -/
theorem webFollow_kept (s : State) : WebKept encoWords s.webShow s.webFollow := by
  have shown := webKept_curShow (webKept_overShow (webKept_predictAll (webKept_estTake (webKept_refl encoWords s.webShow))))
  refine webKept_each shown fun y hy n hn => webKept_encoShow ?_ hy
  have two : ∀ n < 2, WP_ENCO_STAT n ∈ encoWords := by decide
  exact two n (List.mem_range.1 hn)

end

end Sys2Proof.Proofs
end

section
open Sys2Proof Sys2Proof.Machine
namespace Sys2Proof.Proofs
/-! What an encoder's edge leaves of the counts beside the one it counts (R172–R181). -/

/-- An address below or above the encoders' counts and errors. -/
def offCounts (a : Nat) : Prop := a < 0x040014 ∨ 0x04004C ≤ a

/-- From one state to the other an encoder's levels, its ILLEGAL, every encoder's count and the other encoders' errors are kept. -/
structure CountsKept (n : Nat) (s x : State) : Prop where
  a : (x.enc n).a = (s.enc n).a
  b : (x.enc n).b = (s.enc n).b
  z : (x.enc n).z = (s.enc n).z
  illegal : x.get (WP_ENC_ERR_ILLEGAL n) = s.get (WP_ENC_ERR_ILLEGAL n)
  counts : ∀ m < 4, x.rd (WP_ENC_COUNT m) = s.rd (WP_ENC_COUNT m)
  errs : ∀ m < 4, m ≠ n → x.rd (WP_ENC_ERR m) = s.rd (WP_ENC_ERR m)

theorem countsKept_refl (n : Nat) (s : State) : CountsKept n s s := ⟨rfl, rfl, rfl, rfl, fun _ _ => rfl, fun _ _ _ => rfl⟩

section
variable {n : Nat} {s x y : State}

theorem CountsKept.trans (h : CountsKept n s x) (k : CountsKept n x y) : CountsKept n s y where
  a := k.a.trans h.a
  b := k.b.trans h.b
  z := k.z.trans h.z
  illegal := k.illegal.trans h.illegal
  counts m hm := (k.counts m hm).trans (h.counts m hm)
  errs m hm hn := (k.errs m hm hn).trans (h.errs m hm hn)

/-- The counters' words and the encoders as they were. -/
theorem countsKept_of_words (h : CountsKept n s x) (hn : n < 4) (he : y.web.encs = x.web.encs)
    (hw : ∀ m < 4, y.rd (WP_ENC_COUNT m) = x.rd (WP_ENC_COUNT m) ∧ y.rd (WP_ENC_ERR m) = x.rd (WP_ENC_ERR m)) :
    CountsKept n s y := by
  have enc : y.enc n = x.enc n := by rw [State.enc, State.enc, he]
  refine h.trans ⟨by rw [enc], by rw [enc], by rw [enc], ?_, fun m hm => (hw m hm).1, fun m hm _ => (hw m hm).2⟩
  rw [State.get, State.get, (hw n hn).2]

theorem countsKept_same (h : CountsKept n s x) (hn : n < 4) (hw : y.words = x.words) (he : y.web.encs = x.web.encs) :
    CountsKept n s y :=
  countsKept_of_words h hn he fun m _ => ⟨by rw [State.rd, State.rd, hw], by rw [State.rd, State.rd, hw]⟩

theorem countsKept_of_web {ws : List Nat} (h : CountsKept n s x) (hn : n < 4) (k : WebKept ws x y)
    (hw : ∀ a ∈ ws, offCounts a) : CountsKept n s y := by
  have off (a : Nat) (hl : 0x040014 ≤ a) (hh : a < 0x04004C) : y.rd a = x.rd a :=
    k.words a (by omega) (by omega) fun ha => by have := hw a ha; unfold offCounts at this; omega
  exact countsKept_of_words h hn k.encs fun m hm => by
    constructor <;> refine off _ ?_ ?_ <;> simp only [WP_ENC_COUNT, WP_ENC_ERR] <;> omega

theorem countsKept_of_rest (h : CountsKept n s x) (hn : n < 4) (r : Rest x y) : CountsKept n s y := by
  have web : { y.web with pins := [] } = { x.web with pins := [] } := congrArg State.web r.bare
  refine countsKept_of_words h hn (congrArg Web.encs web :) fun m hm => ?_
  constructor <;> refine r.words _ (web_not_shown ?_ ?_) <;> simp only [WP_ENC_COUNT, WP_ENC_ERR] <;> omega

theorem countsKept_put {f : Fld} {v : Nat} (h : CountsKept n s x) (hn : n < 4) (hf : offCounts f.addr) :
    CountsKept n s (x.put f v) := by
  unfold offCounts at hf
  exact countsKept_of_words h hn rfl fun m hm => by
    constructor <;> refine rd_put_ne _ _ _ ?_ <;> simp only [WP_ENC_COUNT, WP_ENC_ERR] <;> omega

theorem countsKept_raise {code a0 a1 a2 : Nat} (h : CountsKept n s x) (hn : n < 4) : CountsKept n s (x.raise code a0 a1 a2) :=
  countsKept_of_rest h hn (rest_raise ..)

theorem countsKept_ite {c : Prop} [Decidable c] (hx : CountsKept n s x) (hy : CountsKept n s y) :
    CountsKept n s (if c then x else y) := by
  split <;> assumption

/-- An entry of a list one of whose entries changed. -/
theorem getD_modAt {α : Type} (l : List α) (m n : Nat) (f : α → α) (d : α) :
    (modAt l m f).getD n d = if m = n ∧ n < l.length then f (l.getD n d) else l.getD n d := by
  rw [modAt]
  simp only [List.getD_eq_getElem?_getD, List.getElem?_modify]
  by_cases hn : n < l.length
  · simp only [List.getElem?_eq_getElem hn, Option.map_eq_map, Option.map_some, Option.getD_some, hn, and_true]
  · simp only [List.getElem?_eq_none (Nat.not_lt.1 hn), Option.map_eq_map, Option.map_none, hn, and_false, if_false]

theorem enc_modEnc (x : State) (m : Nat) (f : Enc → Enc) :
    (x.modEnc m f).enc n = if m = n ∧ n < x.web.encs.length then f (x.enc n) else x.enc n := getD_modAt ..

theorem countsKept_modEnc {m : Nat} {f : Enc → Enc} (h : CountsKept n s x)
    (hf : ∀ e, (f e).a = e.a ∧ (f e).b = e.b ∧ (f e).z = e.z := by exact fun _ => ⟨rfl, rfl, rfl⟩) :
    CountsKept n s (x.modEnc m f) := by
  have enc : ((x.modEnc m f).enc n).a = (x.enc n).a ∧ ((x.modEnc m f).enc n).b = (x.enc n).b ∧
      ((x.modEnc m f).enc n).z = (x.enc n).z := by
    rw [enc_modEnc]
    split
    · exact hf _
    · exact ⟨rfl, rfl, rfl⟩
  exact h.trans ⟨enc.1, enc.2.1, enc.2.2, rfl, fun _ _ => rfl, fun _ _ _ => rfl⟩

/-- A web whose encoders are the same. -/
theorem countsKept_web {w : Web} (h : CountsKept n s x) (hn : n < 4) (he : w.encs = x.web.encs := by rfl) :
    CountsKept n s { x with web := w } := countsKept_same h hn rfl he

section
variable (h : CountsKept n s x) (hn : n < 4)
include h hn

/-! Selection, failover and loss (R178–R183). -/

theorem countsKept_encItem {kind : Nat} : CountsKept n s (x.encItem kind) :=
  countsKept_ite (countsKept_of_web h hn (webKept_hbItem (webKept_refl [] x)) (by simp)) h

theorem countsKept_dirUpdate : CountsKept n s x.dirUpdate := by
  have moved : CountsKept n s { x with web := { x.web with q := max x.web.q x.web.p } } := countsKept_same h hn rfl rfl
  have put (f : Fld) (v : Nat) (z : State) (hf : f.addr = WP_MOTION) (hz : CountsKept n s z) : CountsKept n s (z.put f v) :=
    countsKept_put hz hn (by rw [hf]; exact .inr (by decide))
  simp only [State.dirUpdate, State.inc, State.add]
  split_ifs
  · exact countsKept_raise (put _ _ _ rfl moved) hn
  · exact put _ _ _ rfl moved
  · exact moved
  · exact countsKept_raise (put _ _ _ rfl (put _ _ _ rfl moved)) hn
  · exact put _ _ _ rfl moved

theorem countsKept_webShow : CountsKept n s x.webShow :=
  countsKept_of_web h hn (webKept_webShow (fun _ ha => ha) (webKept_refl webWords x)) (by
    have off : ∀ a ∈ webWords, 0x04004C ≤ a := by decide
    exact fun a ha => .inr (off a ha))

theorem countsKept_selSwap : CountsKept n s x.selSwap :=
  countsKept_webShow (countsKept_dirUpdate (countsKept_same h hn rfl rfl) hn) hn

theorem countsKept_posLost : CountsKept n s x.posLost :=
  countsKept_ite h (countsKept_of_web (countsKept_raise (countsKept_put h hn (.inr (by decide))) hn) hn
    (webKept_safeSet (webKept_refl [] _)) (by simp))

theorem countsKept_failedAct {onSec : Bool} : CountsKept n s (x.failedAct onSec) := by
  simp only [State.failedAct]
  have told (e : Nat) : CountsKept n s (x.raise 0x2102 e 0 0) := countsKept_raise h hn
  generalize (if onSec then x.get WP_ENC_CFG_SECONDARY else x.get WP_ENC_CFG_PRIMARY) = e
  split_ifs
  · exact countsKept_posLost (told e) hn
  · exact told e
  · exact countsKept_encItem (countsKept_posLost h hn) hn
  · exact countsKept_encItem (countsKept_raise (countsKept_put (countsKept_selSwap h hn) hn (.inr (by decide))) hn) hn
  · exact countsKept_encItem (told e) hn

theorem countsKept_encFail {onSec : Bool} : CountsKept n s (x.encFail onSec) := by
  refine countsKept_ite h (countsKept_failedAct (countsKept_put h hn ?_) hn)
  rw [failedFld]
  split <;> exact .inr (by decide)

theorem countsKept_failTest {onSec : Bool} : CountsKept n s (x.failTest onSec) := by
  have windowed (m : Nat) (l : List Nat) : CountsKept n s (x.modEnc m fun e => { e with errs := l }) :=
    countsKept_modEnc h
  exact countsKept_ite (countsKept_encFail (windowed _ _) hn) (windowed _ _)

theorem countsKept_align : CountsKept n s x.align :=
  countsKept_ite (countsKept_web (countsKept_modEnc (countsKept_ite h (countsKept_raise (countsKept_put h hn
    (.inr (by decide))) hn))) hn) h

/-! A count, a Z edge, and the estimates' update (R173, R176, R186). -/

theorem countsKept_pSet {p : Int} {at_ : Nat} : CountsKept n s (x.pSet p at_) := countsKept_web h hn

theorem countsKept_pairCount {m at_ : Nat} {fwd : Bool} : CountsKept n s (x.pairCount m fwd at_) :=
  countsKept_ite (countsKept_failTest (countsKept_align (countsKept_dirUpdate (countsKept_modEnc (countsKept_modEnc
    (countsKept_pSet h hn))) hn) hn) hn) (countsKept_ite (countsKept_failTest (countsKept_modEnc (countsKept_modEnc
    (countsKept_web h hn))) hn) h)

end

theorem countsKept_zEdge {at_ : Nat} (h : CountsKept n s x) : CountsKept n s (x.zEdge n at_) := by
  have zeroed (z : State) (hz : CountsKept n s z) : CountsKept n s (z.modEnc n fun e => { e with sinceZ := some 0 }) :=
    countsKept_modEnc hz
  have counted (v : Nat) : CountsKept n s (x.put (WP_ENC_ERR_ZERR n) v) := by
    refine h.trans ⟨rfl, rfl, rfl, get_put_apart _ _ _ _ (by simp) (by simp) (.inr (by simp)), fun m _ => ?_,
      fun m _ hm => ?_⟩ <;> refine rd_put_ne _ _ _ ?_ <;> simp only [WP_ENC_COUNT, WP_ENC_ERR] <;> omega
  simp only [State.zEdge]
  refine countsKept_ite (zeroed _ (countsKept_ite ?_ h)) h
  exact countsKept_modEnc (counted _)

theorem countsKept_speedFollow (h : CountsKept n s x) (hn : n < 4) : CountsKept n s x.speedFollow := by
  have updated : CountsKept n s x.speedUpdate := by
    refine countsKept_ite (countsKept_web h hn) (countsKept_web (countsKept_put ?_ hn (.inr (by decide))) hn)
    split
    · exact h
    · exact countsKept_same h hn rfl rfl
  have kept : CountsKept n s x.speedUpdate.accKeep := countsKept_ite updated (countsKept_web updated hn)
  exact countsKept_of_web (countsKept_webShow kept hn) hn (webFollow_kept _) (by
    have off : ∀ a ∈ encoWords, 0x04004C ≤ a := by decide
    exact fun a ha => .inr (off a ha))

end

/-! An edge: the step along 00, 10, 11, 01 it makes, and what is counted of it (R172). -/

/-- The step of a pair of levels from another, modulo 4. -/
def quadStep (a b a' b' : Bool) : Nat := (quadOf a b + 4 - quadOf a' b') % 4

theorem quadStep_both {a b a' b' : Bool} (ha : a ≠ a') (hb : b ≠ b') : quadStep a b a' b' = 2 := by
  revert a b a' b'
  decide

theorem quadStep_none (a b : Bool) : quadStep a b a b = 0 := by
  revert a b
  decide

/-- One line's change is a step along the order or against it. -/
theorem quadStep_one {a b a' b' : Bool} (h : (a = !a' ∧ b = b') ∨ (a = a' ∧ b = !b')) :
    quadStep a b a' b' = if (if b = b' then a != b else a == b) then 1 else 3 := by
  revert a b a' b'
  decide

section
variable {n at_ : Nat} {a b z : Bool} {s : State}

/-- The state in which an encoder's new levels stand. -/
def levelled (s : State) (n : Nat) (a b z : Bool) : State := s.modEnc n fun e => { e with a := a, b := b, z := z }

/-- What a step counts: an illegal change, nothing, or a count. -/
def stepCounted (s : State) (n step : Nat) (inv : Bool) : State :=
  if step == 2 then s.inc (WP_ENC_ERR_ILLEGAL n)
  else if step == 0 then s
  else s.put (WP_ENC_COUNT_COUNT n) (s.get (WP_ENC_COUNT_COUNT n) + (if (step == 1) != inv then 1 else 2 ^ 32 - 1))

/-- The same with what the pair makes of it. -/
def stepTaken (s : State) (n step : Nat) (inv : Bool) (at_ : Nat) : State :=
  if step == 2 then (s.inc (WP_ENC_ERR_ILLEGAL n)).encError n at_
  else if step == 0 then s
  else
    State.pairCount ((s.put (WP_ENC_COUNT_COUNT n)
      (s.get (WP_ENC_COUNT_COUNT n) + (if (step == 1) != inv then 1 else 2 ^ 32 - 1))).modEnc n
        fun e => e.count ((step == 1) != inv) at_) n ((step == 1) != inv) at_

theorem count_levels (e : Enc) (fwd : Bool) (at_ : Nat) :
    (e.count fwd at_).a = e.a ∧ (e.count fwd at_).b = e.b ∧ (e.count fwd at_).z = e.z := by
  simp only [Enc.count]
  split_ifs <;> exact ⟨rfl, rfl, rfl⟩

theorem stepTaken_kept (hn : n < 4) (step : Nat) (inv : Bool) :
    CountsKept n (stepCounted s n step inv) (stepTaken s n step inv at_) := by
  rw [stepCounted, stepTaken]
  by_cases illegal : step == 2
  · rw [if_pos illegal, if_pos illegal]
    exact countsKept_modEnc (countsKept_refl n _)
  by_cases none : step == 0
  · rw [if_neg illegal, if_neg illegal, if_pos none, if_pos none]
    exact countsKept_refl n _
  · rw [if_neg illegal, if_neg illegal, if_neg none, if_neg none]
    exact countsKept_pairCount (countsKept_modEnc (countsKept_refl n _) fun e => count_levels e _ _) hn

/-- What an edge of an encoder counts (R172). -/
def edgeCounted (s : State) (n : Nat) (a b z : Bool) : State :=
  stepCounted (levelled s n a b z) n (quadStep a b (s.enc n).a (s.enc n).b) (s.bitOf WP_ENC_CFG_DIR_INV n)

/-- Beside that an edge leaves the levels and the counts as they are. -/
theorem edgeTake_kept (hn : n < 4) : CountsKept n (edgeCounted s n a b z) (s.edgeTake n a b z at_) := by
  have counted : CountsKept n (edgeCounted s n a b z) (stepTaken (levelled s n a b z) n
      (quadStep a b (s.enc n).a (s.enc n).b) (s.bitOf WP_ENC_CFG_DIR_INV n) at_) := stepTaken_kept hn _ _
  have zEdged := countsKept_ite (c := (z && !(s.enc n).z) = true) (countsKept_zEdge (at_ := at_) counted) counted
  have edge : CountsKept n (edgeCounted s n a b z) (s.encEdge n a b z at_) := by
    simp only [State.encEdge]
    split
    · exact countsKept_failTest zEdged hn
    · exact zEdged
  exact countsKept_ite (countsKept_speedFollow edge hn) edge

/-! What the counted state shows. -/

theorem levelled_enc (hl : n < s.web.encs.length) : (levelled s n a b z).enc n = { s.enc n with a := a, b := b, z := z } := by
  rw [levelled, enc_modEnc, if_pos ⟨rfl, hl⟩]

theorem stepCounted_web (s : State) (n step : Nat) (inv : Bool) : (stepCounted s n step inv).web = s.web := by
  simp only [stepCounted, State.inc, State.add, apply_ite State.web, put_web, ite_self]

theorem edgeCounted_enc (hl : n < s.web.encs.length) :
    (edgeCounted s n a b z).enc n = { s.enc n with a := a, b := b, z := z } := by
  rw [State.enc, edgeCounted, stepCounted_web]
  exact levelled_enc hl

/-- A count or an error is the encoder's own. -/
theorem rd_stepCounted (step : Nat) (inv : Bool) {k : Nat} (hc : k ≠ WP_ENC_COUNT n) (he : k ≠ WP_ENC_ERR n) :
    (stepCounted s n step inv).rd k = s.rd k := by
  rw [stepCounted]
  split_ifs
  · exact rd_put_ne _ _ _ he
  · rfl
  · exact rd_put_ne _ _ _ hc
  · exact rd_put_ne _ _ _ hc

theorem count_ne_err (m n : Nat) : WP_ENC_COUNT m ≠ WP_ENC_ERR n := by
  simp only [WP_ENC_COUNT, WP_ENC_ERR]
  omega

theorem stepCounted_illegal (s : State) (n : Nat) (inv : Bool) :
    (stepCounted s n 2 inv).get (WP_ENC_COUNT_COUNT n) = s.get (WP_ENC_COUNT_COUNT n) ∧
      (stepCounted s n 2 inv).get (WP_ENC_ERR_ILLEGAL n) = (s.get (WP_ENC_ERR_ILLEGAL n) + 1) % 2 ^ 16 :=
  ⟨get_put_ne _ _ _ _ (count_ne_err n n), get_put_same _ _ _ (by simp) (by simp)⟩

/-- A step along the order counts +1, against it −1; DIR_INV turns that round. -/
theorem stepCounted_one (s : State) (n : Nat) (along inv : Bool) :
    (stepCounted s n (if along then 1 else 3) inv).get (WP_ENC_ERR_ILLEGAL n) = s.get (WP_ENC_ERR_ILLEGAL n) ∧
      (stepCounted s n (if along then 1 else 3) inv).get (WP_ENC_COUNT_COUNT n) =
        (if along != inv then s.get (WP_ENC_COUNT_COUNT n) + 1 else s.get (WP_ENC_COUNT_COUNT n) + (2 ^ 32 - 1)) % 2 ^ 32 := by
  have counted : stepCounted s n (if along then 1 else 3) inv = s.put (WP_ENC_COUNT_COUNT n)
      (if along != inv then s.get (WP_ENC_COUNT_COUNT n) + 1 else s.get (WP_ENC_COUNT_COUNT n) + (2 ^ 32 - 1)) := by
    cases along <;> cases inv <;> rfl
  rw [counted]
  exact ⟨get_put_ne _ _ _ _ (count_ne_err n n).symm, get_put_same _ _ _ (by simp) (by simp)⟩

end

/-- The recorder's bin of edges is the recorder's own. -/
theorem rest_binFlush (s : State) : Rest s s.binFlush := by
  simp only [State.binFlush]
  split
  · exact Rest.refl s
  · exact (rest_agate s _).trans (rest_record _ _ _ _)

theorem rest_edgeBin (s : State) (n : Nat) (a b z : Bool) (at_ : Nat) : Rest s (s.edgeBin n a b z at_) := by
  simp only [State.edgeBin]
  split_ifs
  · exact rest_agate s _
  · exact Rest.refl s
  · exact (rest_binFlush s).trans (rest_agate _ _)
  · exact rest_binFlush s

theorem encs_of_rest {x y : State} (r : Rest x y) : y.web.encs = x.web.encs := by
  have web : { y.web with pins := [] } = { x.web with pins := [] } := congrArg State.web r.bare
  exact (congrArg Web.encs web :)

/-- An edge of the encoder `n`, as the command takes it: the counted state, up to what its own and what follows it leave alone. -/
theorem exec_encEdge {t n ago : Nat} {a b z : Bool} {s : State} (hc : s.core = .running) (hn : n < 4)
    (he : (a, b, z) ≠ ((s.enc n).a, (s.enc n).b, (s.enc n).z)) (hm : s.get AG_RP_STAT_MODE ≠ 2) :
    ∃ x s', Rest (s.advance t) x ∧ exec (.encEdge t n a b z ago) s = .next s' ∧ CountsKept n (edgeCounted x n a b z) s' := by
  obtain ⟨s', hs, r⟩ := run_rest (t := t) (f := fun s =>
    let e := s.enc n
    if s.get AG_RP_STAT_MODE ≠ 2 ∧ n < 4 ∧ (a, b, z) ≠ (e.a, e.b, e.z) then
      let at_ := s.now - ago
      (s.edgeBin n a b z at_).edgeTake n a b z at_
    else s) hc (Rest.refl _)
  refine ⟨_, s', rest_edgeBin _ n a b z ((s.advance t).now - ago), hs, ?_⟩
  have taken : (s.advance t).get AG_RP_STAT_MODE ≠ 2 ∧ n < 4 ∧
      (a, b, z) ≠ (((s.advance t).enc n).a, ((s.advance t).enc n).b, ((s.advance t).enc n).z) := ⟨hm, hn, he⟩
  simp only [if_pos taken] at r
  exact countsKept_of_rest (edgeTake_kept hn) hn r

/-- Settles O19: the model's step modulo 4 is decided for each pair of levels; beside the levels and what the step counts, an edge
leaves the counts and errors as they were (`edgeTake_kept`). -/
theorem encoderCounts : Obligations.EncoderCounts := by
  unfold Obligations.EncoderCounts
  intro t n ago a b z s hc hn he hl hm
  obtain ⟨x, s', r, hs, k⟩ := exec_encEdge (t := t) (ago := ago) hc hn he hm
  have encs : x.web.encs = s.web.encs := (encs_of_rest r).trans rfl
  have enc : x.enc n = s.enc n := by rw [State.enc, State.enc, encs]
  have word (w : Nat) (h : 0x040000 ≤ w ∧ w < 0x050000) : x.rd w = s.rd w := r.words _ (web_not_shown h.1 h.2)
  have count : x.get (WP_ENC_COUNT_COUNT n) = s.get (WP_ENC_COUNT_COUNT n) :=
    congrArg (bits · 31 0) (word _ (by simp only [WP_ENC_COUNT]; omega))
  have illegal : x.get (WP_ENC_ERR_ILLEGAL n) = s.get (WP_ENC_ERR_ILLEGAL n) :=
    congrArg (bits · 15 0) (word _ (by simp only [WP_ENC_ERR]; omega))
  have inv : x.bitOf WP_ENC_CFG_DIR_INV n = s.bitOf WP_ENC_CFG_DIR_INV n := by
    rw [State.bitOf, State.bitOf, State.get, word _ (by decide)]
    rfl
  have counted : edgeCounted x n a b z = stepCounted (levelled x n a b z) n (quadStep a b (s.enc n).a (s.enc n).b)
      (s.bitOf WP_ENC_CFG_DIR_INV n) := by rw [edgeCounted, enc, inv]
  have levels := edgeCounted_enc (a := a) (b := b) (z := z) (s := x) (n := n) (encs ▸ hl)
  have kCount : s'.get (WP_ENC_COUNT_COUNT n) = (edgeCounted x n a b z).get (WP_ENC_COUNT_COUNT n) :=
    congrArg (bits · 31 0) (k.counts n hn)
  refine ⟨s', hs, by rw [k.a, levels], by rw [k.b, levels], by rw [k.z, levels], ?_, ?_, ?_, fun m hm hne => ⟨?_, ?_⟩⟩
  · intro ha hb
    rw [kCount, k.illegal, counted, quadStep_both ha hb, ← count, ← illegal]
    exact stepCounted_illegal (levelled x n a b z) n _
  · rintro rfl rfl
    rw [kCount, k.illegal, counted, quadStep_none, ← count, ← illegal]
    exact ⟨rfl, rfl⟩
  · intro one
    rw [kCount, k.illegal, counted, quadStep_one one, ← count, ← illegal]
    exact stepCounted_one (levelled x n a b z) n _ _
  · rw [k.counts m hm, counted, rd_stepCounted _ _ (by simp only [WP_ENC_COUNT]; omega) (count_ne_err m n)]
    exact word _ (by simp only [WP_ENC_COUNT]; omega)
  · rw [k.errs m hm hne, counted, rd_stepCounted _ _ (count_ne_err n m).symm (by simp only [WP_ENC_ERR]; omega)]
    exact word _ (by simp only [WP_ENC_ERR]; omega)

end Sys2Proof.Proofs
end

section
open Sys2Proof Sys2Proof.Machine
namespace Sys2Proof.Proofs
/-! What shows the estimates, and the state in which they are (R184, R186). -/

section
variable {ws : List Nat} {s x y : State}

theorem webKept_whenRunning (h : WebKept ws s x) : WebKept ws s (x.whenRunning settle) :=
  webKept_of_rest h (rest_whenRunning x) (grows_whenRunning x)

theorem WebKept.enc (h : WebKept ws s x) (n : Nat) : x.enc n = s.enc n := by rw [State.enc, State.enc, h.encs]

/-- The state with its positions, speed and acceleration shown. -/
def positionsShown (s : State) : State :=
  (((((s.wr WP_POS_LO (unsgn 48 s.qPu % 2 ^ 32)).wr WP_POS_HI (unsgn 48 s.qPu / 2 ^ 32)).wr WP_RAW_LO
    (unsgn 48 s.pPu % 2 ^ 32)).wr WP_RAW_HI (unsgn 48 s.pPu / 2 ^ 32)).sput WP_SPEED_VALUE
      (clamp (roundR (s.web.speed * 65536)) (-2147483648) 2147483647)).sput WP_ACC_VALUE
      (clamp (roundR (s.web.acc * 65536)) (-2147483648) 2147483647)

theorem rd_positionsShown {a : Nat} (h : a ∉ [WP_POS_LO, WP_POS_HI, WP_RAW_LO, WP_RAW_HI, WP_SPEED, WP_ACC]) :
    (positionsShown s).rd a = s.rd a := by
  simp only [List.mem_cons, List.not_mem_nil, or_false, not_or] at h
  obtain ⟨h1, h2, h3, h4, h5, h6⟩ := h
  rw [positionsShown, State.sput, rd_put_ne _ _ _ h6, State.sput, rd_put_ne _ _ _ h5, rd_wr_ne _ _ h4, rd_wr_ne _ _ h3,
    rd_wr_ne _ _ h2, rd_wr_ne _ _ h1]

theorem positionsShown_web (s : State) : (positionsShown s).web = s.web := by
  rw [positionsShown, State.sput, put_web, State.sput, put_web, wr_web, wr_web, wr_web, wr_web]

theorem positionsShown_selEnc (s : State) : (positionsShown s).selEnc = s.selEnc := by
  have cfg (f : Fld) (hf : f.addr = WP_ENC_CFG) : (positionsShown s).get f = s.get f :=
    congrArg (bits · f.hi f.lo) (by rw [hf]; exact rd_positionsShown (by decide))
  rw [State.selEnc, State.selEnc, positionsShown_web, cfg _ rfl, cfg _ rfl]

theorem webShow_eq (s : State) : s.webShow = ((positionsShown s).put WP_MOTION_SPEED_STATE (s.enc s.selEnc).state).put
    WP_SRC_STAT_SELECTED s.selEnc := by
  rw [← positionsShown_selEnc s, State.enc, ← positionsShown_web s]
  rfl

theorem webShow_speed (s : State) : s.webShow.get WP_SPEED_VALUE =
    unsgn 32 (clamp (roundR (s.web.speed * 65536)) (-2147483648) 2147483647) % 2 ^ 32 := by
  rw [webShow_eq, get_put_ne _ _ _ _ (by decide), get_put_ne _ _ _ _ (by decide), positionsShown, State.sput,
    get_put_ne _ _ _ _ (by decide)]
  exact get_put_same _ _ _ (by decide) (by decide)

theorem webShow_state (s : State) : s.webShow.get WP_MOTION_SPEED_STATE = (s.enc s.selEnc).state % 4 := by
  rw [webShow_eq, get_put_ne _ _ _ _ (by decide)]
  exact get_put_same _ _ _ (by decide) (by decide)

theorem webShow_method (s : State) : s.webShow.get WP_MOTION_METHOD = s.get WP_MOTION_METHOD := by
  rw [webShow_eq, get_put_ne _ _ _ _ (by decide), get_put_apart _ _ _ _ (by decide) (by decide) (by decide), State.get,
    rd_positionsShown (by decide), State.get]

theorem webShow_kept (s : State) : WebKept webWords s s.webShow := webKept_webShow (fun _ h => h) (webKept_refl _ s)

/-- The registers of the estimates as what follows them leaves them. -/
theorem webFollow_shows (s : State) (k : WebKept encoWords s.webFollow y) :
    y.get WP_SPEED_VALUE = unsgn 32 (clamp (roundR (s.web.speed * 65536)) (-2147483648) 2147483647) % 2 ^ 32 ∧
      y.get WP_MOTION_SPEED_STATE = (s.enc s.selEnc).state % 4 ∧ y.get WP_MOTION_METHOD = s.get WP_MOTION_METHOD := by
  have follow := (webFollow_kept s).trans k
  exact ⟨(follow.get (by decide) (by decide) (by decide)).trans (webShow_speed s),
    (follow.get (by decide) (by decide) (by decide)).trans (webShow_state s),
    (follow.get (by decide) (by decide) (by decide)).trans (webShow_method s)⟩

/-- The web as a state that follows its estimates has it. -/
theorem webFollow_web (s : State) (k : WebKept encoWords s.webFollow y) : y.web.speed = s.web.speed ∧ y.web.p = s.web.p ∧
    y.web.q = s.web.q ∧ y.web.encs = s.web.encs := by
  have follow := (webFollow_kept s).trans k
  have shown := webShow_kept s
  exact ⟨follow.speed.trans shown.speed, follow.p.trans shown.p, follow.q.trans shown.q, follow.encs.trans shown.encs⟩

theorem grows_webFollow (s : State) : Grows s s.webFollow := (webShow_kept s).grows.trans (webFollow_kept s).grows

theorem speed_of_nothing : unsgn 32 (clamp (roundR (0 * 65536)) (-2147483648) 2147483647) % 2 ^ 32 = 0 := by decide +kernel

end

end Sys2Proof.Proofs
end

section
open Sys2Proof Sys2Proof.Machine
namespace Sys2Proof.Proofs
/-! STANDSTILL and the 10 µs update of the estimates: O21. -/

section
variable {s x y z : State} {t n : Nat}

/-- The state with a speed. -/
def withSpeed (s : State) (v : Rat) : State := { s with web := { s.web with speed := v } }

theorem speedUpdate_stands (h : (s.enc s.selEnc).state ≠ 2) : s.speedUpdate = withSpeed s 0 :=
  if_pos (by simpa only [bne_iff_ne] using h)

/-- The acceleration is no part of what is kept here. -/
theorem accKeep_kept (s : State) : WebKept [] s s.accKeep := webKept_ite (webKept_refl _ s) (webKept_same (webKept_refl _ s) rfl rfl)

theorem accUpdate_kept (s : State) : WebKept [] s s.accUpdate := webKept_same (webKept_refl _ s) rfl rfl

theorem histPush_kept (ws : List Nat) (s : State) : WebKept ws s s.histPush := webKept_same (webKept_refl _ s) rfl rfl

theorem grows_binFlush (s : State) : Grows s s.binFlush := by
  simp only [State.binFlush]
  split
  · exact Grows.refl s
  · exact (grows_agate s _).trans (grows_record _ _ _ _)

/-! An encoder that stands. -/

theorem stillOne_stands (hs : (s.enc n).state ≠ 0)
    (hp : s.past ((s.enc n).counts.headD 0) (s.get WP_SPD_CFG_STILL_MS * 1000000) = true) :
    s.stillOne n = s.modEnc n fun e => { e with state := 0, counts := [], since := 0, sinceZ := none } := by
  have due : ((s.enc n).state != 0 && s.past ((s.enc n).counts.headD 0) (s.get WP_SPD_CFG_STILL_MS * 1000000)) = true := by
    rw [hp, bne_iff_ne.2 hs]
    rfl
  exact if_pos due

theorem accKeep_selEnc (s : State) : s.accKeep.selEnc = s.selEnc := by
  rw [State.accKeep]
  split <;> rfl

/-- Where the selected encoder does not move, the speed reads 0. -/
theorem speedFollow_stands (h : (s.enc s.selEnc).state ≠ 2) (k : WebKept encoWords s.speedFollow y) :
    y.web.speed = 0 ∧ y.get WP_SPEED_VALUE = 0 ∧ y.get WP_MOTION_SPEED_STATE = (s.enc s.selEnc).state % 4 ∧
      y.web.p = s.web.p ∧ y.web.q = s.web.q ∧ y.web.encs = s.web.encs := by
  have kept := accKeep_kept (withSpeed s 0)
  have follow : s.speedFollow = (withSpeed s 0).accKeep.webFollow := by rw [State.speedFollow, speedUpdate_stands h]
  rw [follow] at k
  obtain ⟨value, state, -⟩ := webFollow_shows _ k
  obtain ⟨speed, p, q, encs⟩ := webFollow_web _ k
  have stands : (withSpeed s 0).accKeep.web.speed = 0 := kept.speed
  rw [stands, speed_of_nothing] at value
  rw [accKeep_selEnc, kept.enc] at state
  exact ⟨speed.trans stands, value, state, p.trans kept.p, q.trans kept.q, encs.trans kept.encs⟩

theorem selEnc_of_rest (r : Rest x y) : y.selEnc = x.selEnc := by
  have web : { y.web with pins := [] } = { x.web with pins := [] } := congrArg State.web r.bare
  have sec : y.web.onSec = x.web.onSec := (congrArg Web.onSec web :)
  rw [State.selEnc, State.selEnc, sec, r.get _ (by decide), r.get _ (by decide)]

/-- The encoder `n` found without a count for STILL_MS. -/
def stilled (s : State) (n : Nat) : State :=
  s.modEnc n fun e => { e with state := 0, counts := [], since := 0, sinceZ := none }

theorem stilled_state (hl : n < s.web.encs.length) : ((stilled s n).enc n).state = 0 := by
  rw [stilled, enc_modEnc, if_pos ⟨rfl, hl⟩]

/-- The same with 0x2106 where it is the selected encoder, and has been moving. -/
def stillTold (s : State) (n : Nat) : State :=
  if n = s.selEnc ∧ (s.enc n).state = 2 then (stilled s n).raise 0x2106 0 0 0 else stilled s n

theorem rest_stillTold : Rest (stilled s n) (stillTold s n) := by
  rw [stillTold]
  split
  · exact rest_raise _ _ _ _ _
  · exact Rest.refl _

theorem exec_standstill (hc : s.core = .running) (hn : n < 4) (hl : n < s.web.encs.length) (hs : (s.enc n).state ≠ 0)
    (hp : (s.advance t).past ((s.enc n).counts.headD 0) (s.get WP_SPD_CFG_STILL_MS * 1000000) = true) :
    exec (.standstill t n) s = .next ((if n = s.selEnc then (stillTold (s.advance t) n).speedFollow
      else stillTold (s.advance t) n).whenRunning settle) := by
  have still : (s.advance t).stillOne n = stilled (s.advance t) n := stillOne_stands hs hp
  have state : ((stilled (s.advance t) n).enc n).state = 0 := stilled_state hl
  have sel : (stilled (s.advance t) n).selEnc = s.selEnc := rfl
  show execStandstill t n s = _
  rw [execStandstill, run_on hc, if_pos hn]
  simp only [still, state, sel, and_true]
  have told : (if n = s.selEnc ∧ ((s.advance t).enc n).state = 2 then (stilled (s.advance t) n).raise 0x2106 0 0 0
      else stilled (s.advance t) n) = stillTold (s.advance t) n := rfl
  rw [told, selEnc_of_rest rest_stillTold, sel]

theorem grows_stillTold : Grows (stilled s n) (stillTold s n) := by
  rw [stillTold]
  split
  · exact grows_raise _ _ _ _ _
  · exact Grows.refl _

theorem untold_stilled (s : State) (n : Nat) : Untold s (stilled s n) := ⟨rfl, rfl, rfl⟩

/-- A selected encoder that moved is told of. -/
theorem stillTold_reports (h : n = s.selEnc) (moved : (s.enc n).state = 2) : Reports s (stillTold s n) 0x2106 0 0 0 := by
  rw [stillTold, if_pos ⟨h, moved⟩]
  exact (untold_stilled s n).reports _ _ _ _

theorem grows_withSpeed (s : State) (v : Rat) : Grows s (withSpeed s v) := .of_eq rfl

theorem grows_speedFollow_stands (h : (s.enc s.selEnc).state ≠ 2) : Grows s s.speedFollow := by
  rw [State.speedFollow, speedUpdate_stands h]
  exact ((grows_withSpeed s 0).trans (accKeep_kept (withSpeed s 0)).grows).trans (grows_webFollow _)

theorem stillTold_kept (s : State) (n : Nat) : WebKept [] (stilled s n) (stillTold s n) :=
  webKept_of_rest (webKept_refl [] _) rest_stillTold grows_stillTold

theorem stillTold_state (hl : n < s.web.encs.length) : ((stillTold s n).enc n).state = 0 := by
  rw [(stillTold_kept s n).enc, stilled_state hl]

theorem stillTold_selEnc (s : State) (n : Nat) : (stillTold s n).selEnc = s.selEnc := (selEnc_of_rest rest_stillTold).trans rfl

/-- The estimate that follows where the selected encoder stands. -/
theorem standstill_selected (hsel : n = s.selEnc) (hl : n < s.web.encs.length)
    (k : WebKept encoWords (stillTold s n).speedFollow y) :
    (y.enc n).state = 0 ∧ (y.web.speed = 0 ∧ y.get WP_SPEED_VALUE = 0 ∧ y.get WP_MOTION_SPEED_STATE = 0) ∧
      ((s.enc n).state = 2 → Reports s y 0x2106 0 0 0) ∧ y.web.p = s.web.p ∧ y.web.q = s.web.q := by
  have told := stillTold_kept s n
  have stands : ((stillTold s n).enc (stillTold s n).selEnc).state = 0 := by
    rw [stillTold_selEnc, ← hsel, stillTold_state hl]
  have still : ((stillTold s n).enc (stillTold s n).selEnc).state ≠ 2 := by rw [stands]; decide
  obtain ⟨speed, value, shown, p, q, encs⟩ := speedFollow_stands still k
  rw [stands] at shown
  refine ⟨?_, ⟨speed, value, shown⟩, fun moved => ?_, p.trans told.p, q.trans told.q⟩
  · rw [State.enc, encs]
    exact stillTold_state hl
  · exact ((stillTold_reports hsel moved).grows (grows_speedFollow_stands still)).grows k.grows

theorem standstill_effect (hc : s.core = .running) (hn : n < 4) (hl : n < s.web.encs.length) (hs : (s.enc n).state ≠ 0)
    (hp : (s.advance t).past ((s.enc n).counts.headD 0) (s.get WP_SPD_CFG_STILL_MS * 1000000) = true) :
    ∃ s', exec (.standstill t n) s = .next s' ∧ (s'.enc n).state = 0 ∧
      (n = s.selEnc → s'.web.speed = 0 ∧ s'.get WP_SPEED_VALUE = 0 ∧ s'.get WP_MOTION_SPEED_STATE = 0) ∧
      (n = s.selEnc → (s.enc n).state = 2 → Reports (s.advance t) s' 0x2106 0 0 0) ∧
      s'.web.p = s.web.p ∧ s'.web.q = s.web.q := by
  refine ⟨_, exec_standstill hc hn hl hs hp, ?_⟩
  by_cases hsel : n = s.selEnc
  · rw [if_pos hsel]
    obtain ⟨state, stands, told, p, q⟩ := standstill_selected (s := s.advance t) hsel hl
      (webKept_whenRunning (webKept_refl encoWords _))
    exact ⟨state, fun _ => stands, fun _ => told, p, q⟩
  · rw [if_neg hsel]
    have kept := (stillTold_kept (s.advance t) n).trans (webKept_whenRunning (webKept_refl [] _))
    exact ⟨by rw [kept.enc]; exact stilled_state hl, fun h => absurd h hsel, fun h => absurd h hsel, kept.p, kept.q⟩

/-! The estimates' update. -/

theorem exec_estimateUpdate (hc : s.core = .running) (hm : s.get AG_RP_STAT_MODE ≠ 2) : ∃ s',
    exec (.estimateUpdate t) s = .next s' ∧ WebKept encoWords (s.advance t).speedUpdate.accUpdate.webFollow s' := by
  have live : (s.advance t).replayStep = s.advance t := replayStep_live hm
  refine ⟨_, run_on hc, webKept_whenRunning ?_⟩
  rw [live]
  have pushed := histPush_kept encoWords (s.advance t).speedUpdate.accUpdate.webFollow
  exact webKept_ite (webKept_of_rest pushed (rest_binFlush _) (grows_binFlush _)) pushed

/-- The estimate by the count method, as the window of the last counts gives it. -/
theorem speedUpdate_counts {last first : Nat} {l : List Nat} {e : Enc} (he : e = s.enc s.selEnc) (hs : e.state = 2)
    (hf : e.fwd = true) (hh : e.counts.head? = some last)
    (hw : (e.counts.filter fun a => decide (last ≤ a + s.get WP_SPD_CFG_WIN_US * 1000)) = l) (hg : l.getLast? = some first)
    (hu : s.get WP_SPD_CFG_SW_UP ≤ l.length) (hd : s.get WP_SPD_CFG_SW_DN ≤ s.get WP_SPD_CFG_SW_UP) (hlt : first < last)
    (hn : last < s.now) :
    s.speedUpdate = withSpeed (s.flag WP_MOTION_METHOD true) (min
      (((((l.length - 1) * s.scaleOf s.selEnc : Nat) : Rat) / 65536) / (((last - first : Nat) : Rat) / 1000))
      (((s.scaleOf s.selEnc : Rat) / 65536) / (((s.now - last : Nat) : Rat) / 1000))) := by
  subst he
  have head : (s.enc s.selEnc).counts.headD 0 = last := by rw [List.headD_eq_head?_getD, hh]; rfl
  have raw : s.speedRaw (s.enc s.selEnc) (s.scaleOf s.selEnc) = (true, some
      (((((l.length - 1) * s.scaleOf s.selEnc : Nat) : Rat) / 65536) / (((last - first : Nat) : Rat) / 1000))) := by
    have enough : (if s.is WP_MOTION_METHOD then decide (s.get WP_SPD_CFG_SW_DN ≤ l.length)
        else decide (s.get WP_SPD_CFG_SW_UP ≤ l.length)) = true := by
      split <;> exact decide_eq_true (by omega)
    simp only [State.speedRaw, head, hw, enough, if_true, hg, Option.getD_some, speedOver, if_pos hlt, usBetween]
  have moving : ((s.enc s.selEnc).state != 2) = false := by rw [hs]; rfl
  simp only [State.speedUpdate, moving, Bool.false_eq_true, if_false, raw, head, if_pos hn, hf, if_true, usBetween]
  rw [withSpeed, min_comm, min_def_lt]

/-- An updated estimate shown: its speed and method, over the position and encoders as they were. -/
theorem estimate_shown {v : Rat} (k : WebKept encoWords (withSpeed s v).accUpdate.webFollow y) : y.web.speed = v ∧
    y.get WP_SPEED_VALUE = unsgn 32 (clamp (roundR (v * 65536)) (-2147483648) 2147483647) % 2 ^ 32 ∧
      y.get WP_MOTION_METHOD = s.get WP_MOTION_METHOD ∧ y.web.p = s.web.p ∧ y.web.q = s.web.q ∧ y.web.encs = s.web.encs := by
  have kept := accUpdate_kept (withSpeed s v)
  obtain ⟨value, -, method⟩ := webFollow_shows _ k
  obtain ⟨speed, p, q, encs⟩ := webFollow_web _ k
  have given : (withSpeed s v).accUpdate.web.speed = v := kept.speed
  rw [given] at value
  exact ⟨speed.trans given, value, method.trans (kept.get (by decide) (by decide) (by decide)), p.trans kept.p, q.trans kept.q,
    encs.trans kept.encs⟩

/-- Settles O21: what follows a change of the estimates shows the speed and leaves the position (`webFollow_shows`,
`webFollow_web`); the speed itself is 0 where the selected encoder does not move (`speedUpdate_stands`), and by the count method the
smaller of the window's and the limit (`speedUpdate_counts`). -/
theorem standstillSpeed : Obligations.StandstillSpeed := by
  unfold Obligations.StandstillSpeed
  intro t n s hc
  refine ⟨fun hn hl hs hp => standstill_effect hc hn hl hs hp, fun hs hm => ?_, ?_⟩
  · obtain ⟨s', he, k⟩ := exec_estimateUpdate (t := t) hc hm
    have stands : (s.advance t).speedUpdate = withSpeed (s.advance t) 0 := speedUpdate_stands hs
    rw [stands] at k
    obtain ⟨speed, value, -, p, q, encs⟩ := estimate_shown k
    exact ⟨s', he, speed, value.trans speed_of_nothing, p, q, encs⟩
  · intro last first hm hs hf hh hg hu hd hlt hn
    obtain ⟨s', he, k⟩ := exec_estimateUpdate (t := t) hc hm
    have counts := speedUpdate_counts (s := s.advance t) rfl hs hf hh rfl hg hu hd hlt hn
    rw [counts] at k
    obtain ⟨speed, -, method, p, q, encs⟩ := estimate_shown k
    exact ⟨s', he, method.trans (get_put_same _ _ _ (by decide) (by decide)), speed, p, q, encs⟩

end

end Sys2Proof.Proofs
end

section
open Sys2Proof Sys2Proof.Machine
namespace Sys2Proof.Proofs
/-! What the position of a device time rests on, and with it the edges an emulated output has due (R187, R192). -/

section
variable {s x y : State} {n at_ : Nat}

/-- The web without its probes, its emulated outputs and the levels on their pins. -/
def located (w : Web) : Web := { w with probes := [], encos := [], pins := [] }

/-- From one state to the other what the position rests on, and the device time, are as they were. -/
structure Located (s x : State) : Prop where
  web : located x.web = located s.web
  words : ∀ a, 0x040000 ≤ a → a < 0x040200 → x.rd a = s.rd a
  now : x.now = s.now

theorem located_put {f : Fld} {v : Nat} (hf : 0x040200 ≤ f.addr) (ht : TB_OFS_CFG ≠ f.addr) : Located s (s.put f v) :=
  ⟨rfl, fun a _ hh => rd_put_ne _ _ _ (by omega), wr_now _ _ _ ht⟩

theorem now_of_rest (r : Rest x y) : y.now = x.now := by
  have tb : y.tb = x.tb := (congrArg State.tb r.bare :)
  have frc : y.frc = x.frc := (congrArg State.frc r.bare :)
  have gain : y.slewGain = x.slewGain := by rw [State.slewGain, State.slewGain, tb, frc, r.get _ (by decide)]
  rw [State.now, State.now, State.devU, State.devU, tb, frc, gain]

theorem Located.get (h : Located s x) {f : Fld} (hl : 0x040000 ≤ f.addr) (hh : f.addr < 0x040200) : x.get f = s.get f :=
  congrArg (bits · f.hi f.lo) (h.words _ hl hh)

theorem Located.selEnc (h : Located s x) : x.selEnc = s.selEnc := by
  have sec : x.web.onSec = s.web.onSec := (congrArg Web.onSec h.web :)
  rw [State.selEnc, State.selEnc, sec, h.get (by decide) (by decide), h.get (by decide) (by decide)]

theorem selEnc_lt (s : State) : s.selEnc < 4 := by
  rw [State.selEnc]
  split <;> exact get_lt s _

theorem Located.scaleOf (h : Located s x) (hn : n < 4) : x.scaleOf n = s.scaleOf n := by
  rw [State.scaleOf, State.scaleOf]
  refine h.get ?_ ?_ <;> simp only [WP_ENC_SCALE] <;> omega

theorem Located.posAt (h : Located s x) : x.posAt at_ = s.posAt at_ := by
  have encs : x.web.encs = s.web.encs := (congrArg Web.encs h.web :)
  have speed : x.web.speed = s.web.speed := (congrArg Web.speed h.web :)
  have p : x.web.p = s.web.p := (congrArg Web.p h.web :)
  have pAt : x.web.pAt = s.web.pAt := (congrArg Web.pAt h.web :)
  have was : x.web.was = s.web.was := (congrArg Web.was h.web :)
  simp only [State.posAt, State.enc, h.selEnc, h.scaleOf (selEnc_lt s), encs, speed, p, pAt, was]
  rfl

theorem Located.qInterp (h : Located s x) : x.qInterp = s.qInterp := by
  have q : x.web.q = s.web.q := (congrArg Web.q h.web :)
  rw [State.qInterp, State.qInterp, h.now, h.posAt, q]

end

end Sys2Proof.Proofs
end

section
open Sys2Proof Sys2Proof.Machine
namespace Sys2Proof.Proofs
/-! An edge at a probe (R189, R190). -/

section
variable {s x y : State} {n at_ t ago : Nat} {rising : Bool} {pos : Int}

theorem probe_modProbe (x : State) (m : Nat) (f : Probe → Probe) :
    (x.modProbe m f).probe n = if m = n ∧ n < x.web.probes.length then f (x.probe n) else x.probe n := getD_modAt ..

theorem probes_of_rest (r : Rest x y) : y.web.probes = x.web.probes := by
  have web : { y.web with pins := [] } = { x.web with pins := [] } := congrArg State.web r.bare
  exact (congrArg Web.probes web :)

theorem located_level : Located s (s.flag (WP_PRB_STAT_LEVEL n) rising) :=
  located_put (by simp only [WP_PRB_STAT]; omega) (by simp only [WP_PRB_STAT, TB_OFS_CFG]; omega)

theorem get_level {f : Fld} (hf : f.addr ≠ WP_PRB_STAT n) : (s.flag (WP_PRB_STAT_LEVEL n) rising).get f = s.get f :=
  get_put_ne _ _ _ _ hf

theorem prb_cfg_ne_stat (m n : Nat) : WP_PRB_CFG m ≠ WP_PRB_STAT n := by
  simp only [WP_PRB_CFG, WP_PRB_STAT]
  omega

theorem motion_ne_prb_stat (n : Nat) : WP_MOTION ≠ WP_PRB_STAT n := by
  simp only [WP_MOTION, WP_PRB_STAT]
  omega

/-- A latch as the FIFO holds it. -/
def latchOf (s : State) (n at_ : Nat) (rising : Bool) : ProbeEntry :=
  ⟨at_, (s.posAt at_).floor, rising, s.is WP_MOTION_DIR_STATE, (s.probe n).lostRun⟩

/-- What a latch is recorded over: the level and the place as the probe's last. -/
def probeSeen (s : State) (n at_ : Nat) (rising : Bool) : State :=
  (s.flag (WP_PRB_STAT_LEVEL n) rising).modProbe n fun p => { p with lastPos := some (s.posAt at_).floor }

/-- A latch in the FIFO. -/
def probeStored (x : State) (n : Nat) (e : ProbeEntry) : State :=
  (x.modProbe n fun p => { p with fifo := p.fifo ++ [e], lostRun := false }).inc (WP_PRB_STAT_ENTRIES n)

/-- A latch that found the FIFO full, and the first of a run told of. -/
def probeLost (x : State) (n : Nat) : State := (x.modProbe n fun p => { p with lostRun := true }).inc (WP_PRB_STAT_OVF n)

def lostTold (x : State) (n : Nat) : State := if (x.probe n).lostRun then probeLost x n else (probeLost x n).raise 0x2107 n 0 0

theorem probeEdge_blanked {p : Int} (he : edgeChosen (s.get (WP_PRB_CFG_EDGE n)) rising = true)
    (hp : (s.probe n).lastPos = some p) (hb : (s.posAt at_).floor - p < (s.get (WP_PRB_CFG_BLANK n) * 64 : Nat)) :
    s.probeEdge n rising at_ = (none, (s.flag (WP_PRB_STAT_LEVEL n) rising).inc (WP_PRB_STAT_IGNORED n)) := by
  have last : ((s.flag (WP_PRB_STAT_LEVEL n) rising).probe n).lastPos = some p := hp
  simp only [State.probeEdge, get_level (f := WP_PRB_CFG_EDGE n) (prb_cfg_ne_stat n n), he, Bool.not_true, Bool.false_eq_true,
    if_false, located_level.posAt, last, get_level (f := WP_PRB_CFG_BLANK n) (prb_cfg_ne_stat n n), decide_eq_true hb, if_true]

/-- What a probe's place as its last leaves of the probe. -/
theorem probeSeen_probe : ((probeSeen s n at_ rising).probe n).fifo = (s.probe n).fifo ∧
    ((probeSeen s n at_ rising).probe n).lostRun = (s.probe n).lostRun := by
  rw [probeSeen, probe_modProbe]
  split <;> exact ⟨rfl, rfl⟩

theorem grows_probeSeen : Grows s (probeSeen s n at_ rising) :=
  (grows_put s (WP_PRB_STAT_LEVEL n) (b2n rising)).trans (.of_eq rfl)

theorem probeEdge_latch (he : edgeChosen (s.get (WP_PRB_CFG_EDGE n)) rising = true)
    (hb : ∀ p, (s.probe n).lastPos = some p → (s.get (WP_PRB_CFG_BLANK n) * 64 : Nat) ≤ (s.posAt at_).floor - p) :
    ∃ x, Rest (probeSeen s n at_ rising) x ∧ Grows (probeSeen s n at_ rising) x ∧
      (s.probeEdge n rising at_).2 =
        if 16 ≤ (s.probe n).fifo.length then lostTold x n else probeStored x n (latchOf s n at_ rising) := by
  have level : (s.flag (WP_PRB_STAT_LEVEL n) rising).probe n = s.probe n := rfl
  have back : (s.flag (WP_PRB_STAT_LEVEL n) rising).is WP_MOTION_DIR_STATE = s.is WP_MOTION_DIR_STATE := by
    rw [State.is, State.is, get_level (motion_ne_prb_stat n)]
  simp only [State.probeEdge, get_level (f := WP_PRB_CFG_EDGE n) (prb_cfg_ne_stat n n), he, Bool.not_true, Bool.false_eq_true,
    if_false, located_level.posAt, get_level (f := WP_PRB_CFG_BLANK n) (prb_cfg_ne_stat n n), level, back, decide_eq_true_eq]
  rw [if_neg]
  · generalize hx : State.record (State.modProbe _ _ _) _ _ _ = x
    have seen : Rest (probeSeen s n at_ rising) x := hx ▸ rest_record ..
    have lostRun : (x.probe n).lostRun = (s.probe n).lostRun := by
      rw [State.probe, probes_of_rest seen]
      exact probeSeen_probe.2
    refine ⟨x, seen, hx ▸ grows_record .., ?_⟩
    by_cases full : 16 ≤ (s.probe n).fifo.length
    · simp only [if_pos full, lostTold, probeLost, Bool.not_eq_true']
      cases (x.probe n).lostRun
      · simp only [if_true, Bool.false_eq_true, if_false]
      · simp only [if_true, Bool.true_eq_false, if_false]
    · simp only [if_neg full, decide_eq_false full, Bool.not_false, Bool.and_true, probeStored, latchOf]
  · split
    · exact Bool.false_ne_true
    · next p last => exact fun h => absurd (hb p last) (Int.not_le.2 (of_decide_eq_true h))

theorem exec_probeEdge_blanked {p : Int} (hc : s.core = .running) (hn : n < 4) (hm : s.get AG_RP_STAT_MODE ≠ 2)
    (he : edgeChosen (s.get (WP_PRB_CFG_EDGE n)) rising = true) (hp : (s.probe n).lastPos = some p)
    (hb : ((s.advance t).posAt ((s.advance t).now - ago)).floor - p < (s.get (WP_PRB_CFG_BLANK n) * 64 : Nat)) :
    ∃ s', exec (.probeEdge t n rising ago) s = .next s' ∧
      Rest (((s.advance t).put (WP_PRB_STAT_LEVEL n) (b2n rising)).put (WP_PRB_STAT_IGNORED n)
        (s.get (WP_PRB_STAT_IGNORED n) + 1)) s' := by
  have edge := probeEdge_blanked (s := s.advance t) he hp hb
  rw [State.inc, State.add, State.flag, get_put_apart _ _ _ _ (by simp) (by simp) (.inl (by simp)), get_advance] at edge
  refine run_rest hc ?_
  have taken : (s.advance t).get AG_RP_STAT_MODE ≠ 2 ∧ n < 4 := ⟨hm, hn⟩
  simp only [if_pos taken, edge]
  exact Rest.refl _

/-- A latch may start a page, which changes nothing of the web. -/
theorem exec_probeEdge (hc : s.core = .running) (hn : n < 4) (hm : s.get AG_RP_STAT_MODE ≠ 2) : ∃ s',
    exec (.probeEdge t n rising ago) s = .next s' ∧
      WebKept [] ((s.advance t).probeEdge n rising ((s.advance t).now - ago)).2 s' := by
  refine ⟨_, run_on hc, webKept_whenRunning ?_⟩
  have taken : (s.advance t).get AG_RP_STAT_MODE ≠ 2 ∧ n < 4 := ⟨hm, hn⟩
  simp only [if_pos taken]
  split
  · exact webKept_marksSettle (webKept_same (webKept_refl _ _) rfl rfl)
  · exact webKept_refl _ _

/-- The entries of a probe as a state keeps them. -/
theorem WebKept.probe {ws : List Nat} (k : WebKept ws x y) : y.probe n = x.probe n := by rw [State.probe, State.probe, k.probes]

/-- The level, the counters and the entry of a probe whose edge is latched. -/
theorem probeSeen_rest (hn : n < 4) (hl : n < s.web.probes.length) (r : Rest (probeSeen s n at_ rising) x) :
    (x.probe n).fifo = (s.probe n).fifo ∧ (x.probe n).lostRun = (s.probe n).lostRun ∧ n < x.web.probes.length ∧
      x.get (WP_PRB_STAT_LEVEL n) = b2n rising ∧ x.get (WP_PRB_STAT_ENTRIES n) = s.get (WP_PRB_STAT_ENTRIES n) ∧
      x.get (WP_PRB_STAT_OVF n) = s.get (WP_PRB_STAT_OVF n) ∧ x.get (WP_PRB_STAT_IGNORED n) = s.get (WP_PRB_STAT_IGNORED n) := by
  have probes := probes_of_rest r
  have length : (probeSeen s n at_ rising).web.probes.length = s.web.probes.length := List.length_modify ..
  have stat (f : Fld) (hf : f.addr = WP_PRB_STAT n) : x.get f = (s.flag (WP_PRB_STAT_LEVEL n) rising).get f := by
    refine r.get f (web_not_shown ?_ ?_) <;> rw [hf] <;> simp only [WP_PRB_STAT] <;> omega
  have apart (f : Fld) (hf : f.addr = WP_PRB_STAT n) (h : 0 < f.lo) : x.get f = s.get f :=
    (stat f hf).trans (get_put_apart _ _ _ _ (by simp) (by simp) (.inl h))
  refine ⟨?_, ?_, by rw [probes, length]; exact hl, ?_, apart _ rfl (by simp), apart _ rfl (by simp), apart _ rfl (by simp)⟩
  · rw [State.probe, probes]
    exact probeSeen_probe.1
  · rw [State.probe, probes]
    exact probeSeen_probe.2
  · rw [stat _ rfl, State.flag, get_put_same _ _ _ (by simp) (by simp)]
    exact Nat.mod_eq_of_lt (b2n_lt rising)

theorem probeStored_shows {e : ProbeEntry} (hl : n < x.web.probes.length) :
    ((probeStored x n e).probe n).fifo = (x.probe n).fifo ++ [e] ∧ ((probeStored x n e).probe n).lostRun = false ∧
      (probeStored x n e).get (WP_PRB_STAT_ENTRIES n) = (x.get (WP_PRB_STAT_ENTRIES n) + 1) % 32 ∧
      ∀ f : Fld, f.hi < 4 ∨ 8 < f.lo → (probeStored x n e).get f = x.get f := by
  have entry : (probeStored x n e).probe n = { x.probe n with fifo := (x.probe n).fifo ++ [e], lostRun := false } := by
    rw [State.probe, probeStored, State.inc, State.add, put_web]
    exact (probe_modProbe x n _).trans (if_pos ⟨rfl, hl⟩)
  rw [entry]
  exact ⟨rfl, rfl, get_put_same _ _ _ (by simp) (by simp), fun f hf => get_put_apart _ _ _ _ (by simp) (by simp) hf.symm⟩

theorem probeLost_shows (hl : n < x.web.probes.length) :
    ((probeLost x n).probe n).fifo = (x.probe n).fifo ∧ ((probeLost x n).probe n).lostRun = true ∧
      (probeLost x n).get (WP_PRB_STAT_OVF n) = (x.get (WP_PRB_STAT_OVF n) + 1) % 2 ^ 8 ∧
      ∀ f : Fld, f.hi < 24 → (probeLost x n).get f = x.get f := by
  have entry : (probeLost x n).probe n = { x.probe n with lostRun := true } := by
    rw [State.probe, probeLost, State.inc, State.add, put_web]
    exact (probe_modProbe x n _).trans (if_pos ⟨rfl, hl⟩)
  rw [entry]
  exact ⟨rfl, rfl, get_put_same _ _ _ (by simp) (by simp), fun f hf => get_put_apart _ _ _ _ (by simp) (by simp) (.inr hf)⟩

theorem lostTold_kept : WebKept [] (probeLost x n) (lostTold x n) :=
  webKept_ite (webKept_refl _ _) (webKept_raise (webKept_refl _ _))

/-- An event raised after others. -/
theorem raises_after {code a0 a1 a2 : Nat} (h : Grows s x) : Raises s (x.raise code a0 a1 a2) (code % 0x10000) (a0 % 0x10000) := by
  obtain ⟨l, hl⟩ := h
  obtain ⟨more, hm⟩ := raise_reports x code a0 a1 a2
  refine ⟨l ++ x.eventNext code a0 a1 a2 :: more, ?_, _, List.mem_append_right _ List.mem_cons_self, rfl, rfl⟩
  rw [hm, hl, ringAll, ringAll, ringAll, List.foldl_append]

theorem raises_grows {code a0 : Nat} (h : Raises s x code a0) (k : Grows x y) : Raises s y code a0 := by
  obtain ⟨l, hl, e, he, of⟩ := h
  obtain ⟨more, hm⟩ := k
  refine ⟨l ++ more, ?_, e, List.mem_append_left _ he, of⟩
  rw [hm, hl, ringAll, ringAll, ringAll, List.foldl_append]

theorem lostTold_raises (hn : n < 4) (h : Grows s x) (hr : (x.probe n).lostRun = false) : Raises s (lostTold x n) 0x2107 n := by
  have lost : Grows s (probeLost x n) := h.trans (.of_eq (put_events ..))
  have told := raises_after lost (code := 0x2107) (a0 := n) (a1 := 0) (a2 := 0)
  rw [Nat.mod_eq_of_lt (show n < 0x10000 by omega)] at told
  rw [lostTold, hr]
  exact told

theorem probe_advance (t n : Nat) (s : State) : (s.advance t).probe n = s.probe n := rfl

/-- A probe register as what follows an edge keeps it. -/
theorem WebKept.prb (k : WebKept [] x y) {f : Fld} (hn : n < 4) (hf : f.addr = WP_PRB_STAT n) : y.get f = x.get f := by
  refine k.get ?_ ?_ List.not_mem_nil <;> rw [hf] <;> simp only [WP_PRB_STAT] <;> omega

section
variable (hc : s.core = .running) (hn : n < 4) (hl : n < s.web.probes.length) (hm : s.get AG_RP_STAT_MODE ≠ 2)
  (he : edgeChosen (s.get (WP_PRB_CFG_EDGE n)) rising = true)
  (hb : ∀ p, (s.probe n).lastPos = some p →
    (s.get (WP_PRB_CFG_BLANK n) * 64 : Nat) ≤ ((s.advance t).posAt ((s.advance t).now - ago)).floor - p)
include hc hn hl hm he hb

theorem probeEdge_stored (room : (s.probe n).fifo.length < 16) :
    ∃ s', exec (.probeEdge t n rising ago) s = .next s' ∧
      (s'.probe n).fifo = (s.probe n).fifo ++ [latchOf (s.advance t) n ((s.advance t).now - ago) rising] ∧
      (s'.probe n).lostRun = false ∧ s'.get (WP_PRB_STAT_LEVEL n) = b2n rising ∧
      s'.get (WP_PRB_STAT_ENTRIES n) = (s.get (WP_PRB_STAT_ENTRIES n) + 1) % 32 ∧
      s'.get (WP_PRB_STAT_OVF n) = s.get (WP_PRB_STAT_OVF n) ∧
      s'.get (WP_PRB_STAT_IGNORED n) = s.get (WP_PRB_STAT_IGNORED n) := by
  obtain ⟨x, r, -, edge⟩ := probeEdge_latch (s := s.advance t) he hb
  obtain ⟨s', next, k⟩ := exec_probeEdge (t := t) (ago := ago) (rising := rising) hc hn hm
  obtain ⟨fifo, -, length, level, entries, ovf, ignored⟩ := probeSeen_rest (s := s.advance t) hn hl r
  rw [edge, probe_advance, if_neg (Nat.not_le.2 room)] at k
  obtain ⟨stored, run, counted, others⟩ :=
    probeStored_shows (e := latchOf (s.advance t) n ((s.advance t).now - ago) rising) length
  refine ⟨s', next, ?_, ?_, ?_, ?_, ?_, ?_⟩
  · rw [k.probe, stored, fifo, probe_advance]
  · rw [k.probe, run]
  · rw [k.prb hn rfl, others _ (.inl (by simp)), level]
  · rw [k.prb hn rfl, counted, entries, get_advance]
  · rw [k.prb hn rfl, others _ (.inr (by simp)), ovf, get_advance]
  · rw [k.prb hn rfl, others _ (.inr (by simp)), ignored, get_advance]

theorem probeEdge_lost (full : 16 ≤ (s.probe n).fifo.length) :
    ∃ s', exec (.probeEdge t n rising ago) s = .next s' ∧ (s'.probe n).fifo = (s.probe n).fifo ∧
      (s'.probe n).lostRun = true ∧ s'.get (WP_PRB_STAT_OVF n) = (s.get (WP_PRB_STAT_OVF n) + 1) % 2 ^ 8 ∧
      s'.get (WP_PRB_STAT_ENTRIES n) = s.get (WP_PRB_STAT_ENTRIES n) ∧
      ((s.probe n).lostRun = false → Raises s s' 0x2107 n) := by
  obtain ⟨x, r, grows, edge⟩ := probeEdge_latch (s := s.advance t) he hb
  obtain ⟨s', next, k⟩ := exec_probeEdge (t := t) (ago := ago) (rising := rising) hc hn hm
  obtain ⟨fifo, lostRun, length, -, entries, ovf, -⟩ := probeSeen_rest (s := s.advance t) hn hl r
  rw [edge, probe_advance, if_pos full] at k
  obtain ⟨kept, run, counted, others⟩ := probeLost_shows length
  have lost := lostTold_kept.trans k
  refine ⟨s', next, ?_, ?_, ?_, ?_, fun first => ?_⟩
  · rw [lost.probe, kept, fifo, probe_advance]
  · rw [lost.probe, run]
  · rw [lost.prb hn rfl, counted, ovf, get_advance]
  · rw [lost.prb hn rfl, others _ (by simp), entries, get_advance]
  · have seen : Grows s x := ((Grows.of_eq (advance_events t s)).trans grows_probeSeen).trans grows
    exact raises_grows (lostTold_raises hn seen (lostRun.trans first)) k.grows

end

end

end Sys2Proof.Proofs
end

section
open Sys2Proof Sys2Proof.Machine
namespace Sys2Proof.Proofs
/-! An edge of an emulated output (R192, R193). -/

section
variable {s x y : State} {n t : Nat}

theorem enco_modEnco (x : State) (m : Nat) (f : Enco → Enco) :
    (x.modEnco m f).enco n = if m = n ∧ n < x.web.encos.length then f (x.enco n) else x.enco n := getD_modAt ..

/-- From one state to the other the position, the other outputs and every register but the output's STAT are as they were. -/
structure EncoKept (n : Nat) (s x : State) : Prop where
  web : located x.web = located s.web
  now : x.now = s.now
  words : ∀ a, a ∉ shown → a ≠ WP_ENCO_STAT n → x.rd a = s.rd a
  others : ∀ m, m ≠ n → x.enco m = s.enco m
  length : x.web.encos.length = s.web.encos.length

theorem EncoKept.trans (h : EncoKept n s x) (k : EncoKept n x y) : EncoKept n s y where
  web := k.web.trans h.web
  now := k.now.trans h.now
  words a ha hn := (k.words a ha hn).trans (h.words a ha hn)
  others m hm := (k.others m hm).trans (h.others m hm)
  length := k.length.trans h.length

theorem EncoKept.position (h : EncoKept n s x) : x.web.p = s.web.p ∧ x.web.q = s.web.q :=
  ⟨(congrArg Web.p h.web :), (congrArg Web.q h.web :)⟩

theorem EncoKept.located (h : EncoKept n s x) : Located s x :=
  ⟨h.web, fun a hl hh => h.words a (web_not_shown hl (by omega)) (by simp only [WP_ENCO_STAT]; omega), h.now⟩

theorem encoKept_of_rest (r : Rest x y) : EncoKept n x y := by
  have web : { y.web with pins := [] } = { x.web with pins := [] } := congrArg State.web r.bare
  have encos : y.web.encos = x.web.encos := (congrArg Web.encos web :)
  exact ⟨(congrArg Proofs.located web :), now_of_rest r, fun a ha _ => r.words a ha,
    fun m _ => by rw [State.enco, State.enco, encos], by rw [encos]⟩

theorem encoKept_put {f : Fld} {v : Nat} (hf : f.addr = WP_ENCO_STAT n) : EncoKept n s (s.put f v) := by
  have time : TB_OFS_CFG ≠ f.addr := by
    rw [hf]
    simp only [TB_OFS_CFG, WP_ENCO_STAT]
    omega
  exact ⟨rfl, wr_now _ _ _ time, fun a _ ha => rd_put_ne _ _ _ (hf ▸ ha), fun _ _ => rfl, rfl⟩

theorem encoKept_modEnco {f : Enco → Enco} : EncoKept n s (s.modEnco n f) :=
  ⟨rfl, rfl, fun _ _ _ => rfl, fun m hm => by rw [enco_modEnco, if_neg fun h => hm h.1.symm], List.length_modify ..⟩

theorem encoKept_encoShow : EncoKept n s (s.encoShow n) := by
  have shown : EncoKept n s (s.put (WP_ENCO_STAT_LAG n) (min (s.encoLag n) 65535)) := encoKept_put rfl
  simp only [State.encoShow]
  split
  · exact ((shown.trans encoKept_modEnco).trans (encoKept_put rfl)).trans (encoKept_of_rest (rest_raise ..))
  · exact shown

/-- An output's own entry but for the page in which 0x2108 was raised. -/
def issued (e : Enco) : Enco := { e with lagPage := none }

theorem issued_encoShow : issued ((s.encoShow n).enco n) = issued (s.enco n) := by
  have noted (l : Option (Option Int)) (x : State) :
      issued ((x.modEnco n fun e => { e with lagPage := l }).enco n) = issued (x.enco n) := by
    rw [enco_modEnco]
    split <;> rfl
  have raised (x : State) : (x.raise 0x2108 n 0 0).enco n = x.enco n := by
    have web : { (x.raise 0x2108 n 0 0).web with pins := [] } = { x.web with pins := [] } :=
      congrArg State.web (rest_raise x 0x2108 n 0 0).bare
    have encos : (x.raise 0x2108 n 0 0).web.encos = x.web.encos := (congrArg Web.encos web :)
    rw [State.enco, State.enco, encos]
  have put (x : State) (f : Fld) (v : Nat) : (x.put f v).enco n = x.enco n := by rw [State.enco, State.enco, put_web]
  simp only [State.encoShow]
  split
  · rw [raised, State.inc, State.add, put, noted, put]
  · rw [put]

/-- Edges an output has due once it has issued `k`, at a distance from its origin. -/
def dueEdges (q origin : Int) (en : Bool) (cpm k : Nat) : Nat :=
  if q - origin < 0 || !en then 0 else ((q - origin).toNat * cpm / 64000000) - k

theorem encoLag_eq (s : State) (n : Nat) : s.encoLag n = dueEdges s.qInterp.floor (s.enco n).origin (s.is (WP_ENCO_CFG_EN n))
    (s.get (WP_ENCO_CPM_CPM n)) (s.enco n).k := rfl

theorem dueEdges_succ (q origin : Int) (en : Bool) (cpm k : Nat) :
    dueEdges q origin en cpm (k + 1) = dueEdges q origin en cpm k - 1 := by
  rw [dueEdges, dueEdges]
  split
  · rfl
  · omega

/-- The edge of an output issued, with its Z. -/
def edgeIssued (x : State) (n k : Nat) (z : Bool × Option Int) : State :=
  x.modEnco n fun e => { e with k := k, phase := (e.phase + 1) % 4, z := z.1, zPage := z.2, lastAt := some x.now }

/-- The next edge of an output that is due. -/
theorem encoEdge_due (hn : n < 2) (en : s.is (WP_ENCO_CFG_EN n) = true) (hs : s.encosStand = false) (lag : 0 < s.encoLag n)
    (hp : ∀ a, (s.enco n).lastAt = some a → s.past a 100 = true) : ∃ z, s.encoEdge n =
      (edgeIssued (s.encoShow n) n ((s.enco n).k + 1) z).put (WP_ENCO_STAT_LAG n)
        (min ((edgeIssued (s.encoShow n) n ((s.enco n).k + 1) z).encoLag n) 65535) := by
  refine ⟨_, if_pos ⟨hn, en, by rw [hs]; rfl, lag, ?_⟩⟩
  rcases last : (s.enco n).lastAt with _ | a
  · rfl
  · simp only [hp a last, Bool.not_true, Bool.not_false]

/-- What an output's edge leaves: the next k and phase, the time, and the origin as it was. -/
structure EdgeMade (n : Nat) (s y : State) : Prop where
  kept : EncoKept n s y
  k : (y.enco n).k = (s.enco n).k + 1
  phase : (y.enco n).phase = ((s.enco n).phase + 1) % 4
  origin : (y.enco n).origin = (s.enco n).origin
  lastAt : (y.enco n).lastAt = some s.now

theorem edgeMade_issued (hl : n < s.web.encos.length) (z : Bool × Option Int) :
    EdgeMade n s (edgeIssued (s.encoShow n) n ((s.enco n).k + 1) z) := by
  have shown : EncoKept n s (s.encoShow n) := encoKept_encoShow
  have same := issued_encoShow (s := s) (n := n)
  have phase : ((s.encoShow n).enco n).phase = (s.enco n).phase := (congrArg Enco.phase same :)
  have origin : ((s.encoShow n).enco n).origin = (s.enco n).origin := (congrArg Enco.origin same :)
  have entry := (enco_modEnco (n := n) (s.encoShow n) n fun e => { e with
    k := (s.enco n).k + 1, phase := (e.phase + 1) % 4, z := z.1, zPage := z.2, lastAt := some (s.encoShow n).now }).trans
      (if_pos ⟨rfl, shown.length ▸ hl⟩)
  rw [edgeIssued]
  refine ⟨shown.trans encoKept_modEnco, ?_, ?_, ?_, ?_⟩ <;> rw [entry]
  · rw [phase]
  · rw [origin]
  · rw [shown.now]

/-- Once the edge is issued one less is due. -/
theorem EdgeMade.encoLag (h : EdgeMade n s y) (hn : n < 2) : y.encoLag n = s.encoLag n - 1 := by
  have word (a : Nat) (ha : a < 0x050000) (hs : a ≠ WP_ENCO_STAT n) (hl : 0x040000 ≤ a) : y.rd a = s.rd a :=
    h.kept.words a (web_not_shown hl ha) hs
  have en : y.is (WP_ENCO_CFG_EN n) = s.is (WP_ENCO_CFG_EN n) := by
    rw [State.is, State.is, State.get, State.get, word] <;> simp only [WP_ENCO_CFG, WP_ENCO_STAT] <;> omega
  have cpm : y.get (WP_ENCO_CPM_CPM n) = s.get (WP_ENCO_CPM_CPM n) := by
    rw [State.get, State.get, word] <;> simp only [WP_ENCO_CPM, WP_ENCO_STAT] <;> omega
  rw [encoLag_eq, encoLag_eq, h.kept.located.qInterp, h.origin, en, cpm, h.k, dueEdges_succ]

theorem EdgeMade.put {f : Fld} {v : Nat} (h : EdgeMade n s y) (hf : f.addr = WP_ENCO_STAT n) : EdgeMade n s (y.put f v) := by
  have entry : (y.put f v).enco n = y.enco n := by rw [State.enco, State.enco, put_web]
  exact ⟨h.kept.trans (encoKept_put hf), by rw [entry, h.k], by rw [entry, h.phase], by rw [entry, h.origin],
    by rw [entry, h.lastAt]⟩

/-- The state with other cameras. -/
def withCam (x : State) (c : Cam) : State := { x with cam := c }

theorem each_withCam {α : Type} {f : State → α → State} (hf : ∀ y a, ∃ c, f y a = withCam y c) (l : List α) :
    ∀ x : State, ∃ c, x.each l f = withCam x c := by
  induction l with
  | nil => exact fun x => ⟨x.cam, rfl⟩
  | cons a l ih =>
    intro x
    obtain ⟨c, hc⟩ := hf x a
    obtain ⟨d, hd⟩ := ih (f x a)
    exact ⟨d, hd.trans (by rw [hc]; rfl)⟩

/-- An output's edge is kept in the cameras' history and counted by the contexts it triggers. -/
theorem encoStep_withCam (s : State) (n : Nat) : ∃ c, s.encoStep n = withCam (s.encoEdge n) c := by
  have contexts := each_withCam (f := fun s c => s.modCtx c fun x => { x with edges := x.edges + 1 }) fun _ _ => ⟨_, rfl⟩
  simp only [State.encoStep]
  split
  · exact ⟨_, rfl⟩
  · obtain ⟨c, hc⟩ := contexts _ _
    exact ⟨c, hc⟩

theorem EdgeMade.withCam (h : EdgeMade n s y) (c : Cam) : EdgeMade n s (withCam y c) :=
  ⟨⟨h.kept.web, h.kept.now, h.kept.words, h.kept.others, h.kept.length⟩, h.k, h.phase, h.origin, h.lastAt⟩

theorem EdgeMade.rest (h : EdgeMade n s x) (r : Rest x y) : EdgeMade n s y := by
  have web : { y.web with pins := [] } = { x.web with pins := [] } := congrArg State.web r.bare
  have encos : y.web.encos = x.web.encos := (congrArg Web.encos web :)
  have entry : y.enco n = x.enco n := by rw [State.enco, State.enco, encos]
  exact ⟨h.kept.trans (encoKept_of_rest r), by rw [entry, h.k], by rw [entry, h.phase], by rw [entry, h.origin],
    by rw [entry, h.lastAt]⟩

theorem encoStat_not_shown (hn : n < 2) : WP_ENCO_STAT n ∉ shown := by
  refine web_not_shown ?_ ?_ <;> simp only [WP_ENCO_STAT] <;> omega

theorem encoEdge_effect (hn : n < 2) (hl : n < s.web.encos.length) (en : s.is (WP_ENCO_CFG_EN n) = true)
    (hs : s.encosStand = false) (lag : 0 < s.encoLag n) (hp : ∀ a, (s.enco n).lastAt = some a → s.past a 100 = true) :
    EdgeMade n s (s.encoEdge n) ∧ (s.encoEdge n).get (WP_ENCO_STAT_LAG n) = min (s.encoLag n - 1) 65535 := by
  obtain ⟨z, edge⟩ := encoEdge_due hn en hs lag hp
  have made := edgeMade_issued hl z
  rw [edge, made.encoLag hn]
  refine ⟨made.put rfl, (get_put_same _ _ _ (by simp) (by simp)).trans (Nat.mod_eq_of_lt ?_)⟩
  show _ < 65536
  omega

theorem exec_encoEdge (hc : s.core = .running) (hn : n < 2) (hl : n < s.web.encos.length) (en : s.is (WP_ENCO_CFG_EN n) = true)
    (hs : s.encosStand = false) (lag : 0 < (s.advance t).encoLag n)
    (hp : ∀ a, (s.enco n).lastAt = some a → (s.advance t).past a 100 = true) :
    ∃ s', exec (.encoEdge t n) s = .next s' ∧ EdgeMade n (s.advance t) s' ∧
      s'.get (WP_ENCO_STAT_LAG n) = min ((s.advance t).encoLag n - 1) 65535 := by
  obtain ⟨made, shows⟩ := encoEdge_effect (s := s.advance t) hn hl en hs lag hp
  obtain ⟨c, step⟩ := encoStep_withCam (s.advance t) n
  obtain ⟨s', next, r⟩ := run_rest (t := t) (f := fun s => s.encoStep n) hc (Rest.refl _)
  rw [step] at r
  exact ⟨s', next, (made.withCam c).rest r, (r.get _ (encoStat_not_shown hn)).trans shows⟩

/-- Settles O20: a probe's edge by `probeEdge_blanked` and `probeEdge_latch`, with what a mark it sets leaves of the web
(`exec_probeEdge`); an output's edge by `encoEdge_due`, whose LAG is the edges due less the one issued (`dueEdges_succ`). -/
theorem probesAndEmulation : Obligations.ProbesAndEmulation := by
  unfold Obligations.ProbesAndEmulation
  refine ⟨fun t n ago rising s hc hn hl he hm => ⟨fun p hp hb => exec_probeEdge_blanked hc hn hm he hp hb, fun hb =>
    ⟨probeEdge_stored hc hn hl hm he hb, probeEdge_lost hc hn hl hm he hb⟩⟩, ?_⟩
  intro t n s hc hn hl en hs lag hp
  obtain ⟨s', next, made, shows⟩ := exec_encoEdge hc hn hl en hs lag hp
  obtain ⟨p, q⟩ := made.kept.position
  exact ⟨s', next, made.k, made.phase, made.lastAt, made.origin, made.kept.others, p, q, shows, made.kept.words⟩

end

end Sys2Proof.Proofs
end

section
open Sys2Proof Sys2Proof.Machine
namespace Sys2Proof.Proofs
/-! A WRITE of one unit-local register: what it stores and sets off, and how it is answered (R427, R428). -/

section Item
variable {a m v st : Nat} {r : RegSpec} {s y : State}

/-- A register whose fields are all unit-local and have neither a shadow nor a lock nor bits cleared by a 1, apart from the
registers whose values two words form. -/
def LocalReg (a : Nat) (r : RegSpec) : Prop :=
  (0x010000 ≤ a ∧ a < 0x120000 ∧ a ≠ AG_RP_CTRL ∧ scBar a = none) ∧
    (a / 0x10000 ≠ 0x3 ∧ (a < JL_HC_ID 0 ∨ JL_HC_ID 8 ≤ a)) ∧
    regSpecAt a = some r ∧ (r.rws = 0 ∧ r.rwl = 0 ∧ r.w1c = 0 ∧ r.base ≠ MC_CFG) ∧ localBits a = fieldBits a

theorem lockKeys_local (L : LocalReg a r) : lockKeys ⟨a, m, v⟩ = [] := by
  obtain ⟨⟨-, high, -⟩, -, spec, ⟨-, rwl, -, base⟩, -⟩ := L
  simp only [lockKeys, if_pos high, spec, RegSpec.lockFields, if_neg base, rwl, if_true, List.filter_nil, List.map_nil]

theorem itemPut_local (L : LocalReg a r) : s.itemPut ⟨a, m, v⟩ = s.wr a (mixBits (s.rd a) v (m &&& r.rw)) := by
  have keys := lockKeys_local (m := m) (v := v) L
  obtain ⟨⟨-, high, -⟩, -, spec, ⟨rws, rwl, w1c, -⟩, -⟩ := L
  simp only [State.itemPut, if_pos high, spec, rws, rwl, w1c, Nat.or_zero, Nat.and_zero, mixBits_none, if_true, keys, List.nil_append]

theorem itemsOf_one : itemsOf [a, m, v] = [⟨a, m, v⟩] := by simp [itemsOf]

theorem isCritical_local (L : LocalReg a r) : isCritical 0x02 [a, m, v] = false := by
  obtain ⟨-, -, -, -, loc⟩ := L
  have same : m &&& fieldBits a &&& fieldBits a = m &&& fieldBits a := by rw [Nat.and_assoc, Nat.and_self]
  have kind : itemKind ⟨a, m, v⟩ = .idle ∨ itemKind ⟨a, m, v⟩ = .unitLocal := by
    simp only [itemKind, loc, same, if_true]
    split
    · exact .inl rfl
    · exact .inr rfl
  rw [isCritical, if_pos rfl, itemsOf_one]
  rcases kind with kind | kind <;> simp only [writeKind, List.map_cons, List.map_nil, kind] <;> rfl

/-- No item of a register apart from those that two words form is judged with another. -/
theorem jointCheck_local (L : LocalReg a r) : s.jointCheck [⟨a, m, v⟩] = none := by
  obtain ⟨-, ⟨time, heads⟩, -⟩ := L
  have none_ (p : Nat → Bool) (hp : p a = false) :
      (idxs ([⟨a, m, v⟩] : List WriteItem).length fun i =>
        p (([⟨a, m, v⟩] : List WriteItem).getD i ⟨0, 0, 0⟩).addr).getLast? = none := by
    simp [idxs, List.range_succ, hp]
  have band (n : Nat) (hn : n < 8) : (decide (JL_HC_ID n ≤ a) && decide (a < JL_HC_ID n + 0x40)) = false := by
    rw [Bool.and_eq_false_iff, decide_eq_false_iff_not, decide_eq_false_iff_not]
    simp only [JL_HC_ID] at heads ⊢
    omega
  have incr : (a == TB_INCR_LO || a == TB_INCR_HI) = false := by
    simp only [TB_INCR_LO, TB_INCR_HI, Bool.or_eq_false_iff, beq_eq_false_iff_ne]
    omega
  have adj : (a == TB_OFS_ADJ_LO || a == TB_OFS_ADJ_HI) = false := by
    simp only [TB_OFS_ADJ_LO, TB_OFS_ADJ_HI, Bool.or_eq_false_iff, beq_eq_false_iff_ne]
    omega
  simp only [State.jointCheck]
  rw [none_ (fun a => a == TB_INCR_LO || a == TB_INCR_HI) incr, none_ (fun a => a == TB_OFS_ADJ_LO || a == TB_OFS_ADJ_HI) adj,
    List.findSome?_eq_none_iff.2 fun n hn => by
      rw [none_ (fun a => decide (JL_HC_ID n ≤ a) && decide (a < JL_HC_ID n + 0x40)) (band n (List.mem_range.1 hn))]]
  rfl

theorem writeGo_done (L : LocalReg a r) (limit : s.itemLimit ⟨a, m, v⟩ = none)
    (act : (s.wr a (mixBits (s.rd a) v (m &&& r.rw))).actReg s a m v = (stOk, y)) :
    s.writeGo false [⟨a, m, v⟩] = (.ok, y) := by
  have acts : (s.itemPut ⟨a, m, v⟩).itemAct s ⟨a, m, v⟩ = (stOk, y) := by
    rw [itemPut_local L]
    obtain ⟨⟨low, high, replay, -⟩, -⟩ := L
    have block : ¬a / 0x10000 = 0 := by omega
    simp only [State.itemAct, if_neg (Nat.not_le.2 high), if_neg block, if_neg replay, act]
  have applied : s.itemApply false ⟨a, m, v⟩ = (stOk, 0, y) := by
    simp only [State.itemApply, limit, lockKeys_local L, List.any_nil, Bool.false_eq_true, if_false, Bool.false_and, acts]
  have run : s.itemsRun s false ([⟨a, m, v⟩] : List WriteItem).zipIdx = (.ok, y) := by
    simp only [List.zipIdx_cons, List.zipIdx_nil, State.itemsRun, applied, if_true]
  rw [State.writeGo, run]
  simp only [jointCheck_local L]
  rfl

/-- A register refused leaves everything as it was. -/
theorem writeGo_refused (L : LocalReg a r) (hs : st ≠ stOk) (limit : s.itemLimit ⟨a, m, v⟩ = some (st, 0)) :
    s.writeGo false [⟨a, m, v⟩] = (.of st 0, s) := by
  have applied : s.itemApply false ⟨a, m, v⟩ = (st, 0, s) := by simp only [State.itemApply, limit]
  obtain ⟨⟨low, -, -, bar⟩, -⟩ := L
  have commit : a ≠ GL_CMT_CTRL := by
    rintro rfl
    exact absurd low (by decide)
  have run : s.itemsRun s false ([⟨a, m, v⟩] : List WriteItem).zipIdx = (.of st 0, s) := by
    simp only [List.zipIdx_cons, List.zipIdx_nil, State.itemsRun, applied, if_neg hs, State.refusedItem, if_neg commit, bar]
    rfl
  rw [State.writeGo, run]
  exact if_pos (by simpa [Ans.of] using hs)

end Item

end Sys2Proof.Proofs
end

section
open Sys2Proof Sys2Proof.Machine
namespace Sys2Proof.Proofs
/-! A WRITE of one unit-local register as a command: performed on receipt and answered. -/

section Command
variable {a m v t t' op : Nat} {ws : List Nat} {h h' : DcpHdr} {b : List Nat} {i : Instr} {r : RegSpec} {s s' y : State} {ans : Ans}

/-- The state that a request's effect finds has the parts that no request's counter is kept in. -/
theorem taken_parts (s : State) (t : Nat) (h : DcpHdr) :
    (taken s t h).web = s.web ∧ (taken s t h).ptp = s.ptp ∧ (taken s t h).lanes = s.lanes := by
  have accepted (x : State) : (x.accept h true).web = x.web ∧ (x.accept h true).ptp = x.ptp ∧ (x.accept h true).lanes = x.lanes :=
    ⟨rfl, rfl, rfl⟩
  obtain ⟨web, ptp, lanes⟩ := accepted ((s.advance t).consume h)
  exact ⟨web.trans (consume_keeps State.web (fun _ _ => rfl) (fun _ _ => rfl) (fun _ _ => rfl) _),
    ptp.trans (consume_keeps State.ptp (fun _ _ => rfl) (fun _ _ => rfl) (fun _ _ => rfl) _),
    lanes.trans (consume_keeps State.lanes (fun _ _ => rfl) (fun _ _ => rfl) (fun _ _ => rfl) _)⟩

/-- What the row of a WRITE of one register carries. -/
theorem oneWrite_row (L : LocalReg a r) (hr : request t 0x02 h [a, m, v] = some (t, op, h', b)) :
    op = 0x02 ∧ h'.master < 4 ∧ h'.counter < 2 ^ 64 ∧ b = [a, m % 2 ^ 32, v % 2 ^ 32] := by
  have high : a < 0x120000 := L.1.2.1
  simp only [request, Option.some.injEq, Prod.mk.injEq] at hr
  obtain ⟨-, rfl, rfl, rfl⟩ := hr
  refine ⟨rfl, Nat.mod_lt _ (by decide), Nat.mod_lt _ (by decide), ?_⟩
  rw [List.map_cons, Nat.mod_eq_of_lt (show a < 2 ^ 32 by omega)]
  rfl

/-- A WRITE that is no critical one is performed at once: a RANGE found there leaves it uncounted. -/
theorem perform_write (hl : isCritical 0x02 b = false) (hw : (s.accept h true).writeGo false (itemsOf b) = (ans, y)) :
    s.perform 0x02 h b true = if ans.status = stRange ∧ ans.body = [] then s.reply 0x02 h ans else y.reply 0x02 h ans := by
  have go : (s.accept h true).localGo 0x02 b = (ans, y) := hw
  simp only [State.perform, hl, go]
  rfl

/-- Registers outside the host block's first page, where a request's counter, its count and the link stand. -/
def OffHost (ws : List Nat) : Prop := ∀ w ∈ ws, w < 0x0E0000 ∨ 0x0E0200 ≤ w

theorem offHost_one {w : Nat} (hw : w < 0x0E0000 ∨ 0x0E0200 ≤ w) : OffHost [w] := by
  intro c hc
  rwa [List.mem_singleton.1 hc]

theorem OffHost.apart (off : OffHost ws) {w : Nat} (hw : w ∈ ws) (hm : h.master < 4) : w ∉ takenWords h ∧ w ≠ HP_MP_STAT := by
  have outside := off w hw
  simp only [takenWords, List.mem_cons, List.not_mem_nil, or_false, HP_MST_CTR_LO, HP_MST_CTR_HI, HP_DCP_STAT, HP_MP_STAT]
  omega

theorem rd_taken (s : State) (t : Nat) {c : Nat} (hm : h.master < 4) (hc : c < 0x0E0000 ∨ 0x0E0200 ≤ c) :
    (taken s t h).rd c = s.rd c :=
  (taken_kept s t h).words c ((offHost_one hc).apart List.mem_cons_self hm).1

theorem get_taken (s : State) (t : Nat) {f : Fld} (hm : h.master < 4) (hf : f.addr < 0x0E0000 ∨ 0x0E0200 ≤ f.addr) :
    (taken s t h).get f = s.get f := congrArg (bits · f.hi f.lo) (rd_taken s t hm hf)

/-- What the answer of a WRITE leaves, from what its register's effect does. -/
theorem write_answered (p : Passes (s.advance t) 0x02 h' b) (hm : h'.master < 4) (hcount : h'.counter < 2 ^ 64) (off : OffHost ws)
    (words : ∀ c, c ∉ ws → y.rd c = (taken s t h').rd c) (ha : ans.status ≠ stAuthFail) (R : Rest (y.reply 0x02 h' ans) s') :
    Took s s' h' ∧ Answered y s' 0x02 h' ans ∧ WordsKept s s' (takenWords h' ++ ws) ∧ ∃ msg, Rest (y.emit msg) s' := by
  have k := taken_kept s t h'
  have link : y.is HP_MP_STAT_LINK = true := by
    rw [State.is, State.get, words _ fun h => (off.apart h hm).2 rfl, k.words _ (takenWords_apart hm HP_MP_STAT (by decide))]
    exact p.link
  obtain ⟨answered, R⟩ := answered_of_reply link (by decide) ha hm rfl R
  refine ⟨took_of_rest (t := t) (w := y.emit _) hm hcount p.fresh (fun c hc => words c fun h => (off.apart h hm).1 hc) R, answered,
    wordsKept_of_rest R fun c hc => ?_, _, R⟩
  rw [List.mem_append, not_or] at hc
  exact (words c hc.2).trans (k.words c hc.1)

/-- A WRITE of one unit-local register, with what the register's effect leaves but for the words `ws` and what it sends. -/
theorem exec_localWrite (L : LocalReg a r) (hc : s.core = .running) (hr : rowRequest i = some (t, 0x02, h', [a, m, v]))
    (p : Passes (s.advance t) 0x02 h' [a, m, v]) (hm : h'.master < 4) (hcount : h'.counter < 2 ^ 64)
    (go : (taken s t h').writeGo false [⟨a, m, v⟩] = (ans, y)) (ha : ans.status ≠ stAuthFail ∧ ans.status ≠ stRange)
    (off : OffHost ws) (words : ∀ c, c ∉ ws → y.rd c = (taken s t h').rd c) :
    ∃ s', exec i s = .next s' ∧ Took s s' h' ∧ Answered y s' 0x02 h' ans ∧ WordsKept s s' (takenWords h' ++ ws) ∧
      ∃ msg, Rest (y.emit msg) s' := by
  have critical : isCritical 0x02 [a, m, v] = false := isCritical_local L
  obtain ⟨s', next, R⟩ := exec_passes hc hr p critical
  rw [perform_write critical (itemsOf_one ▸ go), if_neg fun h => ha.2 h.1] at R
  exact ⟨s', next, write_answered p hm hcount off words ha.1 R⟩

/-- The answer is all that was sent where the effect sends nothing. -/
theorem answered_of_out {op : Nat} (h : Answered y s' op h' ans) (ho : y.out = s.out) : Answered s s' op h' ans := by
  rw [Answered, ← ho]
  exact h

end Command

end Sys2Proof.Proofs
end

section
open Sys2Proof Sys2Proof.Machine
namespace Sys2Proof.Proofs
/-! The unit-local registers that act: POP of a probe and of the PTP receive queue, and MAP of a lane (R190, R221, R250). -/

section Acting
variable {a n l t op c : Nat} {h h' : DcpHdr} {b : List Nat} {r : RegSpec} {s y : State}

/-- A register whose only field is its WO bit 0. -/
def actingSpec (base count stride ro : Nat) : RegSpec := ⟨base, count, stride, 1, 0, .none, 0, 0, 0, 1, 0, ro, 0⟩

theorem prbCtrl_local : ∀ n < 4, LocalReg (WP_PRB_CTRL n) (actingSpec (WP_PRB_CTRL 0) 4 0x20 0) := by
  unfold LocalReg
  decide +kernel

theorem rxqCtrl_local : LocalReg HP_PTP_RXQ_CTRL (actingSpec HP_PTP_RXQ_CTRL 1 0 0) := by
  unfold LocalReg
  decide +kernel

theorem headScan_local : ∀ l < 96, LocalReg (LANE_SCAN_CTRL l) (actingSpec (LANE_SCAN_CTRL 0) 96 0x100 2) := by
  unfold LocalReg
  decide +kernel

theorem ecnalScan_local : ∀ k < 4, LocalReg (LANE_SCAN_CTRL (96 + k)) (actingSpec (LANE_SCAN_CTRL 96) 4 0x100 2) := by
  unfold LocalReg
  decide +kernel

theorem scan_local (hl : l < 100) : ∃ base count, LocalReg (LANE_SCAN_CTRL l) (actingSpec base count 0x100 2) := by
  by_cases head : l < 96
  · exact ⟨_, _, headScan_local l head⟩
  · obtain ⟨k, rfl⟩ := Nat.exists_eq_add_of_le (Nat.not_lt.1 head)
    exact ⟨_, _, ecnalScan_local k (by omega)⟩

/-- The state in which a register's own word has been written to it: a WO bit is not stored. -/
def rewritten (s : State) (a : Nat) : State := s.wr a (s.rd a)

theorem rd_rewritten (s : State) (a c : Nat) : (rewritten s a).rd c = s.rd c := by
  rw [rewritten]
  rcases eq_or_ne c a with rfl | ne
  · rw [rd_wr_same, Nat.mod_eq_of_lt (rd_lt s _)]
  · exact rd_wr_ne s _ ne

theorem writeGo_acts {base count stride ro : Nat} (L : LocalReg a (actingSpec base count stride ro))
    (limit : s.itemLimit ⟨a, 1, 1⟩ = none) (act : (rewritten s a).actReg s a 1 1 = (stOk, y)) :
    s.writeGo false [⟨a, 1, 1⟩] = (.ok, y) := by
  refine writeGo_done L limit ?_
  have none_ : 1 &&& (actingSpec base count stride ro).rw = 0 := Nat.and_zero 1
  rw [none_, mixBits_none]
  exact act

theorem itemLimit_low {m v : Nat} (L : LocalReg a r) :
    s.itemLimit ⟨a, m, v⟩ = s.limitReg a (s.itemWord ⟨a, m, v⟩) m := if_pos L.1.2.1

/-! A probe's POP. -/

theorem probe_of_web {m : Nat} (h : y.web = s.web) : y.probe m = s.probe m := by rw [State.probe, State.probe, h]

theorem limitReg_prbCtrl (hn : n < 4) (s : State) (w m : Nat) : s.limitReg (WP_PRB_CTRL n) w m = none := by
  interval_cases n <;> rfl

theorem actReg_prbCtrl (hn : n < 4) (s x : State) : x.actReg s (WP_PRB_CTRL n) 1 1 = (stOk, x.probePop n) := by
  interval_cases n <;> rfl

theorem probePop_shows (x : State) (hl : n < x.web.probes.length) (hf : (x.probe n).fifo ≠ []) :
    ((x.probePop n).probe n).fifo = (x.probe n).fifo.drop 1 ∧ (∀ m, m ≠ n → (x.probePop n).probe m = x.probe m) ∧
      (x.probePop n).get (WP_PRB_STAT_ENTRIES n) = ((x.probe n).fifo.length - 1) % 32 ∧
      (∀ c, c ≠ WP_PRB_STAT n → (x.probePop n).rd c = x.rd c) ∧ (x.probePop n).out = x.out := by
  have popped : x.probePop n = (x.modProbe n fun p => { p with fifo := p.fifo.drop 1 }).put (WP_PRB_STAT_ENTRIES n)
      ((x.modProbe n fun p => { p with fifo := p.fifo.drop 1 }).probe n).fifo.length :=
    if_neg (by simpa using hf)
  have entry : (x.modProbe n fun p => { p with fifo := p.fifo.drop 1 }).probe n =
      { x.probe n with fifo := (x.probe n).fifo.drop 1 } :=
    (probe_modProbe x n _).trans (if_pos ⟨rfl, hl⟩)
  have others (m : Nat) (hm : m ≠ n) : (x.modProbe n fun p => { p with fifo := p.fifo.drop 1 }).probe m = x.probe m :=
    (probe_modProbe x n _).trans (if_neg fun e => hm e.1.symm)
  rw [popped]
  refine ⟨?_, fun m hm => ?_, ?_, fun c hc => rd_put_ne _ _ _ hc, put_out _ _ _⟩
  · rw [State.probe, put_web]
    exact congrArg Probe.fifo entry
  · rw [State.probe, put_web]
    exact others m hm
  · rw [entry, List.length_drop]
    exact get_put_same _ _ _ (by simp) (by simp)

theorem probe_of_emit {msg : Sent} {s' : State} {m : Nat} (R : Rest (y.emit msg) s') : s'.probe m = y.probe m := by
  rw [State.probe, probes_of_rest R]
  rfl

theorem get_of_emit {msg : Sent} {s' : State} {f : Fld} (R : Rest (y.emit msg) s') (hf : f.addr ∉ shown) : s'.get f = y.get f :=
  R.get f hf

theorem rd_of_emit {msg : Sent} {s' : State} (R : Rest (y.emit msg) s') (hc : c ∉ shown) : s'.rd c = y.rd c := R.words c hc

theorem ptp_of_emit {msg : Sent} {s' : State} (R : Rest (y.emit msg) s') : s'.ptp = y.ptp := (congrArg State.ptp R.bare :)

theorem lanes_of_emit {msg : Sent} {s' : State} (R : Rest (y.emit msg) s') : s'.lanes = y.lanes := (congrArg State.lanes R.bare :)

/-! The receive queue's POP. -/

theorem limitReg_rxqCtrl (s : State) (w m : Nat) : s.limitReg HP_PTP_RXQ_CTRL w m = none := rfl

theorem actReg_rxqCtrl (s x : State) : x.actReg s HP_PTP_RXQ_CTRL 1 1 = (stOk, x.rxPop) := rfl

theorem rxPop_shows (x : State) : x.rxPop.ptp = { x.ptp with rxq := x.ptp.rxq.drop 1, ovfRun := false } ∧
    (∀ c, c ≠ HP_PTP_RXQ_STAT → x.rxPop.rd c = x.rd c) ∧ x.rxPop.out = x.out :=
  ⟨put_ptp _ _ _, fun _ hc => rd_put_ne _ _ _ hc, put_out _ _ _⟩

/-! A lane's MAP. -/

/-- A lane's MAP lies outside the host block and is not among what any effect shows; the lane's state lies elsewhere. -/
theorem scan_off : ∀ l < 100, (LANE_SCAN_CTRL l < 0x0E0000 ∨ 0x0E0200 ≤ LANE_SCAN_CTRL l) ∧ LANE_SCAN_CTRL l ∉ shown ∧
    (LANE_STAT l < 0x0E0000 ∨ 0x0E0200 ≤ LANE_STAT l) := by decide +kernel

theorem inL0_of_words (h : y.rd (LANE_STAT l) = s.rd (LANE_STAT l)) : y.inL0 l = s.inL0 l := by
  rw [State.inL0, State.inL0, State.ready, State.ready, State.pstate, State.pstate, State.get, State.get, State.get, State.get, h]

theorem mapBusy_shows (x : State) (l : Nat) : (x.flag (LANE_SCAN_CTRL_MAP_BUSY l) true).get (LANE_SCAN_CTRL_MAP_BUSY l) = 1 ∧
    (∀ c, c ≠ LANE_SCAN_CTRL l → (x.flag (LANE_SCAN_CTRL_MAP_BUSY l) true).rd c = x.rd c) ∧
    (x.flag (LANE_SCAN_CTRL_MAP_BUSY l) true).out = x.out ∧ (x.flag (LANE_SCAN_CTRL_MAP_BUSY l) true).lanes = x.lanes :=
  ⟨get_put_same _ _ _ (by simp) (by simp), fun _ hc => rd_put_ne _ _ _ hc, put_out _ _ _, put_lanes _ _ _⟩

/-- A commanded WO bit stands in the word that the limits judge. -/
theorem itemWord_acts {base count stride ro : Nat} (L : LocalReg a (actingSpec base count stride ro)) :
    bit (s.itemWord ⟨a, 1, 1⟩) 0 = true := by
  obtain ⟨⟨-, high, -⟩, -, spec, -⟩ := L
  simp [State.itemWord, if_pos high, spec, actingSpec, bit, mixBits]

theorem scan_block : (∀ l < 96, LANE_SCAN_CTRL l / 0x10000 = 0xC) ∧
    ∀ l < 100, ¬l < 96 → LANE_SCAN_CTRL l / 0x10000 = 0xD := by
  decide +kernel

theorem scan_lane : ∀ l < 100, laneOf 0 (LANE_SCAN_CTRL l) = none ∧ laneOf 0x1C (LANE_SCAN_CTRL l) = none ∧
    laneOf 0x24 (LANE_SCAN_CTRL l) = some l ∧ LANE_SCAN_CTRL l ≠ JL_TRAIN_CFG ∧ LANE_SCAN_CTRL l ≠ JL_RT_CFG ∧
    LANE_SCAN_CTRL l ≠ JL_STAT_CFG ∧ instOf (JL_HC_ID 0) 0x40 8 (LANE_SCAN_CTRL l) = none ∧ LANE_SCAN_CTRL l ≠ PR_CFG ∧
    LANE_SCAN_CTRL l ≠ PR_CTRL := by decide +kernel

theorem limitReg_scan (hl : l < 100) (s : State) (w : Nat) (hw : bit w 0 = true) :
    s.limitReg (LANE_SCAN_CTRL l) w 1 = if s.inL0 l then none else some (stBadState, 0) := by
  obtain ⟨cfg, txeq, scan, train, retime, stat, heads, pair, -⟩ := scan_lane l hl
  have lane : limitLane s (LANE_SCAN_CTRL l) w 1 = if s.inL0 l then none else some (stBadState, 0) := by
    simp only [limitLane, cfg, txeq, scan, if_neg train, hw]
    cases s.inL0 l <;> rfl
  have line : limitJl s (LANE_SCAN_CTRL l) w 1 = none := by simp only [limitJl, if_neg retime, if_neg stat, heads]
  have partner : limitPr s (LANE_SCAN_CTRL l) w 1 = none := if_neg pair
  have block : s.limitReg (LANE_SCAN_CTRL l) w 1 = (limitLane s (LANE_SCAN_CTRL l) w 1).orElse' none := by
    by_cases head : l < 96
    · simp only [State.limitReg, scan_block.1 l head, line]
    · simp only [State.limitReg, scan_block.2 l hl head, partner]
  rw [block, lane]
  split <;> rfl

theorem actReg_scan (hl : l < 100) (s x : State) (hx : x.inL0 l = true) :
    x.actReg s (LANE_SCAN_CTRL l) 1 1 = (stOk, x.flag (LANE_SCAN_CTRL_MAP_BUSY l) true) := by
  obtain ⟨cfg, -, scan, -, -, stat, -, -, ctrl⟩ := scan_lane l hl
  have lane : actLane (LANE_SCAN_CTRL l) 1 1 s x = (stOk, x.flag (LANE_SCAN_CTRL_MAP_BUSY l) true) := by
    simp only [actLane, cfg, scan, show (bit 1 0 && bit 1 0) = true from rfl, if_true, State.laneMap, hx]
  by_cases head : l < 96
  · have line (y : State) : actJl (LANE_SCAN_CTRL l) 1 1 s y = (stOk, y) := if_neg fun e => stat e.1
    simp only [State.actReg, scan_block.1 l head, lane, line]
    rfl
  · have partner (y : State) : actPr (LANE_SCAN_CTRL l) 1 1 s y = (stOk, y) := if_neg ctrl
    simp only [State.actReg, scan_block.2 l hl head, lane, partner]
    rfl

/-! The three commands. -/

section Row
variable {t : Nat} (hc : s.core = .running) (p : Passes (s.advance t) op h' b)
include hc p

theorem exec_probePop (hn : n < 4) (hl : n < s.web.probes.length)
    (hr : rowRequest (.probePop t h [] [] n) = some (t, op, h', b)) (hf : (s.probe n).fifo ≠ []) :
    ∃ s', exec (.probePop t h [] [] n) s = .next s' ∧ Took s s' h' ∧ Answered s s' op h' .ok ∧
      (s'.probe n).fifo = (s.probe n).fifo.drop 1 ∧ (∀ m, m ≠ n → s'.probe m = s.probe m) ∧
      s'.get (WP_PRB_STAT_ENTRIES n) = ((s.probe n).fifo.length - 1) % 32 ∧
      WordsKept s s' [HP_MST_CTR_LO h'.master, HP_MST_CTR_HI h'.master, HP_DCP_STAT, WP_PRB_STAT n] := by
  have L := prbCtrl_local n hn
  have row : rowRequest (.probePop t h [] [] n) = request t 0x02 h [WP_PRB_CTRL n, 1, 1] := if_pos hn
  obtain ⟨rfl, hm, hcount, rfl⟩ := oneWrite_row L (row ▸ hr)
  obtain ⟨web, -, -⟩ := taken_parts s t h'
  have probe (m : Nat) : (rewritten (taken s t h') (WP_PRB_CTRL n)).probe m = s.probe m :=
    probe_of_web ((wr_web _ _ _).trans web)
  obtain ⟨fifo, others, entries, words, out⟩ := probePop_shows (rewritten (taken s t h') (WP_PRB_CTRL n))
    (n := n) (by rw [rewritten, wr_web, web]; exact hl) (by rw [probe]; exact hf)
  have go := writeGo_acts (s := taken s t h') L ((itemLimit_low L).trans (limitReg_prbCtrl hn _ _ _)) (actReg_prbCtrl hn _ _)
  generalize (rewritten (taken s t h') (WP_PRB_CTRL n)).probePop n = y at *
  obtain ⟨s', next, took, answered, kept, msg, R⟩ := exec_localWrite (ws := [WP_PRB_STAT n]) L hc hr p hm hcount go (by decide)
    (offHost_one (.inl (by simp only [WP_PRB_STAT]; omega))) fun c hc => (words c (by simpa using hc)).trans (rd_rewritten _ _ c)
  have stat : WP_PRB_STAT n ∉ shown := web_not_shown (by simp only [WP_PRB_STAT]; omega) (by simp only [WP_PRB_STAT]; omega)
  refine ⟨s', next, took, answered_of_out answered ((out.trans (wr_out _ _ _)).trans (taken_kept s t h').out), ?_, fun m hne => ?_,
    ?_, kept⟩
  · rw [probe_of_emit R, fifo, probe]
  · rw [probe_of_emit R, others m hne, probe]
  · rw [get_of_emit R stat, entries, probe]

theorem exec_rxqPop (hr : rowRequest (.ptpRxqPop t h [] []) = some (t, op, h', b)) :
    ∃ s', exec (.ptpRxqPop t h [] []) s = .next s' ∧ Took s s' h' ∧ Answered s s' op h' .ok ∧
      s'.ptp = { s.ptp with rxq := s.ptp.rxq.drop 1, ovfRun := false } ∧
      WordsKept s s' [HP_MST_CTR_LO h'.master, HP_MST_CTR_HI h'.master, HP_DCP_STAT, HP_PTP_RXQ_STAT] := by
  have row : rowRequest (.ptpRxqPop t h [] []) = request t 0x02 h [HP_PTP_RXQ_CTRL, 1, 1] := rfl
  obtain ⟨rfl, hm, hcount, rfl⟩ := oneWrite_row rxqCtrl_local (row ▸ hr)
  obtain ⟨-, ptp, -⟩ := taken_parts s t h'
  obtain ⟨popped, words, out⟩ := rxPop_shows (rewritten (taken s t h') HP_PTP_RXQ_CTRL)
  have go := writeGo_acts (s := taken s t h') rxqCtrl_local ((itemLimit_low rxqCtrl_local).trans (limitReg_rxqCtrl _ _ _))
    (actReg_rxqCtrl _ _)
  have same : (rewritten (taken s t h') HP_PTP_RXQ_CTRL).ptp = s.ptp := (wr_ptp _ _ _).trans ptp
  rw [same] at popped
  generalize (rewritten (taken s t h') HP_PTP_RXQ_CTRL).rxPop = y at *
  obtain ⟨s', next, took, answered, kept, msg, R⟩ := exec_localWrite (ws := [HP_PTP_RXQ_STAT]) rxqCtrl_local hc hr p hm hcount go
    (by decide) (offHost_one (by decide)) fun c hc => (words c (by simpa using hc)).trans (rd_rewritten _ _ c)
  exact ⟨s', next, took, answered_of_out answered ((out.trans (wr_out _ _ _)).trans (taken_kept s t h').out),
    (ptp_of_emit R).trans popped, kept⟩

theorem exec_laneScanMap (hl : l < 100) (hr : rowRequest (.laneScanMap t h [] [] l) = some (t, op, h', b)) :
    (s.inL0 l = true →
      ∃ s', exec (.laneScanMap t h [] [] l) s = .next s' ∧ Took s s' h' ∧ Answered s s' op h' .ok ∧
        s'.get (LANE_SCAN_CTRL_MAP_BUSY l) = 1 ∧ s'.lanes = s.lanes ∧
        WordsKept s s' [HP_MST_CTR_LO h'.master, HP_MST_CTR_HI h'.master, HP_DCP_STAT, LANE_SCAN_CTRL l]) ∧
    (s.inL0 l = false →
      ∃ s', exec (.laneScanMap t h [] [] l) s = .next s' ∧ Took s s' h' ∧ Answered s s' op h' (.of stBadState 0) ∧
        s'.lanes = s.lanes ∧ WordsKept s s' [HP_MST_CTR_LO h'.master, HP_MST_CTR_HI h'.master, HP_DCP_STAT]) := by
  obtain ⟨base, count, L⟩ := scan_local hl
  have row : rowRequest (.laneScanMap t h [] [] l) = request t 0x02 h [LANE_SCAN_CTRL l, 1, 1] := if_pos hl
  obtain ⟨rfl, hm, hcount, rfl⟩ := oneWrite_row L (row ▸ hr)
  obtain ⟨-, -, lanes⟩ := taken_parts s t h'
  obtain ⟨off, notShown, stat⟩ := scan_off l hl
  have limit : (taken s t h').itemLimit ⟨LANE_SCAN_CTRL l, 1, 1⟩ = if s.inL0 l then none else some (stBadState, 0) := by
    rw [itemLimit_low L, limitReg_scan hl _ _ (itemWord_acts L), inL0_of_words (rd_taken s t hm stat)]
  constructor
  · intro ready
    have ready' : (rewritten (taken s t h') (LANE_SCAN_CTRL l)).inL0 l = true := by
      rw [inL0_of_words (rd_rewritten _ _ _), inL0_of_words (rd_taken s t hm stat), ready]
    have go := writeGo_acts L (limit.trans (if_pos ready)) (actReg_scan hl _ _ ready')
    obtain ⟨busy, words, out, kept⟩ := mapBusy_shows (rewritten (taken s t h') (LANE_SCAN_CTRL l)) l
    have same : (rewritten (taken s t h') (LANE_SCAN_CTRL l)).lanes = s.lanes := (wr_lanes _ _ _).trans lanes
    rw [same] at kept
    generalize State.flag (rewritten (taken s t h') (LANE_SCAN_CTRL l)) _ _ = y at *
    obtain ⟨s', next, took, answered, named, msg, R⟩ := exec_localWrite (ws := [LANE_SCAN_CTRL l]) L hc hr p hm hcount go
      (by decide) (offHost_one off) fun c hc => (words c (by simpa using hc)).trans (rd_rewritten _ _ c)
    exact ⟨s', next, took, answered_of_out answered ((out.trans (wr_out _ _ _)).trans (taken_kept s t h').out),
      (get_of_emit R notShown).trans busy, (lanes_of_emit R).trans kept, named⟩
  · intro ready
    have go := writeGo_refused L (st := stBadState) (by decide) (limit.trans (if_neg (by rw [ready]; decide)))
    obtain ⟨s', next, took, answered, named, msg, R⟩ := exec_localWrite (ws := []) L hc hr p hm hcount go (by decide)
      (fun _ hw => absurd hw List.not_mem_nil) fun _ _ => rfl
    exact ⟨s', next, took, answered_of_out answered (taken_kept s t h').out, (lanes_of_emit R).trans lanes, named⟩

end Row

end Acting

end Sys2Proof.Proofs
end

section
open Sys2Proof Sys2Proof.Machine
namespace Sys2Proof.Proofs
/-! The unit-local registers with fields: the PTP buffer's SEND and EV_IRQ_MASK (R222, R425), and O33. -/

section Fields
variable {t op old m v hi lo : Nat} {h h' : DcpHdr} {b : List Nat} {s y : State}

def txCtrlSpec : RegSpec := ⟨HP_PTP_TX_CTRL, 1, 0, 1, 0, .none, 0x7FE, 0, 0, 1, 0, 0x800, 0x2C0⟩
def irqMaskSpec : RegSpec := ⟨EV_IRQ_MASK, 1, 0, 1, 0, .none, 0x1FE, 0, 0, 0, 0, 0, 0⟩

theorem txCtrl_local : LocalReg HP_PTP_TX_CTRL txCtrlSpec := by
  unfold LocalReg
  decide +kernel

theorem irqMask_local : LocalReg EV_IRQ_MASK irqMaskSpec := by
  unfold LocalReg
  decide +kernel

/-- Words that agree in a field's bits. -/
theorem bits_congr {x z : Nat} (e : ∀ i, lo ≤ i → i ≤ hi → x.testBit i = z.testBit i) : bits x hi lo = bits z hi lo := by
  refine Nat.eq_of_testBit_eq fun i => ?_
  simp only [bits, Nat.testBit_mod_two_pow, Nat.testBit_shiftRight]
  by_cases hb : i < hi + 1 - lo
  · rw [e (lo + i) (by omega) (by omega)]
  · simp only [hb, decide_false, Bool.false_and]

theorem testBit_mixBits (old new mask i : Nat) :
    (mixBits old new mask).testBit i = if mask.testBit i then new.testBit i else old.testBit i := by
  simp only [mixBits, Nat.testBit_or, Nat.testBit_xor, Nat.testBit_and]
  cases mask.testBit i <;> cases old.testBit i <;> cases new.testBit i <;> rfl

theorem mixBits_lt (ho : old < 2 ^ 32) (hv : v < 2 ^ 32) : mixBits old v m < 2 ^ 32 := by
  refine Nat.lt_pow_two_of_testBit _ fun i hi => ?_
  rw [testBit_mixBits, Nat.testBit_lt_two_pow (Nat.lt_of_lt_of_le ho (Nat.pow_le_pow_right (by decide) hi)),
    Nat.testBit_lt_two_pow (Nat.lt_of_lt_of_le hv (Nat.pow_le_pow_right (by decide) hi)), ite_self]

/-! SEND with the port, transport and length. -/

/-- The word that a SEND leaves, and the one commanded, agree in the fields written. -/
theorem bits_sendWord (hl : 1 ≤ lo) (hh : hi ≤ 10) :
    bits (mixBits old ((v ||| 1) % 2 ^ 32) ((m ||| 1) % 2 ^ 32 &&& 0x7FE)) hi lo =
      bits (mixBits old (v % 2 ^ 32) (m % 2 ^ 32 &&& 0xFFFFFFFE)) hi lo := by
  refine bits_congr fun i hi' hi'' => ?_
  have written : ∀ i < 11, 1 ≤ i →
      Nat.testBit 0x7FE i = true ∧ Nat.testBit 0xFFFFFFFE i = true ∧ Nat.testBit 1 i = false := by decide
  obtain ⟨field, others, one⟩ := written i (by omega) (by omega)
  simp only [testBit_mixBits, Nat.testBit_and, Nat.testBit_mod_two_pow, Nat.testBit_or, field, others, one, Bool.or_false,
    Bool.and_true]

/-- SEND leaves BUSY as it stands. -/
theorem bits_sendBusy : bits (mixBits old v (m &&& 0x7FE)) 11 11 = bits old 11 11 := by
  refine bits_congr fun i hi' hi'' => ?_
  obtain rfl : i = 11 := by omega
  have apart : Nat.testBit 0x7FE 11 = false := by decide
  rw [testBit_mixBits, Nat.testBit_and, apart, Bool.and_false, if_neg Bool.false_ne_true]

/-- SEND is commanded whatever else the WRITE selects. -/
theorem bit_send (m v : Nat) : bit ((m ||| 1) % 2 ^ 32 &&& (v ||| 1) % 2 ^ 32) 0 = true := by
  simp only [bit, Nat.testBit_and, Nat.testBit_mod_two_pow, Nat.testBit_or]
  simp

/-- The buffer's message on its port, and BUSY. -/
def ptpSent (x : State) (port tr : Nat) (bytes : List Byte) : State :=
  State.flag { x.emit (.ptp port tr (if beAt bytes 0 1 % 16 < 4 then 319 else 320) bytes) with
    ptp := { x.ptp with tx := some (port, decide (beAt bytes 0 1 % 16 < 4), beAt bytes 30 2) } } HP_PTP_TX_CTRL_BUSY true

/-- The message in the transmit buffer. -/
def txMessage (x : State) (len : Nat) : List Byte := ((List.range 16).flatMap fun k => leBytes 4 (x.rd (HP_PTP_TXBUF k))).take len

theorem ptpSend_sends (x : State) (busy : x.get HP_PTP_TX_CTRL_BUSY = 0) (tr3 : x.get HP_PTP_TX_CTRL_TRANSPORT ≠ 3)
    (on : x.bitOf HP_PTP_CFG_TRANSPORT (x.get HP_PTP_TX_CTRL_TRANSPORT) = true) (low : 34 ≤ x.get HP_PTP_TX_CTRL_LEN)
    (high : x.get HP_PTP_TX_CTRL_LEN ≤ 64) : x.ptpSend = (stOk, ptpSent x (x.get HP_PTP_TX_CTRL_PORT)
      (x.get HP_PTP_TX_CTRL_TRANSPORT) (txMessage x (x.get HP_PTP_TX_CTRL_LEN))) := by
  have free : x.is HP_PTP_TX_CTRL_BUSY = false := by rw [State.is, busy]; rfl
  have allowed : ¬(x.get HP_PTP_TX_CTRL_TRANSPORT = 3 ∨ (!x.bitOf HP_PTP_CFG_TRANSPORT (x.get HP_PTP_TX_CTRL_TRANSPORT)) = true ∨
      x.get HP_PTP_TX_CTRL_LEN < 34 ∨ 64 < x.get HP_PTP_TX_CTRL_LEN) := by
    rw [on]
    simp only [Bool.not_true, Bool.false_eq_true, false_or, not_or]
    omega
  simp only [State.ptpSend, free, Bool.false_eq_true, if_false, if_neg allowed]
  rfl

theorem ptpSent_shows (x : State) (port tr : Nat) (bytes : List Byte) :
    (ptpSent x port tr bytes).out = x.out ++ [.ptp port tr (if beAt bytes 0 1 % 16 < 4 then 319 else 320) bytes] ∧
      (ptpSent x port tr bytes).ptp = { x.ptp with tx := some (port, decide (beAt bytes 0 1 % 16 < 4), beAt bytes 30 2) } ∧
      (ptpSent x port tr bytes).get HP_PTP_TX_CTRL_BUSY = 1 ∧
      ∀ c, c ≠ HP_PTP_TX_CTRL → (ptpSent x port tr bytes).rd c = x.rd c :=
  ⟨put_out _ _ _, put_ptp _ _ _, get_put_same _ _ _ (by decide) (by decide), fun _ hc => rd_put_ne _ _ _ hc⟩

/-- The state in which the commanded port, transport and length stand. -/
def sendWritten (x : State) (m v : Nat) : State :=
  x.wr HP_PTP_TX_CTRL (mixBits (x.rd HP_PTP_TX_CTRL) ((v ||| 1) % 2 ^ 32) ((m ||| 1) % 2 ^ 32 &&& 0x7FE))

theorem rd_sendWritten (x : State) (m v : Nat) : (sendWritten x m v).rd HP_PTP_TX_CTRL =
    mixBits (x.rd HP_PTP_TX_CTRL) ((v ||| 1) % 2 ^ 32) ((m ||| 1) % 2 ^ 32 &&& 0x7FE) := by
  rw [sendWritten, rd_wr_same, Nat.mod_eq_of_lt (mixBits_lt (rd_lt x _) (Nat.mod_lt _ (by decide)))]

theorem sendWritten_field (x : State) (hl : 1 ≤ lo) (hh : hi ≤ 10) : (sendWritten x m v).get ⟨HP_PTP_TX_CTRL, hi, lo⟩ =
    bits (mixBits (x.rd HP_PTP_TX_CTRL) (v % 2 ^ 32) (m % 2 ^ 32 &&& 0xFFFFFFFE)) hi lo := by
  rw [State.get, rd_sendWritten, bits_sendWord hl hh]

theorem sendWritten_busy (x : State) : (sendWritten x m v).get HP_PTP_TX_CTRL_BUSY = x.get HP_PTP_TX_CTRL_BUSY := by
  rw [State.get, rd_sendWritten, bits_sendBusy, State.get]

theorem txMessage_congr {x : State} (len : Nat) (hx : ∀ k < 16, x.rd (HP_PTP_TXBUF k) = s.rd (HP_PTP_TXBUF k)) :
    txMessage x len = txMessage s len := by
  have words : ((List.range 16).flatMap fun k => leBytes 4 (x.rd (HP_PTP_TXBUF k))) =
      (List.range 16).flatMap fun k => leBytes 4 (s.rd (HP_PTP_TXBUF k)) :=
    List.flatMap_congr fun k hk => by rw [hx k (List.mem_range.1 hk)]
  rw [txMessage, txMessage, words]

theorem limitReg_txCtrl (s : State) (w m : Nat) : s.limitReg HP_PTP_TX_CTRL w m = none := rfl

theorem actReg_txCtrl (s x : State) (hb : bit (m &&& v) 0 = true) : x.actReg s HP_PTP_TX_CTRL m v = x.ptpSend := if_pos hb

theorem limitReg_irqMask (s : State) (w m : Nat) : s.limitReg EV_IRQ_MASK w m = none := rfl

theorem actReg_irqMask (s x : State) (m v : Nat) : x.actReg s EV_IRQ_MASK m v = (stOk, x) := rfl

section Row
variable (hc : s.core = .running) (p : Passes (s.advance t) op h' b)
include hc p

theorem exec_ptpSend (hr : rowRequest (.ptpSend t h [] [] m v) = some (t, op, h', b)) (busy : s.get HP_PTP_TX_CTRL_BUSY = 0)
    {w port tr len : Nat} (hw : w = mixBits (s.rd HP_PTP_TX_CTRL) (v % 2 ^ 32) (m % 2 ^ 32 &&& 0xFFFFFFFE))
    (hport : port = bits w 1 1) (htr : tr = bits w 3 2) (hlen : len = bits w 10 4) (tr3 : tr ≠ 3)
    (on : s.bitOf HP_PTP_CFG_TRANSPORT tr = true) (low : 34 ≤ len) (high : len ≤ 64)
    {bytes : List Byte} (hbytes : bytes = txMessage s len) :
    ∃ s', exec (.ptpSend t h [] [] m v) s = .next s' ∧ Took s s' h' ∧
      s'.out = s.out ++ [.ptp port tr (if beAt bytes 0 1 % 16 < 4 then 319 else 320) bytes,
        .dcp (answer op h' .ok) (s'.macOf h'.master (answer op h' .ok).msg)] ∧
      s'.ptp = { s.ptp with tx := some (port, decide (beAt bytes 0 1 % 16 < 4), beAt bytes 30 2) } ∧
      s'.get HP_PTP_TX_CTRL_BUSY = 1 ∧
      WordsKept s s' [HP_MST_CTR_LO h'.master, HP_MST_CTR_HI h'.master, HP_DCP_STAT, HP_PTP_TX_CTRL] := by
  have row : rowRequest (.ptpSend t h [] [] m v) = request t 0x02 h [HP_PTP_TX_CTRL, m ||| 1, v ||| 1] := rfl
  obtain ⟨rfl, hm, hcount, rfl⟩ := oneWrite_row txCtrl_local (row ▸ hr)
  obtain ⟨-, ptp, -⟩ := taken_parts s t h'
  have ctrl : (taken s t h').rd HP_PTP_TX_CTRL = s.rd HP_PTP_TX_CTRL := rd_taken s t hm (.inr (by decide))
  have field {hi lo : Nat} (hl : 1 ≤ lo) (hh : hi ≤ 10) :
      (sendWritten (taken s t h') m v).get ⟨HP_PTP_TX_CTRL, hi, lo⟩ = bits w hi lo := by
    rw [sendWritten_field _ hl hh, ctrl, hw]
  have port_ : (sendWritten (taken s t h') m v).get HP_PTP_TX_CTRL_PORT = port := (field (by decide) (by decide)).trans hport.symm
  have tr_ : (sendWritten (taken s t h') m v).get HP_PTP_TX_CTRL_TRANSPORT = tr := (field (by decide) (by decide)).trans htr.symm
  have len_ : (sendWritten (taken s t h') m v).get HP_PTP_TX_CTRL_LEN = len := (field (by decide) (by decide)).trans hlen.symm
  have others (c : Nat) (hc : c ≠ HP_PTP_TX_CTRL) (ho : 0x0E0200 ≤ c) : (sendWritten (taken s t h') m v).rd c = s.rd c :=
    (rd_wr_ne _ _ hc).trans (rd_taken s t hm (.inr ho))
  have message : txMessage (sendWritten (taken s t h') m v) len = bytes :=
    (txMessage_congr len fun k _ => others _ (by simp only [HP_PTP_TXBUF, HP_PTP_TX_CTRL]; omega)
      (by simp only [HP_PTP_TXBUF]; omega)).trans hbytes.symm
  have on_ : (sendWritten (taken s t h') m v).bitOf HP_PTP_CFG_TRANSPORT tr = true := by
    rw [State.bitOf, State.get, others _ (by decide) (by decide)]
    exact on
  have free : (sendWritten (taken s t h') m v).get HP_PTP_TX_CTRL_BUSY = 0 := by
    rw [sendWritten_busy, get_taken s t hm (.inr (by decide)), busy]
  have sends := ptpSend_sends (sendWritten (taken s t h') m v) free (tr_ ▸ tr3) (by rw [tr_]; exact on_) (len_ ▸ low)
    (len_ ▸ high)
  rw [port_, tr_, len_, message] at sends
  have go := writeGo_done (s := taken s t h') txCtrl_local ((itemLimit_low txCtrl_local).trans (limitReg_txCtrl _ _ _))
    ((actReg_txCtrl _ (sendWritten (taken s t h') m v) (bit_send m v)).trans sends)
  obtain ⟨out, sent, shows, words⟩ := ptpSent_shows (sendWritten (taken s t h') m v) port tr bytes
  obtain ⟨s', next, took, answered, kept, msg, R⟩ := exec_localWrite (ws := [HP_PTP_TX_CTRL]) txCtrl_local hc hr p hm hcount go
    (by decide) (offHost_one (by decide)) fun c hc =>
      (words c (by simpa using hc)).trans (rd_wr_ne _ _ (by simpa using hc))
  refine ⟨s', next, took, ?_, ?_, (get_of_emit R (by decide)).trans shows, kept⟩
  · have sent_ : (sendWritten (taken s t h') m v).out = s.out := (wr_out _ _ _).trans (taken_kept s t h').out
    rw [Answered, out, sent_, List.append_assoc] at answered
    exact answered
  · rw [ptp_of_emit R, sent, sendWritten, wr_ptp, ptp]

/-! EV_IRQ_MASK. -/

theorem exec_irqMask (hr : rowRequest (.write t h [EV_IRQ_MASK, m, v]) = some (t, op, h', b)) :
    ∃ s', exec (.write t h [EV_IRQ_MASK, m, v]) s = .next s' ∧ Took s s' h' ∧ Answered s s' op h' .ok ∧
      s'.rd EV_IRQ_MASK = mixBits (s.rd EV_IRQ_MASK) (v % 2 ^ 32) (m % 2 ^ 32 &&& 0x1FE) ∧
      WordsKept s s' [HP_MST_CTR_LO h'.master, HP_MST_CTR_HI h'.master, HP_DCP_STAT, EV_IRQ_MASK] := by
  have row : rowRequest (.write t h [EV_IRQ_MASK, m, v]) = request t 0x02 h [EV_IRQ_MASK, m, v] := rfl
  obtain ⟨rfl, hm, hcount, rfl⟩ := oneWrite_row irqMask_local (row ▸ hr)
  have mask : (taken s t h').rd EV_IRQ_MASK = s.rd EV_IRQ_MASK := rd_taken s t hm (.inr (by decide))
  have go := writeGo_done (s := taken s t h') irqMask_local ((itemLimit_low irqMask_local).trans (limitReg_irqMask _ _ _))
    (actReg_irqMask _ _ (m % 2 ^ 32) (v % 2 ^ 32))
  obtain ⟨s', next, took, answered, kept, msg, R⟩ := exec_localWrite (ws := [EV_IRQ_MASK]) irqMask_local hc hr p hm hcount go
    (by decide) (offHost_one (by decide)) fun c hc => rd_wr_ne _ _ (by simpa using hc)
  refine ⟨s', next, took, answered_of_out answered ((wr_out _ _ _).trans (taken_kept s t h').out), ?_, kept⟩
  rw [rd_of_emit R (by decide), rd_wr_same, mask]
  exact Nat.mod_eq_of_lt (mixBits_lt (rd_lt s _) (Nat.mod_lt _ (by decide)))

end Row

end Fields

/-- Settles O33: a WRITE of one unit-local register stores its fields and acts (`writeGo_done`), and is answered at once
(`exec_localWrite`); each register is one whose fields are all unit-local (`LocalReg`), and a lane that is not READY in L0 refuses
MAP by its limit (`limitReg_scan`). -/
theorem unitLocalRegisterCommands : Obligations.UnitLocalRegisterCommands := by
  unfold Obligations.UnitLocalRegisterCommands
  intro t op h h' b s hc p
  refine ⟨fun n hn hl hr hf => exec_probePop hc p hn hl hr hf, exec_rxqPop hc p, ?_, fun m v hr => exec_irqMask hc p hr,
    fun l hl hr => exec_laneScanMap hc p hl hr⟩
  intro m v hr busy w hw port tr len hport htr hlen tr3 on low high bytes hbytes
  exact exec_ptpSend hc p hr busy hw hport htr hlen tr3 on low high hbytes

end Sys2Proof.Proofs
end
